-- ==== Sys2Proof/Word.lean ====
section
/-! DEFINITION. The words of the machine: registers are 32 bits with bit 0 the least significant (R13), memory is
addressed by byte. -/

namespace Sys2Proof

/-- A register value (R13). -/
abbrev Word := BitVec 32

/-- One byte of memory. -/
abbrev Byte := BitVec 8

end Sys2Proof
end

