-- ==== Sys2Proof/Syntax.lean ====
section
/-! DEFINITION. The commands of the block: one constructor of `Instr` for each row of spec/opcode_table.json, and the
operand types they carry. A register command carries the request it came in; a physical event carries what the
device observes at that instant (notes/assumptions/5.md). -/

namespace Sys2Proof

/-- A single-register write as it reaches the device inside an accepted message: the session slot it came on, whether
its TAG verified (R567), and the epoch it names (R60). -/
structure Req where
  slot : Fin 8
  authOk : Bool
  epoch : Word
  deriving DecidableEq, Repr

/-- The header of a KCT message (R559) and the port it arrived on; `authOk` says whether its TAG verifies (R565). -/
structure Hdr where
  session : Word
  authOk : Bool
  seq : Nat
  ack : Nat
  epoch : Word
  window : Nat
  port : Fin 2
  deriving DecidableEq, Repr

/-- The payload of a STREAM_OPEN (R575). -/
structure StreamReq where
  kind : Nat
  credit : Nat
  rate : Nat
  base : Nat
  recSize : Nat
  size : Nat
  wrReg : Nat
  rdReg : Nat
  deriving DecidableEq, Repr

/-- What the signature unit reports of an object: whether its ML-DSA-87 signature verifies under the public key it holds, over the digest
the device computes, with the context string of its kind (R37, R216, R652). -/
structure CryptoObs where
  sigOk : Bool
  deriving DecidableEq, Repr

/-- A frame that is no KCT message, as R555 and R556 sort it. -/
inductive EthFrame where
  | neighbourDiscovery
  | arp
  | echo
  | pause
  | fragment
  | badChecksum
  | badKct
  | other
  deriving DecidableEq, Repr

/-- A lane of a group. -/
inductive LaneId where
  | a
  | b
  deriving DecidableEq, Repr

/-- A decoded link frame (R135 to R138): header fields, 64 payload vectors of 64 bits, and the control slot's four
entries. -/
structure Frame where
  fseq : Nat
  typ : Nat
  tset : Nat
  vlast : Nat
  first : Bool
  last : Bool
  payload : List Nat
  entries : List Nat
  deriving DecidableEq, Repr

/-- What a slack monitor times in a window (R83), in one unit of time. -/
structure SlackObs where
  guaranteed : Nat
  measured : Nat
  deriving DecidableEq, Repr

/-- The background jobs of R90. -/
inductive PavaneJob where
  | scrub
  | library
  | calibration
  | drift
  | eyeScan
  | telemetry
  deriving DecidableEq, Repr

/-- One sampling of the telemetry sensors (R92): junction sensors and the other temperatures in 1/16 °C, VIN in mV,
input current in mA, input power in 10 mW, and the eight rails in mV. -/
structure SensorObs where
  tj : List Int
  tCase : Int
  tHbm0 : Int
  tHbm1 : Int
  tNand : Int
  tPwr : Int
  vin : Nat
  iin : Nat
  pin : Nat
  rails : List Nat
  deriving DecidableEq, Repr

/-- What a linearisation run measured on one path pair of a channel (R283): for each path (drive, then compare) the mean
delay of every vernier code in 1/256 tick and the residuals at 64 times in 1/256 tick; the companion temperature
in 1/16 °C, the fitted drift coefficients (R289) in 1/1000 ps/°C, and whether the run ended early (R91). -/
structure LinObs where
  delays : List (List Int)
  residuals : List (List Int)
  temp : Int
  coefDrive : Int
  coefCompare : Int
  aborted : Bool
  deriving DecidableEq, Repr

/-- What a deskew run found on a channel (R285), in ticks: the stamps of the launch and of the open-circuit reflection, if one came,
the drive and compare path delays derived from them, and whether the run ended early. -/
structure DeskewObs where
  launch : Nat
  reflection : Option Nat
  drive : Int
  compare : Int
  aborted : Bool
  deriving DecidableEq, Repr

/-- What the two copies of a protected unit do at an operation (R172, R302): they agree, agree when the inputs are judged
again, or disagree a second time. -/
inductive Copies where
  | agree
  | retried
  | disagree
  deriving DecidableEq, Repr

/-- What a code-density run found on a channel (R405, R406): events by code and by cycle, the correlation coefficient of
successive codes in 10^-6, the precision figure in 0.01 ps, the companion temperature in 1/16 °C, whether the events
arrived in time, and whether the run ended early (R91). -/
structure CdObs where
  codes : List Nat
  cycles : List Nat
  correl : Int
  prec : Nat
  temp : Int
  inTime : Bool
  aborted : Bool
  deriving DecidableEq, Repr


/-- What the security units report when a command completes (R647, R648, R655): whether the burn verified, the identity public
key generated, and the signature of a report. -/
structure SecObs where
  burnOk : Bool
  key : List Word
  sig : List Byte
  deriving DecidableEq, Repr

/-- What the signature unit reports of the token in DBG_TOKEN (R659, R660): whether SIG verifies under its PUBKEY. -/
structure TokenObs where
  sigOk : Bool
  deriving DecidableEq, Repr

/-- What the debugger asks of a site core (R662). -/
inductive HaltAct where
  | halt
  | step
  | resume
  deriving DecidableEq, Repr

/-- What the signature unit reports at a start-up (R50, R653): of both firmware slots, the microcode and both image slots; and whether the
core image could be read from the library (R495). -/
structure BootObs where
  fw0 : CryptoObs
  fw1 : CryptoObs
  ucode : CryptoObs
  imgA : CryptoObs
  imgB : CryptoObs
  coreRead : Bool
  deriving DecidableEq, Repr

/-- What the cryptographic units report while a register write acts: at the start-up that a reset begins (R50, R653), and of the
token a debug request names (R660). -/
structure WriteObs where
  boot : BootObs
  token : TokenObs
  deriving DecidableEq, Repr

/-- An access through the debug access port (R657, R662): selecting it alone, reading or writing registers and memory, or reading
a register of a halted core (32 for the pc). -/
inductive DapAccess where
  | select
  | readReg (addr : Nat)
  | writeReg (addr : Nat) (value : Word) (obs : WriteObs)
  | readMem (addr len : Nat)
  | writeMem (addr : Nat) (data : List Byte)
  | readCore (k : Fin 64) (reg : Fin 33)
  deriving DecidableEq, Repr

/-- The commands and events of the block, one constructor for each row of the table, in the table's order. -/
inductive Instr where
  /-- REGISTER_WRITE (R16): A write to a register field that has no row of its own: refusals are tested in the order of R19, and each field then acts by its access type and change class. -/
  | registerWrite (q : Req) (addr : Nat) (value : Word) (obs : WriteObs)
  /-- RESET_RELEASE (R665): The rising edge of RESET_N latches the straps and starts the boot ROM, which leads through start-up. -/
  | resetRelease (straps : BitVec 8) (stable : Bool) (boot : BootObs)
  /-- VIN_RISE (R643): VIN rises above 5.8 V, so soft start sequences the rails and PWR_GOOD rises. -/
  | vinRise
  /-- VIN_UVLO (R643): VIN falls below 5.4 V, the device goes OFF and the grave condition is left. -/
  | vinUvlo
  /-- VIN_OVERVOLTAGE (R678): VIN above 61.0 V for 1 ms switches every rail off as a C4 fault. -/
  | vinOvervoltage
  /-- CURRENT_LIMIT_HELD (R678): Input current held at 24 A for 100 ms is a C4 fault. -/
  | currentLimitHeld
  /-- RAIL_OUT_OF_RANGE (R678): An internal rail outside ±8 % for 10 µs is a C4 fault of the power stage. -/
  | railOutOfRange
  /-- IMG_VERIFY (R53): IMG_CMD VERIFY runs checks 1 to 17 on a slot and updates only the report registers. -/
  | imgVerify (q : Req) (slot : Fin 2)
  /-- IMG_LOAD (R53): IMG_CMD LOAD starts the load of a named slot once the drain condition of R55 holds. -/
  | imgLoad (q : Req) (slot : Fin 2)
  /-- LOAD_AUTO (R53): IMG_CMD LOAD_AUTO applies the selection of R50 as a load. -/
  | loadAuto (q : Req)
  /-- LOAD_DRAIN_MET (R55): The drain condition of a waiting load is met, so the checks of R39 begin. -/
  | loadDrainMet (obsA : CryptoObs) (obsB : CryptoObs)
  /-- LOAD_DRAIN_TIMEOUT (R55): The drain condition of a load is not met within 2.0 s, so the load is refused with IMG_BUSY. -/
  | loadDrainTimeout
  /-- LOAD_SWITCH_POINT (R61): The checks of a load have passed; the new image is applied, the epoch advances and changed groups retrain. -/
  | loadSwitchPoint (coreRead : Bool) (coreReread : Bool)
  /-- LOAD_RETRAIN_TIMEOUT (R61): The 200 ms retrain time passes: the load is answered and each group not ACTIVE raises a C2 fault. -/
  | loadRetrainTimeout
  /-- BEAT_WINDOW_END (R68): A 1.024 ms measurement window of BEAT ends; good windows count toward qualification and a bad one is a loss. -/
  | beatWindowEnd (ppm : Int) (gapOk : Bool)
  /-- BEAT_LOSS (R73): BEAT is lost; qualification clears, the time base moves to the crystal and the loss is classed by power state. -/
  | beatLoss
  /-- RETURN_TO_BEAT (R72): In HOLD, STANDBY or DETACHED with BEAT qualified, the reference returns to BEAT and the unit rejoins the bus listen-only. -/
  | returnToBeat
  /-- XO_FAILURE (R76): The oscillator fails its amplitude or frequency check: C2 while on BEAT, latched C3 while on the crystal. -/
  | xoFailure
  /-- SLACK_WINDOW_END (R83): Each slack monitor's 10.24 µs window ends and its slack is computed. -/
  | slackWindowEnd (obs : List SlackObs)
  /-- BEAT_COUNT_READ (R96): A read of TBF_BEAT_COUNT_LO latches the upper half for the next read. -/
  | beatCountRead (q : Req)
  /-- PAVANE_PERIOD_MISS (R90): A Pavane job misses its period; TBF_PAV_LATE counts it and a C0 notice is raised. -/
  | pavanePeriodMiss (job : PavaneJob)
  /-- TELEMETRY_SAMPLE (R92): Every PERIOD_MS all sensors are sampled and a telemetry record is built. -/
  | telemetrySample (obs : SensorObs)
  /-- TRAINING_FRAME_RX (R107): A received training frame whose check holds carries the partner's requests and status. -/
  | trainingFrameRx (g : Fin 16) (lane : LaneId) (control : Word) (status : Word) (check : BitVec 16) (steer : Nat)
  /-- RX_READY_SET (R111): The receiver counts at most 16 errors in 2^24 training symbols and sets RX_READY. -/
  | rxReadySet (g : Fin 16) (lane : LaneId) (errors : Nat) (dfeTap : Nat) (mainCursor : Nat)
  /-- LANE_DETECT_EXIT (R112): Signal held for 1 µs and 4 markers found move the lane from DETECT to TRAIN. -/
  | laneDetectExit (g : Fin 16) (lane : LaneId) (inverted : Bool)
  /-- LANE_EXCHANGE_ACCEPT (R117): The partner's capability record, received 4 times identical with ACK, passes its checks and the lane enters ACTIVE. -/
  | laneExchangeAccept (g : Fin 16) (lane : LaneId) (aPs : Int) (bPs : Int)
  /-- LANE_STATE_TIMEOUT (R113): The TRAIN, LOCK or EXCHANGE timeout expires; the lane squelches for 10 ms and counts a failed attempt. -/
  | laneStateTimeout (g : Fin 16) (lane : LaneId)
  /-- SQUELCH_END (R113): The 10 ms squelch ends and the lane restarts from DETECT. -/
  | squelchEnd (g : Fin 16) (lane : LaneId)
  /-- LANE_SIGNAL_LOST (R112): Signal lost for 1 µs returns the lane to DETECT; loss of ACTIVE is classed under R119. -/
  | laneSignalLost (g : Fin 16) (lane : LaneId)
  /-- RETRAIN (R121): LNK_PHY_CMD RETRAIN sends a lane to DETECT and clears GAVE_UP, unless it would remove the only ACTIVE lane of a running group. -/
  | retrain (q : Req) (g : Fin 16) (laneA : Bool) (laneB : Bool)
  /-- EYE_SCAN_CMD (R126): LNK_PHY_CMD EYE starts an eye scan of a lane in both directions. -/
  | eyeScanCmd (q : Req) (g : Fin 16) (laneA : Bool) (laneB : Bool)
  /-- EYE_SCAN_PERIODIC (R90): The TBF_PAV_EYE_PERIOD timer starts Pavane's scan of a lane. -/
  | eyeScanPeriodic (g : Fin 16) (lane : LaneId)
  /-- EYE_SCAN_POINT_DONE (R126): The offset sampler finishes comparing at one point and the scan moves on, or ends with its report. -/
  | eyeScanPointDone (g : Fin 16) (lane : LaneId) (open_ : Bool)
  /-- EYE_RSP_TIMEOUT (R144): A partner eye-scan point unanswered within 100 ms ends the scan without a report. -/
  | eyeRspTimeout (g : Fin 16) (lane : LaneId)
  /-- PHY_XCTRL_WRITE (R131): An accepted write of LNK_PHY_XCTRL sets loopback and precoding and returns the lane to DETECT. -/
  | phyXctrlWrite (q : Req) (g : Fin 16) (lane : LaneId) (value : Word)
  /-- TXFFE_MAN_WRITE (R131): An accepted write of manual taps returns the lane to DETECT to train with them. -/
  | txffeManWrite (q : Req) (g : Fin 16) (lane : LaneId) (value : Word)
  /-- BERT_CTRL_WRITE (R125): Enabling BERT in loopback replaces idle frames with the pattern and clears the counters. -/
  | bertCtrlWrite (q : Req) (g : Fin 16) (value : Word)
  /-- FRAME_SEND (R147): The frame builder sends the next outward frame after its filler words, while the lead window permits. -/
  | frameSend (g : Fin 16) (t1 : Nat)
  /-- IDLE_FRAME_TIMER (R146): Outside a step, a frame is sent at least every 10 µs. -/
  | idleFrameTimer (g : Fin 16) (t1 : Nat)
  /-- INWARD_CODEWORD (R152): A codeword from a lane is decoded and merged, and frames are delivered or declared lost in FSEQ order. -/
  | inwardCodeword (g : Fin 16) (lane : LaneId) (marker : Word) (codeword : BitVec 4880) (t4 : Nat) (cmp : Copies) (intake : Copies) (tdc : Copies)
  /-- FILLER_WORD_RX (R141): A received filler word is classified and an eye-scan response word is collected. -/
  | fillerWordRx (g : Fin 16) (lane : LaneId) (word : Word)
  /-- PROBE_PERIOD (R163): Outside steps, count probes are repeated every PERIOD_MS and a correction found is applied as a C1 fault. -/
  | probePeriod (g : Fin 16)
  /-- CNT_ALIGN_TIMEOUT (R162): A group not aligned within 100 ms raises a C2 fault and alignment starts again. -/
  | cntAlignTimeout (g : Fin 16)
  /-- FRAME_INJECT (R169): A write of LNK_FR_INJECT corrupts symbols of the next outward frame. -/
  | frameInject (q : Req) (g : Fin 16) (value : Word)
  /-- FR_XCTRL_WRITE (R169): A write of LNK_FR_XCTRL makes a lane send fillers only, or is refused when it names both lanes. -/
  | frXctrlWrite (q : Req) (g : Fin 16) (value : Word)
  /-- STEP_START (R205): SEQ_STEP_CMD START is checked for admission and starts a step on the named contexts. -/
  | stepStart (q : Req) (at_ : Bool)
  /-- STEP_ABORT (R209): SEQ_STEP_CMD ABORT ends the running step at the frame that carries LAST. -/
  | stepAbort (q : Req)
  /-- STEP_LIST_RESIDENT (R207): Every step list becomes resident, so STEPTIME is set, or the step is abandoned when its AT count is missed. -/
  | stepListResident
  /-- STEP_VECTOR_ZERO (R341): Pin vector 0 of a step is released: chains reset, tone origins set and STEP_START asserted. -/
  | stepVectorZero
  /-- STEP_END (R208): The last vector of the last context is released, the step ends and the device returns to HOLD. -/
  | stepEnd
  /-- PLAY (R185): The PLAY instruction emits a segment once, with its segment start. -/
  | seqPlay (c : Fin 64)
  /-- PLAYN (R185): The PLAYN instruction emits a segment N times. -/
  | seqPlayn (c : Fin 64)
  /-- LOOP (R203): The LOOP instruction checks residency and pushes a loop entry, or holds. -/
  | seqLoop (c : Fin 64)
  /-- ENDLOOP (R185): The ENDLOOP instruction ends one pass of the top loop. -/
  | seqEndloop (c : Fin 64)
  /-- CALL (R185): The CALL instruction pushes the next address and continues at TARGET. -/
  | seqCall (c : Fin 64)
  /-- RET (R185): The RET instruction pops a return address and continues there. -/
  | seqRet (c : Fin 64)
  /-- JUMP (R185): The JUMP instruction continues at TARGET. -/
  | seqJump (c : Fin 64)
  /-- JUMPC (R188): The JUMPC instruction arms or disarms the context's conditional jump. -/
  | seqJumpc (c : Fin 64)
  /-- MATCH (R194): The MATCH instruction emits repetitions until one matches. -/
  | seqMatch (c : Fin 64)
  /-- WAITT (R196): The WAITT instruction emits hold vectors until a line acts or the timeout ends. -/
  | seqWaitt (c : Fin 64)
  /-- WAITTIME (R197): The WAITTIME instruction emits COUNT hold vectors. -/
  | seqWaittime (c : Fin 64)
  /-- TSET (R198): The TSET instruction switches the timing set of the groups whose TMASTER is the context. -/
  | seqTset (c : Fin 64)
  /-- SIGNAL (R199): The SIGNAL instruction issues a line event, SYNC, host event or dispatcher flag at the next vector. -/
  | seqSignal (c : Fin 64)
  /-- STAGE (R200): The STAGE instruction requests staging of a stage list. -/
  | seqStage (c : Fin 64)
  /-- SITEMASK (R201): The SITEMASK instruction changes one bank of the compare mask. -/
  | seqSitemask (c : Fin 64)
  /-- HOLD (R185): The HOLD instruction ends the context's part of the step so that the next step continues after it. -/
  | seqHold (c : Fin 64)
  /-- HALT (R185): The HALT instruction ends the context's part of the step. -/
  | seqHalt (c : Fin 64)
  /-- JUMP_EFFECT (R189): A pending jump reaches its point of effect: stacks are popped and the stream of TARGET starts. -/
  | jumpEffect (c : Fin 64)
  /-- MATCH_LEAVE (R194): A MATCH reaches its leave point and the next instruction starts, or it times out. -/
  | matchLeave (c : Fin 64)
  /-- WAITT_RELEASE (R196): The first vector of frame f + 40 after the line acted arrives and the next instruction starts. -/
  | waittRelease (c : Fin 64)
  /-- WAITT_TIMEOUT (R196): TIMEOUT hold vectors are emitted: WAIT_TIMEOUT is set, and the wait halts when TOHALT is 1. -/
  | waittTimeout (c : Fin 64)
  /-- WAITTIME_END (R197): COUNT hold vectors are emitted and the context continues. -/
  | waittimeEnd (c : Fin 64)
  /-- RESIDENCY_HOLD_END (R250): All objects of a held LOOP become resident and the first pass begins at the next unemitted frame. -/
  | residencyHoldEnd (c : Fin 64)
  /-- MICROWORD_EXECUTE (R216): An engine executes one microword of a context on both datapath copies. -/
  | microwordExecute (c : Fin 64) (copies : Copies)
  /-- MICRO_TRAP (R219): A pending micro-trap is taken at a microword boundary outside an atomic section. -/
  | microTrap (c : Fin 64)
  /-- CONTEXT_FAULT (R223): An uncorrectable state-store error starts a takeover by a spare context, or fences the context. -/
  | contextFault (c : Fin 64) (correctable : Bool)
  /-- CONTEXT_TAKEOVER_DONE (R224): The spare context resumes from the checkpoint and the frame builder accepts its vectors. -/
  | contextTakeoverDone (c : Fin 64)
  /-- TST_COMMIT (R272): TST_CMD COMMIT converts and checks one channel's entries of one set and sends the event words. -/
  | tstCommit (q : Req) (g : Fin 16)
  /-- TST_READ (R274): TST_CMD READ loads the committed entries into TST_EV and TST_RB. -/
  | tstRead (q : Req) (g : Fin 16)
  /-- WRITE_RAW (R275): TST_XCMD WRITE_RAW writes raw event words after the type checks. -/
  | writeRaw (q : Req) (g : Fin 16)
  /-- CAL_LIN (R283): TST_XCMD CAL_LIN starts linearisation of the named channels. -/
  | calLin (q : Req) (g : Fin 16) (force : Bool)
  /-- CAL_DESKEW (R285): TST_XCMD CAL_DESKEW starts deskew of the named channels. -/
  | calDeskew (q : Req) (g : Fin 16) (force : Bool)
  /-- SCHEDULED_LIN_CAL (R282): The TST_XCAL_PERIOD timer starts Pavane's linearisation of a channel. -/
  | scheduledLinCal (g : Fin 16) (k : Fin 32)
  /-- LIN_CAL_COMPLETE (R284): A linearisation run ends and its table is accepted or rejected. -/
  | linCalComplete (g : Fin 16) (k : Fin 32) (obs : LinObs)
  /-- DESKEW_COMPLETE (R285): A deskew run ends and its skews are accepted or rejected. -/
  | deskewComplete (g : Fin 16) (k : Fin 32) (obs : DeskewObs)
  /-- CAL_AGE_EXPIRY (R288): A channel's linearisation passes 30 days and becomes stale. -/
  | calAgeExpiry (g : Fin 16) (k : Fin 32)
  /-- TSET_WRITE (R278): A host write of TST_TSET takes effect at the next frame boundary and reports TST_TSET_AT. -/
  | tsetWrite (q : Req) (g : Fin 16) (value : Word)
  /-- PERIOD_WRITE (R280): A write of TST_PERIOD is range-checked against every committed entry. -/
  | periodWrite (q : Req) (g : Fin 16) (value : Word)
  /-- MODE_WRITE (R281): A write of TST_MODE is checked against PERMIT and shadowed until the next START. -/
  | modeWrite (q : Req) (g : Fin 16) (r : Fin 4) (value : Word)
  /-- LIN_DATA_WRITE (R288): A write of TST_XLIN_DATA edits a table entry, marks the table not accepted and advances the index. -/
  | linDataWrite (q : Req) (g : Fin 16) (value : Word)
  /-- LIN_DATA_READ (R293): A read of TST_XLIN_DATA returns an entry and advances the index. -/
  | linDataRead (q : Req) (g : Fin 16)
  /-- CMP_LOG_RD_WRITE (R310): A write of CMP_LOG_RD records consumed fail-log records, or is refused. -/
  | cmpLogRdWrite (q : Req) (value : Word)
  /-- CMP_LOG_CONFIG_WRITE (R310): An accepted write of the fail-log base or size clears WR and RD. -/
  | cmpLogConfigWrite (q : Req) (which : Fin 3) (value : Word)
  /-- FAIL_INJECT (R317): A write of CMP_XINJECT arms or disarms a forced mismatch on a channel. -/
  | failInject (q : Req) (value : Word)
  /-- MEASURE_OUTPUT (R347): A measure chain produces an output sample, with its flags, at its instant. -/
  | measureOutput (c : Fin 512) (residue : Option (Fin 9)) (copies : Copies)
  /-- XCH_SET_WRITE (R338): A write of MEA_XCH_RS or HB is accepted as a fade, or refused with XFADE_BUSY, XFADE_FULL or CHAIN_INVALID. -/
  | xchSetWrite (q : Req) (c : Fin 512) (which : Fin 3) (value : Word)
  /-- COEF_DATA_WRITE (R340): A write of MEA_XCOEF_DATA writes a user coefficient unless the set is in use, and advances the index. -/
  | coefDataWrite (q : Req) (value : Word)
  /-- COEF_DATA_READ (R355): A read of MEA_XCOEF_DATA returns a coefficient and advances the index. -/
  | coefDataRead (q : Req)
  /-- CHAIN_WRITE (R355): A write of MEA_XCH_CHAIN or RHO sets an expert chain and clears MEA_CH_TARGET. -/
  | chainWrite (q : Req) (c : Fin 512) (isRho : Bool) (value : Word)
  /-- TARGET_WRITE (R355): A non-zero MEA_CH_TARGET replaces the chain with a preset chain at the next START. -/
  | targetWrite (q : Req) (c : Fin 512) (value : Word)
  /-- SOURCE_VECTOR (R357): A source channel forms its modulator input and level for one vector. -/
  | sourceVector (c : Fin 512) (overload : Bool) (copies : Copies)
  /-- PLAYLIST_WAIT_RELEASE (R375): A play-list wait ends at frame f + 40 after its line acted. -/
  | playlistWaitRelease (c : Fin 512)
  /-- NCO_FREQ_WRITE (R372): A write of SRC_NCO_FREQ_HI commits a FREQ change, phase-continuous at the next frame boundary. -/
  | ncoFreqWrite (q : Req) (value : Word)
  /-- TDC_Q_RD_WRITE (R392): A write of TDC_CH_Q_RD frees ring space, or is refused. -/
  | tdcQRdWrite (q : Req) (c : Fin 512) (value : Word)
  /-- CAL_CD (R403): TDC_XCMD CAL_CD starts code-density calibration of the named channels. -/
  | calCd (q : Req) (g : Fin 16) (force : Bool)
  /-- SCHEDULED_CD_CAL (R403): The TDC_XCAL_PERIOD timer starts Pavane's code-density calibration. -/
  | scheduledCdCal (g : Fin 16) (k : Fin 32)
  /-- CD_CAL_COMPLETE (R406): A code-density run ends and its bin table is accepted or rejected. -/
  | cdCalComplete (g : Fin 16) (k : Fin 32) (obs : CdObs)
  /-- BIN_DATA_WRITE (R409): A write of TDC_XBIN_DATA edits a bin width and advances the index. -/
  | binDataWrite (q : Req) (value : Word)
  /-- BIN_DATA_READ (R412): A read of TDC_XBIN_DATA returns a bin width and advances the index. -/
  | binDataRead (q : Req)
  /-- BIN_TABLE_STALE (R409): A bin table becomes stale after 30 days and a C0 notice is raised. -/
  | binTableStale (c : Fin 512)
  /-- LINE_ACT (R413): A trigger line acts from a direct event or a matrix rise, subject to holdoff, and is sampled by its consumers. -/
  | lineAct (l : Fin 64) (t : Nat) (copies : Copies)
  /-- TRG_FIRE (R416): A write of TRG_FIRE issues a direct event on a line. -/
  | trgFire (q : Req) (value : Word)
  /-- LINE_SRC_WRITE (R450): A write of TRG_LINE_SRC01 or SRC23 is refused whole when a selector is invalid. -/
  | lineSrcWrite (q : Req) (l : Fin 64) (hi : Bool) (value : Word)
  /-- ACQ_R_RD_WRITE (R426): A write of ACQ_R_RD records consumed records, or is refused or ignored. -/
  | acqRRdWrite (q : Req) (a : Fin 32) (r : Fin 4) (value : Word)
  /-- QT_RECEIVED (R437): A QT flag and offset word pair is received and its act instant is scheduled. -/
  | qtReceived (k : Fin 32) (off : Fin 128) (cs : Nat)
  /-- QT_ACT (R437): The scheduled act instant of a QT arrives on every unit. -/
  | qtAct (k : Fin 32)
  /-- TOD_FRAME (R440): A time-of-day frame is received and its COUNT is compared with the unit's own count. -/
  | todFrame (frame : BitVec 128) (age : Nat)
  /-- QD_HEARTBEAT (R441): A presence heartbeat is received in its turn, or its turn is missed. -/
  | qdHeartbeat (u : Fin 32) (word : Option (BitVec 16))
  /-- PEER_ABSENT (R446): 3 missed turns make a peer absent: PARTNER_LOST, write-off in LG8, and succession when it led. -/
  | peerAbsent (u : Fin 32)
  /-- FAULT_BROADCAST_RX (R442): A fault-broadcast bit is seen or lost, so PEER_HALT of that unit asserts or deasserts. -/
  | faultBroadcastRx (u : Fin 32) (seen : Bool)
  /-- HINTS_RX (R443): The leader's hints are received and OWNER_DIFFERS is updated. -/
  | hintsRx (leader : Fin 32) (tag : Byte)
  /-- LISTEN_END (R444): Listen-only ends, the count is stepped and the unit joins the bus. -/
  | listenEnd (delays : List (Nat × Nat))
  /-- LEADER_TIMEOUT (R445): No valid frame for 16,384 cycles: a MEMBER waits, and a LEADER-CAPABLE unit claims leadership. -/
  | leaderTimeout
  /-- CLAIM_BACKOFF_END (R445): A withdrawn claimant's backoff ends and it claims again. -/
  | claimBackoffEnd
  /-- QD_CELL_MISMATCH (R447): A driven cell disagrees with what is received and is fenced. -/
  | qdCellMismatch (q : Fin 4)
  /-- REJOIN (R452): QDR_CMD REJOIN makes the unit leave operation and listen again. -/
  | rejoin (q : Req)
  /-- HBM_CORRECTED_ERROR (R462): A corrected HBM error writes back the data as a C1 fault. -/
  | hbmCorrectedError (st : Fin 2) (addr : Nat)
  /-- HBM_UNCORRECTABLE (R462): An uncorrectable HBM error is repaired from the mirror or poisons the unit. -/
  | hbmUncorrectable (st : Fin 2) (addr : Nat) (copied : Bool)
  /-- PC_FENCE (R463): A pseudo-channel is fenced, and the spare takes over or the stack degrades. -/
  | pcFence (st : Fin 2) (n : Option (Fin 32))
  /-- SPARE_COPY_COMPLETE (R464): The copy into the spare pseudo-channel ends and mirroring is whole again. -/
  | spareCopyComplete (unread : List Nat)
  /-- HBM_TEMP_REFRESH (R461): A stack sensor crossing 85 °C or 80 °C switches refresh to double or normal. -/
  | hbmTempRefresh (st : Fin 2) (hot : Bool)
  /-- MEM_OBJ_BASE_WRITE (R482): A write of MEM_OBJ_BASE moves the object area and evicts every resident object. -/
  | memObjBaseWrite (q : Req) (hi : Bool) (value : Word)
  /-- MEM_INJECT (R490): A write of MEM_XINJECT arms or disarms an injected error. -/
  | memInject (q : Req) (value : Word)
  /-- LIB_CREATE (R471): LIB_CMD CREATE makes an OPEN object. -/
  | libCreate (q : Req)
  /-- LIB_WRITE (R471): LIB_CMD WRITE appends bytes from an HBM buffer to an object. -/
  | libWrite (q : Req)
  /-- LIB_READ (R473): LIB_CMD READ copies bytes of an object into HBM. -/
  | libRead (q : Req)
  /-- LIB_DELETE (R473): LIB_CMD DELETE removes an unpinned object. -/
  | libDelete (q : Req)
  /-- LIB_STAGE (R478): LIB_CMD STAGE queues an object for staging. -/
  | libStage (q : Req)
  /-- LIB_EVICT (R491): LIB_CMD EVICT removes an unpinned object from the object area. -/
  | libEvict (q : Req)
  /-- LIB_INFO (R473): LIB_CMD INFO loads an object's record into LIB_INFO. -/
  | libInfo (q : Req)
  /-- LIB_CANCEL (R474): LIB_CMD CANCEL ends a WRITE or READ in progress. -/
  | libCancel (q : Req)
  /-- WRITE_UNIT_COMMIT (R476): A write unit is programmed with its parity; an object or slot seals when complete. -/
  | writeUnitCommit
  /-- LIB_CMD_COMPLETE (R474): A WRITE or READ ends; its code goes to LIB_CMD_RESULT and the event stream. -/
  | libCmdComplete (obs : CryptoObs)
  /-- STAGING_COMPLETE (R477): An object becomes resident, and held checks and STAGE requests are rechecked. -/
  | stagingComplete
  /-- STAGE_FAILED (R481): A staging request ends unserved, with its reason in LIB_STG_FAIL. -/
  | stageFailed (id : Nat) (digest : Bool)
  /-- PATROL_PASS (R484): Patrol reads a page and rewrites its block when corrected bits exceed the threshold. -/
  | patrolPass (corrected : Nat)
  /-- BLOCK_RETIRE (R485): A failing block is retired into the spare pool, or the library turns read-only when the pool is empty. -/
  | blockRetire (block : Nat)
  /-- DIE_FAILURE (R486): A failed die is rebuilt through parity into the spare pool. -/
  | dieFailure (die : Fin 64) (set : Fin 4) (lost : List Nat)
  /-- FENCE_REL (R496): The core instruction FENCE.REL drains the write buffer and cleans dirty lines. -/
  | fenceRel (k : Fin 64)
  /-- FENCE_ACQ (R496): The core instruction FENCE.ACQ invalidates clean cache lines. -/
  | fenceAcq (k : Fin 64)
  /-- TNEXT (R496): The core instruction TNEXT waits for a task in the local slot and starts it. -/
  | tnext (k : Fin 64) (r : Fin 32)
  /-- TDONE (R512): The core instruction TDONE ends a task and forms its output record for release. -/
  | tdone (k : Fin 64) (r1 : Fin 32)
  /-- TSUBMIT (R506): The core instruction TSUBMIT submits a descriptor to the dispatcher. -/
  | tsubmit (k : Fin 64) (r : Fin 32) (r1 : Fin 32)
  /-- TYIELD (R510): The core instruction TYIELD returns a pre-empted task to the head of its list. -/
  | tyield (k : Fin 64)
  /-- SCH_SUB_GO (R506): A write of SCH_SUB_GO submits the host descriptor. -/
  | schSubGo (q : Req)
  /-- TEMPLATE_RETRY (R507): A slot frees and pending template submissions are retried in flag order. -/
  | templateRetry
  /-- DISPATCH_PLACEMENT (R508): The dispatcher places the highest-priority ready task on a core, in a slot, or by pre-emption. -/
  | dispatchPlacement (copies : Copies)
  /-- PREEMPT_LATE (R510): A core has not yielded within PREEMPT_MAX, which is counted and raises a C0 notice. -/
  | preemptLate (k : Fin 64)
  /-- FLUSH (R520): SCH_CMD FLUSH cancels the ready and slotted tasks of a list. -/
  | flush (q : Req) (l : Fin 64)
  /-- SCH_FLOW_RD_WRITE (R513): A write of SCH_FLOW_RD frees ring room and releases held records. -/
  | schFlowRdWrite (q : Req) (f : Fin 1024) (value : Word)
  /-- CORE_MISMATCH (R516): A core's lockstep copies disagree and the pair is fenced as C2. -/
  | coreMismatch (k : Fin 64)
  /-- CORE_TAKEOVER_DONE (R517): A spare core resumes the fenced core's state. -/
  | coreTakeoverDone (k : Fin 64)
  /-- DMA_START (R524): DMA_CH_CMD START validates the channel and issues a token. -/
  | dmaStart (q : Req) (c : Fin 32)
  /-- DMA_STOP (R546): DMA_CH_CMD STOP ends a run, which completes with ABORTED. -/
  | dmaStop (q : Req) (c : Fin 32)
  /-- DMA_MOVE (R530): The MOVE instruction copies elements over its loop pattern. -/
  | dmaMove (c : Fin 32)
  /-- DMA_LOOP (R530): The LOOP instruction sets the address pattern of the next MOVE. -/
  | dmaLoop (c : Fin 32)
  /-- DMA_WAIT (R532): The WAIT instruction waits on a memory word or a line. -/
  | dmaWait (c : Fin 32)
  /-- DMA_WAIT_POLL (R532): A 1 µs poll reads the WAIT word and checks it against COND. -/
  | dmaWaitPoll (c : Fin 32)
  /-- DMA_WAIT_TIMEOUT (R532): A WAIT reaches its TIMEOUT and ends the run. -/
  | dmaWaitTimeout (c : Fin 32)
  /-- DMA_SIGNAL (R532): The SIGNAL instruction sets a flag, writes memory or sends a host event. -/
  | dmaSignal (c : Fin 32)
  /-- DMA_END (R532): The END instruction ends the run with OK. -/
  | dmaEnd (c : Fin 32)
  /-- DMA_NOP (R532): The NOP instruction does nothing. -/
  | dmaNop (c : Fin 32)
  /-- DMA_BURST_GRANT (R537): The arbiter grants a burst to a channel by reservation and priority. -/
  | dmaBurstGrant (spent : List Nat) (copies : Copies)
  /-- DMA_WRITE_ANSWER (R544): A write answer arrives; an error ends the run with ERR_WRITE or ERR_FINAL_BEAT. -/
  | dmaWriteAnswer (c : Fin 32) (beat : Nat) (ok : Bool)
  /-- DMA_READ_ERROR (R543): A read answered with an error ends the run with ERR_READ. -/
  | dmaReadError (c : Fin 32)
  /-- DMA_COMPLETION_RECORD (R541): A completion record is appended to the ring, or held while the ring is full. -/
  | dmaCompletionRecord (c : Fin 32)
  /-- DMA_CQ_RD_WRITE (R541): A write of DMA_CQ_RD frees ring room and releases held records. -/
  | dmaCqRdWrite (q : Req) (value : Word)
  /-- DMA_ENGINE_FAULT (R547): A second disagreement fences the engine and re-hosts the channel on a free engine. -/
  | dmaEngineFault (c : Fin 32)
  /-- SESSION_INIT (R564): A SESSION_INIT message starts a handshake answered by SESSION_CHALLENGE. -/
  | sessionInit (hostPub : List Byte) (port : Fin 2)
  /-- SESSION_CONFIRM (R564): A SESSION_CONFIRM message is checked and admitted, and SESSION_OPEN is sent. -/
  | sessionConfirm (h : Hdr) (sigOk : Bool)
  /-- HANDSHAKE_TIMEOUT (R563): A handshake incomplete after 2.0 s is discarded. -/
  | handshakeTimeout (slot : Fin 8)
  /-- CLOSE (R568): A CLOSE message closes the session. -/
  | close (h : Hdr)
  /-- ACK (R569): An ACK message acknowledges device messages and advances RING read counts. -/
  | ack (h : Hdr)
  /-- READ_REG (R561): A READ_REG message returns registers. -/
  | readReg (h : Hdr) (addr : Nat) (count : Nat)
  /-- WRITE_REG (R561): A WRITE_REG message performs single-register writes in order. -/
  | writeReg (h : Hdr) (addr : Nat) (values : List Word) (obs : WriteObs)
  /-- READ_MEM (R561): A READ_MEM message returns memory. -/
  | readMem (h : Hdr) (addr : Nat) (len : Nat)
  /-- WRITE_MEM (R562): A WRITE_MEM message is checked whole and applied. -/
  | writeMem (h : Hdr) (addr : Nat) (data : List Byte)
  /-- CLAIM (R572): A CLAIM message takes ownership, records a standing claim or joins an election. -/
  | claim (h : Hdr)
  /-- HEARTBEAT (R572): A HEARTBEAT message renews the owner's lease. -/
  | heartbeat (h : Hdr)
  /-- HANDOVER (R573): A HANDOVER message offers ownership to a successor. -/
  | handover (h : Hdr) (successor : Word)
  /-- ACCEPT (R573): An ACCEPT message takes an offered ownership. -/
  | accept (h : Hdr)
  /-- RELEASE (R572): A RELEASE message gives up ownership or a standing claim. -/
  | release (h : Hdr)
  /-- STREAM_OPEN (R577): A STREAM_OPEN message opens a stream within the limits. -/
  | streamOpen (h : Hdr) (p : StreamReq)
  /-- STREAM_CREDIT (R578): A STREAM_CREDIT message grants credit to a stream. -/
  | streamCredit (h : Hdr) (stream : Nat) (credit : Nat)
  /-- STREAM_CLOSE (R579): A STREAM_CLOSE message closes a stream and withdraws its credit. -/
  | streamClose (h : Hdr) (stream : Nat)
  /-- STREAM_DATA_SEND (R578): Records and credit are available, so a STREAM_DATA message is sent. -/
  | streamDataSend (stream : Nat)
  /-- RETRANSMIT_TIMER (R570): An unacknowledged device message is resent with a doubled interval. -/
  | retransmitTimer (slot : Fin 8) (seq : Nat)
  /-- SESSION_IDLE_TIMEOUT (R568): NET_SESS_IDLE ms without a verified message closes the session. -/
  | sessionIdleTimeout (slot : Fin 8)
  /-- LEASE_EXPIRY (R572): The owner's lease expires: vacancy, an election window, and SYS_EXPERT_EN cleared. -/
  | leaseExpiry
  /-- ELECTION_CLOSE (R572): The election window closes and the winning candidate becomes owner. -/
  | electionClose
  /-- HANDOVER_LAPSE (R573): An offer not accepted within 1.0 s lapses and HANDOVER_FAILED is answered. -/
  | handoverLapse
  /-- PORT_RATE_TIMEOUT (R554): A port fails to link within 500 ms at a rate and tries the next lower rate. -/
  | portRateTimeout (port : Fin 2)
  /-- PORT_LINK_LOSS (R554): A port loses link and restarts from MAX_RATE. -/
  | portLinkLoss (port : Fin 2)
  /-- ETH_FRAME_RX (R556): A non-KCT Ethernet frame is answered (ND, ARP, echo) or dropped and counted. -/
  | ethFrameRx (port : Fin 2) (f : EthFrame)
  /-- PORT_CFG_WRITE (R587): A changed address or port configuration applies at once and restarts the link. -/
  | portCfgWrite (q : Req) (addr : Nat) (value : Word)
  /-- SYS_RESET (R586): SYS_CMD RESET resets the device. -/
  | sysReset (q : Req) (boot : BootObs)
  /-- SYS_DETACH (R670): SYS_CMD DETACH requests a detach. -/
  | sysDetach (q : Req)
  /-- INSTALL (R583): SYS_RCMD INSTALL verifies and writes a recovery object. -/
  | install (q : Req) (target : Fin 256)
  /-- REBOOT (R583): SYS_RCMD REBOOT resets the device from RECOVERY. -/
  | reboot (q : Req) (boot : BootObs)
  /-- HOST_TABLE_WRITE (R587): NET_HOST_CMD WRITE stores the selected host-table entry. -/
  | hostTableWrite (q : Req)
  /-- HOST_TABLE_CLEAR (R587): NET_HOST_CMD CLEAR clears the selected host-table entry. -/
  | hostTableClear (q : Req)
  /-- HOST_TABLE_READ (R587): NET_HOST_CMD READ loads the selected host-table entry. -/
  | hostTableRead (q : Req)
  /-- INC_COMMIT (R591): A write of PTP_D_INC_HI commits a domain increment. -/
  | incCommit (q : Req) (d : Fin 2) (value : Word)
  /-- PTP_STEP (R593): PTP_D_CMD STEP adds an offset to a domain, or is refused in SINGLE. -/
  | ptpStep (q : Req) (d : Fin 2)
  /-- PTP_SET (R593): PTP_D_CMD SET loads a domain counter and makes it VALID. -/
  | ptpSet (q : Req) (d : Fin 2)
  /-- PTP_INVALIDATE (R593): PTP_D_CMD INVALIDATE clears a domain's VALID. -/
  | ptpInvalidate (q : Req) (d : Fin 2)
  /-- PTP_CTRL_WRITE (R596): A write of PTP_CTRL that changes SEL sets SOFFSET in DUAL, or is refused in SINGLE. -/
  | ptpCtrlWrite (q : Req) (value : Word)
  /-- SLEW_END (R596): SOFFSET reaches 0 and slewing ends. -/
  | slewEnd
  /-- PTP_MODE_CHANGE (R595): A pending change between DUAL and SINGLE takes effect outside a step. -/
  | ptpModeChange
  /-- PTP_RX (R600): A PTP message is stamped and written to the receive ring, or dropped. -/
  | ptpRx (port : Fin 2) (domain : Byte) (tagged : Bool) (frame : List Byte)
  /-- PTP_LQ_WR_WRITE (R601): A write of PTP_LQ_WR posts launch descriptors. -/
  | ptpLqWrWrite (q : Req) (p : Fin 2) (value : Word)
  /-- LAUNCH_SEND (R602): A descriptor at the head is launched at LAUNCH, judged late or completed with an error. -/
  | launchSend (p : Fin 2)
  /-- PTP_SNAP_CMD (R606): A write of PTP_SNAP_CMD latches TOD, both domains and the BEAT count. -/
  | ptpSnapCmd (q : Req)
  /-- PTP_TIME_READ (R606): A read of a low time register latches the rest of the value. -/
  | ptpTimeRead (q : Req) (which : Fin 4)
  /-- FAULT_REPORT (R609): A unit raises its fault line, and further events are coalesced until acknowledged. -/
  | faultReport (cls : Fin 5) (unitClass : Nat) (unit : Nat) (cause : Nat) (detail0 : BitVec 64) (detail1 : BitVec 64)
  /-- WIRE_FAULT (R610): A fault pair held invalid for 50 ns is a C2 fault for an ordinary line and C4 for a grave line. -/
  | wireFault (unitClass : Nat) (unit : Nat)
  /-- FAULT_HANDLE (R618): The collector handles a report: acknowledgement, SEQ, class actions, ledger checks and delivery. -/
  | faultHandle
  /-- COLLECTOR_SELF_CHECK (R617): The 1 ms known-answer self-check of the collector runs; a failure is C4. -/
  | collectorSelfCheck (agree : Bool) (passed : Bool)
  /-- FAULT_INJECT (R639): A write of FLT_XINJECT makes a unit report an injected fault. -/
  | faultInject (q : Req) (value : Word)
  /-- ALERT_CLEAR (R612): Writing 1 to bits of FLT_ALERT clears them and may release ALERT_N. -/
  | alertClear (q : Req) (value : Word)
  /-- LEDGER_IMBALANCE (R632): A ledger's sides differ or a term passes its bound, freezing it as a C3 fault. -/
  | ledgerImbalance (n : Fin 16) (left : Word) (right : Word) (out : Word) (term : Word)
  /-- LEDGER_DEADLINE (R632): An in-transit term has not reached 0 by the deadline its rule sets, which is an imbalance. -/
  | ledgerDeadline (n : Fin 16)
  /-- LEDGER_READ_LATCH (R637): A read of LGR_LEFT latches LGR_RIGHT and LGR_OUT. -/
  | ledgerReadLatch (q : Req) (n : Fin 16)
  /-- STANDBY (R644): PWR_CMD STANDBY moves HOLD to STANDBY. -/
  | standby (q : Req)
  /-- WAKE (R643): PWR_CMD WAKE returns STANDBY to HOLD. -/
  | wake (q : Req)
  /-- PWR_DETACH (R670): PWR_CMD DETACH requests a detach. -/
  | pwrDetach (q : Req)
  /-- DETACH_N_LOW (R670): DETACH_N held low for 10 ms requests a detach. -/
  | detachNLow
  /-- DETACH_PHASE_ADVANCE (R670): The ending condition of a detach phase holds and the next phase begins. -/
  | detachPhaseAdvance
  /-- DETACH_TIMEOUT (R671): Phase 4 lasts beyond PWR_DETACH_TIMEOUT, so DMA is stopped, writes cancelled and lists flushed. -/
  | detachTimeout
  /-- DETACH_N_HIGH_RESTART (R672): DETACH_N held high for 100 ms restarts a DETACHED unit at step 2 of attach. -/
  | detachNHighRestart (boot : BootObs)
  /-- GALOP_OVERRUN (R677): A Galop step runs beyond PWR_STEP_DUR and is counted, raising a C0 notice. -/
  | galopOverrun
  /-- PROVISION (R646): SEC_CMD PROVISION moves BLANK to OPEN and creates the identity key. -/
  | provision (q : Req)
  /-- SEAL (R646): SEC_CMD SEAL moves OPEN to SEALED. -/
  | sealDevice (q : Req)
  /-- RETIRE (R646): SEC_CMD RETIRE moves the device to RETIRED. -/
  | retire (q : Req)
  /-- ENROLL (R649): SEC_CMD ENROLL writes a key hash and use mask into a free slot. -/
  | enroll (q : Req)
  /-- REVOKE (R649): SEC_CMD REVOKE burns a slot's revocation fuse. -/
  | revoke (q : Req)
  /-- RAISE_SVN (R651): SEC_CMD RAISE_SVN raises a security version floor. -/
  | raiseSvn (q : Req)
  /-- ATTEST (R655): SEC_CMD ATTEST builds and signs an attestation report. -/
  | attest (q : Req)
  /-- SEC_CMD_RESULT (R647): A security command's fuse burn or report completes and its result reaches SEC_RESULT. -/
  | secCmdResult (obs : SecObs)
  /-- DBG_REQ (R658): A DAP write of DBG_REQ requests a debug level, checking a token in SEALED. -/
  | dbgReq (level : Fin 4) (useToken : Bool) (obs : TokenObs)
  /-- DBG_END (R661): A write of DBG_CTRL END by the owner ends the debug session. -/
  | dbgEnd (q : Req) (deny : Bool)
  /-- DEBUG_LIFETIME_EXPIRY (R661): The token's LIFETIME elapses and the debug session ends. -/
  | debugLifetimeExpiry
  /-- CORE_HALT (R662): At INTRUSIVE, the DAP halts or single-steps a site core. -/
  | coreHalt (k : Fin 64) (act : HaltAct)
  /-- CONTEXT_DEBUG_HALT (R662): A DEBUG_HALT of a context aborts any step and stops the context. -/
  | contextDebugHalt (c : Fin 64)
  /-- JTAG_BYPASS (R663): The TAP instruction BYPASS is loaded. -/
  | jtagBypass
  /-- JTAG_IDCODE (R663): The TAP instruction IDCODE returns DBG_IDCODE. -/
  | jtagIdcode
  /-- SAMPLE_PRELOAD (R663): The TAP instruction SAMPLE/PRELOAD is loaded where permitted. -/
  | samplePreload
  /-- EXTEST (R664): The TAP instruction EXTEST departs the bus and drives the boundary chain, where permitted. -/
  | extest
  /-- JTAG_DAP (R663): The TAP instruction DAP selects debug access. -/
  | jtagDap (a : DapAccess)
  /-- JTAG_TOKEN (R663): The TAP instruction TOKEN shifts bytes into DBG_TOKEN. -/
  | jtagToken (bytes : List Byte)
  /-- TAP_RESET (R661): TRST_N resets the TAP and ends EXTEST but not the debug session. -/
  | tapReset
  /-- RESET_N_LOW (R432): RESET_N falls, the device enters reset, sessions close and the QD balls become strap inputs. -/
  | resetNLow
  /-- PORT_LINK_UP (R554): An Ethernet port links at the rate it is trying and stays there. -/
  | portLinkUp (port : Fin 2)
  /-- QUADRILLE_CYCLE (R434): A 160 ns bus cycle begins, and the unit drives its slots: its heartbeat in its turn, QT words, its fault bit, and as leader the time-of-day frame and hints. -/
  | quadrilleCycle
  /-- BEAT_EDGE_LINE_SAMPLE (R415): At a BEAT edge a line whose level still holds is sampled asserted, feeding TRIG, WAITT and play-list wait conditions of the frame that holds the edge. -/
  | beatEdgeLineSample (l : Fin 64)
  /-- VERIFY_END (R57): The checks of a VERIFY end, the report registers are updated and IMG_CMD is accepted again. -/
  | verifyEnd (obs : CryptoObs)
  /-- LOAD_CHECK_FAILURE (R56): A check of a load fails, the load is answered IMG_INVALID or NOT_ADMITTED and the previous epoch stays. -/
  | loadCheckFailure
  /-- STEP_AT_PASSED (R254): During a stage-late hold the BEAT count of a START with AT = 1 passes, and the step is abandoned with SEQ_STATUS.LATE set. -/
  | stepAtPassed
  /-- KNOWN_ANSWER_TEST_END (R302): The known-answer test of two copies ends within 200 ns; the failing copy is fenced as C2 and the unit continues on the other. -/
  | knownAnswerTestEnd (unitClass : Nat) (unit : Nat) (failing : Option (Fin 2))
  /-- DIE_REBUILD_COMPLETE (R486): The rebuild of a failed library die into the spare pool ends, and the window for a second die failure to make objects LOST closes. -/
  | dieRebuildComplete (set : Fin 4) (blocks : Nat)
  /-- WEAR_BUDGET_HOUR (R488): An hourly bucket of the 7-day wear budget expires, LIB_WEAR_7D falls and further WRITEs may be admitted again. -/
  | wearBudgetHour
  /-- INSTALL_DONE (R583): A recovery INSTALL ends within 30 s and its result, OK or RCV_INVALID, is placed in SYS_RRESULT with DONE. -/
  | installDone (obs : CryptoObs)
  deriving DecidableEq, Repr

end Sys2Proof
end

