-- ==== Sys2Proof/Decode.lean ====
section
/-! DEFINITION. Words of commands: the table of the block gives no row any bits, so no word spells a command. -/

namespace Sys2Proof

/-- The command that a table word spells: none, since every row of the table has an empty list of fields. -/
def decodeTableWord (_nbits _w : Nat) : Option Instr := none

end Sys2Proof
end

