-- ==== Sys2Proof/Config.lean ====
section
/-! DEFINITION. What the spec leaves open: opaque constants without a body, so that no proof can see their values. -/

namespace Sys2Proof

/-- The values the spec leaves open, one after another; the state's counter says which comes next. -/
opaque Config.freeValue : Nat → Nat

/-- The coefficients of the vendor's filter sets (R330), which the spec describes by their figures only: kind (0
resampler, 1 half-band), set, index. -/
opaque Config.vendorCoef : Nat → Nat → Nat → Int

/-- The coefficients that follow phase 63 of a resampler set in the interpolation between phases (R327): set, tap. -/
opaque Config.edgePhase : Nat → Nat → Int

/-- The error of a tone value against the sine of its phase (R370), modulo 5, less 2, in 2^-23: the spec bounds it by 2^-22. -/
opaque Config.toneError : Nat → Nat

/-- The context field that an OPERAND of the microwords LDF and STF names (R217): the vendor's description lists the numbers. -/
opaque Config.contextField : Nat → Nat

end Sys2Proof
end

