-- ==== Sys2Proof/Machine/Bits.lean ====
section
/-! DEFINITION. Bit fields, sign extension, little-endian byte order and the small arithmetic helpers that every
block uses (R13: bit 0 is the least significant, multi-byte values are little-endian). -/

namespace Sys2Proof.Machine

open Sys2Proof

/-- Bits `hi` to `lo` of `v`. -/
def bitsN (v hi lo : Nat) : Nat := v / 2 ^ lo % 2 ^ (hi + 1 - lo)

/-- Bit `k` of `v`. -/
def bitN (v k : Nat) : Bool := v / 2 ^ k % 2 == 1

/-- `v` with bits `hi` to `lo` replaced by `x`, taken modulo the field's width. -/
def putBitsN (v hi lo x : Nat) : Nat := v - bitsN v hi lo * 2 ^ lo + (x % 2 ^ (hi + 1 - lo)) * 2 ^ lo

/-- 1 for true, 0 for false. -/
def b2n (b : Bool) : Nat := if b then 1 else 0

/-- The word of a number, modulo 2^32. -/
def wd (n : Nat) : Word := BitVec.ofNat 32 n

/-- Field `hi:lo` of a register value. -/
def fld (w : Word) (hi lo : Nat) : Nat := bitsN w.toNat hi lo

/-- Bit `k` of a register value. -/
def bit (w : Word) (k : Nat) : Bool := bitN w.toNat k

/-- A register value with field `hi:lo` replaced. -/
def putFld (w : Word) (hi lo x : Nat) : Word := wd (putBitsN w.toNat hi lo x)

/-- `w` with the bits of `mask` taken from `v`. -/
def mergeMask (w v mask : Word) : Word := (w &&& ~~~mask) ||| (v &&& mask)

/-- The two's-complement reading of the low `n` bits of `v`. -/
def sext (n v : Nat) : Int :=
  let r := v % 2 ^ n
  if r < 2 ^ (n - 1) then (r : Int) else (r : Int) - (2 ^ n : Nat)

/-- The low `n` bits of an integer, in two's complement. -/
def twos (n : Nat) (i : Int) : Nat := (i % ((2 ^ n : Nat) : Int)).toNat

/-- The largest value of a 32-bit counter. -/
def max32 : Nat := 4294967295

/-- A saturating 32-bit count. -/
def satAdd (v k : Nat) : Nat := min (v + k) max32

/-- Addition modulo 2^32. -/
def add32 (v k : Nat) : Nat := (v + k) % 4294967296

/-- Difference modulo 2^32. -/
def sub32 (v k : Nat) : Nat := (v + 4294967296 - k % 4294967296) % 4294967296

/-- Whether `n` is a power of two. -/
def isPow2 (n : Nat) : Bool := decide (n ≠ 0) && decide (2 ^ Nat.log2 n = n)

/-- Division rounded up. -/
def ceilDiv (a b : Nat) : Nat := (a + b - 1) / b

/-- `a / b` rounded to the nearest whole number, a tie to the even one, for a positive `b`. -/
def divNearestEven (a : Int) (b : Nat) : Int :=
  let q := a / (b : Int)
  let r := (a % (b : Int)).toNat
  if 2 * r < b then q
  else if b < 2 * r then q + 1
  else if q % 2 = 0 then q else q + 1

/-- `a / b` rounded to the nearest whole number, a tie away from zero, for a positive `b`. -/
def divNearestAway (a : Int) (b : Nat) : Int :=
  let m := (2 * a.natAbs + b) / (2 * b)
  if a < 0 then - (m : Int) else (m : Int)

/-- Clamps an integer to a range. -/
def clampInt (lo hi x : Int) : Int := if x < lo then lo else if hi < x then hi else x

/-- The integer square root, by bits from `2^k` down. -/
def sqrtFrom (n : Nat) : Nat → Nat → Nat
  | 0, acc => if (acc + 1) * (acc + 1) ≤ n then acc + 1 else acc
  | k + 1, acc =>
    let a := acc + 2 ^ (k + 1)
    if a * a ≤ n then sqrtFrom n k a else sqrtFrom n k acc

/-- The largest `r` with `r * r ≤ n`, for `n` below 2^128. -/
def isqrt (n : Nat) : Nat := sqrtFrom n 63 0

/-- The number of set bits among the low `n` bits of `v`. -/
def popcount : Nat → Nat → Nat
  | 0, _ => 0
  | n + 1, v => v % 2 + popcount n (v / 2)

/-- The positions, below `n`, of the set bits of `v`, lowest first. -/
def bitPositions (n v : Nat) : List Nat := (List.range n).filter (fun k => bitN v k)

/-- The `n` bytes of `v`, least significant first. -/
def leBytes : Nat → Nat → List Byte
  | 0, _ => []
  | n + 1, v => BitVec.ofNat 8 v :: leBytes n (v / 256)

/-- The number whose little-endian bytes are `bs`. -/
def ofLeBytes : List Byte → Nat
  | [] => 0
  | b :: bs => b.toNat + 256 * ofLeBytes bs

/-- The `n` 32-bit words of `v`, least significant first. -/
def leWords : Nat → Nat → List Word
  | 0, _ => []
  | n + 1, v => wd v :: leWords n (v / 4294967296)

/-- The number whose little-endian words are `ws`. -/
def ofLeWords : List Word → Nat
  | [] => 0
  | w :: ws => w.toNat + 4294967296 * ofLeWords ws

/-- The words of a byte string, four bytes to a word, little-endian; a short tail is padded with zeros. -/
def bytesToWords : List Byte → List Word
  | b0 :: b1 :: b2 :: b3 :: bs => wd (ofLeBytes [b0, b1, b2, b3]) :: bytesToWords bs
  | [] => []
  | bs => [wd (ofLeBytes bs)]

/-- The bytes of a string of words. -/
def wordsToBytes (ws : List Word) : List Byte := ws.flatMap (fun w => leBytes 4 w.toNat)

/-- The first `n` elements, padded with `x`. -/
def padTo {α : Type} (n : Nat) (x : α) (l : List α) : List α := (l ++ List.replicate n x).take n

/-- The sum of a list of numbers. -/
def sumN (l : List Nat) : Nat := l.foldl (· + ·) 0

/-- The sum of a list of integers. -/
def sumI (l : List Int) : Int := l.foldl (· + ·) 0

/-- The largest of a list of numbers, 0 for none. -/
def maxN (l : List Nat) : Nat := l.foldl max 0

/-- Element `k` of a list, or `d`. -/
def nth {α : Type} (d : α) (l : List α) (k : Nat) : α := (l[k]?).getD d

/-- A list with its element `k` replaced. -/
def setNth {α : Type} (l : List α) (k : Nat) (x : α) : List α := l.set k x

end Sys2Proof.Machine
end

