-- ==== Sys2Proof/Machine/RegMap.lean ====
section
/-! DEFINITION. The register map: one address function and one row for every register of the register tables of
spec/ (R64, R96, R97, R131, R169, R222, R227, R228, R229, R293, R317, R355, R381, R412, R450, R451, R452, R490, R491, R521, R551, R586, R587,
R606, R639, R640, R679, R680, R681), at the block bases of R584. A row gives the base address, the array
dimensions (count, stride), the reset value and, per change class of R16, the mask of the fields a write
reaches (I, F, S, L), the write-one-to-clear mask and the write-only mask (R14). Rows whose reset cell in
the spec is no number ("—", "By strap", "From image") carry 0 here: see notes/assumptions/2.md. -/

namespace Sys2Proof.Machine

/-- One row of a register table (R14, R16): base address, dimensions, reset value and the masks of its fields. -/
structure RegRow where
  base : Nat
  dims : List (Nat × Nat)
  reset : Nat
  maskI : Nat := 0
  maskF : Nat := 0
  maskS : Nat := 0
  maskL : Nat := 0
  maskC : Nat := 0
  maskWO : Nat := 0
  deriving DecidableEq, Repr

/-! SYS registers (R586). -/
def Reg.SYS_ID : Nat := 0x0
def Reg.SYS_REV : Nat := 0x4
def Reg.SYS_SERIAL_LO : Nat := 0x8
def Reg.SYS_SERIAL_HI : Nat := 0xc
def Reg.SYS_FW_VER : Nat := 0x10
def Reg.SYS_STATE : Nat := 0x14
def Reg.SYS_EXPERT_EN : Nat := 0x18
def Reg.SYS_OWNER : Nat := 0x1c
def Reg.SYS_CMD : Nat := 0x20
def Reg.SYS_SCRATCH : Nat := 0x24
def Reg.SYS_UPTIME : Nat := 0x28
def Reg.SYS_RCMD : Nat := 0x40
def Reg.SYS_RLEN : Nat := 0x44
def Reg.SYS_RRESULT : Nat := 0x48

/-! IMG registers (R64). -/
def Reg.IMG_STATUS : Nat := 0x10000
def Reg.IMG_CMD : Nat := 0x10004
def Reg.IMG_EPOCH : Nat := 0x10008
def Reg.IMG_ACTIVE_SEQ_LO : Nat := 0x1000c
def Reg.IMG_ACTIVE_SEQ_HI : Nat := 0x10010
def Reg.IMG_A_SEQ_LO : Nat := 0x10014
def Reg.IMG_A_SEQ_HI : Nat := 0x10018
def Reg.IMG_B_SEQ_LO : Nat := 0x1001c
def Reg.IMG_B_SEQ_HI : Nat := 0x10020
def Reg.IMG_SLOT_STATE : Nat := 0x10024
def Reg.IMG_REASON : Nat := 0x10028
def Reg.IMG_HBM0_RSV : Nat := 0x10030
def Reg.IMG_HBM0_CAP : Nat := 0x10034
def Reg.IMG_HBM1_RSV : Nat := 0x10038
def Reg.IMG_HBM1_CAP : Nat := 0x1003c
def Reg.IMG_ENG_RSV : Nat := 0x10040
def Reg.IMG_ETH_RSV : Nat := 0x10044
def Reg.IMG_LIBR_RSV : Nat := 0x10048
def Reg.IMG_LIBW_RSV : Nat := 0x1004c
def Reg.IMG_V_HBM0_RSV : Nat := 0x10050
def Reg.IMG_V_HBM0_CAP : Nat := 0x10054
def Reg.IMG_V_HBM1_RSV : Nat := 0x10058
def Reg.IMG_V_HBM1_CAP : Nat := 0x1005c
def Reg.IMG_V_ENG_RSV : Nat := 0x10060
def Reg.IMG_V_ETH_RSV : Nat := 0x10064
def Reg.IMG_V_LIBR_RSV : Nat := 0x10068
def Reg.IMG_V_LIBW_RSV : Nat := 0x1006c
def Reg.IMG_DIGEST (i : Nat) : Nat := 0x10080 + i * 0x4

/-! TBF registers (R96). -/
def Reg.TBF_STATUS : Nat := 0x20000
def Reg.TBF_CTRL : Nat := 0x20004
def Reg.TBF_BEAT_PPM : Nat := 0x20008
def Reg.TBF_SWITCH_COUNT : Nat := 0x2000c
def Reg.TBF_BEAT_COUNT_LO : Nat := 0x20010
def Reg.TBF_BEAT_COUNT_HI : Nat := 0x20014
def Reg.TBF_EVENTS : Nat := 0x20018
def Reg.TBF_PAV_LATE : Nat := 0x2001c
def Reg.TBF_SLACK_WARN : Nat := 0x20020
def Reg.TBF_SLACK_MIN : Nat := 0x20024
def Reg.TBF_SLACK (i : Nat) : Nat := 0x20080 + i * 0x4
def Reg.TBF_LEAD_MIN (i : Nat) : Nat := 0x20100 + i * 0x4
def Reg.TBF_PAV_SCRUB_PERIOD : Nat := 0x28000
def Reg.TBF_PAV_EYE_PERIOD : Nat := 0x28004

/-! LNK registers (R131, R169). -/
def Reg.LNK_PHY_STATUS_A (i : Nat) : Nat := 0x100000 + i * 0x10000
def Reg.LNK_PHY_STATUS_B (i : Nat) : Nat := 0x100004 + i * 0x10000
def Reg.LNK_PHY_CMD (i : Nat) : Nat := 0x100008 + i * 0x10000
def Reg.LNK_PHY_EVENTS (i : Nat) : Nat := 0x10000c + i * 0x10000
def Reg.LNK_PHY_SKEW (i : Nat) : Nat := 0x100010 + i * 0x10000
def Reg.LNK_EYE_LIMIT (i : Nat) : Nat := 0x100014 + i * 0x10000
def Reg.LNK_TXFFE_A (i : Nat) : Nat := 0x100018 + i * 0x10000
def Reg.LNK_TXFFE_B (i : Nat) : Nat := 0x10001c + i * 0x10000
def Reg.LNK_RXFFE_A (i : Nat) : Nat := 0x100020 + i * 0x10000
def Reg.LNK_RXFFE_B (i : Nat) : Nat := 0x100024 + i * 0x10000
def Reg.LNK_EYE_AI (i : Nat) (j : Nat) : Nat := 0x100040 + i * 0x10000 + j * 0x4
def Reg.LNK_EYE_AO (i : Nat) (j : Nat) : Nat := 0x100060 + i * 0x10000 + j * 0x4
def Reg.LNK_EYE_BI (i : Nat) (j : Nat) : Nat := 0x100080 + i * 0x10000 + j * 0x4
def Reg.LNK_EYE_BO (i : Nat) (j : Nat) : Nat := 0x1000a0 + i * 0x10000 + j * 0x4
def Reg.LNK_CAP_A (i : Nat) (j : Nat) : Nat := 0x1000c0 + i * 0x10000 + j * 0x4
def Reg.LNK_CAP_B (i : Nat) (j : Nat) : Nat := 0x1000e0 + i * 0x10000 + j * 0x4
def Reg.LNK_FR_STATUS (i : Nat) : Nat := 0x100100 + i * 0x10000
def Reg.LNK_FR_TXSEQ (i : Nat) : Nat := 0x100104 + i * 0x10000
def Reg.LNK_FR_RXSEQ (i : Nat) : Nat := 0x100108 + i * 0x10000
def Reg.LNK_FR_SENT (i : Nat) : Nat := 0x10010c + i * 0x10000
def Reg.LNK_FR_APPLIED (i : Nat) : Nat := 0x100110 + i * 0x10000
def Reg.LNK_FR_LOST (i : Nat) : Nat := 0x100114 + i * 0x10000
def Reg.LNK_FR_OUTSTANDING (i : Nat) : Nat := 0x100118 + i * 0x10000
def Reg.LNK_FR_KEPT_A (i : Nat) : Nat := 0x10011c + i * 0x10000
def Reg.LNK_FR_KEPT_B (i : Nat) : Nat := 0x100120 + i * 0x10000
def Reg.LNK_FR_TWIN (i : Nat) : Nat := 0x100124 + i * 0x10000
def Reg.LNK_FR_UNCORR_A (i : Nat) : Nat := 0x100128 + i * 0x10000
def Reg.LNK_FR_UNCORR_B (i : Nat) : Nat := 0x10012c + i * 0x10000
def Reg.LNK_FR_CORR_A (i : Nat) : Nat := 0x100130 + i * 0x10000
def Reg.LNK_FR_CORR_B (i : Nat) : Nat := 0x100134 + i * 0x10000
def Reg.LNK_FR_IN_LOST (i : Nat) : Nat := 0x100138 + i * 0x10000
def Reg.LNK_FR_RES_LOST (i : Nat) : Nat := 0x10013c + i * 0x10000
def Reg.LNK_FR_EVENTS (i : Nat) : Nat := 0x100140 + i * 0x10000
def Reg.LNK_CNT_CORR (i : Nat) : Nat := 0x100144 + i * 0x10000
def Reg.LNK_CNT_RESID (i : Nat) : Nat := 0x100148 + i * 0x10000
def Reg.LNK_FR_BADSEQ (i : Nat) : Nat := 0x10014c + i * 0x10000
def Reg.LNK_PHY_XCTRL_A (i : Nat) : Nat := 0x108000 + i * 0x10000
def Reg.LNK_PHY_XCTRL_B (i : Nat) : Nat := 0x108004 + i * 0x10000
def Reg.LNK_TXFFE_MAN_A (i : Nat) : Nat := 0x108008 + i * 0x10000
def Reg.LNK_TXFFE_MAN_B (i : Nat) : Nat := 0x10800c + i * 0x10000
def Reg.LNK_BERT_CTRL (i : Nat) : Nat := 0x108010 + i * 0x10000
def Reg.LNK_BERT_ERR_A (i : Nat) : Nat := 0x108014 + i * 0x10000
def Reg.LNK_BERT_ERR_B (i : Nat) : Nat := 0x108018 + i * 0x10000
def Reg.LNK_BERT_UNITS_A (i : Nat) : Nat := 0x10801c + i * 0x10000
def Reg.LNK_BERT_UNITS_B (i : Nat) : Nat := 0x108020 + i * 0x10000
def Reg.LNK_EYE_CFG (i : Nat) : Nat := 0x108024 + i * 0x10000
def Reg.LNK_FR_XCTRL (i : Nat) : Nat := 0x108100 + i * 0x10000
def Reg.LNK_FR_INJECT (i : Nat) : Nat := 0x108104 + i * 0x10000
def Reg.LNK_CNT_CTRL (i : Nat) : Nat := 0x108108 + i * 0x10000

/-! SEQ registers (R227). -/
def Reg.SEQ_STATUS : Nat := 0x200000
def Reg.SEQ_STEP_CMD : Nat := 0x200004
def Reg.SEQ_STEP_CTX_LO : Nat := 0x200008
def Reg.SEQ_STEP_CTX_HI : Nat := 0x20000c
def Reg.SEQ_STEP_DELAY : Nat := 0x200010
def Reg.SEQ_STEP_AT_LO : Nat := 0x200014
def Reg.SEQ_STEP_AT_HI : Nat := 0x200018
def Reg.SEQ_STEP_COUNT : Nat := 0x20001c
def Reg.SEQ_STEPTIME_LO : Nat := 0x200020
def Reg.SEQ_STEPTIME_HI : Nat := 0x200024
def Reg.SEQ_LOG_BASE_LO : Nat := 0x200030
def Reg.SEQ_LOG_BASE_HI : Nat := 0x200034
def Reg.SEQ_LOG_SIZE : Nat := 0x200038
def Reg.SEQ_LOG_WR : Nat := 0x20003c
def Reg.SEQ_LOG_RD : Nat := 0x200040
def Reg.SEQ_LOG_LOST : Nat := 0x200044
def Reg.SEQ_LOG_MASK : Nat := 0x200048
def Reg.SEQ_UCODE_VER : Nat := 0x200050
def Reg.SEQ_ENG_SINGLE : Nat := 0x200054
def Reg.SEQ_UCODE_DIGEST (i : Nat) : Nat := 0x200080 + i * 0x4

/-! SEQCTX registers (R222, R228). -/
def Reg.SEQ_CTX_STATUS (i : Nat) : Nat := 0x210000 + i * 0x200
def Reg.SEQ_CTX_PC (i : Nat) : Nat := 0x210004 + i * 0x200
def Reg.SEQ_CTX_PROG (i : Nat) : Nat := 0x210008 + i * 0x200
def Reg.SEQ_CTX_ENTRY (i : Nat) : Nat := 0x21000c + i * 0x200
def Reg.SEQ_CTX_RLIST (i : Nat) : Nat := 0x210010 + i * 0x200
def Reg.SEQ_CTX_CFG (i : Nat) : Nat := 0x210014 + i * 0x200
def Reg.SEQ_CTX_VEC_LO (i : Nat) : Nat := 0x210018 + i * 0x200
def Reg.SEQ_CTX_VEC_HI (i : Nat) : Nat := 0x21001c + i * 0x200
def Reg.SEQ_CTX_JPEND (i : Nat) : Nat := 0x210020 + i * 0x200
def Reg.SEQ_CTX_JFRAME_LO (i : Nat) : Nat := 0x210024 + i * 0x200
def Reg.SEQ_CTX_JFRAME_HI (i : Nat) : Nat := 0x210028 + i * 0x200
def Reg.SEQ_CTX_JTAKEN (i : Nat) : Nat := 0x21002c + i * 0x200
def Reg.SEQ_CTX_SUPERSEDED (i : Nat) : Nat := 0x210030 + i * 0x200
def Reg.SEQ_CTX_HOLDS (i : Nat) : Nat := 0x210034 + i * 0x200
def Reg.SEQ_CTX_SEG (i : Nat) : Nat := 0x210038 + i * 0x200
def Reg.SEQ_CTX_SITES (i : Nat) : Nat := 0x21003c + i * 0x200
def Reg.SEQ_CTX_LPC (i : Nat) (j : Nat) : Nat := 0x210040 + i * 0x200 + j * 0x8
def Reg.SEQ_CTX_LCNT (i : Nat) (j : Nat) : Nat := 0x210044 + i * 0x200 + j * 0x8
def Reg.SEQ_CTX_CALL (i : Nat) (j : Nat) : Nat := 0x210060 + i * 0x200 + j * 0x4
def Reg.SEQ_CTX_SMASK (i : Nat) (j : Nat) : Nat := 0x210080 + i * 0x200 + j * 0x4
def Reg.SEQ_MST_U (i : Nat) (j : Nat) : Nat := 0x218000 + i * 0x100 + j * 0x4
def Reg.SEQ_MST_MPC (i : Nat) : Nat := 0x218080 + i * 0x100
def Reg.SEQ_MST_MFLAGS (i : Nat) : Nat := 0x218084 + i * 0x100
def Reg.SEQ_MST_TRAP_CAUSE (i : Nat) : Nat := 0x218088 + i * 0x100
def Reg.SEQ_MST_ASEC_LEFT (i : Nat) : Nat := 0x21808c + i * 0x100
def Reg.SEQ_MST_INSTR (i : Nat) (j : Nat) : Nat := 0x218090 + i * 0x100 + j * 0x4
def Reg.SEQ_MST_INSTR_PC (i : Nat) : Nat := 0x218098 + i * 0x100
def Reg.SEQ_MST_TRAPS (i : Nat) : Nat := 0x21809c + i * 0x100
def Reg.SEQ_MST_RSV (i : Nat) (j : Nat) : Nat := 0x2180a0 + i * 0x100 + j * 0x4

/-! UCODELO registers (R229). -/
def Reg.SEQ_UCODE_LO (i : Nat) : Nat := 0x220000 + i * 0x4

/-! UCODEHI registers (R229). -/
def Reg.SEQ_UCODE_HI (i : Nat) : Nat := 0x230000 + i * 0x4

/-! TST registers (R293). -/
def Reg.TST_STATUS (i : Nat) : Nat := 0x300000 + i * 0x10000
def Reg.TST_TSET (i : Nat) : Nat := 0x300004 + i * 0x10000
def Reg.TST_TSET_AT (i : Nat) : Nat := 0x300008 + i * 0x10000
def Reg.TST_PERIOD (i : Nat) : Nat := 0x30000c + i * 0x10000
def Reg.TST_SEL (i : Nat) : Nat := 0x300010 + i * 0x10000
def Reg.TST_CMD (i : Nat) : Nat := 0x300014 + i * 0x10000
def Reg.TST_REASON (i : Nat) : Nat := 0x300018 + i * 0x10000
def Reg.TST_EV (i : Nat) (j : Nat) : Nat := 0x300040 + i * 0x10000 + j * 0x4
def Reg.TST_RB (i : Nat) (j : Nat) : Nat := 0x300080 + i * 0x10000 + j * 0x4
def Reg.TST_SKEW (i : Nat) (j : Nat) : Nat := 0x300100 + i * 0x10000 + j * 0x4
def Reg.TST_DRIFT (i : Nat) (j : Nat) : Nat := 0x300180 + i * 0x10000 + j * 0x4
def Reg.TST_RESID (i : Nat) (j : Nat) : Nat := 0x300200 + i * 0x10000 + j * 0x4
def Reg.TST_CAL_AGE (i : Nat) (j : Nat) : Nat := 0x300280 + i * 0x10000 + j * 0x4
def Reg.TST_CAL_EVENTS (i : Nat) : Nat := 0x300300 + i * 0x10000
def Reg.TST_CAL_LAST (i : Nat) : Nat := 0x300304 + i * 0x10000
def Reg.TST_MODE (i : Nat) (j : Nat) : Nat := 0x300320 + i * 0x10000 + j * 0x4
def Reg.TST_XCMD (i : Nat) : Nat := 0x308000 + i * 0x10000
def Reg.TST_XCH (i : Nat) : Nat := 0x308004 + i * 0x10000
def Reg.TST_XLIMIT_LIN (i : Nat) : Nat := 0x308008 + i * 0x10000
def Reg.TST_XLIMIT_SKEW (i : Nat) : Nat := 0x30800c + i * 0x10000
def Reg.TST_XCAL_PERIOD (i : Nat) : Nat := 0x308010 + i * 0x10000
def Reg.TST_XLIN_ADDR (i : Nat) : Nat := 0x308014 + i * 0x10000
def Reg.TST_XLIN_DATA (i : Nat) : Nat := 0x308018 + i * 0x10000
def Reg.TST_XDRIFT (i : Nat) : Nat := 0x30801c + i * 0x10000
def Reg.TST_XRAW_SETS_LO (i : Nat) : Nat := 0x308020 + i * 0x10000
def Reg.TST_XRAW_SETS_HI (i : Nat) : Nat := 0x308024 + i * 0x10000
def Reg.TST_XRAW (i : Nat) (j : Nat) : Nat := 0x308040 + i * 0x10000 + j * 0x4
def Reg.TST_XTRIM (i : Nat) (j : Nat) : Nat := 0x308080 + i * 0x10000 + j * 0x4

/-! CMP registers (R317). -/
def Reg.CMP_STATUS : Nat := 0x400000
def Reg.CMP_EVENTS : Nat := 0x400004
def Reg.CMP_LOG_BASE_LO : Nat := 0x400010
def Reg.CMP_LOG_BASE_HI : Nat := 0x400014
def Reg.CMP_LOG_SIZE : Nat := 0x400018
def Reg.CMP_LOG_WR : Nat := 0x40001c
def Reg.CMP_LOG_RD : Nat := 0x400020
def Reg.CMP_LOG_SITE_MAX : Nat := 0x400024
def Reg.CMP_LOG_BURST : Nat := 0x400028
def Reg.CMP_LOG_RATE : Nat := 0x40002c
def Reg.CMP_DETECTED : Nat := 0x400030
def Reg.CMP_LOGGED : Nat := 0x400034
def Reg.CMP_UNLOG_FULL : Nat := 0x400038
def Reg.CMP_UNLOG_SITEMAX : Nat := 0x40003c
def Reg.CMP_UNLOG_RATE : Nat := 0x400040
def Reg.CMP_INFLIGHT : Nat := 0x400044
def Reg.CMP_NOSTROBE : Nat := 0x400048
def Reg.CMP_SITE_FAIL (i : Nat) : Nat := 0x400080 + i * 0x4
def Reg.CMP_SITE_CNT (i : Nat) : Nat := 0x400400 + i * 0x4
def Reg.CMP_SITE_MCNT (i : Nat) : Nat := 0x400600 + i * 0x4
def Reg.CMP_CH_CNT (i : Nat) : Nat := 0x400800 + i * 0x4
def Reg.CMP_FF_VEC_LO (i : Nat) : Nat := 0x401000 + i * 0x20
def Reg.CMP_FF_VEC_HI (i : Nat) : Nat := 0x401004 + i * 0x20
def Reg.CMP_FF_GROUPS (i : Nat) : Nat := 0x401008 + i * 0x20
def Reg.CMP_FF_DETAIL (i : Nat) : Nat := 0x40100c + i * 0x20
def Reg.CMP_FF_MASK (i : Nat) : Nat := 0x401010 + i * 0x20
def Reg.CMP_FF_RCV_LO (i : Nat) : Nat := 0x401014 + i * 0x20
def Reg.CMP_FF_RCV_HI (i : Nat) : Nat := 0x401018 + i * 0x20
def Reg.CMP_RAW_CTRL (i : Nat) : Nat := 0x402000 + i * 0x20
def Reg.CMP_RAW_BASE_LO (i : Nat) : Nat := 0x402004 + i * 0x20
def Reg.CMP_RAW_BASE_HI (i : Nat) : Nat := 0x402008 + i * 0x20
def Reg.CMP_RAW_SIZE (i : Nat) : Nat := 0x40200c + i * 0x20
def Reg.CMP_RAW_START (i : Nat) : Nat := 0x402010 + i * 0x20
def Reg.CMP_RAW_COUNT (i : Nat) : Nat := 0x402014 + i * 0x20
def Reg.CMP_RAW_STORED (i : Nat) : Nat := 0x402018 + i * 0x20
def Reg.CMP_RAW_LOST (i : Nat) : Nat := 0x40201c + i * 0x20
def Reg.CMP_XCTRL : Nat := 0x408000
def Reg.CMP_XINJECT : Nat := 0x408004

/-! MEA registers (R355). -/
def Reg.MEA_STATUS : Nat := 0x410000
def Reg.MEA_EVENTS : Nat := 0x410004
def Reg.MEA_ENG_CAP : Nat := 0x410008
def Reg.MEA_ENG_RSV : Nat := 0x41000c
def Reg.MEA_ENG_LOAD : Nat := 0x410010
def Reg.MEA_XF_ALLOW : Nat := 0x410014
def Reg.MEA_XF_USE : Nat := 0x410018
def Reg.MEA_XF_COUNT : Nat := 0x41001c
def Reg.MEA_SAT_COUNT : Nat := 0x410020
def Reg.MEA_GAP_COUNT : Nat := 0x410024
def Reg.MEA_SYNC_LINE (i : Nat) : Nat := 0x410040 + i * 0x4
def Reg.MEA_CH_TARGET (i : Nat) : Nat := 0x411000 + i * 0x20
def Reg.MEA_CH_STATE (i : Nat) : Nat := 0x411004 + i * 0x20
def Reg.MEA_CH_RHO (i : Nat) : Nat := 0x411008 + i * 0x20
def Reg.MEA_CH_RATE (i : Nat) : Nat := 0x41100c + i * 0x20
def Reg.MEA_CH_SKEW (i : Nat) : Nat := 0x411010 + i * 0x20
def Reg.MEA_CH_LAT (i : Nat) : Nat := 0x411014 + i * 0x20
def Reg.MEA_CH_GDELAY (i : Nat) : Nat := 0x411018 + i * 0x20
def Reg.MEA_CH_SETTLE (i : Nat) : Nat := 0x41101c + i * 0x20
def Reg.MEA_XCOEF_ADDR : Nat := 0x418000
def Reg.MEA_XCOEF_DATA : Nat := 0x418004
def Reg.MEA_XCH_CHAIN (i : Nat) : Nat := 0x419000 + i * 0x20
def Reg.MEA_XCH_RHO (i : Nat) : Nat := 0x419004 + i * 0x20
def Reg.MEA_XCH_RS (i : Nat) : Nat := 0x419008 + i * 0x20
def Reg.MEA_XCH_HB_LO (i : Nat) : Nat := 0x41900c + i * 0x20
def Reg.MEA_XCH_HB_HI (i : Nat) : Nat := 0x419010 + i * 0x20
def Reg.MEA_XCH_XFADE (i : Nat) : Nat := 0x419014 + i * 0x20
def Reg.MEA_XCH_SYNC (i : Nat) : Nat := 0x419018 + i * 0x20

/-! SRC registers (R381). -/
def Reg.SRC_STATUS : Nat := 0x420000
def Reg.SRC_EVENTS : Nat := 0x420004
def Reg.SRC_NCO_SEL : Nat := 0x420010
def Reg.SRC_NCO_FREQ_LO : Nat := 0x420014
def Reg.SRC_NCO_FREQ_HI : Nat := 0x420018
def Reg.SRC_NCO_PHASE : Nat := 0x42001c
def Reg.SRC_CH_CTRL (i : Nat) : Nat := 0x421000 + i * 0x20
def Reg.SRC_CH_PL_LO (i : Nat) : Nat := 0x421004 + i * 0x20
def Reg.SRC_CH_PL_HI (i : Nat) : Nat := 0x421008 + i * 0x20
def Reg.SRC_CH_PL_COUNT (i : Nat) : Nat := 0x42100c + i * 0x20
def Reg.SRC_CH_STATUS (i : Nat) : Nat := 0x421010 + i * 0x20
def Reg.SRC_CH_CLIP (i : Nat) : Nat := 0x421014 + i * 0x20
def Reg.SRC_CH_GDELAY (i : Nat) : Nat := 0x421018 + i * 0x20
def Reg.SRC_CH_OVERLOAD (i : Nat) : Nat := 0x42101c + i * 0x20
def Reg.SRC_CH_AMP (i : Nat) : Nat := 0x425000 + i * 0x8
def Reg.SRC_CH_OFFSET (i : Nat) : Nat := 0x425004 + i * 0x8
def Reg.SRC_XNTF (i : Nat) : Nat := 0x428000 + i * 0x4

/-! TDC registers (R412). -/
def Reg.TDC_STATUS : Nat := 0x430000
def Reg.TDC_EVENTS : Nat := 0x430004
def Reg.TDC_LOAD : Nat := 0x430008
def Reg.TDC_EVT_COUNT : Nat := 0x430010
def Reg.TDC_QUEUED : Nat := 0x430014
def Reg.TDC_DROPPED : Nat := 0x430018
def Reg.TDC_INFLIGHT : Nat := 0x43001c
def Reg.TDC_BADREC : Nat := 0x430020
def Reg.TDC_GAPS : Nat := 0x430024
def Reg.TDC_RES_BASE_LO : Nat := 0x430030
def Reg.TDC_RES_BASE_HI : Nat := 0x430034
def Reg.TDC_RES_SIZE : Nat := 0x430038
def Reg.TDC_RES_WR : Nat := 0x43003c
def Reg.TDC_RES_RD : Nat := 0x430040
def Reg.TDC_RES_LOST : Nat := 0x430044
def Reg.TDC_RSEL : Nat := 0x430048
def Reg.TDC_RVIEW (i : Nat) : Nat := 0x430080 + i * 0x4
def Reg.TDC_CH_CTRL (i : Nat) : Nat := 0x431000 + i * 0x20
def Reg.TDC_CH_N (i : Nat) : Nat := 0x431004 + i * 0x20
def Reg.TDC_CH_Q_LO (i : Nat) : Nat := 0x431008 + i * 0x20
def Reg.TDC_CH_Q_HI (i : Nat) : Nat := 0x43100c + i * 0x20
def Reg.TDC_CH_Q_WR (i : Nat) : Nat := 0x431010 + i * 0x20
def Reg.TDC_CH_Q_RD (i : Nat) : Nat := 0x431014 + i * 0x20
def Reg.TDC_CH_DROPPED (i : Nat) : Nat := 0x431018 + i * 0x20
def Reg.TDC_CH_CAL (i : Nat) : Nat := 0x43101c + i * 0x20
def Reg.TDC_XCMD : Nat := 0x438000
def Reg.TDC_XCH : Nat := 0x438004
def Reg.TDC_XCAL_EDGES : Nat := 0x438008
def Reg.TDC_XLIMIT_DNL : Nat := 0x43800c
def Reg.TDC_XLIMIT_PREC : Nat := 0x438010
def Reg.TDC_XCAL_PERIOD : Nat := 0x438014
def Reg.TDC_XBIN_ADDR : Nat := 0x438018
def Reg.TDC_XBIN_DATA : Nat := 0x43801c
def Reg.TDC_XCAL_LAST : Nat := 0x438020

/-! TRG registers (R450). -/
def Reg.TRG_STATUS : Nat := 0x440000
def Reg.TRG_EVENTS : Nat := 0x440004
def Reg.TRG_FIRE : Nat := 0x440008
def Reg.TRG_LINE_SRC01 (i : Nat) : Nat := 0x441000 + i * 0x20
def Reg.TRG_LINE_SRC23 (i : Nat) : Nat := 0x441004 + i * 0x20
def Reg.TRG_LINE_CFG (i : Nat) : Nat := 0x441008 + i * 0x20
def Reg.TRG_LINE_DELAY (i : Nat) : Nat := 0x44100c + i * 0x20
def Reg.TRG_LINE_CNT (i : Nat) : Nat := 0x441010 + i * 0x20
def Reg.TRG_LINE_SUPP (i : Nat) : Nat := 0x441014 + i * 0x20
def Reg.TRG_LINE_LAST_LO (i : Nat) : Nat := 0x441018 + i * 0x20
def Reg.TRG_LINE_LAST_HI (i : Nat) : Nat := 0x44101c + i * 0x20

/-! ACQ registers (R451). -/
def Reg.ACQ_STATUS : Nat := 0x450000
def Reg.ACQ_EVENTS : Nat := 0x450004
def Reg.ACQ_PRODUCED : Nat := 0x450010
def Reg.ACQ_STORED : Nat := 0x450014
def Reg.ACQ_OVERWRITTEN : Nat := 0x450018
def Reg.ACQ_INFLIGHT : Nat := 0x45001c
def Reg.ACQ_CTRL (i : Nat) : Nat := 0x451000 + i * 0x100
def Reg.ACQ_BLOCK (i : Nat) : Nat := 0x451004 + i * 0x100
def Reg.ACQ_PRE (i : Nat) : Nat := 0x451008 + i * 0x100
def Reg.ACQ_POST (i : Nat) : Nat := 0x45100c + i * 0x100
def Reg.ACQ_STATE (i : Nat) : Nat := 0x451010 + i * 0x100
def Reg.ACQ_DET_CH (i : Nat) : Nat := 0x451014 + i * 0x100
def Reg.ACQ_DET_LEVEL (i : Nat) : Nat := 0x451018 + i * 0x100
def Reg.ACQ_DET_HYST (i : Nat) : Nat := 0x45101c + i * 0x100
def Reg.ACQ_DET_LAT (i : Nat) : Nat := 0x451020 + i * 0x100
def Reg.ACQ_R_BASE_LO (i : Nat) (j : Nat) : Nat := 0x451040 + i * 0x100 + j * 0x20
def Reg.ACQ_R_BASE_HI (i : Nat) (j : Nat) : Nat := 0x451044 + i * 0x100 + j * 0x20
def Reg.ACQ_R_SIZE (i : Nat) (j : Nat) : Nat := 0x451048 + i * 0x100 + j * 0x20
def Reg.ACQ_R_WR (i : Nat) (j : Nat) : Nat := 0x45104c + i * 0x100 + j * 0x20
def Reg.ACQ_R_RD (i : Nat) (j : Nat) : Nat := 0x451050 + i * 0x100 + j * 0x20
def Reg.ACQ_R_TRIG (i : Nat) (j : Nat) : Nat := 0x451054 + i * 0x100 + j * 0x20
def Reg.ACQ_R_OVERWR (i : Nat) (j : Nat) : Nat := 0x451058 + i * 0x100 + j * 0x20
def Reg.ACQ_XTCOMP (i : Nat) : Nat := 0x458000 + i * 0x4

/-! QDR registers (R452). -/
def Reg.QDR_STATUS : Nat := 0x460000
def Reg.QDR_EVENTS : Nat := 0x460004
def Reg.QDR_STRAP : Nat := 0x460008
def Reg.QDR_PRESENT : Nat := 0x46000c
def Reg.QDR_PEER_FAULT : Nat := 0x460010
def Reg.QDR_GEN : Nat := 0x460014
def Reg.QDR_CNT_STEP : Nat := 0x460018
def Reg.QDR_QT_SENT : Nat := 0x46001c
def Reg.QDR_QT_MERGED : Nat := 0x460020
def Reg.QDR_CRC_ERR : Nat := 0x460024
def Reg.QDR_OWNER_TAG : Nat := 0x460028
def Reg.QDR_CMD : Nat := 0x46002c
def Reg.QDR_DELAY (i : Nat) : Nat := 0x460080 + i * 0x4

/-! MEM registers (R490). -/
def Reg.MEM_STATUS : Nat := 0x500000
def Reg.MEM_EVENTS : Nat := 0x500004
def Reg.MEM_CAP0 : Nat := 0x500008
def Reg.MEM_CAP1 : Nat := 0x50000c
def Reg.MEM_PC_FENCED0 : Nat := 0x500010
def Reg.MEM_PC_FENCED1 : Nat := 0x500014
def Reg.MEM_SPARE_MAP : Nat := 0x500018
def Reg.MEM_CORR_COUNT : Nat := 0x500020
def Reg.MEM_UNCORR_COUNT : Nat := 0x500024
def Reg.MEM_POISON_COUNT : Nat := 0x500028
def Reg.MEM_LAST_ERR_LO : Nat := 0x50002c
def Reg.MEM_LAST_ERR_HI : Nat := 0x500030
def Reg.MEM_OBJ_BASE_LO : Nat := 0x500034
def Reg.MEM_OBJ_BASE_HI : Nat := 0x500038
def Reg.MEM_OBJ_SIZE : Nat := 0x50003c
def Reg.MEM_OBJ_USED : Nat := 0x500040
def Reg.MEM_XFENCE_THRESH : Nat := 0x508000
def Reg.MEM_XINJECT : Nat := 0x508004

/-! LIB registers (R491). -/
def Reg.LIB_STATUS : Nat := 0x510000
def Reg.LIB_EVENTS : Nat := 0x510004
def Reg.LIB_CMD : Nat := 0x510008
def Reg.LIB_CMD_RESULT : Nat := 0x51000c
def Reg.LIB_ARG_ID : Nat := 0x510010
def Reg.LIB_ARG_TYPE : Nat := 0x510014
def Reg.LIB_ARG_LEN_LO : Nat := 0x510018
def Reg.LIB_ARG_LEN_HI : Nat := 0x51001c
def Reg.LIB_ARG_OFF_LO : Nat := 0x510020
def Reg.LIB_ARG_OFF_HI : Nat := 0x510024
def Reg.LIB_ARG_ADDR_LO : Nat := 0x510028
def Reg.LIB_ARG_ADDR_HI : Nat := 0x51002c
def Reg.LIB_ARG_BYTES : Nat := 0x510030
def Reg.LIB_INFO (i : Nat) : Nat := 0x510040 + i * 0x4
def Reg.LIB_USED_MB : Nat := 0x510060
def Reg.LIB_FREE_MB : Nat := 0x510064
def Reg.LIB_POOL_INIT : Nat := 0x510068
def Reg.LIB_POOL_LEFT : Nat := 0x51006c
def Reg.LIB_RESCUE_LEFT : Nat := 0x510070
def Reg.LIB_DIES_FAILED : Nat := 0x510074
def Reg.LIB_OBJECTS : Nat := 0x510078
def Reg.LIB_WEAR_7D : Nat := 0x510080
def Reg.LIB_WEAR_BUDGET : Nat := 0x510084
def Reg.LIB_STG_PENDING : Nat := 0x510090
def Reg.LIB_STG_FAIL_ID : Nat := 0x510094
def Reg.LIB_STG_FAIL_REASON : Nat := 0x510098
def Reg.LIB_ACCEPTED : Nat := 0x5100a0
def Reg.LIB_COMMITTED : Nat := 0x5100a4
def Reg.LIB_ABANDONED : Nat := 0x5100a8
def Reg.LIB_INFLIGHT : Nat := 0x5100ac
def Reg.LIB_XPATROL_PERIOD : Nat := 0x518000
def Reg.LIB_XREFRESH_THRESH : Nat := 0x518004

/-! SCH registers (R521). -/
def Reg.SCH_STATUS : Nat := 0x520000
def Reg.SCH_EVENTS : Nat := 0x520004
def Reg.SCH_CORES_FENCED_LO : Nat := 0x520008
def Reg.SCH_CORES_FENCED_HI : Nat := 0x52000c
def Reg.SCH_SUBMITTED : Nat := 0x520010
def Reg.SCH_RELEASED : Nat := 0x520014
def Reg.SCH_CANCELLED : Nat := 0x520018
def Reg.SCH_OUTSTANDING : Nat := 0x52001c
def Reg.SCH_REFUSED : Nat := 0x520020
def Reg.SCH_PREEMPTS : Nat := 0x520024
def Reg.SCH_PREEMPT_LATE : Nat := 0x520028
def Reg.SCH_FLAG_MERGED : Nat := 0x52002c
def Reg.SCH_FLAG_PEND_LO : Nat := 0x520030
def Reg.SCH_FLAG_PEND_HI : Nat := 0x520034
def Reg.SCH_SUB (i : Nat) : Nat := 0x520040 + i * 0x4
def Reg.SCH_SUB_GO : Nat := 0x520080
def Reg.SCH_CMD : Nat := 0x520084
def Reg.SCH_FSEL : Nat := 0x520088
def Reg.SCH_FBASE_LO : Nat := 0x52008c
def Reg.SCH_FBASE_HI : Nat := 0x520090
def Reg.SCH_DFLAG (i : Nat) : Nat := 0x520100 + i * 0x4
def Reg.SCH_LIST_CFG (i : Nat) : Nat := 0x521000 + i * 0x10
def Reg.SCH_LIST_CORES_LO (i : Nat) : Nat := 0x521004 + i * 0x10
def Reg.SCH_LIST_CORES_HI (i : Nat) : Nat := 0x521008 + i * 0x10
def Reg.SCH_LIST_REFUSED (i : Nat) : Nat := 0x52100c + i * 0x10
def Reg.SCH_FLOW_CFG (i : Nat) : Nat := 0x524000 + i * 0x10
def Reg.SCH_FLOW_WR (i : Nat) : Nat := 0x524004 + i * 0x10
def Reg.SCH_FLOW_RD (i : Nat) : Nat := 0x524008 + i * 0x10
def Reg.SCH_FLOW_HELD (i : Nat) : Nat := 0x52400c + i * 0x10
def Reg.SCH_XSEL : Nat := 0x528000
def Reg.SCH_XLIST_CFG : Nat := 0x528004
def Reg.SCH_XLIST_CORES_LO : Nat := 0x528008
def Reg.SCH_XLIST_CORES_HI : Nat := 0x52800c
def Reg.SCH_XPREEMPT_MAX : Nat := 0x528010

/-! DMA registers (R551). -/
def Reg.DMA_STATUS : Nat := 0x530000
def Reg.DMA_EVENTS : Nat := 0x530004
def Reg.DMA_CQ_BASE_LO : Nat := 0x530010
def Reg.DMA_CQ_BASE_HI : Nat := 0x530014
def Reg.DMA_CQ_SIZE : Nat := 0x530018
def Reg.DMA_CQ_WR : Nat := 0x53001c
def Reg.DMA_CQ_RD : Nat := 0x530020
def Reg.DMA_TOK_ISSUED : Nat := 0x530030
def Reg.DMA_TOK_RETURNED : Nat := 0x530034
def Reg.DMA_TOK_ACTIVE : Nat := 0x530038
def Reg.DMA_CH_CTRL (i : Nat) : Nat := 0x531000 + i * 0x40
def Reg.DMA_CH_CMD (i : Nat) : Nat := 0x531004 + i * 0x40
def Reg.DMA_CH_STATUS (i : Nat) : Nat := 0x531008 + i * 0x40
def Reg.DMA_CH_SRC_LO (i : Nat) : Nat := 0x53100c + i * 0x40
def Reg.DMA_CH_SRC_HI (i : Nat) : Nat := 0x531010 + i * 0x40
def Reg.DMA_CH_DST_LO (i : Nat) : Nat := 0x531014 + i * 0x40
def Reg.DMA_CH_DST_HI (i : Nat) : Nat := 0x531018 + i * 0x40
def Reg.DMA_CH_LEN (i : Nat) : Nat := 0x53101c + i * 0x40
def Reg.DMA_CH_MOVED_LO (i : Nat) : Nat := 0x531020 + i * 0x40
def Reg.DMA_CH_MOVED_HI (i : Nat) : Nat := 0x531024 + i * 0x40
def Reg.DMA_CH_RUNS (i : Nat) : Nat := 0x531028 + i * 0x40
def Reg.DMA_CH_VREASON (i : Nat) : Nat := 0x53102c + i * 0x40
def Reg.DMA_XARB : Nat := 0x538000
def Reg.DMA_XCH_PROG_LO (i : Nat) : Nat := 0x539000 + i * 0x10
def Reg.DMA_XCH_PROG_HI (i : Nat) : Nat := 0x539004 + i * 0x10
def Reg.DMA_XCH_PCOUNT (i : Nat) : Nat := 0x539008 + i * 0x10
def Reg.DMA_XCH_MODE (i : Nat) : Nat := 0x53900c + i * 0x10

/-! NET registers (R587). -/
def Reg.NET_PORT_STATUS0 : Nat := 0x600000
def Reg.NET_PORT_STATUS1 : Nat := 0x600004
def Reg.NET_PORT_CFG0 : Nat := 0x600008
def Reg.NET_PORT_CFG1 : Nat := 0x60000c
def Reg.NET_FEC_CORR0 : Nat := 0x600010
def Reg.NET_FEC_CORR1 : Nat := 0x600014
def Reg.NET_FEC_UNCORR0 : Nat := 0x600018
def Reg.NET_FEC_UNCORR1 : Nat := 0x60001c
def Reg.NET_DROPPED : Nat := 0x600020
def Reg.NET_BADAUTH : Nat := 0x600024
def Reg.NET_RETX : Nat := 0x600028
def Reg.NET_CRED_GRANTED : Nat := 0x600030
def Reg.NET_CRED_USED : Nat := 0x600034
def Reg.NET_CRED_WITHDRAWN : Nat := 0x600038
def Reg.NET_CRED_OUTSTANDING : Nat := 0x60003c
def Reg.NET_CRED_XFER : Nat := 0x600040
def Reg.NET_LEASE_MS : Nat := 0x600050
def Reg.NET_ELECT_MS : Nat := 0x600054
def Reg.NET_SESS_IDLE : Nat := 0x600058
def Reg.NET_MAC0_LO : Nat := 0x600060
def Reg.NET_MAC0_HI : Nat := 0x600064
def Reg.NET_MAC1_LO : Nat := 0x600068
def Reg.NET_MAC1_HI : Nat := 0x60006c
def Reg.NET_IP4_0 : Nat := 0x600070
def Reg.NET_IP4_1 : Nat := 0x600074
def Reg.NET_IP6_0 (i : Nat) : Nat := 0x600080 + i * 0x4
def Reg.NET_IP6_1 (i : Nat) : Nat := 0x600090 + i * 0x4
def Reg.NET_SESS_STATE (i : Nat) : Nat := 0x600100 + i * 0x10
def Reg.NET_SESS_ID (i : Nat) : Nat := 0x600104 + i * 0x10
def Reg.NET_SESS_RX (i : Nat) : Nat := 0x600108 + i * 0x10
def Reg.NET_SESS_TX (i : Nat) : Nat := 0x60010c + i * 0x10
def Reg.NET_HOST_SEL : Nat := 0x600200
def Reg.NET_HOST_HASH (i : Nat) : Nat := 0x600204 + i * 0x4
def Reg.NET_HOST_PRIO : Nat := 0x600224
def Reg.NET_HOST_CMD : Nat := 0x600228

/-! PTP registers (R606). -/
def Reg.PTP_STATUS : Nat := 0x610000
def Reg.PTP_EVENTS : Nat := 0x610004
def Reg.PTP_CTRL : Nat := 0x610008
def Reg.PTP_STEP_MAX : Nat := 0x61000c
def Reg.PTP_LATE_NS : Nat := 0x610010
def Reg.PTP_TOD_SEC_LO : Nat := 0x610020
def Reg.PTP_TOD_SEC_HI : Nat := 0x610024
def Reg.PTP_TOD_NS : Nat := 0x610028
def Reg.PTP_SOFFSET : Nat := 0x61002c
def Reg.PTP_SNAP_CMD : Nat := 0x610030
def Reg.PTP_SNAP_BEAT_LO : Nat := 0x610034
def Reg.PTP_SNAP_BEAT_HI : Nat := 0x610038
def Reg.PTP_SNAP_TOD_SEC : Nat := 0x61003c
def Reg.PTP_SNAP_TOD_NS : Nat := 0x610040
def Reg.PTP_SNAP_A_NS : Nat := 0x610044
def Reg.PTP_SNAP_B_NS : Nat := 0x610048
def Reg.PTP_TX_LAT0 : Nat := 0x610050
def Reg.PTP_RX_LAT0 : Nat := 0x610054
def Reg.PTP_TX_LAT1 : Nat := 0x610058
def Reg.PTP_RX_LAT1 : Nat := 0x61005c
def Reg.PTP_RX_BASE_LO : Nat := 0x610060
def Reg.PTP_RX_BASE_HI : Nat := 0x610064
def Reg.PTP_RX_SIZE : Nat := 0x610068
def Reg.PTP_RX_WR : Nat := 0x61006c
def Reg.PTP_RX_RD : Nat := 0x610070
def Reg.PTP_RX_DROPPED : Nat := 0x610074
def Reg.PTP_D_SEC_LO (i : Nat) : Nat := 0x610100 + i * 0x40
def Reg.PTP_D_SEC_HI (i : Nat) : Nat := 0x610104 + i * 0x40
def Reg.PTP_D_NS (i : Nat) : Nat := 0x610108 + i * 0x40
def Reg.PTP_D_INC_LO (i : Nat) : Nat := 0x61010c + i * 0x40
def Reg.PTP_D_INC_HI (i : Nat) : Nat := 0x610110 + i * 0x40
def Reg.PTP_D_ARG0 (i : Nat) : Nat := 0x610114 + i * 0x40
def Reg.PTP_D_ARG1 (i : Nat) : Nat := 0x610118 + i * 0x40
def Reg.PTP_D_ARG2 (i : Nat) : Nat := 0x61011c + i * 0x40
def Reg.PTP_D_CMD (i : Nat) : Nat := 0x610120 + i * 0x40
def Reg.PTP_LQ_BASE_LO (i : Nat) : Nat := 0x610200 + i * 0x20
def Reg.PTP_LQ_BASE_HI (i : Nat) : Nat := 0x610204 + i * 0x20
def Reg.PTP_LQ_SIZE (i : Nat) : Nat := 0x610208 + i * 0x20
def Reg.PTP_LQ_WR (i : Nat) : Nat := 0x61020c + i * 0x20
def Reg.PTP_LQ_RD (i : Nat) : Nat := 0x610210 + i * 0x20
def Reg.PTP_LQ_LATE (i : Nat) : Nat := 0x610214 + i * 0x20

/-! FLT registers (R639). -/
def Reg.FLT_STATUS : Nat := 0x620000
def Reg.FLT_ALERT : Nat := 0x620004
def Reg.FLT_GUARANTEE : Nat := 0x620008
def Reg.FLT_SEQ : Nat := 0x62000c
def Reg.FLT_Q_OVERFLOW : Nat := 0x620010
def Reg.FLT_WIRE : Nat := 0x620014
def Reg.FLT_COVERED : Nat := 0x620018
def Reg.FLT_COUNT_C (i : Nat) : Nat := 0x620020 + i * 0x4
def Reg.FLT_LAST (i : Nat) : Nat := 0x620040 + i * 0x4
def Reg.FLT_GRAVE (i : Nat) : Nat := 0x620080 + i * 0x4
def Reg.FLT_HSEL : Nat := 0x6200c0
def Reg.FLT_HIST (i : Nat) : Nat := 0x620100 + i * 0x4
def Reg.FLT_XINJECT : Nat := 0x628000

/-! LGR registers (R640). -/
def Reg.LGR_SUMMARY : Nat := 0x630000
def Reg.LGR_DRAINED : Nat := 0x630004
def Reg.LGR_LINK_BAL : Nat := 0x630008
def Reg.LGR_EVENTS : Nat := 0x63000c
def Reg.LGR_PEER_JOINED : Nat := 0x630010
def Reg.LGR_PEER_DEPARTED : Nat := 0x630014
def Reg.LGR_PEER_WRITTEN_OFF : Nat := 0x630018
def Reg.LGR_PEER_PRESENT : Nat := 0x63001c
def Reg.LGR_PEER_WO_MASK : Nat := 0x630020
def Reg.LGR_LEFT (i : Nat) : Nat := 0x630100 + i * 0x10
def Reg.LGR_RIGHT (i : Nat) : Nat := 0x630104 + i * 0x10
def Reg.LGR_OUT (i : Nat) : Nat := 0x630108 + i * 0x10
def Reg.LGR_STATUS (i : Nat) : Nat := 0x63010c + i * 0x10

/-! PWR registers (R679). -/
def Reg.PWR_STATUS : Nat := 0x640000
def Reg.PWR_CTRL : Nat := 0x640004
def Reg.PWR_CMD : Nat := 0x640008
def Reg.PWR_EVENTS : Nat := 0x64000c
def Reg.PWR_VIN : Nat := 0x640010
def Reg.PWR_PIN : Nat := 0x640014
def Reg.PWR_STEP_DUR : Nat := 0x640018
def Reg.PWR_ADMIT : Nat := 0x64001c
def Reg.PWR_GALOP_S : Nat := 0x640020
def Reg.PWR_OVERRUN : Nat := 0x640024
def Reg.PWR_DETACH_TIMEOUT : Nat := 0x640028
def Reg.PWR_XGALOP_W : Nat := 0x648000

/-! SEC registers (R680). -/
def Reg.SEC_STATUS : Nat := 0x650000
def Reg.SEC_CMD : Nat := 0x650004
def Reg.SEC_CONFIRM : Nat := 0x650008
def Reg.SEC_ARG : Nat := 0x65000c
def Reg.SEC_RESULT : Nat := 0x650010
def Reg.SEC_SVN : Nat := 0x650014
def Reg.SEC_ARG_HASH (i : Nat) : Nat := 0x650040 + i * 0x4
def Reg.SEC_ATT_NONCE (i : Nat) : Nat := 0x650060 + i * 0x4
def Reg.SEC_SLOT_HASH (i : Nat) : Nat := 0x650100 + i * 0x4
def Reg.SEC_VENDOR_HASH (i : Nat) : Nat := 0x650180 + i * 0x4
def Reg.SEC_ATT (i : Nat) : Nat := 0x651000 + i * 0x4
def Reg.SEC_IDKEY (i : Nat) : Nat := 0x653000 + i * 0x4

/-! DBG registers (R681). -/
def Reg.DBG_STATUS : Nat := 0x660000
def Reg.DBG_CTRL : Nat := 0x660004
def Reg.DBG_LEFT : Nat := 0x660008
def Reg.DBG_EVENTS : Nat := 0x66000c
def Reg.DBG_IDCODE : Nat := 0x660010
def Reg.DBG_NONCE (i : Nat) : Nat := 0x660020 + i * 0x4
def Reg.DBG_REQ : Nat := 0x660040
def Reg.DBG_TOKEN (i : Nat) : Nat := 0x661000 + i * 0x4

/-! TEL registers (R97). -/
def Reg.TEL_CTRL : Nat := 0x670000
def Reg.TEL_SEQ : Nat := 0x670004
def Reg.TEL_DROPPED : Nat := 0x670008
def Reg.TEL_SENSOR_EXCL : Nat := 0x67000c
def Reg.TEL_SNAP (i : Nat) : Nat := 0x670040 + i * 0x4

/-- Rows of the SYS block. -/
def regRowsSys : List RegRow := [
  -- SYS_ID (RO)
  ⟨0x0, [], 0x5120002, 0, 0, 0, 0, 0, 0⟩,
  -- SYS_REV (RO)
  ⟨0x4, [], 0x0, 0, 0, 0, 0, 0, 0⟩,
  -- SYS_SERIAL_LO (RO)
  ⟨0x8, [], 0x0, 0, 0, 0, 0, 0, 0⟩,
  -- SYS_SERIAL_HI (RO)
  ⟨0xc, [], 0x0, 0, 0, 0, 0, 0, 0⟩,
  -- SYS_FW_VER (RO)
  ⟨0x10, [], 0x0, 0, 0, 0, 0, 0, 0⟩,
  -- SYS_STATE (RO)
  ⟨0x14, [], 0x0, 0, 0, 0, 0, 0, 0⟩,
  -- SYS_EXPERT_EN (RW·I)
  ⟨0x18, [], 0x0, 0x1ffffff, 0, 0, 0, 0, 0⟩,
  -- SYS_OWNER (RO)
  ⟨0x1c, [], 0x0, 0, 0, 0, 0, 0, 0⟩,
  -- SYS_CMD (WO·I)
  ⟨0x20, [], 0x0, 0xff, 0, 0, 0, 0, 0xff⟩,
  -- SYS_SCRATCH (RW·I)
  ⟨0x24, [], 0x0, 0xffffffff, 0, 0, 0, 0, 0⟩,
  -- SYS_UPTIME (RO)
  ⟨0x28, [], 0x0, 0, 0, 0, 0, 0, 0⟩,
  -- SYS_RCMD (WO·I)
  ⟨0x40, [], 0x0, 0xffff, 0, 0, 0, 0, 0xffff⟩,
  -- SYS_RLEN (RW·I)
  ⟨0x44, [], 0x0, 0xffffffff, 0, 0, 0, 0, 0⟩,
  -- SYS_RRESULT (RO)
  ⟨0x48, [], 0x0, 0, 0, 0, 0, 0, 0⟩]

/-- Rows of the IMG block. -/
def regRowsImg : List RegRow := [
  -- IMG_STATUS (RO)
  ⟨0x10000, [], 0x0, 0, 0, 0, 0, 0, 0⟩,
  -- IMG_CMD (WO·I)
  ⟨0x10004, [], 0x0, 0x1ff, 0, 0, 0, 0, 0x1ff⟩,
  -- IMG_EPOCH (RO)
  ⟨0x10008, [], 0x0, 0, 0, 0, 0, 0, 0⟩,
  -- IMG_ACTIVE_SEQ_LO (RO)
  ⟨0x1000c, [], 0x0, 0, 0, 0, 0, 0, 0⟩,
  -- IMG_ACTIVE_SEQ_HI (RO)
  ⟨0x10010, [], 0x0, 0, 0, 0, 0, 0, 0⟩,
  -- IMG_A_SEQ_LO (RO)
  ⟨0x10014, [], 0x0, 0, 0, 0, 0, 0, 0⟩,
  -- IMG_A_SEQ_HI (RO)
  ⟨0x10018, [], 0x0, 0, 0, 0, 0, 0, 0⟩,
  -- IMG_B_SEQ_LO (RO)
  ⟨0x1001c, [], 0x0, 0, 0, 0, 0, 0, 0⟩,
  -- IMG_B_SEQ_HI (RO)
  ⟨0x10020, [], 0x0, 0, 0, 0, 0, 0, 0⟩,
  -- IMG_SLOT_STATE (RO)
  ⟨0x10024, [], 0x0, 0, 0, 0, 0, 0, 0⟩,
  -- IMG_REASON (RO)
  ⟨0x10028, [], 0x0, 0, 0, 0, 0, 0, 0⟩,
  -- IMG_HBM0_RSV (RO)
  ⟨0x10030, [], 0x0, 0, 0, 0, 0, 0, 0⟩,
  -- IMG_HBM0_CAP (RO)
  ⟨0x10034, [], 0x0, 0, 0, 0, 0, 0, 0⟩,
  -- IMG_HBM1_RSV (RO)
  ⟨0x10038, [], 0x0, 0, 0, 0, 0, 0, 0⟩,
  -- IMG_HBM1_CAP (RO)
  ⟨0x1003c, [], 0x0, 0, 0, 0, 0, 0, 0⟩,
  -- IMG_ENG_RSV (RO)
  ⟨0x10040, [], 0x0, 0, 0, 0, 0, 0, 0⟩,
  -- IMG_ETH_RSV (RO)
  ⟨0x10044, [], 0x0, 0, 0, 0, 0, 0, 0⟩,
  -- IMG_LIBR_RSV (RO)
  ⟨0x10048, [], 0x0, 0, 0, 0, 0, 0, 0⟩,
  -- IMG_LIBW_RSV (RO)
  ⟨0x1004c, [], 0x0, 0, 0, 0, 0, 0, 0⟩,
  -- IMG_V_HBM0_RSV (RO)
  ⟨0x10050, [], 0x0, 0, 0, 0, 0, 0, 0⟩,
  -- IMG_V_HBM0_CAP (RO)
  ⟨0x10054, [], 0x0, 0, 0, 0, 0, 0, 0⟩,
  -- IMG_V_HBM1_RSV (RO)
  ⟨0x10058, [], 0x0, 0, 0, 0, 0, 0, 0⟩,
  -- IMG_V_HBM1_CAP (RO)
  ⟨0x1005c, [], 0x0, 0, 0, 0, 0, 0, 0⟩,
  -- IMG_V_ENG_RSV (RO)
  ⟨0x10060, [], 0x0, 0, 0, 0, 0, 0, 0⟩,
  -- IMG_V_ETH_RSV (RO)
  ⟨0x10064, [], 0x0, 0, 0, 0, 0, 0, 0⟩,
  -- IMG_V_LIBR_RSV (RO)
  ⟨0x10068, [], 0x0, 0, 0, 0, 0, 0, 0⟩,
  -- IMG_V_LIBW_RSV (RO)
  ⟨0x1006c, [], 0x0, 0, 0, 0, 0, 0, 0⟩,
  -- IMG_DIGEST0–IMG_DIGEST15 (RO)
  ⟨0x10080, [(16, 0x4)], 0x0, 0, 0, 0, 0, 0, 0⟩]

/-- Rows of the TBF block. -/
def regRowsTbf : List RegRow := [
  -- TBF_STATUS (RO); its row says 0x0000_0000 and its field table gives REF reset 1: the model takes 1 (DESIGN CHOICE, notes/assumptions/52.md)
  ⟨0x20000, [], 0x1, 0, 0, 0, 0, 0, 0⟩,
  -- TBF_CTRL (RW)
  ⟨0x20004, [], 0x0, 0x4, 0, 0x3, 0, 0, 0⟩,
  -- TBF_BEAT_PPM (RO)
  ⟨0x20008, [], 0x0, 0, 0, 0, 0, 0, 0⟩,
  -- TBF_SWITCH_COUNT (RO)
  ⟨0x2000c, [], 0x0, 0, 0, 0, 0, 0, 0⟩,
  -- TBF_BEAT_COUNT_LO (RO)
  ⟨0x20010, [], 0x0, 0, 0, 0, 0, 0, 0⟩,
  -- TBF_BEAT_COUNT_HI (RO)
  ⟨0x20014, [], 0x0, 0, 0, 0, 0, 0, 0⟩,
  -- TBF_EVENTS (W1C)
  ⟨0x20018, [], 0x0, 0, 0, 0, 0, 0x3f, 0⟩,
  -- TBF_PAV_LATE (RO)
  ⟨0x2001c, [], 0x0, 0, 0, 0, 0, 0, 0⟩,
  -- TBF_SLACK_WARN (RW·I)
  ⟨0x20020, [], 0x320, 0xffffffff, 0, 0, 0, 0, 0⟩,
  -- TBF_SLACK_MIN (RO)
  ⟨0x20024, [], 0x7fff, 0, 0, 0, 0, 0, 0⟩,
  -- TBF_SLACK0–TBF_SLACK31 (RO)
  ⟨0x20080, [(32, 0x4)], 0x0, 0, 0, 0, 0, 0, 0⟩,
  -- TBF_LEAD_MIN0–TBF_LEAD_MIN15 (RO)
  ⟨0x20100, [(16, 0x4)], 0x20, 0, 0, 0, 0, 0, 0⟩,
  -- TBF_PAV_SCRUB_PERIOD (RW·S)
  ⟨0x28000, [], 0x3c, 0, 0, 0xffffffff, 0, 0, 0⟩,
  -- TBF_PAV_EYE_PERIOD (RW·S)
  ⟨0x28004, [], 0xa, 0, 0, 0xffffffff, 0, 0, 0⟩]

/-- Rows of the LNK block (part 1). -/
def regRowsLnk0 : List RegRow := [
  -- LNK_PHY_STATUS_A (RO)
  ⟨0x100000, [(16, 0x10000)], 0x0, 0, 0, 0, 0, 0, 0⟩,
  -- LNK_PHY_STATUS_B (RO)
  ⟨0x100004, [(16, 0x10000)], 0x0, 0, 0, 0, 0, 0, 0⟩,
  -- LNK_PHY_CMD (WO·I)
  ⟨0x100008, [(16, 0x10000)], 0x0, 0xf, 0, 0, 0, 0, 0xf⟩,
  -- LNK_PHY_EVENTS (W1C)
  ⟨0x10000c, [(16, 0x10000)], 0x0, 0, 0, 0, 0, 0xff, 0⟩,
  -- LNK_PHY_SKEW (RO)
  ⟨0x100010, [(16, 0x10000)], 0x80000000, 0, 0, 0, 0, 0, 0⟩,
  -- LNK_EYE_LIMIT (RW·I)
  ⟨0x100014, [(16, 0x10000)], 0xa000c, 0xffff00ff, 0, 0, 0, 0, 0⟩,
  -- LNK_TXFFE_A (RO)
  ⟨0x100018, [(16, 0x10000)], 0x4000, 0, 0, 0, 0, 0, 0⟩,
  -- LNK_TXFFE_B (RO)
  ⟨0x10001c, [(16, 0x10000)], 0x4000, 0, 0, 0, 0, 0, 0⟩,
  -- LNK_RXFFE_A (RO)
  ⟨0x100020, [(16, 0x10000)], 0x4000, 0, 0, 0, 0, 0, 0⟩,
  -- LNK_RXFFE_B (RO)
  ⟨0x100024, [(16, 0x10000)], 0x4000, 0, 0, 0, 0, 0, 0⟩,
  -- LNK_EYE_AI0–LNK_EYE_AI7 (RO)
  ⟨0x100040, [(16, 0x10000), (8, 0x4)], 0x0, 0, 0, 0, 0, 0, 0⟩,
  -- LNK_EYE_AO0–LNK_EYE_AO7 (RO)
  ⟨0x100060, [(16, 0x10000), (8, 0x4)], 0x0, 0, 0, 0, 0, 0, 0⟩,
  -- LNK_EYE_BI0–LNK_EYE_BI7 (RO)
  ⟨0x100080, [(16, 0x10000), (8, 0x4)], 0x0, 0, 0, 0, 0, 0, 0⟩,
  -- LNK_EYE_BO0–LNK_EYE_BO7 (RO)
  ⟨0x1000a0, [(16, 0x10000), (8, 0x4)], 0x0, 0, 0, 0, 0, 0, 0⟩,
  -- LNK_CAP_A0–LNK_CAP_A7 (RO)
  ⟨0x1000c0, [(16, 0x10000), (8, 0x4)], 0x0, 0, 0, 0, 0, 0, 0⟩,
  -- LNK_CAP_B0–LNK_CAP_B7 (RO)
  ⟨0x1000e0, [(16, 0x10000), (8, 0x4)], 0x0, 0, 0, 0, 0, 0, 0⟩,
  -- LNK_FR_STATUS (RO)
  ⟨0x100100, [(16, 0x10000)], 0x2000, 0, 0, 0, 0, 0, 0⟩,
  -- LNK_FR_TXSEQ (RO)
  ⟨0x100104, [(16, 0x10000)], 0x0, 0, 0, 0, 0, 0, 0⟩,
  -- LNK_FR_RXSEQ (RO)
  ⟨0x100108, [(16, 0x10000)], 0x0, 0, 0, 0, 0, 0, 0⟩,
  -- LNK_FR_SENT (RO)
  ⟨0x10010c, [(16, 0x10000)], 0x0, 0, 0, 0, 0, 0, 0⟩,
  -- LNK_FR_APPLIED (RO)
  ⟨0x100110, [(16, 0x10000)], 0x0, 0, 0, 0, 0, 0, 0⟩,
  -- LNK_FR_LOST (RO)
  ⟨0x100114, [(16, 0x10000)], 0x0, 0, 0, 0, 0, 0, 0⟩,
  -- LNK_FR_OUTSTANDING (RO)
  ⟨0x100118, [(16, 0x10000)], 0x0, 0, 0, 0, 0, 0, 0⟩,
  -- LNK_FR_KEPT_A (RO)
  ⟨0x10011c, [(16, 0x10000)], 0x0, 0, 0, 0, 0, 0, 0⟩,
  -- LNK_FR_KEPT_B (RO)
  ⟨0x100120, [(16, 0x10000)], 0x0, 0, 0, 0, 0, 0, 0⟩,
  -- LNK_FR_TWIN (RO)
  ⟨0x100124, [(16, 0x10000)], 0x0, 0, 0, 0, 0, 0, 0⟩,
  -- LNK_FR_UNCORR_A (RO)
  ⟨0x100128, [(16, 0x10000)], 0x0, 0, 0, 0, 0, 0, 0⟩,
  -- LNK_FR_UNCORR_B (RO)
  ⟨0x10012c, [(16, 0x10000)], 0x0, 0, 0, 0, 0, 0, 0⟩]

/-- Rows of the LNK block (part 2). -/
def regRowsLnk1 : List RegRow := [
  -- LNK_FR_CORR_A (RO)
  ⟨0x100130, [(16, 0x10000)], 0x0, 0, 0, 0, 0, 0, 0⟩,
  -- LNK_FR_CORR_B (RO)
  ⟨0x100134, [(16, 0x10000)], 0x0, 0, 0, 0, 0, 0, 0⟩,
  -- LNK_FR_IN_LOST (RO)
  ⟨0x100138, [(16, 0x10000)], 0x0, 0, 0, 0, 0, 0, 0⟩,
  -- LNK_FR_RES_LOST (RO)
  ⟨0x10013c, [(16, 0x10000)], 0x0, 0, 0, 0, 0, 0, 0⟩,
  -- LNK_FR_EVENTS (W1C)
  ⟨0x100140, [(16, 0x10000)], 0x0, 0, 0, 0, 0, 0x1ff, 0⟩,
  -- LNK_CNT_CORR (RO)
  ⟨0x100144, [(16, 0x10000)], 0x0, 0, 0, 0, 0, 0, 0⟩,
  -- LNK_CNT_RESID (RO)
  ⟨0x100148, [(16, 0x10000)], 0x0, 0, 0, 0, 0, 0, 0⟩,
  -- LNK_FR_BADSEQ (RO)
  ⟨0x10014c, [(16, 0x10000)], 0x0, 0, 0, 0, 0, 0, 0⟩,
  -- LNK_PHY_XCTRL_A (RW·L)
  ⟨0x108000, [(16, 0x10000)], 0x0, 0, 0, 0, 0x7fd, 0, 0⟩,
  -- LNK_PHY_XCTRL_B (RW·L)
  ⟨0x108004, [(16, 0x10000)], 0x0, 0, 0, 0, 0x7fd, 0, 0⟩,
  -- LNK_TXFFE_MAN_A (RW·L)
  ⟨0x108008, [(16, 0x10000)], 0xf834fc, 0, 0, 0, 0xffffff, 0, 0⟩,
  -- LNK_TXFFE_MAN_B (RW·L)
  ⟨0x10800c, [(16, 0x10000)], 0xf834fc, 0, 0, 0, 0xffffff, 0, 0⟩,
  -- LNK_BERT_CTRL (RW·L)
  ⟨0x108010, [(16, 0x10000)], 0x0, 0, 0, 0, 0xf, 0, 0⟩,
  -- LNK_BERT_ERR_A (RO)
  ⟨0x108014, [(16, 0x10000)], 0x0, 0, 0, 0, 0, 0, 0⟩,
  -- LNK_BERT_ERR_B (RO)
  ⟨0x108018, [(16, 0x10000)], 0x0, 0, 0, 0, 0, 0, 0⟩,
  -- LNK_BERT_UNITS_A (RO)
  ⟨0x10801c, [(16, 0x10000)], 0x0, 0, 0, 0, 0, 0, 0⟩,
  -- LNK_BERT_UNITS_B (RO)
  ⟨0x108020, [(16, 0x10000)], 0x0, 0, 0, 0, 0, 0, 0⟩,
  -- LNK_EYE_CFG (RW·S)
  ⟨0x108024, [(16, 0x10000)], 0x18, 0, 0, 0x1f, 0, 0, 0⟩,
  -- LNK_FR_XCTRL (RW·L)
  ⟨0x108100, [(16, 0x10000)], 0x0, 0, 0, 0, 0x3, 0, 0⟩,
  -- LNK_FR_INJECT (WO·I)
  ⟨0x108104, [(16, 0x10000)], 0x0, 0x1ff, 0, 0, 0, 0, 0x1ff⟩,
  -- LNK_CNT_CTRL (RW·S)
  ⟨0x108108, [(16, 0x10000)], 0x3e8, 0, 0, 0xffff, 0, 0, 0⟩]

/-- Rows of the LNK block. -/
def regRowsLnk : List RegRow := regRowsLnk0 ++ regRowsLnk1

/-- Rows of the SEQ block. -/
def regRowsSeq : List RegRow := [
  -- SEQ_STATUS (RO)
  ⟨0x200000, [], 0x0, 0, 0, 0, 0, 0, 0⟩,
  -- SEQ_STEP_CMD (WO·I)
  ⟨0x200004, [], 0x0, 0x1ff, 0, 0, 0, 0, 0x1ff⟩,
  -- SEQ_STEP_CTX_LO (RW·I)
  ⟨0x200008, [], 0x0, 0xffffffff, 0, 0, 0, 0, 0⟩,
  -- SEQ_STEP_CTX_HI (RW·I)
  ⟨0x20000c, [], 0x0, 0xffffffff, 0, 0, 0, 0, 0⟩,
  -- SEQ_STEP_DELAY (RW·S)
  ⟨0x200010, [], 0x7d0, 0, 0, 0xffffffff, 0, 0, 0⟩,
  -- SEQ_STEP_AT_LO (RW·I)
  ⟨0x200014, [], 0x0, 0xffffffff, 0, 0, 0, 0, 0⟩,
  -- SEQ_STEP_AT_HI (RW·I)
  ⟨0x200018, [], 0x0, 0xffff, 0, 0, 0, 0, 0⟩,
  -- SEQ_STEP_COUNT (RO)
  ⟨0x20001c, [], 0x0, 0, 0, 0, 0, 0, 0⟩,
  -- SEQ_STEPTIME_LO (RO)
  ⟨0x200020, [], 0x0, 0, 0, 0, 0, 0, 0⟩,
  -- SEQ_STEPTIME_HI (RO)
  ⟨0x200024, [], 0x0, 0, 0, 0, 0, 0, 0⟩,
  -- SEQ_LOG_BASE_LO (RW·L)
  ⟨0x200030, [], 0x0, 0, 0, 0, 0xffffffff, 0, 0⟩,
  -- SEQ_LOG_BASE_HI (RW·L)
  ⟨0x200034, [], 0x0, 0, 0, 0, 0xffff, 0, 0⟩,
  -- SEQ_LOG_SIZE (RW·L)
  ⟨0x200038, [], 0x4000, 0, 0, 0, 0xffffffff, 0, 0⟩,
  -- SEQ_LOG_WR (RO)
  ⟨0x20003c, [], 0x0, 0, 0, 0, 0, 0, 0⟩,
  -- SEQ_LOG_RD (RW·I)
  ⟨0x200040, [], 0x0, 0xffffffff, 0, 0, 0, 0, 0⟩,
  -- SEQ_LOG_LOST (RO)
  ⟨0x200044, [], 0x0, 0, 0, 0, 0, 0, 0⟩,
  -- SEQ_LOG_MASK (RW·S)
  ⟨0x200048, [], 0x0, 0, 0, 0xffffffff, 0, 0, 0⟩,
  -- SEQ_UCODE_VER (RO)
  ⟨0x200050, [], 0x0, 0, 0, 0, 0, 0, 0⟩,
  -- SEQ_ENG_SINGLE (RO)
  ⟨0x200054, [], 0x0, 0, 0, 0, 0, 0, 0⟩,
  -- SEQ_UCODE_DIGEST0–SEQ_UCODE_DIGEST15 (RO)
  ⟨0x200080, [(16, 0x4)], 0x0, 0, 0, 0, 0, 0, 0⟩]

/-- Rows of the SEQCTX block (part 1). -/
def regRowsSeqCtx0 : List RegRow := [
  -- SEQ_CTX_STATUS (RO)
  ⟨0x210000, [(64, 0x200)], 0x0, 0, 0, 0, 0, 0, 0⟩,
  -- SEQ_CTX_PC (RO)
  ⟨0x210004, [(64, 0x200)], 0x0, 0, 0, 0, 0, 0, 0⟩,
  -- SEQ_CTX_PROG (RW·S)
  ⟨0x210008, [(64, 0x200)], 0x0, 0, 0, 0xffffffff, 0, 0, 0⟩,
  -- SEQ_CTX_ENTRY (RW·S)
  ⟨0x21000c, [(64, 0x200)], 0x0, 0, 0, 0x80ffffff, 0, 0, 0⟩,
  -- SEQ_CTX_RLIST (RW·S)
  ⟨0x210010, [(64, 0x200)], 0xfffff, 0, 0, 0xfffff, 0, 0, 0⟩,
  -- SEQ_CTX_CFG (RW·S)
  ⟨0x210014, [(64, 0x200)], 0x0, 0, 0, 0xf, 0, 0, 0⟩,
  -- SEQ_CTX_VEC_LO (RO)
  ⟨0x210018, [(64, 0x200)], 0x0, 0, 0, 0, 0, 0, 0⟩,
  -- SEQ_CTX_VEC_HI (RO)
  ⟨0x21001c, [(64, 0x200)], 0x0, 0, 0, 0, 0, 0, 0⟩,
  -- SEQ_CTX_JPEND (RO)
  ⟨0x210020, [(64, 0x200)], 0x0, 0, 0, 0, 0, 0, 0⟩,
  -- SEQ_CTX_JFRAME_LO (RO)
  ⟨0x210024, [(64, 0x200)], 0x0, 0, 0, 0, 0, 0, 0⟩,
  -- SEQ_CTX_JFRAME_HI (RO)
  ⟨0x210028, [(64, 0x200)], 0x0, 0, 0, 0, 0, 0, 0⟩,
  -- SEQ_CTX_JTAKEN (RO)
  ⟨0x21002c, [(64, 0x200)], 0x0, 0, 0, 0, 0, 0, 0⟩,
  -- SEQ_CTX_SUPERSEDED (RO)
  ⟨0x210030, [(64, 0x200)], 0x0, 0, 0, 0, 0, 0, 0⟩,
  -- SEQ_CTX_HOLDS (RO)
  ⟨0x210034, [(64, 0x200)], 0x0, 0, 0, 0, 0, 0, 0⟩,
  -- SEQ_CTX_SEG (RO)
  ⟨0x210038, [(64, 0x200)], 0x0, 0, 0, 0, 0, 0, 0⟩,
  -- SEQ_CTX_SITES (RO)
  ⟨0x21003c, [(64, 0x200)], 0x0, 0, 0, 0, 0, 0, 0⟩,
  -- SEQ_CTX_LPC (RO)
  ⟨0x210040, [(64, 0x200), (4, 0x8)], 0x0, 0, 0, 0, 0, 0, 0⟩,
  -- SEQ_CTX_LCNT (RO)
  ⟨0x210044, [(64, 0x200), (4, 0x8)], 0x0, 0, 0, 0, 0, 0, 0⟩,
  -- SEQ_CTX_CALL0–SEQ_CTX_CALL7 (RO)
  ⟨0x210060, [(64, 0x200), (8, 0x4)], 0x0, 0, 0, 0, 0, 0, 0⟩,
  -- SEQ_CTX_SMASK0–SEQ_CTX_SMASK3 (RO)
  ⟨0x210080, [(64, 0x200), (4, 0x4)], 0x0, 0, 0, 0, 0, 0, 0⟩,
  -- SEQ_MST_U (RO)
  ⟨0x218000, [(64, 0x100), (32, 0x4)], 0x0, 0, 0, 0, 0, 0, 0⟩,
  -- SEQ_MST_MPC (RO)
  ⟨0x218080, [(64, 0x100)], 0x0, 0, 0, 0, 0, 0, 0⟩,
  -- SEQ_MST_MFLAGS (RO)
  ⟨0x218084, [(64, 0x100)], 0x0, 0, 0, 0, 0, 0, 0⟩,
  -- SEQ_MST_TRAP_CAUSE (RO)
  ⟨0x218088, [(64, 0x100)], 0x0, 0, 0, 0, 0, 0, 0⟩,
  -- SEQ_MST_ASEC_LEFT (RO)
  ⟨0x21808c, [(64, 0x100)], 0x0, 0, 0, 0, 0, 0, 0⟩,
  -- SEQ_MST_INSTR (RO)
  ⟨0x218090, [(64, 0x100), (2, 0x4)], 0x0, 0, 0, 0, 0, 0, 0⟩,
  -- SEQ_MST_INSTR_PC (RO)
  ⟨0x218098, [(64, 0x100)], 0x0, 0, 0, 0, 0, 0, 0⟩,
  -- SEQ_MST_TRAPS (RO)
  ⟨0x21809c, [(64, 0x100)], 0x0, 0, 0, 0, 0, 0, 0⟩]

/-- Rows of the SEQCTX block (part 2). -/
def regRowsSeqCtx1 : List RegRow := [
  -- SEQ_MST_RSV (RO)
  ⟨0x2180a0, [(64, 0x100), (24, 0x4)], 0x0, 0, 0, 0, 0, 0, 0⟩]

/-- Rows of the SEQCTX block. -/
def regRowsSeqCtx : List RegRow := regRowsSeqCtx0 ++ regRowsSeqCtx1

/-- Rows of the UCODELO block. -/
def regRowsUcodeLo : List RegRow := [
  -- SEQ_UCODE_LO (RO)
  ⟨0x220000, [(8192, 0x4)], 0x0, 0, 0, 0, 0, 0, 0⟩]

/-- Rows of the UCODEHI block. -/
def regRowsUcodeHi : List RegRow := [
  -- SEQ_UCODE_HI (RO)
  ⟨0x230000, [(8192, 0x4)], 0x0, 0, 0, 0, 0, 0, 0⟩]

/-- Rows of the TST block. -/
def regRowsTst : List RegRow := [
  -- TST_STATUS (RO)
  ⟨0x300000, [(16, 0x10000)], 0x0, 0, 0, 0, 0, 0, 0⟩,
  -- TST_TSET (RW·F)
  ⟨0x300004, [(16, 0x10000)], 0x0, 0, 0x3f, 0, 0, 0, 0⟩,
  -- TST_TSET_AT (RO)
  ⟨0x300008, [(16, 0x10000)], 0xffffffff, 0, 0, 0, 0, 0, 0⟩,
  -- TST_PERIOD (RW·S)
  ⟨0x30000c, [(16, 0x10000)], 0x0, 0, 0, 0xffffff, 0, 0, 0⟩,
  -- TST_SEL (RW·I)
  ⟨0x300010, [(16, 0x10000)], 0x0, 0x3f1f, 0, 0, 0, 0, 0⟩,
  -- TST_CMD (WO)
  ⟨0x300014, [(16, 0x10000)], 0x0, 0x1, 0, 0, 0x2, 0, 0x3⟩,
  -- TST_REASON (RO)
  ⟨0x300018, [(16, 0x10000)], 0x0, 0, 0, 0, 0, 0, 0⟩,
  -- TST_EV0–TST_EV15 (RW·I)
  ⟨0x300040, [(16, 0x10000), (16, 0x4)], 0x0, 0xe7ffffff, 0, 0, 0, 0, 0⟩,
  -- TST_RB0–TST_RB15 (RO)
  ⟨0x300080, [(16, 0x10000), (16, 0x4)], 0x0, 0, 0, 0, 0, 0, 0⟩,
  -- TST_SKEW0–TST_SKEW31 (RO)
  ⟨0x300100, [(16, 0x10000), (32, 0x4)], 0x0, 0, 0, 0, 0, 0, 0⟩,
  -- TST_DRIFT0–TST_DRIFT31 (RO)
  ⟨0x300180, [(16, 0x10000), (32, 0x4)], 0x0, 0, 0, 0, 0, 0, 0⟩,
  -- TST_RESID0–TST_RESID31 (RO)
  ⟨0x300200, [(16, 0x10000), (32, 0x4)], 0xffffffff, 0, 0, 0, 0, 0, 0⟩,
  -- TST_CAL_AGE0–TST_CAL_AGE31 (RO)
  ⟨0x300280, [(16, 0x10000), (32, 0x4)], 0x0, 0, 0, 0, 0, 0, 0⟩,
  -- TST_CAL_EVENTS (W1C)
  ⟨0x300300, [(16, 0x10000)], 0x0, 0, 0, 0, 0, 0x1f, 0⟩,
  -- TST_CAL_LAST (RO)
  ⟨0x300304, [(16, 0x10000)], 0x0, 0, 0, 0, 0, 0, 0⟩,
  -- TST_MODE0–TST_MODE3 (RW·S)
  ⟨0x300320, [(16, 0x10000), (4, 0x4)], 0x0, 0, 0, 0x77777777, 0, 0, 0⟩,
  -- TST_XCMD (WO·L)
  ⟨0x308000, [(16, 0x10000)], 0x0, 0, 0, 0, 0x1ff, 0, 0x1ff⟩,
  -- TST_XCH (RW·I)
  ⟨0x308004, [(16, 0x10000)], 0x0, 0xffffffff, 0, 0, 0, 0, 0⟩,
  -- TST_XLIMIT_LIN (RW·S)
  ⟨0x308008, [(16, 0x10000)], 0x1e003c, 0, 0, 0xffffffff, 0, 0, 0⟩,
  -- TST_XLIMIT_SKEW (RW·S)
  ⟨0x30800c, [(16, 0x10000)], 0x6000029, 0, 0, 0xffffffff, 0, 0, 0⟩,
  -- TST_XCAL_PERIOD (RW·S)
  ⟨0x308010, [(16, 0x10000)], 0x15180, 0, 0, 0xffffffff, 0, 0, 0⟩,
  -- TST_XLIN_ADDR (RW·I)
  ⟨0x308014, [(16, 0x10000)], 0x0, 0x11fff, 0, 0, 0, 0, 0⟩,
  -- TST_XLIN_DATA (RW·L)
  ⟨0x308018, [(16, 0x10000)], 0x0, 0, 0, 0, 0x3ff, 0, 0⟩,
  -- TST_XDRIFT (RW·S)
  ⟨0x30801c, [(16, 0x10000)], 0x1, 0, 0, 0x1, 0, 0, 0⟩,
  -- TST_XRAW_SETS_LO (RO)
  ⟨0x308020, [(16, 0x10000)], 0x0, 0, 0, 0, 0, 0, 0⟩,
  -- TST_XRAW_SETS_HI (RO)
  ⟨0x308024, [(16, 0x10000)], 0x0, 0, 0, 0, 0, 0, 0⟩,
  -- TST_XRAW0–TST_XRAW15 (RW·I)
  ⟨0x308040, [(16, 0x10000), (16, 0x4)], 0x0, 0xffffffff, 0, 0, 0, 0, 0⟩,
  -- TST_XTRIM0–TST_XTRIM31 (RO)
  ⟨0x308080, [(16, 0x10000), (32, 0x4)], 0x0, 0, 0, 0, 0, 0, 0⟩]

/-- Rows of the CMP block (part 1). -/
def regRowsCmp0 : List RegRow := [
  -- CMP_STATUS (RO)
  ⟨0x400000, [], 0x0, 0, 0, 0, 0, 0, 0⟩,
  -- CMP_EVENTS (W1C)
  ⟨0x400004, [], 0x0, 0, 0, 0, 0, 0x7f, 0⟩,
  -- CMP_LOG_BASE_LO (RW·L)
  ⟨0x400010, [], 0x0, 0, 0, 0, 0xffffffff, 0, 0⟩,
  -- CMP_LOG_BASE_HI (RW·L)
  ⟨0x400014, [], 0x0, 0, 0, 0, 0xffff, 0, 0⟩,
  -- CMP_LOG_SIZE (RW·L)
  ⟨0x400018, [], 0x10000, 0, 0, 0, 0xffffffff, 0, 0⟩,
  -- CMP_LOG_WR (RO)
  ⟨0x40001c, [], 0x0, 0, 0, 0, 0, 0, 0⟩,
  -- CMP_LOG_RD (RW·I)
  ⟨0x400020, [], 0x0, 0xffffffff, 0, 0, 0, 0, 0⟩,
  -- CMP_LOG_SITE_MAX (RW·S)
  ⟨0x400024, [], 0x0, 0, 0, 0xffffffff, 0, 0, 0⟩,
  -- CMP_LOG_BURST (RW·S)
  ⟨0x400028, [], 0x1000, 0, 0, 0xffffffff, 0, 0, 0⟩,
  -- CMP_LOG_RATE (RO)
  ⟨0x40002c, [], 0x0, 0, 0, 0, 0, 0, 0⟩,
  -- CMP_DETECTED (RO)
  ⟨0x400030, [], 0x0, 0, 0, 0, 0, 0, 0⟩,
  -- CMP_LOGGED (RO)
  ⟨0x400034, [], 0x0, 0, 0, 0, 0, 0, 0⟩,
  -- CMP_UNLOG_FULL (RO)
  ⟨0x400038, [], 0x0, 0, 0, 0, 0, 0, 0⟩,
  -- CMP_UNLOG_SITEMAX (RO)
  ⟨0x40003c, [], 0x0, 0, 0, 0, 0, 0, 0⟩,
  -- CMP_UNLOG_RATE (RO)
  ⟨0x400040, [], 0x0, 0, 0, 0, 0, 0, 0⟩,
  -- CMP_INFLIGHT (RO)
  ⟨0x400044, [], 0x0, 0, 0, 0, 0, 0, 0⟩,
  -- CMP_NOSTROBE (RO)
  ⟨0x400048, [], 0x0, 0, 0, 0, 0, 0, 0⟩,
  -- CMP_SITE_FAIL0–CMP_SITE_FAIL3 (RO)
  ⟨0x400080, [(4, 0x4)], 0x0, 0, 0, 0, 0, 0, 0⟩,
  -- CMP_SITE_CNT0–CMP_SITE_CNT127 (RO)
  ⟨0x400400, [(128, 0x4)], 0x0, 0, 0, 0, 0, 0, 0⟩,
  -- CMP_SITE_MCNT0–CMP_SITE_MCNT127 (RO)
  ⟨0x400600, [(128, 0x4)], 0x0, 0, 0, 0, 0, 0, 0⟩,
  -- CMP_CH_CNT0–CMP_CH_CNT511 (RO)
  ⟨0x400800, [(512, 0x4)], 0x0, 0, 0, 0, 0, 0, 0⟩,
  -- CMP_FF_VEC_LO (RO)
  ⟨0x401000, [(128, 0x20)], 0x0, 0, 0, 0, 0, 0, 0⟩,
  -- CMP_FF_VEC_HI (RO)
  ⟨0x401004, [(128, 0x20)], 0x0, 0, 0, 0, 0, 0, 0⟩,
  -- CMP_FF_GROUPS (RO)
  ⟨0x401008, [(128, 0x20)], 0x0, 0, 0, 0, 0, 0, 0⟩,
  -- CMP_FF_DETAIL (RO)
  ⟨0x40100c, [(128, 0x20)], 0x0, 0, 0, 0, 0, 0, 0⟩,
  -- CMP_FF_MASK (RO)
  ⟨0x401010, [(128, 0x20)], 0x0, 0, 0, 0, 0, 0, 0⟩,
  -- CMP_FF_RCV_LO (RO)
  ⟨0x401014, [(128, 0x20)], 0x0, 0, 0, 0, 0, 0, 0⟩,
  -- CMP_FF_RCV_HI (RO)
  ⟨0x401018, [(128, 0x20)], 0x0, 0, 0, 0, 0, 0, 0⟩]

/-- Rows of the CMP block (part 2). -/
def regRowsCmp1 : List RegRow := [
  -- CMP_RAW_CTRL (RW·S)
  ⟨0x402000, [(64, 0x20)], 0x0, 0, 0, 0x3, 0, 0, 0⟩,
  -- CMP_RAW_BASE_LO (RW·L)
  ⟨0x402004, [(64, 0x20)], 0x0, 0, 0, 0, 0xffffffff, 0, 0⟩,
  -- CMP_RAW_BASE_HI (RW·L)
  ⟨0x402008, [(64, 0x20)], 0x0, 0, 0, 0, 0xffff, 0, 0⟩,
  -- CMP_RAW_SIZE (RW·L)
  ⟨0x40200c, [(64, 0x20)], 0x1, 0, 0, 0, 0xffffffff, 0, 0⟩,
  -- CMP_RAW_START (RW·S)
  ⟨0x402010, [(64, 0x20)], 0x0, 0, 0, 0xffffffff, 0, 0, 0⟩,
  -- CMP_RAW_COUNT (RW·S)
  ⟨0x402014, [(64, 0x20)], 0x0, 0, 0, 0xffffffff, 0, 0, 0⟩,
  -- CMP_RAW_STORED (RO)
  ⟨0x402018, [(64, 0x20)], 0x0, 0, 0, 0, 0, 0, 0⟩,
  -- CMP_RAW_LOST (RO)
  ⟨0x40201c, [(64, 0x20)], 0x0, 0, 0, 0, 0, 0, 0⟩,
  -- CMP_XCTRL (RW·S)
  ⟨0x408000, [], 0x0, 0, 0, 0x1, 0, 0, 0⟩,
  -- CMP_XINJECT (WO·I)
  ⟨0x408004, [], 0x0, 0x81ff, 0, 0, 0, 0, 0x81ff⟩]

/-- Rows of the CMP block. -/
def regRowsCmp : List RegRow := regRowsCmp0 ++ regRowsCmp1

/-- Rows of the MEA block. -/
def regRowsMea : List RegRow := [
  -- MEA_STATUS (RO)
  ⟨0x410000, [], 0x0, 0, 0, 0, 0, 0, 0⟩,
  -- MEA_EVENTS (W1C)
  ⟨0x410004, [], 0x0, 0, 0, 0, 0, 0x1fff, 0⟩,
  -- MEA_ENG_CAP (RO)
  ⟨0x410008, [], 0x61a800, 0, 0, 0, 0, 0, 0⟩,
  -- MEA_ENG_RSV (RO)
  ⟨0x41000c, [], 0x0, 0, 0, 0, 0, 0, 0⟩,
  -- MEA_ENG_LOAD (RO)
  ⟨0x410010, [], 0x0, 0, 0, 0, 0, 0, 0⟩,
  -- MEA_XF_ALLOW (RO)
  ⟨0x410014, [], 0x0, 0, 0, 0, 0, 0, 0⟩,
  -- MEA_XF_USE (RO)
  ⟨0x410018, [], 0x0, 0, 0, 0, 0, 0, 0⟩,
  -- MEA_XF_COUNT (RO)
  ⟨0x41001c, [], 0x0, 0, 0, 0, 0, 0, 0⟩,
  -- MEA_SAT_COUNT (RO)
  ⟨0x410020, [], 0x0, 0, 0, 0, 0, 0, 0⟩,
  -- MEA_GAP_COUNT (RO)
  ⟨0x410024, [], 0x0, 0, 0, 0, 0, 0, 0⟩,
  -- MEA_SYNC_LINE0–MEA_SYNC_LINE63 (RW·F)
  ⟨0x410040, [(64, 0x4)], 0x0, 0, 0xbf, 0, 0, 0, 0⟩,
  -- MEA_CH_TARGET (RW·L)
  ⟨0x411000, [(512, 0x20)], 0x0, 0, 0, 0, 0xffffffff, 0, 0⟩,
  -- MEA_CH_STATE (RO)
  ⟨0x411004, [(512, 0x20)], 0x0, 0, 0, 0, 0, 0, 0⟩,
  -- MEA_CH_RHO (RO)
  ⟨0x411008, [(512, 0x20)], 0x0, 0, 0, 0, 0, 0, 0⟩,
  -- MEA_CH_RATE (RO)
  ⟨0x41100c, [(512, 0x20)], 0x0, 0, 0, 0, 0, 0, 0⟩,
  -- MEA_CH_SKEW (RO)
  ⟨0x411010, [(512, 0x20)], 0x0, 0, 0, 0, 0, 0, 0⟩,
  -- MEA_CH_LAT (RO)
  ⟨0x411014, [(512, 0x20)], 0x0, 0, 0, 0, 0, 0, 0⟩,
  -- MEA_CH_GDELAY (RO)
  ⟨0x411018, [(512, 0x20)], 0x0, 0, 0, 0, 0, 0, 0⟩,
  -- MEA_CH_SETTLE (RO)
  ⟨0x41101c, [(512, 0x20)], 0xff0000, 0, 0, 0, 0, 0, 0⟩,
  -- MEA_XCOEF_ADDR (RW·I)
  ⟨0x418000, [], 0x0, 0xbf03ff, 0, 0, 0, 0, 0⟩,
  -- MEA_XCOEF_DATA (RW·I)
  ⟨0x418004, [], 0x0, 0xffffffff, 0, 0, 0, 0, 0⟩,
  -- MEA_XCH_CHAIN (RW·L)
  ⟨0x419000, [(512, 0x20)], 0x0, 0, 0, 0, 0x1fff0f07, 0, 0⟩,
  -- MEA_XCH_RHO (RW·L)
  ⟨0x419004, [(512, 0x20)], 0x0, 0, 0, 0, 0xffffffff, 0, 0⟩,
  -- MEA_XCH_RS (RW·F)
  ⟨0x419008, [(512, 0x20)], 0x0, 0, 0x3f, 0, 0, 0, 0⟩,
  -- MEA_XCH_HB_LO (RW·F)
  ⟨0x41900c, [(512, 0x20)], 0x0, 0, 0xffffffff, 0, 0, 0, 0⟩,
  -- MEA_XCH_HB_HI (RW·F)
  ⟨0x419010, [(512, 0x20)], 0x0, 0, 0xffffffff, 0, 0, 0, 0⟩,
  -- MEA_XCH_XFADE (RW·S)
  ⟨0x419014, [(512, 0x20)], 0x0, 0, 0, 0x1fff, 0, 0, 0⟩,
  -- MEA_XCH_SYNC (RW·S)
  ⟨0x419018, [(512, 0x20)], 0x0, 0, 0, 0xff, 0, 0, 0⟩]

/-- Rows of the SRC block. -/
def regRowsSrc : List RegRow := [
  -- SRC_STATUS (RO)
  ⟨0x420000, [], 0x0, 0, 0, 0, 0, 0, 0⟩,
  -- SRC_EVENTS (W1C)
  ⟨0x420004, [], 0x0, 0, 0, 0, 0, 0x1f, 0⟩,
  -- SRC_NCO_SEL (RW·I)
  ⟨0x420010, [], 0x0, 0x701ff, 0, 0, 0, 0, 0⟩,
  -- SRC_NCO_FREQ_LO (RW·F)
  ⟨0x420014, [], 0x0, 0, 0xffffffff, 0, 0, 0, 0⟩,
  -- SRC_NCO_FREQ_HI (RW·F)
  ⟨0x420018, [], 0x0, 0, 0xffff, 0, 0, 0, 0⟩,
  -- SRC_NCO_PHASE (RW·S)
  ⟨0x42001c, [], 0x0, 0, 0, 0xffff, 0, 0, 0⟩,
  -- SRC_CH_CTRL (RW·S)
  ⟨0x421000, [(512, 0x20)], 0xff00, 0, 0, 0xfff3, 0, 0, 0⟩,
  -- SRC_CH_PL_LO (RW·S)
  ⟨0x421004, [(512, 0x20)], 0x0, 0, 0, 0xffffffff, 0, 0, 0⟩,
  -- SRC_CH_PL_HI (RW·S)
  ⟨0x421008, [(512, 0x20)], 0x0, 0, 0, 0xffff, 0, 0, 0⟩,
  -- SRC_CH_PL_COUNT (RW·S)
  ⟨0x42100c, [(512, 0x20)], 0x1, 0, 0, 0x7f, 0, 0, 0⟩,
  -- SRC_CH_STATUS (RO)
  ⟨0x421010, [(512, 0x20)], 0x0, 0, 0, 0, 0, 0, 0⟩,
  -- SRC_CH_CLIP (RO)
  ⟨0x421014, [(512, 0x20)], 0x0, 0, 0, 0, 0, 0, 0⟩,
  -- SRC_CH_GDELAY (RO)
  ⟨0x421018, [(512, 0x20)], 0x0, 0, 0, 0, 0, 0, 0⟩,
  -- SRC_CH_OVERLOAD (RO)
  ⟨0x42101c, [(512, 0x20)], 0x0, 0, 0, 0, 0, 0, 0⟩,
  -- SRC_CH_AMP (RW·F)
  ⟨0x425000, [(512, 0x8)], 0x0, 0, 0xffff, 0, 0, 0, 0⟩,
  -- SRC_CH_OFFSET (RW·F)
  ⟨0x425004, [(512, 0x8)], 0x0, 0, 0xffffff, 0, 0, 0, 0⟩,
  -- SRC_XNTF0–SRC_XNTF15 (RW·S)
  ⟨0x428000, [(16, 0x4)], 0x0, 0, 0, 0xffffffff, 0, 0, 0⟩]

/-- Rows of the TDC block (part 1). -/
def regRowsTdc0 : List RegRow := [
  -- TDC_STATUS (RO)
  ⟨0x430000, [], 0x0, 0, 0, 0, 0, 0, 0⟩,
  -- TDC_EVENTS (W1C)
  ⟨0x430004, [], 0x0, 0, 0, 0, 0, 0xff, 0⟩,
  -- TDC_LOAD (RO)
  ⟨0x430008, [], 0x0, 0, 0, 0, 0, 0, 0⟩,
  -- TDC_EVT_COUNT (RO)
  ⟨0x430010, [], 0x0, 0, 0, 0, 0, 0, 0⟩,
  -- TDC_QUEUED (RO)
  ⟨0x430014, [], 0x0, 0, 0, 0, 0, 0, 0⟩,
  -- TDC_DROPPED (RO)
  ⟨0x430018, [], 0x0, 0, 0, 0, 0, 0, 0⟩,
  -- TDC_INFLIGHT (RO)
  ⟨0x43001c, [], 0x0, 0, 0, 0, 0, 0, 0⟩,
  -- TDC_BADREC (RO)
  ⟨0x430020, [], 0x0, 0, 0, 0, 0, 0, 0⟩,
  -- TDC_GAPS (RO)
  ⟨0x430024, [], 0x0, 0, 0, 0, 0, 0, 0⟩,
  -- TDC_RES_BASE_LO (RW·L)
  ⟨0x430030, [], 0x0, 0, 0, 0, 0xffffffff, 0, 0⟩,
  -- TDC_RES_BASE_HI (RW·L)
  ⟨0x430034, [], 0x0, 0, 0, 0, 0xffff, 0, 0⟩,
  -- TDC_RES_SIZE (RW·L)
  ⟨0x430038, [], 0x1000, 0, 0, 0, 0xffffffff, 0, 0⟩,
  -- TDC_RES_WR (RO)
  ⟨0x43003c, [], 0x0, 0, 0, 0, 0, 0, 0⟩,
  -- TDC_RES_RD (RW·I)
  ⟨0x430040, [], 0x0, 0xffffffff, 0, 0, 0, 0, 0⟩,
  -- TDC_RES_LOST (RO)
  ⟨0x430044, [], 0x0, 0, 0, 0, 0, 0, 0⟩,
  -- TDC_RSEL (RW·I)
  ⟨0x430048, [], 0x0, 0x1ff, 0, 0, 0, 0, 0⟩,
  -- TDC_RVIEW0–TDC_RVIEW15 (RO)
  ⟨0x430080, [(16, 0x4)], 0x0, 0, 0, 0, 0, 0, 0⟩,
  -- TDC_CH_CTRL (RW·S)
  ⟨0x431000, [(512, 0x20)], 0x0, 0, 0, 0x1ff3c1f, 0, 0, 0⟩,
  -- TDC_CH_N (RW·S)
  ⟨0x431004, [(512, 0x20)], 0x400, 0, 0, 0xffffffff, 0, 0, 0⟩,
  -- TDC_CH_Q_LO (RW·L)
  ⟨0x431008, [(512, 0x20)], 0x0, 0, 0, 0, 0xffffffff, 0, 0⟩,
  -- TDC_CH_Q_HI (RW·L)
  ⟨0x43100c, [(512, 0x20)], 0xa000000, 0, 0, 0, 0xff00ffff, 0, 0⟩,
  -- TDC_CH_Q_WR (RO)
  ⟨0x431010, [(512, 0x20)], 0x0, 0, 0, 0, 0, 0, 0⟩,
  -- TDC_CH_Q_RD (RW·I)
  ⟨0x431014, [(512, 0x20)], 0x0, 0xffffffff, 0, 0, 0, 0, 0⟩,
  -- TDC_CH_DROPPED (RO)
  ⟨0x431018, [(512, 0x20)], 0x0, 0, 0, 0, 0, 0, 0⟩,
  -- TDC_CH_CAL (RO)
  ⟨0x43101c, [(512, 0x20)], 0xffff, 0, 0, 0, 0, 0, 0⟩,
  -- TDC_XCMD (WO·L)
  ⟨0x438000, [], 0x0, 0, 0, 0, 0xf01ff, 0, 0xf01ff⟩,
  -- TDC_XCH (RW·I)
  ⟨0x438004, [], 0x0, 0xffffffff, 0, 0, 0, 0, 0⟩,
  -- TDC_XCAL_EDGES (RW·S)
  ⟨0x438008, [], 0x16, 0, 0, 0x1f, 0, 0, 0⟩]

/-- Rows of the TDC block (part 2). -/
def regRowsTdc1 : List RegRow := [
  -- TDC_XLIMIT_DNL (RW·S)
  ⟨0x43800c, [], 0x2800040, 0, 0, 0xffffffff, 0, 0, 0⟩,
  -- TDC_XLIMIT_PREC (RW·S)
  ⟨0x438010, [], 0x3d1012c, 0, 0, 0xffffffff, 0, 0, 0⟩,
  -- TDC_XCAL_PERIOD (RW·S)
  ⟨0x438014, [], 0x15180, 0, 0, 0xffffffff, 0, 0, 0⟩,
  -- TDC_XBIN_ADDR (RW·I)
  ⟨0x438018, [], 0x0, 0x1ff00ff, 0, 0, 0, 0, 0⟩,
  -- TDC_XBIN_DATA (RW·L)
  ⟨0x43801c, [], 0x0, 0, 0, 0, 0xffffff, 0, 0⟩,
  -- TDC_XCAL_LAST (RO)
  ⟨0x438020, [], 0x0, 0, 0, 0, 0, 0, 0⟩]

/-- Rows of the TDC block. -/
def regRowsTdc : List RegRow := regRowsTdc0 ++ regRowsTdc1

/-- Rows of the TRG block. -/
def regRowsTrg : List RegRow := [
  -- TRG_STATUS (RO)
  ⟨0x440000, [], 0x0, 0, 0, 0, 0, 0, 0⟩,
  -- TRG_EVENTS (W1C)
  ⟨0x440004, [], 0x0, 0, 0, 0, 0, 0x7, 0⟩,
  -- TRG_FIRE (WO·I)
  ⟨0x440008, [], 0x0, 0x3f, 0, 0, 0, 0, 0x3f⟩,
  -- TRG_LINE_SRC01 (RW·S)
  ⟨0x441000, [(64, 0x20)], 0x0, 0, 0, 0x3ff03ff, 0, 0, 0⟩,
  -- TRG_LINE_SRC23 (RW·S)
  ⟨0x441004, [(64, 0x20)], 0x0, 0, 0, 0x3ff03ff, 0, 0, 0⟩,
  -- TRG_LINE_CFG (RW·S)
  ⟨0x441008, [(64, 0x20)], 0x0, 0, 0, 0xffff00f7, 0, 0, 0⟩,
  -- TRG_LINE_DELAY (RW·S)
  ⟨0x44100c, [(64, 0x20)], 0x0, 0, 0, 0xffff, 0, 0, 0⟩,
  -- TRG_LINE_CNT (RO)
  ⟨0x441010, [(64, 0x20)], 0x0, 0, 0, 0, 0, 0, 0⟩,
  -- TRG_LINE_SUPP (RO)
  ⟨0x441014, [(64, 0x20)], 0x0, 0, 0, 0, 0, 0, 0⟩,
  -- TRG_LINE_LAST_LO (RO)
  ⟨0x441018, [(64, 0x20)], 0x0, 0, 0, 0, 0, 0, 0⟩,
  -- TRG_LINE_LAST_HI (RO)
  ⟨0x44101c, [(64, 0x20)], 0x0, 0, 0, 0, 0, 0, 0⟩]

/-- Rows of the ACQ block. -/
def regRowsAcq : List RegRow := [
  -- ACQ_STATUS (RO)
  ⟨0x450000, [], 0x0, 0, 0, 0, 0, 0, 0⟩,
  -- ACQ_EVENTS (W1C)
  ⟨0x450004, [], 0x0, 0, 0, 0, 0, 0xf, 0⟩,
  -- ACQ_PRODUCED (RO)
  ⟨0x450010, [], 0x0, 0, 0, 0, 0, 0, 0⟩,
  -- ACQ_STORED (RO)
  ⟨0x450014, [], 0x0, 0, 0, 0, 0, 0, 0⟩,
  -- ACQ_OVERWRITTEN (RO)
  ⟨0x450018, [], 0x0, 0, 0, 0, 0, 0, 0⟩,
  -- ACQ_INFLIGHT (RO)
  ⟨0x45001c, [], 0x0, 0, 0, 0, 0, 0, 0⟩,
  -- ACQ_CTRL (RW·S)
  ⟨0x451000, [(32, 0x100)], 0x0, 0, 0, 0xbff3, 0, 0, 0⟩,
  -- ACQ_BLOCK (RW·S)
  ⟨0x451004, [(32, 0x100)], 0x400, 0, 0, 0xffffff, 0, 0, 0⟩,
  -- ACQ_PRE (RW·S)
  ⟨0x451008, [(32, 0x100)], 0x0, 0, 0, 0xffffffff, 0, 0, 0⟩,
  -- ACQ_POST (RW·S)
  ⟨0x45100c, [(32, 0x100)], 0x400, 0, 0, 0xffffffff, 0, 0, 0⟩,
  -- ACQ_STATE (RO)
  ⟨0x451010, [(32, 0x100)], 0x0, 0, 0, 0, 0, 0, 0⟩,
  -- ACQ_DET_CH (RW·S)
  ⟨0x451014, [(32, 0x100)], 0x0, 0, 0, 0x381ff, 0, 0, 0⟩,
  -- ACQ_DET_LEVEL (RW·F)
  ⟨0x451018, [(32, 0x100)], 0x0, 0, 0xffffff, 0, 0, 0, 0⟩,
  -- ACQ_DET_HYST (RW·F)
  ⟨0x45101c, [(32, 0x100)], 0x0, 0, 0x7fffff, 0, 0, 0, 0⟩,
  -- ACQ_DET_LAT (RO)
  ⟨0x451020, [(32, 0x100)], 0x0, 0, 0, 0, 0, 0, 0⟩,
  -- ACQ_R_BASE_LO (RW·L)
  ⟨0x451040, [(32, 0x100), (4, 0x20)], 0x0, 0, 0, 0, 0xffffffff, 0, 0⟩,
  -- ACQ_R_BASE_HI (RW·L)
  ⟨0x451044, [(32, 0x100), (4, 0x20)], 0x0, 0, 0, 0, 0xffff, 0, 0⟩,
  -- ACQ_R_SIZE (RW·L)
  ⟨0x451048, [(32, 0x100), (4, 0x20)], 0x1000, 0, 0, 0, 0xffffffff, 0, 0⟩,
  -- ACQ_R_WR (RO)
  ⟨0x45104c, [(32, 0x100), (4, 0x20)], 0x0, 0, 0, 0, 0, 0, 0⟩,
  -- ACQ_R_RD (RW·I)
  ⟨0x451050, [(32, 0x100), (4, 0x20)], 0x0, 0xffffffff, 0, 0, 0, 0, 0⟩,
  -- ACQ_R_TRIG (RO)
  ⟨0x451054, [(32, 0x100), (4, 0x20)], 0xffffffff, 0, 0, 0, 0, 0, 0⟩,
  -- ACQ_R_OVERWR (RO)
  ⟨0x451058, [(32, 0x100), (4, 0x20)], 0x0, 0, 0, 0, 0, 0, 0⟩,
  -- ACQ_XTCOMP0–ACQ_XTCOMP31 (RW·S)
  ⟨0x458000, [(32, 0x4)], 0xffffffff, 0, 0, 0xffffffff, 0, 0, 0⟩]

/-- Rows of the QDR block. -/
def regRowsQdr : List RegRow := [
  -- QDR_STATUS (RO)
  ⟨0x460000, [], 0x0, 0, 0, 0, 0, 0, 0⟩,
  -- QDR_EVENTS (W1C)
  ⟨0x460004, [], 0x0, 0, 0, 0, 0, 0xff, 0⟩,
  -- QDR_STRAP (RO)
  ⟨0x460008, [], 0x0, 0, 0, 0, 0, 0, 0⟩,
  -- QDR_PRESENT (RO)
  ⟨0x46000c, [], 0x0, 0, 0, 0, 0, 0, 0⟩,
  -- QDR_PEER_FAULT (RO)
  ⟨0x460010, [], 0x0, 0, 0, 0, 0, 0, 0⟩,
  -- QDR_GEN (RO)
  ⟨0x460014, [], 0x0, 0, 0, 0, 0, 0, 0⟩,
  -- QDR_CNT_STEP (RO)
  ⟨0x460018, [], 0x0, 0, 0, 0, 0, 0, 0⟩,
  -- QDR_QT_SENT (RO)
  ⟨0x46001c, [], 0x0, 0, 0, 0, 0, 0, 0⟩,
  -- QDR_QT_MERGED (RO)
  ⟨0x460020, [], 0x0, 0, 0, 0, 0, 0, 0⟩,
  -- QDR_CRC_ERR (RO)
  ⟨0x460024, [], 0x0, 0, 0, 0, 0, 0, 0⟩,
  -- QDR_OWNER_TAG (RO)
  ⟨0x460028, [], 0x0, 0, 0, 0, 0, 0, 0⟩,
  -- QDR_CMD (WO·L)
  ⟨0x46002c, [], 0x0, 0, 0, 0, 0x1, 0, 0x1⟩,
  -- QDR_DELAY0–QDR_DELAY31 (RO)
  ⟨0x460080, [(32, 0x4)], 0xffff, 0, 0, 0, 0, 0, 0⟩]

/-- Rows of the MEM block. -/
def regRowsMem : List RegRow := [
  -- MEM_STATUS (RO)
  ⟨0x500000, [], 0x0, 0, 0, 0, 0, 0, 0⟩,
  -- MEM_EVENTS (W1C)
  ⟨0x500004, [], 0x0, 0, 0, 0, 0, 0xff, 0⟩,
  -- MEM_CAP0 (RO)
  ⟨0x500008, [], 0xbb800, 0, 0, 0, 0, 0, 0⟩,
  -- MEM_CAP1 (RO)
  ⟨0x50000c, [], 0xbb800, 0, 0, 0, 0, 0, 0⟩,
  -- MEM_PC_FENCED0 (RO)
  ⟨0x500010, [], 0x0, 0, 0, 0, 0, 0, 0⟩,
  -- MEM_PC_FENCED1 (RO)
  ⟨0x500014, [], 0x0, 0, 0, 0, 0, 0, 0⟩,
  -- MEM_SPARE_MAP (RO)
  ⟨0x500018, [], 0x0, 0, 0, 0, 0, 0, 0⟩,
  -- MEM_CORR_COUNT (RO)
  ⟨0x500020, [], 0x0, 0, 0, 0, 0, 0, 0⟩,
  -- MEM_UNCORR_COUNT (RO)
  ⟨0x500024, [], 0x0, 0, 0, 0, 0, 0, 0⟩,
  -- MEM_POISON_COUNT (RO)
  ⟨0x500028, [], 0x0, 0, 0, 0, 0, 0, 0⟩,
  -- MEM_LAST_ERR_LO (RO)
  ⟨0x50002c, [], 0x0, 0, 0, 0, 0, 0, 0⟩,
  -- MEM_LAST_ERR_HI (RO)
  ⟨0x500030, [], 0x0, 0, 0, 0, 0, 0, 0⟩,
  -- MEM_OBJ_BASE_LO (RW·L)
  ⟨0x500034, [], 0x0, 0, 0, 0, 0xffffffff, 0, 0⟩,
  -- MEM_OBJ_BASE_HI (RW·L)
  ⟨0x500038, [], 0x4, 0, 0, 0, 0xffff, 0, 0⟩,
  -- MEM_OBJ_SIZE (RO)
  ⟨0x50003c, [], 0x4980, 0, 0, 0, 0, 0, 0⟩,
  -- MEM_OBJ_USED (RO)
  ⟨0x500040, [], 0x0, 0, 0, 0, 0, 0, 0⟩,
  -- MEM_XFENCE_THRESH (RW·S)
  ⟨0x508000, [], 0x10, 0, 0, 0xffffffff, 0, 0, 0⟩,
  -- MEM_XINJECT (WO·I)
  ⟨0x508004, [], 0x0, 0xffffffff, 0, 0, 0, 0, 0xffffffff⟩]

/-- Rows of the LIB block (part 1). -/
def regRowsLib0 : List RegRow := [
  -- LIB_STATUS (RO)
  ⟨0x510000, [], 0x0, 0, 0, 0, 0, 0, 0⟩,
  -- LIB_EVENTS (W1C)
  ⟨0x510004, [], 0x0, 0, 0, 0, 0, 0x3f, 0⟩,
  -- LIB_CMD (WO·I)
  ⟨0x510008, [], 0x0, 0xff, 0, 0, 0, 0, 0xff⟩,
  -- LIB_CMD_RESULT (RO)
  ⟨0x51000c, [], 0x0, 0, 0, 0, 0, 0, 0⟩,
  -- LIB_ARG_ID (RW·I)
  ⟨0x510010, [], 0x0, 0xffffffff, 0, 0, 0, 0, 0⟩,
  -- LIB_ARG_TYPE (RW·I)
  ⟨0x510014, [], 0x0, 0xff, 0, 0, 0, 0, 0⟩,
  -- LIB_ARG_LEN_LO (RW·I)
  ⟨0x510018, [], 0x0, 0xffffffff, 0, 0, 0, 0, 0⟩,
  -- LIB_ARG_LEN_HI (RW·I)
  ⟨0x51001c, [], 0x0, 0x1ff, 0, 0, 0, 0, 0⟩,
  -- LIB_ARG_OFF_LO (RW·I)
  ⟨0x510020, [], 0x0, 0xffffffff, 0, 0, 0, 0, 0⟩,
  -- LIB_ARG_OFF_HI (RW·I)
  ⟨0x510024, [], 0x0, 0x1ff, 0, 0, 0, 0, 0⟩,
  -- LIB_ARG_ADDR_LO (RW·I)
  ⟨0x510028, [], 0x0, 0xffffffff, 0, 0, 0, 0, 0⟩,
  -- LIB_ARG_ADDR_HI (RW·I)
  ⟨0x51002c, [], 0x0, 0xffff, 0, 0, 0, 0, 0⟩,
  -- LIB_ARG_BYTES (RW·I)
  ⟨0x510030, [], 0x0, 0xffffffff, 0, 0, 0, 0, 0⟩,
  -- LIB_INFO0–LIB_INFO7 (RO)
  ⟨0x510040, [(8, 0x4)], 0x0, 0, 0, 0, 0, 0, 0⟩,
  -- LIB_USED_MB (RO)
  ⟨0x510060, [], 0x0, 0, 0, 0, 0, 0, 0⟩,
  -- LIB_FREE_MB (RO)
  ⟨0x510064, [], 0x200000, 0, 0, 0, 0, 0, 0⟩,
  -- LIB_POOL_INIT (RO)
  ⟨0x510068, [], 0x0, 0, 0, 0, 0, 0, 0⟩,
  -- LIB_POOL_LEFT (RO)
  ⟨0x51006c, [], 0x0, 0, 0, 0, 0, 0, 0⟩,
  -- LIB_RESCUE_LEFT (RO)
  ⟨0x510070, [], 0x1000, 0, 0, 0, 0, 0, 0⟩,
  -- LIB_DIES_FAILED (RO)
  ⟨0x510074, [], 0x0, 0, 0, 0, 0, 0, 0⟩,
  -- LIB_OBJECTS (RO)
  ⟨0x510078, [], 0x0, 0, 0, 0, 0, 0, 0⟩,
  -- LIB_WEAR_7D (RO)
  ⟨0x510080, [], 0x0, 0, 0, 0, 0, 0, 0⟩,
  -- LIB_WEAR_BUDGET (RO)
  ⟨0x510084, [], 0xaae600, 0, 0, 0, 0, 0, 0⟩,
  -- LIB_STG_PENDING (RO)
  ⟨0x510090, [], 0x0, 0, 0, 0, 0, 0, 0⟩,
  -- LIB_STG_FAIL_ID (RO)
  ⟨0x510094, [], 0x0, 0, 0, 0, 0, 0, 0⟩,
  -- LIB_STG_FAIL_REASON (RO)
  ⟨0x510098, [], 0x0, 0, 0, 0, 0, 0, 0⟩,
  -- LIB_ACCEPTED (RO)
  ⟨0x5100a0, [], 0x0, 0, 0, 0, 0, 0, 0⟩,
  -- LIB_COMMITTED (RO)
  ⟨0x5100a4, [], 0x0, 0, 0, 0, 0, 0, 0⟩]

/-- Rows of the LIB block (part 2). -/
def regRowsLib1 : List RegRow := [
  -- LIB_ABANDONED (RO)
  ⟨0x5100a8, [], 0x0, 0, 0, 0, 0, 0, 0⟩,
  -- LIB_INFLIGHT (RO)
  ⟨0x5100ac, [], 0x0, 0, 0, 0, 0, 0, 0⟩,
  -- LIB_XPATROL_PERIOD (RW·S)
  ⟨0x518000, [], 0x93a80, 0, 0, 0xffffffff, 0, 0, 0⟩,
  -- LIB_XREFRESH_THRESH (RW·S)
  ⟨0x518004, [], 0x28, 0, 0, 0xffffffff, 0, 0, 0⟩]

/-- Rows of the LIB block. -/
def regRowsLib : List RegRow := regRowsLib0 ++ regRowsLib1

/-- Rows of the SCH block (part 1). -/
def regRowsSch0 : List RegRow := [
  -- SCH_STATUS (RO)
  ⟨0x520000, [], 0x40000, 0, 0, 0, 0, 0, 0⟩,
  -- SCH_EVENTS (W1C)
  ⟨0x520004, [], 0x0, 0, 0, 0, 0, 0x7f, 0⟩,
  -- SCH_CORES_FENCED_LO (RO)
  ⟨0x520008, [], 0x0, 0, 0, 0, 0, 0, 0⟩,
  -- SCH_CORES_FENCED_HI (RO)
  ⟨0x52000c, [], 0x0, 0, 0, 0, 0, 0, 0⟩,
  -- SCH_SUBMITTED (RO)
  ⟨0x520010, [], 0x0, 0, 0, 0, 0, 0, 0⟩,
  -- SCH_RELEASED (RO)
  ⟨0x520014, [], 0x0, 0, 0, 0, 0, 0, 0⟩,
  -- SCH_CANCELLED (RO)
  ⟨0x520018, [], 0x0, 0, 0, 0, 0, 0, 0⟩,
  -- SCH_OUTSTANDING (RO)
  ⟨0x52001c, [], 0x0, 0, 0, 0, 0, 0, 0⟩,
  -- SCH_REFUSED (RO)
  ⟨0x520020, [], 0x0, 0, 0, 0, 0, 0, 0⟩,
  -- SCH_PREEMPTS (RO)
  ⟨0x520024, [], 0x0, 0, 0, 0, 0, 0, 0⟩,
  -- SCH_PREEMPT_LATE (RO)
  ⟨0x520028, [], 0x0, 0, 0, 0, 0, 0, 0⟩,
  -- SCH_FLAG_MERGED (RO)
  ⟨0x52002c, [], 0x0, 0, 0, 0, 0, 0, 0⟩,
  -- SCH_FLAG_PEND_LO (RO)
  ⟨0x520030, [], 0x0, 0, 0, 0, 0, 0, 0⟩,
  -- SCH_FLAG_PEND_HI (RO)
  ⟨0x520034, [], 0x0, 0, 0, 0, 0, 0, 0⟩,
  -- SCH_SUB0–SCH_SUB15 (RW·I)
  ⟨0x520040, [(16, 0x4)], 0x0, 0xffffffff, 0, 0, 0, 0, 0⟩,
  -- SCH_SUB_GO (WO·I)
  ⟨0x520080, [], 0x0, 0xffffffff, 0, 0, 0, 0, 0xffffffff⟩,
  -- SCH_CMD (WO·I)
  ⟨0x520084, [], 0x0, 0x3fff, 0, 0, 0, 0, 0x3fff⟩,
  -- SCH_FSEL (RW·I)
  ⟨0x520088, [], 0x0, 0x3ff, 0, 0, 0, 0, 0⟩,
  -- SCH_FBASE_LO (RO)
  ⟨0x52008c, [], 0x0, 0, 0, 0, 0, 0, 0⟩,
  -- SCH_FBASE_HI (RO)
  ⟨0x520090, [], 0x0, 0, 0, 0, 0, 0, 0⟩,
  -- SCH_DFLAG0–SCH_DFLAG63 (RO)
  ⟨0x520100, [(64, 0x4)], 0x0, 0, 0, 0, 0, 0, 0⟩,
  -- SCH_LIST_CFG (RO)
  ⟨0x521000, [(64, 0x10)], 0x0, 0, 0, 0, 0, 0, 0⟩,
  -- SCH_LIST_CORES_LO (RO)
  ⟨0x521004, [(64, 0x10)], 0x0, 0, 0, 0, 0, 0, 0⟩,
  -- SCH_LIST_CORES_HI (RO)
  ⟨0x521008, [(64, 0x10)], 0x0, 0, 0, 0, 0, 0, 0⟩,
  -- SCH_LIST_REFUSED (RO)
  ⟨0x52100c, [(64, 0x10)], 0x0, 0, 0, 0, 0, 0, 0⟩,
  -- SCH_FLOW_CFG (RO)
  ⟨0x524000, [(1024, 0x10)], 0x0, 0, 0, 0, 0, 0, 0⟩,
  -- SCH_FLOW_WR (RO)
  ⟨0x524004, [(1024, 0x10)], 0x0, 0, 0, 0, 0, 0, 0⟩,
  -- SCH_FLOW_RD (RW·I)
  ⟨0x524008, [(1024, 0x10)], 0x0, 0xffffffff, 0, 0, 0, 0, 0⟩]

/-- Rows of the SCH block (part 2). -/
def regRowsSch1 : List RegRow := [
  -- SCH_FLOW_HELD (RO)
  ⟨0x52400c, [(1024, 0x10)], 0x0, 0, 0, 0, 0, 0, 0⟩,
  -- SCH_XSEL (RW·I)
  ⟨0x528000, [], 0x0, 0x3f, 0, 0, 0, 0, 0⟩,
  -- SCH_XLIST_CFG (RW·L)
  ⟨0x528004, [], 0x0, 0, 0, 0, 0xffffffff, 0, 0⟩,
  -- SCH_XLIST_CORES_LO (RW·L)
  ⟨0x528008, [], 0x0, 0, 0, 0, 0xffffffff, 0, 0⟩,
  -- SCH_XLIST_CORES_HI (RW·L)
  ⟨0x52800c, [], 0x0, 0, 0, 0, 0xffffffff, 0, 0⟩,
  -- SCH_XPREEMPT_MAX (RW·S)
  ⟨0x528010, [], 0x0, 0, 0, 0xffffffff, 0, 0, 0⟩]

/-- Rows of the SCH block. -/
def regRowsSch : List RegRow := regRowsSch0 ++ regRowsSch1

/-- Rows of the DMA block. -/
def regRowsDma : List RegRow := [
  -- DMA_STATUS (RO)
  ⟨0x530000, [], 0x1, 0, 0, 0, 0, 0, 0⟩,
  -- DMA_EVENTS (W1C)
  ⟨0x530004, [], 0x0, 0, 0, 0, 0, 0x7f, 0⟩,
  -- DMA_CQ_BASE_LO (RW·L)
  ⟨0x530010, [], 0x0, 0, 0, 0, 0xffffffff, 0, 0⟩,
  -- DMA_CQ_BASE_HI (RW·L)
  ⟨0x530014, [], 0x0, 0, 0, 0, 0xffff, 0, 0⟩,
  -- DMA_CQ_SIZE (RW·L)
  ⟨0x530018, [], 0x400, 0, 0, 0, 0xffffffff, 0, 0⟩,
  -- DMA_CQ_WR (RO)
  ⟨0x53001c, [], 0x0, 0, 0, 0, 0, 0, 0⟩,
  -- DMA_CQ_RD (RW·I)
  ⟨0x530020, [], 0x0, 0xffffffff, 0, 0, 0, 0, 0⟩,
  -- DMA_TOK_ISSUED (RO)
  ⟨0x530030, [], 0x0, 0, 0, 0, 0, 0, 0⟩,
  -- DMA_TOK_RETURNED (RO)
  ⟨0x530034, [], 0x0, 0, 0, 0, 0, 0, 0⟩,
  -- DMA_TOK_ACTIVE (RO)
  ⟨0x530038, [], 0x0, 0, 0, 0, 0, 0, 0⟩,
  -- DMA_CH_CTRL (RW·L)
  ⟨0x531000, [(32, 0x40)], 0x0, 0, 0, 0, 0x3303, 0, 0⟩,
  -- DMA_CH_CMD (WO·I)
  ⟨0x531004, [(32, 0x40)], 0x0, 0xff, 0, 0, 0, 0, 0xff⟩,
  -- DMA_CH_STATUS (RO)
  ⟨0x531008, [(32, 0x40)], 0x0, 0, 0, 0, 0, 0, 0⟩,
  -- DMA_CH_SRC_LO (RW·L)
  ⟨0x53100c, [(32, 0x40)], 0x0, 0, 0, 0, 0xffffffff, 0, 0⟩,
  -- DMA_CH_SRC_HI (RW·L)
  ⟨0x531010, [(32, 0x40)], 0x0, 0, 0, 0, 0xffff, 0, 0⟩,
  -- DMA_CH_DST_LO (RW·L)
  ⟨0x531014, [(32, 0x40)], 0x0, 0, 0, 0, 0xffffffff, 0, 0⟩,
  -- DMA_CH_DST_HI (RW·L)
  ⟨0x531018, [(32, 0x40)], 0x0, 0, 0, 0, 0xffff, 0, 0⟩,
  -- DMA_CH_LEN (RW·L)
  ⟨0x53101c, [(32, 0x40)], 0x0, 0, 0, 0, 0xffffffff, 0, 0⟩,
  -- DMA_CH_MOVED_LO (RO)
  ⟨0x531020, [(32, 0x40)], 0x0, 0, 0, 0, 0, 0, 0⟩,
  -- DMA_CH_MOVED_HI (RO)
  ⟨0x531024, [(32, 0x40)], 0x0, 0, 0, 0, 0, 0, 0⟩,
  -- DMA_CH_RUNS (RO)
  ⟨0x531028, [(32, 0x40)], 0x0, 0, 0, 0, 0, 0, 0⟩,
  -- DMA_CH_VREASON (RO)
  ⟨0x53102c, [(32, 0x40)], 0x0, 0, 0, 0, 0, 0, 0⟩,
  -- DMA_XARB (RW·I)
  ⟨0x538000, [], 0x0, 0x1, 0, 0, 0, 0, 0⟩,
  -- DMA_XCH_PROG_LO (RW·L)
  ⟨0x539000, [(32, 0x10)], 0x0, 0, 0, 0, 0xffffffff, 0, 0⟩,
  -- DMA_XCH_PROG_HI (RW·L)
  ⟨0x539004, [(32, 0x10)], 0x0, 0, 0, 0, 0xffff, 0, 0⟩,
  -- DMA_XCH_PCOUNT (RW·L)
  ⟨0x539008, [(32, 0x10)], 0x1, 0, 0, 0, 0x1ff, 0, 0⟩,
  -- DMA_XCH_MODE (RW·L)
  ⟨0x53900c, [(32, 0x10)], 0x0, 0, 0, 0, 0x1, 0, 0⟩]

/-- Rows of the NET block (part 1). -/
def regRowsNet0 : List RegRow := [
  -- NET_PORT_STATUS0 (RO)
  ⟨0x600000, [], 0x0, 0, 0, 0, 0, 0, 0⟩,
  -- NET_PORT_STATUS1 (RO)
  ⟨0x600004, [], 0x0, 0, 0, 0, 0, 0, 0⟩,
  -- NET_PORT_CFG0 (RW·I)
  ⟨0x600008, [], 0x3000000, 0x3017fff, 0, 0, 0, 0, 0⟩,
  -- NET_PORT_CFG1 (RW·I)
  ⟨0x60000c, [], 0x3000000, 0x3017fff, 0, 0, 0, 0, 0⟩,
  -- NET_FEC_CORR0 (RO)
  ⟨0x600010, [], 0x0, 0, 0, 0, 0, 0, 0⟩,
  -- NET_FEC_CORR1 (RO)
  ⟨0x600014, [], 0x0, 0, 0, 0, 0, 0, 0⟩,
  -- NET_FEC_UNCORR0 (RO)
  ⟨0x600018, [], 0x0, 0, 0, 0, 0, 0, 0⟩,
  -- NET_FEC_UNCORR1 (RO)
  ⟨0x60001c, [], 0x0, 0, 0, 0, 0, 0, 0⟩,
  -- NET_DROPPED (RO)
  ⟨0x600020, [], 0x0, 0, 0, 0, 0, 0, 0⟩,
  -- NET_BADAUTH (RO)
  ⟨0x600024, [], 0x0, 0, 0, 0, 0, 0, 0⟩,
  -- NET_RETX (RO)
  ⟨0x600028, [], 0x0, 0, 0, 0, 0, 0, 0⟩,
  -- NET_CRED_GRANTED (RO)
  ⟨0x600030, [], 0x0, 0, 0, 0, 0, 0, 0⟩,
  -- NET_CRED_USED (RO)
  ⟨0x600034, [], 0x0, 0, 0, 0, 0, 0, 0⟩,
  -- NET_CRED_WITHDRAWN (RO)
  ⟨0x600038, [], 0x0, 0, 0, 0, 0, 0, 0⟩,
  -- NET_CRED_OUTSTANDING (RO)
  ⟨0x60003c, [], 0x0, 0, 0, 0, 0, 0, 0⟩,
  -- NET_CRED_XFER (RO)
  ⟨0x600040, [], 0x0, 0, 0, 0, 0, 0, 0⟩,
  -- NET_LEASE_MS (RW·I)
  ⟨0x600050, [], 0x3e8, 0xffffffff, 0, 0, 0, 0, 0⟩,
  -- NET_ELECT_MS (RW·I)
  ⟨0x600054, [], 0x32, 0xffffffff, 0, 0, 0, 0, 0⟩,
  -- NET_SESS_IDLE (RW·I)
  ⟨0x600058, [], 0x2710, 0xffffffff, 0, 0, 0, 0, 0⟩,
  -- NET_MAC0_LO (RO)
  ⟨0x600060, [], 0x0, 0, 0, 0, 0, 0, 0⟩,
  -- NET_MAC0_HI (RO)
  ⟨0x600064, [], 0x0, 0, 0, 0, 0, 0, 0⟩,
  -- NET_MAC1_LO (RO)
  ⟨0x600068, [], 0x0, 0, 0, 0, 0, 0, 0⟩,
  -- NET_MAC1_HI (RO)
  ⟨0x60006c, [], 0x0, 0, 0, 0, 0, 0, 0⟩,
  -- NET_IP4_0 (RW·I)
  ⟨0x600070, [], 0x0, 0xffffffff, 0, 0, 0, 0, 0⟩,
  -- NET_IP4_1 (RW·I)
  ⟨0x600074, [], 0x0, 0xffffffff, 0, 0, 0, 0, 0⟩,
  -- NET_IP6_0_0–NET_IP6_0_3 (RW·I)
  ⟨0x600080, [(4, 0x4)], 0x0, 0xffffffff, 0, 0, 0, 0, 0⟩,
  -- NET_IP6_1_0–NET_IP6_1_3 (RW·I)
  ⟨0x600090, [(4, 0x4)], 0x0, 0xffffffff, 0, 0, 0, 0, 0⟩,
  -- NET_SESS_STATE (RO)
  ⟨0x600100, [(8, 0x10)], 0x0, 0, 0, 0, 0, 0, 0⟩]

/-- Rows of the NET block (part 2). -/
def regRowsNet1 : List RegRow := [
  -- NET_SESS_ID (RO)
  ⟨0x600104, [(8, 0x10)], 0x0, 0, 0, 0, 0, 0, 0⟩,
  -- NET_SESS_RX (RO)
  ⟨0x600108, [(8, 0x10)], 0x0, 0, 0, 0, 0, 0, 0⟩,
  -- NET_SESS_TX (RO)
  ⟨0x60010c, [(8, 0x10)], 0x0, 0, 0, 0, 0, 0, 0⟩,
  -- NET_HOST_SEL (RW·I)
  ⟨0x600200, [], 0x0, 0xf, 0, 0, 0, 0, 0⟩,
  -- NET_HOST_HASH0–NET_HOST_HASH7 (RW·I)
  ⟨0x600204, [(8, 0x4)], 0x0, 0xffffffff, 0, 0, 0, 0, 0⟩,
  -- NET_HOST_PRIO (RW·I)
  ⟨0x600224, [], 0x0, 0x800000ff, 0, 0, 0, 0, 0⟩,
  -- NET_HOST_CMD (WO·I)
  ⟨0x600228, [], 0x0, 0xff, 0, 0, 0, 0, 0xff⟩]

/-- Rows of the NET block. -/
def regRowsNet : List RegRow := regRowsNet0 ++ regRowsNet1

/-- Rows of the PTP block (part 1). -/
def regRowsPtp0 : List RegRow := [
  -- PTP_STATUS (RO)
  ⟨0x610000, [], 0x0, 0, 0, 0, 0, 0, 0⟩,
  -- PTP_EVENTS (W1C)
  ⟨0x610004, [], 0x0, 0, 0, 0, 0, 0x3f, 0⟩,
  -- PTP_CTRL (RW·I)
  ⟨0x610008, [], 0x0, 0xffff03, 0, 0, 0, 0, 0⟩,
  -- PTP_STEP_MAX (RW·I)
  ⟨0x61000c, [], 0x3e8, 0xffffffff, 0, 0, 0, 0, 0⟩,
  -- PTP_LATE_NS (RW·I)
  ⟨0x610010, [], 0x64, 0xffffffff, 0, 0, 0, 0, 0⟩,
  -- PTP_TOD_SEC_LO (RO)
  ⟨0x610020, [], 0x0, 0, 0, 0, 0, 0, 0⟩,
  -- PTP_TOD_SEC_HI (RO)
  ⟨0x610024, [], 0x0, 0, 0, 0, 0, 0, 0⟩,
  -- PTP_TOD_NS (RO)
  ⟨0x610028, [], 0x0, 0, 0, 0, 0, 0, 0⟩,
  -- PTP_SOFFSET (RO)
  ⟨0x61002c, [], 0x0, 0, 0, 0, 0, 0, 0⟩,
  -- PTP_SNAP_CMD (WO·I)
  ⟨0x610030, [], 0x0, 0xffffffff, 0, 0, 0, 0, 0xffffffff⟩,
  -- PTP_SNAP_BEAT_LO (RO)
  ⟨0x610034, [], 0x0, 0, 0, 0, 0, 0, 0⟩,
  -- PTP_SNAP_BEAT_HI (RO)
  ⟨0x610038, [], 0x0, 0, 0, 0, 0, 0, 0⟩,
  -- PTP_SNAP_TOD_SEC (RO)
  ⟨0x61003c, [], 0x0, 0, 0, 0, 0, 0, 0⟩,
  -- PTP_SNAP_TOD_NS (RO)
  ⟨0x610040, [], 0x0, 0, 0, 0, 0, 0, 0⟩,
  -- PTP_SNAP_A_NS (RO)
  ⟨0x610044, [], 0x0, 0, 0, 0, 0, 0, 0⟩,
  -- PTP_SNAP_B_NS (RO)
  ⟨0x610048, [], 0x0, 0, 0, 0, 0, 0, 0⟩,
  -- PTP_TX_LAT0 (RO)
  ⟨0x610050, [], 0x0, 0, 0, 0, 0, 0, 0⟩,
  -- PTP_RX_LAT0 (RO)
  ⟨0x610054, [], 0x0, 0, 0, 0, 0, 0, 0⟩,
  -- PTP_TX_LAT1 (RO)
  ⟨0x610058, [], 0x0, 0, 0, 0, 0, 0, 0⟩,
  -- PTP_RX_LAT1 (RO)
  ⟨0x61005c, [], 0x0, 0, 0, 0, 0, 0, 0⟩,
  -- PTP_RX_BASE_LO (RW·L)
  ⟨0x610060, [], 0x0, 0, 0, 0, 0xffffffff, 0, 0⟩,
  -- PTP_RX_BASE_HI (RW·L)
  ⟨0x610064, [], 0x0, 0, 0, 0, 0xffff, 0, 0⟩,
  -- PTP_RX_SIZE (RW·L)
  ⟨0x610068, [], 0x400, 0, 0, 0, 0xffffffff, 0, 0⟩,
  -- PTP_RX_WR (RO)
  ⟨0x61006c, [], 0x0, 0, 0, 0, 0, 0, 0⟩,
  -- PTP_RX_RD (RW·I)
  ⟨0x610070, [], 0x0, 0xffffffff, 0, 0, 0, 0, 0⟩,
  -- PTP_RX_DROPPED (RO)
  ⟨0x610074, [], 0x0, 0, 0, 0, 0, 0, 0⟩,
  -- PTP_D_SEC_LO (RO)
  ⟨0x610100, [(2, 0x40)], 0x0, 0, 0, 0, 0, 0, 0⟩,
  -- PTP_D_SEC_HI (RO)
  ⟨0x610104, [(2, 0x40)], 0x0, 0, 0, 0, 0, 0, 0⟩]

/-- Rows of the PTP block (part 2). -/
def regRowsPtp1 : List RegRow := [
  -- PTP_D_NS (RO)
  ⟨0x610108, [(2, 0x40)], 0x0, 0, 0, 0, 0, 0, 0⟩,
  -- PTP_D_INC_LO (RW·I)
  ⟨0x61010c, [(2, 0x40)], 0x0, 0xffffffff, 0, 0, 0, 0, 0⟩,
  -- PTP_D_INC_HI (RW·I)
  ⟨0x610110, [(2, 0x40)], 0xa, 0xff, 0, 0, 0, 0, 0⟩,
  -- PTP_D_ARG0 (RW·I)
  ⟨0x610114, [(2, 0x40)], 0x0, 0xffffffff, 0, 0, 0, 0, 0⟩,
  -- PTP_D_ARG1 (RW·I)
  ⟨0x610118, [(2, 0x40)], 0x0, 0xffffffff, 0, 0, 0, 0, 0⟩,
  -- PTP_D_ARG2 (RW·I)
  ⟨0x61011c, [(2, 0x40)], 0x0, 0xffffffff, 0, 0, 0, 0, 0⟩,
  -- PTP_D_CMD (WO·I)
  ⟨0x610120, [(2, 0x40)], 0x0, 0xff, 0, 0, 0, 0, 0xff⟩,
  -- PTP_LQ_BASE_LO (RW·L)
  ⟨0x610200, [(2, 0x20)], 0x0, 0, 0, 0, 0xffffffff, 0, 0⟩,
  -- PTP_LQ_BASE_HI (RW·L)
  ⟨0x610204, [(2, 0x20)], 0x0, 0, 0, 0, 0xffff, 0, 0⟩,
  -- PTP_LQ_SIZE (RW·L)
  ⟨0x610208, [(2, 0x20)], 0x100, 0, 0, 0, 0xffffffff, 0, 0⟩,
  -- PTP_LQ_WR (RW·I)
  ⟨0x61020c, [(2, 0x20)], 0x0, 0xffffffff, 0, 0, 0, 0, 0⟩,
  -- PTP_LQ_RD (RO)
  ⟨0x610210, [(2, 0x20)], 0x0, 0, 0, 0, 0, 0, 0⟩,
  -- PTP_LQ_LATE (RO)
  ⟨0x610214, [(2, 0x20)], 0x0, 0, 0, 0, 0, 0, 0⟩]

/-- Rows of the PTP block. -/
def regRowsPtp : List RegRow := regRowsPtp0 ++ regRowsPtp1

/-- Rows of the FLT block. -/
def regRowsFlt : List RegRow := [
  -- FLT_STATUS (RO)
  ⟨0x620000, [], 0x700, 0, 0, 0, 0, 0, 0⟩,
  -- FLT_ALERT (W1C)
  ⟨0x620004, [], 0x0, 0, 0, 0, 0, 0x3, 0⟩,
  -- FLT_GUARANTEE (RO)
  ⟨0x620008, [], 0x0, 0, 0, 0, 0, 0, 0⟩,
  -- FLT_SEQ (RO)
  ⟨0x62000c, [], 0x0, 0, 0, 0, 0, 0, 0⟩,
  -- FLT_Q_OVERFLOW (RO)
  ⟨0x620010, [], 0x0, 0, 0, 0, 0, 0, 0⟩,
  -- FLT_WIRE (RO)
  ⟨0x620014, [], 0x0, 0, 0, 0, 0, 0, 0⟩,
  -- FLT_COVERED (RO)
  ⟨0x620018, [], 0x0, 0, 0, 0, 0, 0, 0⟩,
  -- FLT_COUNT_C0–FLT_COUNT_C4 (RO)
  ⟨0x620020, [(5, 0x4)], 0x0, 0, 0, 0, 0, 0, 0⟩,
  -- FLT_LAST0–FLT_LAST15 (RO)
  ⟨0x620040, [(16, 0x4)], 0x0, 0, 0, 0, 0, 0, 0⟩,
  -- FLT_GRAVE0–FLT_GRAVE15 (RO)
  ⟨0x620080, [(16, 0x4)], 0x0, 0, 0, 0, 0, 0, 0⟩,
  -- FLT_HSEL (RW·I)
  ⟨0x6200c0, [], 0x0, 0xff, 0, 0, 0, 0, 0⟩,
  -- FLT_HIST0–FLT_HIST15 (RO)
  ⟨0x620100, [(16, 0x4)], 0x0, 0, 0, 0, 0, 0, 0⟩,
  -- FLT_XINJECT (WO·I)
  ⟨0x628000, [], 0x0, 0x7ffffff, 0, 0, 0, 0, 0x7ffffff⟩]

/-- Rows of the LGR block. -/
def regRowsLgr : List RegRow := [
  -- LGR_SUMMARY (RO)
  ⟨0x630000, [], 0xffff, 0, 0, 0, 0, 0, 0⟩,
  -- LGR_DRAINED (RO)
  ⟨0x630004, [], 0xffff, 0, 0, 0, 0, 0, 0⟩,
  -- LGR_LINK_BAL (RO)
  ⟨0x630008, [], 0xffff, 0, 0, 0, 0, 0, 0⟩,
  -- LGR_EVENTS (W1C)
  ⟨0x63000c, [], 0x0, 0, 0, 0, 0, 0x7, 0⟩,
  -- LGR_PEER_JOINED (RO)
  ⟨0x630010, [], 0x0, 0, 0, 0, 0, 0, 0⟩,
  -- LGR_PEER_DEPARTED (RO)
  ⟨0x630014, [], 0x0, 0, 0, 0, 0, 0, 0⟩,
  -- LGR_PEER_WRITTEN_OFF (RO)
  ⟨0x630018, [], 0x0, 0, 0, 0, 0, 0, 0⟩,
  -- LGR_PEER_PRESENT (RO)
  ⟨0x63001c, [], 0x0, 0, 0, 0, 0, 0, 0⟩,
  -- LGR_PEER_WO_MASK (RO)
  ⟨0x630020, [], 0x0, 0, 0, 0, 0, 0, 0⟩,
  -- LGR_LEFT (RO)
  ⟨0x630100, [(16, 0x10)], 0x0, 0, 0, 0, 0, 0, 0⟩,
  -- LGR_RIGHT (RO)
  ⟨0x630104, [(16, 0x10)], 0x0, 0, 0, 0, 0, 0, 0⟩,
  -- LGR_OUT (RO)
  ⟨0x630108, [(16, 0x10)], 0x0, 0, 0, 0, 0, 0, 0⟩,
  -- LGR_STATUS (RO)
  ⟨0x63010c, [(16, 0x10)], 0x0, 0, 0, 0, 0, 0, 0⟩]

/-- Rows of the PWR block. -/
def regRowsPwr : List RegRow := [
  -- PWR_STATUS (RO)
  ⟨0x640000, [], 0x0, 0, 0, 0, 0, 0, 0⟩,
  -- PWR_CTRL (RW·I)
  ⟨0x640004, [], 0x0, 0x7, 0, 0, 0, 0, 0⟩,
  -- PWR_CMD (WO·I)
  ⟨0x640008, [], 0x0, 0xff, 0, 0, 0, 0, 0xff⟩,
  -- PWR_EVENTS (W1C)
  ⟨0x64000c, [], 0x0, 0, 0, 0, 0, 0x3f, 0⟩,
  -- PWR_VIN (RO)
  ⟨0x640010, [], 0x0, 0, 0, 0, 0, 0, 0⟩,
  -- PWR_PIN (RO)
  ⟨0x640014, [], 0x0, 0, 0, 0, 0, 0, 0⟩,
  -- PWR_STEP_DUR (RW·I)
  ⟨0x640018, [], 0x0, 0xffffffff, 0, 0, 0, 0, 0⟩,
  -- PWR_ADMIT (RO)
  ⟨0x64001c, [], 0x0, 0, 0, 0, 0, 0, 0⟩,
  -- PWR_GALOP_S (RO)
  ⟨0x640020, [], 0x0, 0, 0, 0, 0, 0, 0⟩,
  -- PWR_OVERRUN (RO)
  ⟨0x640024, [], 0x0, 0, 0, 0, 0, 0, 0⟩,
  -- PWR_DETACH_TIMEOUT (RW·I)
  ⟨0x640028, [], 0x1e, 0xffffffff, 0, 0, 0, 0, 0⟩,
  -- PWR_XGALOP_W (RW·S)
  ⟨0x648000, [], 0x47e, 0, 0, 0xffffffff, 0, 0, 0⟩]

/-- Rows of the SEC block. -/
def regRowsSec : List RegRow := [
  -- SEC_STATUS (RO)
  ⟨0x650000, [], 0x0, 0, 0, 0, 0, 0, 0⟩,
  -- SEC_CMD (WO·I)
  ⟨0x650004, [], 0x0, 0xff, 0, 0, 0, 0, 0xff⟩,
  -- SEC_CONFIRM (RW·I)
  ⟨0x650008, [], 0x0, 0xffffffff, 0, 0, 0, 0, 0⟩,
  -- SEC_ARG (RW·I)
  ⟨0x65000c, [], 0x0, 0x3f030303, 0, 0, 0, 0, 0⟩,
  -- SEC_RESULT (RO)
  ⟨0x650010, [], 0x0, 0, 0, 0, 0, 0, 0⟩,
  -- SEC_SVN (RO)
  ⟨0x650014, [], 0x0, 0, 0, 0, 0, 0, 0⟩,
  -- SEC_ARG_HASH0–SEC_ARG_HASH7 (RW·I)
  ⟨0x650040, [(8, 0x4)], 0x0, 0xffffffff, 0, 0, 0, 0, 0⟩,
  -- SEC_ATT_NONCE0–SEC_ATT_NONCE7 (RW·I)
  ⟨0x650060, [(8, 0x4)], 0x0, 0xffffffff, 0, 0, 0, 0, 0⟩,
  -- SEC_SLOT_HASH0–SEC_SLOT_HASH31 (RO)
  ⟨0x650100, [(32, 0x4)], 0x0, 0, 0, 0, 0, 0, 0⟩,
  -- SEC_VENDOR_HASH0–SEC_VENDOR_HASH7 (RO)
  ⟨0x650180, [(8, 0x4)], 0x0, 0, 0, 0, 0, 0, 0⟩,
  -- SEC_ATT0–SEC_ATT1255 (RO)
  ⟨0x651000, [(1256, 0x4)], 0x0, 0, 0, 0, 0, 0, 0⟩,
  -- SEC_IDKEY0–SEC_IDKEY647 (RO)
  ⟨0x653000, [(648, 0x4)], 0x0, 0, 0, 0, 0, 0, 0⟩]

/-- Rows of the DBG block. -/
def regRowsDbg : List RegRow := [
  -- DBG_STATUS (RO)
  ⟨0x660000, [], 0x0, 0, 0, 0, 0, 0, 0⟩,
  -- DBG_CTRL (RW·I)
  ⟨0x660004, [], 0x0, 0x3, 0, 0, 0, 0, 0x2⟩,
  -- DBG_LEFT (RO)
  ⟨0x660008, [], 0x0, 0, 0, 0, 0, 0, 0⟩,
  -- DBG_EVENTS (W1C)
  ⟨0x66000c, [], 0x0, 0, 0, 0, 0, 0x1f, 0⟩,
  -- DBG_IDCODE (RO)
  ⟨0x660010, [], 0x512001, 0, 0, 0, 0, 0, 0⟩,
  -- DBG_NONCE0–DBG_NONCE7 (RO)
  ⟨0x660020, [(8, 0x4)], 0x0, 0, 0, 0, 0, 0, 0⟩,
  -- DBG_REQ (WO·I)
  ⟨0x660040, [], 0x0, 0x103, 0, 0, 0, 0, 0x103⟩,
  -- DBG_TOKEN0–DBG_TOKEN1831 (WO·I)
  ⟨0x661000, [(1832, 0x4)], 0x0, 0xffffffff, 0, 0, 0, 0, 0xffffffff⟩]

/-- Rows of the TEL block. -/
def regRowsTel : List RegRow := [
  -- TEL_CTRL (RW·I)
  ⟨0x670000, [], 0x64, 0x1ffff, 0, 0, 0, 0, 0⟩,
  -- TEL_SEQ (RO)
  ⟨0x670004, [], 0x0, 0, 0, 0, 0, 0, 0⟩,
  -- TEL_DROPPED (RO)
  ⟨0x670008, [], 0x0, 0, 0, 0, 0, 0, 0⟩,
  -- TEL_SENSOR_EXCL (RO)
  ⟨0x67000c, [], 0x0, 0, 0, 0, 0, 0, 0⟩,
  -- TEL_SNAP0–TEL_SNAP31 (RO)
  ⟨0x670040, [(32, 0x4)], 0x0, 0, 0, 0, 0, 0, 0⟩]

/-- The register rows of the 64 KB block numbered `b` (R9, R584); no row outside the blocks. -/
def blockRows (b : Nat) : List RegRow :=
  if 0x10 ≤ b ∧ b < 0x20 then regRowsLnk
  else if 0x30 ≤ b ∧ b < 0x40 then regRowsTst
  else match b with
  | 0x0 => regRowsSys
  | 0x1 => regRowsImg
  | 0x2 => regRowsTbf
  | 0x20 => regRowsSeq
  | 0x21 => regRowsSeqCtx
  | 0x22 => regRowsUcodeLo
  | 0x23 => regRowsUcodeHi
  | 0x40 => regRowsCmp
  | 0x41 => regRowsMea
  | 0x42 => regRowsSrc
  | 0x43 => regRowsTdc
  | 0x44 => regRowsTrg
  | 0x45 => regRowsAcq
  | 0x46 => regRowsQdr
  | 0x50 => regRowsMem
  | 0x51 => regRowsLib
  | 0x52 => regRowsSch
  | 0x53 => regRowsDma
  | 0x60 => regRowsNet
  | 0x61 => regRowsPtp
  | 0x62 => regRowsFlt
  | 0x63 => regRowsLgr
  | 0x64 => regRowsPwr
  | 0x65 => regRowsSec
  | 0x66 => regRowsDbg
  | 0x67 => regRowsTel
  | _ => []

/-- Whether offset `o` is one of the elements of an array of the given dimensions. -/
def hitsDims : Nat → List (Nat × Nat) → Bool
  | o, [] => o == 0
  | o, (n, st) :: ds => decide (o / st < n) && hitsDims (o % st) ds

/-- Whether a register row covers address `a`. -/
def RegRow.hits (r : RegRow) (a : Nat) : Bool := decide (r.base ≤ a) && hitsDims (a - r.base) r.dims

/-- The row of the register at address `a`, if one is mapped there (R584). -/
def rowOf (a : Nat) : Option RegRow := (blockRows (a / 0x10000)).find? (fun r => r.hits a)

/-- The value the register at `a` holds at reset. -/
def regReset (a : Nat) : Word :=
  match rowOf a with
  | some r => BitVec.ofNat 32 r.reset
  | none => 0

end Sys2Proof.Machine
end

