-- ==== Sys2Proof/Machine/Tbl.lean ====
section
/-! DEFINITION. Sparse tables from a number (an address, an index) to a value, in one canonical form: keys strictly
rising, and no entry equal to what an unlisted key reads as. Registers, memory and every array of units are
held in this form, so that equal contents are equal data. -/

namespace Sys2Proof.Machine

/-- A sparse table: pairs of key and value. What an unlisted key reads as is given at each use. -/
abbrev Tbl (α : Type) := List (Nat × α)

/-- The entry of key `k`, if listed. -/
def tfind {α : Type} (t : Tbl α) (k : Nat) : Option α :=
  match t with
  | [] => none
  | (j, v) :: r => if j = k then some v else tfind r k

/-- The value at key `k`; an unlisted key reads as `d k`. -/
def tget {α : Type} (d : Nat → α) (t : Tbl α) (k : Nat) : α := (tfind t k).getD (d k)

/-- Removes the entry of key `k`. -/
def terase {α : Type} (t : Tbl α) (k : Nat) : Tbl α :=
  match t with
  | [] => []
  | (j, v) :: r => if j = k then terase r k else (j, v) :: terase r k

/-- Puts an entry before the first larger key. -/
def tinsert {α : Type} (t : Tbl α) (k : Nat) (v : α) : Tbl α :=
  match t with
  | [] => [(k, v)]
  | (j, w) :: r => if k < j then (k, v) :: (j, w) :: r else (j, w) :: tinsert r k v

/-- Sets key `k` to `v`; a value equal to what the unlisted key reads as is not listed. -/
def tset {α : Type} [DecidableEq α] (d : Nat → α) (t : Tbl α) (k : Nat) (v : α) : Tbl α :=
  if v = d k then terase t k else tinsert (terase t k) k v

/-- Changes the value at key `k` by `f`. -/
def tmod {α : Type} [DecidableEq α] (d : Nat → α) (t : Tbl α) (k : Nat) (f : α → α) : Tbl α :=
  tset d t k (f (tget d t k))

/-- Keys strictly rising. -/
def keysRise {α : Type} : Tbl α → Bool
  | [] => true
  | (j, _) :: r => (match r with | [] => true | (k, _) :: _ => decide (j < k)) && keysRise r

/-- The canonical form: keys strictly rising and no entry equal to what an unlisted key reads as. -/
def Tbl.wf {α : Type} [DecidableEq α] (d : Nat → α) (t : Tbl α) : Bool :=
  keysRise t && t.all (fun e => decide (e.2 ≠ d e.1))

/-- Sets a run of keys from `k` up. -/
def tsetList {α : Type} [DecidableEq α] (d : Nat → α) (t : Tbl α) (k : Nat) : List α → Tbl α
  | [] => t
  | v :: vs => tsetList d (tset d t k v) (k + 1) vs

/-- The values of `n` keys from `k` up. -/
def tgetList {α : Type} (d : Nat → α) (t : Tbl α) (k : Nat) : Nat → List α
  | 0 => []
  | n + 1 => tget d t k :: tgetList d t (k + 1) n

end Sys2Proof.Machine
end

