-- ==== Sys2Proof/Machine/State.lean ====
section
/-! DEFINITION. The state of the device as plain data: the registers by address, the shadows of F- and S-class fields,
memory, and for every block the state the spec gives it beside its registers; then the queue of waiting commands,
the stops, and the state after reset. -/

namespace Sys2Proof.Machine

open Sys2Proof

/-! ### Answers and host transport -/

/-- The answer to the last host request: a code of R21, the DONE count and the data returned; `deferred` while the
answer falls later. -/
structure Ans where
  status : Nat := 0
  done : Nat := 0
  data : List Word := []
  deferred : Bool := false
  deriving DecidableEq, Repr

/-- The commands that are answered when they end, not when they are written. -/
inductive OpenKind where
  | load
  | verify
  | commit (g : Nat)
  deriving DecidableEq, Repr

/-- A command whose answer is still open: the slot and SEQ of the request it came in (SEQ 0: no message waits), and
the registers that message had completed. -/
structure OpenCmd where
  kind : OpenKind
  slot : Nat
  reqSeq : Nat := 0
  done : Nat := 0
  /-- Registers of the same message completed after this command was accepted, and the code they stopped with. -/
  after : Nat := 0
  code : Nat := 0
  /-- The answer goes to a new owner (R574), outside the numbering of its requests; slot 8 while there is none (R62). -/
  moved : Bool := false
  deriving DecidableEq, Repr

/-- The payload of a RESPONSE (R560). -/
structure Resp where
  reqSeq : Nat
  status : Nat
  done : Nat
  data : List Word
  deriving DecidableEq, Repr

/-- The body of a message the device sends (R560). -/
inductive OutBody where
  | challenge (nonce : List Word)
  | sessionOpen (status prio : Nat)
  | response (r : Resp)
  | offer (from_ : Word)
  | streamData (stream kind : Nat) (dropped : Bool) (first : Nat) (recs : List (List Word))
  | close
  deriving DecidableEq, Repr

/-- A numbered message of the device, kept until it is acknowledged (R570). -/
structure OutMsg where
  seq : Nat
  epoch : Word
  resends : Nat := 0
  body : OutBody
  deriving DecidableEq, Repr

/-- The payload of a host request that a session executes in SEQ order (R560, R569). -/
inductive Kct where
  | close
  | readReg (addr count : Nat)
  | writeReg (obs : WriteObs) (addr : Nat) (values : List Word)
  | readMem (addr len : Nat)
  | writeMem (addr : Nat) (data : List Byte)
  | claim
  | heartbeat
  | handover (successor : Word)
  | accept
  | release
  | streamOpen (p : StreamReq)
  | streamCredit (stream credit : Nat)
  | streamClose (stream : Nat)
  deriving DecidableEq, Repr

inductive SessPhase where
  | free
  | challenged
  | opened
  deriving DecidableEq, Repr

/-- A session slot (R563 to R570). `hostId` is the identity hash read as a number whose most significant byte is
byte 0 of the hash, so that the order of R572 is the order of numbers. -/
structure Session where
  phase : SessPhase := .free
  id : Word := 0
  hostId : Nat := 0
  prio : Nat := 0
  port : Nat := 0
  rx : Nat := 0
  tx : Nat := 0
  window : Nat := 64
  unacked : List OutMsg := []
  waiting : List OutMsg := []
  cache : List Resp := []
  held : List (Nat × Word × Kct) := []
  standing : Bool := false
  deriving DecidableEq, Repr

/-- A record waiting on a stream: the epoch of its event and its words. -/
structure Rec where
  epoch : Word
  words : List Word
  deriving DecidableEq, Repr

/-- An open stream (R575 to R578). `holder` is the session slot it goes to, none while ownership is vacant;
`ofOwner` marks the owner's streams, which move under R580. -/
structure Stream where
  num : Nat
  holder : Option Nat
  ofOwner : Bool
  kind : Nat
  credit : Nat
  rate : Nat
  recs : List Rec := []
  nextIdx : Nat := 0
  dropped : Bool := false
  /-- A telemetry record has been discarded, and none delivered since (R94). -/
  telDropped : Bool := false
  ringBase : Nat := 0
  ringRec : Nat := 0
  ringSize : Nat := 0
  wrReg : Nat := 0
  rdReg : Nat := 0
  deriving DecidableEq, Repr

/-- An outstanding handover offer (R573): the successor's slot and the request of the owner it answers. -/
structure Offer where
  slot : Nat
  reqSeq : Nat
  deriving DecidableEq, Repr

/-- One entry of the host table (R566). -/
structure HostEntry where
  valid : Bool := false
  hash : List Word := []
  prio : Nat := 0
  deriving DecidableEq, Repr

/-- An Ethernet port (R554, R558): the rate code being tried and the rate code linked at (0 none). -/
structure Port where
  trying : Nat := 3
  linked : Nat := 0
  /-- Echo requests answered in the second `second` (R555). -/
  answered : Nat := 0
  second : Nat := 0
  deriving DecidableEq, Repr

/-- Sessions, ownership, streams and ports (R553 to R588). -/
structure Net where
  sess : Tbl Session := []
  owner : Option Nat := none
  how : Nat := 0
  electing : Bool := false
  /-- CLAIMs received during the election window: session slot and the request that waits for its answer. -/
  cands : List (Nat × Nat) := []
  offer : Option Offer := none
  leaseEnd : Nat := 0
  /-- The slot that owned last, and STREAM_DATA of the owner's streams left unacknowledged by an owner whose session closed
  (R580). -/
  lastOwner : Option Nat := none
  orphans : List OutMsg := []
  streams : List Stream := []
  hosts : Tbl HostEntry := []
  port0 : Port := {}
  port1 : Port := {}
  openCmds : List OpenCmd := []
  /-- Answers of commands that ended while ownership was vacant; they wait for the next owner (R62). -/
  results : List Resp := []
  /-- The RESPONSE that answered the last CLOSE in each session slot (R560, R568). -/
  closes : Tbl (Option Resp) := []
  deriving DecidableEq, Repr

/-! ### Faults and ledgers -/

/-- A fault report on its way to a record (R609, R623). -/
structure FaultRec where
  cls : Nat
  unitClass : Nat
  unit : Nat
  cause : Nat
  replacement : Nat := 0xFFFF
  covered : Bool := false
  takeover : Bool := false
  wire : Bool := false
  nested : Bool := false
  escalated : Bool := false
  queueWait : Bool := false
  injected : Bool := false
  latched : Bool := false
  occ : Nat := 1
  detail0 : Nat := 0
  detail1 : Nat := 0
  takeoverNs : Nat := 0
  epoch : Word := 0
  beat : Nat := 0
  seq : Nat := 0
  parent : Nat := 0xFFFFFFFF
  deriving DecidableEq, Repr

/-- The fault collector (R617 to R623). `held` are lines left unacknowledged while the queue is full (R620);
`history` holds the latest 256 records, the latest first. -/
structure Collector where
  handling : Option FaultRec := none
  preempted : List FaultRec := []
  queue : List FaultRec := []
  held : List FaultRec := []
  nextSeq : Nat := 0
  worst : Nat := 0
  history : List (List Word) := []
  halted : Bool := false
  grave : Bool := false
  /-- A spare, free engine or spare pseudo-channel has been used since the load (R628). -/
  spareUsed : Bool := false
  /-- A C2 record without COVERED, or a C3 or C4, since the load (R628). -/
  badRecord : Bool := false
  /-- A covered C1 or C2 since the load (R629). -/
  broken : Bool := false
  /-- Units that run on one of their two copies: (unit class, unit). -/
  oneCopy : List (Nat × Nat) := []
  /-- Known-answer tests under way (R172, R302, R349): (unit class, unit). -/
  tests : List (Nat × Nat) := []
  /-- Units fenced until the next reset (R622): (unit class, unit). -/
  fenced : List (Nat × Nat) := []
  /-- The last C4 record, kept in the library's system area (R615). -/
  graveKept : List Word := []
  deriving DecidableEq, Repr

/-- The two sides and the in-transit term of a ledger. -/
structure LedgerView where
  left : Nat := 0
  right : Nat := 0
  out : Nat := 0
  deriving DecidableEq, Repr

/-- Ledger state beside the counters of the blocks (R631 to R637): the frozen views, and what rebasing added to a right
side. -/
structure Ledgers where
  frozen : Tbl (Option LedgerView) := []
  rebase : Tbl Nat := []
  deriving DecidableEq, Repr

/-! ### The structure image -/

/-- A site of SITEMAP (R28). -/
structure Site where
  channels : Nat := 0
  context : Nat := 0xFF
  enabled : Bool := false
  deriving DecidableEq, Repr

/-- A group header of CHANROLE (R30). -/
structure GroupRole where
  periodN : Nat := 0
  tset0 : Nat := 0
  tmaster : Nat := 0xFF
  enabled : Bool := false
  deriving DecidableEq, Repr

/-- A channel entry of CHANROLE (R30). -/
structure ChanRole where
  mode0 : Nat := 0
  permit : Nat := 1
  site : Nat := 0xFF
  aq : Nat := 0xFF
  dsp : Nat := 0xFFFF
  deriving DecidableEq, Repr

/-- An entry of LANEMAP (R32). -/
structure LaneMap where
  lflags : Nat := 0
  compClass : Nat := 0
  tracePs : Nat := 0
  deriving DecidableEq, Repr

/-- An entry of RESERVE (R33). -/
structure Reserve where
  cls : Nat
  rflags : Nat
  consumer : Nat
  amount : Nat
  deriving DecidableEq, Repr

/-- The SPARES record (R34). -/
structure Spares where
  ctx : Nat := 0
  core : Nat := 0
  dp : Nat := 0
  dmaFree : Nat := 0
  pc : Nat := 0
  deriving DecidableEq, Repr

/-- A structure image as loaded: its header fields, the parsed sections of this chapter, and the bodies of the sections
that other chapters lay down. -/
structure Image where
  seq : Nat := 0
  svn : Nat := 0
  flags : Nat := 0
  digest : List Word := []
  sites : Tbl Site := []
  groups : Tbl GroupRole := []
  chans : Tbl ChanRole := []
  lanes : Tbl LaneMap := []
  reserve : List Reserve := []
  spares : Spares := {}
  tsets : List Byte := []
  trigroute : List Byte := []
  quadrille : List Byte := []
  sched : List Byte := []
  dspmap : List Byte := []
  deriving DecidableEq, Repr

/-- The sums and capacities of admission (R42, R43), each rounded up as the registers of R64 report it. -/
structure AdmitSums where
  hbm0 : Nat := 0
  cap0 : Nat := 0
  hbm1 : Nat := 0
  cap1 : Nat := 0
  eng : Nat := 0
  eth : Nat := 0
  libr : Nat := 0
  libw : Nat := 0
  deriving DecidableEq, Repr

/-- The outcome of the checks of R39 on a slot: the failing check and its reason (0, 0 for none), whether admission ran,
the sums if check 13 was reached, and the image if verification passed. -/
structure CheckResult where
  check : Nat := 0
  reason : Nat := 0
  admitRun : Bool := false
  sums : Option AdmitSums := none
  image : Option Image := none
  deriving DecidableEq, Repr

/-- Where a load stands (R53 to R61), and whether it is a LOAD_AUTO. -/
inductive LoadPhase where
  | idle
  | draining (auto : Bool) (slot : Nat)
  | passed (auto : Bool) (slot : Nat) (image : Image) (sums : AdmitSums)
  | failed (auto : Bool) (slot : Nat) (code : Nat)
  | retraining (auto : Bool)
  deriving DecidableEq, Repr

/-- The state of image loading beside the IMG registers. -/
structure ImgState where
  load : LoadPhase := .idle
  verify : Option Nat := none
  active : Image := {}
  /-- Whether an image has been loaded since reset. -/
  loaded : Bool := false
  /-- Groups for which the load raised the fault of R61. -/
  lateGroups : List Nat := []
  /-- The epoch count kept in the library's system area (R58). -/
  sysEpoch : Nat := 0
  deriving DecidableEq, Repr

/-! ### Power -/

/-- The power states (R643). -/
inductive PowerState where
  | off
  | run
  | hold
  | standby
  | detached
  deriving DecidableEq, Repr

/-- Power, attach and detach state (R643 to R678). -/
structure Power where
  state : PowerState := .hold
  recovery : Bool := false
  /-- The firmware slot that runs (R653). -/
  fwSlot : Nat := 0
  /-- The step in progress is a Galop step (R675), and the runs of Galop steps, in reference periods: start and end, the latest
  first. -/
  galopStep : Bool := false
  galopRuns : List (Nat × Option Nat) := []
  /-- This step's overrun of PWR_STEP_DUR has been counted (R677). -/
  overrun : Bool := false
  /-- RESET_N is low, or the device waits for its release. -/
  inReset : Bool := false
  /-- The level of DETACH_N (R670). -/
  detachN : Bool := true
  /-- The core, HBM and lane rails, and the management rail, are on (R678). -/
  core : Bool := true
  mgmt : Bool := true
  /-- VIN fell below the UVLO threshold (R678). -/
  uvlo : Bool := false
  /-- When the reset in force ended, in reference periods. -/
  since : Nat := 0
  /-- A recovery INSTALL in progress (R583): target and length. -/
  install : Option (Nat × Nat) := none
  deriving DecidableEq, Repr

/-! ### Security and debug -/

/-- The security states (R645). -/
inductive SecState where
  | blank
  | open_
  | sealed
  | retired
  deriving DecidableEq, Repr

/-- A customer key slot in the fuses (R649). -/
structure KeySlot where
  enrolled : Bool := false
  revoked : Bool := false
  image : Bool := false
  debug : Bool := false
  hash : List Word := []
  deriving DecidableEq, Repr

/-- A security command accepted and not yet completed (R647): its code, SEC_ARG and SEC_ARG_HASH. -/
structure SecPend where
  cmd : Nat
  arg : Word
  hash : List Word
  deriving DecidableEq, Repr

/-- The fuses and what stands beside them (R645 to R655): the security state, key slots, version floors, the hash of the vendor
key and of the identity key with the key itself, the command in progress, and the measurements of R653. -/
structure Sec where
  state : SecState := .blank
  slots : Tbl KeySlot := []
  imageFloor : Nat := 0
  fwFloor : Nat := 0
  ucodeFloor : Nat := 0
  idKey : List Word := []
  idHash : List Word := []
  cmd : Option SecPend := none
  fwSvn : Nat := 0
  ucodeSvn : Nat := 0
  mFw : List Word := []
  mUcode : List Word := []
  mImage : List Word := []
  mCore : List Word := []
  deriving DecidableEq, Repr

/-- The TAP instructions (R663). -/
inductive TapInstr where
  | bypass
  | idcode
  | sample
  | extest
  | dap
  | token
  deriving DecidableEq, Repr

/-- The debug session at the DAP (R657 to R664): its level (0 NONE, 1 OBSERVE, 2 INTRUSIVE), whether a token opened it and its
PERMS, when its lifetime ends in reference periods, the TAP instruction, whether EXTEST drives the balls, and where the
current nonce begins in the sequence of free values. -/
structure Debug where
  level : Nat := 0
  token : Bool := false
  perms : Nat := 0
  ends : Option Nat := none
  ir : TapInstr := .idcode
  extest : Bool := false
  nonceIdx : Nat := 0
  deriving DecidableEq, Repr

/-! ### Time base -/

/-- Reference state beside the TBF registers (R68 to R76): consecutive good windows, whether the owner has allowed a
manual return, the latch of the upper half of the BEAT count, the monitors noted in this step (R85), and whether a window of the slack
monitors has ended since reset. -/
structure TimeBase where
  /-- The oscillator has failed its check (R76). -/
  xoFailed : Bool := false
  goodWindows : Nat := 0
  returnAllowed : Bool := false
  beatLatch : Nat := 0
  slackNoted : List Nat := []
  slackSeen : Bool := false
  /-- The lowest slack since the last telemetry sample, with its monitor (R95). -/
  slackLow : Option (Nat × Int) := none
  deriving DecidableEq, Repr

/-! ### Lanes -/

/-- A running eye scan in one direction (R126): which eye, whether the phase or the threshold is stepped and which
way, the step being measured, and the results so far. -/
structure EyeScan where
  eye : Nat := 0
  height : Bool := false
  down : Bool := false
  off : Nat := 1
  count : Nat := 1
  widths : List Nat := []
  heights : List Nat := []
  samples : Nat := 24
  rspKind : Nat := 0
  rsp : List Nat := []
  pointId : Nat := 0
  /-- The command of the point under way has been sent to the partner (R144). -/
  sent : Bool := false
  deriving DecidableEq, Repr

/-- Symbols on a TX pair: how many, and their Gray values as one number, the first sent the most significant; none while the pair is
squelched. -/
structure Symbols where
  len : Nat := 0
  val : Nat := 0
  deriving DecidableEq, Repr

/-- A lane beside its LNK registers (R100, R107 to R125): the control and status words it sends, the handshake counts of training, the
squelch, its departures from ACTIVE, the partner's SERIAL plus 1 and the partner's record with its receptions in a row (R116), its eye scans
(`eyeIn` its own receiver, `eyeOut` the partner's), what its pair sent last, the state of its training pattern, the last symbols
sent and received that precoding refers to, and the generator, the latest 31 bits and the counts of BERT. -/
structure Lane where
  ctl : Word := 0
  stat : Word := 0
  ready : Bool := false
  partnerReady : Nat := 0
  further : Nat := 0
  presetSent : Bool := false
  squelched : Bool := false
  departures : List Nat := []
  goodRun : Nat := 0
  badWords : Nat := 0
  recent : List Bool := []
  partnerFlags : Nat := 0
  serial : Nat := 0
  capRec : List Byte := []
  capRun : Nat := 0
  eyeIn : Option EyeScan := none
  eyeOut : Option EyeScan := none
  /-- SAMPLES_LOG2 of a partner scan that ended early and has still to be stopped (R144). -/
  eyeStop : Option Nat := none
  out : Symbols := {}
  prbs : Nat := 0
  txP : Nat := 0
  rxP : Nat := 0
  bertTx : Nat := 0
  bertRx : Nat := 0
  bertSeen : Nat := 0
  bertSyms : Nat := 0
  deriving DecidableEq, Repr

/-! ### Sequence engines -/

/-- An arm of a conditional jump, recorded with the stream (R188, R238): its stream position, its fields, and the pin
frame of its request once a STAY = 0 arm has made it. -/
structure Arm where
  pos : Nat
  cond : Nat
  arg : Nat
  stay : Bool
  lpop : Nat
  cpop : Nat
  target : Nat
  ended : Option Nat := none
  deriving DecidableEq, Repr

/-- A jump request (R189): its pin frame and where it leads. -/
structure JumpReq where
  frame : Nat
  target : Nat
  lpop : Nat
  cpop : Nat
  deriving DecidableEq, Repr

/-- A loop-stack entry (R185): the body start and the passes still to run after the current one. -/
structure LoopEntry where
  body : Nat
  left : Nat
  endless : Bool
  deriving DecidableEq, Repr

/-- What the vectors of a run are: vectors of a segment from an offset, hold vectors of one action code, or hold vectors
that repeat a segment's vector (R177). -/
inductive RunKind where
  | seg (id off : Nat)
  | hold (act : Nat)
  | holdRepeat (id vec : Nat)
  deriving DecidableEq, Repr

/-- A run of consecutive vectors of a stream, under one compare mask. -/
structure Run where
  first : Nat
  len : Nat
  kind : RunKind
  mask : Nat
  deriving DecidableEq, Repr

/-- A repetition of a MATCH (R194): its first and last vector, and its outcome once resolved. -/
structure MatchRep where
  first : Nat
  last : Nat
  matched : Option Bool := none
  deriving DecidableEq, Repr

/-- The emission a context is in the middle of. -/
inductive Cur where
  /-- PLAY and PLAYN: the segment, its length, repetitions in all, the current one, the offset in it, the start-trigger
  line and EACH. -/
  | play (seg len reps rep off : Nat) (line : Option Nat) (each : Bool)
  /-- MATCH: also MAXREP, TOHALT, the repetitions emitted so far, and the tail of hold vectors after the last. -/
  | matching (seg len maxrep off : Nat) (line : Option Nat) (toHalt : Bool) (reps : List MatchRep)
  /-- WAITT: line, TIMEOUT (0 none), TOHALT, first hold vector, and the frame in which the line acted. -/
  | waitt (line timeout : Nat) (toHalt : Bool) (start : Nat) (acted : Option Nat)
  /-- WAITTIME: first hold vector and COUNT. -/
  | waittime (start count : Nat)
  /-- A residency hold (R249): first hold vector, list, COUNT of the LOOP and objects. -/
  | resHold (start rlist loopCount : Nat) (ids : List Nat)
  deriving DecidableEq, Repr

/-- An event bound to a stream position (R192, R199): a start trigger or a SIGNAL. -/
inductive StreamEvt where
  | startTrigger (line : Nat)
  | signal (kind num value : Nat)
  deriving DecidableEq, Repr

/-- What a context writes outside its engine at every instruction boundary and after every frame built (R223): its PC, both stacks, the
compare mask, the emission in progress with the position in it, the count of vectors emitted, the last vector fetched and
the signals that wait for a vector. The arm and the pending request stand in the context itself, where conditions reach them during a
takeover (R224). -/
structure Checkpoint where
  pc : Nat := 0
  loops : List LoopEntry := []
  calls : List Nat := []
  mask : Nat := 0
  cur : Option Cur := none
  emitted : Nat := 0
  lastVec : Option (Nat × Nat) := none
  signals : List StreamEvt := []
  deriving DecidableEq, Repr

/-- States of SEQ_CTX_STATUS.STATE. -/
inductive CtxState where
  | idle
  | starting
  | running
  | resHold
  | waiting
  | ended
  | holdWait
  | error
  | fenced
  deriving DecidableEq, Repr

/-- A sequence context (R170 to R213). `emitted` counts the vectors of the step; `runs`, `arms`, `segStarts` and `evts` are
its stream; `resolved` is the number of pin frames whose conditions are resolved (R231). -/
structure Ctx where
  state : CtxState := .idle
  pc : Nat := 0
  emitted : Nat := 0
  resolved : Nat := 0
  runs : List Run := []
  loops : List LoopEntry := []
  calls : List Nat := []
  arms : List Arm := []
  jump : Option JumpReq := none
  /-- The last jump taken: its request frame, the pin frame of its point of effect, and its target. -/
  lastJump : Option (Nat × Nat × Nat) := none
  mask : Nat := 0
  cur : Option Cur := none
  evts : List (Nat × StreamEvt) := []
  segStarts : List (Nat × Nat) := []
  signals : List StreamEvt := []
  /-- Unmasked fails of the step: (pin vector, site-list index). -/
  fails : List (Nat × Nat) := []
  /-- Pin frames in which a line was sampled asserted: (frame, line). -/
  lineFrames : List (Nat × Nat) := []
  checkedLists : List Nat := []
  lastVec : Option (Nat × Nat) := none
  endVec : Nat := 0
  stopAt : Option Nat := none
  holdRlist : Nat := 0xFFFFF
  stageReq : List (Nat × List Nat) := []
  pinned : List Nat := []
  /-- Micro-traps pending, by cause (R218). -/
  microTraps : List Nat := []
  takeover : Bool := false
  onSpare : Bool := false
  /-- Stopped by a DEBUG_HALT (R662). -/
  halted : Bool := false
  /-- A DEBUG_HALT waits for the aborted step to end (R662). -/
  halting : Bool := false
  check : Checkpoint := {}
  /-- Vectors that the frame builders hold already: a spare that resumes from the checkpoint emits them again without effect (R224). -/
  held : Nat := 0
  /-- Pin frames whose segment reads have been made. -/
  fetched : Nat := 0
  /-- Spans of vectors after a matching repetition, which take no part in conditions (R245): first and last. -/
  ignored : List (Nat × Nat) := []
  deriving DecidableEq, Repr

/-- The step in progress (R205 to R209): its contexts and groups, a START with AT, the BEAT count of START, STEPTIME once
set, the end of the step in ticks from vector 0 once known, and whether vector 0 has been released. -/
structure StepInfo where
  ctxs : List Nat
  groups : List Nat
  at_ : Option Nat
  startBeat : Nat
  steptime : Option Nat := none
  endTicks : Option Nat := none
  zeroed : Bool := false
  aborted : Bool := false
  abortArg : Nat := 0
  /-- The states and error codes of the contexts before START (R207), and those whose step list was not resident then. -/
  prior : List (Nat × CtxState × Nat) := []
  late : List Nat := []
  /-- Waveform segments that play lists add to the step list of a context: (context, object) (R374). -/
  waves : List (Nat × Nat) := []
  /-- A group of the step has lost its last ACTIVE lane in the hold (R254). -/
  laneLost : Bool := false
  deriving DecidableEq, Repr

/-- The micro-registers, micro-PC and flags of a context, the microwords left in its atomic section, the trap in progress, and whether one
has been taken since a WAITEV began (R216 to R220); the window registers hold what a trap saved (R222). -/
structure Micro where
  regs : Tbl (BitVec 64) := []
  mpc : Nat := 0
  z : Bool := false
  n : Bool := false
  c : Bool := false
  v : Bool := false
  asec : Nat := 0
  inTrap : Option Nat := none
  waited : Bool := false
  deriving DecidableEq, Repr

/-- The sequence engines (R170 to R225). -/
structure Seq where
  ctxs : Tbl Ctx := []
  micro : Tbl Micro := []
  step : Option StepInfo := none
  ctxSpares : Nat := 4
  logLostBefore : Bool := false
  /-- Host events and dispatcher flags of SIGNALs with the BEAT count of their pin time (R199). -/
  due : List (Nat × StreamEvt) := []
  deriving DecidableEq, Repr

/-! ### Link -/

/-- A DATA frame sent and not yet done with: its FSEQ, its number in the step, its flags, its set, its vectors as stored
in a segment (4 bits per channel), the segment starts it announced, whether the companion has consumed or lost it,
and the results returned for it. -/
structure SentFrame where
  fseq : Nat
  number : Nat
  first : Bool
  last : Bool
  vlast : Nat
  tset : Nat
  vecs : List Nat
  segs : List Nat := []
  applied : Bool := false
  lost : Bool := false
  results : Option (List Nat) := none
  resLost : Bool := false
  /-- Contexts that still have to judge the frame. -/
  judges : List Nat := []
  /-- A frame of an earlier step, once the next one has its STEPTIME. -/
  old : Bool := false
  deriving DecidableEq, Repr

/-- Count alignment on one lane (R161, R162): the probe under way and its stamps (in 1/256 BEAT period), the equal rounded
offsets in a row, and whether 8 probes have rounded to 0 since the last correction; `rxFrame` is the FSEQ of the frame that
carried TECHO_RX. -/
structure Probe where
  id : Nat := 0
  rxFrame : Option Nat := none
  t1 : Option Nat := none
  t2 : Option Nat := none
  t4 : Option Nat := none
  run : Nat := 0
  theta : Int := 0
  zero : Bool := false
  deriving DecidableEq, Repr

/-- A group's link (R133 to R169) beside the LNK registers. -/
structure Link where
  started : Bool := false
  built : Nat := 0
  /-- Frame boundaries of the step that the frame builder has passed. -/
  begun : Nat := 0
  sent : List SentFrame := []
  /-- Entries for the next IDLE frame, first out first. -/
  idleEntries : List Nat := []
  /-- Companion map writes waiting, and the next address of a whole rewrite. -/
  mapQ : List (Nat × Nat) := []
  mapCursor : Option Nat := none
  /-- Event words of an accepted linearisation that wait, sent between steps (R287). -/
  relin : List (Nat × Nat) := []
  /-- FSEQ of IDLE frames with map writes, not yet reported consumed. -/
  mapOut : List Nat := []
  /-- The last outward frame sent. -/
  lastOut : Option Frame := none
  /-- The LAST frame of the step has been sent. -/
  finished : Bool := false
  /-- Inward frames declared lost and not yet known to have carried results. -/
  gap : Nat := 0
  /-- FSEQ of the frame that carries the last word of an open commit, once sent. -/
  commitFseq : Option Nat := none
  lostSeen : List Nat := []
  /-- FSEQ of frames reported lost before they were sent (R88). -/
  missed : List Nat := []
  lostCum : Nat := 0
  released : Nat := 0
  next : Option Nat := none
  buf : List Frame := []
  /-- Arrivals of the latest inward frames: lane, FSEQ and the instant of the marker in 1/256 BEAT period. -/
  arrivals : List (Nat × Nat × Nat) := []
  seenA : Option Nat := none
  seenB : Option Nat := none
  probeA : Probe := {}
  probeB : Probe := {}
  /-- Lanes on which a periodic probe is due (R163). -/
  probeDue : List Nat := []
  /-- A lane that left ACTIVE in RUN while its twin stayed, and when one frame period will have passed since (R122). -/
  lossNote : Option (Nat × Nat) := none
  /-- 8 equal probes in a row have been seen since alignment began (R162). -/
  adjusted : Bool := false
  holdStart : Bool := false
  inject : Option (Nat × Nat) := none
  /-- Changes of the timing set in the step (R198, R278): twice the stream position in vectors, plus 1 for a TSET instruction, and the set. -/
  tsets : List (Nat × Nat) := []
  tsetNow : Nat := 0
  /-- The pin frame at which a host write of TST_TSET acts, until it does (R278). -/
  tsetAt : Option Nat := none
  /-- Control-slot entries that microwords have issued for the next frames (R217). -/
  ctrl : List Nat := []
  announced : Option Nat := none
  creads : List Nat := []
  firstActive : Bool := false
  deriving DecidableEq, Repr

/-! ### Timing -/

/-- Timing sets, tables and calibrations of a group (R256 to R289). `slots` holds type and ticks of every slot as TST_RB
shows them, keyed set × 512 + channel × 16 + 4e + j; `raw` the companion words of raw slots; `rawMark` the raw channels,
keyed set × 32 + channel; `lin` the tables, keyed path × 8192 + channel × 256 + r, and `acc` those last accepted; per channel
whether one was accepted, when and at what temperature, whether skews were accepted, and rejections in a row; per path
and channel (path × 32 + k) the drift coefficient in 1/1000 ps/°C; the runs under way (channel, deskew, FORCE); the companion temperature last read since
reset; the lowest and highest temperature of accepted linearisations per channel; and LOOP_ON as CAL_STAT last showed it. -/
structure Timing where
  slots : Tbl Word := []
  raw : Tbl Word := []
  rawMark : Tbl Bool := []
  lin : Tbl Nat := []
  acc : Tbl Nat := []
  linSet : Tbl Bool := []
  since : Tbl Nat := []
  tcal : Tbl Int := []
  skewSet : Tbl Bool := []
  coef : Tbl Int := []
  rejects : Tbl Nat := []
  calRun : List (Nat × Bool × Bool) := []
  compTemp : Option Int := none
  temps : Tbl (List Int) := []
  loopOn : Bool := false
  deriving DecidableEq, Repr

/-! ### Compare -/

/-- The compare stage beside the CMP registers: the injection armed, the bucket of R307 (in units of 1/(256 × 10^12)
record) with the tick it was last filled at, units logged per site, and frames judged per context. -/
structure Compare where
  inject : Option Nat := none
  bucket : Nat := 0
  bucketTick : Nat := 0
  siteLogged : Tbl Nat := []
  judged : Tbl Nat := []
  deriving DecidableEq, Repr

/-! ### Library -/

/-- States of a library object (R471). -/
inductive ObjState where
  | opened
  | sealed
  | lost
  deriving DecidableEq, Repr

/-- A library object: its type, its length, the bytes written, its content, and its base in the object area while it is
resident. -/
structure LibObj where
  typ : Nat
  length : Nat
  written : Nat := 0
  state : ObjState := .opened
  data : Tbl Byte := []
  base : Option Nat := none
  deriving DecidableEq, Repr

/-- A WRITE or READ in progress (R471 to R476): the object, the offset and HBM address of its first byte, BYTES, the
bytes done, and how it ends once that is known. -/
structure LibRun where
  isRead : Bool
  id : Nat
  off : Nat
  addr : Nat
  bytes : Nat
  done : Nat := 0
  ending : Option Nat := none
  deriving DecidableEq, Repr

/-- A staging request that waits (R478): its object, whether a STAGE command waits for it, and whether the notice of a full
object area was raised for it. -/
structure StageReq where
  id : Nat
  cmd : Bool := false
  deriving DecidableEq, Repr

/-- A row of 16 blocks, one on a die of each channel, that write units fill page by page (R469, R483): the blocks, the pages filled, and
the units it holds, each as an object and the number of the unit in it. -/
structure NandRow where
  blocks : List Nat
  filled : Nat
  units : List (Nat × Nat)
  deriving DecidableEq, Repr

/-- The pattern library and staging: objects, the WRITE or READ in progress, staging requests in order of arrival, the
resident objects least recently used first, the hourly buckets of the wear budget in bytes with the latest first, the
stripe sets whose failed die is being rebuilt, whether this step noticed a full area, and the blocks that patrol has
rewritten elsewhere; then the blocks (R483 to R486): rows with data, erase counts, retired blocks, failed dies, the stripe set
of the next row and the page that patrol reads next. -/
structure Lib where
  objs : Tbl (Option LibObj) := []
  run : Option LibRun := none
  queue : List StageReq := []
  lru : List Nat := []
  wear : List Nat := []
  rebuilding : List Nat := []
  areaNoted : Bool := false
  rewritten : Nat := 0
  rows : List NandRow := []
  erases : Tbl Nat := []
  retired : List Nat := []
  deadDies : List Nat := []
  nextSet : Nat := 0
  patrolAt : Nat := 0
  deriving DecidableEq, Repr

/-! ### Triggers and acquisition -/

/-- An assertion of a matrix source or line, from its instant up to and including its last, on the 625 ps grid (R413,
R418); `upto` is none while it still holds. -/
structure Asserted where
  code : Nat
  since : Nat
  upto : Option Nat
  deriving DecidableEq, Repr

/-- The trigger lines (R413 to R419): direct events scheduled for an instant (instant, line), assertions of the matrix
sources, the pulses of acts, and each line's last act that was not suppressed. -/
structure Trig where
  direct : List (Nat × Nat) := []
  srcs : List Asserted := []
  pulses : List Asserted := []
  last : Tbl (Option Nat) := []
  deriving DecidableEq, Repr

/-- An open block of a reduction of one channel (R423): outputs counted, outputs used, their sum, sum of squares and
extremes, the OR of their flags, and t_m of the first. -/
structure AcqBlock where
  red : Nat
  channel : Nat
  count : Nat := 0
  used : Nat := 0
  sum : Int := 0
  squares : Nat := 0
  lo : Int := 0
  hi : Int := 0
  flags : Nat := 0
  time : Nat := 0
  deriving DecidableEq, Repr

/-- An acquisition unit (R422 to R429): open blocks, the trigger instants whose record is still to come, per reduction,
the records still to be written after a trigger position, the reductions that have stopped, and the detector's arms. -/
structure AcqUnit where
  blocks : List AcqBlock := []
  want : List (Nat × Int) := []
  left : List (Nat × Nat) := []
  stopped : List Nat := []
  triggered : Bool := false
  low : Bool := false
  high : Bool := false
  deriving DecidableEq, Repr

/-! ### Measure channels -/

/-- A sample inside a measure chain: its value and the SAT and GAP flags of what fed it. -/
structure Smp where
  val : Int
  sat : Bool := false
  gap : Bool := false
  deriving DecidableEq, Repr

/-- A cross-fade (R336, R337): the instant of its boundary in ticks from vector 0, W, and the sets it fades from. -/
structure Fade where
  at_ : Nat
  len : Nat
  oldRs : Nat
  oldHb : List Nat
  deriving DecidableEq, Repr

/-- A measure chain since one reset (R319 to R327, R342): the pin vector of the reset sample, the input samples taken,
CIC integrators and combs, the last input lost, the samples that have entered the half-band stages, the sets in force and
the fade in progress, the next output, and the number of outputs that fall before the next reset once that is known. -/
structure MeaRun where
  first : Nat
  taken : Nat := 0
  ints : List Int := []
  combs : List Int := []
  lastGap : Option Nat := none
  hist : List Smp := []
  rs : Nat := 0
  hb : List Nat := []
  fade : Option Fade := none
  out : Nat := 0
  limit : Option Nat := none
  deriving DecidableEq, Repr

/-- A change of a channel's coefficient sets on its way to the outputs (R336): the instant of its boundary in ticks from
vector 0, the sets from there on, and W. -/
structure SetChange where
  at_ : Nat
  rs : Nat
  hb : List Nat
  len : Nat
  deriving DecidableEq, Repr

/-- A measure channel (R318 to R347): class (0 none, 1 stream, 2 word), chain, output rate in S/s, the sets of the step's
first vector, set changes not yet taken by an output, chains since each reset not yet fully output, and resets still to come
(ticks from vector 0). -/
structure MeaCh where
  cls : Nat := 0
  n : Nat := 4
  k : Nat := 1
  h : Nat := 0
  rho : Nat := 2147483648
  preset : Bool := false
  rs : Nat := 0
  hb : List Nat := []
  changes : List SetChange := []
  runs : List MeaRun := []
  resets : List Nat := []
  invalid : Bool := false
  deriving DecidableEq, Repr

/-- The measure engine beside its registers: channels, user coefficients (resampler set × 1024 + index, half-band
set × 16 + index), and cross-fade writes committed for a boundary. -/
structure Mea where
  chans : Tbl MeaCh := []
  rsCoef : Tbl Int := []
  hbCoef : Tbl Int := []
  spareUsed : Bool := false
  deriving DecidableEq, Repr

/-! ### Source channels -/

/-- A play-list entry (R373). -/
structure PlEntry where
  kind : Nat
  flags : Nat
  wline : Nat
  sline : Nat
  obj : Nat
  count : Nat
  deriving DecidableEq, Repr

/-- A source channel (R357 to R377). `next` is the next vector; `cic` and `comb` are the interpolator's integrators and
combs, `sub` the vectors since the last sample; `cur` is the entry number (none once the list has ended), `rep` and `off`
the place in it; `waitFrom` is the first vector of a wait and `acted` the frame its line acted in; `acc`, `freq` and
`phase` are the tone slots, `origin` the vector of their origin, and `was` the FREQ words of earlier vectors of the step, each
with the first vector after them; `input` is the last modulator input; `levels` are the levels formed and not yet sent. -/
structure SrcCh where
  next : Nat := 0
  cic : List Int := [0, 0, 0]
  comb : List Int := [0, 0, 0]
  sub : Nat := 0
  list : List PlEntry := []
  cur : Option Nat := none
  rep : Nat := 0
  off : Nat := 0
  waitFrom : Option Nat := none
  acted : Option Nat := none
  acc : List Nat := [0, 0, 0, 0, 0, 0, 0, 0]
  freq : List Nat := [0, 0, 0, 0, 0, 0, 0, 0]
  phase : List Nat := [0, 0, 0, 0, 0, 0, 0, 0]
  freqSh : List (Nat × Nat) := []
  phaseSh : List (Nat × Nat) := []
  origin : Nat := 0
  was : List (Nat × List Nat) := []
  origins : List Nat := []
  input : Int := 0
  levels : List (Nat × Nat) := []
  deriving DecidableEq, Repr

/-- The source sections beside their registers: the low half of a FREQ write that waits for its high half (R381). -/
structure Src where
  chans : Tbl SrcCh := []
  freqLo : Nat := 0
  /-- Waveform segments in play (R367). -/
  inPlay : List Nat := []
  deriving DecidableEq, Repr

/-! ### Time channels -/

/-- A bin table (R408). -/
structure BinTab where
  accepted : Bool := false
  forced : Bool := false
  edited : Bool := false
  edges : Nat := 0
  time : Nat := 0
  temp : Int := 0
  prec : Nat := 65535
  stale : Bool := false
  /-- Reference periods at acceptance. -/
  since : Nat := 0
  w : Tbl Nat := []
  deriving DecidableEq, Repr

/-- A statistics block (R397); mean and M2 in 2^-16 fs. -/
structure StatBlock where
  k : Nat := 0
  mean : Int := 0
  m2 : Int := 0
  lo : Int := 0
  hi : Int := 0
  first : Nat := 0
  last : Nat := 0
  gap : Bool := false
  uncal : Bool := false
  deriving DecidableEq, Repr

/-- A time channel (R388 to R399): the open reference (stamp, UNCAL), the block, whether it forms no further values in the
step, the pin frames its function has taken, the flags its next records carry, what it has noticed, its latest result,
its bin table, whether the companion left the temperature range of the table, the last accepted table in the library's
system area, whether that one takes effect at the next START, and consecutive rejections. -/
structure TdcCh where
  open_ : Option (Nat × Bool) := none
  block : StatBlock := {}
  done : Bool := false
  taken : Nat := 0
  gapBefore : Bool := false
  droppedBefore : Bool := false
  badNoted : Bool := false
  staleNoted : Bool := false
  view : List Word := []
  table : BinTab := {}
  warm : Bool := false
  stored : Option BinTab := none
  coming : Bool := false
  rejects : Nat := 0
  deriving DecidableEq, Repr

/-- What a pin frame brings to the functions: an event (channel, stamp, polarity, UNCAL), or a loss on a group. -/
structure TdcItem where
  frame : Nat
  group : Nat
  evt : Option (Nat × Nat × Bool × Bool)
  deriving DecidableEq, Repr

/-- The time-code conversion: channels, items the functions still need, pin frames converted per group of the step, groups
whose last frame has been converted, and the calibration run of each group (channel mask, FORCE). -/
structure Tdc where
  chans : Tbl TdcCh := []
  items : List TdcItem := []
  seen : Tbl Nat := []
  fin : List Nat := []
  runs : Tbl (Option (Nat × Bool)) := []
  deriving DecidableEq, Repr

/-! ### Quadrille bus -/

/-- What a unit keeps of a peer (R441): turns missed in a row, and the role, READY and power state of its last heartbeat. -/
structure Peer where
  missed : Nat := 0
  role : Nat := 0
  ready : Bool := false
  power : Nat := 0
  deriving DecidableEq, Repr

/-- The Quadrille bus beside the QDR registers (R432 to R447): peers; MEMBERS of the last valid frame; consecutive valid
frames and the last COUNT with the own count it met; QT words to send (QT, cycle of the act, OFF) and the last cycle sent
per QT; QT acts to come (QT, instant); the slots driven in the present cycle; the cycle from which this unit leads; and
the turns of DEPARTING still to send. -/
structure Qdr where
  peers : Tbl Peer := []
  members : Nat := 0
  todRun : Nat := 0
  todCount : Nat := 0
  todOwn : Nat := 0
  qtOut : List (Nat × Nat × Nat) := []
  qtLast : Tbl (Option Nat) := []
  qtAct : List (Nat × Nat) := []
  driven : List (Nat × Nat) := []
  leadFrom : Option Nat := none
  departing : Nat := 0
  /-- Listening after a claim withdrawn (R445). -/
  backoff : Bool := false
  /-- Partners whose delay exceeds DELAY_MAX (R444), and partners with a delay measured. -/
  excluded : List Nat := []
  /-- JOINED, DEPARTED and WRITTEN_OFF of LG8 (R634). -/
  joined : Nat := 0
  gone : Nat := 0
  writtenOff : Nat := 0
  deriving DecidableEq, Repr

/-! ### Working memory -/

/-- Working memory beside its bytes and registers (R453 to R468): poisoned 32-byte units; granule sets of a stack whose
units read as poisoned until written (R468) with the units written since; the times of recent uncorrectable errors of a
pseudo-channel (stack × 32 + n); the injection armed (unit address, whether two symbols); and the copies into spares (stack,
pseudo-channel), the one that runs first. -/
structure Hbm where
  poison : Tbl Bool := []
  lostSets : List (Nat × Nat) := []
  healed : Tbl Bool := []
  errTimes : Tbl (List Nat) := []
  inject : Option (Nat × Bool) := none
  copies : List (Nat × Nat) := []
  deriving DecidableEq, Repr

/-! ### Site cores and dispatcher -/

/-- Where a task stands (R502, R508 to R513). -/
inductive TaskAt where
  | ready
  | slot (core : Nat)
  | running (core : Nat)
  | finished
  deriving DecidableEq, Repr

/-- A task that holds a slot: its descriptor, list, SEQ, the epoch of its acceptance, its place, the order in which it
started and ended, its flags, and its result. -/
structure Task where
  desc : List Byte
  flow : Nat
  list : Nat
  seq : Nat
  epoch : Word
  place : TaskAt := .ready
  started : Nat := 0
  ended : Nat := 0
  fromFlag : Bool := false
  resume : Bool := false
  preempted : Bool := false
  takenOver : Bool := false
  result : List Byte := []
  deriving DecidableEq, Repr

/-- A site core (R493 to R499, R516): its registers as far as the instructions of R496 reach them, its mode and trap
registers, its write buffer and the dirty and clean bytes of its cache, a TNEXT that waits with its rd, a PREEMPT that is
pending or taken, whether its overrun was counted, a takeover in progress, whether a spare stands in, and a debug halt. -/
structure Core where
  x : Tbl (BitVec 64) := []
  pc : BitVec 64 := 0
  user : Bool := false
  mie : BitVec 64 := 0
  statusMie : Bool := false
  statusMpie : Bool := false
  statusMpp : Bool := false
  mtvec : BitVec 64 := 0
  mepc : BitVec 64 := 0
  mcause : BitVec 64 := 0
  mtval : BitVec 64 := 0
  buffer : List (Nat × Byte) := []
  dirty : Tbl Byte := []
  clean : Tbl Byte := []
  waiting : Option Nat := none
  preempt : Bool := false
  trapTaken : Bool := false
  lateCounted : Bool := false
  takeover : Bool := false
  onSpare : Bool := false
  fenced : Bool := false
  halted : Bool := false
  /-- A halted core is let through one instruction (R662). -/
  stepping : Bool := false
  held : Bool := true
  deriving DecidableEq, Repr

/-- The dispatcher (R502 to R513): tasks by slot, ready lists with the head first, the list served last at each priority,
the next SEQ of each flow, a count that orders starts and ends, template descriptors by flag, the output ring of each
flow, and the cores. -/
structure Sched where
  tasks : Tbl (Option Task) := []
  ready : Tbl (List Nat) := []
  last : Tbl Nat := []
  seqs : Tbl Nat := []
  clock : Nat := 0
  templates : Tbl (List Byte) := []
  bases : Tbl Nat := []
  cores : Tbl Core := []
  deriving DecidableEq, Repr

/-! ### Network time -/

/-- What waits for the next reference period of a domain (R593). -/
inductive PtpPend where
  | step (ns : Int)
  | set (count : Nat)
  deriving DecidableEq, Repr

/-- A domain counter (R590, R591) in 2^-32 ns, its increment, VALID, and a STEP or SET that waits. -/
structure Domain where
  count : Nat := 0
  inc : Nat := 42949672960
  pend : Option PtpPend := none
  deriving DecidableEq, Repr

/-- Network time (R590 to R606): both domains, SOFFSET in 2^-32/125 ns (so that 1 ps is 2^29), and the BEAT count of the last
snapshot. -/
structure Ptp where
  a : Domain := {}
  b : Domain := {}
  soff : Int := 0
  snapBeat : Nat := 0
  deriving DecidableEq, Repr

/-! ### DMA -/

/-- A beat written and not yet in the good prefix (R537, R544): its bytes and its answer once it came. -/
structure DmaBeat where
  addr : Nat
  len : Nat
  answer : Option Bool := none
  deriving DecidableEq, Repr

/-- A MOVE in progress (R530): element length, source, destination, per level (COUNT, SSTEP, DSTEP), SWAP, REC, fixed
addresses (R536), the element and the byte in it that come next, and the beats not yet in the good prefix. -/
structure DmaMove where
  len : Nat
  src : Nat
  dst : Nat
  levels : List (Nat × Int × Int)
  swap : Nat := 0
  recd : Bool := false
  srcFixed : Bool := false
  dstFixed : Bool := false
  elem : Nat := 0
  off : Nat := 0
  beats : List DmaBeat := []
  deriving DecidableEq, Repr

/-- A completion record on its way to the ring (R539). -/
structure DmaRec where
  status : Nat
  final : Bool
  moved : Nat
  good : Nat
  addr : Nat
  pc : Nat
  /-- The epoch of the event (R59). -/
  epoch : Word := 0
  held : Bool := false
  deriving DecidableEq, Repr

/-- A run of a channel (R524 to R548): the fetched instructions (none in the simple form), its flags, the instruction in
force, the pattern of a LOOP, the MOVE in progress, whether it waits, bytes issued and good, how it ends once that is
decided (status, ADDR), and its records not yet written. -/
structure DmaRun where
  prog : List (List Byte) := []
  simple : Bool := false
  fallback : Bool := false
  safe : Bool := false
  rehosted : Bool := false
  vreason : Nat := 0
  pc : Nat := 0
  pattern : List (Nat × Int × Int) := []
  move : Option DmaMove := none
  waiting : Bool := false
  moved : Nat := 0
  good : Nat := 0
  ending : Option (Nat × Nat) := none
  recs : List DmaRec := []
  deriving DecidableEq, Repr

/-- The DMA engine (R523 to R549): runs, channels in the middle of a burst, the channel served last among the reserved and at
each priority, and engines that no longer stand by. -/
structure Dma where
  runs : Tbl (Option DmaRun) := []
  mid : List Nat := []
  lastRes : Nat := 31
  lastPrio : Tbl Nat := []
  used : List Nat := []
  deriving DecidableEq, Repr

/-! ### The whole -/

/-- The state of the device. -/
structure State where
  /-- Commands that wait, first in, first out. -/
  pending : List Instr := []
  /-- Reference periods since reset, and the free-value counter of the model. -/
  time : Nat := 0
  beat : Nat := 0
  freeIdx : Nat := 0
  /-- The registers, by register-space byte address; an unlisted register reads as its reset value. -/
  regs : Tbl Word := []
  /-- Shadows of S- and F-class fields: register address and the value held. -/
  shadowS : List (Nat × Word) := []
  shadowF : List (Nat × Word) := []
  /-- Memory space, by byte address; an unlisted byte reads as 0. -/
  mem : Tbl Byte := []
  ans : Ans := {}
  net : Net := {}
  flt : Collector := {}
  lgr : Ledgers := {}
  img : ImgState := {}
  pwr : Power := {}
  sec : Sec := {}
  dbg : Debug := {}

  tb : TimeBase := {}
  /-- Lanes, numbered 2g for lane A of group g and 2g + 1 for lane B. -/
  lanes : Tbl Lane := []

  seq : Seq := {}
  links : Tbl Link := []
  tst : Tbl Timing := []
  cmp : Compare := {}

  lib : Lib := {}

  trg : Trig := {}
  acq : Tbl AcqUnit := []
  mea : Mea := {}
  src : Src := {}
  tdc : Tdc := {}
  qdr : Qdr := {}

  hbm : Hbm := {}
  sch : Sched := {}
  ptp : Ptp := {}

  dma : Dma := {}
  deriving DecidableEq, Repr

/-- Why the device stops: nothing the spec describes stops it, so no command of the table raises a fault; the type is
empty (safe). -/
inductive Fault where
  deriving DecidableEq, Repr

/-- Why a command has no meaning in the model. -/
inductive Refusal where
  /-- A command whose meaning is not written yet; raised by its arm of the dispatch; safe. -/
  | notModelled (mnemonic : String)
  deriving DecidableEq, Repr

/-- The registers whose value after reset the map of `regReset` does not give (notes/assumptions/2.md): versions of the
firmware and microcode the module ships with, straps of a STANDALONE unit and what follows from them (R70, R75), the spare
pool at shipment, and every DMA channel on its own engine. -/
def resetRegs : Tbl Word :=
  [(Reg.SYS_FW_VER, 1), (Reg.TBF_CTRL, 6), (Reg.SEQ_UCODE_VER, 0x10004), (Reg.QDR_STRAP, 0x40), (Reg.LIB_POOL_INIT, 4096),
   (Reg.LIB_POOL_LEFT, 4096)] ++
  (List.range 31).map (fun c => (Reg.DMA_CH_STATUS (c + 1), wd (256 * (c + 1))))

/-- The digests of the firmware and of the microcode that the module ships with: what they are, the spec leaves open (free values 8 to 39;
notes/assumptions/45.md). -/
def shippedFw : List Word := (List.range 16).map (fun i => wd (Config.freeValue (8 + i)))
def shippedUcode : List Word := (List.range 16).map (fun i => wd (Config.freeValue (24 + i)))

/-- The machine right after reset: every register at its reset value, start-up complete without an image, the device in HOLD. -/
def State.reset : State :=
  { regs := resetRegs, freeIdx := 40, sec := { mFw := shippedFw, mUcode := shippedUcode } }

end Sys2Proof.Machine
end

