-- ==== Sys2Proof/Machine/Ops.lean ====
section
/-! DEFINITION. The named operations every block uses: reading and setting registers and fields, counters, memory by
bytes, free values, answers, event and fault records. -/

namespace Sys2Proof.Machine

open Sys2Proof

/-! ### Registers -/

/-- The stored value of the register at address `a`. -/
def rd (s : State) (a : Nat) : Word := tget regReset s.regs a

/-- The stored value of a register, as a number. -/
def rdN (s : State) (a : Nat) : Nat := (rd s a).toNat

/-- Field `hi:lo` of the register at `a`. -/
def rdFld (s : State) (a hi lo : Nat) : Nat := fld (rd s a) hi lo

/-- Bit `k` of the register at `a`. -/
def rdBit (s : State) (a k : Nat) : Bool := bit (rd s a) k

/-- Sets the register at `a`. -/
def setReg (a : Nat) (w : Word) (s : State) : State := { s with regs := tset regReset s.regs a w }

/-- Sets the register at `a` to a number, modulo 2^32. -/
def setRegN (a n : Nat) (s : State) : State := setReg a (wd n) s

/-- Sets field `hi:lo` of the register at `a`. -/
def setFld (a hi lo x : Nat) (s : State) : State := setReg a (putFld (rd s a) hi lo x) s

/-- Sets or clears bit `k` of the register at `a`. -/
def setBit (a k : Nat) (b : Bool) (s : State) : State := setFld a k k (b2n b) s

/-- Sets the bits of `mask` in a sticky event register. -/
def orReg (a mask : Nat) (s : State) : State := setReg a (rd s a ||| wd mask) s

/-- Counts up a 32-bit counter that wraps. -/
def incWrap (a k : Nat) (s : State) : State := setRegN a (add32 (rdN s a) k) s

/-- Counts up a 32-bit counter that saturates. -/
def incSat (a k : Nat) (s : State) : State := setRegN a (satAdd (rdN s a) k) s

/-- A 64-bit value held in two registers, low word first. -/
def rd64 (s : State) (a : Nat) : Nat := rdN s a + 4294967296 * rdN s (a + 4)

/-- Sets a 64-bit value in two registers, low word first. -/
def set64 (a n : Nat) (s : State) : State := setRegN (a + 4) (n / 4294967296) (setRegN a n s)

/-- Sets a run of registers from `a` up. -/
def setRegs (a : Nat) : List Word → State → State
  | [], s => s
  | w :: ws, s => setRegs (a + 4) ws (setReg a w s)

/-- The values of `n` registers from `a` up. -/
def rdRegs (s : State) (a : Nat) : Nat → List Word
  | 0 => []
  | n + 1 => rd s a :: rdRegs s (a + 4) n

/-! ### Memory by bytes -/

/-- What a byte of memory that nothing has written reads as (notes/assumptions/3.md). -/
def memDefault (_ : Nat) : Byte := 0

/-- The byte at memory address `a`. -/
def memByte (s : State) (a : Nat) : Byte := tget memDefault s.mem a

/-- The canonical form of memory: addresses strictly rising, and no entry equal to what an unlisted address reads as. -/
def Memory.wf (m : Tbl Byte) : Bool := Tbl.wf memDefault m

/-- Stores one byte. -/
def setByte (a : Nat) (b : Byte) (s : State) : State := { s with mem := tset memDefault s.mem a b }

/-- The `n` bytes from address `a` up. -/
def memBytes (s : State) (a n : Nat) : List Byte := tgetList memDefault s.mem a n

/-- A write that covers whole 32-byte units clears their poison (R462, R468). -/
def clearPoison (a n : Nat) (s : State) : State :=
  if s.hbm.poison.isEmpty && s.hbm.lostSets.isEmpty then s
  else
    let units := (List.range ((a + n) / 32 - ceilDiv a 32)).map (· + ceilDiv a 32)
    let h := s.hbm
    let h := { h with poison := units.foldl terase h.poison,
                      healed := if h.lostSets.isEmpty then h.healed
                        else units.foldl (fun t u => tset (fun _ => false) t u true) h.healed }
    setBit Reg.MEM_STATUS 8 (!(h.poison.isEmpty && h.lostSets.isEmpty)) { s with hbm := h }

/-- Stores bytes from address `a` up. -/
def setBytes (a : Nat) (bs : List Byte) (s : State) : State :=
  clearPoison a bs.length { s with mem := tsetList memDefault s.mem a bs }

/-- The little-endian number of `n` bytes at `a`. -/
def memN (s : State) (a n : Nat) : Nat := ofLeBytes (memBytes s a n)

/-- Stores the low `n` bytes of `v` at `a`, little-endian. -/
def setMemN (a n v : Nat) (s : State) : State := setBytes a (leBytes n v) s

/-- Stores words at `a`, little-endian. -/
def setMemWords (a : Nat) (ws : List Word) (s : State) : State := setBytes a (wordsToBytes ws) s

/-! ### Free values -/

/-- A value the spec leaves open, `n` bits wide: the next one of the opaque sequence `Config.freeValue`. -/
def freeNat (n : Nat) (s : State) : Nat × State :=
  (Config.freeValue s.freeIdx % 2 ^ n, { s with freeIdx := s.freeIdx + 1 })

/-! ### Library objects -/

/-- The system objects, which always exist (R470): what each reads as until it is written (notes/assumptions/13.md). -/
def objDefault (id : Nat) : Option LibObj :=
  if id = 0xFFFFFF00 ∨ id = 0xFFFFFF01 then some { typ := 5, length := 67108864, state := .sealed }
  else if id = 0xFFFFFF10 ∨ id = 0xFFFFFF11 then some { typ := 6, length := 0, state := .sealed }
  else if id = 0xFFFFFF20 then some { typ := 7, length := 0, state := .sealed }
  else none

/-- The object of an identifier, if the library holds it. -/
def objOf (s : State) (id : Nat) : Option LibObj := tget objDefault s.lib.objs id

/-- Sets the object of an identifier. -/
def setObj (id : Nat) (o : Option LibObj) (s : State) : State :=
  { s with lib := { s.lib with objs := tset objDefault s.lib.objs id o } }

/-- Changes an object that exists. -/
def modObj (id : Nat) (f : LibObj → LibObj) (s : State) : State :=
  match objOf s id with | some o => setObj id (some (f o)) s | none => s

/-! ### Power state, epoch, reference -/

/-- The epoch in force (R58). -/
def epochNow (s : State) : Word := rd s Reg.IMG_EPOCH

/-- The strapped role (R432, R433): 0 LEADER-CAPABLE, 1 MEMBER, 2 STANDALONE, 3 TEST; STANDALONE after a strap error. -/
def role (s : State) : Nat :=
  if rdFld s Reg.QDR_STRAP 9 8 ≠ 0 then 2 else rdFld s Reg.QDR_STRAP 6 5

/-- Whether the strapped role is STANDALONE or TEST. -/
def aloneRole (s : State) : Bool := decide (2 ≤ role s)

/-- Power state codes of SYS_STATE. -/
def inRun (s : State) : Bool := s.pwr.state == PowerState.run

/-- Whether the device is in HOLD. -/
def inHold (s : State) : Bool := s.pwr.state == PowerState.hold

/-- Whether a detach is in progress (R670). -/
def detaching (s : State) : Bool := rdFld s Reg.PWR_STATUS 10 8 != 0

/-! ### Answers to host requests -/

/-- Records the answer to the host request being executed. -/
def answer (code : Nat) (s : State) : State := { s with ans := { status := code } }

/-- Opens a command whose answer falls later. -/
def deferAnswer (k : OpenKind) (slot : Nat) (s : State) : State :=
  { s with ans := { deferred := true }, net := { s.net with openCmds := s.net.openCmds ++ [{ kind := k, slot := slot }] } }

/-! ### Records of events -/

/-- Adds records to the waiting records of a stream; an EVENT stream keeps the latest 4,096 (R578). -/
def Stream.push (t : Stream) (r : Rec) : Stream :=
  let rs := t.recs ++ [r]
  if rs.length ≤ 4096 then { t with recs := rs }
  else { t with recs := rs.drop (rs.length - 4096), dropped := true, nextIdx := t.nextIdx + (rs.length - 4096) }

/-- Puts a record on every stream that `p` selects. -/
def pushRec (p : Stream → Bool) (r : Rec) (s : State) : State :=
  { s with net := { s.net with streams := s.net.streams.map (fun t => if p t then t.push r else t) } }

/-- The owner's EVENT stream. -/
def isOwnerEvent (t : Stream) : Bool := t.kind == 2 && t.ofOwner

/-- The owner's TELEMETRY stream. -/
def isOwnerTelemetry (t : Stream) : Bool := t.kind == 1 && t.ofOwner

/-- The event record of R576. -/
def eventRecord (source num value : Nat) (s : State) : Rec :=
  { epoch := epochNow s,
    words := [wd (0x56 + source * 256 + num * 65536), epochNow s] ++ leWords 2 s.beat ++ leWords 2 value ++ [0, 0] }

/-- Puts an event record on the EVENT streams (R576). -/
def pushEvent (source num value : Nat) (s : State) : State :=
  pushRec (fun t => t.kind == 2) (eventRecord source num value s) s

/-! ### Faults -/

/-- Unit classes that R626 protects. -/
def protectedClass (uc : Nat) : Bool :=
  [0x01, 0x02, 0x03, 0x04, 0x05, 0x06, 0x07, 0x08, 0x09, 0x0A, 0x0B, 0x0C, 0x0D, 0x0E, 0x10, 0x11, 0x12, 0x14, 0x1F].contains uc

/-- Whether group `g` is enabled by the image. -/
def groupEnabled (s : State) (g : Nat) : Bool := (tget (fun _ => {}) s.img.active.groups g).enabled

/-- Both lanes of every enabled group in the merge, and neither held off (R628, fourth condition). -/
def lanesWhole (s : State) : Bool :=
  (List.range 16).all (fun g => !groupEnabled s g ||
    (rdFld s (Reg.LNK_FR_STATUS g) 3 2 == 3 && rdFld s (Reg.LNK_FR_XCTRL g) 1 0 == 0))

/-- The six conditions of R628, in order. -/
def guaranteeConds (s : State) : List Bool :=
  [ !rdBit s Reg.IMG_STATUS 5,
    rdBit s Reg.IMG_STATUS 6 && !s.flt.spareUsed,
    s.flt.oneCopy.isEmpty,
    lanesWhole s,
    s.net.port0.linked == 3 && s.net.port1.linked == 3 && rdBit s Reg.IMG_STATUS 7,
    !s.flt.badRecord ]

/-- Whether the single-fault guarantee is in force (R628, R629). -/
def inForce (s : State) : Bool := (guaranteeConds s).all id && !s.flt.broken

/-- A fault of the given class, unit class, unit and cause. -/
def mkFault (cls uc unit cause : Nat) : FaultRec := { cls := cls, unitClass := uc, unit := unit, cause := cause }

/-- A fault with its detail words. -/
def mkFaultD (cls uc unit cause d0 d1 : Nat) : FaultRec :=
  { cls := cls, unitClass := uc, unit := unit, cause := cause, detail0 := d0, detail1 := d1 }

/-- Whether two reports coalesce: the same unit, class and cause (R609). -/
def sameReport (a b : FaultRec) : Bool :=
  a.cls == b.cls && a.unitClass == b.unitClass && a.unit == b.unit && a.cause == b.cause

/-- Counts an event in the first report of a list that it coalesces with. -/
def coalesce (f : FaultRec) : List FaultRec → List FaultRec
  | [] => []
  | h :: t => if sameReport h f then { h with occ := h.occ + f.occ } :: t else h :: coalesce f t

/-- The record number in progress, for PARENT (R623). -/
def parentOf (c : Collector) : Nat := match c.handling with | some h => h.seq | none => 0xFFFFFFFF

/-- What an arriving report does to the guarantee: a covered C1 or C2 ends it until the next load (R629), as does any C2 that is not covered,
any C3 and any C4 (R628). -/
def breakGuarantee (f : FaultRec) (c : Collector) : Collector :=
  if 3 ≤ f.cls then { c with badRecord := true }
  else if f.covered then { c with broken := true }
  else if f.cls = 2 then { c with badRecord := true }
  else c

/-- Whether the units of a class are doubled, so that a second copy takes the index of its unit plus 0x100 (R624, R626). -/
def doubledClass (uc : Nat) : Bool := [0x02, 0x05, 0x06, 0x07, 0x08, 0x09, 0x0A, 0x0C, 0x0D].contains uc

/-- A record whose function has escalated loses COVERED (R621, R629). -/
def uncover (f r : FaultRec) : FaultRec :=
  if f.escalated ∧ r.unitClass = f.unitClass ∧ (r.unit = f.unit ∨ (doubledClass f.unitClass ∧ r.unit = f.unit + 0x100)) then
    { r with covered := false }
  else r

/-- The records not yet delivered lose COVERED when their function escalates. -/
def uncoverAll (f : FaultRec) (c : Collector) : Collector :=
  { c with handling := c.handling.map (uncover f), preempted := c.preempted.map (uncover f), queue := c.queue.map (uncover f),
           held := c.held.map (uncover f) }

/-- A report arrives at the collector (R609, R618 to R620): it is handled at once when the collector is idle, pre-empts a
record of lower class, is queued with NESTED otherwise, and stays on its line while the queue of 64 is full. -/
def arrive (f : FaultRec) (c : Collector) : Collector :=
  let c := uncoverAll f (breakGuarantee f c)
  match c.handling with
  | none => { c with handling := some { f with seq := c.nextSeq }, nextSeq := add32 c.nextSeq 1 }
  | some h =>
    if h.cls < f.cls then
      { c with handling := some { f with seq := c.nextSeq, parent := h.seq }, preempted := h :: c.preempted,
               nextSeq := add32 c.nextSeq 1 }
    else if c.queue.length < 64 then
      { c with queue := c.queue ++ [{ f with seq := c.nextSeq, nested := true, parent := h.seq }],
               nextSeq := add32 c.nextSeq 1 }
    else { c with held := c.held ++ [{ f with queueWait := true, nested := true, parent := h.seq }] }

/-- A unit raises its fault line (R609): events of a report still held on its line are coalesced into it; any other
report takes its epoch, its BEAT count and COVERED (R629), and arrives at the collector. -/
def raise (f : FaultRec) (s : State) : State :=
  if s.flt.held.any (fun h => sameReport h f) then
    { s with flt := { s.flt with held := coalesce f s.flt.held } }
  else
    let cov := decide (f.cls = 1 ∨ f.cls = 2) && protectedClass f.unitClass && inForce s
    let f := { f with epoch := epochNow s, beat := s.beat, covered := cov }
    let overflow := match s.flt.handling with
      | some h => decide (f.cls ≤ h.cls) && decide (64 ≤ s.flt.queue.length)
      | none => false
    let s := { s with flt := arrive f s.flt }
    if overflow then incSat Reg.FLT_Q_OVERFLOW 1 s else s

/-- Raises a list of faults in order. -/
def raiseAll (fs : List FaultRec) (s : State) : State := fs.foldl (fun s f => raise f s) s

/-- A notice raised at image selection, verification, admission or load (R624): unit 0 for IMG-A and 1 for IMG-B. -/
def imageNotice (slot detail : Nat) (s : State) : State := raise (mkFaultD 0 0x21 slot 0x0F detail 0) s

/-- The slot of the image in force. -/
def activeSlot (s : State) : Nat := rdFld s Reg.IMG_STATUS 4 4

/-- Marks a unit as running on one of its copies (R628, third condition). -/
def markOneCopy (uc unit : Nat) (s : State) : State :=
  { s with flt := { s.flt with oneCopy := s.flt.oneCopy ++ [(uc, unit)] } }

/-- Whether a unit already runs on one copy. -/
def onOneCopy (uc unit : Nat) (s : State) : Bool := s.flt.oneCopy.contains (uc, unit)

/-- Marks a spare as used (R628, second condition). -/
def useSpare (s : State) : State := { s with flt := { s.flt with spareUsed := true } }

/-- Fences a unit until the next reset (R622). -/
def fenceUnit (uc unit : Nat) (s : State) : State :=
  { s with flt := { s.flt with fenced := s.flt.fenced ++ [(uc, unit)] } }

/-- Whether a unit is fenced. -/
def isFenced (uc unit : Nat) (s : State) : Bool := s.flt.fenced.contains (uc, unit)

/-- What the two copies of a unit do at an operation, by the rule that R172, R302 and the rules citing them share: a
disagreement is judged again; a second one starts a known-answer test; on a single copy a fault is C3. -/
def copiesRun (uc unit : Nat) (c : Copies) (s : State) : State :=
  match c with
  | .agree => s
  | .retried =>
    if onOneCopy uc unit s then raise { mkFault 3 uc unit 0x0B with escalated := true } s
    else raise (mkFault 1 uc unit 0x03) s
  | .disagree =>
    if onOneCopy uc unit s then raise { mkFault 3 uc unit 0x0B with escalated := true } s
    else { s with flt := { s.flt with tests := s.flt.tests ++ [(uc, unit)] } }

end Sys2Proof.Machine
end

