-- ==== Sys2Proof/Machine/TimeBase.lean ====
section
/-! DEFINITION. The time base (R66 to R91): BEAT windows and qualification, BEAT loss and the switch to the crystal, the
return to BEAT, oscillator failure, slack monitors, the BEAT count latch and Pavane's missed periods. -/

namespace Sys2Proof.Machine

open Sys2Proof

/-- The smaller of 16 and the count of good windows in a row (R68). -/
def windowsNeeded : Nat := 16

/-- LNK_FR_STATUS.LEAD follows OUTSTANDING (R169). -/
def showLead (g : Nat) (s : State) : State :=
  setFld (Reg.LNK_FR_STATUS g) 15 8 (32 - rdN s (Reg.LNK_FR_OUTSTANDING g)) s

/-- A frame of group `g` that is built and not applied is written off as lost-and-reported (R73, R119, R154). -/
def writeOffGroup (g : Nat) (s : State) : State :=
  let l := tget (fun _ => {}) s.links g
  let k := (l.sent.filter (fun f => !f.applied && !f.lost)).length
  let l := { l with sent := l.sent.map (fun f => if f.applied || f.lost then f else { f with lost := true, resLost := true }) }
  let s := { s with links := tset (fun _ => {}) s.links g l }
  let s := incWrap (Reg.LNK_FR_LOST g) k s
  showLead g (setRegN (Reg.LNK_FR_OUTSTANDING g) (rdN s (Reg.LNK_FR_OUTSTANDING g) - k) s)

/-- Write-off in every group of the running step (R73). -/
def writeOffStep (s : State) : State :=
  match s.seq.step with
  | some st => st.groups.foldl (fun s g => writeOffGroup g s) s
  | none => s

/-- The bus state of QDR_STATUS (R452): 0 ALONE, 1 LISTEN, 2 WAIT_LEADER, 3 CLAIM, 4 MEMBER, 5 LEADER, 6 DEPARTED. -/
def busState (s : State) : Nat := rdFld s Reg.QDR_STATUS 2 0

/-- Sets the bus state. -/
def setBusState (code : Nat) (s : State) : State := setFld Reg.QDR_STATUS 2 0 code s

/-- XO_OK reads 1 until the oscillator fails (R76, R96). -/
def showXo (s : State) : State := setBit Reg.TBF_STATUS 3 (!s.tb.xoFailed) s

/-- Leaves Quadrille operation and begins listen-only (R72, R440, R444, R452); a STANDALONE or TEST unit stays alone. -/
def quadrilleListen (s : State) : State :=
  if aloneRole s then s
  else
    let s := { s with qdr := { s.qdr with todRun := 0, leadFrom := none, qtOut := [], driven := [], backoff := false } }
    setBusState 1 (setBit Reg.QDR_STATUS 22 false (setBit Reg.QDR_STATUS 21 false s))

/-- Listen-only starts once BEAT is qualified and in use (R444). -/
def joinBus (s : State) : State :=
  if busState s = 0 ∧ rdBit s Reg.TBF_STATUS 1 ∧ !(rdBit s Reg.TBF_STATUS 0) then quadrilleListen s else s

/-- The move of the time base to the crystal (R71). -/
def refToXo (s : State) : State :=
  if rdBit s Reg.TBF_STATUS 0 then s
  else
    let auto := decide (rdFld s Reg.TBF_CTRL 1 0 ≤ 1)
    incWrap Reg.TBF_SWITCH_COUNT 1 (orReg Reg.TBF_EVENTS 2
      (setBit Reg.TBF_STATUS 5 auto (setBit Reg.TBF_STATUS 0 true s)))

/-- REF_SEL takes effect (R70, R96): XO moves the time base to the crystal; HOLDOVER follows the policy. -/
def refPolicy (s : State) : State :=
  let s := if rdFld s Reg.TBF_CTRL 1 0 = 2 then refToXo s else s
  setBit Reg.TBF_STATUS 5 (rdBit s Reg.TBF_STATUS 0 && decide (rdFld s Reg.TBF_CTRL 1 0 ≤ 1)) s

/-- The class of a BEAT loss by power state (R73). -/
def beatLossClass (s : State) : Nat :=
  if rdFld s Reg.TBF_CTRL 1 0 = 2 then 0
  else match s.pwr.state with
    | .run => 3
    | .hold => 1
    | .standby => 1
    | .detached => 0
    | .off => 0

/-- The Ethernet transmit domains stop (R76): both links drop, and NET_PORT_STATUS says so. -/
def dropPorts (s : State) : State :=
  let s := { s with net := { s.net with port0 := { s.net.port0 with linked := 0 }, port1 := { s.net.port1 with linked := 0 } } }
  [Reg.NET_PORT_STATUS0, Reg.NET_PORT_STATUS1].foldl (fun s a => setBit a 31 false (setFld a 25 24 0 (setBit a 16 false s))) s

/-- The oscillator fails on the crystal (R76): a C3 that is latched, and no reference for the Ethernet transmit domains. -/
def xoLost (s : State) : State := dropPorts (raise { mkFault 3 0x17 0 0x09 with latched := true } s)

/-- BEAT is lost (R69, R71, R73): qualification clears, the time base moves to the crystal when BEAT was in use, and the
loss is classed; in RUN every frame built but not applied is written off. `present` says whether edges still arrive. With the
oscillator failed there is no fallback, and the failure is then one on the crystal (DEDUCED, notes/assumptions/51.md). -/
def beatLost (present : Bool) (s : State) : State :=
  let cls := beatLossClass s
  let bare := s.tb.xoFailed && !(rdBit s Reg.TBF_STATUS 0)
  let s := setBit Reg.TBF_STATUS 2 present (setBit Reg.TBF_STATUS 1 false s)
  let s := { s with tb := { s.tb with goodWindows := 0, returnAllowed := false } }
  let s := orReg Reg.TBF_EVENTS 1 s
  let s := if cls = 3 then writeOffStep s else s
  let s := raise (mkFault cls 0x16 0 0x08) (refToXo s)
  if bare then xoLost s else s

/-- XO_FAILURE (R76): C2 on BEAT; on the crystal a latched C3 that also stops the Ethernet transmit domains. -/
def xoFailure (s : State) : State :=
  let s := { s with tb := { s.tb with xoFailed := true } }
  let s := orReg Reg.TBF_EVENTS 8 (setBit Reg.TBF_STATUS 3 false s)
  if rdBit s Reg.TBF_STATUS 0 then xoLost s else raise (mkFault 2 0x17 0 0x09) s

/-- The good windows in a row start again. -/
def restartWindows (s : State) : State := { s with tb := { s.tb with goodWindows := 0 } }

/-- A good window (R68): after 16 in a row BEAT is qualified. While DETACH_N is low no unit qualifies BEAT anew. -/
def goodWindow (s : State) : State :=
  if !(s.pwr.detachN || rdBit s Reg.TBF_STATUS 1) then s
  else
    let n := min (s.tb.goodWindows + 1) windowsNeeded
    let s := { s with tb := { s.tb with goodWindows := n } }
    if n = windowsNeeded then joinBus (setBit Reg.TBF_STATUS 1 true s) else s

/-- BEAT_WINDOW_END: a measurement window of 1.024 ms ends with the measured offset in 0.001 ppm (R68, R69). A disagreement of more than
500 ppm with BEAT qualified is a failure of the oscillator, and once it has failed no window loses BEAT (R76). `gapOk` says that no gap
exceeded 15 ns, so that BEAT is present (R96). -/
def beatWindowEnd (ppm : Int) (gapOk : Bool) (s : State) : State :=
  let s := showXo (setRegN Reg.TBF_BEAT_PPM (twos 32 ppm) s)
  let s := if gapOk then setBit Reg.TBF_STATUS 2 true s else s
  let within := decide (ppm.natAbs ≤ 150000)
  let qualified := rdBit s Reg.TBF_STATUS 1
  if within && gapOk then goodWindow s
  else if within then (if qualified then s else restartWindows s)
  else if s.tb.xoFailed then (if qualified then s else restartWindows s)
  else if qualified && decide (500000 < ppm.natAbs) then xoFailure s
  else if qualified || rdBit s Reg.TBF_STATUS 2 then beatLost (rdBit s Reg.TBF_STATUS 2) s
  else restartWindows s

/-- Whether the reference may return to BEAT (R70, R72). -/
def mayReturnToBeat (s : State) : Bool :=
  rdBit s Reg.TBF_STATUS 0 && rdBit s Reg.TBF_STATUS 1 &&
  (s.pwr.state == .hold || s.pwr.state == .standby || s.pwr.state == .detached) &&
  (rdFld s Reg.TBF_CTRL 1 0 == 0 || (rdFld s Reg.TBF_CTRL 1 0 == 1 && s.tb.returnAllowed))

/-- RETURN_TO_BEAT: the reference returns to BEAT and the unit listens again on the Quadrille bus (R72). -/
def returnToBeat (s : State) : State :=
  if mayReturnToBeat s then
    let s := setBit Reg.TBF_STATUS 5 false (setBit Reg.TBF_STATUS 0 false s)
    let s := incWrap Reg.TBF_SWITCH_COUNT 1 (orReg Reg.TBF_EVENTS 4 s)
    quadrilleListen { s with tb := { s.tb with returnAllowed := false } }
  else s

/-- Slack in units of 0.01 % as a signed 16-bit value (R83). The rounding, toward minus infinity, and the clamp to 16 bits are the model's
(DESIGN CHOICE, notes/assumptions/52.md). -/
def slackOf (o : SlackObs) : Int :=
  clampInt (-32768) 32767 (((o.guaranteed : Int) - (o.measured : Int)) * 10000 / (o.guaranteed : Int))

/-- One monitor's window (R83 to R86): its register, the lowest slack of the step, the notice below the threshold once per
monitor and step, and the halt at 0 or less. -/
def slackMonitor (m : Nat) (slack : Int) (s : State) : State :=
  let s := setRegN (Reg.TBF_SLACK m) (twos 16 slack) s
  let s := if slack < sext 16 (rdN s Reg.TBF_SLACK_MIN) then
      setRegN Reg.TBF_SLACK_MIN (m * 65536 + twos 16 slack) s else s
  let s := if (match s.tb.slackLow with | some p => decide (slack < p.2) | none => true) then
      { s with tb := { s.tb with slackLow := some (m, slack) } } else s
  let s := if slack < (rdN s Reg.TBF_SLACK_WARN : Int) then
      let s := orReg Reg.TBF_EVENTS 16 s
      if s.tb.slackNoted.contains m then s
      else raise (mkFaultD 0 0x1D m 0x09 (twos 16 slack) 0) { s with tb := { s.tb with slackNoted := m :: s.tb.slackNoted } }
    else s
  if slack ≤ 0 then raise (mkFaultD 3 0x1D m 0x09 (twos 16 slack) 0) s else s

/-- The monitors of a window in order; `spare` is the slack of the spare engine (R171). -/
def slackMonitors (m : Nat) (spare : Int) : List SlackObs → State → State
  | [], s => s
  | o :: os, s =>
    let x := slackOf o
    slackMonitors (m + 1) spare os (slackMonitor m (if 16 ≤ m ∧ m < 24 ∧ spare < x then spare else x) s)

/-- TBF_STATUS.SLACK_WARN reads 1 while any monitor reads below TBF_SLACK_WARN (R85, R96), from the first window on. -/
def showSlackWarn (s : State) : State :=
  let warn := (List.range 32).any (fun m => decide (sext 16 (rdN s (Reg.TBF_SLACK m)) < (rdN s Reg.TBF_SLACK_WARN : Int)))
  setBit Reg.TBF_STATUS 4 (s.tb.slackSeen && warn) s

/-- SLACK_WINDOW_END: the 10.24 µs window of every monitor ends (R83 to R86). The last of the 33 replicas is the spare engine's: monitors 16
to 23 read the lower of their own engine's and the spare engine's (R171). -/
def slackWindowEnd (obs : List SlackObs) (s : State) : State :=
  let spare := slackOf (nth { guaranteed := 1, measured := 0 } obs 32)
  let s := slackMonitors 0 spare (obs.take 32) s
  showSlackWarn { s with tb := { s.tb with slackSeen := true } }

/-- The unit class under which a job of R90 is named in a notice. -/
def jobClass : PavaneJob → Nat
  | .scrub => 0x0E
  | .library => 0x12
  | .calibration => 0x08
  | .drift => 0x1C
  | .eyeScan => 0x10
  | .telemetry => 0x15

/-- PAVANE_PERIOD_MISS: a job misses its period (R90). -/
def pavanePeriodMiss (job : PavaneJob) (s : State) : State :=
  raise (mkFault 0 (jobClass job) 0 0x07) (orReg Reg.TBF_EVENTS 32 (incSat Reg.TBF_PAV_LATE 1 s))

/-! ### Meanings -/

/-- BEAT_WINDOW_END. -/
def execBeatWindowEnd (ppm : Int) (gapOk : Bool) (s : State) : Host.Outcome State Fault Refusal :=
  .next (beatWindowEnd ppm gapOk s)

/-- BEAT_LOSS: no edge within 20 ns of the previous one (R69). -/
def execBeatLoss (s : State) : Host.Outcome State Fault Refusal := .next (beatLost false s)

/-- RETURN_TO_BEAT. -/
def execReturnToBeat (s : State) : Host.Outcome State Fault Refusal := .next (returnToBeat s)

/-- XO_FAILURE. -/
def execXoFailure (s : State) : Host.Outcome State Fault Refusal := .next (xoFailure s)

/-- SLACK_WINDOW_END. -/
def execSlackWindowEnd (obs : List SlackObs) (s : State) : Host.Outcome State Fault Refusal :=
  .next (slackWindowEnd obs s)

/-- PAVANE_PERIOD_MISS. -/
def execPavanePeriodMiss (job : PavaneJob) (s : State) : Host.Outcome State Fault Refusal :=
  .next (pavanePeriodMiss job s)

end Sys2Proof.Machine
end

