-- ==== Sys2Proof/Machine/SeqOps.lean ====
section
/-! DEFINITION. What the sequence engines share (R170 to R213, R231 to R243): contexts, sites and groups of a context, the
sequence log, program and segment access, program errors, the decision gate, emission of vectors, and the resolution
of a pin frame's conditions. -/

namespace Sys2Proof.Machine

open Sys2Proof

/-! ### Contexts, sites and groups -/

/-- Context `c`. -/
def ctxOf (s : State) (c : Nat) : Ctx := tget (fun _ => {}) s.seq.ctxs c

/-- Replaces context `c`. -/
def setCtx (c : Nat) (x : Ctx) (s : State) : State :=
  { s with seq := { s.seq with ctxs := tset (fun _ => {}) s.seq.ctxs c x } }

/-- Changes context `c`. -/
def modCtx (c : Nat) (f : Ctx → Ctx) (s : State) : State := setCtx c (f (ctxOf s c)) s

/-- The link of group `g`. -/
def linkOf (s : State) (g : Nat) : Link := tget (fun _ => {}) s.links g

/-- Changes the link of group `g`. -/
def modLink (g : Nat) (f : Link → Link) (s : State) : State :=
  { s with links := tset (fun _ => {}) s.links g (f (linkOf s g)) }

/-- Site entry `n` of the image in force. -/
def siteOf (s : State) (n : Nat) : Site := tget (fun _ => {}) s.img.active.sites n

/-- Channel entry `ch` of the image in force. -/
def chanRole (s : State) (ch : Nat) : ChanRole := tget (fun _ => {}) s.img.active.chans ch

/-- Group header `g` of the image in force. -/
def groupRole (s : State) (g : Nat) : GroupRole := tget (fun _ => {}) s.img.active.groups g

/-- The site list of a context: the enabled sites that name it, in ascending number (R174). -/
def siteList (s : State) (c : Nat) : List Nat :=
  (List.range 128).filter (fun n => (siteOf s n).enabled && (siteOf s n).context == c)

/-- The channels of group `g` that site `n` holds, as a 32-bit mask. -/
def siteMask (s : State) (n g : Nat) : Nat := (siteOf s n).channels / 2 ^ (32 * g) % 2 ^ 32

/-- The channels of group `g` that context `c` drives, as a 32-bit mask (R173). -/
def ctxMask (s : State) (c g : Nat) : Nat := (siteList s c).foldl (fun m n => m ||| siteMask s n g) 0

/-- The groups that hold channels of context `c`, ascending. -/
def ctxGroups (s : State) (c : Nat) : List Nat := (List.range 16).filter (fun g => ctxMask s c g ≠ 0)

/-- The contexts among `cs` that drive channels of group `g`. -/
def groupCtxs (s : State) (cs : List Nat) (g : Nat) : List Nat := cs.filter (fun c => ctxMask s c g ≠ 0)

/-- The vector period in force for group `g`, in ticks. -/
def periodOf (s : State) (g : Nat) : Nat := rdFld s (Reg.TST_PERIOD g) 23 0

/-- The vector period of a context: that of its lowest group (R173). -/
def ctxPeriod (s : State) (c : Nat) : Nat := match ctxGroups s c with | g :: _ => periodOf s g | [] => 256

/-- The mode code in force for channel `ch` (R281). -/
def modeOf (s : State) (ch : Nat) : Nat :=
  rdFld s (Reg.TST_MODE (ch / 32) (ch % 32 / 8)) (4 * (ch % 8) + 2) (4 * (ch % 8))

/-- Whether a step runs (R16, R227): STARTING to ABORTING. -/
def stepRuns (s : State) : Bool := s.seq.step.isSome

/-- Whether group `g` takes part in the running step. -/
def groupInStep (s : State) (g : Nat) : Bool := match s.seq.step with | some st => st.groups.contains g | none => false

/-- Whether context `c` takes part in the running step. -/
def ctxInStep (s : State) (c : Nat) : Bool := match s.seq.step with | some st => st.ctxs.contains c | none => false

/-! ### Lanes and companions of a group -/

/-- The status register of lane A (0) or B (1) of a group. -/
def laneStatus (g l : Nat) : Nat := if l = 0 then Reg.LNK_PHY_STATUS_A g else Reg.LNK_PHY_STATUS_B g

/-- Whether a lane is ACTIVE (R131). -/
def laneActive (s : State) (g l : Nat) : Bool := rdFld s (laneStatus g l) 2 0 == 4

/-- Whether a group has an ACTIVE lane. -/
def groupActive (s : State) (g : Nat) : Bool := laneActive s g 0 || laneActive s g 1

/-- Whether channels of a group may be calibrated (R282). -/
def calEligible (s : State) (g : Nat) : Bool := !(groupInStep s g) && groupActive s g

/-- Puts a word of the companion map in the queue of map writes. -/
def queueMap (g addr val : Nat) (s : State) : State := modLink g (fun l => { l with mapQ := l.mapQ ++ [(addr, val)] }) s

/-- Puts words in the queue of map writes and shows that they are outstanding (R273, R293). -/
def queueMaps (g : Nat) (ws : List (Nat × Nat)) (s : State) : State :=
  setBit (Reg.TST_STATUS g) 15 true (modLink g (fun l => { l with mapQ := l.mapQ ++ ws }) s)

/-- Enters a change of the timing set of group `g` in its stream, in place of one at the same point (R198, R278). -/
def setInStream (d set g : Nat) (s : State) : State :=
  modLink g (fun l => { l with tsets := l.tsets.filter (fun e => e.1 != d) ++ [(d, set)] }) s

/-! ### Status registers of a context -/

/-- Code of SEQ_CTX_STATUS.STATE. -/
def ctxStateCode : CtxState → Nat
  | .idle => 0
  | .starting => 1
  | .running => 2
  | .resHold => 3
  | .waiting => 4
  | .ended => 5
  | .holdWait => 6
  | .error => 7
  | .fenced => 8

/-- Writes the loop entries of the loop stack, entry 0 at the bottom (R228). -/
def showLoops (c k : Nat) : List LoopEntry → State → State
  | [], s => s
  | e :: es, s =>
    showLoops c (k + 1) es (setRegN (Reg.SEQ_CTX_LCNT c k) (if e.endless then 0 else e.left)
      (setRegN (Reg.SEQ_CTX_LPC c k) (b2n e.endless * 2147483648 + e.body) s))

/-- Writes the return addresses of the call stack. -/
def showCalls (c k : Nat) : List Nat → State → State
  | [], s => s
  | a :: as, s => showCalls c (k + 1) as (setRegN (Reg.SEQ_CTX_CALL c k) a s)

/-- Writes the four banks of the compare mask. -/
def showMask (c m : Nat) (s : State) : State :=
  setRegs (Reg.SEQ_CTX_SMASK c 0) (leWords 4 m) s

/-- Refreshes the registers of context `c` that mirror its stream: STATE, depths, ARMED, JPEND, PC, vectors, stacks and
mask (R228). -/
def showCtx (c : Nat) (s : State) : State :=
  let x := ctxOf s c
  let a := Reg.SEQ_CTX_STATUS c
  let armed := match x.arms.getLast? with | some m => m.cond != 0 && m.ended.isNone | none => false
  let s := setFld a 3 0 (ctxStateCode x.state) s
  let s := setBit a 12 armed (setBit a 11 x.jump.isSome (setFld a 19 17 x.loops.length (setFld a 23 20 x.calls.length s)))
  let s := setRegN (Reg.SEQ_CTX_PC c) x.pc s
  let s := set64 (Reg.SEQ_CTX_VEC_LO c) x.emitted s
  let s := match x.jump with
    | some j => set64 (Reg.SEQ_CTX_JFRAME_LO c) j.frame (setRegN (Reg.SEQ_CTX_JPEND c) (2147483648 + j.target) s)
    | none => setFld (Reg.SEQ_CTX_JPEND c) 31 31 0 s
  showMask c x.mask (showCalls c 0 ((x.calls.reverse ++ List.replicate 8 0).take 8)
    (showLoops c 0 ((x.loops.reverse ++ List.replicate 4 ({ body := 0, left := 0, endless := false } : LoopEntry)).take 4) s))

/-! ### Sequence log -/

/-- Whether the record type is always logged (R212). -/
def alwaysLogged (t : Nat) : Bool := !([0x02, 0x04, 0x0A, 0x0D].contains t)

/-- The base address of the sequence-log ring. -/
def seqLogBase (s : State) : Nat := rd64 s Reg.SEQ_LOG_BASE_LO

/-- Writes a sequence-log record, or counts it lost while the ring is full (R211 to R213). -/
def seqLog (t c pc vector arg0 arg1 : Nat) (cut : Bool) (s : State) : State :=
  if alwaysLogged t || rdBit s Reg.SEQ_LOG_MASK t then
    let size := rdN s Reg.SEQ_LOG_SIZE
    let wr := rdN s Reg.SEQ_LOG_WR
    if sub32 wr (rdN s Reg.SEQ_LOG_RD) = size then
      let s := incWrap Reg.SEQ_LOG_LOST 1 s
      { s with seq := { s.seq with logLostBefore := true } }
    else
      let flags := b2n cut + 2 * b2n s.seq.logLostBefore
      let ws := [wd (t + 256 * c + 65536 * flags), epochNow s, rd s Reg.SEQ_STEP_COUNT, wd (pc % 16777216)] ++
        leWords 2 vector ++ [wd arg0, wd arg1]
      let s := setMemWords (seqLogBase s + 32 * (wr % size)) ws s
      let s := setRegN Reg.SEQ_LOG_WR (add32 wr 1) { s with seq := { s.seq with logLostBefore := false } }
      setBit Reg.SEQ_STATUS 9 (sub32 (rdN s Reg.SEQ_LOG_WR) (rdN s Reg.SEQ_LOG_RD) == size) s
  else s

/-! ### Programs, lists and segments -/

/-- The base address of an object while it is resident in HBM (R179, R203). -/
def residentBase (s : State) (id : Nat) : Option Nat := (objOf s id).bind (·.base)

/-- Whether an object is resident. -/
def isResident (s : State) (id : Nat) : Bool := (residentBase s id).isSome

/-- The program object of a context. -/
def progBase (s : State) (c : Nat) : Option Nat := residentBase s (rdN s (Reg.SEQ_CTX_PROG c))

/-- INSTR_COUNT of the program at `b`. -/
def instrCount (s : State) (b : Nat) : Nat := memN s (b + 0x08) 4

/-- The instruction word at address `a` of the program at `b` (R179). -/
def instrWord (s : State) (b a : Nat) : Nat := memN s (b + 0x40 + 8 * a) 8

/-- The object identifiers of list `n` in the index at byte offset `off` (R180). -/
def listAt (s : State) (b off n : Nat) : List Nat :=
  let o := memN s (b + off + 8 * n) 4
  let k := memN s (b + off + 8 * n + 4) 4
  (List.range k).map (fun i => memN s (b + o + 4 * i) 4)

/-- The objects of a residency list; none when the number is at or above RLIST_COUNT. -/
def residencyList (s : State) (b n : Nat) : Option (List Nat) :=
  if n = 0xFFFFF then some []
  else if n < memN s (b + 0x0C) 4 then some (listAt s b (memN s (b + 0x18) 8) n) else none

/-- The objects of a stage list; none when the number is at or above SLIST_COUNT. -/
def stageList (s : State) (b n : Nat) : Option (List Nat) :=
  if n = 0xFFFFF then some []
  else if n < memN s (b + 0x10) 4 then some (listAt s b (memN s (b + 0x20) 8) n) else none

/-- Whether an opcode emits vectors: PLAY, PLAYN, MATCH, WAITT, WAITTIME. -/
def emitting (op : Nat) : Bool := [0x01, 0x02, 0x09, 0x0A, 0x0B].contains op

/-- Whether the resident object at `b` is a pattern segment that meets R181 and R183. -/
def segValid (s : State) (b : Nat) : Bool :=
  memN s b 4 == 0x5347584B && memN s (b + 4) 2 == 1 && decide (32 ≤ memN s (b + 8) 4)

/-- LENGTH of the segment at `b`. -/
def segLen (s : State) (b : Nat) : Nat := memN s (b + 8) 4

/-- The 128 bits of vector `v` for group `g` of a segment: 4 bits per channel; a group not stored gives action 0b00 and
expect 0b11 on every channel (R182, R183). -/
def segVector (s : State) (id v g : Nat) : Nat :=
  match residentBase s id with
  | none => 0xCCCCCCCCCCCCCCCCCCCCCCCCCCCCCCCC
  | some b =>
    let groups := memN s (b + 6) 2
    if bitN groups g then
      let m := popcount 16 groups
      let i := popcount g groups
      memN s (b + 0x40 + 16 * m * v + 16 * i) 16
    else 0xCCCCCCCCCCCCCCCCCCCCCCCCCCCCCCCC

/-- A hold vector of one action code: that code and expect 0b11 on all 32 channels (R177). -/
def holdVector (act : Nat) : Nat := (12 + act % 4) * 0x11111111111111111111111111111111

/-- A vector with every expect code replaced by 0b11. -/
def noExpect (v : Nat) : Nat := v ||| 0xCCCCCCCCCCCCCCCCCCCCCCCCCCCCCCCC

/-- The codes of stream vector `p` of a context for group `g`; a vector past the stream is a hold vector (R208). -/
def streamVector (s : State) (c g p : Nat) : Nat :=
  let x := ctxOf s c
  let hold := holdVector (rdFld s (Reg.SEQ_CTX_CFG c) 3 2)
  match x.runs.find? (fun r => decide (r.first ≤ p) && decide (p < r.first + r.len)) with
  | some r =>
    match r.kind with
    | .seg id off => segVector s id (off + (p - r.first)) g
    | .hold a => holdVector a
    | .holdRepeat id v => noExpect (segVector s id v g)
  | none =>
    match x.lastVec with
    | some (id, v) => if rdBit s (Reg.SEQ_CTX_CFG c) 1 then noExpect (segVector s id v g) else hold
    | none => hold

/-- The compare mask in force at stream vector `p` (R201, R238). -/
def streamMask (x : Ctx) (p : Nat) : Nat :=
  match x.runs.find? (fun r => decide (r.first ≤ p) && decide (p < r.first + r.len)) with
  | some r => r.mask
  | none => x.mask

/-! ### The end of a step and program errors -/

/-- A micro-trap becomes pending on context `c` of the running step, whose routine it interrupts (R218). -/
def postTrap (cause c : Nat) (s : State) : State :=
  if ctxInStep s c then
    modCtx c (fun x => if x.microTraps.contains cause then x else { x with microTraps := x.microTraps ++ [cause] }) s
  else s

/-- The first stream position no emitted vector may reach for the decision gate (R231), the point of effect of an immediate
jump (R189) and an abort (R209), which wins over a jump (R226). -/
def emitLimit (s : State) (c : Nat) : Nat :=
  let x := ctxOf s c
  let gate := 64 * (x.resolved + 40)
  match x.stopAt, x.jump with
  | some n, _ => min gate n
  | none, some j => if rdBit s (Reg.SEQ_CTX_CFG c) 0 then gate else min gate (64 * (j.frame + 40))
  | none, none => gate

/-- Whether a BOUNDARY jump is due at stream position `p` (R189, R243). -/
def boundaryDue (s : State) (c p : Nat) : Bool :=
  match (ctxOf s c).stopAt, (ctxOf s c).jump with
  | none, some j => rdBit s (Reg.SEQ_CTX_CFG c) 0 && decide (64 * (j.frame + 40) ≤ p)
  | _, _ => false

/-- The frames sent by group `g` in the running step. -/
def framesSent (s : State) (g : Nat) : Nat := (linkOf s g).built

/-- Logs STAGE_DONE for the stage requests of a context whose objects are all resident (R200). -/
def stageDone (c : Nat) (s : State) : State :=
  let x := ctxOf s c
  let done := x.stageReq.filter (fun e => e.2.all (isResident s))
  let s := done.foldl (fun s e => seqLog 0x0A c x.pc (if ctxInStep s c then x.emitted else 0) e.1 0 false s) s
  let s := if done.isEmpty then s else postTrap 4 c s
  modCtx c (fun x => { x with stageReq := x.stageReq.filter (fun e => !(e.2.all (isResident s))) }) s

/-- The end of an aborted step in ticks from vector 0: the end of the next frame any group of it builds (R167, R209). -/
def abortTicks (s : State) (st : StepInfo) : Nat :=
  maxN (st.groups.map (fun g => 64 * (framesSent s g + 1) * periodOf s g))

/-- The contexts with stage requests note that an object has become resident (R200). -/
def stageDoneAll (s : State) : State :=
  (s.seq.ctxs.filter (fun e => !e.2.stageReq.isEmpty)).foldl (fun s e => stageDone e.1 s) s

/-- The number of vectors of period `n` that a step of `t` ticks holds. -/
def vectorsIn (t n : Nat) : Nat := max 1 (ceilDiv t n)

/-- The first `n` vectors of a list of runs. -/
def cutRuns (n : Nat) (rs : List Run) : List Run :=
  (rs.filter (fun r => decide (r.first < n))).map (fun r => { r with len := min r.len (n - r.first) })

/-- The stream of a context ends before its vector `n` (R209): what lies beyond it is not part of the step. A SIGNAL at the very end still
acts (R199). -/
def cutStream (n : Nat) (x : Ctx) : Ctx :=
  if x.emitted < n then x
  else
    { x with
      runs := cutRuns n x.runs, emitted := n, held := min x.held n,
      evts := x.evts.filter (fun e => decide (e.1 < n) || (e.1 == n && (match e.2 with | .signal _ _ _ => true | .startTrigger _ => false))),
      segStarts := x.segStarts.filter (fun e => decide (e.1 < n)),
      signals := if x.emitted = n then x.signals else [] }

/-- The last pin vector of a context in a step that ends at `t` ticks. -/
def lastVector (s : State) (t c : Nat) : Nat := vectorsIn t (ctxPeriod s c) - 1

/-- A pending jump is discarded and logged as JUMP_EXPIRED (R191, R209). -/
def expireJump (t c : Nat) (s : State) : State :=
  match (ctxOf s c).jump with
  | some j => modCtx c (fun x => { x with jump := none }) (seqLog 0x07 c (ctxOf s c).pc (lastVector s t c) j.target j.frame false s)
  | none => s

/-- Lets a context run to the end of an aborted step and no further (R209): its pending jump expires, and what it has emitted beyond the
LAST frame is not part of the step. -/
def stopContext (t : Nat) (s : State) (c : Nat) : State :=
  let n := vectorsIn t (ctxPeriod s c)
  showCtx c (modCtx c (fun x => { cutStream n x with stopAt := some n }) (expireJump t c s))

/-- Set changes after the boundary behind the LAST frame of group `g` are not part of the step (R209, R167). -/
def stopSets (t : Nat) (s : State) (g : Nat) : State :=
  let f := ceilDiv (vectorsIn t (periodOf s g)) 64
  modLink g (fun l => { l with tsets := l.tsets.filter (fun e => decide (ceilDiv (e.1 / 2) 64 ≤ f)) }) s

/-- The step is over (R208, R643): nothing is kept resident for it, acquisition units are idle, a Galop run ends, and the device
returns to HOLD. -/
def clearStep (st : StepInfo) (s : State) : State :=
  let s := st.ctxs.foldl (fun s c => modCtx c (fun x => { x with pinned := [], checkedLists := [] }) s) s
  let s := st.groups.foldl (fun s g => setBit (Reg.LNK_FR_STATUS g) 6 false s) s
  let s := (List.range 32).foldl (fun s a =>
    let k := rdFld s (Reg.ACQ_STATE a) 2 0
    if k = 1 ∨ k = 2 then setFld (Reg.ACQ_STATE a) 2 0 0 s else s) s
  let s := setRegN Reg.MEA_XF_COUNT 0 (setRegN Reg.MEA_XF_USE 0 (setRegN Reg.MEA_ENG_LOAD 0 (setRegN Reg.TDC_LOAD 0 s)))
  let s := setFld Reg.SEQ_STATUS 2 0 0 { s with seq := { s.seq with step := none, due := [] }, src := { s.src with inPlay := [] } }
  { s with pwr := { s.pwr with
      state := if s.pwr.state == .run then .hold else s.pwr.state,
      galopStep := false,
      galopRuns := s.pwr.galopRuns.map (fun r => if r.2.isNone then (r.1, some s.time) else r) } }

/-- Begins an abort of the running step (R209, R254): before the FIRST frame the step ends at once with its contexts IDLE;
otherwise the next frame built carries LAST. `arg` is ARG0 of the ABORT record. -/
def abortStep (arg : Nat) (s : State) : State :=
  match s.seq.step with
  | none => s
  | some st =>
    if st.aborted then s
    else if st.groups.all (fun g => framesSent s g == 0) then
      let s := st.ctxs.foldl (fun s c =>
        showCtx c (modCtx c (fun x => { x with state := if x.state == .error then .error else .idle, cur := none, jump := none })
          (seqLog 0x11 c (ctxOf s c).pc 0 arg 0 false s))) s
      clearStep st s
    else
      let t := abortTicks s st
      let t := match st.endTicks with | some e => min e t | none => t
      let s := { s with seq := { s.seq with step := some { st with aborted := true, abortArg := arg, endTicks := some t } } }
      let s := st.groups.foldl (stopSets t) (st.ctxs.foldl (stopContext t) s)
      setFld Reg.SEQ_STATUS 2 0 4 (st.ctxs.foldl (fun s c => postTrap 2 c s) s)

/-- The code of NOT_RESIDENT (R204, R210), which the fetch of a segment's vectors raises too. -/
def peNotResident : Nat := 0x08

/-- A program error (R210): the context enters ERROR with its code, the error is logged and noticed, and the step ends as
an abort does. -/
def programError (c code : Nat) (s : State) : State :=
  let x := ctxOf s c
  let s := seqLog 0x12 c x.pc x.emitted code 0 false s
  let s := setFld (Reg.SEQ_CTX_STATUS c) 31 24 code s
  let s := modCtx c (fun x => { x with state := .error, cur := none, endVec := x.emitted }) s
  let s := raise (mkFaultD 0 0x20 c 0x0F code x.pc) s
  showCtx c (abortStep 2 s)

/-! ### Emission -/

/-- The action codes of a hold vector of context `c` (R177). -/
def holdKind (s : State) (c : Nat) : RunKind :=
  match (ctxOf s c).lastVec with
  | some (id, v) => if rdBit s (Reg.SEQ_CTX_CFG c) 1 then .holdRepeat id v else .hold (rdFld s (Reg.SEQ_CTX_CFG c) 3 2)
  | none => .hold (rdFld s (Reg.SEQ_CTX_CFG c) 3 2)

/-- The run of a kind that begins `k` vectors later. -/
def RunKind.skip (k : Nat) : RunKind → RunKind
  | .seg id off => .seg id (off + k)
  | r => r

/-- Appends `n` vectors of one kind to a stream; signals waiting for a vector act at the first of them (R199). Vectors that the frame
builders hold already are not taken again, nor are the signals before them (R224). -/
def emitRun (c n : Nat) (k : RunKind) (s : State) : State :=
  if n = 0 then s
  else modCtx c (fun x =>
    let d := min n (x.held - x.emitted)
    { x with
      runs := if d < n then x.runs ++ [{ first := x.emitted + d, len := n - d, kind := k.skip d, mask := x.mask }] else x.runs,
      evts := if d = 0 then x.evts ++ x.signals.map (fun e => (x.emitted, e)) else x.evts,
      signals := [],
      lastVec := (match k with | .seg id off => some (id, off + n - 1) | _ => x.lastVec),
      emitted := x.emitted + n }) s

/-- A segment start at the present position (R192): the SEGSTART entry of its TMASTER groups, the start trigger, and the
SEG_START record; none of them is issued again after a takeover (R224). -/
def segStart (c seg rep : Nat) (line : Option Nat) (s : State) : State :=
  let x := ctxOf s c
  let s := setRegN (Reg.SEQ_CTX_SEG c) seg s
  if x.emitted < x.held then s
  else
    let s := modCtx c (fun x =>
      { x with
        segStarts := x.segStarts ++ [(x.emitted, seg)],
        evts := x.evts ++ (match line with | some l => [(x.emitted, StreamEvt.startTrigger l)] | none => []) }) s
    seqLog 0x02 c x.pc x.emitted seg rep false s

/-- The checkpoint that a context would write (R223). -/
def checkpointOf (x : Ctx) : Checkpoint :=
  { pc := x.pc, loops := x.loops, calls := x.calls, mask := x.mask, cur := x.cur, emitted := x.emitted, lastVec := x.lastVec,
    signals := x.signals }

/-- Context `c` writes its checkpoint (R223). -/
def writeCheckpoint (c : Nat) (s : State) : State := modCtx c (fun x => { x with check := checkpointOf x }) s

/-- Ends the instruction in progress: the context goes on at the next address. -/
def nextInstr (c : Nat) (s : State) : State :=
  writeCheckpoint c (modCtx c (fun x => { x with
    cur := none, pc := x.pc + 1, state := (if x.state == .waiting || x.state == .resHold then .running else x.state) }) s)

/-- Emits vectors of the instruction in progress, up to the limit of the decision gate and the points of effect. Each
round emits at least one vector or stops; `fuel` bounds the rounds. -/
def emitRounds (c : Nat) : Nat → State → State
  | 0, s => s
  | fuel + 1, s =>
    let x := ctxOf s c
    let room := emitLimit s c - x.emitted
    match x.cur with
    | none => s
    | some (.play seg len reps rep off line each) =>
      if room = 0 || (off == 0 && boundaryDue s c x.emitted) then s
      else
        let s := if off = 0 then segStart c seg rep (if rep = 0 || each then line else none) s else s
        let n := min room (len - off)
        let s := emitRun c n (.seg seg off) s
        if off + n < len then modCtx c (fun x => { x with cur := some (.play seg len reps rep (off + n) line each) }) s
        else if rep + 1 < reps then
          emitRounds c fuel (modCtx c (fun x => { x with cur := some (.play seg len reps (rep + 1) 0 line each) }) s)
        else nextInstr c s
    | some (.matching seg len maxrep off line toHalt reps) =>
      if room = 0 then s
      else if off = 0 && decide (maxrep ≤ reps.length) then
        -- the tail of hold vectors after the MAXREP-th repetition (R195)
        let fm := match reps.find? (fun r => r.matched == some true) with
          | some r => some (64 * (r.last / 64 + 40))
          | none => match reps.getLast? with
            | some r => if r.matched.isSome then some (64 * (r.last / 64 + 40)) else none
            | none => none
        let n := match fm with | some e => min room (e - x.emitted) | none => room
        emitRun c n (holdKind s c) s
      else if off = 0 &&
          (match reps.find? (fun r => r.matched == some true) with
           | some r => decide (64 * (r.last / 64 + 40) ≤ x.emitted) | none => false) then s
      else if off = 0 && boundaryDue s c x.emitted then s
      else
        let s := if off = 0 then segStart c seg reps.length line s else s
        let reps := if off = 0 then reps ++ [{ first := x.emitted, last := x.emitted + len - 1 }] else reps
        let n := min room (len - off)
        let s := emitRun c n (.seg seg off) s
        if off + n < len then modCtx c (fun x => { x with cur := some (.matching seg len maxrep (off + n) line toHalt reps) }) s
        else emitRounds c fuel (modCtx c (fun x => { x with cur := some (.matching seg len maxrep 0 line toHalt reps) }) s)
    | some (.waitt _line timeout _toHalt start acted) =>
      if x.emitted = start && boundaryDue s c x.emitted then s
      else
        let room := if timeout = 0 then room else min room (start + timeout - x.emitted)
        let room := match acted with | some f => min room (64 * (f + 40) - x.emitted) | none => room
        emitRun c room (holdKind s c) s
    | some (.waittime start count) =>
      if x.emitted = start && boundaryDue s c x.emitted then s
      else emitRun c (min room (start + count - x.emitted)) (holdKind s c) s
    | some (.resHold _ _ _ _) => s

/-- Whether a context is in a residency hold. -/
def inResHold (x : Ctx) : Bool := match x.cur with | some (.resHold _ _ _ _) => true | _ => false

/-- The hold vectors of a residency hold up to vector `n`, as far as the gate and the points of effect permit (R249). -/
def holdTo (c n : Nat) (s : State) : State :=
  let x := ctxOf s c
  if inResHold x && !x.takeover && !x.halted then showCtx c (emitRun c (min (emitLimit s c) n - x.emitted) (holdKind s c) s) else s

/-- The hold vectors of a residency hold that pin frame `f` needs: to the end of the frame (R249). They are emitted as
frames are built, so that the first pass begins at the first frame not yet emitted (R250). -/
def holdFrame (c f : Nat) (s : State) : State := holdTo c (64 * (f + 1)) s

/-- Whether a residency hold fills pin frame `f`, all before which is emitted. -/
def holdCovers (s : State) (c f : Nat) : Bool :=
  let x := ctxOf s c
  inResHold x && !x.takeover && !x.halted && decide (64 * f ≤ x.emitted) &&
  (decide (64 * (f + 1) ≤ emitLimit s c) ||
    (match x.stopAt with | some n => decide (n ≤ 64 * (f + 1)) && decide (n ≤ emitLimit s c) | none => false))

/-- Emits all that the gate permits; a context in takeover or halted by debug emits nothing. -/
def emitAll (c : Nat) (s : State) : State :=
  showCtx c (if (ctxOf s c).takeover || (ctxOf s c).halted then s else emitRounds c (64 * 42) s)

/-! ### Ending a context's part -/

/-- Ends a context's part of the step at the present position (R208). -/
def endContext (c : Nat) (st : CtxState) (s : State) : State :=
  modCtx c (fun x => { x with state := st, cur := none, endVec := x.emitted }) s

/-- Whether a context's part of the step has ended. -/
def ctxEnded (x : Ctx) : Bool := x.state == .ended || x.state == .holdWait || x.state == .error || x.state == .idle || x.state == .fenced

/-- Once every context of the step has ended, the end of the step is known: the last vector of the last context in time
(R208). -/
def settleEnd (s : State) : State :=
  match s.seq.step with
  | some st =>
    if st.endTicks.isNone && st.ctxs.all (fun c => ctxEnded (ctxOf s c)) then
      { s with seq := { s.seq with step := some { st with
          endTicks := some (maxN (st.ctxs.map (fun c => (ctxOf s c).endVec * ctxPeriod s c))) } } }
    else s
  | none => s

/-! ### Conditions of a pin frame -/

/-- The arm that evaluates pin frame `f` (R188, R238): the last one whose position lies before the frame's end and whose
span holds a vector of it. -/
def armFor (x : Ctx) (f : Nat) : Option (Nat × Arm) :=
  let idx := (List.range x.arms.length).zip x.arms
  let cands := idx.filter (fun ia =>
    let next := (x.arms[ia.1 + 1]?).map (·.pos)
    let lo := max ia.2.pos (64 * f)
    let hi := min (64 * (f + 1)) x.emitted
    let hi := match next with | some n => min hi n | none => hi
    decide (lo < hi))
  cands.getLast?

/-- Whether vector `v` follows the first matching repetition of its MATCH, so that it takes part in no condition (R245). -/
def afterMatch (x : Ctx) (v : Nat) : Bool :=
  x.ignored.any (fun r => decide (r.1 ≤ v) && decide (v ≤ r.2)) ||
  (match x.cur with
   | some (.matching _ _ _ _ _ _ reps) =>
     (match reps.find? (fun r => r.matched == some true) with | some r => decide (r.last < v) | none => false)
   | _ => false)

/-- The vectors that follow the first matching repetition of the MATCH in progress are noted as it ends (R245). -/
def noteIgnored (x : Ctx) : Ctx :=
  match x.cur with
  | some (.matching _ _ _ _ _ _ reps) =>
    (match reps.find? (fun r => r.matched == some true) with
     | some r => if r.last + 1 < x.emitted then { x with ignored := x.ignored ++ [(r.last + 1, x.emitted - 1)] } else x
     | none => x)
  | _ => x

/-- Whether a condition holds for pin frame `f` (R187). -/
def condHolds (s : State) (c : Nat) (x : Ctx) (a : Arm) (f : Nat) : Bool :=
  let inF := x.fails.filter (fun vf => decide (64 * f ≤ vf.1) && decide (vf.1 < 64 * (f + 1)) && !(afterMatch x vf.1))
  let sites := siteList s c
  match a.cond with
  | 1 => !inF.isEmpty
  | 2 =>
    let unmasked := (List.range sites.length).filter (fun i =>
      (List.range 64).any (fun v => decide (64 * f + v < x.emitted) && bitN (streamMask x (64 * f + v)) i))
    !unmasked.isEmpty && unmasked.all (fun i => inF.any (fun vf => vf.2 == i))
  | 3 => decide (a.arg < sites.length) && inF.any (fun vf => vf.2 == a.arg)
  | 4 => x.lineFrames.contains (f, a.arg % 64)
  | _ => false

/-- A jump that still counts against requests for frame `f` (R189, R239): the pending one, or one taken whose point of effect lies after
`f`; its target. -/
def standingJump (x : Ctx) (f : Nat) : Option Nat :=
  match x.jump, x.lastJump with
  | some j, _ => some j.target
  | none, some (fj, e, tgt) => if fj < f ∧ f < e then some tgt else none
  | none, none => none

/-- A request for frame `j.frame`, or a superseded one (R189, R239). -/
def makeRequest (c cond : Nat) (j : JumpReq) (s : State) : State :=
  let x := ctxOf s c
  match standingJump x j.frame with
  | some tgt => incWrap (Reg.SEQ_CTX_SUPERSEDED c) 1 (seqLog 0x06 c x.pc (64 * j.frame) j.target tgt false s)
  | none => seqLog 0x04 c x.pc (64 * j.frame) j.target cond false (modCtx c (fun x => { x with jump := some j }) s)

/-- A condition holds for frame `f` (R189, R239): arm `i` makes a request, and ends unless it stays. -/
def jumpRequest (c f : Nat) (i : Nat) (a : Arm) (s : State) : State :=
  let s := modCtx c (fun x => { x with arms := if a.stay then x.arms else x.arms.set i { a with ended := some f } }) (postTrap 1 c s)
  makeRequest c a.cond { frame := f, target := a.target, lpop := a.lpop, cpop := a.cpop } s

/-- The outcome of every MATCH repetition whose last vector lies in frame `f` (R194). -/
def resolveReps (x : Ctx) (f : Nat) (reps : List MatchRep) : List MatchRep :=
  reps.map (fun r =>
    if r.last / 64 = f ∧ r.matched.isNone then
      { r with matched := some (!(x.fails.any (fun vf => decide (r.first ≤ vf.1) && decide (vf.1 ≤ r.last)))) }
    else r)

/-- The conditions of pin frame `f` of a context are resolved (R231): the WAITT line, the MATCH outcomes, and the condition
of the arm that covers it; `valid` is false when the frame's results never arrived (R255). -/
def resolveFrame (c f : Nat) (valid : Bool) (s : State) : State :=
  let x := ctxOf s c
  let x := { x with resolved := f + 1 }
  let x := match x.cur with
    | some (.waitt line timeout toHalt start none) =>
      if valid && x.lineFrames.contains (f, line) && decide (start < 64 * (f + 1)) && decide (64 * f < x.emitted) then
        { x with cur := some (.waitt line timeout toHalt start (some f)) } else x
    | some (.matching seg len maxrep off line toHalt reps) =>
      if valid then { x with cur := some (.matching seg len maxrep off line toHalt (resolveReps x f reps)) } else x
    | _ => x
  let acts := match x.cur with | some (.waitt _ _ _ _ (some g)) => g == f | _ => false
  let s := setCtx c x s
  let s := if acts then postTrap 3 c s else s
  let s := if valid then
      match armFor x f with
      | some (i, a) =>
        if a.cond ≠ 0 && (match a.ended with | some e => decide (f ≤ e) | none => true) && condHolds s c x a f then jumpRequest c f i a s
        else s
      | none => s
    else s
  emitAll c s

end Sys2Proof.Machine
end

