-- ==== Sys2Proof/Machine/HostOps.lean ====
section
/-! DEFINITION. What every register write shares: the status codes (R21 and the block chapters), the order of refusals
(R11, R15, R18, R19), when a block runs, and the shadows of F- and S-class fields (R16, R17). -/

namespace Sys2Proof.Machine

open Sys2Proof

/-! ### Status codes -/

def stOk : Nat := 0x00
def stLocked : Nat := 0x01
def stNotOwner : Nat := 0x02
def stExpertOff : Nat := 0x03
def stRefusedFull : Nat := 0x04
def stBadAddr : Nat := 0x05
def stBadAuth : Nat := 0x06
def stLibRetired : Nat := 0x07
def stNotAdmitted : Nat := 0x08
def stStaleEpoch : Nat := 0x09
def stImgSlotActive : Nat := 0x40
def stNotInHold : Nat := 0x41
def stImgInvalid : Nat := 0x42
def stImgLoading : Nat := 0x43
def stImgBusy : Nat := 0x44
def stValueRange : Nat := 0x45
def stLaneBusy : Nat := 0x46
def stStepRunning : Nat := 0x47
def stEntryInvalid : Nat := 0x48
def stCalRefused : Nat := 0x49
def stXfadeFull : Nat := 0x4A
def stXfadeBusy : Nat := 0x4B
def stChainInvalid : Nat := 0x4C
def stSetInUse : Nat := 0x4D
def stWaveInPlay : Nat := 0x4E
def stMemProtected : Nat := 0x4F
def stMemPoison : Nat := 0x50
def stObjExists : Nat := 0x51
def stObjNotFound : Nat := 0x52
def stObjState : Nat := 0x53
def stLibFull : Nat := 0x54
def stObjPinned : Nat := 0x55
def stSchBadTask : Nat := 0x56
def stDmaBusy : Nat := 0x57
def stDmaBadDesc : Nat := 0x58
def stDmaFreeCh : Nat := 0x59
def stClaimStanding : Nat := 0x5A
def stHandoverFailed : Nat := 0x5B
def stNotOffered : Nat := 0x5C
def stRecoveryState : Nat := 0x5D
def stRcvInvalid : Nat := 0x5E
def stTimeStepRefused : Nat := 0x5F
def stFltHalted : Nat := 0x60
def stFltGrave : Nat := 0x61
def stPowerState : Nat := 0x62
def stSecState : Nat := 0x63
def stDebugActive : Nat := 0x64
def stTokenInvalid : Nat := 0x65
def stFuseFailed : Nat := 0x66
def stConfirmMismatch : Nat := 0x67
def stStageFailed : Nat := 0x68
def stLoadAbandoned : Nat := 0x69

/-! ### Blocks -/

/-- The block number of an address: its 64 KB block (R9). -/
def blockOf (a : Nat) : Nat := a / 0x10000

/-- The bit of SYS_EXPERT_EN that governs a block (R584). -/
def expertBit (b : Nat) : Nat :=
  if 0x10 ≤ b ∧ b < 0x20 then 3
  else if 0x20 ≤ b ∧ b < 0x24 then 4
  else if 0x30 ≤ b ∧ b < 0x40 then 5
  else match b with
  | 0x00 => 0 | 0x01 => 1 | 0x02 => 2 | 0x40 => 6 | 0x41 => 7 | 0x42 => 8 | 0x43 => 9 | 0x44 => 10 | 0x45 => 11
  | 0x46 => 12 | 0x50 => 13 | 0x51 => 14 | 0x52 => 15 | 0x53 => 16 | 0x60 => 17 | 0x61 => 18 | 0x62 => 19 | 0x63 => 20
  | 0x64 => 21 | 0x65 => 22 | 0x66 => 23 | 0x67 => 24
  | _ => 31

/-- Blocks whose chapter says that their expert half reads as 0 where it holds no register. -/
def blankExpertBlocks : List Nat :=
  [0x00, 0x01, 0x20, 0x21, 0x22, 0x23, 0x44, 0x46, 0x60, 0x61, 0x63, 0x65, 0x66, 0x67]

/-- Whether an address lies in an expert half (R10). -/
def inExpertHalf (a : Nat) : Bool := decide (0x8000 ≤ a % 0x10000)

/-- Whether an address is an unregistered word of an expert half that reads as 0. -/
def isBlank (a : Nat) : Bool := inExpertHalf a && blankExpertBlocks.contains (blockOf a) && (rowOf a).isNone

/-- Whether the expert half of the address's block is enabled (R11). -/
def expertOn (s : State) (a : Nat) : Bool := rdBit s Reg.SYS_EXPERT_EN (expertBit (blockOf a))

/-- Whether an address is mapped for a read (R561, R582, R584). -/
def mappedRead (s : State) (a : Nat) : Bool :=
  if s.pwr.recovery then
    (blockOf a == 0x00 || blockOf a == 0x65 || (blockOf a == 0x60 && !inExpertHalf a)) && ((rowOf a).isSome || isBlank a)
  else (rowOf a).isSome || isBlank a

/-- Whether an address is mapped for a write (R582, R584). -/
def mappedWrite (s : State) (a : Nat) : Bool :=
  mappedRead s a && !(s.pwr.recovery && blockOf a == 0x65)

/-- Whether a DMA channel is not IDLE, so that its L-class fields are locked (R524). -/
def dmaNotIdle (s : State) (c : Nat) : Bool := rdFld s (Reg.DMA_CH_STATUS c) 3 0 != 0

/-- Whether a DMA channel locks the L-class fields of the global part: it is neither IDLE nor FREE (R524; notes/assumptions/56.md). -/
def dmaRuns (s : State) (c : Nat) : Bool := dmaNotIdle s c && rdFld s (Reg.DMA_CH_STATUS c) 3 0 != 6

/-- Whether any launch queue holds posted descriptors not yet completed (R606). -/
def ptpRuns (s : State) : Bool :=
  rd s (Reg.PTP_LQ_WR 0) != rd s (Reg.PTP_LQ_RD 0) || rd s (Reg.PTP_LQ_WR 1) != rd s (Reg.PTP_LQ_RD 1)

/-- Whether the block that holds address `a` runs, so that its L-class fields are locked (R16). -/
def blockRuns (s : State) (a : Nat) : Bool :=
  let b := blockOf a
  let o := a % 0x10000
  if 0x10 ≤ b ∧ b < 0x20 then groupInStep s (b - 0x10)
  else if 0x30 ≤ b ∧ b < 0x40 then groupInStep s (b - 0x30)
  else if b = 0x51 then rdBit s Reg.LIB_STATUS 0
  else if b = 0x52 then rd s Reg.SCH_OUTSTANDING != 0
  else if b = 0x53 then
    if 0x1000 ≤ o ∧ o < 0x1800 then dmaNotIdle s ((o - 0x1000) / 0x40)
    else if 0x9000 ≤ o ∧ o < 0x9200 then dmaNotIdle s ((o - 0x9000) / 0x10)
    else (List.range 32).any (dmaRuns s)
  else if b = 0x61 then ptpRuns s
  else if (0x20 ≤ b ∧ b < 0x24) ∨ (0x40 ≤ b ∧ b ≤ 0x46) ∨ b = 0x50 then stepRuns s
  else false

/-! ### Refusals -/

/-- A session slot. -/
def sessOf (s : State) (k : Nat) : Session := tget (fun _ => {}) s.net.sess k

/-- Whether a slot holds an open session. -/
def sessOpen (s : State) (k : Nat) : Bool := (sessOf s k).phase == .opened

/-- Whether the session in slot `k` is the owner (R571). -/
def isOwner (s : State) (k : Nat) : Bool := s.net.owner == some k && sessOpen s k

/-- Whether a write of `v` targets an L-class field of the register: every L field that is not write-only, and a
write-only one when a bit of it is written 1. -/
def targetsLocked (r : RegRow) (v : Word) : Bool :=
  decide (r.maskL &&& (r.maskL ^^^ (r.maskL &&& r.maskWO)) ≠ 0) || decide (v.toNat &&& r.maskL &&& r.maskWO ≠ 0)

/-- The first refusal of R19 that a register write meets, then FLT_GRAVE under R615. -/
def refusalOf (q : Req) (a : Nat) (v : Word) (s : State) : Option Nat :=
  if !(q.authOk && sessOpen s q.slot.val) then some stBadAuth
  else if !(mappedWrite s a) then some stBadAddr
  else if !(isOwner s q.slot.val) then some stNotOwner
  else if q.epoch ≠ 0 ∧ q.epoch ≠ epochNow s then some stStaleEpoch
  else if inExpertHalf a && !(expertOn s a) then some stExpertOff
  else if (match rowOf a with | some r => targetsLocked r v | none => false) && blockRuns s a then some stLocked
  else if s.flt.grave && a ≠ Reg.FLT_ALERT then some stFltGrave
  else none

/-- Runs `k` when a register write meets no refusal of R19; otherwise the write is answered with the refusal and changes
nothing. -/
def guarded (q : Req) (a : Nat) (v : Word) (k : State → State) (s : State) : State :=
  match refusalOf q a v s with
  | some code => answer code s
  | none => k s

/-- Refuses with a code when a condition holds. -/
def refuseIf (bad : Bool) (code : Nat) (k : State → State) (s : State) : State :=
  if bad then answer code s else k s

/-- Runs `k` when a read of a mapped register comes in an open session under the epoch in force; otherwise the read is refused
(R19, R60, R561). -/
def guardedRead (q : Req) (a : Nat) (k : State → State) (s : State) : State :=
  if !(q.authOk && sessOpen s q.slot.val) then answer stBadAuth s
  else if !(mappedRead s a) then answer stBadAddr s
  else if q.epoch ≠ 0 ∧ q.epoch ≠ epochNow s then answer stStaleEpoch s
  else k s

/-- Answers a read with one word. -/
def answerData (w : Word) (s : State) : State := { s with ans := { status := stOk, done := 1, data := [w] } }

/-! ### Shadows -/

/-- The unit whose START an S-class field waits for (R16). -/
inductive FieldUnit where
  | group (g : Nat)
  | channel (c : Nat)
  | context (c : Nat)
  | acq (a : Nat)
  | other
  deriving DecidableEq, Repr

/-- The unit that a register belongs to. -/
def fieldUnit (a : Nat) : FieldUnit :=
  let b := blockOf a
  let o := a % 0x10000
  if 0x10 ≤ b ∧ b < 0x20 then .group (b - 0x10)
  else if 0x30 ≤ b ∧ b < 0x40 then .group (b - 0x30)
  else if b = 0x21 ∧ o < 0x8000 then .context (o / 0x200)
  else if b = 0x40 ∧ 0x2000 ≤ o ∧ o < 0x2800 then .context ((o - 0x2000) / 0x20)
  else if b = 0x41 ∧ 0x1000 ≤ o ∧ o < 0x5000 then .channel ((o - 0x1000) / 0x20)
  else if b = 0x41 ∧ 0x9000 ≤ o ∧ o < 0xD000 then .channel ((o - 0x9000) / 0x20)
  else if b = 0x42 ∧ 0x1000 ≤ o ∧ o < 0x5000 then .channel ((o - 0x1000) / 0x20)
  else if b = 0x42 ∧ 0x5000 ≤ o ∧ o < 0x6000 then .channel ((o - 0x5000) / 0x8)
  else if b = 0x42 ∧ 0x8000 ≤ o ∧ o < 0x8040 then .group ((o - 0x8000) / 4)
  else if b = 0x43 ∧ 0x1000 ≤ o ∧ o < 0x5000 then .channel ((o - 0x1000) / 0x20)
  else if b = 0x45 ∧ 0x1000 ≤ o ∧ o < 0x3000 then .acq ((o - 0x1000) / 0x100)
  else if b = 0x45 ∧ 0x8000 ≤ o ∧ o < 0x8080 then .acq ((o - 0x8000) / 4)
  else .other

/-- The group whose frame boundaries an F-class field waits for: for a detector, that of the channel it watches; none for MEA_SYNC_LINE,
which acts at the first boundary of any group (DESIGN CHOICE, notes/assumptions/50.md). -/
def fieldGroup (s : State) (a : Nat) : Option Nat :=
  match fieldUnit a with
  | .group g => some g
  | .channel c => some (c / 32)
  | .acq u => some (rdFld s (Reg.ACQ_DET_CH u) 8 0 / 32)
  | _ => none

/-- Puts a value in a shadow list in place of an earlier one for the same register (R17). -/
def putShadow (a : Nat) (v : Word) (l : List (Nat × Word)) : List (Nat × Word) := l.filter (fun e => e.1 != a) ++ [(a, v)]

/-- Holds a write of an S-class register in its shadow. -/
def shadowSet (a : Nat) (v : Word) (s : State) : State := { s with shadowS := putShadow a v s.shadowS }

/-- Holds a write of an F-class register in its shadow. -/
def shadowFset (a : Nat) (v : Word) (s : State) : State := { s with shadowF := putShadow a v s.shadowF }

/-- The fields of a class that a register holds, as a mask. -/
def maskOfS (a : Nat) : Word := match rowOf a with | some r => wd r.maskS | none => 0

/-- The F-class fields of a register, as a mask. -/
def maskOfF (a : Nat) : Word := match rowOf a with | some r => wd r.maskF | none => 0

/-- The I-class fields of a register that can be read back, as a mask. -/
def maskOfI (a : Nat) : Word := match rowOf a with | some r => wd r.maskI &&& ~~~ wd r.maskWO | none => 0

/-- The L-class fields of a register that can be read back, as a mask. -/
def maskOfL (a : Nat) : Word := match rowOf a with | some r => wd r.maskL &&& ~~~ wd r.maskWO | none => 0

/-- Applies a list of shadow entries under the mask `m`. -/
def applyShadows (m : Nat → Word) : List (Nat × Word) → State → State
  | [], s => s
  | (a, v) :: es, s => applyShadows m es (setReg a (mergeMask (rd s a) v (m a)) s)

/-- The value an S-class register has after the shadows that `p` selects are applied. -/
def afterS (s : State) (p : Nat → Bool) (a : Nat) : Word :=
  match s.shadowS.find? (fun e => e.1 == a && p e.1) with
  | some e => mergeMask (rd s a) e.2 (maskOfS a)
  | none => rd s a

/-- Applies the S-class shadows of the registers that `p` selects (R16). -/
def applyS (p : Nat → Bool) (s : State) : State :=
  applyShadows maskOfS (s.shadowS.filter (fun e => p e.1)) { s with shadowS := s.shadowS.filter (fun e => !p e.1) }

/-- Whether an S-class write takes effect at once: the field belongs to no unit and no step runs (R16). -/
def atOnce (s : State) (a : Nat) : Bool := fieldUnit a == .other && !stepRuns s

/-- Writes the fields of a register by class: I and L fields at once, W1C bits cleared, F and S fields into their
shadows, an S field of no unit at once while no step runs, in place of what its shadow held (R14, R16, R17). -/
def writeByClass (a : Nat) (v : Word) (s : State) : State :=
  match rowOf a with
  | none => s
  | some r =>
    let s := setReg a (mergeMask (rd s a) v (maskOfI a ||| maskOfL a) &&& ~~~ (v &&& wd r.maskC)) s
    let s := if r.maskF = 0 then s else shadowFset a v s
    if r.maskS = 0 then s
    else if atOnce s a then setReg a (mergeMask (rd s a) v (wd r.maskS)) { s with shadowS := s.shadowS.filter (fun e => e.1 != a) }
    else shadowSet a v s

/-- A register write that is accepted: its fields act by class and it is answered OK. -/
def accept (a : Nat) (v : Word) (s : State) : State := answer stOk (writeByClass a v s)

end Sys2Proof.Machine
end

