-- ==== Sys2Proof/Machine/Trigger.lean ====
section
/-! DEFINITION. Trigger lines and the matrix (R413 to R421): instants on the 625 ps grid, scheduled direct events, the
assertions of sources, the function and the level of a line, and TRG_FIRE and the line selectors. -/

namespace Sys2Proof.Machine

open Sys2Proof

/-! ### Instants -/

/-- Ticks per BEAT period (R3: a tick is 2.44140625 ps). -/
def ticksPerBeat : Nat := 4096

/-- Ticks per step of the 625 ps grid. -/
def ticksPerGrid : Nat := 256

/-- STEPTIME of the current or last step in ticks of the BEAT count. -/
def stepOrigin (s : State) : Nat := rd64 s Reg.SEQ_STEPTIME_LO * ticksPerBeat

/-- Whether a step runs whose STEPTIME is set (R207). -/
def stepBegun (s : State) : Bool := match s.seq.step with | some st => st.steptime.isSome | none => false

/-- The pin instant of a vector of period `n`, rounded down to the 625 ps grid (R416). -/
def vectorGrid (s : State) (n v : Nat) : Nat := (stepOrigin s + v * n) / ticksPerGrid

/-- The first BEAT edge at or after a grid instant, as a grid instant. -/
def edgeAt (t : Nat) : Nat := ceilDiv t 16 * 16

/-- Schedules a direct event on a line (R416). -/
def postDirect (line t : Nat) (s : State) : State :=
  { s with trg := { s.trg with direct := s.trg.direct ++ [(t, line)] } }

/-- Drops assertions that no line can still see: 64 lines in a chain lag by less than 2^23 steps of the grid. -/
def pruneBefore (t : Nat) (l : List Asserted) : List Asserted :=
  l.filter (fun a => match a.upto with | some u => decide (t < u + 8388608) | none => true)

/-- Records that a matrix source asserts from `since` up to and including `upto` (R418). -/
def assertSrc (code since : Nat) (upto : Option Nat) (s : State) : State :=
  { s with trg := { s.trg with srcs := pruneBefore since s.trg.srcs ++ [{ code := code, since := since, upto := upto }] } }

/-- An event source asserts from its instant up to and including the first BEAT edge at or after it (R418). -/
def assertEvent (code t : Nat) (s : State) : State := assertSrc code t (some (edgeAt t)) s

/-- Ends an assertion that still holds, at the instant before `t`. -/
def releaseSrc (code t : Nat) (s : State) : State :=
  { s with trg := { s.trg with srcs := s.trg.srcs.map (fun a =>
      if a.code == code && a.upto.isNone then { a with upto := some (t - 1) } else a) } }

/-- Whether an assertion covers instant `t`. -/
def Asserted.covers (a : Asserted) (t : Nat) : Bool :=
  decide (a.since ≤ t) && (match a.upto with | some u => decide (t ≤ u) | none => true)

/-! ### Lines -/

/-- Whether a line is ENABLED (R421). -/
def lineEnabled (s : State) (l : Nat) : Bool := rdBit s (Reg.TRG_LINE_CFG l) 2

/-- EDGE of a line. -/
def lineEdge (s : State) (l : Nat) : Bool := rdBit s (Reg.TRG_LINE_CFG l) 1

/-- DELAY of a line, in steps of the grid. -/
def lineDelay (s : State) (l : Nat) : Nat := rdFld s (Reg.TRG_LINE_DELAY l) 15 0

/-- The selectors of a line that do not hold NONE: source code and INV (R417). -/
def lineSelectors (s : State) (l : Nat) : List (Nat × Bool) :=
  let w01 := Reg.TRG_LINE_SRC01 l
  let w23 := Reg.TRG_LINE_SRC23 l
  let cfg := Reg.TRG_LINE_CFG l
  ([(rdFld s w01 9 0, rdBit s cfg 4), (rdFld s w01 25 16, rdBit s cfg 5),
    (rdFld s w23 9 0, rdBit s cfg 6), (rdFld s w23 25 16, rdBit s cfg 7)]).filter (fun e => e.1 != 0x3FF)

mutual
/-- The level of line `l` at instant `t`: its matrix output with EDGE = 0, or the pulse of an act (R413, R417). -/
def lineOn (s : State) : Nat → Nat → Nat → Bool
  | 0, _, _ => false
  | fuel + 1, l, t =>
    s.trg.pulses.any (fun a => a.code == l && a.covers t) ||
    (lineEnabled s l && !(lineEdge s l) && decide (16 + lineDelay s l ≤ t) && lineFunc s fuel l (t - 16 - lineDelay s l))

/-- The function of line `l` at instant `t` (R417); a line without selectors has none. -/
def lineFunc (s : State) : Nat → Nat → Nat → Bool
  | 0, _, _ => false
  | fuel + 1, l, t =>
    let sel := lineSelectors s l
    let value := fun (e : Nat × Bool) =>
      (if e.1 < 0x40 then lineOn s fuel e.1 t else s.trg.srcs.any (fun a => a.code == e.1 && a.covers t)) != e.2
    if sel.isEmpty then false
    else if rdBit s (Reg.TRG_LINE_CFG l) 0 then sel.all value
    else sel.any value
end

/-- The level of a line; a line selects only lower lines, so 128 rounds reach every source. -/
def lineLevel (s : State) (l t : Nat) : Bool := lineOn s 130 l t

/-- Whether the matrix output of line `l` rises at instant `t`. -/
def matrixRise (s : State) (l t : Nat) : Bool :=
  let lag := 16 + lineDelay s l
  lineEnabled s l && decide (lag ≤ t) && lineFunc s 130 l (t - lag) &&
    (decide (t = lag) || !(lineFunc s 130 l (t - lag - 1)))

/-- Whether a source code may stand in a selector of line `l` (R418). -/
def selectorOk (l code : Nat) : Bool :=
  decide (code = 0x3FF) || (decide (code < 0x40) && decide (code < l)) || (decide (0x40 ≤ code) && decide (code ≤ 0x160))

/-- Whether both selectors of a TRG_LINE_SRC register value may stand in line `l`. -/
def selectorsOk (l : Nat) (v : Word) : Bool := selectorOk l (fld v 9 0) && selectorOk l (fld v 25 16)

/-! ### TRIGROUTE -/

/-- One record of TRIGROUTE as loaded (R421): the four registers of the line's window, and whether it was dropped. -/
def routeRecord (l : Nat) (bs : List Byte) : List Word × Bool :=
  let w := fun k n => ofLeBytes ((bs.drop k).take n)
  let srcs := [w 0 2, w 2 2, w 4 2, w 6 2]
  let bad := srcs.any (fun c => decide (1024 ≤ c) || !(selectorOk l c))
  let fl := w 8 1
  let cfg := (if bad then fl - fl / 4 % 2 * 4 else fl) % 256
  ([wd (nth 0 srcs 0 % 1024 + 65536 * (nth 0 srcs 1 % 1024)), wd (nth 0 srcs 2 % 1024 + 65536 * (nth 0 srcs 3 % 1024)),
    wd (cfg - cfg / 8 % 2 * 8 + 65536 * w 0xA 2), wd (w 0xC 2)], bad)

/-- Loads TRIGROUTE into the line windows (R421, R449). -/
def loadRoute (l : Nat) : Nat → List Byte → State → State
  | 0, _, s => s
  | k + 1, bs, s =>
    let (ws, bad) := routeRecord l (bs.take 16)
    let s := setRegs (Reg.TRG_LINE_SRC01 l) ws s
    loadRoute (l + 1) k (bs.drop 16) (if bad then orReg Reg.TRG_EVENTS 2 s else s)

/-- Applies the TRIGROUTE section of an image: ROUTE_DROPPED and one notice when any record was dropped (R421). -/
def applyRoute (bs : List Byte) (s : State) : State :=
  let dropped := (List.range 64).find? (fun l => (routeRecord l ((bs.drop (16 * l)).take 16)).2)
  let s := loadRoute 0 64 bs s
  match dropped with
  | some l => imageNotice (activeSlot s) l s
  | none => s

/-! ### Meanings -/

/-- TRG_FIRE: a direct event at the BEAT edge at which the write is applied (R416). -/
def execTrgFire (q : Req) (value : Word) (s : State) : Host.Outcome State Fault Refusal :=
  .next (guarded q Reg.TRG_FIRE value (fun s => answer stOk (postDirect (fld value 5 0) (16 * s.beat) s)) s)

/-- The address of a selector register of line `l`. -/
def lineSrcAddr (l : Nat) (hi : Bool) : Nat := if hi then Reg.TRG_LINE_SRC23 l else Reg.TRG_LINE_SRC01 l

/-- A write of a line's selectors, refused whole when either may not stand there (R450). -/
def lineSrcWrite (l : Nat) (hi : Bool) (value : Word) (s : State) : State :=
  refuseIf (!(selectorsOk l value)) stValueRange (accept (lineSrcAddr l hi) value) s

/-- LINE_SRC_WRITE. -/
def execLineSrcWrite (q : Req) (l : Fin 64) (hi : Bool) (value : Word) (s : State) : Host.Outcome State Fault Refusal :=
  .next (guarded q (lineSrcAddr l hi) value (lineSrcWrite l hi value) s)

end Sys2Proof.Machine
end

