-- ==== Sys2Proof/Machine/Measure.lean ====
section
/-! DEFINITION. Measure channels (R318 to R355): coefficient sets, chain building, the arithmetic of the CIC, half-band and
resampler stages, intake, cross-fades, resets, admission, and the register commands of the MEA block. -/

namespace Sys2Proof.Machine

open Sys2Proof

/-- Measure channel `c`. -/
def meaCh (s : State) (c : Nat) : MeaCh := tget (fun _ => {}) s.mea.chans c

/-- Changes measure channel `c`. -/
def modMea (c : Nat) (f : MeaCh → MeaCh) (s : State) : State :=
  { s with mea := { s.mea with chans := tset (fun _ => {}) s.mea.chans c (f (meaCh s c)) } }

/-! ### Coefficient sets -/

/-- Whether a resampler set can be selected (R330). -/
def rsSelectable (k : Nat) : Bool := decide (k < 2) || (decide (8 ≤ k) && decide (k < 64))

/-- Whether a half-band set can be selected (R330). -/
def hbSelectable (k : Nat) : Bool := decide (k < 3) || (decide (4 ≤ k) && decide (k < 32))

/-- The coefficient at an index of a resampler set (R329, R330): a vendor set is given by its figures only, a reserved set
reads as zero. -/
def rsCoef (s : State) (set idx : Nat) : Int :=
  if set < 2 then Config.vendorCoef 0 set idx
  else if set < 8 then 0
  else tget (fun _ => 0) s.mea.rsCoef (set * 1024 + idx)

/-- The value at an index of a half-band set (R330, R331): the length code at index 0, then a_1 to a_8. -/
def hbCoef (s : State) (set idx : Nat) : Int :=
  if set < 3 then (if idx = 0 then (set : Int) else Config.vendorCoef 1 set idx)
  else if set = 3 then 0
  else tget (fun _ => 0) s.mea.hbCoef (set * 16 + idx)

/-- m of a half-band set: 3 for HB11, 5 for HB19 and 8 for HB31 (R326, R331). -/
def hbTaps (s : State) (set : Nat) : Nat :=
  let c := hbCoef s set 0
  if c = 0 then 3 else if c = 1 then 5 else 8

/-- The settle count of a stage (R343): 5, 9 or 15. -/
def hbSettle (m : Nat) : Nat := 2 * m - 1

/-! ### Chains -/

/-- A built chain: class, N, K, H, RHO, whether it is a preset, the sets and W. -/
structure Chain where
  cls : Nat
  n : Nat
  k : Nat
  h : Nat
  rho : Nat
  preset : Bool
  rs : Nat
  hb : List Nat
  w : Nat
  deriving DecidableEq, Repr

/-- The measure class of a mode code (R318). -/
def measureClass (mode : Nat) : Nat := if mode = 2 ∨ mode = 5 then 1 else if mode = 3 then 2 else 0

/-- The input rate is `rateNum cls / n` S/s for a vector period of `n` ticks. -/
def rateNum (cls : Nat) : Nat := if cls = 1 then 409600000000 else 51200000000

/-- The preset chain of R332 for a target of `t` S/s. -/
def presetChain (cls n t : Nat) : Option Chain :=
  let a := rateNum cls
  let b := n * t
  if a < b then none
  else
    let m := Nat.log2 (a / b)
    let rho := (divNearestEven ((2 ^ m * b * 2 ^ 31 : Nat) : Int) a).toNat
    let stages := fun (h : Nat) => (List.range h).map (fun i => if i + 1 = h then 2 else 1)
    if cls = 1 then
      let ke := max (min m 10) (m - 8)
      if 2 ≤ ke ∧ ke ≤ 12 then
        some { cls := 1, n := 4, k := 2 ^ ke, h := m - ke, rho := rho, preset := true, rs := 0, hb := stages (m - ke), w := 256 }
      else none
    else if m ≤ 8 then
      some { cls := 2, n := 4, k := 1, h := m, rho := rho, preset := true, rs := 0, hb := stages m, w := 256 }
    else none

/-- The half-band sets named by the two HB registers, for `h` stages. -/
def hbSets (s : State) (c h : Nat) : List Nat :=
  (List.range h).map (fun i => if i < 4 then rdFld s (Reg.MEA_XCH_HB_LO c) (8 * i + 7) (8 * i)
    else rdFld s (Reg.MEA_XCH_HB_HI c) (8 * (i - 4) + 7) (8 * (i - 4)))

/-- The expert chain of a channel's registers, if its fields lie in their ranges. -/
def expertChain (s : State) (cls c : Nat) : Option Chain :=
  let r := Reg.MEA_XCH_CHAIN c
  let n := rdFld s r 2 0
  let h := rdFld s r 11 8
  let k := rdFld s r 28 16
  let rho := rdN s (Reg.MEA_XCH_RHO c)
  let hb := hbSets s c h
  if (cls = 2 ∨ (3 ≤ n ∧ n ≤ 5 ∧ 4 ≤ k ∧ k ≤ 4096)) ∧ h ≤ 8 ∧ 0x40000001 ≤ rho ∧ rho ≤ 0x80000000 then
    some { cls := cls, n := n, k := k, h := h, rho := rho, preset := false, rs := rdFld s (Reg.MEA_XCH_RS c) 5 0, hb := hb,
           w := rdFld s (Reg.MEA_XCH_XFADE c) 12 0 }
  else none

/-- Input samples per resampler input of a chain. -/
def decimation (cls k h : Nat) : Nat := if cls = 1 then k * 2 ^ h else 2 ^ h

/-- Whether R_out of a chain is at most `r` S/s at period `n` (R320). -/
def rateAtMost (ch : Chain) (n r : Nat) : Bool :=
  decide (ch.rho * rateNum ch.cls ≤ r * 2 ^ 31 * n * decimation ch.cls ch.k ch.h)

/-- R_out of a chain in S/s, rounded. -/
def chainRate (ch : Chain) (n : Nat) : Nat :=
  (divNearestEven ((ch.rho * rateNum ch.cls : Nat) : Int) (2 ^ 31 * n * decimation ch.cls ch.k ch.h)).toNat

/-- The chain of a channel for its mode and period, if one can be built (R332, R353). -/
def buildChain (s : State) (c : Nat) : Option Chain :=
  let cls := measureClass (modeOf s c)
  let n := periodOf s (c / 32)
  let t := rdN s (Reg.MEA_CH_TARGET c)
  if cls = 0 ∨ (meaCh s c).invalid ∨ (chanRole s c).dsp = 0xFFFF then none
  else
    match (if t = 0 then expertChain s cls c else presetChain cls n t) with
    | some ch => if rateAtMost ch n 200000000 then some ch else none
    | none => none

/-- The class-8 reservation of a channel, in k samples/s (R334). -/
def measureReserve (s : State) (c : Nat) : Option Nat :=
  (s.img.active.reserve.find? (fun r => r.cls == 8 && r.consumer == c)).map (·.amount)

/-- Whether a measure channel of a step may start (R335). -/
def measureAdmitted (s : State) (c : Nat) : Bool :=
  match buildChain s c, measureReserve s c with
  | some ch, some a => rateAtMost ch (periodOf s (c / 32)) (a * 1000)
  | _, _ => false

/-- Twice GDELAY of a chain, in ticks (R346). -/
def gdelay2 (s : State) (ch : Chain) (n : Nat) : Nat :=
  let tin := if ch.cls = 1 then n else 8 * n
  let k := if ch.cls = 1 then ch.k else 1
  let cic := if ch.cls = 1 then ch.n * (ch.k - 1) * tin else 0
  let hbs := sumN ((List.range ch.h).map (fun i => 2 * (2 * hbTaps s (nth 0 ch.hb i) - 1) * (tin * k * 2 ^ i)))
  cic + hbs + 2 * (8 * tin * k * 2 ^ ch.h)

/-- S of a chain (R343). -/
def settleCount (s : State) (ch : Chain) : Nat :=
  (if ch.cls = 1 then ch.n else 0) + sumN (ch.hb.map (fun k => hbSettle (hbTaps s k))) + 16

/-- LAT in ticks: 66P + 1,600 ns (R347). -/
def latTicks (n : Nat) : Nat := 66 * n + 655360

/-- A time of `t2` half ticks in ns, rounded. -/
def halfTicksToNs (t2 : Nat) : Nat := (divNearestEven ((t2 * 78125 : Nat) : Int) 64000000).toNat

/-- A channel outside the measure modes has no chain (R318). -/
def endMeasure (c : Nat) (s : State) : State :=
  setFld (Reg.MEA_CH_STATE c) 2 0 0 (modMea c (fun x => { invalid := x.invalid }) s)

/-- The registers of a channel's coefficient sets. -/
def setRegsOf (c : Nat) : List Nat := [Reg.MEA_XCH_RS c, Reg.MEA_XCH_HB_LO c, Reg.MEA_XCH_HB_HI c]

/-- The coefficient sets written while no step ran take effect at a START (R339). -/
def takeSets (c : Nat) (s : State) : State :=
  let hits := s.shadowF.filter (fun e => (setRegsOf c).contains e.1)
  applyShadows maskOfF hits { s with shadowF := s.shadowF.filter (fun e => !((setRegsOf c).contains e.1)) }

/-- Sets up a measure channel at a START (R318, R332, R335, R339, R348): chain, sets, and the figures it publishes. -/
def startMeasure (c : Nat) (s : State) : State :=
  let n := periodOf s (c / 32)
  match buildChain s c with
  | none => if (meaCh s c).cls = 0 then s else endMeasure c s
  | some ch =>
    let byte := fun (i : Nat) => if i < ch.h then nth 0 ch.hb i else 0xFF
    let s := if ch.preset then
        setRegN (Reg.MEA_XCH_XFADE c) ch.w (setRegN (Reg.MEA_XCH_RS c) ch.rs
          (setRegN (Reg.MEA_XCH_HB_LO c) (byte 0 + 256 * byte 1 + 65536 * byte 2 + 16777216 * byte 3)
          (setRegN (Reg.MEA_XCH_HB_HI c) (byte 4 + 256 * byte 5 + 65536 * byte 6 + 16777216 * byte 7)
          (setRegN (Reg.MEA_XCH_RHO c) ch.rho
          (setRegN (Reg.MEA_XCH_CHAIN c) (ch.n + 256 * ch.h + 65536 * ch.k) s)))))
      else s
    let s := takeSets c s
    let ch := { ch with rs := rdFld s (Reg.MEA_XCH_RS c) 5 0, hb := hbSets s c ch.h }
    let s := modMea c (fun x => { cls := ch.cls, n := ch.n, k := ch.k, h := ch.h, rho := ch.rho, preset := ch.preset,
                                  rs := ch.rs, hb := ch.hb, invalid := x.invalid }) s
    let s := setRegN (Reg.MEA_CH_STATE c) (ch.cls + 16 * ch.n + 256 * ch.h + 4096 * b2n ch.preset + 65536 * ch.k) s
    let s := setRegN (Reg.MEA_CH_RHO c) ch.rho (setRegN (Reg.MEA_CH_RATE c) (chainRate ch n) s)
    let s := setRegN (Reg.MEA_CH_LAT c) (halfTicksToNs (2 * latTicks n)) s
    let s := setRegN (Reg.MEA_CH_GDELAY c) (halfTicksToNs (gdelay2 s ch n)) s
    setRegN (Reg.MEA_CH_SETTLE c) (settleCount s ch + 65536 * rdFld s (Reg.MEA_XCH_SYNC c) 7 0) s

/-! ### Arithmetic -/

/-- Rounds a value of weight 2^-(f) convergently by `sh` bits and saturates it to `w` bits; the flag says whether it
saturated (R325). -/
def reduce (sh w : Nat) (v : Int) : Int × Bool :=
  let r := divNearestEven v (2 ^ sh)
  let hi : Int := (2 ^ (w - 1) : Nat) - 1
  let lo : Int := - ((2 ^ (w - 1) : Nat) : Int)
  (clampInt lo hi r, decide (r < lo) || decide (hi < r))

/-- The smallest `s` with 2^s at least `v`, looking up from `k`. -/
def clog2From (v : Nat) : Nat → Nat → Nat
  | 0, k => k
  | fuel + 1, k => if v ≤ 2 ^ k then k else clog2From v fuel (k + 1)

/-- s of R325: N log2 K rounded up. -/
def cicShift (n k : Nat) : Nat := clog2From (k ^ n) 64 0

/-- G of R325 in U1.17: 2^s / K^N, rounded convergently. -/
def cicGain (n k : Nat) : Int := divNearestEven ((2 ^ cicShift n k * 2 ^ 17 : Nat) : Int) (k ^ n)

/-- A 64-bit two's-complement value (R325). -/
def wrap64 (v : Int) : Int := sext 64 (twos 64 v)

/-- One input through the integrators: each adds what the one before it holds. -/
def integrate (x : Int) : List Int → List Int
  | [] => []
  | y :: ys => let y' := wrap64 (y + x); y' :: integrate y' ys

/-- One decimated value through the combs of differential delay 1: the comb delays and the result. -/
def combStep (x : Int) : List Int → List Int × Int
  | [] => ([], x)
  | d :: ds => let (ds', y) := combStep (wrap64 (x - d)) ds; (x :: ds', y)

/-- A sample of a stage by index; samples before the reset are zero. -/
def smpAt (x : List Smp) (i : Int) : Smp := if i < 0 then { val := 0 } else nth { val := 0 } x i.toNat

/-- One output of a half-band stage with `m` taps a side: index `i` of the output sequence (R326). -/
def halfBandAt (s : State) (set : Nat) (x : List Smp) (i : Nat) : Smp :=
  let m := hbTaps s set
  let c : Int := 2 * (i : Int) - (2 * (m : Int) - 1)
  let taps := (List.range m).map (fun j =>
    (hbCoef s set (j + 1), smpAt x (c - (2 * (j : Int) + 1)), smpAt x (c + (2 * (j : Int) + 1))))
  let mid := smpAt x c
  let acc := 262144 * mid.val + sumI (taps.map (fun t => t.1 * (t.2.1.val + t.2.2.val)))
  let (v, sat) := reduce 19 28 acc
  { val := v, sat := sat || mid.sat || taps.any (fun t => t.2.1.sat || t.2.2.sat),
    gap := mid.gap || taps.any (fun t => t.2.1.gap || t.2.2.gap) }

/-- All outputs of a half-band stage for the samples that have entered it; it decimates by 2. -/
def halfBand (s : State) (x : List Smp) (set : Nat) : List Smp :=
  (List.range ((x.length + 1) / 2)).map (halfBandAt s set x)

/-- The resampler inputs of a chain: its half-band stages in order. -/
def resamplerInput (s : State) (hb : List Nat) (x : List Smp) : List Smp := hb.foldl (halfBand s) x

/-- δ of R327: the input position advances by this many 2^-32 input samples per output. -/
def resampDelta (rho : Nat) : Nat := (divNearestEven ((2 ^ 63 : Nat) : Int) rho).toNat

/-- The coefficient of tap `j` for a position with fraction `fr` (in 2^-32): linear between a phase and the next,
rounded to Q1.17 (R327); what follows phase 63 is open. -/
def tapCoef (s : State) (set fr j : Nat) : Int :=
  let p : Nat := fr / 2 ^ 26
  let t : Nat := fr / 2 ^ 14 % 4096
  let a := rsCoef s set (16 * p + j)
  let b := if p = 63 then Config.edgePhase set j else rsCoef s set (16 * (p + 1) + j)
  divNearestEven (a * 4096 + (t : Int) * (b - a)) 4096

/-- The resampler accumulator of output `m` for the sets `rs` and `hb` (R327), with the SAT and GAP of what it uses. -/
def resample (s : State) (rho rs : Nat) (hb : List Nat) (hist : List Smp) (m : Nat) : Smp :=
  let x := resamplerInput s hb hist
  let pos := m * resampDelta rho
  let i : Int := ((pos / 2 ^ 32 : Nat) : Int)
  let taps := (List.range 16).map (fun j => (tapCoef s rs (pos % 2 ^ 32) j, smpAt x (i - (j : Int))))
  { val := sumI (taps.map (fun t => t.1 * t.2.val)), sat := taps.any (fun t => t.2.sat), gap := taps.any (fun t => t.2.gap) }

/-- Whether output `m` can be formed: its resampler input has arrived. -/
def outputReady (cls h rho : Nat) (r : MeaRun) (m : Nat) : Bool :=
  let need := m * resampDelta rho / 2 ^ 32
  decide (cls ≠ 0) && decide (need * 2 ^ h < r.hist.length)

/-! ### Instants -/

/-- Vectors per input sample of a class. -/
def vecsPerSample (cls : Nat) : Nat := if cls = 1 then 1 else 8

/-- t_m of output `m` of a run in ticks from vector 0, as a numerator over RHO (R346). -/
def outTicksNum (x : MeaCh) (n : Nat) (r : MeaRun) (m : Nat) : Nat :=
  r.first * n * x.rho + m * n * vecsPerSample x.cls * decimation x.cls x.k x.h * 2 ^ 31

/-- The first output whose t_m is at or after `t` ticks. -/
def firstOutput (x : MeaCh) (n : Nat) (r : MeaRun) (t : Nat) : Nat :=
  if t * x.rho ≤ r.first * n * x.rho then 0
  else ceilDiv (t * x.rho - r.first * n * x.rho) (n * vecsPerSample x.cls * decimation x.cls x.k x.h * 2 ^ 31)

/-! ### Intake -/

/-- The sets in force at `t` ticks from vector 0: those of the last change at or before it, else those before the changes. -/
def setsAt (x : MeaCh) (t : Nat) : Nat × List Nat :=
  match (x.changes.filter (fun e => decide (e.at_ ≤ t))).getLast? with
  | some e => (e.rs, e.hb)
  | none => match x.runs.getLast? with
    | some r => (r.rs, r.hb)
    | none => (x.rs, x.hb)

/-- Starts a chain anew at the input sample of vector `v` (R342): the run before it ends with its outputs before that
instant, and a fade it cuts ends with the new sets. -/
def resetRun (s : State) (c v : Nat) (x : MeaCh) : MeaCh :=
  let n := periodOf s (c / 32)
  let close := fun (r : MeaRun) => if r.limit.isSome then r else { r with limit := some (firstOutput x n r (v * n)) }
  let sets := setsAt x (v * n)
  let fresh : MeaRun := { first := v, ints := List.replicate x.n 0, combs := List.replicate x.n 0, rs := sets.1, hb := sets.2 }
  { x with runs := x.runs.map close ++ [fresh] }

/-- Changes the last run of a channel. -/
def modLastRun (f : MeaRun → MeaRun) (x : MeaCh) : MeaCh :=
  match x.runs.reverse with
  | [] => x
  | r :: rs => { x with runs := (f r :: rs).reverse }

/-- Takes one input sample into a run (R319, R321, R324, R325). -/
def takeSample (x : MeaCh) (v : Int) (lost : Bool) (r : MeaRun) : MeaRun :=
  if x.cls = 2 then { r with taken := r.taken + 1, hist := r.hist ++ [{ val := if lost then 0 else v * 4096, gap := lost }] }
  else
    let ints := integrate (if lost then 0 else v) r.ints
    let lastGap := if lost then some r.taken else r.lastGap
    if r.taken % x.k = 0 then
      let (combs, y) := combStep (ints.getLast?.getD 0) r.combs
      let (o, sat) := reduce (cicShift x.n x.k) 28 (y * cicGain x.n x.k * 256)
      let gap := match lastGap with | some g => decide (r.taken ≤ g + x.n * (x.k - 1)) | none => false
      { r with taken := r.taken + 1, ints := ints, combs := combs, lastGap := lastGap,
               hist := r.hist ++ [{ val := o, sat := sat, gap := gap }] }
    else { r with taken := r.taken + 1, ints := ints, lastGap := lastGap }

/-- Asks for a reset of channel `c` at `t` ticks from vector 0 (R341). -/
def askReset (t c : Nat) (s : State) : State := modMea c (fun x => { x with resets := x.resets ++ [t] }) s

/-! ### Cross-fades -/

/-- Whether a coefficient change of channel `c` is committed for a boundary. -/
def fadeCommitted (s : State) (c : Nat) : Bool := s.shadowF.any (fun e => (setRegsOf c).contains e.1)

/-- Whether a set change belongs to run `r`: it acts after the run's reset (R342). -/
def changesRun (n : Nat) (r : MeaRun) (e : SetChange) : Bool := decide (r.first * n < e.at_)

/-- Whether channel `c` has a fade in progress, from the boundary that committed it until its last output or a reset. -/
def fadeRunning (s : State) (c : Nat) : Bool :=
  let x := meaCh s c
  match x.runs.getLast? with
  | some r => r.fade.isSome || x.changes.any (changesRun (periodOf s (c / 32)) r)
  | none => x.changes.any (fun e => decide (0 < e.at_))

/-- R_out of a channel in S/s. -/
def rateOf (s : State) (c : Nat) : Nat := if (meaCh s c).cls = 0 then 0 else rdN s (Reg.MEA_CH_RATE c)

/-- The channels of the running step with a chain. -/
def measuring (s : State) : List Nat := (List.range 512).filter (fun c => (meaCh s c).cls != 0 && groupInStep s (c / 32))

/-- Brings MEA_XF_COUNT, MEA_XF_USE and MEA_ENG_LOAD up to date (R333, R338). -/
def showFades (s : State) : State :=
  let ch := measuring s
  let run := ch.filter (fadeRunning s)
  let use := ceilDiv (sumN (run.map (rateOf s))) 1000
  let s := setRegN Reg.MEA_XF_COUNT ((ch.filter (fun c => fadeRunning s c || fadeCommitted s c)).length) s
  setRegN Reg.MEA_ENG_LOAD (ceilDiv (sumN (ch.map (rateOf s))) 1000 + use) (setRegN Reg.MEA_XF_USE use s)

/-- An input sample of channel `c` whose sampling instant is the release of vector `v` (R323, R341, R342): a reset due at or
before it is taken first, and a fade it cuts is charged no more (R354). -/
def intake (c v : Nat) (val : Int) (lost : Bool) (s : State) : State :=
  let x := meaCh s c
  if x.cls = 0 then s
  else
    let t := v * periodOf s (c / 32)
    let due := x.resets.any (fun r => decide (r ≤ t))
    let y := if due then resetRun s c v { x with resets := x.resets.filter (fun r => decide (t < r)) } else x
    let s' := modMea c (fun _ => modLastRun (takeSample y val lost) y) s
    if due && fadeRunning s c then showFades s' else s'

/-- The refusal of a coefficient-change write during a step (R338, R339), if any. -/
def fadeRefusal (s : State) (c : Nat) (a : Nat) (value : Word) : Option Nat :=
  let x := meaCh s c
  if x.cls = 0 || !(groupInStep s (c / 32)) then none
  else
    let old := hbSets s c x.h
    let new := hbSets (setReg a value s) c x.h
    if a ≠ Reg.MEA_XCH_RS c && old.map (hbTaps s) != new.map (hbTaps s) then some stChainInvalid
    else if fadeRunning s c then some stXfadeBusy
    else
      let others := (measuring s).filter (fun d => d != c && (fadeRunning s d || fadeCommitted s d))
      if 32 ≤ others.length || rdN s Reg.MEA_XF_ALLOW * 1000 < sumN (others.map (rateOf s)) + rateOf s c then some stXfadeFull
      else none

/-- Whether the sets named by a value of a set register may be selected. -/
def setsSelectable (c a : Nat) (value : Word) : Bool :=
  if a = Reg.MEA_XCH_RS c then rsSelectable (fld value 5 0)
  else (List.range 4).all (fun i => hbSelectable (fld value (8 * i + 7) (8 * i)) || fld value (8 * i + 7) (8 * i) == 0xFF)

/-- A write of a channel's resampler or half-band sets (R336 to R339). -/
def xchSetWrite (c a : Nat) (value : Word) (s : State) : State :=
  if !(setsSelectable c a value) then answer stValueRange s
  else
    match fadeRefusal s c a value with
    | some code =>
      answer code (if code = stXfadeBusy ∨ code = stXfadeFull then orReg Reg.MEA_EVENTS 8 s else s)
    | none => showFades (accept a value s)

/-- A coefficient change takes effect at the boundary `t` ticks after vector 0 (R336): its fade is on the way to the
outputs. -/
def startFade (c t : Nat) (s : State) : State :=
  modMea c (fun x =>
    if x.cls = 0 then x
    else { x with changes := x.changes ++
      [{ at_ := t, rs := rdFld s (Reg.MEA_XCH_RS c) 5 0, hb := hbSets s c x.h, len := rdFld s (Reg.MEA_XCH_XFADE c) 12 0 }] }) s

/-- Output `r.out` of a run takes the set change whose first faded output it is (R336, R337). -/
def takeChange (n : Nat) (x : MeaCh) (r : MeaRun) : MeaRun × List SetChange :=
  match x.changes.find? (fun e => changesRun n r e && decide (firstOutput x n r e.at_ ≤ r.out)) with
  | some e =>
    ({ r with fade := some { at_ := e.at_, len := e.len, oldRs := r.rs, oldHb := r.hb }, rs := e.rs, hb := e.hb },
      x.changes.filter (fun d => d != e))
  | none => (r, x.changes)

/-! ### Coefficient registers -/

/-- Whether the outputs of a channel of the running step still come from a set: that of a run, of the old side of its fade,
of a change on the way, or of the step's first vector. -/
def setPlays (s : State) (half : Bool) (k c : Nat) : Bool :=
  let x := meaCh s c
  let uses := fun (rs : Nat) (hb : List Nat) => if half then hb.contains k else rs == k
  x.cls != 0 && groupInStep s (c / 32) &&
  ((x.runs.isEmpty && uses x.rs x.hb) || x.changes.any (fun e => uses e.rs e.hb) ||
   x.runs.any (fun r => uses r.rs r.hb || (match r.fade with | some f => uses f.oldRs f.oldHb | none => false)))

/-- Whether a coefficient set is in force for a channel or held in a channel's shadow (R340). -/
def setInUse (s : State) (half : Bool) (k : Nat) : Bool :=
  let names := fun (v : Word) => (List.range 4).any (fun i => fld v (8 * i + 7) (8 * i) == k)
  let one := fun (c : Nat) =>
    setPlays s half k c ||
    if half then
      (hbSets s c (rdFld s (Reg.MEA_XCH_CHAIN c) 11 8)).contains k ||
      s.shadowF.any (fun e => (e.1 == Reg.MEA_XCH_HB_LO c || e.1 == Reg.MEA_XCH_HB_HI c) && names e.2)
    else
      rdFld s (Reg.MEA_XCH_RS c) 5 0 == k || s.shadowF.any (fun e => e.1 == Reg.MEA_XCH_RS c && fld e.2 5 0 == k)
  (List.range 512).any one

/-- Advances MEA_XCOEF_ADDR.INDEX. -/
def nextCoef (s : State) : State := setFld Reg.MEA_XCOEF_ADDR 9 0 (rdFld s Reg.MEA_XCOEF_ADDR 9 0 + 1) s

/-- A write of MEA_XCOEF_DATA (R340). -/
def coefDataWrite (value : Word) (s : State) : State :=
  let half := rdBit s Reg.MEA_XCOEF_ADDR 23
  let k := rdFld s Reg.MEA_XCOEF_ADDR 21 16
  let i := rdFld s Reg.MEA_XCOEF_ADDR 9 0
  if (half && (decide (k < 4) || decide (32 ≤ k))) || (!half && decide (k < 8)) then answer stBadAddr s
  else if half && decide (8 < i) then answer stValueRange s
  else if setInUse s half k then answer stSetInUse s
  else
    let s := if half then { s with mea := { s.mea with hbCoef := tset (fun _ => 0) s.mea.hbCoef (k * 16 + i) (sext 20 value.toNat) } }
      else { s with mea := { s.mea with rsCoef := tset (fun _ => 0) s.mea.rsCoef (k * 1024 + i) (sext 18 value.toNat) } }
    answer stOk (nextCoef s)

/-- The value a read of MEA_XCOEF_DATA returns, sign-extended. -/
def coefDataValue (s : State) : Word :=
  let k := rdFld s Reg.MEA_XCOEF_ADDR 21 16
  let i := rdFld s Reg.MEA_XCOEF_ADDR 9 0
  wd (twos 32 (if rdBit s Reg.MEA_XCOEF_ADDR 23 then hbCoef s k i else rsCoef s k i))

/-! ### Chains by register -/

/-- Whether a value of MEA_XCH_CHAIN lies in its ranges. -/
def chainInRange (v : Word) : Bool :=
  decide (3 ≤ fld v 2 0) && decide (fld v 2 0 ≤ 5) && decide (4 ≤ fld v 28 16) && decide (fld v 28 16 ≤ 4096) && decide (fld v 11 8 ≤ 8)

/-- A write of MEA_XCH_CHAIN or MEA_XCH_RHO (R355): the expert chain, and TARGET becomes 0. -/
def chainWrite (c : Nat) (isRho : Bool) (value : Word) (s : State) : State :=
  if isRho then
    if value.toNat < 0x40000001 ∨ 0x80000000 < value.toNat then answer stValueRange s
    else accept (Reg.MEA_XCH_RHO c) value (setRegN (Reg.MEA_CH_TARGET c) 0 s)
  else if !(chainInRange value) then answer stValueRange s
  else accept (Reg.MEA_XCH_CHAIN c) value (setRegN (Reg.MEA_CH_TARGET c) 0 s)

/-- A write of MEA_CH_TARGET (R355). -/
def targetWrite (c : Nat) (value : Word) (s : State) : State :=
  refuseIf (decide (200000000 < value.toNat)) stValueRange (accept (Reg.MEA_CH_TARGET c) value) s

/-! ### DSPMAP -/

/-- The number of `n` little-endian bytes at offset `o` of a section. -/
def secN (bs : List Byte) (o n : Nat) : Nat := ofLeBytes ((bs.drop o).take n)

/-- Whether DSPMAP entry `e` (32 bytes) is loaded as valid for a channel of class `cls` and period `n` (R353). -/
def dspEntryOk (e : List Byte) (cls n : Nat) : Bool :=
  let target := secN e 0 4
  let h := secN e 5 1
  let hb := (List.range 8).map (fun i => secN e (0x10 + i) 1)
  let ch : Chain := { cls := cls, n := secN e 4 1, k := secN e 6 2, h := h, rho := secN e 8 4, preset := false,
                      rs := secN e 0xC 1, hb := hb.take h, w := secN e 0xE 2 }
  decide (target ≤ 200000000) && (decide (secN e 0xD 1 < 64) || secN e 0xD 1 == 0xFF) &&
  (if target ≠ 0 then true
   else
    (cls == 2 || (decide (3 ≤ ch.n) && decide (ch.n ≤ 5) && decide (4 ≤ ch.k) && decide (ch.k ≤ 4096))) && decide (h ≤ 8) &&
    decide (0x40000001 ≤ ch.rho) && decide (ch.rho ≤ 0x80000000) && rsSelectable ch.rs &&
    decide (16 ≤ ch.w) && decide (ch.w ≤ 4096) && ch.hb.all hbSelectable && (hb.drop h).all (· == 0xFF) &&
    rateAtMost ch n 200000000)

/-- The measure classes a channel may take by PERMIT; stream where it may take both. -/
def permittedClass (r : ChanRole) : Nat := if bitN r.permit 2 || bitN r.permit 5 then 1 else 2

/-- Loads the window of channel `c` from its DSPMAP entry (R352, R354); an invalid entry is counted by the caller. -/
def loadDspChannel (bs : List Byte) (count c : Nat) (s : State) : State :=
  let d := (chanRole s c).dsp
  if d = 0xFFFF ∨ count ≤ d then s
  else
    let e := (bs.drop (16 + 32 * d)).take 32
    let ok := dspEntryOk e (permittedClass (chanRole s c)) (groupRole s (c / 32)).periodN
    let rank := ((List.range c).filter (fun b => decide ((chanRole s b).dsp < count))).length
    let s := modMea c (fun _ => { invalid := !ok }) s
    let s := setRegN (Reg.MEA_CH_TARGET c) (secN e 0 4) s
    let s := setRegN (Reg.MEA_XCH_CHAIN c) (secN e 4 1 % 8 + 256 * (secN e 5 1 % 16) + 65536 * (secN e 6 2 % 8192)) s
    let s := setRegN (Reg.MEA_XCH_RHO c) (secN e 8 4) s
    let s := setRegN (Reg.MEA_XCH_RS c) (secN e 0xC 1 % 64) s
    let s := setRegN (Reg.MEA_XCH_HB_LO c) (secN e 0x10 4) (setRegN (Reg.MEA_XCH_HB_HI c) (secN e 0x14 4) s)
    let s := setRegN (Reg.MEA_XCH_XFADE c) (secN e 0xE 2 % 8192) (setRegN (Reg.MEA_XCH_SYNC c) (secN e 0xD 1) s)
    setRegN (Reg.MEA_CH_SKEW c) (32 * rank) s

/-- Applies set records in order (R353): an ignored record is reported by the flag. -/
def loadDspSets : Nat → List Byte → List (Nat × Nat) → State → Bool × State
  | 0, _, _, s => (false, s)
  | k + 1, bs, seen, s =>
    let kind := secN bs 0 1
    let set := secN bs 1 1
    let len := if kind = 0 then 1024 else 9
    let user := if kind = 0 then decide (8 ≤ set) && decide (set < 64) else decide (kind = 1) && decide (4 ≤ set) && decide (set < 32)
    let ok := user && !(seen.contains (kind, set))
    let vals := (List.range len).map (fun i => secN bs (8 + 4 * i) 4)
    let s := if !ok then s
      else if kind = 0 then
        { s with mea := { s.mea with rsCoef := tsetList (fun _ => 0) s.mea.rsCoef (set * 1024) (vals.map (sext 18)) } }
      else { s with mea := { s.mea with hbCoef := tsetList (fun _ => 0) s.mea.hbCoef (set * 16) (vals.map (sext 20)) } }
    let (bad, s) := loadDspSets k (bs.drop (8 + 4 * len)) ((kind, set) :: seen) s
    (bad || !ok, s)

/-- The number of the first DSPMAP entry loaded invalid, if any channel uses one. -/
def firstInvalid (s : State) : Option Nat :=
  ((List.range 512).find? (fun c => (meaCh s c).invalid)).map (fun c => (chanRole s c).dsp)

/-- Applies DSPMAP at the switch point of a load (R347, R353, R354). -/
def applyDspMap (bs : List Byte) (s : State) : State :=
  let count := secN bs 0 4
  let sets := secN bs 4 4
  let s := { s with mea := { s.mea with chans := [], rsCoef := [], hbCoef := [] } }
  let s := (List.range 512).foldl (fun s c => loadDspChannel bs count c s) s
  let (bad, s) := loadDspSets (min sets 84) (bs.drop (16 + 32 * count)) [] s
  let inv := firstInvalid s
  let s := setBit Reg.MEA_STATUS 17 (bad || inv.isSome) s
  let s := setRegN Reg.MEA_XF_ALLOW ((measureReserve s 0xFFFF).getD 0) s
  let s := setRegN Reg.MEA_ENG_RSV (sumN ((s.img.active.reserve.filter (fun r => r.cls == 8)).map (·.amount))) s
  if bad || inv.isSome then imageNotice (activeSlot s) (inv.getD 0) s else s

/-! ### Meanings -/

/-- The register of a channel's sets that `which` names: RS, HB_LO or HB_HI. -/
def setRegAddr (c : Nat) (which : Fin 3) : Nat := nth 0 (setRegsOf c) which.val

/-- XCH_SET_WRITE. -/
def execXchSetWrite (q : Req) (c : Fin 512) (which : Fin 3) (value : Word) (s : State) : Host.Outcome State Fault Refusal :=
  .next (guarded q (setRegAddr c.val which) value (xchSetWrite c.val (setRegAddr c.val which) value) s)

/-- COEF_DATA_WRITE. -/
def execCoefDataWrite (q : Req) (value : Word) (s : State) : Host.Outcome State Fault Refusal :=
  .next (guarded q Reg.MEA_XCOEF_DATA value (coefDataWrite value) s)

/-- COEF_DATA_READ: a read returns the coefficient and advances the index (R355). -/
def execCoefDataRead (q : Req) (s : State) : Host.Outcome State Fault Refusal :=
  .next (guardedRead q Reg.MEA_XCOEF_DATA (fun s => answerData (coefDataValue s) (nextCoef s)) s)

/-- CHAIN_WRITE. -/
def execChainWrite (q : Req) (c : Fin 512) (isRho : Bool) (value : Word) (s : State) : Host.Outcome State Fault Refusal :=
  .next (guarded q (if isRho then Reg.MEA_XCH_RHO c.val else Reg.MEA_XCH_CHAIN c.val) value (chainWrite c.val isRho value) s)

/-- TARGET_WRITE. -/
def execTargetWrite (q : Req) (c : Fin 512) (value : Word) (s : State) : Host.Outcome State Fault Refusal :=
  .next (guarded q (Reg.MEA_CH_TARGET c.val) value (targetWrite c.val value) s)

end Sys2Proof.Machine
end

