-- ==== Sys2Proof/Machine/Acq.lean ====
section
/-! DEFINITION. Acquisition units (R422 to R431): reductions and their records, rings, trigger positions and detectors; the
output samples that feed them (R343 to R349); and the registers of the ACQ block that act. -/

namespace Sys2Proof.Machine

open Sys2Proof

/-- Acquisition unit `a`. -/
def acqUnit (s : State) (a : Nat) : AcqUnit := tget (fun _ => {}) s.acq a

/-- Changes acquisition unit `a`. -/
def modAcq (a : Nat) (f : AcqUnit → AcqUnit) (s : State) : State :=
  { s with acq := tset (fun _ => {}) s.acq a (f (acqUnit s a)) }

/-- Whether reduction `r` (0 RAW, 1 MINMAX, 2 MEAN, 3 RMS) of unit `a` is selected. -/
def redOn (s : State) (a r : Nat) : Bool := rdBit s (Reg.ACQ_CTRL a) 0 && rdBit s (Reg.ACQ_CTRL a) (4 + r)

/-- Whether unit `a` runs in TRIGGERED mode. -/
def isTriggered (s : State) (a : Nat) : Bool := rdBit s (Reg.ACQ_CTRL a) 1

/-- Records per counted item of a reduction: MINMAX writes two for a block (R423, R428). -/
def recsPer (r : Nat) : Nat := if r = 1 then 2 else 1

/-- The channels of the image that enter unit `a` (R422). -/
def acqChannels (s : State) (a : Nat) : List Nat := (List.range 512).filter (fun c => (chanRole s c).aq == a)

/-! ### Rings -/

/-- Ring base of reduction `r` of unit `a`. -/
def ringBase (s : State) (a r : Nat) : Nat :=
  rdN s (Reg.ACQ_R_BASE_LO a r) + 4294967296 * rdFld s (Reg.ACQ_R_BASE_HI a r) 15 0

/-- State code of a unit. -/
def setAcqState (a code : Nat) (s : State) : State := setFld (Reg.ACQ_STATE a) 2 0 code s

/-- A unit is DONE when every selected reduction of a triggered capture has stopped (R428). -/
def settleAcq (a : Nat) (s : State) : State :=
  if isTriggered s a && (acqUnit s a).triggered &&
      (List.range 4).all (fun r => !(redOn s a r) || (acqUnit s a).stopped.contains r) then setAcqState a 4 s
  else s

/-- Fixes the trigger position of a ring at record `j` (R428). -/
def fixPosition (a r j : Nat) (s : State) : State :=
  let s := setRegN (Reg.ACQ_R_TRIG a r) j s
  let s := if j < rdN s (Reg.ACQ_PRE a) * recsPer r then
      orReg Reg.ACQ_EVENTS 2 (setBit (Reg.ACQ_STATE a) 8 true s) else s
  if isTriggered s a then
    let stop := j + rdN s (Reg.ACQ_POST a) * recsPer r
    let wr := rdN s (Reg.ACQ_R_WR a r)
    if stop ≤ wr then settleAcq a (modAcq a (fun u => { u with stopped := u.stopped ++ [r] }) s)
    else modAcq a (fun u => { u with left := u.left ++ [(r, stop - wr)] }) s
  else s

/-- Counts down the records a ring still writes after its trigger position, and stops it at the last. -/
def countPost (a r : Nat) (s : State) : State :=
  match (acqUnit s a).left.find? (fun e => e.1 == r) with
  | none => s
  | some (_, k) =>
    if k ≤ 1 then
      settleAcq a (modAcq a (fun u => { u with left := u.left.filter (fun e => e.1 != r), stopped := u.stopped ++ [r] }) s)
    else modAcq a (fun u => { u with left := u.left.map (fun e => if e.1 == r then (r, k - 1) else e) }) s

/-- Forms one record of unit `a` and writes it (R424, R426 to R428): an unconsumed record it overwrites is counted, and RD
advances past it. -/
def acqRecord (a r time value channel kind rflags : Nat) (s : State) : State :=
  if (acqUnit s a).stopped.contains r then s
  else
    let size := rdN s (Reg.ACQ_R_SIZE a r)
    let j := rdN s (Reg.ACQ_R_WR a r)
    let s := if size ≤ j ∧ rdN s (Reg.ACQ_R_RD a r) ≤ j - size then
        setRegN (Reg.ACQ_R_RD a r) (j - size + 1) (incWrap (Reg.ACQ_R_OVERWR a r) 1 (incWrap Reg.ACQ_OVERWRITTEN 1
          (orReg Reg.ACQ_EVENTS 1 (setRegN Reg.ACQ_STORED (sub32 (rdN s Reg.ACQ_STORED) 1) s))))
      else s
    let s := setBytes (ringBase s a r + 64 + 16 * (j % size))
      (leBytes 8 time ++ leBytes 4 value ++ leBytes 2 channel ++ leBytes 1 kind ++ leBytes 1 rflags) s
    let s := incWrap Reg.ACQ_PRODUCED 1 (incWrap Reg.ACQ_STORED 1 (setRegN (Reg.ACQ_R_WR a r) (add32 j 1) s))
    let counting := (acqUnit s a).left.any (fun e => e.1 == r)
    let hit := (acqUnit s a).want.find? (fun e => e.1 == r && decide (e.2 ≤ 32 * (time : Int)))
    match hit with
    | some e => fixPosition a r j (modAcq a (fun u => { u with want := u.want.filter (fun w => w != e) }) s)
    | none => if counting then countPost a r s else s

/-! ### Blocks -/

/-- The Q1.23 field and flags of a record's VALUE. -/
def valueWord (v : Int) (flags : Nat) : Nat := 256 * twos 24 v + flags

/-- The square root of `n / d`, rounded to nearest with ties to even. -/
def rootNearest (n d : Nat) : Nat :=
  let r := isqrt (n / d)
  let h := (2 * r + 1) * (2 * r + 1) * d
  if h < 4 * n then r + 1 else if h = 4 * n then r + r % 2 else r

/-- Writes the records of a finished or cut block (R423); a block whose outputs are all UNSETTLED writes none. -/
def emitBlock (a : Nat) (b : AcqBlock) (partialB : Bool) (s : State) : State :=
  if b.used = 0 then s
  else
    let w := fun (v : Int) => valueWord (clampInt (-8388608) 8388607 v) b.flags
    let rf := b2n partialB
    if b.red = 1 then
      acqRecord a 1 b.time (w b.hi) b.channel 2 rf (acqRecord a 1 b.time (w b.lo) b.channel 1 rf s)
    else if b.red = 2 then acqRecord a 2 b.time (w (divNearestEven b.sum b.used)) b.channel 3 rf s
    else acqRecord a 3 b.time (w ((rootNearest b.squares b.used : Nat) : Int)) b.channel 4 rf s

/-- Cuts the open blocks of unit `a` that `p` selects (R423, R449). -/
def cutBlocks (a : Nat) (p : AcqBlock → Bool) (s : State) : State :=
  let cut := (acqUnit s a).blocks.filter p
  let s := modAcq a (fun u => { u with blocks := u.blocks.filter (fun b => !p b) }) s
  cut.foldl (fun s b => emitBlock a b true s) s

/-- An output joins a block. -/
def joinBlock (v : Int) (flags : Nat) (b : AcqBlock) : AcqBlock :=
  if bitN flags 0 then { b with count := b.count + 1 }
  else
    { b with count := b.count + 1, used := b.used + 1, sum := b.sum + v, squares := b.squares + v.natAbs * v.natAbs,
             lo := if b.used = 0 then v else min b.lo v, hi := if b.used = 0 then v else max b.hi v,
             flags := b.flags ||| (flags &&& 0x1E) }

/-- An output of channel `c` enters reduction `r` of unit `a`, one of MINMAX, MEAN and RMS. -/
def reduceOutput (a r c time : Nat) (v : Int) (flags : Nat) (s : State) : State :=
  if !(redOn s a r) then s
  else
    let u := acqUnit s a
    let b := (u.blocks.find? (fun b => b.red == r && b.channel == c)).getD { red := r, channel := c, time := time }
    let b := joinBlock v flags b
    let rest := u.blocks.filter (fun b => !(b.red == r && b.channel == c))
    if rdFld s (Reg.ACQ_BLOCK a) 23 0 ≤ b.count then emitBlock a b false (modAcq a (fun u => { u with blocks := rest }) s)
    else modAcq a (fun u => { u with blocks := rest ++ [b] }) s

/-! ### Detectors and triggers -/

/-- Whether the detector of unit `a` acts on value `v`, and its arms after it (R429). -/
def detectorStep (s : State) (a : Nat) (v : Int) : Bool × Bool × Bool :=
  let slope := rdFld s (Reg.ACQ_DET_CH a) 17 16
  let level := sext 24 (rdFld s (Reg.ACQ_DET_LEVEL a) 23 0)
  let hyst : Int := rdFld s (Reg.ACQ_DET_HYST a) 22 0
  let u := acqUnit s a
  let act := (slope % 2 == 1 && u.low && decide (level ≤ v)) || (decide (2 ≤ slope) && u.high && decide (v ≤ level))
  (act, (u.low && !act) || decide (v < level - hyst), (u.high && !act) || decide (level + hyst < v))

/-- A settled output of channel `c` at grid instant `t` (t_m + LAT + 60 ns) passes the detector of unit `a`, whatever unit its
channel enters. -/
def detect (c t : Nat) (v : Int) (s : State) (a : Nat) : State :=
  if rdBit s (Reg.ACQ_DET_CH a) 15 && rdFld s (Reg.ACQ_DET_CH a) 8 0 == c then
    let (act, lo, hi) := detectorStep s a v
    let s := modAcq a (fun u => { u with low := lo, high := hi }) s
    if act then assertEvent (0x120 + a) t s else s
  else s

/-- D_AQ in 1/32 fs for a detector channel of period `n`: LAT + 60 ns (R429). -/
def daq32 (n : Nat) : Nat := (latTicks n + 24576) * 78125

/-- TCOMP of unit `a` in 1/32 fs (R428). -/
def tcomp32 (s : State) (a : Nat) : Nat :=
  let v := rdN s (Reg.ACQ_XTCOMP a)
  let line := rdFld s (Reg.ACQ_CTRL a) 13 8
  if v ≠ 0xFFFFFFFF then v * 32000000
  else if rdFld s (Reg.TRG_LINE_SRC01 line) 9 0 = 0x120 + a then
    daq32 (periodOf s (rdFld s (Reg.ACQ_DET_CH a) 8 0 / 32)) + 320000000 + lineDelay s line * 20000000
  else 0

/-- The records of a ring that still stand in memory, oldest first: index and TIME. -/
def ringTimes (s : State) (a r : Nat) : List (Nat × Nat) :=
  let wr := rdN s (Reg.ACQ_R_WR a r)
  let size := rdN s (Reg.ACQ_R_SIZE a r)
  ((List.range wr).drop (wr - size)).map (fun j => (j, memN s (ringBase s a r + 64 + 16 * (j % size)) 8))

/-- An act of a unit's trigger line fixes the position of one ring, or leaves it to the first record late enough. -/
def triggerRing (a : Nat) (x : Int) (s : State) (r : Nat) : State :=
  if redOn s a r then
    match (ringTimes s a r).find? (fun e => decide (x ≤ 32 * (e.2 : Int))) with
    | some e => fixPosition a r e.1 s
    | none => modAcq a (fun u => { u with want := u.want.filter (fun w => w.1 != r) ++ [(r, x)] }) s
  else s

/-- An act of line `l` at grid instant `t`, seen by unit `a` (R428). -/
def acqTrigger (l t a : Nat) (s : State) : State :=
  let ctrl := Reg.ACQ_CTRL a
  let origin := stepOrigin s / ticksPerGrid
  if rdBit s ctrl 0 && rdBit s ctrl 15 && rdFld s ctrl 13 8 == l && decide (origin ≤ t) && stepBegun s &&
      (acqChannels s a).any (fun c => groupInStep s (c / 32)) && !(isTriggered s a && (acqUnit s a).triggered) then
    let x : Int := (((t - origin) * 20000000 : Nat) : Int) - tcomp32 s a
    let s := modAcq a (fun u => { u with triggered := true }) s
    let s := if isTriggered s a then setAcqState a 3 s else s
    settleAcq a ((List.range 4).foldl (triggerRing a x) s)
  else s

/-! ### Output samples -/

/-- An output sample enters the unit of its channel (R422, R423). -/
def acqOutput (c time : Nat) (v : Int) (flags : Nat) (s : State) : State :=
  let a := (chanRole s c).aq
  if a ≤ 31 ∧ rdBit s (Reg.ACQ_CTRL a) 0 then
    let s := if bitN flags 4 then cutBlocks a (fun b => b.channel == c) s else s
    let s := if redOn s a 0 then acqRecord a 0 time (valueWord v flags) c 0 0 s else s
    reduceOutput a 3 c time v flags (reduceOutput a 2 c time v flags (reduceOutput a 1 c time v flags s))
  else s

/-- The output word of output `m` of a run (R325, R327, R337, R343, R345): the value, its flags, and whether it ends a
fade. -/
def outputOf (s : State) (x : MeaCh) (n : Nat) (r : MeaRun) : Int × Nat × Bool :=
  let m := r.out
  let new := resample s x.rho r.rs r.hb r.hist m
  let ch : Chain := { cls := x.cls, n := x.n, k := x.k, h := x.h, rho := x.rho, preset := x.preset, rs := r.rs, hb := r.hb, w := 0 }
  let base := fun (o : Smp) (sat fade : Bool) =>
    b2n (decide (m < settleCount s ch)) + 2 * b2n (o.sat || sat) + 4 * b2n fade + 8 * b2n o.gap + 16 * b2n (m == 0)
  let plain :=
    let (v, sat) := reduce 21 24 new.val
    (v, base new sat false, false)
  match r.fade with
  | none => plain
  | some f =>
    let m0 := firstOutput x n r f.at_
    let old := resample s x.rho f.oldRs f.oldHb r.hist m
    if m < m0 then
      let (v, sat) := reduce 21 24 old.val
      (v, base old sat false, false)
    else if m < m0 + f.len then
      let w := divNearestEven (((m - m0 + 1) * 65536 : Nat) : Int) (f.len + 1)
      let (v, sat) := reduce 37 24 (old.val * 65536 + w * (new.val - old.val))
      (v, base { new with sat := new.sat || old.sat, gap := new.gap || old.gap } sat true, decide (m + 1 = m0 + f.len))
    else plain

/-- The runs of a channel without those whose outputs are all out. -/
def dropDone : List MeaRun → List MeaRun
  | r :: r' :: rs =>
    match r.limit with
    | some k => if k ≤ r.out then dropDone (r' :: rs) else r :: r' :: rs
    | none => r :: r' :: rs
  | rs => rs

/-- A measure chain produces its next output, if its inputs have arrived (R345 to R348). -/
def measureOutput (c : Nat) (s : State) : State :=
  let x := meaCh s c
  let n := periodOf s (c / 32)
  match dropDone x.runs with
  | [] => s
  | r :: rs =>
    let (r, changes) := takeChange n x r
    if outputReady x.cls x.h x.rho r r.out && (match r.limit with | some k => decide (r.out < k) | none => true) then
      let (v, flags, ends) := outputOf s x n r
      let num := outTicksNum x n r r.out
      let time := (divNearestEven ((num * 78125 : Nat) : Int) (x.rho * 32)).toNat
      let t := ((stepOrigin s + latTicks n + 24576) * x.rho + num) / (ticksPerGrid * x.rho)
      let s := modMea c (fun x => { x with changes := changes.filter (changesRun n r), runs := { r with out := r.out + 1, fade := if ends then none else r.fade } :: rs }) s
      let st := Reg.MEA_CH_STATE c
      let s := setBit st 14 (bitN flags 0) (setBit st 13 (bitN flags 2) s)
      let s := if bitN flags 3 then orReg Reg.MEA_EVENTS 2 (incSat Reg.MEA_GAP_COUNT 1 (setBit st 15 true s)) else s
      let s := if bitN flags 1 then orReg Reg.MEA_EVENTS 1 (incSat Reg.MEA_SAT_COUNT 1 s) else s
      let s := if ends then showFades s else s
      let s := acqOutput c time v flags s
      if bitN flags 0 then s else (List.range 32).foldl (detect c t v) s
    else s

/-- A residue error of output datapath `d` (R349): the output is recomputed on another, and `d` runs its known-answer
test. -/
def residueError (d : Nat) (s : State) : State := { s with flt := { s.flt with tests := s.flt.tests ++ [(0x04, d)] } }

/-! ### START -/

/-- Whether START includes acquisition unit `a`: one of its channels is in the step. -/
def acqIncluded (s : State) (groups : List Nat) (a : Nat) : Bool := (acqChannels s a).any (fun c => groups.contains (c / 32))

/-- The record rate of unit `a` times 2^31·B, summed over its channels of the step in a measure mode: numerators over the
channel's own denominator are compared one by one, so the sum is taken in µ-records/s, each rounded up (R430). -/
def acqRate (s : State) (a : Nat) : Nat :=
  let b := rdFld s (Reg.ACQ_BLOCK a) 23 0
  let per := fun (r : Nat) => if redOn s a r then (if r = 0 then b else recsPer r) else 0
  let k := sumN ((List.range 4).map per)
  sumN ((acqChannels s a).map (fun c =>
    match buildChain s c with
    | some ch => ceilDiv (1000000 * ch.rho * rateNum ch.cls * k) (2 ^ 31 * periodOf s (c / 32) * decimation ch.cls ch.k ch.h * b)
    | none => 0))

/-- Whether unit `a` may start (R430). -/
def acqAdmitted (s : State) (a : Nat) : Bool :=
  let amount := (s.img.active.reserve.find? (fun r => r.cls == 3 && r.consumer == a)).map (·.amount)
  (match amount with
   | some m => decide (16 * acqRate s a ≤ m * 1000000 * 1000000)
   | none => false) &&
  (!(isTriggered s a) || (List.range 4).all (fun r => !(redOn s a r) ||
    decide ((rdN s (Reg.ACQ_PRE a) + rdN s (Reg.ACQ_POST a)) * recsPer r ≤ rdN s (Reg.ACQ_R_SIZE a r))))

/-- Writes the header of a ring at a START (R425). -/
def writeRingHeader (a : Nat) (s : State) (r : Nat) : State :=
  let bs := leBytes 1 0x41 ++ leBytes 1 a ++ leBytes 1 r ++ leBytes 1 (b2n (isTriggered s a)) ++ leBytes 4 (epochNow s).toNat ++
    leBytes 4 (rdN s Reg.SEQ_STEP_COUNT) ++ leBytes 4 (rdN s (Reg.ACQ_R_SIZE a r)) ++ leBytes 4 (rdFld s (Reg.ACQ_BLOCK a) 23 0) ++
    leBytes 4 0 ++ leBytes 8 (rd64 s Reg.SEQ_STEPTIME_LO) ++ List.replicate 32 0
  let s := setBytes (ringBase s a r) bs s
  setRegN (Reg.ACQ_R_WR a r) 0 (setRegN (Reg.ACQ_R_RD a r) 0 (setRegN (Reg.ACQ_R_TRIG a r) 0xFFFFFFFF (setRegN (Reg.ACQ_R_OVERWR a r) 0 s)))

/-- The detectors that watch channels of the step start disarmed, and publish D_AQ (R429). -/
def startDetector (groups : List Nat) (s : State) (a : Nat) : State :=
  let g := rdFld s (Reg.ACQ_DET_CH a) 8 0 / 32
  if rdBit s (Reg.ACQ_DET_CH a) 15 && groups.contains g then
    setRegN (Reg.ACQ_DET_LAT a) (halfTicksToNs (2 * (latTicks (periodOf s g) + 24576)))
      (modAcq a (fun u => { u with low := false, high := false }) s)
  else s

/-- Sets up an acquisition unit at a START that includes it (R425, R428). -/
def startAcq (a : Nat) (s : State) : State :=
  let s := modAcq a (fun _ => {}) s
  if rdBit s (Reg.ACQ_CTRL a) 0 then
    let s := ((List.range 4).filter (fun r => redOn s a r)).foldl (writeRingHeader a) s
    setRegN (Reg.ACQ_STATE a) (if isTriggered s a && rdBit s (Reg.ACQ_CTRL a) 15 then 2 else 1) s
  else setRegN (Reg.ACQ_STATE a) 0 s

/-- Ends the part of unit `a` in a step (R423, R428): open blocks are cut, and a capture that still waits for records sets
POST_SHORT. -/
def endAcq (a : Nat) (s : State) : State :=
  if !(rdBit s (Reg.ACQ_CTRL a) 0) then s
  else
    let s := cutBlocks a (fun _ => true) s
    let u := acqUnit s a
    if isTriggered s a && u.triggered then
      if !u.left.isEmpty || !u.want.isEmpty then
        setAcqState a 4 (orReg Reg.ACQ_EVENTS 4 (setBit (Reg.ACQ_STATE a) 9 true s))
      else setAcqState a 4 s
    else setAcqState a 0 s

/-! ### Meanings -/

/-- MEASURE_OUTPUT: the next output of channel `c`; `residue` names a datapath whose residue check failed, `copies` what the
reduction sections' copies did (R349, R431). -/
def execMeasureOutput (c : Fin 512) (residue : Option (Fin 9)) (copies : Copies) (s : State) : Host.Outcome State Fault Refusal :=
  let s := measureOutput c.val s
  let s := match residue with | some d => residueError d.val s | none => s
  .next (copiesRun 0x0A 0 copies s)

/-- A write of ACQ_R_RD (R426). -/
def acqRdWrite (a r : Nat) (value : Word) (s : State) : State :=
  if rdN s (Reg.ACQ_R_WR a r) < value.toNat then answer stValueRange s
  else if value.toNat < rdN s (Reg.ACQ_R_RD a r) then answer stOk s
  else answer stOk (setReg (Reg.ACQ_R_RD a r) value s)

/-- ACQ_R_RD_WRITE. -/
def execAcqRRdWrite (q : Req) (a : Fin 32) (r : Fin 4) (value : Word) (s : State) : Host.Outcome State Fault Refusal :=
  .next (guarded q (Reg.ACQ_R_RD a.val r.val) value (acqRdWrite a.val r.val value) s)

end Sys2Proof.Machine
end

