-- ==== Sys2Proof/Machine/Keccak.lean ====
section
/-! DEFINITION. SHA3-256 and SHA3-512, which the spec names for digests, key hashes and identities (R37, R182, R495, R566, R649). The spec
names the functions and does not lay them down: they are taken from FIPS 202 (PRESUMED, notes/assumptions/45.md). -/

namespace Sys2Proof.Machine

open Sys2Proof

/-- A 64-bit lane turned left by `n` places. -/
def rotl64 (v n : Nat) : Nat := (v <<< n ||| v >>> (64 - n)) % 18446744073709551616

/-- The turn of lane `x + 5y` in the step rho. -/
def rhoTurns : List Nat := [0, 1, 62, 28, 27, 36, 44, 6, 55, 20, 3, 10, 43, 25, 39, 41, 45, 15, 21, 8, 18, 2, 61, 56, 14]

/-- The lane that the step pi puts at place `x + 5y`. -/
def piSource : List Nat := [0, 6, 12, 18, 24, 3, 9, 10, 16, 22, 1, 7, 13, 19, 20, 4, 5, 11, 17, 23, 2, 8, 14, 15, 21]

/-- The constants of the step iota. -/
def iotaConsts : List Nat :=
  [0x0000000000000001, 0x0000000000008082, 0x800000000000808A, 0x8000000080008000, 0x000000000000808B, 0x0000000080000001,
   0x8000000080008081, 0x8000000000008009, 0x000000000000008A, 0x0000000000000088, 0x0000000080008009, 0x000000008000000A,
   0x000000008000808B, 0x800000000000008B, 0x8000000000008089, 0x8000000000008003, 0x8000000000008002, 0x8000000000000080,
   0x000000000000800A, 0x800000008000000A, 0x8000000080008081, 0x8000000000008080, 0x0000000080000001, 0x8000000080008008]

/-- Theta, rho and pi: lane `k` of the result for the column parities `p`. -/
def mixLane (a p : List Nat) (k : Nat) : Nat :=
  let j := nth 0 piSource k
  let x := j % 5
  rotl64 (nth 0 a j ^^^ nth 0 p ((x + 4) % 5) ^^^ rotl64 (nth 0 p ((x + 1) % 5)) 1) (nth 0 rhoTurns j)

/-- Chi: lane `k` of the result. -/
def chiLane (b : List Nat) (k : Nat) : Nat :=
  let r := k / 5 * 5
  nth 0 b k ^^^ ((18446744073709551615 - nth 0 b (r + (k + 1) % 5)) &&& nth 0 b (r + (k + 2) % 5))

/-- One round of the permutation on 25 lanes. -/
def keccakRound (a : List Nat) (rc : Nat) : List Nat :=
  let p := (List.range 5).map (fun x => (List.range 5).foldl (fun v y => v ^^^ nth 0 a (x + 5 * y)) 0)
  let b := (List.range 25).map (mixLane a p)
  match (List.range 25).map (chiLane b) with
  | c :: r => (c ^^^ rc) :: r
  | [] => []

/-- The permutation of 24 rounds. -/
def keccakF (a : List Nat) : List Nat := iotaConsts.foldl keccakRound a

/-- The 64-bit lanes of a byte string whose length is a multiple of 8. -/
def lanes64 : List Byte → List Nat
  | b0 :: b1 :: b2 :: b3 :: b4 :: b5 :: b6 :: b7 :: bs => ofLeBytes [b0, b1, b2, b3, b4, b5, b6, b7] :: lanes64 bs
  | _ => []

/-- Takes in the next block of `rate` lanes. -/
def absorbBlock (rate : Nat) (a ls : List Nat) : List Nat := keccakF (List.zipWith (· ^^^ ·) a (padTo 25 0 (ls.take rate)))

/-- Takes in `n` blocks of `rate` lanes. -/
def absorb (rate : Nat) : Nat → List Nat → List Nat → List Nat
  | 0, a, _ => a
  | n + 1, a, ls => absorb rate n (absorbBlock rate a ls) (ls.drop rate)

/-- A message with the padding of SHA3 for blocks of `rate` lanes. -/
def sha3Pad (rate : Nat) (m : List Byte) : List Byte :=
  let n := 8 * rate - m.length % (8 * rate)
  if n = 1 then m ++ [0x86] else m ++ [0x06] ++ List.replicate (n - 2) 0 ++ [0x80]

/-- SHA3 with blocks of `rate` lanes and a digest of `n` words. -/
def sha3 (rate n : Nat) (m : List Byte) : List Word :=
  let ls := lanes64 (sha3Pad rate m)
  ((absorb rate (ls.length / rate) (List.replicate 25 0) ls).flatMap (fun l => [wd l, wd (l / 4294967296)])).take n

/-- SHA3-256, as 8 words with byte 0 of the digest the least significant byte of the first. -/
def sha3_256 (m : List Byte) : List Word := sha3 17 8 m

/-- SHA3-512, as 16 words. -/
def sha3_512 (m : List Byte) : List Word := sha3 9 16 m

end Sys2Proof.Machine
end

