-- ==== Sys2Proof/Machine/Mem.lean ====
section
/-! DEFINITION. Working memory (R453 to R468, R494): the address map, poison, the charges of R43 and R467, errors, the fencing of
pseudo-channels and the spare, refresh, the object area, and the register commands of the MEM block. -/

namespace Sys2Proof.Machine

open Sys2Proof

/-! ### The address map -/

/-- Whether memory is UNMIRRORED (IMG_STATUS). -/
def unmirrored (s : State) : Bool := rdBit s Reg.MEM_STATUS 0

/-- The first address of the device region (R454). -/
def deviceRegion : Nat := 0x000898000000

/-- The first address past window 0. -/
def window0End : Nat := 0x0008B8000000

/-- The first address of window 1. -/
def window1 : Nat := 0x001000000000

/-- The first address past window 1. -/
def window1End : Nat := 0x001898000000

/-- The base of the object area. -/
def objBase (s : State) : Nat := rdN s Reg.MEM_OBJ_BASE_LO + 4294967296 * rdFld s Reg.MEM_OBJ_BASE_HI 15 0

/-- Whether an address lies in HBM (R453). -/
def inHbm (s : State) (a : Nat) : Bool :=
  decide (a < window0End) || (unmirrored s && decide (window1 ≤ a) && decide (a < window1End))

/-- Whether an address lies in site SRAM (R494). -/
def inSram (a : Nat) : Bool := decide (0x100000000000 ≤ a) && decide (a < 0x100001E00000)

/-- The core whose ITCM or task window holds an address, with the offset (R494). -/
def coreWindow (a : Nat) : Option (Nat × Nat) :=
  if 0x100010000000 ≤ a ∧ a < 0x100010000000 + 64 * 0x20000 then
    some ((a - 0x100010000000) / 0x20000, (a - 0x100010000000) % 0x20000)
  else none

/-- Whether an address lies in an ITCM. -/
def inItcm (a : Nat) : Bool := match coreWindow a with | some (_, o) => decide (o < 0x10000) | none => false

/-- Whether an address lies in a task window. -/
def inTaskWindow (a : Nat) : Bool :=
  match coreWindow a with | some (_, o) => decide (0x10000 ≤ o) && decide (o < 0x10080) | none => false

/-- Whether KCT and DMA reach an address (R453, R494). -/
def memMapped (s : State) (a : Nat) : Bool := inHbm s a || inSram a || inItcm a || inTaskWindow a

/-- Whether the areas of the map that hold `a` and `a + n - 1` are one, so that every byte between is mapped alike. -/
def sameArea (s : State) (a n : Nat) : Bool :=
  let b := a + n - 1
  (decide (b < window0End)) || (unmirrored s && decide (window1 ≤ a) && decide (b < window1End)) ||
  (inSram a && inSram b) || (coreWindow a == none) == false && (inItcm a == inItcm b) && (inTaskWindow a == inTaskWindow b) &&
    (coreWindow a).map (·.1) == (coreWindow b).map (·.1)

/-- Whether KCT and DMA reach all of `n` bytes at `a`. -/
def rangeMapped (s : State) (a n : Nat) : Bool := decide (n = 0) || (memMapped s a && memMapped s (a + n - 1) && sameArea s a n)

/-- Whether `n` bytes at `a` touch the object area or the device region (R454, R455). -/
def inProtected (s : State) (a n : Nat) : Bool := decide (objBase s < a + n) && decide (a < window0End)

/-- Whether `n` bytes at `a` lie in the host area (R454). -/
def inHostArea (s : State) (a n : Nat) : Bool :=
  decide (a + n ≤ objBase s) || (unmirrored s && decide (window1 ≤ a) && decide (a + n ≤ window1End))

/-- Bytes that a resident object takes in the object area. -/
def objSpan (o : LibObj) : Option (Nat × Nat) := o.base.map (fun b => (b, o.length))

/-- Whether `n` bytes at `a` touch a waveform segment in play (R367). -/
def touchesPlay (s : State) (a n : Nat) : Bool :=
  s.src.inPlay.any (fun id =>
    match (objOf s id).bind objSpan with
    | some (b, l) => decide (a < b + l) && decide (b < a + n)
    | none => false)

/-- What a device-side reader sees of `n` bytes at `a` (R494, R497): a task window reads as 0. -/
def readBytes (s : State) (a n : Nat) : List Byte :=
  if inTaskWindow a then List.replicate n 0 else memBytes s a n

/-! ### Stacks, pseudo-channels and poison -/

/-- The granule set of an address in its window (R456). -/
def granuleSet (a : Nat) : Nat := (if window1 ≤ a then a - window1 else a) / 256 % 31

/-- The registers of a stack: fenced pseudo-channels and capacity. -/
def fencedReg (st : Nat) : Nat := if st = 0 then Reg.MEM_PC_FENCED0 else Reg.MEM_PC_FENCED1

/-- The capacity register of a stack. -/
def capReg (st : Nat) : Nat := if st = 0 then Reg.MEM_CAP0 else Reg.MEM_CAP1

/-- The set the spare of a stack stands for, if VALID. -/
def spareFor (s : State) (st : Nat) : Option Nat :=
  if rdBit s Reg.MEM_SPARE_MAP (8 * st + 7) then some (rdFld s Reg.MEM_SPARE_MAP (8 * st + 4) (8 * st)) else none

/-- Whether a pseudo-channel is fenced. -/
def pcFenced (s : State) (st n : Nat) : Bool := rdBit s (fencedReg st) n

/-- The pseudo-channel that serves set `k` of stack `st`. -/
def pcOfSet (s : State) (st k : Nat) : Nat := if spareFor s st = some k then 31 else k

/-- Whether set `k` of stack `st` has lost its pseudo-channel and its spare (R466). -/
def setLost (s : State) (st k : Nat) : Bool :=
  if spareFor s st = some k then pcFenced s st 31 else pcFenced s st k

/-- k of R467: the sets of stack `st` that have lost their mirror. -/
def lostSets (s : State) (st : Nat) : Nat := ((List.range 31).filter (setLost s st)).length

/-- Whether the 32-byte unit at an address is poisoned (R462, R468). -/
def unitPoisoned (s : State) (a : Nat) : Bool :=
  tget (fun _ => false) s.hbm.poison (a / 32) ||
  (!s.hbm.lostSets.isEmpty && inHbm s a && s.hbm.lostSets.contains (if window1 ≤ a then 1 else 0, granuleSet a) &&
    !(tget (fun _ => false) s.hbm.healed (a / 32)))

/-- Whether any unit of `n` bytes at `a` is poisoned. -/
def rangePoisoned (s : State) (a n : Nat) : Bool :=
  (!s.hbm.poison.isEmpty || !s.hbm.lostSets.isEmpty) &&
  (List.range ((a + n + 31) / 32 - a / 32)).any (fun i => unitPoisoned s (32 * (a / 32 + i)))

/-! ### Charges -/

/-- Whether a reservation is a read (R43). -/
def isReadClass (r : Reserve) : Bool := [1, 6, 7].contains r.cls || (r.cls == 5 && r.consumer == 1)

/-- AMOUNT in 1/496 MB/s; an Ethernet amount is in Mbit/s. -/
def amount496 (r : Reserve) : Nat := if r.cls = 6 then r.amount * 62 else r.amount * 496

/-- The charge of a stack in 1/496 MB/s under R43 and R467; `un` says UNMIRRORED. -/
def hbmCharge (s : State) (rs : List Reserve) (un : Bool) (st : Nat) : Int :=
  let k0 : Int := lostSets s st
  let k1 : Int := lostSets s (1 - st)
  sumI (rs.map (fun r =>
    let a : Int := amount496 r
    if r.cls = 8 then 0
    else if un then
      if bitN r.rflags 2 then (if st = 0 then a else 0)
      else if bitN r.rflags 1 then (if st = 1 then a else 0)
      else a / 2
    else if isReadClass r then a / 2 + (a / 62) * (k1 - k0)
    else a))

/-- The bandwidth of a stack left to reservations, as IMG_HBM_CAP shows it: MEM_CAP less the Pavane share of R42, in MB/s; 0 where the
share exceeds MEM_CAP (DESIGN CHOICE, notes/assumptions/49.md). -/
def hbmRoom (s : State) (st : Nat) : Nat := rdN s (capReg st) - 30720

/-- Whether reservations and the Pavane share exceed a stack's capacity, taken exactly (R42, R43). -/
def overCap (s : State) (rs : List Reserve) (un : Bool) (st : Nat) : Bool :=
  decide ((496 * rdN s (capReg st) : Int) < hbmCharge s rs un st + 496 * 30720)

/-- Raises the C3 of R467 for every stack whose charge comes to exceed its capacity, for the pseudo-channel `n` of `st`. -/
def checkCharges (st n : Nat) (s : State) : State :=
  if stepRuns s then
    [0, 1].foldl (fun s k =>
      let rs := s.img.active.reserve
      if overCap s rs false k then
        raise (mkFaultD 3 0x0E (32 * st + n) 0x09 (ceilDiv (hbmCharge s rs false k).toNat 496) (hbmRoom s k)) s
      else s) s
  else s

/-! ### Fencing -/

/-- Whether the spare of a stack is enabled and unused (R457, R464). -/
def spareReady (s : State) (st : Nat) : Bool :=
  s.img.active.spares.pc == 1 && !(rdBit s Reg.MEM_STATUS (3 + st)) && !(pcFenced s st 31)

/-- Whether the copy into the spare of stack `st` has not ended. -/
def copyRuns (s : State) (st : Nat) : Bool := s.hbm.copies.any (fun e => e.1 == st)

/-- Changes the copies and shows the one that runs in MEM_STATUS. The copies of two stacks run one after the other (DESIGN CHOICE,
notes/assumptions/56.md). -/
def setCopies (l : List (Nat × Nat)) (s : State) : State :=
  let s := { s with hbm := { s.hbm with copies := l } }
  match l with
  | [] => setBit Reg.MEM_STATUS 7 false (setFld Reg.MEM_STATUS 21 16 0 s)
  | e :: _ => setBit Reg.MEM_STATUS 7 true (setFld Reg.MEM_STATUS 21 21 e.1 (setFld Reg.MEM_STATUS 20 16 e.2 s))

/-- The copy of stack `st` ends without success. -/
def stopCopy (st : Nat) (s : State) : State := setCopies (s.hbm.copies.filter (fun e => e.1 != st)) s

/-- With UNMIRRORED memory the units of sets that nothing serves read as poisoned until they are written (R468). -/
def loseSets (st : Nat) (ks : List Nat) (s : State) : State :=
  if unmirrored s then
    setBit Reg.MEM_STATUS 8 true { s with hbm := { s.hbm with lostSets := s.hbm.lostSets ++ ks.map (fun k => (st, k)) } }
  else s

/-- Sets the capacity of a stack from its lost sets (R44) and the DEGRADED bit. -/
def setCapacity (st : Nat) (s : State) : State :=
  let k := lostSets s st
  let s := setBit Reg.MEM_STATUS (5 + st) (decide (k ≠ 0)) s
  let cap := 768000 - 24000 * k
  if cap < rdN s (capReg st) then orReg Reg.MEM_EVENTS 0x80 (setRegN (capReg st) cap s) else s

/-- Starts the copy into the spare of a stack (R464). -/
def startCopy (st n : Nat) (s : State) : State :=
  let s := setFld Reg.MEM_SPARE_MAP (8 * st + 7) (8 * st) (0x80 + n) s
  let s := setCopies (s.hbm.copies ++ [(st, n)]) s
  useSpare (setBit Reg.MEM_STATUS (3 + st) true s)

/-- The fault of a fenced pseudo-channel. -/
def pcFault (cls st n : Nat) : FaultRec := mkFault cls 0x0E (32 * st + n) 0x02

/-- Fences pseudo-channel `n` of stack `st` (R463 to R468). -/
def fencePc (st n : Nat) (s : State) : State :=
  if pcFenced s st n then s
  else
    let copying := copyRuns s st && n == 31
    let ready := spareReady s st
    let used := rdBit s Reg.MEM_STATUS (3 + st)
    let s := orReg Reg.MEM_EVENTS 4 (setReg (fencedReg st) (rd s (fencedReg st) ||| wd (2 ^ n)) s)
    let s := fenceUnit 0x0E (32 * st + n) s
    let cls := if unmirrored s && stepRuns s then 3 else 2
    if copying then
      -- a fault of the spare during its copy (R465)
      setCapacity st (loseSets st [(spareFor s st).getD 31] (stopCopy st (raise (pcFault 3 st n) s)))
    else if n = 31 && !used then
      -- the spare fails while unused (R464)
      raise (pcFault cls st n) (useSpare (setBit Reg.MEM_STATUS (3 + st) true s))
    else if ready then
      startCopy st n (raise { pcFault cls st n with takeover := true, replacement := 32 * st + 31 } s)
    else
      let k := if n = 31 then (spareFor s st).getD 31 else n
      let s := raise (pcFault cls st n) s
      let s := setCapacity st s
      if unmirrored s then loseSets st [k] s else checkCharges st n s

/-- A failure of a stack's PHY fences all its pseudo-channels at once (R463, R467). -/
def fencePhy (st : Nat) (s : State) : State :=
  let copying := copyRuns s st
  let cls := if copying || (unmirrored s && stepRuns s) then 3 else 2
  let s := setReg (fencedReg st) (wd max32) (orReg Reg.MEM_EVENTS 4 s)
  let s := useSpare (setBit Reg.MEM_STATUS (3 + st) true (fenceUnit 0x0F st s))
  let s := if copying then stopCopy st s else s
  let s := setCapacity st (raise (mkFault cls 0x0F st 0x02) s)
  if unmirrored s then loseSets st (List.range 31) s else checkCharges st 31 s

/-! ### Errors -/

/-- The stack whose copy of an address a read sees: its window with UNMIRRORED memory, otherwise the one observed. -/
def stackOf (s : State) (st a : Nat) : Nat :=
  if unmirrored s && !(decide (deviceRegion ≤ a) && decide (a < window0End)) then (if window1 ≤ a then 1 else 0) else st

/-- A corrected error (R462). -/
def memCorrected (st a : Nat) (s : State) : State :=
  let st := stackOf s st a
  let n := pcOfSet s st (granuleSet a)
  raise (mkFaultD 1 0x0E (32 * st + n) 0x01 (a % 4294967296) (a / 4294967296))
    (orReg Reg.MEM_EVENTS 1 (incSat Reg.MEM_CORR_COUNT 1 s))

/-- Whether a granule keeps its mirror (R462, R466). -/
def keepsMirror (s : State) (a : Nat) : Bool :=
  (!(unmirrored s) || (decide (deviceRegion ≤ a) && decide (a < window0End))) &&
  !(setLost s 0 (granuleSet a)) && !(setLost s 1 (granuleSet a))

/-- Poisons the unit at an address (R462). -/
def poisonUnit (a : Nat) (s : State) : State :=
  { setBit Reg.MEM_STATUS 8 true (orReg Reg.MEM_EVENTS 16 (incSat Reg.MEM_POISON_COUNT 1 s)) with
    hbm := { s.hbm with poison := tset (fun _ => false) s.hbm.poison (a / 32) true,
                        healed := terase s.hbm.healed (a / 32) } }

/-- An uncorrectable error of the unit at `a` in stack `st` (R462, R463, R465); `copied` says whether a copy under way has
passed its granule. -/
def memUncorrectable (st a : Nat) (copied : Bool) (s : State) : State :=
  let st := stackOf s st a
  let k := granuleSet a
  let n := pcOfSet s st k
  let id := 32 * st + n
  let s := setRegN Reg.MEM_LAST_ERR_LO a (setRegN Reg.MEM_LAST_ERR_HI (65536 * st + a / 4294967296 % 65536) s)
  let s :=
    if copyRuns s (1 - st) && spareFor s (1 - st) == some k && !copied then
      raise (mkFaultD 3 0x0E id 0x02 (a % 4294967296) (a / 4294967296)) s
    else if keepsMirror s a then
      raise (mkFaultD 1 0x0E id 0x02 (a % 4294967296) (a / 4294967296))
        (orReg Reg.MEM_EVENTS 2 (incSat Reg.MEM_UNCORR_COUNT 1 s))
    else if unitPoisoned s a then s
    else raise (mkFaultD 1 0x0E id 0x02 (a % 4294967296) (a / 4294967296)) (poisonUnit a s)
  let recent := ((tget (fun _ => []) s.hbm.errTimes id).filter (fun t => decide (s.time < t + 100000000))) ++ [s.time]
  let s := { s with hbm := { s.hbm with errTimes := tset (fun _ => []) s.hbm.errTimes id recent } }
  if rdN s Reg.MEM_XFENCE_THRESH < recent.length then fencePc st n s else s

/-- A read of `n` bytes at `a` sees an injected error (R490). -/
def readHook (a n : Nat) (s : State) : State :=
  match s.hbm.inject with
  | some (u, two) =>
    if decide (u < a + n) && decide (a < u + 32) then
      let s := { s with hbm := { s.hbm with inject := none } }
      let st := if window1 ≤ u then 1 else (if rdBit s Reg.MEM_XINJECT 30 then 1 else 0)
      if two then memUncorrectable st u false s else memCorrected st u s
    else s
  | none => s

/-- A pattern, program or waveform read of a poisoned unit during a step is a C3 fault (R462). -/
def poisonRead (a n : Nat) (s : State) : State :=
  let s := readHook a n s
  if stepRuns s && rangePoisoned s a n then
    raise (mkFaultD 3 0x0E (granuleSet a) 0x02 (a % 4294967296) (a / 4294967296)) s
  else s

/-! ### The object area -/

/-- Removes an object from the object area. -/
def evict (id : Nat) (s : State) : State :=
  let s := modObj id (fun o => { o with base := none }) s
  { s with lib := { s.lib with lru := s.lib.lru.filter (fun i => i != id) } }

/-- Bytes of HBM held by resident objects. -/
def areaUsed (s : State) : Nat :=
  sumN (s.lib.objs.map (fun e => match e.2 with | some o => if o.base.isSome then o.length else 0 | none => 0))

/-- Refreshes MEM_OBJ_USED. -/
def showArea (s : State) : State := setRegN Reg.MEM_OBJ_USED (ceilDiv (areaUsed s) 1048576) s

/-- A write of MEM_OBJ_BASE (R482): half `hi` of the base. -/
def objBaseWrite (hi : Bool) (value : Word) (s : State) : State :=
  let b := if hi then rdN s Reg.MEM_OBJ_BASE_LO + 4294967296 * fld value 15 0
    else value.toNat + 4294967296 * rdFld s Reg.MEM_OBJ_BASE_HI 15 0
  if b % 2 ^ 30 ≠ 0 ∨ b < 0x000040000000 ∨ 0x000858000000 < b then answer stValueRange s
  else
    let s := accept (if hi then Reg.MEM_OBJ_BASE_HI else Reg.MEM_OBJ_BASE_LO) value s
    let s := (s.lib.objs.map (·.1)).foldl (fun s id => evict id s) s
    showArea (setRegN Reg.MEM_OBJ_SIZE ((deviceRegion - b) / 1048576) s)

/-! ### Meanings -/

/-- HBM_CORRECTED_ERROR at an address of a stack. -/
def execHbmCorrectedError (st : Fin 2) (addr : Nat) (s : State) : Host.Outcome State Fault Refusal :=
  .next (if inHbm s addr then memCorrected st.val addr s else s)

/-- HBM_UNCORRECTABLE at an address of a stack. -/
def execHbmUncorrectable (st : Fin 2) (addr : Nat) (copied : Bool) (s : State) : Host.Outcome State Fault Refusal :=
  .next (if inHbm s addr then memUncorrectable st.val addr copied s else s)

/-- PC_FENCE: pseudo-channel `n` of a stack, or all of them when its PHY fails (R463). -/
def execPcFence (st : Fin 2) (n : Option (Fin 32)) (s : State) : Host.Outcome State Fault Refusal :=
  .next (match n with | some n => fencePc st.val n.val s | none => fencePhy st.val s)

/-- SPARE_COPY_COMPLETE: the copy ends (R464); with UNMIRRORED memory the units it could not read are poisoned (R468). -/
def execSpareCopyComplete (unread : List Nat) (s : State) : Host.Outcome State Fault Refusal :=
  .next (
    if rdBit s Reg.MEM_STATUS 7 then
      let s := orReg Reg.MEM_EVENTS 8 (setCopies (s.hbm.copies.drop 1) s)
      if unmirrored s then (unread.filter (inHbm s)).foldl (fun s a => poisonUnit a s) s else s
    else s)

/-- HBM_TEMP_REFRESH: a stack's sensor crosses 85 °C upward, or 80 °C downward (R461). -/
def execHbmTempRefresh (st : Fin 2) (hot : Bool) (s : State) : Host.Outcome State Fault Refusal :=
  .next (
    let s := setBit Reg.MEM_STATUS (1 + st.val) hot s
    if hot then orReg Reg.MEM_EVENTS 32 s else s)

/-- MEM_OBJ_BASE_WRITE: a write of the low or high half of the base. -/
def execMemObjBaseWrite (q : Req) (hi : Bool) (value : Word) (s : State) : Host.Outcome State Fault Refusal :=
  .next (guarded q (if hi then Reg.MEM_OBJ_BASE_HI else Reg.MEM_OBJ_BASE_LO) value (objBaseWrite hi value) s)

/-- A write of MEM_XINJECT (R490). -/
def memInject (value : Word) (s : State) : State :=
  let u := 32 * fld value 28 0
  let a := if unmirrored s && bit value 30 then window1 + u else u
  answer stOk (setReg Reg.MEM_XINJECT value
    { s with hbm := { s.hbm with inject := if bit value 31 then some (a, bit value 29) else none } })

/-- MEM_INJECT. -/
def execMemInject (q : Req) (value : Word) (s : State) : Host.Outcome State Fault Refusal :=
  .next (guarded q Reg.MEM_XINJECT value (memInject value) s)

end Sys2Proof.Machine
end

