-- ==== Sys2Proof/Machine/Sched.lean ====
section
/-! DEFINITION. Site cores and the task dispatcher (R493 to R520): the core instructions of R496, submission and its refusals,
templates, placement and pre-emption, output and release, and spare cores. -/

namespace Sys2Proof.Machine

open Sys2Proof

/-! ### Accessors -/

/-- The task in slot `i`. -/
def taskAt (s : State) (i : Nat) : Option Task := tget (fun _ => none) s.sch.tasks i

/-- Sets the task in slot `i`. -/
def setTask (i : Nat) (t : Option Task) (s : State) : State :=
  { s with sch := { s.sch with tasks := tset (fun _ => none) s.sch.tasks i t } }

/-- Changes the task in slot `i`. -/
def modTask (i : Nat) (f : Task → Task) (s : State) : State :=
  match taskAt s i with | some t => setTask i (some (f t)) s | none => s

/-- The tasks that hold slots, with their slots. -/
def tasks (s : State) : List (Nat × Task) := s.sch.tasks.filterMap (fun e => e.2.map (fun t => (e.1, t)))

/-- Site core `k`. -/
def coreOf (s : State) (k : Nat) : Core := tget (fun _ => {}) s.sch.cores k

/-- Changes site core `k`. -/
def modCore (k : Nat) (f : Core → Core) (s : State) : State :=
  { s with sch := { s.sch with cores := tset (fun _ => {}) s.sch.cores k (f (coreOf s k)) } }

/-- The ready list `l`, head first. -/
def readyList (s : State) (l : Nat) : List Nat := tget (fun _ => []) s.sch.ready l

/-- Sets ready list `l`. -/
def setReady (l : Nat) (ts : List Nat) (s : State) : State :=
  { s with sch := { s.sch with ready := tset (fun _ => []) s.sch.ready l ts } }

/-- Priority of a list. -/
def listPrio (s : State) (l : Nat) : Nat := rdFld s (Reg.SCH_LIST_CFG l) 2 0

/-- CAPACITY of a list. -/
def listCap (s : State) (l : Nat) : Nat := rdFld s (Reg.SCH_LIST_CFG l) 27 16 + 1

/-- Whether a list is ENABLED. -/
def listOn (s : State) (l : Nat) : Bool := rdBit s (Reg.SCH_LIST_CFG l) 8

/-- Whether core `k` may run the tasks of list `l`. -/
def eligible (s : State) (l k : Nat) : Bool :=
  bitN (rdN s (Reg.SCH_LIST_CORES_LO l) + 4294967296 * rdN s (Reg.SCH_LIST_CORES_HI l)) k && !(coreOf s k).fenced

/-- The list of a flow. -/
def flowList (s : State) (f : Nat) : Nat := rdFld s (Reg.SCH_FLOW_CFG f) 21 16

/-- Whether a flow is ENABLED. -/
def flowOn (s : State) (f : Nat) : Bool := rdBit s (Reg.SCH_FLOW_CFG f) 12

/-- Whether a flow is ORDERED. -/
def flowOrdered (s : State) (f : Nat) : Bool := rdBit s (Reg.SCH_FLOW_CFG f) 13

/-- WINDOW of a flow. -/
def flowWindow (s : State) (f : Nat) : Nat := rdFld s (Reg.SCH_FLOW_CFG f) 11 0 + 1

/-- Records of a flow's output ring. -/
def flowRing (s : State) (f : Nat) : Nat := 2 ^ rdFld s (Reg.SCH_FLOW_CFG f) 28 24

/-- The task that core `k` runs. -/
def runningOn (s : State) (k : Nat) : Option (Nat × Task) := (tasks s).find? (fun t => t.2.place == .running k)

/-- The task in the local slot of core `k`. -/
def inSlot (s : State) (k : Nat) : Option (Nat × Task) := (tasks s).find? (fun t => t.2.place == .slot k)

/-- The general register `r` of core `k`; register 0 reads 0. -/
def coreX (s : State) (k r : Nat) : Nat := if r = 0 then 0 else (tget (fun _ => (0 : BitVec 64)) (coreOf s k).x r).toNat

/-- Sets a general register of core `k`; a write of register 0 is discarded. -/
def setCoreX (k r v : Nat) (s : State) : State :=
  if r = 0 then s else modCore k (fun c => { c with x := tset (fun _ => 0) c.x r (BitVec.ofNat 64 v) }) s

/-- The save area of slot `i` (R494, R511). -/
def saveArea (i : Nat) : Nat := 0x100001E00000 + 512 * i

/-- The task window of core `k` (R494). -/
def taskWindow (k : Nat) : Nat := 0x100010010000 + 0x20000 * k

/-! ### Submission -/

/-- Tasks that hold slots of a list. -/
def listCount (s : State) (l : Nat) : Nat := ((tasks s).filter (fun t => t.2.list == l)).length

/-- Tasks that hold slots of a flow. -/
def flowCount (s : State) (f : Nat) : Nat := ((tasks s).filter (fun t => t.2.flow == f)).length

/-- FLOW of a descriptor. -/
def descFlow (d : List Byte) : Nat := ofLeBytes ((d.drop 8).take 2)

/-- TFLAGS of a descriptor. -/
def descFlags (d : List Byte) : Nat := ofLeBytes ((d.drop 10).take 2)

/-- The status a submission meets (R506), or OK. -/
def submitStatus (s : State) (d : List Byte) : Nat :=
  let f := descFlow d
  if 1024 ≤ f || !(flowOn s f) || decide (1 < descFlags d) || rdBit s Reg.SCH_STATUS 1 then stSchBadTask
  else if listCap s (flowList s f) ≤ listCount s (flowList s f) then stRefusedFull
  else if flowWindow s f ≤ flowCount s f then stRefusedFull
  else if detaching s then stRefusedFull
  else stOk

/-- The lowest free slot from `i` up. -/
def freeSlot (s : State) : Nat → Nat → Nat
  | 0, i => i
  | fuel + 1, i => if (taskAt s i).isNone then i else freeSlot s fuel (i + 1)

/-- Counts a refused submission (R506). -/
def countRefused (d : List Byte) (s : State) : State :=
  let f := descFlow d
  let s := orReg Reg.SCH_EVENTS 1 (incSat Reg.SCH_REFUSED 1 s)
  if f < 1024 then incSat (Reg.SCH_LIST_REFUSED (flowList s f)) 1 s else s

/-- Accepts a task (R502, R506). -/
def acceptTask (d : List Byte) (fromFlag : Bool) (s : State) : State :=
  let f := descFlow d
  let l := flowList s f
  let i := freeSlot s 4096 0
  let q := tget (fun _ => 0) s.sch.seqs f
  let s := setTask i (some { desc := d, flow := f, list := l, seq := q, epoch := epochNow s, fromFlag := fromFlag }) s
  let s := setReady l (readyList s l ++ [i]) s
  let s := { s with sch := { s.sch with seqs := tset (fun _ => 0) s.sch.seqs f (add32 q 1) } }
  setRegN Reg.SCH_OUTSTANDING (rdN s Reg.SCH_OUTSTANDING + 1) (incWrap Reg.SCH_SUBMITTED 1 s)

/-! ### Flags and templates -/

/-- Whether flag `n` has a pending submission. -/
def flagPending (s : State) (n : Nat) : Bool :=
  rdBit s (if n < 32 then Reg.SCH_FLAG_PEND_LO else Reg.SCH_FLAG_PEND_HI) (n % 32)

/-- Sets or clears the pending bit of flag `n`. -/
def setFlagPending (n : Nat) (b : Bool) (s : State) : State :=
  setBit (if n < 32 then Reg.SCH_FLAG_PEND_LO else Reg.SCH_FLAG_PEND_HI) (n % 32) b s

/-- The descriptor a template submits: TAG is the flag's VALUE (R504, R507). -/
def templateDesc (s : State) (n : Nat) (d : List Byte) : List Byte :=
  d.take 12 ++ leBytes 4 (rdN s (Reg.SCH_DFLAG n)) ++ d.drop 16

/-- The template of flag `n`, if one names it. -/
def templateOf (s : State) (n : Nat) : Option (List Byte) :=
  let d := tget (fun _ => []) s.sch.templates n
  if d.isEmpty then none else some d

/-- Submits the template of flag `n`; a refused one becomes or stays pending (R507). -/
def submitTemplate (n : Nat) (s : State) : State :=
  match templateOf s n with
  | none => s
  | some d =>
    let d := templateDesc s n d
    if submitStatus s d = stOk then acceptTask d true (setFlagPending n false s)
    else if flagPending s n then s
    else setFlagPending n true (countRefused d s)

/-- Retries pending submissions in ascending flag order (R507). -/
def retryTemplates (p : Nat → Bool) (s : State) : State :=
  ((List.range 64).filter (fun n => flagPending s n && p n)).foldl (fun s n => submitTemplate n s) s

/-- Retries what is pending for a list, before any other submission to it (R507). -/
def retryFor (l : Nat) (s : State) : State :=
  retryTemplates (fun n => match templateOf s n with | some d => flowList s (descFlow d) == l | none => false) s

/-- Submits a descriptor: its status and the state after (R506, R507). -/
def submit (d : List Byte) (s : State) : Nat × State :=
  let s := if descFlow d < 1024 then retryFor (flowList s (descFlow d)) s else s
  let st := submitStatus s d
  if st = stOk then (st, acceptTask d false s) else (st, countRefused d s)

/-- A dispatcher flag is set (R507). -/
def setFlag (n value : Nat) (s : State) : State :=
  let s := setRegN (Reg.SCH_DFLAG n) value s
  if flagPending s n then orReg Reg.SCH_EVENTS 2 (incSat Reg.SCH_FLAG_MERGED 1 s)
  else
    match templateOf s n with
    | some d => submitTemplate n (retryFor (flowList s (descFlow d)) s)
    | none => s

/-! ### Starting and placing tasks -/

/-- Writes the task window of a core for the task in slot `i` (R511). -/
def writeWindow (k i : Nat) (t : Task) (s : State) : State :=
  setBytes (taskWindow k)
    (padTo 64 0 t.desc ++ leBytes 4 t.seq ++ leBytes 2 t.flow ++ leBytes 2 (b2n t.resume + 2 * b2n t.takenOver) ++
      leBytes 8 (saveArea i) ++ leBytes 4 t.epoch.toNat ++ List.replicate 44 0) s

/-- FENCE.ACQ on core `k`: every clean line of the cache is invalidated; a line with a dirty byte is kept (R496, R499). -/
def fenceAcq (k : Nat) (s : State) : State :=
  modCore k (fun c => { c with clean := c.clean.filter (fun e => c.dirty.any (fun d => d.1 / 64 == e.1 / 64)) }) s

/-- The task in slot `i` starts on a core that waits in TNEXT (R496, R509): FENCE.ACQ, the window, and rd. -/
def startTask (k i : Nat) (s : State) : State :=
  match taskAt s i, (coreOf s k).waiting with
  | some t, some r =>
    let s := setTask i (some { t with place := .running k, started := s.sch.clock + 1 }) s
    let s := { s with sch := { s.sch with clock := s.sch.clock + 1 } }
    let s := modCore k (fun c => { c with waiting := none, preempt := false, trapTaken := false, lateCounted := false }) (fenceAcq k s)
    setCoreX k r (taskWindow k) (writeWindow k i { t with place := .running k } s)
  | _, _ => s

/-- Puts the task in slot `i` in the local slot of core `k`; one that stood there returns to the head of its list. -/
def enterSlot (k i : Nat) (s : State) : State :=
  let s := match inSlot s k with
    | some (j, u) => setReady u.list (j :: readyList s u.list) (modTask j (fun u => { u with place := .ready }) s)
    | none => s
  let s := match taskAt s i with
    | some t => setReady t.list ((readyList s t.list).filter (fun j => j != i)) s
    | none => s
  let s := modTask i (fun t => { t with place := .slot k }) s
  if (coreOf s k).waiting.isSome then startTask k i s else s

/-- Whether a task may be pre-empted (R508). -/
def mayPreempt (s : State) (t : Task) : Bool := !(rdBit s (Reg.SCH_LIST_CFG t.list) 9) && !(bitN (descFlags t.desc) 0)

/-- The cores a list may use, lowest first: not held in reset, fenced, halted or being taken over. -/
def listCores (s : State) (l : Nat) : List Nat :=
  (List.range 64).filter (fun k => eligible s l k && !(coreOf s k).held && !(coreOf s k).halted && !(coreOf s k).takeover)

/-- Case 1 of R508. -/
def caseIdle (s : State) (l : Nat) : Option Nat :=
  (listCores s l).find? (fun k => (runningOn s k).isNone && (inSlot s k).isNone)

/-- The best of a list of candidates under a comparison; the first one wins a tie. -/
def bestOf {α : Type} (less : α → α → Bool) : List α → Option α
  | [] => none
  | x :: xs => match bestOf less xs with | some y => if less y x then some y else some x | none => some x

/-- Case 2 of R508: the core that runs the lowest priority below `p` and may be pre-empted; the task that started last, then
the lower core, at ties. -/
def casePreempt (s : State) (l p : Nat) : Option Nat :=
  let cands := (listCores s l).filterMap (fun k => match runningOn s k with
    | some (_, t) =>
      let q := listPrio s t.list
      let free := match inSlot s k with | some (_, u) => decide (listPrio s u.list < p) | none => true
      if q < p && mayPreempt s t && free then some (k, q, t.started) else none
    | none => none)
  (bestOf (fun a b => decide (a.2.1 < b.2.1) || (a.2.1 == b.2.1 && decide (b.2.2 < a.2.2))) cands).map (·.1)

/-- Case 3 of R508: an empty slot, or the slot that holds the lowest priority below `p`. -/
def caseSlot (s : State) (l p : Nat) : Option Nat :=
  let ks := listCores s l
  match ks.find? (fun k => (inSlot s k).isNone) with
  | some k => some k
  | none =>
    let cands := ks.filterMap (fun k => match inSlot s k with
      | some (_, u) => if listPrio s u.list < p then some (k, listPrio s u.list) else none
      | none => none)
    (bestOf (fun a b => decide (a.2 < b.2)) cands).map (·.1)

/-- Core `k` takes the interrupt PREEMPT if it is enabled (R510). -/
def takePreempt (k : Nat) (s : State) : State :=
  let c := coreOf s k
  if c.preempt && !c.trapTaken && c.mie.getLsbD 16 && (c.user || c.statusMie) then
    modCore k (fun c => { c with
      trapTaken := true, mepc := c.pc, mcause := BitVec.ofNat 64 (2 ^ 63 + 16), mtval := 0, statusMpp := !c.user, user := false,
      statusMpie := c.statusMie, statusMie := false, pc := c.mtvec &&& ~~~ 3 }) s
  else s

/-- Pre-empts core `k` for the task in slot `i` (R508, R510). -/
def preempt (k i : Nat) (s : State) : State :=
  let fresh := !(coreOf s k).preempt
  let s := if fresh then incSat Reg.SCH_PREEMPTS 1 s else s
  let s := enterSlot k i (modCore k (fun c => { c with preempt := true }) s)
  takePreempt k s

/-- The heads of the ready lists in the order R508 takes them: highest priority first, lists of equal priority round-robin
after the one served last. -/
def headsInOrder (s : State) : List (Nat × Nat) :=
  (List.range 8).flatMap (fun q =>
    let p := 7 - q
    let ls := (List.range 64).filter (fun l => listPrio s l == p && !(readyList s l).isEmpty)
    let after := tget (fun _ => 63) s.sch.last p
    (ls.filter (fun l => decide (after < l)) ++ ls.filter (fun l => decide (l ≤ after))).filterMap (fun l =>
      (readyList s l).head?.map (fun i => (l, i))))

/-- What R508 does with the head `i` of list `l`, if it can be placed. -/
def placement (s : State) (l i : Nat) : Option State :=
  let p := listPrio s l
  match caseIdle s l with
  | some k => some (enterSlot k i s)
  | none =>
    match casePreempt s l p with
    | some k => some (preempt k i s)
    | none => (caseSlot s l p).map (fun k => enterSlot k i s)

/-- A core that waits in TNEXT with an empty slot takes a task of another core's slot that has not started, if its priority is
above that of every ready task the core may run: at equal priority a list is served before a slot (R509). -/
def stealSlot (s : State) : Option State :=
  (List.range 64).findSome? (fun k =>
    if (runningOn s k).isSome || (inSlot s k).isSome || (coreOf s k).waiting.isNone then none
    else
      let heads := (headsInOrder s).filter (fun e => (listCores s e.1).contains k)
      let cands := (tasks s).filter (fun t => match t.2.place with
        | .slot j => j != k && (listCores s t.2.list).contains k && heads.all (fun e => decide (listPrio s e.1 < listPrio s t.2.list))
        | _ => false)
      (bestOf (fun a b => decide (listPrio s b.2.list < listPrio s a.2.list)) cands).map (fun t => enterSlot k t.1 s))

/-- One placement of the dispatcher (R508, R509): an idle core takes from a slot what outranks the lists, else the first ready
task that can be placed is placed. -/
def dispatchOnce (s : State) : State :=
  match stealSlot s with
  | some t => t
  | none =>
    match (headsInOrder s).findSome? (fun e => (placement s e.1 e.2).map (fun t => (e.1, t))) with
    | some (l, t) => { t with sch := { t.sch with last := tset (fun _ => 63) t.sch.last (listPrio s l) l } }
    | none => s

/-! ### Output -/

/-- Whether SEQ `a` precedes SEQ `b` of one flow, modulo 2^32. -/
def seqBefore (a b : Nat) : Bool := a != b && decide (sub32 b a < 2147483648)

/-- The finished tasks of a flow that may be released, in the order of R513. -/
def releasable (s : State) (f : Nat) : List (Nat × Task) :=
  let ts := (tasks s).filter (fun t => t.2.flow == f)
  if flowOrdered s f then
    let ts := ts.foldl (fun l t => l.filter (fun u => seqBefore u.2.seq t.2.seq) ++ [t] ++ l.filter (fun u => !(seqBefore u.2.seq t.2.seq))) []
    ts.takeWhile (fun t => t.2.place == .finished)
  else
    let ts := ts.filter (fun t => t.2.place == .finished)
    ts.foldl (fun l t => l.filter (fun u => decide (u.2.ended < t.2.ended)) ++ [t] ++ l.filter (fun u => decide (t.2.ended ≤ u.2.ended))) []

/-- The output record of a task (R512). -/
def outputRecord (t : Task) : List Byte :=
  leBytes 1 0x44 ++ leBytes 1 (b2n t.preempted + 2 * b2n t.takenOver + 4 * b2n t.fromFlag) ++ leBytes 2 t.flow ++
    leBytes 4 t.epoch.toNat ++ leBytes 4 t.seq ++ (t.desc.drop 12).take 4 ++ padTo 16 0 t.result

/-- Releases the records of a flow while its ring has room; what a full ring holds is counted (R513). -/
def releaseFlow (f : Nat) : Nat → State → State
  | 0, s => s
  | fuel + 1, s =>
    let ts := releasable s f
    match ts with
    | [] => setRegN (Reg.SCH_FLOW_HELD f) 0 s
    | (i, t) :: _ =>
      let wr := rdN s (Reg.SCH_FLOW_WR f)
      if flowRing s f ≤ sub32 wr (rdN s (Reg.SCH_FLOW_RD f)) then
        orReg Reg.SCH_EVENTS 32 (setRegN (Reg.SCH_FLOW_HELD f) ts.length s)
      else
        let s := setBytes (tget (fun _ => 0) s.sch.bases f + 32 * (wr % flowRing s f)) (outputRecord t) s
        let s := setTask i none (setRegN (Reg.SCH_FLOW_WR f) (add32 wr 1) s)
        releaseFlow f fuel (setRegN Reg.SCH_OUTSTANDING (rdN s Reg.SCH_OUTSTANDING - 1) (incWrap Reg.SCH_RELEASED 1 s))

/-- Releases what a flow can release. -/
def releaseAll (f : Nat) (s : State) : State := releaseFlow f 4097 s

/-- FLUSH of a list (R520). -/
def flushList (l : Nat) (s : State) : State :=
  let gone := (tasks s).filter (fun t => t.2.list == l &&
    (match t.2.place with | .ready => true | .slot _ => true | _ => false))
  let s := gone.foldl (fun s t => setTask t.1 none s) (setReady l [] s)
  let s := incWrap Reg.SCH_CANCELLED gone.length (setRegN Reg.SCH_OUTSTANDING (rdN s Reg.SCH_OUTSTANDING - gone.length) s)
  (gone.map (fun t => t.2.flow)).foldl (fun s f => releaseAll f s) s

/-! ### Core instructions -/

/-- Whether core `k` can execute an instruction. -/
def coreRuns (s : State) (k : Nat) : Bool :=
  let c := coreOf s k
  !c.held && (!c.halted || c.stepping) && !c.fenced && !c.takeover && c.waiting.isNone

/-- The core goes on at the next instruction. -/
def nextPc (k : Nat) (s : State) : State := modCore k (fun c => { c with pc := c.pc + 4, stepping := false }) s

/-- Core `k` takes an exception in machine mode (R493, R496): its cause and what mtval receives. -/
def coreTrap (k cause v : Nat) (s : State) : State :=
  modCore k (fun c => { c with
    mepc := c.pc, mcause := BitVec.ofNat 64 cause, mtval := BitVec.ofNat 64 v, statusMpp := !c.user, user := false,
    statusMpie := c.statusMie, statusMie := false, pc := c.mtvec &&& ~~~ 3, stepping := false }) s

/-- An illegal-instruction exception (R496): mcause 2. -/
def illegalInstr (k : Nat) (s : State) : State :=
  let (v, s) := freeNat 64 s
  coreTrap k 2 v s

/-- A byte that core `k` has stored into the device region or the object area (R454, R500). -/
def protectedStore (s : State) (k : Nat) : Option Nat :=
  (((coreOf s k).buffer ++ (coreOf s k).dirty).find? (fun e => inProtected s e.1 1)).map (·.1)

/-- A store access fault (R500): mcause 7 with the address, and memory does not change. -/
def storeFault (k a : Nat) (s : State) : State :=
  coreTrap k 7 a (modCore k (fun c => { c with
    buffer := c.buffer.filter (fun e => !(inProtected s e.1 1)), dirty := c.dirty.filter (fun e => !(inProtected s e.1 1)) }) s)

/-- Runs a T instruction: illegal in user mode (R496). -/
def machineOnly (k : Nat) (f : State → State) (s : State) : State :=
  if !(coreRuns s k) then s else if (coreOf s k).user then illegalInstr k s else f s

/-- FENCE.REL (R496, R498): the write buffer drains and every dirty byte reaches its coherence point. -/
def fenceRel (k : Nat) (s : State) : State :=
  let c := coreOf s k
  let s := c.buffer.foldl (fun s e => setByte e.1 e.2 s) s
  let s := c.dirty.foldl (fun s e => setByte e.1 e.2 s) s
  modCore k (fun c => { c with
    buffer := [], dirty := [], clean := c.dirty.foldl (fun t e => tinsert (terase t e.1) e.1 e.2) c.clean }) s

/-- TNEXT rd: waits until the local slot holds a task, then starts it (R496, R509). -/
def tnext (k r : Nat) (s : State) : State :=
  let s := modCore k (fun c => { c with waiting := some r, preempt := false, trapTaken := false, lateCounted := false }) (nextPc k s)
  match inSlot s k with
  | some (i, _) => startTask k i s
  | none => s

/-- TDONE rs1: the running task ends with the 16 bytes at rs1 (R512); a PREEMPT not yet taken counts no pre-emption (R520). -/
def tdone (k r : Nat) (s : State) : State :=
  let s := nextPc k s
  match runningOn s k with
  | none => s
  | some (i, t) =>
    let c := coreOf s k
    let s := if c.preempt && !c.trapTaken then setRegN Reg.SCH_PREEMPTS (rdN s Reg.SCH_PREEMPTS - 1) s else s
    let s := modCore k (fun c => { c with preempt := false, trapTaken := false, lateCounted := false }) s
    let res := readBytes s (coreX s k r) 16
    let s := setTask i (some { t with place := .finished, result := res, ended := s.sch.clock + 1 }) s
    releaseAll t.flow { s with sch := { s.sch with clock := s.sch.clock + 1 } }

/-- TSUBMIT rd, rs1: submits the descriptor at rs1 (R506). -/
def tsubmit (k r r1 : Nat) (s : State) : State :=
  let (st, s) := submit (readBytes s (coreX s k r1) 64) s
  nextPc k (setCoreX k r st s)

/-- TYIELD: the pre-empted task returns to the head of its list with RESUME set (R510). -/
def tyield (k : Nat) (s : State) : State :=
  let s := nextPc k s
  match runningOn s k with
  | none => s
  | some (i, t) =>
    let s := setTask i (some { t with place := .ready, resume := true, preempted := true }) s
    let s := setReady t.list (i :: readyList s t.list) s
    modCore k (fun c => { c with preempt := false, trapTaken := false, lateCounted := false }) s

/-! ### Spares -/

/-- Spare cores reserved for the epoch and not yet used (R45, R517). -/
def coreSpares (s : State) : Nat := s.img.active.spares.core

/-- Core `k` is fenced (R518): a task in its slot goes back to the head of its list. -/
def fenceCore (k : Nat) (s : State) : State :=
  let s := match inSlot s k with
    | some (i, t) => setReady t.list (i :: readyList s t.list) (modTask i (fun t => { t with place := .ready }) s)
    | none => s
  let s := modCore k (fun c => { c with fenced := true, takeover := false }) s
  setBit (if k < 32 then Reg.SCH_CORES_FENCED_LO else Reg.SCH_CORES_FENCED_HI) (k % 32) true s

/-- CORE_MISMATCH: the copies of core `k` disagree (R516 to R518); a fault of a core that a spare already stands in for
escalates (R621). -/
def coreMismatch (k : Nat) (s : State) : State :=
  let c := coreOf s k
  if c.fenced then s
  else
    let s := orReg Reg.SCH_EVENTS 8 s
    if c.takeover || c.onSpare then fenceCore k (raise { mkFault 3 0x03 k 0x0B with escalated := true } s)
    else if coreSpares s ≠ 0 then
      let left := rdFld s Reg.SCH_STATUS 18 16
      let s := raise { mkFault 2 0x03 k 0x03 with takeover := true, replacement := 68 - left } s
      let s := setFld Reg.SCH_STATUS 18 16 (left - 1) (useSpare s)
      let s := { s with img := { s.img with active := { s.img.active with
        spares := { s.img.active.spares with core := s.img.active.spares.core - 1 } } } }
      modCore k (fun c => { c with takeover := true }) s
    else
      let busy := (runningOn s k).isSome || c.preempt
      fenceCore k (raise (mkFault (if busy then 3 else 2) 0x03 k 0x0A) s)

/-- CORE_TAKEOVER_DONE: a spare resumes the state of core `k` (R517). -/
def coreTakenOver (k : Nat) (s : State) : State :=
  if (coreOf s k).takeover then
    let s := modCore k (fun c => { c with takeover := false, onSpare := true }) (orReg Reg.SCH_EVENTS 64 s)
    match runningOn s k with
    | some (i, _) => modTask i (fun t => { t with takenOver := true }) s
    | none => s
  else s

/-! ### SCHED -/

/-- The number of `n` bytes at offset `o` of the SCHED section. -/
def schN (bs : List Byte) (o n : Nat) : Nat := ofLeBytes ((bs.drop o).take n)

/-- Loads list entry `l` at offset `o` (R504, R505); `sum` is the CAPACITY of the enabled lists before it. The flag says that
the entry was dropped. -/
def loadList (bs : List Byte) (l o sum : Nat) (s : State) : Nat × Bool × State :=
  let prio := schN bs o 1
  let fl := schN bs (o + 1) 1
  let cap := schN bs (o + 2) 2
  let cores := schN bs (o + 8) 8
  let bad := decide (7 < prio) || decide (3 < fl) || decide (cap = 0) || decide (4096 < cap) || schN bs (o + 4) 4 != 0 || cores == 0
  let on := bitN fl 0 && !bad && decide (sum + cap ≤ 4096)
  let cfg := prio % 8 + 256 * b2n on + 512 * b2n (bitN fl 1) + 65536 * ((cap - 1) % 4096)
  let s := setRegN (Reg.SCH_LIST_CFG l) cfg (setRegN (Reg.SCH_LIST_CORES_LO l) cores (setRegN (Reg.SCH_LIST_CORES_HI l) (cores / 4294967296) s))
  (if on then sum + cap else sum, bitN fl 0 && !on || bad, s)

/-- Loads flow entry `f` at offset `o` (R504, R505). -/
def loadFlow (bs : List Byte) (f o : Nat) (s : State) : Bool × State :=
  let l := schN bs o 1
  let fl := schN bs (o + 1) 1
  let win := schN bs (o + 2) 2
  let lg := schN bs (o + 4) 1
  let base := schN bs (o + 8) 8
  let inRange := decide (l < 64) && decide (fl < 4) && decide (1 ≤ win) && decide (win ≤ 4096) && decide (4 ≤ lg) && decide (lg ≤ 20) &&
    schN bs (o + 5) 3 == 0 && base % 4096 == 0 && (inHostArea s base (32 * 2 ^ lg) || (inSram base && inSram (base + 32 * 2 ^ lg - 1)))
  let on := bitN fl 0 && inRange && listOn s l
  let cfg := (win - 1) % 4096 + 4096 * b2n on + 8192 * b2n (bitN fl 1) + 65536 * (l % 64) + 16777216 * (lg % 32)
  let s := setRegN (Reg.SCH_FLOW_CFG f) cfg s
  let s := setRegN (Reg.SCH_FLOW_WR f) 0 (setRegN (Reg.SCH_FLOW_RD f) 0 (setRegN (Reg.SCH_FLOW_HELD f) 0 s))
  (!inRange || (bitN fl 0 && !on), { s with sch := { s.sch with bases := tset (fun _ => 0) s.sch.bases f base } })

/-- Loads the lists from entry `l` on: the sum of CAPACITY and whether an entry was dropped. -/
def loadLists (bs : List Byte) : Nat → Nat → Nat → Bool → State → Bool × State
  | 0, _, _, bad, s => (bad, s)
  | k + 1, l, sum, bad, s =>
    let (sum, b, s) := loadList bs l (64 + 16 * l) sum s
    loadLists bs k (l + 1) sum (bad || b) s

/-- Loads the flows from entry `f` on. -/
def loadFlows (bs : List Byte) (o : Nat) : Nat → Nat → Bool → State → Bool × State
  | 0, _, bad, s => (bad, s)
  | k + 1, f, bad, s =>
    let (b, s) := loadFlow bs f (o + 16 * f) s
    loadFlows bs o k (f + 1) (bad || b) s

/-- Loads the templates from record `i` on (R504, R505). -/
def loadTemplates (bs : List Byte) (o : Nat) : Nat → Nat → Bool → State → Bool × State
  | 0, _, bad, s => (bad, s)
  | k + 1, i, bad, s =>
    let a := o + 72 * i
    let n := schN bs a 1
    let d := (bs.drop (a + 8)).take 64
    let ok := decide (n < 64) && schN bs (a + 1) 7 == 0 && decide (descFlow d < 1024) && flowOn s (descFlow d) && decide (descFlags d < 2)
    let s := if ok then { s with sch := { s.sch with templates := tset (fun _ => []) s.sch.templates n d } } else s
    loadTemplates bs o k (i + 1) (bad || !ok) s

/-- Copies the core image into every ITCM and starts every core at ENTRY in machine mode (R495). -/
def startCores (entry : Nat) (code : List Byte) (s : State) : State :=
  let s := (List.range 64).foldl (fun s k => setBytes (0x100010000000 + 0x20000 * k) (padTo 65536 0 code) s) s
  (List.range 64).foldl (fun s k => modCore k (fun c =>
    { onSpare := c.onSpare, fenced := c.fenced, held := false, pc := BitVec.ofNat 64 entry }) s) s

/-- The core image that SCHED names (R495): a sealed Generic object of at most 65,536 bytes with the digest that the section holds;
`readOk` says whether the library could deliver it. -/
def coreImage (s : State) (bs : List Byte) (readOk : Bool) : Option (List Byte) :=
  match objOf s (schN bs 8 4) with
  | some o =>
    let code := tgetList memDefault o.data 0 o.length
    if readOk ∧ o.typ = 10 ∧ o.state = .sealed ∧ o.length ≤ 65536 ∧ sha3_256 code = bytesToWords ((bs.drop 0x20).take 32) then some code else none
  | none => none

/-- M_CORE (R653): the SHA3-512 digest of the core image as copied, and 0 without one. -/
def coreMeasure (s : State) (bs : List Byte) (readOk : Bool) : List Word :=
  match coreImage s bs readOk with | some code => sha3_512 code | none => List.replicate 16 0

/-- A bad core image holds every core in reset (R495). -/
def holdCores (s : State) : State :=
  let s := (List.range 64).foldl (fun s k => modCore k (fun c => { onSpare := c.onSpare, fenced := c.fenced, held := true }) s) s
  raise (mkFault 2 0x03 0 0x0E) (setBit Reg.SCH_STATUS 1 true s)

/-- Applies SCHED at the switch point of a load (R495, R504, R505, R520). -/
def applySched (bs : List Byte) (readOk : Bool) (s : State) : State :=
  let nl := schN bs 0 2
  let nf := schN bs 2 2
  let nt := schN bs 4 2
  let s := { s with sch := { cores := s.sch.cores, clock := s.sch.clock } }
  let s := (List.range 64).foldl (fun s l => setRegN (Reg.SCH_LIST_CFG l) 0 s) s
  let s := (List.range 1024).foldl (fun s f => setRegN (Reg.SCH_FLOW_CFG f) 0 s) s
  let s := setRegN Reg.SCH_FLAG_PEND_LO 0 (setRegN Reg.SCH_FLAG_PEND_HI 0 s)
  let s := (List.range 64).foldl (fun s n => setRegN (Reg.SCH_DFLAG n) 0 s) s
  let (b1, s) := loadLists bs nl 0 0 false s
  let (b2, s) := loadFlows bs (64 + 16 * nl) nf 0 false s
  let (b3, s) := loadTemplates bs (64 + 16 * nl + 16 * nf) nt 0 false s
  let dropped := b1 || b2 || b3
  let s := setRegN Reg.SCH_XPREEMPT_MAX (schN bs 0x10 4) (setBit Reg.SCH_STATUS 2 dropped s)
  let s := if dropped then imageNotice (activeSlot s) 0 s else s
  match coreImage s bs readOk with
  | some code => startCores (schN bs 0xC 4) code (setBit Reg.SCH_STATUS 1 false s)
  | none => holdCores s

/-! ### Meanings -/

/-- FENCE.REL on core `k`. A store that R500 forbids raises its fault here, where it would leave the core (notes/assumptions/55.md). -/
def execFenceRel (k : Fin 64) (s : State) : Host.Outcome State Fault Refusal :=
  .next (if coreRuns s k.val then
    match protectedStore s k.val with
    | some a => storeFault k.val a s
    | none => nextPc k.val (fenceRel k.val s)
  else s)

/-- FENCE.ACQ on core `k`: clean lines are invalidated, dirty ones kept (R496). -/
def execFenceAcq (k : Fin 64) (s : State) : Host.Outcome State Fault Refusal :=
  .next (if coreRuns s k.val then nextPc k.val (fenceAcq k.val s) else s)

/-- TNEXT rd on core `k`. -/
def execTnext (k : Fin 64) (r : Fin 32) (s : State) : Host.Outcome State Fault Refusal :=
  .next (machineOnly k.val (tnext k.val r.val) s)

/-- TDONE rs1 on core `k`. -/
def execTdone (k : Fin 64) (r1 : Fin 32) (s : State) : Host.Outcome State Fault Refusal :=
  .next (machineOnly k.val (tdone k.val r1.val) s)

/-- TSUBMIT rd, rs1 on core `k`. -/
def execTsubmit (k : Fin 64) (r : Fin 32) (r1 : Fin 32) (s : State) : Host.Outcome State Fault Refusal :=
  .next (machineOnly k.val (tsubmit k.val r.val r1.val) s)

/-- TYIELD on core `k`. -/
def execTyield (k : Fin 64) (s : State) : Host.Outcome State Fault Refusal := .next (machineOnly k.val (tyield k.val) s)

/-- The descriptor in SCH_SUB0 to SCH_SUB15. -/
def hostDescriptor (s : State) : List Byte := wordsToBytes (rdRegs s (Reg.SCH_SUB 0) 16)

/-- A write of SCH_SUB_GO submits the host descriptor and is answered under R506. -/
def subGo (s : State) : State :=
  let (st, s) := submit (hostDescriptor s) s
  answer st s

/-- SCH_SUB_GO. -/
def execSchSubGo (q : Req) (s : State) : Host.Outcome State Fault Refusal := .next (guarded q Reg.SCH_SUB_GO 1 subGo s)

/-- TEMPLATE_RETRY: a slot has freed and pending submissions are retried in ascending flag order (R507). -/
def execTemplateRetry (s : State) : Host.Outcome State Fault Refusal := .next (retryTemplates (fun _ => true) s)

/-- DISPATCH_PLACEMENT: one placement, on both copies of the dispatcher (R508, R519). -/
def execDispatchPlacement (copies : Copies) (s : State) : Host.Outcome State Fault Refusal :=
  .next (copiesRun 0x0D 0 copies (dispatchOnce s))

/-- PREEMPT_LATE: core `k` has not yielded within PREEMPT_MAX (R510). -/
def execPreemptLate (k : Fin 64) (s : State) : Host.Outcome State Fault Refusal :=
  .next (
    let c := coreOf s k.val
    if c.preempt && !c.lateCounted && (runningOn s k.val).isSome then
      raise (mkFault 0 0x03 k.val 0x07) (orReg Reg.SCH_EVENTS 4 (incSat Reg.SCH_PREEMPT_LATE 1
        (modCore k.val (fun c => { c with lateCounted := true }) s)))
    else s)

/-- FLUSH of a list. -/
def execFlush (q : Req) (l : Fin 64) (s : State) : Host.Outcome State Fault Refusal :=
  .next (guarded q Reg.SCH_CMD (wd (256 * l.val + 1)) (fun s => answer stOk (flushList l.val s)) s)

/-- A write of SCH_FLOW_RD frees ring room (R513, R521). -/
def flowRdWrite (f : Nat) (value : Word) (s : State) : State :=
  if flowRing s f < sub32 (rdN s (Reg.SCH_FLOW_WR f)) value.toNat then answer stValueRange s
  else releaseAll f (accept (Reg.SCH_FLOW_RD f) value s)

/-- SCH_FLOW_RD_WRITE. -/
def execSchFlowRdWrite (q : Req) (f : Fin 1024) (value : Word) (s : State) : Host.Outcome State Fault Refusal :=
  .next (guarded q (Reg.SCH_FLOW_RD f.val) value (flowRdWrite f.val value) s)

/-- CORE_MISMATCH. -/
def execCoreMismatch (k : Fin 64) (s : State) : Host.Outcome State Fault Refusal := .next (coreMismatch k.val s)

/-- CORE_TAKEOVER_DONE. -/
def execCoreTakeoverDone (k : Fin 64) (s : State) : Host.Outcome State Fault Refusal := .next (coreTakenOver k.val s)

end Sys2Proof.Machine
end

