-- ==== Sys2Proof/Machine/Dma.lean ====
section
/-! DEFINITION. DMA programs (R523 to R550): validation, the instructions, beats and arbitration, completion records, errors and
re-hosting. -/

namespace Sys2Proof.Machine

open Sys2Proof

/-! ### Channels -/

/-- The run of channel `c`. -/
def dmaRun (s : State) (c : Nat) : Option DmaRun := tget (fun _ => none) s.dma.runs c

/-- Sets the run of channel `c`. -/
def setDmaRun (c : Nat) (r : Option DmaRun) (s : State) : State :=
  { s with dma := { s.dma with runs := tset (fun _ => none) s.dma.runs c r } }

/-- Sets DMA_CH_STATUS.STATE. -/
def setDmaState (c st : Nat) (s : State) : State := setFld (Reg.DMA_CH_STATUS c) 3 0 st s

/-- STATE of channel `c`. -/
def dmaState (s : State) (c : Nat) : Nat := rdFld s (Reg.DMA_CH_STATUS c) 3 0

/-- Sets the run of a channel and shows its PC. -/
def putDmaRun (c : Nat) (r : DmaRun) (s : State) : State := setFld (Reg.DMA_CH_STATUS c) 23 16 r.pc (setDmaRun c (some r) s)

/-- The engine that runs channel `c`. -/
def dmaHost (s : State) (c : Nat) : Nat := rdFld s (Reg.DMA_CH_STATUS c) 12 8

/-- Whether safe service is in force (R527). -/
def safeService (s : State) : Bool := !s.img.loaded || s.pwr.recovery || s.flt.halted

/-- Whether arbitration is pre-emptive (R538). -/
def preemptArb (s : State) : Bool := safeService s || (rdBit s Reg.DMA_XARB 0 && !(stepRuns s))

/-- Shows SAFE and PREEMPT_ARB. -/
def showDma (s : State) : State := setBit Reg.DMA_STATUS 0 (safeService s) (setBit Reg.DMA_STATUS 1 (preemptArb s) s)

/-- Whether a channel holds a class-7 reservation (R537). -/
def dmaReserved (s : State) (c : Nat) : Bool := s.img.active.reserve.any (fun r => r.cls == 7 && r.consumer == c)

/-! ### Instructions -/

/-- Byte field of an instruction. -/
def insN (i : List Byte) (o n : Nat) : Nat := ofLeBytes ((i.drop o).take n)

/-- Opcode of an instruction. -/
def insOp (i : List Byte) : Nat := insN i 0 1

/-- The level `k` = 0 to 2 of a LOOP: COUNT, SSTEP, DSTEP. -/
def loopLevel (i : List Byte) (k : Nat) : Nat × Int × Int :=
  (insN i (2 + 10 * k) 2, sext 32 (insN i (4 + 10 * k) 4), sext 32 (insN i (8 + 10 * k) 4))

/-- The pattern of a MOVE without a LOOP before it (R530). -/
def noPattern : List (Nat × Int × Int) := [(1, 0, 0), (1, 0, 0), (1, 0, 0)]

/-- The pattern of a LOOP. -/
def loopPattern (i : List Byte) : List (Nat × Int × Int) := [loopLevel i 0, loopLevel i 1, loopLevel i 2]

/-- Whether bytes from `o` to the end are 0. -/
def zeroFrom (i : List Byte) (o : Nat) : Bool := (i.drop o).all (· == 0)

/-- Condition OPCODE of R534 for one instruction. -/
def opcodeOk (i : List Byte) : Bool :=
  match insOp i with
  | 0x00 => zeroFrom i 1
  | 0x01 => decide (insN i 1 1 < 16) && insN i 2 2 == 0 && zeroFrom i 0x18
  | 0x02 => insN i 1 1 == 0
  | 0x03 => decide (insN i 1 1 ≤ 1) && decide (insN i 2 1 < 64) && decide (insN i 3 1 ≤ 2)
  | 0x04 => decide (insN i 1 1 ≤ 2) && decide (insN i 2 1 < 64) && insN i 3 5 == 0 && zeroFrom i 0x18
  | 0x0F => zeroFrom i 1
  | _ => false

/-- Condition ALIGN of R534 for one instruction. -/
def alignOk (i : List Byte) : Bool :=
  match insOp i with
  | 0x01 => insN i 4 4 % 4 == 0 && insN i 4 4 != 0 && insN i 8 8 % 4 == 0 && insN i 0x10 8 % 4 == 0
  | 0x02 => (loopPattern i).all (fun l => decide (1 ≤ l.1) && l.2.1 % 4 == 0 && l.2.2 % 4 == 0)
  | 0x03 => insN i 1 1 == 1 || insN i 8 8 % 8 == 0
  | 0x04 => insN i 1 1 != 1 || insN i 8 8 % 8 == 0
  | _ => true

/-- The lowest and highest element address of a pattern from `a`. -/
def spanOf (a : Nat) (steps : List (Nat × Int)) : Int × Int :=
  steps.foldl (fun x l =>
    let d := ((l.1 : Int) - 1) * l.2
    (x.1 + min 0 d, x.2 + max 0 d)) ((a : Int), (a : Int))

/-- Whether `n`-byte elements over a pattern lie in one area DMA may reach; for a write, outside protected areas (R534). -/
def extentOk (s : State) (write : Bool) (a n : Nat) (steps : List (Nat × Int)) : Bool :=
  let (lo, hi) := spanOf a steps
  decide (0 ≤ lo) &&
  (let b := lo.toNat
   let l := (hi - lo).toNat + n
   rangeMapped s b l &&
   (!write || !(inProtected s b l || inItcm b || inTaskWindow b)))

/-- Condition EXTENT of R534 for the instruction `i` under the pattern `p`. -/
def extentsOk (s : State) (i : List Byte) (p : List (Nat × Int × Int)) : Bool :=
  match insOp i with
  | 0x01 =>
    extentOk s false (insN i 8 8) (insN i 4 4) (p.map (fun l => (l.1, l.2.1))) &&
    extentOk s true (insN i 0x10 8) (insN i 4 4) (p.map (fun l => (l.1, l.2.2)))
  | 0x03 => insN i 1 1 == 1 || extentOk s false (insN i 8 8) 8 []
  | 0x04 => insN i 1 1 != 1 || extentOk s true (insN i 8 8) 8 []
  | _ => true

/-- Each instruction with the pattern that applies to it. -/
def withPatterns : List (Nat × Int × Int) → List (List Byte) → List (List Byte × List (Nat × Int × Int))
  | _, [] => []
  | p, i :: is => (i, p) :: withPatterns (if insOp i = 2 then loopPattern i else noPattern) is

/-- Whether some LOOP is not directly followed by a MOVE. -/
def loopOrphan : List (List Byte) → Bool
  | [] => false
  | [i] => insOp i == 2
  | i :: j :: r => (insOp i == 2 && insOp j != 1) || loopOrphan (j :: r)

/-- The program of a channel, as fetched at START. -/
def fetchProgram (s : State) (c : Nat) : List (List Byte) :=
  let a := rdN s (Reg.DMA_XCH_PROG_LO c) + 4294967296 * rdFld s (Reg.DMA_XCH_PROG_HI c) 15 0
  (List.range (rdFld s (Reg.DMA_XCH_PCOUNT c) 8 0)).map (fun k => readBytes s (a + 32 * k) 32)

/-- The first failure of R534 for the program of channel `c`, or 0. -/
def programReason (s : State) (c : Nat) : Nat :=
  let a := rdN s (Reg.DMA_XCH_PROG_LO c) + 4294967296 * rdFld s (Reg.DMA_XCH_PROG_HI c) 15 0
  let n := rdFld s (Reg.DMA_XCH_PCOUNT c) 8 0
  if n = 0 ∨ 256 < n ∨ !(rangeMapped s a (32 * n)) then 1
  else if rangePoisoned s a (32 * n) then 8
  else
    let is := fetchProgram s c
    if !(is.all opcodeOk) then 2
    else if (is.getLast?.map insOp) != some 0x0F then 3
    else if loopOrphan is then 4
    else if !(is.all alignOk) then 5
    else if !((withPatterns noPattern is).all (fun e => extentsOk s e.1 e.2)) then 6
    else if safeService s then 7
    else 0

/-! ### Simple form -/

/-- The MOVE of a channel's simple descriptor (R536). -/
def simpleMove (s : State) (c : Nat) : DmaMove :=
  { len := rdN s (Reg.DMA_CH_LEN c), src := rdN s (Reg.DMA_CH_SRC_LO c) + 4294967296 * rdFld s (Reg.DMA_CH_SRC_HI c) 15 0,
    dst := rdN s (Reg.DMA_CH_DST_LO c) + 4294967296 * rdFld s (Reg.DMA_CH_DST_HI c) 15 0, levels := noPattern,
    swap := rdFld s (Reg.DMA_CH_CTRL c) 9 8, srcFixed := rdBit s (Reg.DMA_CH_CTRL c) 12, dstFixed := rdBit s (Reg.DMA_CH_CTRL c) 13 }

/-- The failure of R536 for the simple descriptor of channel `c`, or 0. -/
def simpleReason (s : State) (c : Nat) : Nat :=
  let m := simpleMove s c
  let fixed := m.srcFixed || m.dstFixed
  if m.len % 4 ≠ 0 ∨ m.len = 0 ∨ m.src % 4 ≠ 0 ∨ m.dst % 4 ≠ 0 ∨ (m.srcFixed ∧ m.src % 64 ≠ 0) ∨ (m.dstFixed ∧ m.dst % 64 ≠ 0) ∨
      (fixed ∧ m.len % 64 ≠ 0) then 5
  else if !(extentOk s false m.src (if m.srcFixed then 64 else m.len) []) || !(extentOk s true m.dst (if m.dstFixed then 64 else m.len) []) then 6
  else 0

/-! ### START -/

/-- Accepts a run: the token and the registers (R524, R525). -/
def beginRun (c : Nat) (r : DmaRun) (s : State) : State :=
  let s := setFld (Reg.DMA_CH_STATUS c) 6 6 (b2n r.fallback) s
  let s := if r.fallback then orReg Reg.DMA_EVENTS 2 s else s
  let s := incWrap (Reg.DMA_CH_RUNS c) 1 (incWrap Reg.DMA_TOK_ISSUED 1 (setRegN Reg.DMA_TOK_ACTIVE (rdN s Reg.DMA_TOK_ACTIVE + 1) s))
  answer stOk (setDmaState c 2 (putDmaRun c r s))

/-- START of channel `c` (R523, R524, R526, R535, R536). -/
def dmaStart (c : Nat) (s : State) : State :=
  if dmaState s c = 6 then answer stDmaFreeCh s
  else if dmaState s c ≠ 0 then answer stDmaBusy s
  else
    let want := rdBit s (Reg.DMA_XCH_MODE c) 0
    let why := if want then programReason s c else 0
    let s := if want then setRegN (Reg.DMA_CH_VREASON c) why s else s
    let flags : DmaRun := { safe := safeService s, rehosted := rdBit s (Reg.DMA_CH_STATUS c) 5 }
    if want && why == 0 then beginRun c { flags with prog := fetchProgram s c, pattern := noPattern } s
    else
      let k := simpleReason s c
      if k ≠ 0 then answer stDmaBadDesc (setRegN (Reg.DMA_CH_VREASON c) k s)
      else beginRun c { flags with simple := true, fallback := want, vreason := why, pattern := noPattern } s

/-! ### Ends and records -/

/-- Puts a record on its way (R539). -/
def addRec (c status addr : Nat) (final : Bool) (s : State) : State :=
  match dmaRun s c with
  | none => s
  | some r =>
    let k : DmaRec := { status := status, final := final, moved := if status = 4 then r.good else r.moved,
                          good := if status = 6 || status = 7 then r.moved else r.good,
                          addr := addr, pc := r.pc, epoch := epochNow s }
    let s := setDmaRun c (some { r with recs := r.recs ++ [k], move := if final then none else r.move }) s
    if final then
      let s := if 3 ≤ status && decide (status ≤ 7) then orReg Reg.DMA_EVENTS 1 s else s
      let s := if status = 2 then orReg Reg.DMA_EVENTS 16 s else s
      if dmaState s c = 5 then s else setDmaState c 4 s
    else s

/-- Overwrites `n` bytes at `a` with values the spec leaves undefined (R544). -/
def openBytes (a : Nat) : Nat → State → State
  | 0, s => s
  | n + 1, s =>
    let (v, s) := freeNat 8 s
    openBytes (a + 1) n (setByte a (BitVec.ofNat 8 v) s)

/-- Takes answered good beats into the good prefix. -/
def goodPrefix : Nat → List DmaBeat → Nat × List DmaBeat
  | g, [] => (g, [])
  | g, b :: bs => if b.answer = some true then goodPrefix (g + b.len) bs else (g, b :: bs)

/-- Elements of a MOVE. -/
def moveElems (m : DmaMove) : Nat := (m.levels.map (·.1)).foldl (· * ·) 1

/-- Indices (i1, i2, i3) of an element. -/
def elemIndex (m : DmaMove) : List Nat :=
  let c1 := (nth (1, 0, 0) m.levels 0).1
  let c2 := (nth (1, 0, 0) m.levels 1).1
  [m.elem % c1, m.elem / c1 % c2, m.elem / (c1 * c2)]

/-- Source and destination address of the present element. -/
def elemAddrs (m : DmaMove) : Nat × Nat :=
  let x := (elemIndex m).zip m.levels
  (((m.src : Int) + sumI (x.map (fun e => (e.1 : Int) * e.2.2.1))).toNat,
   ((m.dst : Int) + sumI (x.map (fun e => (e.1 : Int) * e.2.2.2))).toNat)

/-- Whether every beat of a MOVE has been issued. -/
def moveIssued (m : DmaMove) : Bool := decide (moveElems m ≤ m.elem)

/-- The destination address of byte `p` of a MOVE in issue order (R530, R536). -/
def moveByte (m : DmaMove) (p : Nat) : Nat :=
  let o := p % m.len
  (elemAddrs { m with elem := p / m.len }).2 + (if m.dstFixed then o % 64 else o)

/-- The content of the final 64 bytes that a MOVE wrote becomes open (R544). -/
def openLast (m : DmaMove) (s : State) : State :=
  let n := m.len * moveElems m
  (List.range (min 64 n)).foldl (fun s k => openBytes (moveByte m (n - min 64 n + k)) 1 s) s

/-- The end of a run whose answers are all in: ERR_WRITE and ERR_FINAL_BEAT are told apart (R544), any other end stands. -/
def finishRun (c : Nat) (s : State) : State :=
  match dmaRun s c with
  | none => s
  | some r =>
    match r.ending with
    | none => s
    | some (st, addr) =>
      let beats := match r.move with | some m => m.beats | none => []
      if beats.any (fun b => b.answer.isNone) then s
      else if st = 5 then
        match beats.dropWhile (fun b => b.answer != some false) with
        | [] => addRec c st addr true s
        | b :: after =>
          if (match r.move with | some m => moveIssued m | none => false) && after.isEmpty then
            let s := match r.move with | some m => openLast m s | none => s
            addRec c 3 (b.addr / 64 * 64) true (setDmaRun c (some { r with good := r.moved - 64 }) s)
          else
            addRec c 5 (b.addr / 64 * 64) true ((b :: after).foldl (fun s x => openBytes x.addr x.len s) s)
      else addRec c st addr true s

/-- Decides how a run ends; it issues nothing further (R542 to R546). -/
def endRun (c status addr : Nat) (s : State) : State :=
  match dmaRun s c with
  | none => s
  | some r =>
    if r.ending.isSome then s
    else finishRun c (setDmaRun c (some { r with ending := some (status, addr), waiting := false }) s)

/-- The run goes on at the next instruction. -/
def dmaNext (c : Nat) (s : State) : State :=
  match dmaRun s c with
  | none => s
  | some r => setDmaState c 2 (putDmaRun c { r with pc := r.pc + 1, waiting := false } s)

/-- A MOVE whose beats are all answered good has completed (R539). -/
def settleMove (c : Nat) (s : State) : State :=
  match dmaRun s c with
  | none => s
  | some r =>
    match r.move with
    | none => s
    | some m =>
      if r.ending.isNone && moveIssued m && m.beats.isEmpty then
        let s := setDmaRun c (some { r with move := none, pattern := noPattern }) s
        if r.simple then endRun c 0 0 s
        else dmaNext c (if m.recd then addRec c 0 0 false s else s)
      else s

/-! ### Executing -/

/-- The instruction in force of a running channel: not waiting, ending, nor held by a record. -/
def insInForce (s : State) (c : Nat) : Option (List Byte) :=
  match dmaRun s c with
  | some r =>
    if r.simple || r.ending.isSome || r.waiting || r.move.isSome || r.recs.any (·.held) || dmaState s c != 2 then none
    else r.prog[r.pc]?
  | none => none

/-- Begins the MOVE in force, if the channel stands before one (R530, R536). -/
def beginMove (c : Nat) (s : State) : State :=
  match dmaRun s c with
  | none => s
  | some r =>
    if r.ending.isSome || r.move.isSome || r.recs.any (·.held) || dmaState s c != 2 then s
    else if r.simple then setDmaRun c (some { r with move := some (simpleMove s c) }) s
    else
      match r.prog[r.pc]? with
      | some i =>
        if insOp i = 1 then
          let fl := insN i 1 1
          setDmaRun c (some { r with move := some {
            len := insN i 4 4, src := insN i 8 8, dst := insN i 0x10 8, levels := r.pattern, swap := bitsN fl 3 2,
            recd := bitN fl 0 } }) s
        else s
      | none => s

/-- SWAP of 4-byte units (R531). -/
def swapBytes (code : Nat) : List Byte → List Byte
  | b0 :: b1 :: b2 :: b3 :: bs =>
    (match code with
     | 1 => [b1, b0, b3, b2]
     | 2 => [b3, b2, b1, b0]
     | 3 => [b2, b3, b0, b1]
     | _ => [b0, b1, b2, b3]) ++ swapBytes code bs
  | bs => bs

/-- Moves the place of a MOVE on by `n` bytes. -/
def moveOn (m : DmaMove) (n : Nat) (b : DmaBeat) : DmaMove :=
  if m.len ≤ m.off + n then { m with elem := m.elem + 1, off := 0, beats := m.beats ++ [b] }
  else { m with off := m.off + n, beats := m.beats ++ [b] }

/-- Issues the next beat of a channel's MOVE (R537, R542, R543): the state after, and whether the burst may go on. -/
def issueBeat (c : Nat) (s : State) : Bool × State :=
  match dmaRun s c with
  | none => (false, s)
  | some r =>
    match r.move with
    | none => (false, s)
    | some m =>
      if r.ending.isSome || moveIssued m then (false, s)
      else
        let (sa, da) := elemAddrs m
        let src := if m.srcFixed then sa + m.off % 64 else sa + m.off
        let dst := if m.dstFixed then da + m.off % 64 else da + m.off
        let n := min (64 - dst % 64) (m.len - m.off)
        let s := readHook src n s
        if rangePoisoned s src n then (false, endRun c 4 (src / 64 * 64) s)
        else if inProtected s dst n || inItcm dst || inTaskWindow dst then (false, endRun c 6 (dst / 64 * 64) s)
        else if touchesPlay s dst n then (false, endRun c 7 (dst / 64 * 64) (orReg Reg.SRC_EVENTS 8 s))
        else
          let s := setBytes dst (swapBytes m.swap (readBytes s src n)) s
          let m := moveOn m n { addr := dst, len := n }
          let s := setDmaRun c (some { r with move := some m, moved := r.moved + n }) s
          (!(moveIssued m) && m.off != 0 && (dst + n) % 256 != 0, s)

/-- Issues up to `k` beats of one burst. -/
def issueBurst (c : Nat) : Nat → State → Bool × State
  | 0, s => (true, s)
  | k + 1, s =>
    let (more, s) := issueBeat c s
    if more then (if k = 0 then (true, s) else issueBurst c k s) else (false, s)

/-- Whether a channel asks for a grant. -/
def wantsGrant (s : State) (c : Nat) : Bool :=
  match dmaRun s c with
  | none => false
  | some r =>
    r.ending.isNone && dmaState s c == 2 && !(r.recs.any (·.held)) &&
    (match r.move with
     | some m => !(moveIssued m)
     | none => r.simple || (match r.prog[r.pc]? with | some i => insOp i == 1 | none => false))

/-- The first of a list of channels after `last`, round-robin. -/
def roundRobin (last : Nat) (cs : List Nat) : Option Nat :=
  match cs.find? (fun c => decide (last < c)) with
  | some c => some c
  | none => cs.head?

/-- PRIO of a channel. -/
def dmaPrio (s : State) (c : Nat) : Nat := rdFld s (Reg.DMA_CH_CTRL c) 1 0

/-- The channel that gets the next grant, and whether by its reservation (R537, R538); `spent` lists reserved channels past
their AMOUNT. -/
def pickChannel (s : State) (spent : List Nat) : Option (Nat × Bool) :=
  let want := (List.range 32).filter (wantsGrant s)
  let last := fun (p : Nat) => tget (fun _ => 31) s.dma.lastPrio p
  let byPrio := fun (p : Nat) => roundRobin (last p) (want.filter (fun c => dmaPrio s c == p))
  let plain :=
    match roundRobin s.dma.lastRes (want.filter (fun c => dmaReserved s c && !(spent.contains c))) with
    | some c => some (c, true)
    | none => ([3, 2, 1, 0].findSome? byPrio).map (fun c => (c, false))
  let mid := s.dma.mid.find? (fun c => want.contains c)
  if preemptArb s then
    match s.dma.mid.find? (fun c => want.contains c && dmaPrio s c == 3) with
    | some c => some (c, false)
    | none =>
      match byPrio 3 with
      | some c => some (c, false)
      | none => match mid with | some c => some (c, false) | none => plain
  else match mid with | some c => some (c, false) | none => plain

/-- DMA_BURST_GRANT: a burst to its last beat, or one beat under pre-emptive arbitration (R537, R538). -/
def burstGrant (spent : List Nat) (s : State) : State :=
  match pickChannel s spent with
  | none => s
  | some (c, res) =>
    let s := if res then { s with dma := { s.dma with lastRes := c } }
      else { s with dma := { s.dma with lastPrio := tset (fun _ => 31) s.dma.lastPrio (dmaPrio s c) c } }
    let (more, s) := issueBurst c (if preemptArb s then 1 else 4) (beginMove c s)
    { s with dma := { s.dma with mid := s.dma.mid.filter (fun d => d != c) ++ (if more then [c] else []) } }

/-- A write answer for the `i`-th beat not yet in the good prefix (R544). -/
def writeAnswer (c i : Nat) (ok : Bool) (s : State) : State :=
  match dmaRun s c with
  | none => s
  | some r =>
    match r.move with
    | none => s
    | some m =>
      match m.beats[i]? with
      | none => s
      | some b =>
        if b.answer.isSome then s
        else
          let (g, bs) := goodPrefix r.good (m.beats.set i { b with answer := some ok })
          let r := { r with good := g, move := some { m with beats := bs } }
          let r := if ok || r.ending.isSome then r else { r with ending := some (5, 0) }
          let s := setDmaRun c (some r) s
          if r.ending.isSome then finishRun c s else settleMove c s

/-! ### Records to the ring -/

/-- Whether the completion ring is full (R541). -/
def cqFull (s : State) : Bool :=
  decide (rdN s Reg.DMA_CQ_SIZE ≤ sub32 (rdN s Reg.DMA_CQ_WR) (rdN s Reg.DMA_CQ_RD))

/-- The 32 bytes of a completion record (R539). -/
def recBytes (c : Nat) (r : DmaRun) (k : DmaRec) : List Byte :=
  leBytes 1 0x43 ++ leBytes 1 c ++ leBytes 1 k.status ++
    leBytes 1 (b2n k.final + 2 * b2n r.fallback + 4 * b2n r.rehosted + 8 * b2n r.simple + 16 * b2n r.safe) ++
    leBytes 4 k.epoch.toNat ++ leBytes 8 k.moved ++ leBytes 8 k.good ++ leBytes 6 k.addr ++
    leBytes 1 (if r.simple then 0 else k.pc) ++ leBytes 1 (if r.fallback then r.vreason else 0)

/-- Writes the oldest record of a channel, or holds it while the ring is full (R541); the final one returns the token. -/
def writeRecord (c : Nat) (s : State) : State :=
  match dmaRun s c with
  | none => s
  | some r =>
    match r.recs with
    | [] => s
    | k :: ks =>
      if cqFull s then
        let s := setDmaRun c (some { r with recs := { k with held := true } :: ks }) s
        let s := setBit Reg.DMA_STATUS 3 true (orReg Reg.DMA_EVENTS 8 s)
        if dmaState s c = 5 then s else setDmaState c 4 s
      else
        let wr := rdN s Reg.DMA_CQ_WR
        let base := rdN s Reg.DMA_CQ_BASE_LO + 4294967296 * rdFld s Reg.DMA_CQ_BASE_HI 15 0
        let s := setBytes (base + 32 * (wr % rdN s Reg.DMA_CQ_SIZE)) (recBytes c r k) s
        let s := setRegN Reg.DMA_CQ_WR (add32 wr 1) s
        let s := setBit Reg.DMA_STATUS 3 (cqFull s) s
        let s := set64 (Reg.DMA_CH_MOVED_LO c) k.moved s
        if k.final then
          let s := setFld (Reg.DMA_CH_STATUS c) 31 24 k.status (setFld (Reg.DMA_CH_STATUS c) 23 16 (if r.simple then 0 else k.pc) s)
          let s := incWrap Reg.DMA_TOK_RETURNED 1 (setRegN Reg.DMA_TOK_ACTIVE (rdN s Reg.DMA_TOK_ACTIVE - 1) s)
          let s := setDmaRun c none s
          if dmaState s c = 5 then s else setDmaState c 0 s
        else
          let s := setDmaRun c (some { r with recs := ks }) s
          if dmaState s c = 4 && !(ks.any (·.final)) then setDmaState c 2 s else s

/-- Writes the held records that the ring now has room for. -/
def releaseHeld (s : State) : State :=
  (List.range 32).foldl (fun s c =>
    match dmaRun s c with
    | some r => if r.recs.any (·.held) then writeRecord c s else s
    | none => s) s

/-! ### Waits and signals -/

/-- Whether a WAIT's COND holds (R532). -/
def waitHolds (s : State) (i : List Byte) : Bool :=
  let w := ofLeBytes (readBytes s (insN i 8 8) 8) &&& insN i 0x10 8
  match insN i 3 1 with
  | 0 => w == insN i 0x18 8
  | 1 => w != insN i 0x18 8
  | _ => decide (insN i 0x18 8 ≤ w)

/-- The WAIT a channel waits on. -/
def waitOf (s : State) (c : Nat) : Option (List Byte) :=
  match dmaRun s c with
  | some r => if r.waiting then r.prog[r.pc]? else none
  | none => none

/-- Channels that wait on a line see its act (R532). -/
def dmaLineAct (l : Nat) (s : State) : State :=
  (List.range 32).foldl (fun s c =>
    match waitOf s c with
    | some i => if insN i 1 1 = 1 ∧ insN i 2 1 = l then dmaNext c s else s
    | none => s) s

/-- SIGNAL of a program (R532); the run goes on, unless a write to memory lies in a protected area or in a segment in play
(R367, R542). -/
def dmaSignal (c : Nat) (i : List Byte) (s : State) : State :=
  match insN i 1 1 with
  | 0 => dmaNext c (setFlag (insN i 2 1) (insN i 0x10 4) s)
  | 1 =>
    let a := insN i 8 8
    if inProtected s a 8 || inItcm a || inTaskWindow a then endRun c 6 (a / 64 * 64) s
    else if touchesPlay s a 8 then endRun c 7 (a / 64 * 64) (orReg Reg.SRC_EVENTS 8 s)
    else dmaNext c (setBytes a (leBytes 8 (insN i 0x10 8)) s)
  | _ => dmaNext c (pushRec isOwnerEvent (eventRecord 2 (insN i 2 1) (insN i 0x10 4) s) s)

/-- Runs the instruction in force when it has the given opcode. -/
def onOpcode (c op : Nat) (k : List Byte → State → State) (s : State) : State :=
  match insInForce s c with
  | some i => if insOp i = op then k i s else s
  | none => s

/-! ### Re-hosting -/

/-- Free engines that still stand by (R523, R547). -/
def freeEngines (s : State) : List Nat :=
  let f := s.img.active.spares.dmaFree
  ((List.range 32).filter (fun e => decide (32 - f ≤ e) && !(s.dma.used.contains e) && !(isFenced 0x0B e s)))

/-- An engine's second disagreement (R547, R548). -/
def engineFault (c : Nat) (s : State) : State :=
  if dmaState s c = 6 ∨ dmaState s c = 5 then s
  else
    let e := dmaHost s c
    match (freeEngines s).getLast? with
    | some n =>
      let s := raise { mkFault 2 0x0B e 0x03 with takeover := true, replacement := n } s
      let s := useSpare (fenceUnit 0x0B e { s with dma := { s.dma with used := n :: s.dma.used } })
      let s := setFld (Reg.DMA_CH_STATUS c) 12 8 n (setBit (Reg.DMA_CH_STATUS c) 5 true s)
      let s := setFld Reg.DMA_STATUS 12 8 (freeEngines s).length (orReg Reg.DMA_EVENTS 4 s)
      match dmaRun s c with
      | some r => setDmaRun c (some { r with rehosted := true }) s
      | none => s
    | none =>
      let cls := if dmaReserved s c && stepRuns s then 3 else 2
      let s := fenceUnit 0x0B e (raise (mkFault cls 0x0B e 0x0A) s)
      let s := setDmaState c 5 (orReg Reg.DMA_EVENTS 64 s)
      match dmaRun s c with
      | some r => if r.recs.any (·.final) then s else addRec c 8 0 true (setDmaRun c (some { r with ending := some (8, 0), waiting := false }) s)
      | none => s

/-- The free channels of an image at the switch point (R45, R523, R550). -/
def applyDmaFree (f : Nat) (s : State) : State :=
  let s := (List.range 32).foldl (fun s c =>
    let s := setRegN (Reg.DMA_CH_RUNS c) 0 s
    if dmaState s c = 5 then s else if 32 - f ≤ c then setDmaState c 6 s else if dmaState s c = 6 then setDmaState c 0 s else s) s
  setFld Reg.DMA_STATUS 12 8 (freeEngines s).length s

/-! ### Meanings -/

/-- The DMA_CH_CMD register of a channel. -/
def execDmaStart (q : Req) (c : Fin 32) (s : State) : Host.Outcome State Fault Refusal :=
  .next (guarded q (Reg.DMA_CH_CMD c.val) 1 (dmaStart c.val) s)

/-- STOP of a channel (R546). -/
def dmaStop (c : Nat) (s : State) : State :=
  answer stOk (if [1, 2, 3].contains (dmaState s c) then endRun c 1 0 s else s)

/-- DMA_STOP. -/
def execDmaStop (q : Req) (c : Fin 32) (s : State) : Host.Outcome State Fault Refusal :=
  .next (guarded q (Reg.DMA_CH_CMD c.val) 2 (dmaStop c.val) s)

/-- DMA_MOVE: the MOVE in force, or the simple descriptor's, begins; its beats follow as they are granted. -/
def execDmaMove (c : Fin 32) (s : State) : Host.Outcome State Fault Refusal := .next (beginMove c.val s)

/-- DMA_LOOP: the pattern of the next MOVE. -/
def execDmaLoop (c : Fin 32) (s : State) : Host.Outcome State Fault Refusal :=
  .next (onOpcode c.val 2 (fun i s => match dmaRun s c.val with
    | some r => dmaNext c.val (setDmaRun c.val (some { r with pattern := loopPattern i }) s)
    | none => s) s)

/-- DMA_WAIT: the channel waits on a memory word or a line. -/
def execDmaWait (c : Fin 32) (s : State) : Host.Outcome State Fault Refusal :=
  .next (onOpcode c.val 3 (fun _ s => match dmaRun s c.val with
    | some r => setDmaState c.val 3 (setDmaRun c.val (some { r with waiting := true }) s)
    | none => s) s)

/-- DMA_WAIT_POLL: a poll reads the word; a poisoned unit ends the run with ERR_READ (R545). -/
def execDmaWaitPoll (c : Fin 32) (s : State) : Host.Outcome State Fault Refusal :=
  .next (match waitOf s c.val with
    | some i =>
      if insN i 1 1 = 0 then
        let s := readHook (insN i 8 8) 8 s
        if rangePoisoned s (insN i 8 8) 8 then endRun c.val 4 (insN i 8 8 / 64 * 64) s
        else if waitHolds s i then dmaNext c.val s
        else s
      else s
    | none => s)

/-- DMA_WAIT_TIMEOUT: a WAIT with a TIMEOUT ends the run. -/
def execDmaWaitTimeout (c : Fin 32) (s : State) : Host.Outcome State Fault Refusal :=
  .next (match waitOf s c.val with
    | some i => if insN i 4 4 = 0 then s else endRun c.val 2 (if insN i 1 1 = 1 then 0 else insN i 8 8) s
    | none => s)

/-- DMA_SIGNAL. -/
def execDmaSignal (c : Fin 32) (s : State) : Host.Outcome State Fault Refusal :=
  .next (onOpcode c.val 4 (fun i s => dmaSignal c.val i s) s)

/-- DMA_END. -/
def execDmaEnd (c : Fin 32) (s : State) : Host.Outcome State Fault Refusal :=
  .next (onOpcode c.val 0x0F (fun _ s => endRun c.val 0 0 s) s)

/-- DMA_NOP. -/
def execDmaNop (c : Fin 32) (s : State) : Host.Outcome State Fault Refusal :=
  .next (onOpcode c.val 0 (fun _ s => dmaNext c.val s) s)

/-- DMA_BURST_GRANT on both copies of the arbiter (R549). -/
def execDmaBurstGrant (spent : List Nat) (copies : Copies) (s : State) : Host.Outcome State Fault Refusal :=
  .next (copiesRun 0x0C 0 copies (burstGrant spent s))

/-- DMA_WRITE_ANSWER. -/
def execDmaWriteAnswer (c : Fin 32) (beat : Nat) (ok : Bool) (s : State) : Host.Outcome State Fault Refusal :=
  .next (writeAnswer c.val beat ok s)

/-- DMA_READ_ERROR: the read of the next beat is answered with an error (R543). -/
def execDmaReadError (c : Fin 32) (s : State) : Host.Outcome State Fault Refusal :=
  .next (
    let s := beginMove c.val s
    match (dmaRun s c.val).bind (·.move) with
    | some m =>
      if moveIssued m then s
      else endRun c.val 4 (((elemAddrs m).1 + (if m.srcFixed then m.off % 64 else m.off)) / 64 * 64) s
    | none => s)

/-- DMA_COMPLETION_RECORD: the oldest record of a channel goes to the ring, or is held. -/
def execDmaCompletionRecord (c : Fin 32) (s : State) : Host.Outcome State Fault Refusal := .next (writeRecord c.val s)

/-- A write of DMA_CQ_RD (R541, R551). -/
def cqRdWrite (value : Word) (s : State) : State :=
  if rdN s Reg.DMA_CQ_SIZE < sub32 (rdN s Reg.DMA_CQ_WR) value.toNat then answer stValueRange s
  else
    let s := accept Reg.DMA_CQ_RD value s
    releaseHeld (setBit Reg.DMA_STATUS 3 (cqFull s) s)

/-- DMA_CQ_RD_WRITE. -/
def execDmaCqRdWrite (q : Req) (value : Word) (s : State) : Host.Outcome State Fault Refusal :=
  .next (guarded q Reg.DMA_CQ_RD value (cqRdWrite value) s)

/-- DMA_ENGINE_FAULT. -/
def execDmaEngineFault (c : Fin 32) (s : State) : Host.Outcome State Fault Refusal := .next (engineFault c.val s)

end Sys2Proof.Machine
end

