-- ==== Sys2Proof/Machine/Source.lean ====
section
/-! DEFINITION. Source channels (R357 to R381): waveform interpolation, tone slots, play lists and the modulator input; the
frame boundaries at which F-class fields take effect (R16, R336, R372); START checks; and FREQ writes. -/

namespace Sys2Proof.Machine

open Sys2Proof

/-- Source channel `c`. -/
def srcCh (s : State) (c : Nat) : SrcCh := tget (fun _ => {}) s.src.chans c

/-- Changes source channel `c`. -/
def modSrc (c : Nat) (f : SrcCh → SrcCh) (s : State) : State :=
  { s with src := { s.src with chans := tset (fun _ => {}) s.src.chans c (f (srcCh s c)) } }

/-- Whether a mode code is SOURCE or SOURCE-MEASURE. -/
def isSource (mode : Nat) : Bool := mode == 4 || mode == 5

/-! ### Tones -/

/-- π/2 in units of 2^-60. -/
def halfPi60 : Nat := 1811004864519280711

/-- The terms of the sine series from order `k` on, at scale 2^60. -/
def sineTerms (x2 : Nat) : Nat → Nat → Int → Int
  | 0, _, _ => 0
  | fuel + 1, k, t => t + sineTerms x2 fuel (k + 1) (- (t * (x2 : Int) / ((2 ^ 60 * ((2 * k + 2) * (2 * k + 3)) : Nat) : Int)))

/-- sin(π/2 × r / 2^46) in units of 2^-60, for r up to 2^46. -/
def quarterSine (r : Nat) : Int :=
  let x := halfPi60 * r / 2 ^ 46
  sineTerms (x * x / 2 ^ 60) 14 0 (x : Int)

/-- sin(2π a / 2^48) in Q1.23, rounded. -/
def sine23 (a : Nat) : Int :=
  let q := a / 2 ^ 46 % 4
  let r := a % 2 ^ 46
  let v := quarterSine (if q % 2 = 0 then r else 2 ^ 46 - r)
  divNearestEven (if q < 2 then v else -v) (2 ^ 37)

/-- The tone value of accumulator `a` (R370): the sine within 2^-22 of full scale. -/
def toneValue (a : Nat) : Int := clampInt (-8388608) 8388607 (sine23 a + ((Config.toneError a % 5 : Nat) : Int) - 2)

/-- Every slot advances by its FREQ (R368). -/
def advanceTones (x : SrcCh) : SrcCh :=
  { x with acc := (List.range 8).map (fun k => (nth 0 x.acc k + nth 0 x.freq k) % 2 ^ 48) }

/-- The sum of FREQ of slot `k` over the vectors from `v0` to the one before the next (R369). -/
def sumFreq (x : SrcCh) (v0 k : Nat) : Nat :=
  let (v, t) := x.was.foldl (fun p e => if p.1 < e.1 then (e.1, p.2 + (e.1 - p.1) * nth 0 e.2 k) else p) (v0, 0)
  t + (x.next - v) * nth 0 x.freq k

/-- The origin lies at vector `v0`: every slot holds PHASE × 2^32 and what it has advanced since (R369). -/
def originTones (v0 : Nat) (x : SrcCh) : SrcCh :=
  { x with origin := v0, acc := (List.range 8).map (fun k => (nth 0 x.phase k * 2 ^ 32 + sumFreq x v0 k) % 2 ^ 48) }

/-- The origins that SYNCs in the streams of the contexts hold for channel `c`, in ticks from vector 0 (R199, R369). -/
def streamOrigins (s : State) (c : Nat) : List Nat :=
  let k := rdFld s (Reg.SRC_CH_CTRL c) 15 8
  match s.seq.step with
  | none => []
  | some st => st.ctxs.flatMap (fun x => (ctxOf s x).evts.filterMap (fun e =>
      match e.2 with
      | .signal 1 num _ => if num = k then some (e.1 * ctxPeriod s x) else none
      | _ => none))

/-- The origins due at the next vector move the tone slots (R369): the last of them counts. -/
def moveOrigin (c : Nat) (s : State) : State :=
  let x := srcCh s c
  let n := periodOf s (c / 32)
  let due := (x.origins ++ streamOrigins s c).filter (fun t => decide (t ≤ x.next * n))
  let v0 := maxN (due.map (fun t => ceilDiv t n))
  if due.isEmpty then s
  else modSrc c (fun x =>
    let x := { x with origins := x.origins.filter (fun t => decide (x.next * n < t)) }
    if x.origin < v0 then originTones v0 x else x) s

/-! ### Waveforms -/

/-- Sample `i` of the waveform segment resident at `b` (R363). -/
def waveSample (s : State) (b i : Nat) : Int := sext 16 (memN s (b + 0x40 + 2 * i) 2)

/-- LENGTH of the waveform segment at `b`. -/
def waveLen (s : State) (b : Nat) : Nat := memN s (b + 8) 4

/-- One sample through the combs of the interpolator. -/
def interpComb (v : Int) (x : SrcCh) : SrcCh × Int :=
  let (ds, y) := combStep v x.comb
  ({ x with comb := ds }, y)

/-- One vector through the interpolator (R364, R365): a sample is fed every U vectors, and zeros in between; the result is
the output of the third integrator, U^2 times the value. -/
def interpolate (u : Nat) (sample : Int) (x : SrcCh) : SrcCh × Int :=
  if u = 0 then (x, sample)
  else
    let (x, y) := if x.sub = 0 then interpComb sample x else (x, 0)
    let ints := integrate y x.cic
    ({ x with cic := ints, sub := if x.sub + 1 = 2 ^ u then 0 else x.sub + 1 }, ints.getLast?.getD 0)

/-! ### Play lists -/

/-- UEXP of a channel. -/
def uexp (s : State) (c : Nat) : Nat := rdFld s (Reg.SRC_CH_CTRL c) 7 4

/-- Whether an entry waits for a line. -/
def PlEntry.waits (e : PlEntry) : Bool := bitN e.flags 0

/-- State code and entry number in SRC_CH_STATUS. -/
def showList (c code : Nat) (entry : Option Nat) (s : State) : State :=
  let s := setFld (Reg.SRC_CH_STATUS c) 3 0 code s
  match entry with | some e => setFld (Reg.SRC_CH_STATUS c) 31 24 e s | none => s

/-- The list of channel `c` comes to entry `i` at vector `v` (R375, R376): past the last entry it ends or repeats; an entry
with WAIT begins its wait; any other starts at this vector. -/
def comeTo (c i v : Nat) (s : State) : State :=
  let x := srcCh s c
  let i := if x.list.length ≤ i ∧ rdBit s (Reg.SRC_CH_CTRL c) 1 then 0 else i
  match x.list[i]? with
  | none => showList c 3 none (modSrc c (fun x => { x with cur := none, waitFrom := none }) s)
  | some e =>
    let s := modSrc c (fun x => { x with cur := some i, rep := 0, off := 0, acted := none,
                                         waitFrom := if e.waits then some v else none }) s
    showList c (if e.waits then 2 else 1) (some i) s

/-- The length of one repetition of an entry in vectors; none for a tone that lasts the rest of the step. -/
def entryLen (s : State) (c : Nat) (e : PlEntry) : Option Nat :=
  if e.kind = 1 then
    (residentBase s e.obj).map (fun b => waveLen s b * 2 ^ uexp s c)
  else if e.count = 0 then none else some e.count

/-- The start trigger of an entry or repetition whose first vector is `v` (R377). -/
def entryTrigger (c v : Nat) (e : PlEntry) (rep : Nat) (s : State) : State :=
  if bitN e.flags 1 && (rep == 0 || (bitN e.flags 2 && e.kind == 1)) then
    postDirect e.sline (vectorGrid s (periodOf s (c / 32)) v) s
  else s

/-- After a vector of entry `e`: the next vector, repetition or entry. -/
def entryAdvance (c v : Nat) (e : PlEntry) (s : State) : State :=
  let x := srcCh s c
  match entryLen s c e with
  | none => modSrc c (fun x => { x with off := x.off + 1 }) s
  | some len =>
    if x.off + 1 < len then modSrc c (fun x => { x with off := x.off + 1 }) s
    else if e.kind = 1 ∧ x.rep + 1 < e.count then modSrc c (fun x => { x with off := 0, rep := x.rep + 1 }) s
    else comeTo c ((x.cur.getD 0) + 1) (v + 1) s

/-- The modulator input before the clamp (R357, R364, R370): OFFSET + AMP × s(v), rounded to Q1.23; `sh` fraction bits
below Q1.23 carry AMP × s(v). -/
def modInput (offset amp sv : Int) (sh : Nat) : Int := divNearestEven (offset * ((2 ^ sh : Nat) : Int) + amp * sv) (2 ^ sh)

/-- ±LIMIT in Q1.23 of the noise-transfer function in force (R360). -/
def srcLimit (s : State) (c : Nat) : Int := if rdBit s (Reg.SRC_XNTF (c / 32)) (c % 32) then 4613734 else 5452595

/-- s(v) of vector `v` with its fraction bits below Q1.23 times AMP, and the channel after it (R357 to R376). -/
def sourceValue (c v : Nat) (s : State) : Int × Nat × State :=
  let x := srcCh s c
  let u := uexp s c
  let idle := fun (s : State) =>
    let (x, _) := interpolate u 0 (srcCh s c)
    ((0 : Int), 15, modSrc c (fun _ => x) s)
  match x.cur.bind (fun i => x.list[i]?) with
  | none => idle s
  | some e =>
    if x.waitFrom.isSome then idle s
    else
      let s := if x.off = 0 then entryTrigger c v e x.rep s else s
      if e.kind = 1 then
        match residentBase s e.obj with
        | none => idle s
        | some b =>
          let x := if x.off = 0 ∧ x.rep = 0 then { x with sub := 0 } else x
          let (x, y) := interpolate u (waveSample s b (x.off / 2 ^ u)) x
          (y, 7 + 2 * u, entryAdvance c v e (modSrc c (fun _ => x) s))
      else
        let (x', _) := interpolate u 0 x
        (toneValue (nth 0 x.acc (e.obj % 8)), 15, entryAdvance c v e (modSrc c (fun _ => x') s))

/-- Whether a wait of channel `c` ends at vector `v`, so that PLAYLIST_WAIT_RELEASE comes before the vector is formed. -/
def waitEndsAt (x : SrcCh) (v : Nat) : Bool :=
  x.waitFrom.isSome && (match x.acted with | some f => decide (v = 64 * (f + 40)) | none => false)

/-- Forms the modulator input and the level of the next vector (R357, R360, R361, R368, R369). The level is the
modulator's, whose loop the spec does not give. -/
def sourceVector (c : Nat) (overload : Bool) (s : State) : State :=
  let v := (srcCh s c).next
  let (sv, sh, s) := sourceValue c v (moveOrigin c s)
  let x := modInput (sext 24 (rdFld s (Reg.SRC_CH_OFFSET c) 23 0)) (sext 16 (rdFld s (Reg.SRC_CH_AMP c) 15 0)) sv sh
  let lim := srcLimit s c
  let clip := decide (x < -lim) || decide (lim < x)
  let (code, s) := freeNat 2 s
  let s := modSrc c (fun y => { advanceTones y with next := v + 1, input := clampInt (-lim) lim x,
                                                    levels := y.levels ++ [(v, code)] }) s
  let s := if clip then orReg Reg.SRC_EVENTS 1 (incSat (Reg.SRC_CH_CLIP c) 1 (setBit (Reg.SRC_CH_STATUS c) 8 true s)) else s
  if overload then
    raise (mkFaultD 1 0x07 (c / 32) 0x01 c 0) (orReg Reg.SRC_EVENTS 2 (incSat (Reg.SRC_CH_OVERLOAD c) 1 (setBit (Reg.SRC_CH_STATUS c) 9 true s)))
  else s

/-! ### Frame boundaries -/

/-- Whether frame boundaries of a step pass in group `g`: the group takes part in one and its LAST frame is not built. -/
def boundariesPass (s : State) (g : Nat) : Bool := groupInStep s g && !(linkOf s g).finished

/-- Whether an F-class shadow takes effect at a boundary of group `g`: a field of the group or of its channels, or one that
affects every group. TST_TSET acts through the frame builder's announcement (R278), and coefficient sets wait for the
next START while no step runs (R339). -/
def actsAtBoundary (s : State) (g a : Nat) : Bool :=
  a != Reg.TST_TSET g && (blockOf a < 0x30 || 0x40 ≤ blockOf a) && (fieldGroup s a == some g || (fieldGroup s a).isNone) &&
  (boundariesPass s g || !(0x419000 ≤ a && a < 0x41D000))

/-- The channels of group `g` whose coefficient sets change at this boundary. -/
def fadesAt (s : State) (g : Nat) : List Nat :=
  if boundariesPass s g then ((List.range 32).map (fun k => 32 * g + k)).filter (fadeCommitted s) else []

/-- The FREQ writes of channel `c` take effect (R372). -/
def applyFreq (c : Nat) (s : State) : State :=
  modSrc c (fun x => { x with was := x.was ++ [(x.next, x.freq)],
                              freq := x.freqSh.foldl (fun l e => l.set e.1 e.2) x.freq, freqSh := [] }) s

/-- The PHASE writes of channel `c` take effect (R16). -/
def applyPhase (c : Nat) (s : State) : State :=
  modSrc c (fun x => { x with phase := x.phaseSh.foldl (fun l e => l.set e.1 e.2) x.phase, phaseSh := [] }) s

/-- The frame builder passes a frame boundary of group `g` (R16, R336, R372): held F-class fields take effect. -/
def crossBoundary (g : Nat) (s : State) : State :=
  let fades := fadesAt s g
  let hits := s.shadowF.filter (fun e => actsAtBoundary s g e.1)
  let s := applyShadows maskOfF hits { s with shadowF := s.shadowF.filter (fun e => !(actsAtBoundary s g e.1)) }
  let t := 64 * (linkOf s g).begun * periodOf s g
  let s := fades.foldl (fun s c => startFade c t s) s
  let s := ((List.range 32).map (fun k => 32 * g + k)).foldl (fun s c => if (srcCh s c).freqSh.isEmpty then s else applyFreq c s) s
  if fades.isEmpty then s else showFades s

/-- Passes the boundary at the start of pin frame `f` of group `g`, once. -/
def passBoundary (g f : Nat) (s : State) : State :=
  if (linkOf s g).begun ≤ f then
    modLink g (fun l => { l with begun := f + 1 }) (crossBoundary g (modLink g (fun l => { l with begun := f }) s))
  else s

/-! ### START -/

/-- The play list of a channel in memory (R373). -/
def readPlayList (s : State) (c : Nat) : List PlEntry :=
  let b := rdN s (Reg.SRC_CH_PL_LO c) + 4294967296 * rdFld s (Reg.SRC_CH_PL_HI c) 15 0
  (List.range (rdFld s (Reg.SRC_CH_PL_COUNT c) 6 0)).map (fun i =>
    let a := b + 16 * i
    { kind := memN s a 1, flags := memN s (a + 1) 1, wline := memN s (a + 2) 1, sline := memN s (a + 3) 1,
      obj := memN s (a + 4) 4, count := memN s (a + 8) 8 })

/-- Whether an object is a waveform segment (R363, R470). -/
def isWaveform (s : State) (id : Nat) : Bool := match objOf s id with | some o => o.typ == 3 | none => false

/-- The error code of an entry (R374, SRC_CH_STATUS.ERR); 0 for none. -/
def entryError (s : State) (e : PlEntry) : Nat :=
  if e.kind ≠ 1 ∧ e.kind ≠ 2 then 1
  else if 8 ≤ e.flags then 2
  else if 64 ≤ e.wline ∨ 64 ≤ e.sline then 3
  else if (e.kind = 1 ∧ !(isWaveform s e.obj)) ∨ (e.kind = 2 ∧ 8 ≤ e.obj) then 4
  else if (e.kind = 1 ∧ (e.count = 0 ∨ 2 ^ 32 ≤ e.count)) ∨ (e.kind = 2 ∧ 2 ^ 40 ≤ e.count) then 5
  else 0

/-- Whether a source channel plays its list. -/
def playsList (s : State) (c : Nat) : Bool := rdBit s (Reg.SRC_CH_CTRL c) 0

/-- The first failing entry of a channel's list and its code (R374). -/
def listError (s : State) (c : Nat) : Option (Nat × Nat) :=
  let l := readPlayList s c
  ((List.range l.length).zip l).findSome? (fun e => let k := entryError s e.2; if k = 0 then none else some (e.1, k))

/-- Whether the image reserves the waveform reads of a channel (R366): 2 × 10^6 / (U × P) MB/s, P in ps. -/
def waveReserved (s : State) (c : Nat) : Bool :=
  match s.img.active.reserve.find? (fun r => r.cls == 1 && r.consumer == 0x200 + c) with
  | some r => decide (2000000 * 32000 ≤ r.amount * (2 ^ uexp s c * periodOf s (c / 32) * 78125))
  | none => false

/-- Whether a source channel may start (R366, R374). -/
def sourceAdmitted (s : State) (c : Nat) : Bool :=
  if playsList s c then
    (listError s c).isNone && (!((readPlayList s c).any (fun e => e.kind == 1)) || waveReserved s c)
  else true

/-- Reports the first failing entry of a refused list (R374). -/
def reportList (c : Nat) (s : State) : State :=
  match (if playsList s c then listError s c else none) with
  | some (i, k) =>
    orReg Reg.SRC_EVENTS 4 (setFld (Reg.SRC_CH_STATUS c) 3 0 4 (setFld (Reg.SRC_CH_STATUS c) 15 12 k (setFld (Reg.SRC_CH_STATUS c) 23 16 i s)))
  | none => s

/-- The waveform segments of a channel's list. -/
def listWaves (s : State) (c : Nat) : List Nat :=
  if playsList s c then ((readPlayList s c).filter (fun e => e.kind == 1)).map (·.obj) else []

/-- Sets up a source channel at a START (R359, R369, R374). A channel with INPUT 0 plays no list and reads IDLE (DESIGN CHOICE,
notes/assumptions/56.md). -/
def startSource (c : Nat) (s : State) : State :=
  let s := applyPhase c (applyFreq c s)
  let s := modSrc c (fun x => originTones 0 { freq := x.freq, phase := x.phase, freqSh := x.freqSh, phaseSh := x.phaseSh,
                                              list := if playsList s c then readPlayList s c else [] }) s
  let s := setRegN (Reg.SRC_CH_STATUS c) 0 (setRegN (Reg.SRC_CH_CLIP c) 0 s)
  let u := uexp s c
  let s := setRegN (Reg.SRC_CH_GDELAY c) (halfTicksToNs (3 * (2 ^ u - 1) * periodOf s (c / 32))) s
  if playsList s c then comeTo c 0 0 s else showList c 0 none s

/-- Asks for a tone origin of channel `c` at `t` ticks from vector 0 (R369). -/
def askOrigin (t c : Nat) (s : State) : State := modSrc c (fun x => { x with origins := x.origins ++ [t] }) s

/-- A SYNC to sync set `k` at `t` ticks from vector 0 (R341, R369, R379): chains of the set reset, tone origins of the set
move. -/
def syncSet (k t : Nat) (s : State) : State :=
  let meas := (measuring s).filter (fun c => rdFld s (Reg.MEA_XCH_SYNC c) 7 0 == k)
  let srcs := (List.range 512).filter (fun c =>
    groupInStep s (c / 32) && isSource (modeOf s c) && rdFld s (Reg.SRC_CH_CTRL c) 15 8 == k)
  let s := meas.foldl (fun s c => askReset t c s) s
  let s := if meas.isEmpty then s else orReg Reg.MEA_EVENTS 4 s
  srcs.foldl (fun s c => askOrigin t c s) s

/-! ### Meanings -/

/-- SOURCE_VECTOR: channel `c` forms its next vector, unless its wait is due to end first; `overload` says whether an
integrator left its range, `copies` what the section's copies did (R362). -/
def execSourceVector (c : Fin 512) (overload : Bool) (copies : Copies) (s : State) : Host.Outcome State Fault Refusal :=
  let x := srcCh s c.val
  if isSource (modeOf s c.val) && groupInStep s (c.val / 32) && !(waitEndsAt x x.next) then
    let s := if x.next % 64 = 0 then passBoundary (c.val / 32) (x.next / 64) s else s
    .next (copiesRun 0x07 (c.val / 32) copies (sourceVector c.val overload s))
  else .next s

/-- PLAYLIST_WAIT_RELEASE: the wait of channel `c` ends at the first vector of frame f + 40 and the entry starts (R375). -/
def execPlaylistWaitRelease (c : Fin 512) (s : State) : Host.Outcome State Fault Refusal :=
  let x := srcCh s c.val
  if waitEndsAt x x.next then
    .next (showList c.val 1 x.cur (modSrc c.val (fun x => { x with waitFrom := none, acted := none }) s))
  else .next s

/-- A write of SRC_NCO_FREQ_HI forms a FREQ write of the selected slot (R372, R381). -/
def freqWrite (value : Word) (s : State) : State :=
  let f := s.src.freqLo + 4294967296 * fld value 15 0
  if 2 ^ 42 < f then answer stValueRange s
  else
    let c := rdFld s Reg.SRC_NCO_SEL 8 0
    let k := rdFld s Reg.SRC_NCO_SEL 18 16
    answer stOk (modSrc c (fun x => { x with freqSh := x.freqSh.filter (fun e => e.1 != k) ++ [(k, f)] }) s)

/-- NCO_FREQ_WRITE. -/
def execNcoFreqWrite (q : Req) (value : Word) (s : State) : Host.Outcome State Fault Refusal :=
  .next (guarded q Reg.SRC_NCO_FREQ_HI value (freqWrite value) s)

end Sys2Proof.Machine
end

