-- ==== Sys2Proof/Machine/LineAct.lean ====
section
/-! DEFINITION. Acts of trigger lines and their consumers (R413 to R420, R428, R436), and the sampling of lines at BEAT
edges (R415, R235, R236, R375). -/

namespace Sys2Proof.Machine

open Sys2Proof

/-! ### Sampling -/

/-- The pin frame, of vectors of period `n`, whose interval holds the BEAT edge at grid instant `e` (R235); none before
vector 0 is released. -/
def frameOfEdge (s : State) (n e : Nat) : Option Nat :=
  match s.seq.step with
  | some st =>
    if st.steptime.isSome && decide (stepOrigin s ≤ e * ticksPerGrid) && decide (0 < n)
    then some ((e * ticksPerGrid - stepOrigin s) / (64 * n)) else none
  | none => none

/-- Line `l` is sampled asserted at edge `e` by context `c` (R196, R235, R236). -/
def sampleContext (l e : Nat) (s : State) (c : Nat) : State :=
  match frameOfEdge s (ctxPeriod s c) e with
  | some f => modCtx c (fun x => if x.lineFrames.contains (f, l) then x else { x with lineFrames := x.lineFrames ++ [(f, l)] }) s
  | none => s

/-- Line `l` is sampled asserted at edge `e` by the play list of channel `c`: the first frame that holds a vector of its
wait counts (R375). -/
def sampleSource (l e : Nat) (s : State) (c : Nat) : State :=
  let x := srcCh s c
  match x.waitFrom, x.cur.bind (fun i => x.list[i]?), frameOfEdge s (periodOf s (c / 32)) e with
  | some w, some p, some f =>
    if p.wline = l ∧ w < 64 * (f + 1) ∧ x.acted.isNone then modSrc c (fun x => { x with acted := some f }) s else s
  | _, _, _ => s

/-- Line `l` is sampled asserted at the BEAT edge at grid instant `e`. -/
def sampleLine (l e : Nat) (s : State) : State :=
  match s.seq.step with
  | some st =>
    let s := st.ctxs.foldl (sampleContext l e) s
    ((List.range 512).filter (fun c => groupInStep s (c / 32) && (srcCh s c).waitFrom.isSome)).foldl (sampleSource l e) s
  | none => s

/-! ### Global triggers sent -/

/-- Byte `k` of QT_SENDER and of QT_SRC of the image in force (R448); 0xFF without the section. -/
def qtSender (s : State) (k : Nat) : Nat :=
  if s.img.active.quadrille.isEmpty then 0xFF else secN s.img.active.quadrille (0x10 + k) 1

def qtSrc (s : State) (k : Nat) : Nat :=
  if s.img.active.quadrille.isEmpty then 0xFF else secN s.img.active.quadrille (0x30 + k) 1

/-- The strapped unit address (R432). -/
def ownAddr (s : State) : Nat := rdFld s Reg.QDR_STRAP 4 0

/-- Whether the unit operates on the bus, as a member or as leader. -/
def onBus (s : State) : Bool := busState s == 4 || busState s == 5

/-- Steps of the 625 ps grid in a bus cycle (R434). -/
def gridPerCycle : Nat := 256

/-- An act of line `l` at grid instant `t` is put on QTk, or counted as merged (R436, R437). -/
def sendQt (l t : Nat) (s : State) (k : Nat) : State :=
  if onBus s && qtSender s k == ownAddr s && qtSrc s k == l then
    let c := t / gridPerCycle
    let off := t % gridPerCycle / 2
    match tget (fun _ => none) s.qdr.qtLast k with
    | some last =>
      if c ≤ last + 1 then incWrap Reg.QDR_QT_MERGED 1 s
      else { s with qdr := { s.qdr with qtOut := s.qdr.qtOut ++ [(k, c, off)], qtLast := tset (fun _ => none) s.qdr.qtLast k (some c),
                                        qtAct := s.qdr.qtAct ++ [(k, gridPerCycle * (c + 4) + 2 * off)] } }
    | none =>
      { s with qdr := { s.qdr with qtOut := s.qdr.qtOut ++ [(k, c, off)], qtLast := tset (fun _ => none) s.qdr.qtLast k (some c),
                                   qtAct := s.qdr.qtAct ++ [(k, gridPerCycle * (c + 4) + 2 * off)] } }
  else s

/-! ### Acts -/

/-- The holdoff of a line (R419): whether an act at `t` falls too early after the last one that was not suppressed. -/
def heldOff (s : State) (l t : Nat) : Bool :=
  lineEdge s l && (match tget (fun _ => none) s.trg.last l with
    | some p => decide (t < p + 16 * rdFld s (Reg.TRG_LINE_CFG l) 31 16)
    | none => false)

/-- SYNC of the sync sets that a line drives (R341). -/
def syncByLine (l t : Nat) (s : State) : State :=
  if stepOrigin s ≤ t * ticksPerGrid && stepBegun s then
    ((List.range 64).filter (fun k => rdBit s (Reg.MEA_SYNC_LINE k) 7 && rdFld s (Reg.MEA_SYNC_LINE k) 5 0 == l)).foldl
      (fun s k => syncSet k (t * ticksPerGrid - stepOrigin s) s) s
  else s

/-- An act of line `l` at grid instant `t` that is not suppressed: its registers, its pulse, its sample, and every consumer. -/
def lineActs (l t : Nat) (s : State) : State :=
  let s := incWrap (Reg.TRG_LINE_CNT l) 1 s
  let s := setRegN (Reg.TRG_LINE_LAST_HI l) (t / 16 / 4294967296 % 65536 + 65536 * (t % 16)) (setRegN (Reg.TRG_LINE_LAST_LO l) (t / 16) s)
  let s := { s with trg := { s.trg with
      last := tset (fun _ => none) s.trg.last l (some t),
      pulses := pruneBefore t s.trg.pulses ++ [{ code := l, since := t, upto := some (edgeAt t) }] } }
  let s := sampleLine l (edgeAt t) s
  let s := syncByLine l t s
  let s := (List.range 32).foldl (fun s a => acqTrigger l t a s) s
  let s := (List.range 32).foldl (sendQt l t) s
  dmaLineAct l s

/-- LINE_ACT: line `l` acts at `t` if a direct event is scheduled there or its matrix output rises there; direct events and
a matrix rise of one instant are one act (R449). -/
def lineAct (l t : Nat) (s : State) : State :=
  if s.trg.direct.contains (t, l) || matrixRise s l t then
    let s := { s with trg := { s.trg with direct := s.trg.direct.filter (fun e => e != (t, l)) } }
    if tget (fun _ => none) s.trg.last l = some t then s
    else if heldOff s l t then orReg Reg.TRG_EVENTS 1 (incWrap (Reg.TRG_LINE_SUPP l) 1 s)
    else lineActs l t s
  else s

/-! ### Meanings -/

/-- LINE_ACT; `copies` is what the two copies of the matrix did (R420). -/
def execLineAct (l : Fin 64) (t : Nat) (copies : Copies) (s : State) : Host.Outcome State Fault Refusal :=
  .next (copiesRun 0x09 0 copies (lineAct l.val t s))

/-- BEAT_EDGE_LINE_SAMPLE: a line whose level holds at the present BEAT edge is sampled asserted (R415). -/
def execBeatEdgeLineSample (l : Fin 64) (s : State) : Host.Outcome State Fault Refusal :=
  .next (if lineLevel s l.val (16 * s.beat) then sampleLine l.val (16 * s.beat) s else s)

end Sys2Proof.Machine
end

