-- ==== Sys2Proof/Machine/Compare.lean ====
section
/-! DEFINITION. The compare stage (R295 to R317): judging the returned codes of a pin frame against its expect codes, fail
units, counters and first-fail records, the fail log and its ledger, raw capture, and the registers of the CMP block
that act. -/

namespace Sys2Proof.Machine

open Sys2Proof

/-! ### Codes -/

/-- The expect code of channel index `k` in a vector as a segment stores it (R182). -/
def expectOf (vec k : Nat) : Nat := bitsN vec (4 * k + 3) (4 * k + 2)

/-- The returned code of channel index `k` in an inward vector word (R164). -/
def codeOf (ret k : Nat) : Nat := bitsN ret (2 * k + 1) (2 * k)

/-- The channel indices of `m` that satisfy `p`, as a mask. -/
def maskWhere (m : Nat) (p : Nat → Bool) : Nat := sumN (((bitPositions 32 m).filter p).map (fun (k : Nat) => 2 ^ k))

/-- The channels of group `g` among `m` whose mode is DIGITAL. -/
def digitalMask (s : State) (g m : Nat) : Nat := maskWhere m (fun k => modeOf s (32 * g + k) == 1)

/-- The channels of `m` that take no strobe although a state is expected (R297). -/
def noStrobes (vec ret m : Nat) : Nat := maskWhere m (fun k => expectOf vec k != 3 && codeOf ret k == 3)

/-- The channels of `m` that mismatch (R297); `nsFails` is CMP_XCTRL.NOSTROBE_FAILS. -/
def mismatches (nsFails : Bool) (vec ret m : Nat) : Nat :=
  maskWhere m (fun k => expectOf vec k != 3 && codeOf ret k != expectOf vec k && (codeOf ret k != 3 || nsFails))

/-- The returned codes of the channels of `m`, with 0b11 elsewhere (R306, R312). -/
def receivedOf (ret m : Nat) : Nat :=
  sumN ((List.range 32).map (fun (k : Nat) => (if bitN m k then codeOf ret k else 3) * 4 ^ k))

/-! ### The bucket of the fail log -/

/-- The AMOUNT of the first RESERVE entry of a class and consumer (R33). -/
def reserveAmount (s : State) (cls consumer : Nat) : Option Nat :=
  (s.img.active.reserve.find? (fun r => r.cls == cls && r.consumer == consumer)).map (·.amount)

/-- The fail-log grant in MB/s (R307). -/
def logGrant (s : State) : Option Nat := reserveAmount s 2 0x0100

/-- What one record costs the bucket, in its unit of 1/(256 × 10^12) record. -/
def recordCost : Nat := 256000000000000

/-- What a tick gives the bucket per MB/s granted: 31,250 records/s in 2.44140625 ps. -/
def grantPerTick : Nat := 19531250

/-- The depth of the bucket. -/
def bucketDepth (s : State) : Nat := if (logGrant s).isSome then rdN s Reg.CMP_LOG_BURST * recordCost else 0

/-- Fills the bucket up to tick `t` of the step. -/
def fillBucket (t : Nat) (s : State) : State :=
  let b := s.cmp.bucket + (t - s.cmp.bucketTick) * (logGrant s).getD 0 * grantPerTick
  { s with cmp := { s.cmp with bucket := min b (bucketDepth s), bucketTick := max t s.cmp.bucketTick } }

/-- CMP_STATUS.LOG_FULL follows the ring. -/
def showLogFull (s : State) : State :=
  setBit Reg.CMP_STATUS 1 (sub32 (rdN s Reg.CMP_LOG_WR) (rdN s Reg.CMP_LOG_RD) == rdN s Reg.CMP_LOG_SIZE) s

/-! ### Fail units -/

/-- A fail unit as the stage forms it (R298): site, group, pin vector, mismatching channels, returned codes, and whether
it is the site's first of the step or injected. -/
structure FailUnit where
  site : Nat
  group : Nat
  vector : Nat
  mask : Nat
  received : Nat
  first : Bool
  injected : Bool
  deriving DecidableEq, Repr

/-- The record of a fail unit (R306). -/
def failRecord (s : State) (u : FailUnit) : List Byte :=
  leBytes 1 0x46 ++ leBytes 1 u.site ++ leBytes 1 u.group ++ leBytes 1 (b2n u.first + 2 * b2n u.injected) ++
  leBytes 4 (epochNow s).toNat ++ leBytes 8 u.vector ++ leBytes 4 (rdN s Reg.SEQ_STEP_COUNT) ++ leBytes 4 u.mask ++
  leBytes 8 u.received

/-- Logs a fail unit that falls at tick `t`, or counts it unlogged under the first condition it meets (R308, R309). -/
def logUnit (t : Nat) (u : FailUnit) (s : State) : State :=
  let s := incWrap Reg.CMP_DETECTED 1 s
  let size := rdN s Reg.CMP_LOG_SIZE
  let wr := rdN s Reg.CMP_LOG_WR
  let logged := tget (fun _ => 0) s.cmp.siteLogged u.site
  let most := rdN s Reg.CMP_LOG_SITE_MAX
  if rdBit s Reg.CMP_STATUS 0 then incWrap Reg.CMP_UNLOG_FULL 1 s
  else if sub32 wr (rdN s Reg.CMP_LOG_RD) = size then
    raise (mkFault 0 0x06 0 0x0F)
      (orReg Reg.CMP_EVENTS 1 (setBit Reg.CMP_STATUS 0 true (incWrap Reg.CMP_UNLOG_FULL 1 s)))
  else if most ≠ 0 ∧ most ≤ logged then orReg Reg.CMP_EVENTS 4 (incWrap Reg.CMP_UNLOG_SITEMAX 1 s)
  else
    let s := fillBucket t s
    if s.cmp.bucket < recordCost then orReg Reg.CMP_EVENTS 2 (incWrap Reg.CMP_UNLOG_RATE 1 s)
    else
      let s := { s with cmp := { s.cmp with bucket := s.cmp.bucket - recordCost,
                                            siteLogged := tset (fun _ => 0) s.cmp.siteLogged u.site (logged + 1) } }
      let s := setBytes (rd64 s Reg.CMP_LOG_BASE_LO + 32 * (wr % size)) (failRecord s u) s
      showLogFull (incWrap Reg.CMP_LOGGED 1 (setRegN Reg.CMP_LOG_WR (add32 wr 1) s))

/-- The first-fail record of a site (R305): `groups` are the groups in which it failed. -/
def firstFail (n v groups : Nat) (u : FailUnit) (s : State) : State :=
  if rdBit s (Reg.CMP_FF_GROUPS n) 31 then s
  else
    setRegs (Reg.CMP_FF_VEC_LO n)
      (leWords 2 v ++ [wd (2147483648 + groups), wd u.group, wd u.mask] ++ leWords 2 u.received) s

/-! ### Judging -/

/-- The returned words of a sent frame, 0b11 throughout for a vector it does not hold. -/
def returnedAt (f : SentFrame) (v : Nat) : Nat := nth 0xFFFFFFFFFFFFFFFF (f.results.getD []) v

/-- The stored codes of vector `v` of a sent frame. -/
def sentAt (f : SentFrame) (v : Nat) : Nat := nth 0xCCCCCCCCCCCCCCCCCCCCCCCCCCCCCCCC f.vecs v

/-- The frame with number `f` among those group `g` has sent. -/
def sentFrame (s : State) (g f : Nat) : Option SentFrame := (linkOf s g).sent.find? (fun x => x.number == f && !x.old)

/-- Judges the channels of site `n` in group `g` at vector `v` of a frame: no-strobe results are counted, an armed injection
is taken, and the mismatching channels are answered with whether one was injected (R297, R317). -/
def judgeGroup (n g v : Nat) (f : SentFrame) (s : State) : Nat × Bool × State :=
  let m := digitalMask s g (siteMask s n g)
  let vec := sentAt f v
  let ret := returnedAt f v
  let nsf := rdBit s Reg.CMP_XCTRL 0
  let inj := match s.cmp.inject with
    | some ch => if ch / 32 = g && bitN m (ch % 32) && expectOf vec (ch % 32) != 3 then some (ch % 32) else none
    | none => none
  let bitOf := match inj with | some k => 2 ^ k | none => 0
  let ns := popcount 32 (noStrobes vec ret m &&& (0xFFFFFFFF ^^^ bitOf))
  let s := if nsf || ns = 0 then s else orReg Reg.CMP_EVENTS 8 (incSat Reg.CMP_NOSTROBE ns s)
  let s := if inj.isSome then { s with cmp := { s.cmp with inject := none } } else s
  (mismatches nsf vec ret m ||| bitOf, inj.isSome, s)

/-- Judges site `n` at vector `v` of pin frame `f`: its fail units by group, lowest first. -/
def judgeGroups (n f v : Nat) : List Nat → State → List FailUnit × State
  | [], s => ([], s)
  | g :: gs, s =>
    match sentFrame s g f with
    | none => judgeGroups n f v gs s
    | some x =>
      let (mm, inj, s) := judgeGroup n g v x s
      let (us, s) := judgeGroups n f v gs s
      if mm = 0 then (us, s)
      else
        let m := digitalMask s g (siteMask s n g)
        ({ site := n, group := g, vector := 64 * f + v, mask := mm, received := receivedOf (returnedAt x v) m,
           first := false, injected := inj } :: us, s)

/-- Counts the mismatches of a fail unit on its channels (R304). -/
def countChannels (u : FailUnit) (s : State) : State :=
  (bitPositions 32 u.mask).foldl (fun s k => incSat (Reg.CMP_CH_CNT (32 * u.group + k)) 1 s) s

/-- Delivers the fail units of an unmasked site at one vector (R303 to R306). -/
def deliverFails (c i v t : Nat) (us : List FailUnit) (s : State) : State :=
  match us with
  | [] => s
  | u :: rest =>
    let fresh := !(rdBit s (Reg.CMP_SITE_FAIL (u.site / 32)) (u.site % 32))
    let s := firstFail u.site v (sumN ((u :: rest).map (fun w => 2 ^ w.group))) u s
    let s := incSat (Reg.CMP_SITE_CNT u.site) 1 (setBit (Reg.CMP_SITE_FAIL (u.site / 32)) (u.site % 32) true s)
    let s := (u :: rest).foldl (fun s w => countChannels w s) s
    let s := modCtx c (fun x => { x with fails := x.fails ++ [(v, i)] }) s
    rest.foldl (fun s w => logUnit t w s) (logUnit t { u with first := fresh } s)

/-- Judges the site at index `i` of the list of context `c`, at vector `v` of pin frame `f` (R298, R299): mask bit 1
means unmasked (R201). -/
def judgeSite (c f v : Nat) (gs : List Nat) (s : State) (i : Nat) : State :=
  let n := nth 0 (siteList s c) i
  let (us, s) := judgeGroups n f v (gs.filter (fun g => siteMask s n g ≠ 0)) s
  let pv := 64 * f + v
  if bitN (streamMask (ctxOf s c) pv) i then deliverFails c i pv (pv * ctxPeriod s c) us s
  else
    let k := sumN (us.map (fun u => popcount 32 u.mask))
    if k = 0 then s else incSat (Reg.CMP_SITE_MCNT n) k s

/-- Judges one vector of a pin frame over the site list. -/
def judgeVector (c f : Nat) (gs : List Nat) (s : State) (v : Nat) : State :=
  (List.range (siteList s c).length).foldl (judgeSite c f v gs) s

/-! ### The trigger matrix -/

/-- The assertion of a fail source for pin frame `f` of a context with period `n` (R418): from 234.4 ns + 2P after the end
of the frame, for 64P, in steps of 25,600/100 ticks. -/
def assertFail (code f n : Nat) (s : State) : State :=
  let num := fun k => ((stepOrigin s + (64 * (f + k) + 2) * n) * 100 + 9601024) / 25600
  assertSrc code (num 1) (some (num 2 - 1)) s

/-- The fail sources of a judged frame: FAIL_ANY of the context and SITE_FAIL of its sites (R303, R418). -/
def assertFails (c f : Nat) (s : State) : State :=
  let inF := (ctxOf s c).fails.filter (fun e => e.1 / 64 == f)
  let n := ctxPeriod s c
  if inF.isEmpty then s
  else
    let sites := siteList s c
    let hit := (List.range sites.length).filter (fun i => inF.any (fun e => e.2 == i))
    hit.foldl (fun s i => assertFail (0x80 + nth 0 sites i) f n s) (assertFail (0x40 + c) f n s)

/-! ### Raw capture -/

/-- The vectors that the raw buffer of a context holds (R313). -/
def rawCapacity (s : State) (c : Nat) : Nat := (rdN s (Reg.CMP_RAW_SIZE c) * 4096 - 64) / (8 * (ctxGroups s c).length)

/-- The base of a raw buffer. -/
def rawBase (s : State) (c : Nat) : Nat := rd64 s (Reg.CMP_RAW_BASE_LO c)

/-- Whether raw capture of a context is on. -/
def rawOn (s : State) (c : Nat) : Bool := rdBit s (Reg.CMP_RAW_CTRL c) 0

/-- Whether pin frame `f` lies in the capture window of a context (R312). -/
def rawCovers (s : State) (c f : Nat) : Bool :=
  let a := rdN s (Reg.CMP_RAW_START c)
  let k := rdN s (Reg.CMP_RAW_COUNT c)
  rawOn s c && decide (a ≤ f) && (k == 0 || decide (f < a + k))

/-- Captures one vector of pin frame `f` (R312 to R314). -/
def rawVector (c f : Nat) (s : State) (v : Nat) : State :=
  let j := 64 * (f - rdN s (Reg.CMP_RAW_START c)) + v
  let cap := rawCapacity s c
  let ring := rdBit s (Reg.CMP_RAW_CTRL c) 1
  if cap ≤ j ∧ !ring then orReg Reg.CMP_EVENTS 32 (incWrap (Reg.CMP_RAW_LOST c) 1 s)
  else
    let s := if cap ≤ j then orReg Reg.CMP_EVENTS 16 (incWrap (Reg.CMP_RAW_LOST c) 1 s) else s
    let gs := ctxGroups s c
    let bytes := gs.flatMap (fun g =>
      leBytes 8 (match sentFrame s g f with
        | some x => receivedOf (returnedAt x v) (digitalMask s g (ctxMask s c g))
        | none => 0xFFFFFFFFFFFFFFFF))
    incWrap (Reg.CMP_RAW_STORED c) 1 (setBytes (rawBase s c + 64 + 8 * gs.length * (j % cap)) bytes s)

/-- Captures the vectors of a judged frame; those of a frame whose results were lost are counted (R316). -/
def rawFrame (c f vecs : Nat) (valid : Bool) (s : State) : State :=
  if rawCovers s c f then
    if valid then (List.range vecs).foldl (rawVector c f) s else incWrap (Reg.CMP_RAW_LOST c) vecs s
  else s

/-- The header of a raw buffer (R313). -/
def rawHeader (s : State) (c : Nat) : List Byte :=
  leBytes 1 0x52 ++ leBytes 1 c ++ leBytes 2 (sumN ((ctxGroups s c).map (fun g => 2 ^ g))) ++
  leBytes 4 (epochNow s).toNat ++ leBytes 4 (rdN s Reg.SEQ_STEP_COUNT) ++ leBytes 4 (rawCapacity s c) ++
  leBytes 8 (64 * rdN s (Reg.CMP_RAW_START c)) ++ leBytes 1 (b2n (rdBit s (Reg.CMP_RAW_CTRL c) 1)) ++ List.replicate 39 0

/-- Whether the raw capture of a context is admitted (R315): AMOUNT at least 8m × 10^6 / P MB/s, with P = n ticks. -/
def rawAdmitted (s : State) (c : Nat) : Bool :=
  !(rawOn s c) || (match reserveAmount s 2 c with
    | some a => decide (8 * (ctxGroups s c).length * 100000000000000 ≤ a * ctxPeriod s c * 244140625)
    | none => false)

/-! ### A frame judged -/

/-- The groups of context `c` that pin frame `f` is judged over: those in the step, and after its end those that sent it. -/
def judgedGroups (s : State) (c f : Nat) : List Nat :=
  (ctxGroups s c).filter (fun g => groupInStep s g || (sentFrame s g f).isSome)

/-- Judges pin frame `f` of context `c` once every group of it in the step has answered (R301, R303); with lost results no
unit is detected (R316). The context's conditions are then resolved (R231). -/
def judgeFrame (c f : Nat) (s : State) : State :=
  let gs := judgedGroups s c f
  let fr := gs.filterMap (fun g => sentFrame s g f)
  let vecs := maxN (fr.map (fun x => x.vlast + 1))
  let valid := fr.all (fun x => x.results.isSome && !x.resLost)
  let s := if valid then assertFails c f ((List.range vecs).foldl (judgeVector c f gs) s) else s
  let s := rawFrame c f vecs valid s
  let s := { s with cmp := { s.cmp with judged := tset (fun _ => 0) s.cmp.judged c (f + 1) } }
  resolveFrame c f valid s

/-- Whether every group of context `c` has answered pin frame `f`. -/
def frameAnswered (s : State) (c f : Nat) : Bool :=
  (judgedGroups s c f).all (fun g =>
    match sentFrame s g f with | some x => x.results.isSome || x.resLost | none => false)

/-- Takes context `c` off the judges of pin frame `f` in every group. -/
def frameJudged (c f : Nat) (s : State) : State :=
  (ctxGroups s c).foldl (fun s g => modLink g (fun l => { l with
    sent := l.sent.map (fun x => if x.number = f && !x.old then { x with judges := x.judges.filter (fun d => d != c) } else x) }) s) s

/-- Judges pin frame `f` of group `g` for every context that still waits for it and has all its answers. -/
def judgeReady (g f : Nat) (s : State) : State :=
  match sentFrame s g f with
  | some x => x.judges.foldl (fun s c => if frameAnswered s c f then frameJudged c f (judgeFrame c f s) else s) s
  | none => s

/-! ### START -/

/-- What a START does for the whole stage: logging is no longer stopped and the bucket is full (R307, R309). -/
def startCompare (s : State) : State :=
  let s := setBit Reg.CMP_STATUS 0 false s
  { s with cmp := { s.cmp with bucket := bucketDepth s, bucketTick := 0, siteLogged := [], judged := [] } }

/-- Clears the counters and first-fail record of a site and the counts of its channels (R304, R305). -/
def clearSite (n : Nat) (s : State) : State :=
  let s := setBit (Reg.CMP_SITE_FAIL (n / 32)) (n % 32) false s
  let s := setBit (Reg.CMP_FF_GROUPS n) 31 false (setRegN (Reg.CMP_SITE_MCNT n) 0 (setRegN (Reg.CMP_SITE_CNT n) 0 s))
  (bitPositions 512 (siteOf s n).channels).foldl (fun s ch => setRegN (Reg.CMP_CH_CNT ch) 0 s) s

/-- What a START does for context `c` of the step: its sites' counters are cleared and its raw buffer begins (R304, R313,
R314). -/
def startContextCompare (c : Nat) (s : State) : State :=
  let s := (siteList s c).foldl (fun s n => clearSite n s) s
  let s := setRegN (Reg.CMP_RAW_LOST c) 0 (setRegN (Reg.CMP_RAW_STORED c) 0 s)
  if rawOn s c then setBytes (rawBase s c) (rawHeader s c) s else s

/-- CMP_LOG_RATE after a load (R307): k records/s, rounded down. -/
def showLogRate (s : State) : State := setRegN Reg.CMP_LOG_RATE (((logGrant s).getD 0) * 31250 / 1000) s

/-! ### Register writes -/

/-- A write of CMP_LOG_RD (R310). -/
def logRdWrite (value : Word) (s : State) : State :=
  if rdN s Reg.CMP_LOG_SIZE < sub32 (rdN s Reg.CMP_LOG_WR) value.toNat then answer stValueRange s
  else showLogFull (accept Reg.CMP_LOG_RD value s)

/-- The ring registers of the fail log: base low, base high, size. -/
def logConfigAddr (which : Fin 3) : Nat := Reg.CMP_LOG_BASE_LO + 4 * which.val

/-- Whether a value may stand in a ring register (R317). -/
def logConfigOk (which : Fin 3) (value : Word) : Bool :=
  if which = 0 then decide (value.toNat % 4096 = 0)
  else if which = 1 then true
  else isPow2 value.toNat && decide (1024 ≤ value.toNat) && decide (value.toNat ≤ 67108864)

/-- An accepted write of a ring register clears CMP_LOG_WR and CMP_LOG_RD (R310). -/
def logConfigWrite (which : Fin 3) (value : Word) (s : State) : State :=
  refuseIf (!(logConfigOk which value)) stValueRange
    (fun s => showLogFull (setRegN Reg.CMP_LOG_RD 0 (setRegN Reg.CMP_LOG_WR 0 (accept (logConfigAddr which) value s)))) s

/-- A write of CMP_XINJECT (R317): it arms a forced mismatch on a channel or disarms any. -/
def failInject (value : Word) (s : State) : State :=
  answer stOk { s with cmp := { s.cmp with inject := if bit value 15 then some (fld value 8 0) else none } }

/-! ### Meanings -/

/-- CMP_LOG_RD_WRITE. -/
def execCmpLogRdWrite (q : Req) (value : Word) (s : State) : Host.Outcome State Fault Refusal :=
  .next (guarded q Reg.CMP_LOG_RD value (logRdWrite value) s)

/-- CMP_LOG_CONFIG_WRITE. -/
def execCmpLogConfigWrite (q : Req) (which : Fin 3) (value : Word) (s : State) : Host.Outcome State Fault Refusal :=
  .next (guarded q (logConfigAddr which) value (logConfigWrite which value) s)

/-- FAIL_INJECT. -/
def execFailInject (q : Req) (value : Word) (s : State) : Host.Outcome State Fault Refusal :=
  .next (guarded q Reg.CMP_XINJECT value (failInject value) s)

end Sys2Proof.Machine
end

