-- ==== Sys2Proof/Machine/Kct.lean ====
section
/-! DEFINITION. What the device sends over KCT (R560, R569, R570): messages of a session, RESPONSEs and their cache, the end of
a command whose answer was open, the records of the TELEMETRY stream (R94), and CRC-32. -/

namespace Sys2Proof.Machine

open Sys2Proof

/-! ### Sessions -/

/-- Changes the session in slot `k`. -/
def modSess (k : Nat) (f : Session → Session) (s : State) : State :=
  { s with net := { s.net with sess := tset (fun _ => {}) s.net.sess k (f (sessOf s k)) } }

/-- Byte 0 of a host identity. -/
def idByte0 (h : Nat) : Nat := h / 2 ^ 248

/-- Refreshes the window of session slot `k`, except its computed bits OWNER and OFFERED (R587). -/
def showSess (k : Nat) (s : State) : State :=
  let x := sessOf s k
  let open_ := x.phase == .opened
  setRegN (Reg.NET_SESS_ID k) x.id.toNat
    (setRegN (Reg.NET_SESS_STATE k)
      (2147483648 * b2n open_ + 1073741824 * b2n (open_ && s.net.owner == some k) + 536870912 * b2n x.standing +
        268435456 * b2n (match s.net.offer with | some o => o.slot == k | none => false) + 65536 * idByte0 x.hostId +
        256 * x.prio + x.port) s)

/-- Refreshes every session window, SYS_OWNER, and OWNER_DIFFERS of a bus member (R443, R586, R587). -/
def showOwner (s : State) : State :=
  let s := (List.range 8).foldl (fun s k => showSess k s) s
  let tag := match s.net.owner with | some k => idByte0 (sessOf s k).hostId | none => 0
  let s := if busState s == 4 then setBit Reg.QDR_STATUS 23 (tag != rdFld s Reg.QDR_OWNER_TAG 7 0) s else s
  setRegN Reg.SYS_OWNER
    (2147483648 * b2n s.net.owner.isSome + 1073741824 * b2n s.net.electing + 16777216 * s.net.how + 65536 * tag +
      s.net.owner.getD 0) s

/-! ### Sending -/

/-- Sends a numbered message on a session, or lets it wait for the peer's WINDOW (R569, R570); `epoch` is that of its
content. -/
def sendMsg (k : Nat) (epoch : Word) (b : OutBody) (s : State) : State :=
  let x := sessOf s k
  let m : OutMsg := { seq := x.tx + 1, epoch := epoch, body := b }
  if x.unacked.length < x.window then
    incWrap (Reg.NET_SESS_TX k) 1 (modSess k (fun x => { x with tx := x.tx + 1, unacked := x.unacked ++ [m] }) s)
  else modSess k (fun x => { x with tx := x.tx + 1, waiting := x.waiting ++ [m] }) s

/-- Sends waiting messages as far as the window allows. -/
def sendWaiting (k : Nat) : Nat → State → State
  | 0, s => s
  | n + 1, s =>
    let x := sessOf s k
    match x.waiting with
    | [] => s
    | m :: ms =>
      if x.unacked.length < x.window then
        sendWaiting k n (incWrap (Reg.NET_SESS_TX k) 1 (modSess k (fun x => { x with unacked := x.unacked ++ [m], waiting := ms }) s))
      else s

/-- Answers a request of a session with one RESPONSE, kept in the cache of 64 unless it is none of its own (R560, R569). -/
def respond (k : Nat) (r : Resp) (cached : Bool) (s : State) : State :=
  if (sessOf s k).phase == .opened then
    let s := if cached then modSess k (fun x => { x with cache := (r :: x.cache).take 64 }) s else s
    sendMsg k (epochNow s) (.response r) s
  else s

/-! ### Open commands -/

/-- Whether a command of this kind still waits for its answer. -/
def isOpen (k : OpenKind) (s : State) : Bool := s.net.openCmds.any (fun o => o.kind == k)

/-- The first open command of a kind ends with a status code: its request is answered (R56, R273, R574), by a RESPONSE when it
came in a message. With ownership vacant the answer waits for the next owner (R62). -/
def finishOpen (k : OpenKind) (code : Nat) (s : State) : State :=
  match s.net.openCmds.find? (fun o => o.kind == k) with
  | none => s
  | some o =>
    let s := { s with net := { s.net with openCmds := s.net.openCmds.erase o } }
    if o.reqSeq = 0 then answer code s
    else
      let r : Resp := { reqSeq := o.reqSeq, status := if code = stOk then o.code else code,
                        done := if code = stOk then o.done + 1 + o.after else o.done, data := [] }
      if o.slot = 8 then { s with net := { s.net with results := s.net.results ++ [r] } }
      else respond o.slot r (!o.moved) s

/-- Every open command of a kind ends with a code; `n` bounds their number. -/
def finishAll (k : OpenKind) (code : Nat) : Nat → State → State
  | 0, s => s
  | n + 1, s => if isOpen k s then finishAll k code n (finishOpen k code s) else s

/-- Every commit of group `g` that waits is answered OK (R273). -/
def finishCommits (g : Nat) (s : State) : State := finishAll (.commit g) stOk s.net.openCmds.length s

/-! ### Telemetry -/

/-- Puts a record on the owner's TELEMETRY stream, and on those of the other sessions (R571, R576; DEDUCED, notes/assumptions/56.md);
without credit the oldest undelivered record is discarded, and counted for the owner's stream (R94, R128). With no other record
undelivered the one just due is kept (DESIGN CHOICE, notes/assumptions/52.md). -/
def pushTelemetry (ws : List Word) (s : State) : State :=
  let r : Rec := { epoch := epochNow s, words := ws }
  let lost := (s.net.streams.filter (fun t => isOwnerTelemetry t && t.credit == 0 && !t.recs.isEmpty)).length
  let s := { s with net := { s.net with streams := s.net.streams.map (fun t =>
    if t.kind == 1 then
      if t.credit = 0 && !t.recs.isEmpty then
        { t with recs := t.recs.drop 1 ++ [r], dropped := true, telDropped := true, nextIdx := t.nextIdx + 1 }
      else { t with recs := t.recs ++ [r] }
    else t) } }
  incWrap Reg.TEL_DROPPED lost s

/-! ### CRC-32 -/

/-- One bit of CRC-32 (IEEE 802.3, reflected). -/
def crcBit (c : Nat) : Nat := if c % 2 = 1 then (c / 2) ^^^ 0xEDB88320 else c / 2

/-- One byte of CRC-32. -/
def crcByte (c : Nat) (b : Byte) : Nat :=
  crcBit (crcBit (crcBit (crcBit (crcBit (crcBit (crcBit (crcBit (c ^^^ b.toNat))))))))

/-- CRC-32 of a byte string. -/
def crc32 (bs : List Byte) : Nat := bs.foldl crcByte 0xFFFFFFFF ^^^ 0xFFFFFFFF

end Sys2Proof.Machine
end

