-- ==== Sys2Proof/Machine/Envelope.lean ====
section
/-! DEFINITION. Telemetry and the peak envelope (R92 to R97, R675 to R677): junction sensors and their exclusion, the telemetry
record, Galop time, the power estimate of a step and its admission. -/

namespace Sys2Proof.Machine

open Sys2Proof

/-! ### Junction sensors -/

/-- The neighbours of junction sensor `n` in the 4 × 4 grid (R93). -/
def sensorNeighbours (n : Nat) : List Nat :=
  (if 4 ≤ n then [n - 4] else []) ++ (if n < 12 then [n + 4] else []) ++ (if n % 4 ≠ 0 then [n - 1] else []) ++
  (if n % 4 ≠ 3 then [n + 1] else [])

/-- A reading that the first pass keeps: −60 to +160 °C. -/
def inRange (t : Int) : Bool := decide (-960 ≤ t) && decide (t ≤ 2560)

/-- Inserts a number in a rising list. -/
def insertInt (x : Int) : List Int → List Int
  | [] => [x]
  | y :: ys => if x ≤ y then x :: y :: ys else y :: insertInt x ys

/-- A list of integers in rising order. -/
def sortInts (l : List Int) : List Int := l.foldl (fun a x => insertInt x a) []

/-- Twice the median of a list; of an even number of readings, the mean of the middle two. -/
def twiceMedian (l : List Int) : Int :=
  let r := sortInts l
  nth 0 r ((r.length - 1) / 2) + nth 0 r (r.length / 2)

/-- Whether the second pass excludes sensor `n` (R93): more than 20 °C from every kept neighbour, or from the median when it
has none. -/
def farOff (tj : List Int) (n : Nat) : Bool :=
  let t := nth 0 tj n
  let near := (sensorNeighbours n).filter (fun k => inRange (nth 0 tj k))
  if near.isEmpty then decide (640 < (2 * t - twiceMedian (tj.filter inRange)).natAbs)
  else near.all (fun k => decide (320 < (t - nth 0 tj k).natAbs))

/-- The sensors excluded in a sample (R93). -/
def excludedSensors (tj : List Int) : List Nat :=
  (List.range 16).filter (fun n => !(inRange (nth 0 tj n)) || farOff tj n)

/-- The hottest of the remaining sensors: its reading and its number. -/
def hottest (tj : List Int) (kept : List Nat) : Option (Int × Nat) :=
  kept.foldl (fun b n => match b with
    | none => some (nth 0 tj n, n)
    | some p => if p.1 < nth 0 tj n then some (nth 0 tj n, n) else some p) none

/-- The last readings of telemetry, in 1/16 °C: the hottest junction sensor and the case estimate. -/
def tjMax (s : State) : Int := sext 16 (rdFld s (Reg.TEL_SNAP 7) 31 16)
def tCaseEst (s : State) : Int := sext 16 (rdFld s (Reg.TEL_SNAP 8) 31 16)

/-- Sensors excluded at the last sample. -/
def sensorsOut (s : State) : Nat := popcount 16 (rdN s Reg.TEL_SENSOR_EXCL)

/-! ### Galop time -/

/-- Reference periods of Galop steps in the last `w` periods. -/
def galopTime (s : State) (w : Nat) : Nat :=
  let from_ := s.time - w
  sumN (s.pwr.galopRuns.map (fun r => (r.2.getD s.time) - max r.1 from_))

/-- Reference periods in 60 s. -/
def periods60s : Nat := 6000000000

/-- PWR_GALOP_S: Galop time in the last 60 s, in 0.1 s. -/
def galopTenths (s : State) : Nat := galopTime s periods60s / 10000000

/-- Whether R676 would refuse a Galop step under reason 3, 4 or 5. -/
def galopBlocked (s : State) : Bool :=
  decide (1840 < tjMax s) || decide (4 ≤ sensorsOut s) || decide (rdN s Reg.PWR_VIN < 7000)

/-! ### The estimate and the admission of a step -/

/-- P_est of a step over groups with the given periods (R675), as a fraction in 10^-7 W: numerator and denominator. -/
def powerEstimate (s : State) (ns : List Nat) : Nat × Nat :=
  let d := ns.foldl (fun a n => a * n) 1
  let fixed := 480000000 + 250 * (rdN s Reg.IMG_HBM0_RSV + rdN s Reg.IMG_HBM1_RSV) + 25 * rdN s Reg.IMG_ENG_RSV +
    125 * rdN s Reg.IMG_ETH_RSV + 1000 * rdN s Reg.IMG_LIBR_RSV
  (fixed * d + sumN (ns.map (fun n => 5120000000 * (d / n))), d)

/-- Whether a fraction of 10^-7 W exceeds `w` tenths of a watt. -/
def exceedsTenths (p : Nat × Nat) (w : Nat) : Bool := decide (w * 1000000 * p.2 < p.1)

/-- The reason of R676 for which a step is refused; 0 when it is admitted. -/
def admitReason (s : State) (p : Nat × Nat) : Nat :=
  let galop := exceedsTenths p (rdN s Reg.PWR_XGALOP_W)
  let hot := decide (1520 ≤ tCaseEst s)
  let vin := rdN s Reg.PWR_VIN
  let dur := rdN s Reg.PWR_STEP_DUR
  let d := dur * 100000
  if 1680 < tCaseEst s then 1
  else if vin < 6000 then 2
  else if galop && decide (1840 < tjMax s) then 3
  else if galop && decide (4 ≤ sensorsOut s) then 4
  else if exceedsTenths p 1250 && decide (vin < 7000) then 5
  else if galop && hot && (dur == 0 || decide (20000 < dur)) then 6
  else if galop && hot && decide (3000000000 < galopTime s (periods60s - d) + d) then 7
  else 0

/-- Reports the admission of a START in PWR_ADMIT (R676, R679). -/
def reportAdmit (p : Nat × Nat) (reason : Nat) (s : State) : State :=
  let tenths := (divNearestEven (p.1 : Int) (p.2 * 1000000)).toNat
  let s := setRegN Reg.PWR_ADMIT (reason * 16777216 + b2n (exceedsTenths p (rdN s Reg.PWR_XGALOP_W)) * 65536 + tenths % 65536) s
  if reason = 0 then s else orReg Reg.PWR_EVENTS 4 s

/-- GALOP_OVERRUN (R677): the Galop step in progress has run beyond PWR_STEP_DUR; it is counted once. -/
def galopOverrun (s : State) : State :=
  if s.pwr.galopStep && s.seq.step.isSome && !s.pwr.overrun then
    let s := raise (mkFault 0 0x18 0 0x0F) (orReg Reg.PWR_EVENTS 8 (incSat Reg.PWR_OVERRUN 1 s))
    { s with pwr := { s.pwr with overrun := true } }
  else s

/-! ### Telemetry -/

/-- Power-state code of SYS_STATE and of the telemetry record: RUN, HOLD, STANDBY, DETACHED; OFF has none. -/
def powerCode (p : PowerState) : Nat :=
  match p with
  | .run => 0
  | .hold => 1
  | .standby => 2
  | .detached => 3
  | .off => 4

/-- FLAGS of a telemetry record (R95), but for DROPPED_BEFORE. -/
def telFlags (s : State) : Nat :=
  b2n (rdBit s Reg.TBF_STATUS 0) + 2 * b2n (sensorsOut s != 0) + 4 * b2n (rdBit s Reg.TBF_STATUS 4) +
  16 * (powerCode s.pwr.state % 8) + 128 * b2n (galopBlocked s)

/-- The 128 bytes of a telemetry record (R95); GALOP_DUTY is rounded to the nearest 0.1 %, ties to even (DESIGN CHOICE,
notes/assumptions/52.md); `hot` and `slack` are TJ_MAX with TJ_MAX_ID and SLACK_MIN with SLACK_MIN_ID. -/
def telRecord (s : State) (o : SensorObs) (out : List Nat) (hot slack : Nat × Nat) : List Byte :=
  leBytes 2 0x0054 ++ leBytes 2 128 ++ leBytes 4 (epochNow s).toNat ++ leBytes 4 (rdN s Reg.TEL_SEQ) ++ leBytes 4 (telFlags s) ++
  leBytes 8 s.beat ++ leBytes 2 o.vin ++ leBytes 2 o.iin ++ leBytes 2 o.pin ++ leBytes 2 hot.1 ++ leBytes 2 hot.2 ++
  leBytes 2 (twos 16 o.tCase) ++ leBytes 2 (twos 16 o.tHbm0) ++ leBytes 2 (twos 16 o.tHbm1) ++ leBytes 2 (twos 16 o.tNand) ++
  leBytes 2 (twos 16 o.tPwr) ++ leBytes 2 slack.1 ++ leBytes 2 slack.2 ++ leBytes 4 (rdN s Reg.TBF_BEAT_PPM) ++
  leBytes 2 ((divNearestEven ((galopTime s periods60s * 1000 : Nat) : Int) periods60s).toNat) ++ leBytes 2 0 ++
  (List.range 16).flatMap (fun n => leBytes 2 (if out.contains n then 0x8000 else twos 16 (nth 0 o.tj n))) ++
  (List.range 8).flatMap (fun n => leBytes 2 (nth 0 o.rails n)) ++
  leBytes 4 (rdN s Reg.TBF_PAV_LATE) ++ leBytes 4 (rdN s Reg.TEL_DROPPED) ++ List.replicate 16 0

/-- TJ_MAX and TJ_MAX_ID: free values when every sensor is excluded. -/
def hotFields (tj : List Int) (out : List Nat) (s : State) : (Nat × Nat) × State :=
  match hottest tj ((List.range 16).filter (fun n => !(out.contains n))) with
  | some p => ((twos 16 p.1, p.2), s)
  | none =>
    let (a, s) := freeNat 16 s
    let (b, s) := freeNat 4 s
    ((a, b), s)

/-- SLACK_MIN and SLACK_MIN_ID: free values when no window ended in the period. -/
def slackFields (s : State) : (Nat × Nat) × State :=
  match s.tb.slackLow with
  | some p => ((twos 16 p.2, p.1), s)
  | none =>
    let (a, s) := freeNat 16 s
    let (b, s) := freeNat 5 s
    ((a, b), s)

/-- The thermal limits on the hottest junction reading (R616, R677): each acts when the reading first reaches it. -/
def thermalLimits (old new id : Nat) (s : State) : State :=
  let a := sext 16 old
  let b := sext 16 new
  let s := if a ≤ 1840 ∧ 1840 < b then orReg Reg.PWR_EVENTS 16 s else s
  let s := if a < 2000 ∧ 2000 ≤ b then raise (mkFault 3 0x19 id 0x0C) s else s
  if a ≤ 2160 ∧ 2160 < b then raise (mkFault 4 0x19 id 0x0C) s else s

/-- TELEMETRY_SAMPLE (R92 to R95). -/
def telemetrySample (o : SensorObs) (s : State) : State :=
  let tj := padTo 16 0 o.tj
  let out := excludedSensors tj
  let fresh := out.filter (fun n => !(rdBit s Reg.TEL_SENSOR_EXCL n))
  let oldHot := rdFld s (Reg.TEL_SNAP 7) 31 16
  let s := fresh.foldl (fun s n => raise (mkFault 1 0x15 n 0x09) s) s
  let s := setRegN Reg.TEL_SENSOR_EXCL (sumN (out.map (fun (n : Nat) => 2 ^ n))) s
  let s := setRegN Reg.PWR_PIN o.pin (setRegN Reg.PWR_VIN o.vin s)
  let (hot, s) := hotFields tj out s
  let s := if out.length = 16 then s else thermalLimits oldHot hot.1 hot.2 s
  let s := setReg (Reg.TEL_SNAP 7) (putFld (rd s (Reg.TEL_SNAP 7)) 31 16 hot.1) s
  let (slack, s) := slackFields s
  let s := incWrap Reg.TEL_SEQ 1 { s with tb := { s.tb with slackLow := none } }
  let ws := bytesToWords (telRecord s o out hot slack)
  let s := setRegs (Reg.TEL_SNAP 0) ws s
  if rdBit s Reg.TEL_CTRL 16 then pushTelemetry ws s else s

/-! ### Meanings -/

/-- TELEMETRY_SAMPLE. -/
def execTelemetrySample (obs : SensorObs) (s : State) : Host.Outcome State Fault Refusal := .next (telemetrySample obs s)

/-- GALOP_OVERRUN. -/
def execGalopOverrun (s : State) : Host.Outcome State Fault Refusal := .next (galopOverrun s)

end Sys2Proof.Machine
end

