-- ==== Sys2Proof/Machine/Ptp.lean ====
section
/-! DEFINITION. Network time (R589 to R606): the domain counters and TOD, the commands of a domain, DUAL and SINGLE, the slew,
time stamps, the receive ring and the launch queues. -/

namespace Sys2Proof.Machine

open Sys2Proof

/-! ### Counters -/

/-- Units of 2^-32 ns in a second. -/
def secUnits : Nat := 1000000000 * 4294967296

/-- Where a counter of 48 bits of seconds wraps (R590). -/
def timeWrap : Nat := 2 ^ 48 * secUnits

/-- Domain `d`: 0 A, 1 B. -/
def domainOf (s : State) (d : Nat) : Domain := if d = 0 then s.ptp.a else s.ptp.b

/-- Changes domain `d`. -/
def modDomain (d : Nat) (f : Domain → Domain) (s : State) : State :=
  if d = 0 then { s with ptp := { s.ptp with a := f s.ptp.a } } else { s with ptp := { s.ptp with b := f s.ptp.b } }

/-- The domain selected for TOD. -/
def ptpSel (s : State) : Nat := rdFld s Reg.PTP_STATUS 0 0

/-- Whether the configuration is SINGLE (R594). -/
def ptpSingle (s : State) : Bool := rdBit s Reg.PTP_STATUS 6

/-- Whether domain `d` is VALID. -/
def domainValid (s : State) (d : Nat) : Bool := rdBit s Reg.PTP_STATUS (4 + d)

/-- TOD in 2^-32/125 ns (R596). -/
def todFine (s : State) : Int := 125 * ((domainOf s (ptpSel s)).count : Int) + s.ptp.soff

/-- TOD in 2^-32 ns. -/
def tod (s : State) : Nat := ((todFine s / 125) % (timeWrap : Int)).toNat

/-- Seconds of a count. -/
def secOf (n : Nat) : Nat := n / secUnits

/-- Nanoseconds of a count. -/
def nsOf (n : Nat) : Nat := n % secUnits / 4294967296

/-- The 12 bytes of a time value (R592). -/
def timeBytes (n : Nat) : List Byte := leBytes 6 (secOf n) ++ leBytes 4 (nsOf n) ++ leBytes 2 (n % 4294967296 / 65536)

/-- The count of a 12-byte time value. -/
def timeOfBytes (bs : List Byte) : Nat :=
  ofLeBytes (bs.take 6) * secUnits + ofLeBytes ((bs.drop 6).take 4) * 4294967296 + ofLeBytes ((bs.drop 10).take 2) * 65536

/-- SOFFSET in ps, rounded. -/
def soffPs (s : State) : Int := divNearestEven s.ptp.soff 536870912

/-- Shows SOFFSET and SLEWING; a value past 32 bits is open. -/
def showSlew (s : State) : State :=
  let v := soffPs s
  let s := setBit Reg.PTP_STATUS 8 (s.ptp.soff != 0) s
  if -2147483648 ≤ v ∧ v ≤ 2147483647 then setRegN Reg.PTP_SOFFSET (twos 32 v) s
  else
    let (n, s) := freeNat 32 s
    setRegN Reg.PTP_SOFFSET n s

/-- Moves SOFFSET toward 0 by 1 ps (R596). -/
def slewOnce (v : Int) : Int :=
  if 536870912 < v then v - 536870912 else if v < -536870912 then v + 536870912 else 0

/-- A domain's counter after a STEP or SET that waited. -/
def pendCount (d : Domain) : Nat :=
  match d.pend with
  | some (.step ns) => (((d.count : Int) + ns * 4294967296) % (timeWrap : Int)).toNat
  | some (.set n) => n
  | none => d.count

/-- One reference period of domain `d` (R590, R593): a STEP or SET that waited, then the increment; in DUAL a change of the
selected domain goes to SOFFSET with the opposite sign (R596). -/
def tickDomain (d : Nat) (s : State) : State :=
  let x := domainOf s d
  let n := pendCount x
  let s := match x.pend with
    | some (.set _) => setBit Reg.PTP_STATUS (4 + d) true s
    | _ => s
  let s := if x.pend.isSome && !(ptpSingle s) && ptpSel s == d then
      { s with ptp := { s.ptp with soff := s.ptp.soff - 125 * ((n : Int) - (x.count : Int)) } } else s
  modDomain d (fun x => { x with count := (n + x.inc) % timeWrap, pend := none }) s

/-- One reference period of network time (R590, R596). -/
def ptpTick (s : State) : State :=
  let t := tickDomain 1 (tickDomain 0 s)
  if s.ptp.soff = 0 ∧ t.ptp.soff = 0 then t else showSlew { t with ptp := { t.ptp with soff := slewOnce t.ptp.soff } }

/-! ### Configuration -/

/-- Units present on the bus, this one included (R594). -/
def unitsPresent (s : State) : Nat :=
  if aloneRole s then 1 else popcount 32 (rdN s Reg.QDR_PRESENT ||| 2 ^ rdFld s Reg.QDR_STRAP 4 0)

/-- The configuration the present units call for. -/
def wantSingle (s : State) : Bool := decide (9 ≤ unitsPresent s)

/-- Whether a change of configuration may take effect (R595). -/
def modeMayChange (s : State) : Bool := !(stepRuns s) && (!(wantSingle s) || s.ptp.soff == 0)

/-- Evaluates the configuration (R595): a change takes effect at once where it may, and waits otherwise. -/
def ptpEvaluate (s : State) : State :=
  if wantSingle s = ptpSingle s then setBit Reg.PTP_STATUS 7 false s
  else if modeMayChange s then
    orReg Reg.PTP_EVENTS 8 (setBit Reg.PTP_STATUS 7 false (setBit Reg.PTP_STATUS 6 (wantSingle s) s))
  else setBit Reg.PTP_STATUS 7 true s

/-! ### Commands -/

/-- A refusal of R597: TIME_STEP_REFUSED, the event and a notice. -/
def stepRefused (s : State) : State :=
  answer stTimeStepRefused (raise (mkFault 0 0x11 0 0x0F) (orReg Reg.PTP_EVENTS 1 s))

/-- PTP_STEP_MAX in 2^-32 ns. -/
def stepMax (s : State) : Nat := rdN s Reg.PTP_STEP_MAX * 4294967296

/-- STEP of domain `d` (R593, R597). -/
def ptpStep (d : Nat) (s : State) : State :=
  let ns := sext 64 (rdN s (Reg.PTP_D_ARG0 d) + 4294967296 * rdN s (Reg.PTP_D_ARG1 d))
  if ptpSingle s && decide (rdN s Reg.PTP_STEP_MAX < ns.natAbs) then stepRefused s
  else answer stOk (modDomain d (fun x => { x with pend := some (.step ns) }) s)

/-- SET of domain `d` (R593, R597). -/
def ptpSet (d : Nat) (s : State) : State :=
  let sec := rdN s (Reg.PTP_D_ARG0 d) + 4294967296 * rdFld s (Reg.PTP_D_ARG1 d) 15 0
  let ns := rdN s (Reg.PTP_D_ARG2 d)
  let n := sec * secUnits + ns * 4294967296
  if 999999999 < ns then answer stValueRange s
  else if ptpSingle s && domainValid s d && decide (stepMax s < ((n : Int) - ((domainOf s d).count : Int)).natAbs) then stepRefused s
  else answer stOk (modDomain d (fun x => { x with pend := some (.set n) }) s)

/-- INVALIDATE of domain `d` (R593, R597). -/
def ptpInvalidate (d : Nat) (s : State) : State :=
  if ptpSingle s then stepRefused s else answer stOk (setBit Reg.PTP_STATUS (4 + d) false s)

/-- A write of PTP_D_INC_HI commits the increment (R591). -/
def incCommit (d : Nat) (value : Word) (s : State) : State :=
  let n := rdN s (Reg.PTP_D_INC_LO d) + 4294967296 * fld value 7 0
  if 100000 * n < 999000 * 4294967296 ∨ 1001000 * 4294967296 < 100000 * n then answer stValueRange s
  else accept (Reg.PTP_D_INC_HI d) value (modDomain d (fun x => { x with inc := n }) s)

/-- A write of PTP_CTRL (R596, R597): a changed SEL sets SOFFSET so that TOD continues, and is refused in SINGLE. -/
def ptpCtrlWrite (value : Word) (s : State) : State :=
  let sel := fld value 0 0
  if sel = ptpSel s then accept Reg.PTP_CTRL value s
  else if ptpSingle s then stepRefused s
  else
    let t := todFine s
    let s := setFld Reg.PTP_STATUS 0 0 sel s
    let s := { s with ptp := { s.ptp with soff := t - 125 * ((domainOf s sel).count : Int) } }
    accept Reg.PTP_CTRL value (showSlew (orReg Reg.PTP_EVENTS 16 s))

/-- A write of PTP_SNAP_CMD (R606). -/
def ptpSnap (s : State) : State :=
  let s := { s with ptp := { s.ptp with snapBeat := s.beat } }
  let s := setRegN Reg.PTP_SNAP_BEAT_LO s.beat s
  let s := setRegN Reg.PTP_SNAP_TOD_SEC (secOf (tod s)) (setRegN Reg.PTP_SNAP_TOD_NS (nsOf (tod s)) s)
  answer stOk (setRegN Reg.PTP_SNAP_A_NS (nsOf s.ptp.a.count) (setRegN Reg.PTP_SNAP_B_NS (nsOf s.ptp.b.count) s))

/-- The low time registers (R606): TOD, domain A, domain B, the snapshot's BEAT count. -/
def ptpTimeAddr (which : Nat) : Nat :=
  match which with
  | 0 => Reg.PTP_TOD_SEC_LO
  | 1 => Reg.PTP_D_SEC_LO 0
  | 2 => Reg.PTP_D_SEC_LO 1
  | _ => Reg.PTP_SNAP_BEAT_LO

/-- A read of a low time register returns it and latches the rest of its value (R606). -/
def ptpReadTime (which : Nat) (s : State) : Word × State :=
  match which with
  | 0 =>
    let n := tod s
    (wd (secOf n), setRegN Reg.PTP_TOD_SEC_HI (secOf n / 4294967296) (setRegN Reg.PTP_TOD_NS (nsOf n) s))
  | 1 =>
    let n := s.ptp.a.count
    (wd (secOf n), setRegN (Reg.PTP_D_SEC_HI 0) (secOf n / 4294967296) (setRegN (Reg.PTP_D_NS 0) (nsOf n) s))
  | 2 =>
    let n := s.ptp.b.count
    (wd (secOf n), setRegN (Reg.PTP_D_SEC_HI 1) (secOf n / 4294967296) (setRegN (Reg.PTP_D_NS 1) (nsOf n) s))
  | _ => (rd s Reg.PTP_SNAP_BEAT_LO, setRegN Reg.PTP_SNAP_BEAT_HI (s.ptp.snapBeat / 4294967296) s)

/-! ### Stamps and rings -/

/-- An error of a stamp within ±`ns` (R598), in 2^-16 ns. -/
def stampError (ns : Nat) (s : State) : Int × State :=
  let (n, s) := freeNat 32 s
  (((n % (131072 * ns + 1) : Nat) : Int) - ((65536 * ns : Nat) : Int), s)

/-- A count moved by an error in 2^-16 ns. -/
def stampAt (n : Nat) (e : Int) : Nat := (((n : Int) + 65536 * e) % (timeWrap : Int)).toNat

/-- Whether domain `d` is tracked (R594). -/
def domainTracked (s : State) (d : Nat) : Bool := !(ptpSingle s) || ptpSel s == d

/-- The domain number that PTP_CTRL gives domain `d`. -/
def domainNumber (s : State) (d : Nat) : Nat := rdFld s Reg.PTP_CTRL (15 + 8 * d) (8 + 8 * d)

/-- Whether port `p` is linked. -/
def portLinked (s : State) (p : Nat) : Bool := decide ((if p = 0 then s.net.port0 else s.net.port1).linked ≠ 0)

/-- A PTP message arrives on a port (R599, R600): it is stamped and written to the receive ring, or dropped while the ring
is full. -/
def ptpReceive (p domain : Nat) (tagged : Bool) (frame : List Byte) (s : State) : State :=
  if !(rdBit s Reg.PTP_CTRL 1) || s.pwr.recovery then incSat Reg.NET_DROPPED 1 s
  else
    let size := rdN s Reg.PTP_RX_SIZE
    let wr := rdN s Reg.PTP_RX_WR
    if size ≤ sub32 wr (rdN s Reg.PTP_RX_RD) then orReg Reg.PTP_EVENTS 2 (incSat Reg.PTP_RX_DROPPED 1 s)
    else
      let (e, s) := stampError 2 s
      let inA := domainTracked s 0 && domainNumber s 0 == domain
      let inB := domainTracked s 1 && domainNumber s 1 == domain
      let dom := if inA then timeBytes (stampAt s.ptp.a.count e)
        else if inB then timeBytes (stampAt s.ptp.b.count e) else List.replicate 12 0
      let flags := b2n inA + 2 * b2n inB + 4 * b2n (decide (208 < frame.length)) + 8 * b2n tagged
      let bs := leBytes 1 0x50 ++ leBytes 1 p ++ leBytes 2 frame.length ++ leBytes 4 (epochNow s).toNat ++
        timeBytes (stampAt (tod s) e) ++ leBytes 1 flags ++ List.replicate 3 0 ++ dom ++ List.replicate 12 0 ++ padTo 208 0 frame
      let base := rdN s Reg.PTP_RX_BASE_LO + 4294967296 * rdFld s Reg.PTP_RX_BASE_HI 15 0
      setRegN Reg.PTP_RX_WR (add32 wr 1) (setBytes (base + 256 * (wr % size)) bs s)

/-! ### Launch queues -/

/-- A write of PTP_LQ_WR posts descriptors (R601, R606). -/
def lqWrite (p : Nat) (value : Word) (s : State) : State :=
  if rdN s (Reg.PTP_LQ_SIZE p) < sub32 value.toNat (rdN s (Reg.PTP_LQ_RD p)) then answer stValueRange s
  else accept (Reg.PTP_LQ_WR p) value s

/-- The domain counter at the instant TOD reads `t`, from now on (R596): the selected one lags by the SOFFSET of that
instant, the other advances by its own increment. -/
def domainAt (s : State) (d t : Nat) : Nat :=
  let ahead : Int := 125 * (t : Int) - todFine s
  if ahead ≤ 0 then (((domainOf s d).count : Int) + ahead / 125).toNat
  else
    let sel := domainOf s (ptpSel s)
    let periods := (ahead / (125 * sel.inc : Int)).toNat
    let soff := if s.ptp.soff < 0 then min 0 (s.ptp.soff + 536870912 * (periods : Int)) else max 0 (s.ptp.soff - 536870912 * (periods : Int))
    let gone := ahead + s.ptp.soff - soff
    if d = ptpSel s then ((sel.count : Int) + gone / 125).toNat
    else ((domainOf s d).count : Int).toNat + (gone * ((domainOf s d).inc : Int) / (125 * (sel.inc : Int))).toNat

/-- Completes the descriptor at the head of a launch queue (R601, R604): its write-back, then RD advances. -/
def lqComplete (p addr code : Nat) (egress : Option (Nat × Option Nat)) (s : State) : State :=
  let s := setMemN (addr + 0x0B) 1 code s
  let s := setMemN (addr + 0x0C) 4 (epochNow s).toNat s
  let s := match egress with
    | some (t, d) => setBytes (addr + 0x30) (match d with | some n => timeBytes n | none => List.replicate 12 0)
        (setBytes (addr + 0x20) (timeBytes t) s)
    | none => s
  incWrap (Reg.PTP_LQ_RD p) 1 s

/-- Whether a descriptor is well formed: no reserved flag, a LEN in range, and a frame that DMA may read (R534, R603). -/
def lqValid (s : State) (flags len a : Nat) : Bool :=
  decide (flags < 8) && decide (60 ≤ len) && decide (len ≤ 9216) && rangeMapped s a len

/-- LAUNCH_SEND on a port: the descriptor at the head is sent, judged late or completed with an error (R601 to R605). -/
def launchSend (p : Nat) (s : State) : State :=
  let rdp := rdN s (Reg.PTP_LQ_RD p)
  if rdN s (Reg.PTP_LQ_WR p) = rdp then s
  else
    let base := rdN s (Reg.PTP_LQ_BASE_LO p) + 4294967296 * rdFld s (Reg.PTP_LQ_BASE_HI p) 15 0
    let addr := base + 64 * (rdp % rdN s (Reg.PTP_LQ_SIZE p))
    let flags := memN s (addr + 0x0A) 1
    if !(portLinked s p) || s.pwr.state == .detached then lqComplete p addr 5 none s
    else if !(lqValid s flags (memN s (addr + 8) 2) (memN s addr 8 % 2 ^ 48)) then
      lqComplete p addr 4 none (orReg Reg.PTP_EVENTS 32 s)
    else
      let launch := timeOfBytes (memBytes s (addr + 0x10) 12)
      let timed := bitN flags 0
      let late := timed && decide (launch + rdN s Reg.PTP_LATE_NS * 4294967296 < tod s)
      let s := if late then orReg Reg.PTP_EVENTS 4 (incSat (Reg.PTP_LQ_LATE p) 1 s) else s
      if late && bitN flags 1 then lqComplete p addr 3 none s
      else
        let d := b2n (bitN flags 2)
        let t := if timed && decide (tod s < launch) then launch else tod s
        let (e, s) := stampError (if timed && !late then 6 else 2) s
        let dom := if domainTracked s d then some (stampAt (domainAt s d t) e) else none
        lqComplete p addr (if late then 2 else 1) (some (stampAt t e, dom)) s

/-! ### Meanings -/

/-- INC_COMMIT on domain `d`. -/
def execIncCommit (q : Req) (d : Fin 2) (value : Word) (s : State) : Host.Outcome State Fault Refusal :=
  .next (guarded q (Reg.PTP_D_INC_HI d.val) value (incCommit d.val value) s)

/-- PTP_STEP on domain `d`. -/
def execPtpStep (q : Req) (d : Fin 2) (s : State) : Host.Outcome State Fault Refusal :=
  .next (guarded q (Reg.PTP_D_CMD d.val) 1 (ptpStep d.val) s)

/-- PTP_SET on domain `d`. -/
def execPtpSet (q : Req) (d : Fin 2) (s : State) : Host.Outcome State Fault Refusal :=
  .next (guarded q (Reg.PTP_D_CMD d.val) 2 (ptpSet d.val) s)

/-- PTP_INVALIDATE on domain `d`. -/
def execPtpInvalidate (q : Req) (d : Fin 2) (s : State) : Host.Outcome State Fault Refusal :=
  .next (guarded q (Reg.PTP_D_CMD d.val) 3 (ptpInvalidate d.val) s)

/-- PTP_CTRL_WRITE. -/
def execPtpCtrlWrite (q : Req) (value : Word) (s : State) : Host.Outcome State Fault Refusal :=
  .next (guarded q Reg.PTP_CTRL value (ptpCtrlWrite value) s)

/-- SLEW_END: SOFFSET reaches 0 and slewing ends (R596); what waits for it may now take effect (R595). -/
def execSlewEnd (s : State) : Host.Outcome State Fault Refusal :=
  .next (if s.ptp.soff = 0 then s else showSlew { s with ptp := { s.ptp with soff := 0 } })

/-- PTP_MODE_CHANGE: a change of configuration that waited takes effect (R595). -/
def execPtpModeChange (s : State) : Host.Outcome State Fault Refusal :=
  .next (if rdBit s Reg.PTP_STATUS 7 then ptpEvaluate s else s)

/-- PTP_RX: a PTP message of the given domainNumber arrives on a port. -/
def execPtpRx (port : Fin 2) (domain : Byte) (tagged : Bool) (frame : List Byte) (s : State) : Host.Outcome State Fault Refusal :=
  .next (if portLinked s port.val then ptpReceive port.val domain.toNat tagged frame s else s)

/-- PTP_LQ_WR_WRITE. -/
def execPtpLqWrWrite (q : Req) (p : Fin 2) (value : Word) (s : State) : Host.Outcome State Fault Refusal :=
  .next (guarded q (Reg.PTP_LQ_WR p.val) value (lqWrite p.val value) s)

/-- LAUNCH_SEND. -/
def execLaunchSend (p : Fin 2) (s : State) : Host.Outcome State Fault Refusal := .next (launchSend p.val s)

/-- PTP_SNAP_CMD. -/
def execPtpSnapCmd (q : Req) (s : State) : Host.Outcome State Fault Refusal :=
  .next (guarded q Reg.PTP_SNAP_CMD 1 ptpSnap s)

/-- PTP_TIME_READ: 0 TOD, 1 domain A, 2 domain B, 3 the snapshot's BEAT count. -/
def execPtpTimeRead (q : Req) (which : Fin 4) (s : State) : Host.Outcome State Fault Refusal :=
  .next (guardedRead q (ptpTimeAddr which.val) (fun s => let (w, s) := ptpReadTime which.val s; answerData w s) s)

end Sys2Proof.Machine
end

