-- ==== Sys2Proof/Machine/Timing.lean ====
section
/-! DEFINITION. Timing sets and edge placement (R256 to R294): entries and their rules, the companion map, commits and raw
writes, set, period and mode writes, linearisation, deskew and drift, and the TSETS section. -/

namespace Sys2Proof.Machine

open Sys2Proof

/-! ### Tables of a group -/

/-- The timing state of group `g`. -/
def tstOf (s : State) (g : Nat) : Timing := tget (fun _ => {}) s.tst g

/-- Changes the timing state of group `g`. -/
def modTst (g : Nat) (f : Timing → Timing) (s : State) : State :=
  { s with tst := tset (fun _ => {}) s.tst g (f (tstOf s g)) }

/-- The key of slot 4e + j of channel index `k` in set `set` (R264). -/
def slotKey (set k j : Nat) : Nat := set * 512 + k * 16 + j

/-- A slot as TST_RB shows it: TYPE and ticks (R293). -/
def slotOfTst (t : Timing) (key : Nat) : Word := tget (fun _ => 0) t.slots key

/-- LIN[r] of a path (0 drive, 1 compare) of channel index `k`. -/
def linOf (t : Timing) (path k r : Nat) : Nat := tget (fun _ => 0) t.lin (path * 8192 + k * 256 + r)

/-- The drift coefficient of a path in 1/1000 ps/°C; the vendor default is 0.50 ps/°C (R289). -/
def coefOf (t : Timing) (path k : Nat) : Int := tget (fun _ => 500) t.coef (path * 32 + k)

/-! ### Ticks -/

/-- Ticks of a time in ps (R262). -/
def ticksOfPs (ps : Nat) : Nat := (divNearestEven ((ps * 256 : Nat) : Int) 625).toNat

/-- The time of a tick count in ps (R262). -/
def psOfTicks (t : Nat) : Nat := (divNearestEven ((t * 625 : Nat) : Int) 256).toNat

/-! ### Entries -/

/-- A slot of an entry: type and ticks. -/
abbrev Slot := Nat × Nat

/-- Whether a type drives (R258). -/
def isDrive (t : Nat) : Bool := decide (1 ≤ t) && decide (t ≤ 3)

/-- Whether a type compares. -/
def isCompare (t : Nat) : Bool := decide (4 ≤ t) && decide (t ≤ 6)

/-- The slots before slot `j`, with their numbers. -/
def slotsBefore (e : List Slot) (j : Nat) : List (Nat × Slot) := ((List.range e.length).zip e).take j

/-- Whether slot `j` of an entry breaks a rule of R258, for period `n`. -/
def breaksRule (n rule : Nat) (e : List Slot) (j : Nat) : Bool :=
  let s := nth (0, 0) e j
  let before := (e.take j).filter (fun x => x.1 != 0)
  let cmps := (e.take j).filter (fun x => isCompare x.1)
  match rule with
  | 0x01 => s.1 != 0 && (match before.getLast? with | some p => decide (s.2 ≤ p.2) | none => false)
  | 0x02 => s.1 != 0 && decide (2 * n ≤ s.2)
  | 0x03 =>
    isCompare s.1 &&
    (match cmps with
     | [] => s.1 == 6 || (s.1 == 5 && !((e.drop (j + 1)).any (fun x => isCompare x.1)))
     | [p] => !(p.1 == 5 && s.1 == 6)
     | _ => true)
  | 0x04 =>
    (isDrive s.1 && before.any (fun p => isDrive p.1 && decide ((s.2 - p.2) + (p.2 - s.2) < 96))) ||
    (s.1 == 6 && before.any (fun p => p.1 == 5 && decide (s.2 < p.2 + 96)))
  | 0x05 => s.1 == 7
  | _ => s.1 != 0 && (e.take j).any (fun x => x.1 == 0)

/-- The first break of an entry: rule and slot, the rules in table order (R272). -/
def entryBreak (rules : List Nat) (n : Nat) (e : List Slot) : Option (Nat × Nat) :=
  rules.findSome? (fun r => ((List.range 4).find? (breaksRule n r e)).map (fun j => (r, j)))

/-- The first break of the 16 slots of a channel: rule and slot 4e + j. -/
def firstBreak (rules : List Nat) (n : Nat) (slots : List Slot) : Option (Nat × Nat) :=
  (List.range 4).findSome? (fun e => (entryBreak rules n ((slots.drop (4 * e)).take 4)).map (fun p => (p.1, 4 * e + p.2)))

/-- All rules of R258. -/
def allRules : List Nat := [1, 2, 3, 4, 5, 6]

/-! ### The companion map -/

/-- The event word of a slot (R265, R269); an unused slot is 0. -/
def eventWord (t : Timing) (k : Nat) (w : Word) : Nat :=
  let ty := fld w 31 29
  let tk := fld w 24 0
  if ty = 0 then 0
  else ty * 2 ^ 29 + tk / 256 % 131072 * 4096 + linOf t (if isCompare ty then 1 else 0) k (tk % 256) % 1024

/-- Whether a channel of a set is marked raw. -/
def isRaw (t : Timing) (set k : Nat) : Bool := tget (fun _ => false) t.rawMark (set * 32 + k)

/-- The word at an address of the companion map (R264): an event word, or a trim. -/
def mapWord (s : State) (g addr : Nat) : Nat :=
  let t := tstOf s g
  if addr < 0x8000 then
    if isRaw t (addr / 512) (addr / 16 % 32) then (tget (fun _ => 0) t.raw addr).toNat
    else eventWord t (addr / 16 % 32) (slotOfTst t addr)
  else if addr < 0x8020 then rdFld s (Reg.TST_XTRIM g (addr - 0x8000)) 11 0
  else if addr < 0x8040 then rdFld s (Reg.TST_XTRIM g (addr - 0x8020)) 27 16
  else 0

/-- Map writes of a group wait to reach the companion (R273). -/
def mapBusy (g : Nat) (s : State) : State := setBit (Reg.TST_STATUS g) 15 true s

/-- Sends the 16 event words of a channel of a set, while the group has a lane (R272, R273), in place of older ones that wait. -/
def sendWords (g set k : Nat) (s : State) : State :=
  let s := mapBusy g (modLink g (fun l => { l with relin := l.relin.filter (fun e => e.1 / 16 != set * 32 + k) }) s)
  if groupActive s g then
    (List.range 16).foldl (fun s j => queueMap g (slotKey set k j) (mapWord s g (slotKey set k j)) s) s
  else s

/-- Refreshes TST_XRAW_SETS (R275). -/
def showRaw (g : Nat) (s : State) : State :=
  let t := tstOf s g
  let m := t.rawMark.foldl (fun m e => if e.2 then m ||| 2 ^ (e.1 / 32) else m) 0
  set64 (Reg.TST_XRAW_SETS_LO g) m s

/-- TST_SEL: set and channel index. -/
def selSet (s : State) (g : Nat) : Nat := rdFld s (Reg.TST_SEL g) 13 8
def selCh (s : State) (g : Nat) : Nat := rdFld s (Reg.TST_SEL g) 4 0

/-- Refuses a commit with ENTRY_INVALID and its cause (R272). -/
def entryInvalid (g set k : Nat) (b : Nat × Nat) (s : State) : State :=
  answer stEntryInvalid (setRegN (Reg.TST_REASON g) (set * 16777216 + k * 65536 + b.2 * 256 + b.1) s)

/-- Answers a commit: at once while the group has no lane, and otherwise when the companion has consumed its last word
(R273). -/
def commitAnswer (q : Req) (g : Nat) (s : State) : State :=
  if groupActive s g then deferAnswer (.commit g) q.slot.val (modLink g (fun l => { l with commitFseq := none }) s) else answer stOk s

/-- COMMIT (R272, R273). -/
def tstCommit (q : Req) (g : Nat) (s : State) : State :=
  let set := selSet s g
  let k := selCh s g
  let slots := (List.range 16).map (fun j => (rdFld s (Reg.TST_EV g j) 31 29, ticksOfPs (rdFld s (Reg.TST_EV g j) 26 0)))
  match firstBreak allRules (periodOf s g) slots with
  | some b => entryInvalid g set k b s
  | none =>
    let ws := slots.map (fun e => wd (e.1 * 2 ^ 29 + (if e.1 = 0 then 0 else e.2)))
    let s := modTst g (fun t => { t with
      slots := tsetList (fun _ => 0) t.slots (slotKey set k 0) ws,
      raw := tsetList (fun _ => 0) t.raw (slotKey set k 0) (List.replicate 16 0),
      rawMark := tset (fun _ => false) t.rawMark (set * 32 + k) false }) s
    commitAnswer q g (sendWords g set k (showRaw g s))

/-- READ (R274). -/
def tstRead (g : Nat) (s : State) : State :=
  let t := tstOf s g
  let set := selSet s g
  let k := selCh s g
  let raw := isRaw t set k
  let s := (List.range 16).foldl (fun s j =>
    let w := slotOfTst t (slotKey set k j)
    let ps := if raw then 0x07FFFFFF else psOfTicks (fld w 24 0)
    setReg (Reg.TST_RB g j) w (setRegN (Reg.TST_EV g j) (fld w 31 29 * 2 ^ 29 + ps) s)) s
  answer stOk s

/-- WRITE_RAW (R275). -/
def writeRaw (q : Req) (g : Nat) (s : State) : State :=
  let set := selSet s g
  let k := selCh s g
  let n := periodOf s g
  let ws := rdRegs s (Reg.TST_XRAW g 0) 16
  -- COARSE stands in for the time, in place of RANGE
  let slots := ws.map (fun w => (fld w 31 29, fld w 28 12))
  let coarse := fun (e : Nat) => (List.range 4).find? (fun j => decide ((2 * n - 1) / 256 < (nth (0, 0) slots (4 * e + j)).2))
  let bad := (List.range 4).findSome? (fun e =>
    match coarse e with
    | some j => some (2, 4 * e + j)
    | none => (entryBreak [3, 5, 6] n ((slots.drop (4 * e)).take 4)).map (fun p => (p.1, 4 * e + p.2)))
  match bad with
  | some b => entryInvalid g set k b s
  | none =>
    let shown := ws.map (fun w => wd (fld w 31 29 * 2 ^ 29 + 0x01FFFFFF))
    let s := modTst g (fun t => { t with
      slots := tsetList (fun _ => 0) t.slots (slotKey set k 0) shown,
      raw := tsetList (fun _ => 0) t.raw (slotKey set k 0) ws,
      rawMark := tset (fun _ => false) t.rawMark (set * 32 + k) true }) s
    commitAnswer q g (sendWords g set k (showRaw g s))

/-! ### Set, period and mode writes -/

/-- The first pin frame at whose boundary the frame builder of a group can still announce a set (R278). -/
def nextBoundary (l : Link) : Nat := if l.built = 0 then l.begun else max l.begun (l.built + 1)

/-- Enters a host write of TST_TSET in the stream of its group, in place of an earlier one that has not acted. -/
def enterSet (g set : Nat) (s : State) : State :=
  let old := (linkOf s g).tsetAt
  let f := nextBoundary (linkOf s g)
  setInStream (128 * f) set g (modLink g (fun l => { l with
    tsets := l.tsets.filter (fun e => !(old.any (fun b => e.1 == 128 * b))), tsetAt := some f }) s)

/-- TST_TSET written by the host (R278): a shadow until it acts, within a step at the first boundary that the frame builder has not yet
passed, and otherwise at the next outward frame. -/
def tsetWrite (g : Nat) (value : Word) (s : State) : State :=
  let s := shadowFset (Reg.TST_TSET g) value s
  answer stOk (if groupInStep s g && !(linkOf s g).finished then enterSet g (fld value 5 0) s else s)

/-- MIN_PERIOD_N of the companion: the largest its ACTIVE lanes have declared (R116). -/
def minPeriod (s : State) (g : Nat) : Nat :=
  max (if laneActive s g 0 then rdN s (Reg.LNK_CAP_A g 2) else 0) (if laneActive s g 1 then rdN s (Reg.LNK_CAP_B g 2) else 0)

/-- Whether a channel of the group is permitted a mode. -/
def groupPermits (s : State) (g m : Nat) : Bool := (List.range 32).any (fun k => bitN (chanRole s (32 * g + k)).permit m)

/-- The first committed slot that breaks RANGE under period `n` (R280), by its key. -/
def rangeBreak (t : Timing) (n : Nat) : Option Nat :=
  (t.slots.find? (fun e =>
    if isRaw t (e.1 / 512) (e.1 / 16 % 32) then decide ((2 * n - 1) / 256 < fld (tget (fun _ => 0) t.raw e.1) 28 12)
    else fld e.2 31 29 != 0 && decide (2 * n ≤ fld e.2 24 0))).map (·.1)

/-- TST_PERIOD written by the host (R280). -/
def periodWrite (g : Nat) (value : Word) (s : State) : State :=
  let n := value.toNat
  if n < 256 || 16777215 < n || n < minPeriod s g || (2048 < n && groupPermits s g 6) then answer stValueRange s
  else match rangeBreak (tstOf s g) n with
    | some key => entryInvalid g (key / 512) (key / 16 % 32) (2, key % 16) s
    | none => accept (Reg.TST_PERIOD g) value s

/-- The mode codes of a TST_MODE value, with their channel indices. -/
def modeCodes (r : Nat) (value : Word) : List (Nat × Nat) :=
  (List.range 8).map (fun i => (8 * r + i, fld value (4 * i + 2) (4 * i)))

/-- TST_MODE written by the host (R281). -/
def modeWrite (g r : Nat) (value : Word) (s : State) : State :=
  let ms := modeCodes r value
  let st := rdFld s Reg.IMG_STATUS 1 0
  if st = 1 then answer stImgLoading s
  else if ms.any (fun e => e.2 == 7) then answer stValueRange s
  else if st = 0 then (if ms.any (fun e => e.2 != 0) then answer stNotAdmitted s else answer stOk s)
  else if ms.any (fun e => !(bitN (chanRole s (32 * g + e.1)).permit e.2)) then answer stNotAdmitted s
  else accept (Reg.TST_MODE g r) value s

/-! ### Trims and drift -/

/-- Skews of channel index `k` in ticks (R270). -/
def skewOf (s : State) (g path k : Nat) : Int :=
  let w := rdN s (Reg.TST_SKEW g k)
  sext 16 (if path = 0 then w % 65536 else w / 65536)

/-- The drift correction of a path in 1/16 tick (R289); none before the companion's temperature has been read. -/
def driftOf (s : State) (g path k : Nat) : Int :=
  let t := tstOf s g
  match t.compTemp with
  | some temp =>
    if rdBit s (Reg.TST_XDRIFT g) 0 && tget (fun _ => false) t.linSet k then
      clampInt (-32768) 32767 (divNearestEven (coefOf t path k * (temp - tget (fun _ => 0) t.tcal k) * 256) 625000)
    else 0
  | none => 0

/-- The trim code of a path: −(skew + drift), to the nearest tick with ties to even (R270). -/
def trimOf (s : State) (g path k : Nat) : Int :=
  clampInt (-2048) 2047 (divNearestEven (-(16 * skewOf s g path k + driftOf s g path k)) 16)

/-- Refreshes drift and trim of a channel; a changed trim is sent (R270, R289). -/
def showTrim (g k : Nat) (s : State) : State :=
  let s := setRegN (Reg.TST_DRIFT g k) (65536 * twos 16 (driftOf s g 1 k) + twos 16 (driftOf s g 0 k)) s
  let old := rdN s (Reg.TST_XTRIM g k)
  let new := 65536 * twos 12 (trimOf s g 1 k) + twos 12 (trimOf s g 0 k)
  let s := setRegN (Reg.TST_XTRIM g k) new s
  if old = new || !(groupActive s g) then s
  else
    let s := mapBusy g s
    let s := if old % 65536 = new % 65536 then s else queueMap g (0x8000 + k) (new % 4096) s
    if old / 65536 = new / 65536 then s else queueMap g (0x8020 + k) (new / 65536 % 4096) s

/-- New trims of a group before a FIRST frame (R289). -/
def showTrims (g : Nat) (s : State) : State := (List.range 32).foldl (fun s k => showTrim g k s) s

/-! ### Calibration -/

/-- TST_STATUS.CAL_STALE (R288). -/
def showCalStale (g : Nat) (s : State) : State :=
  setBit (Reg.TST_STATUS g) 16 ((List.range 32).any (fun k => rdBit s (Reg.TST_CAL_AGE g k) 31)) s

/-- Writes CAL_CTRL of the companion: LOOP_EN of a channel (R264). -/
def loopControl (g k : Nat) (on : Bool) (s : State) : State := queueMaps g [(0x8041, k + 256 * b2n on)] s

/-- The entries of a run for IDLE frames: the read of CAL_STAT, and the period of 2,048 ticks while the group is in no step (R264, before
R282). -/
def calEntries (s : State) (g : Nat) : List Nat :=
  (if groupInStep s g then [] else [0x03 * 2 ^ 56 + 2048]) ++ [0x07 * 2 ^ 56 + 0x8042 * 2 ^ 32 + 0x42]

/-- Starts a run on a channel, replacing one of the same kind. -/
def startCal (g k : Nat) (deskew force : Bool) (s : State) : State :=
  let s := modTst g (fun t => { t with calRun := t.calRun.filter (fun r => !(r.1 == k && r.2.1 == deskew)) ++ [(k, deskew, force)] }) s
  let es := calEntries s g
  loopControl g k true (modLink g (fun l => { l with idleEntries := l.idleEntries ++ es, creads := l.creads ++ [0x42] }) s)

/-- A run of a kind on a channel is over; CAL_CTRL.LOOP_EN falls (R264). -/
def stopCal (g k : Nat) (deskew : Bool) (s : State) : State :=
  loopControl g k false (modTst g (fun t => { t with calRun := t.calRun.filter (fun r => !(r.1 == k && r.2.1 == deskew)) }) s)

/-- Whether Pavane may calibrate a channel: it is parked, or its group takes part in no step (R282). -/
def mayCalibrate (s : State) (g k : Nat) : Bool := groupActive s g && (!(groupInStep s g) || modeOf s (32 * g + k) == 0)

/-- CAL_LIN and CAL_DESKEW on the channels of TST_XCH (R282). -/
def calCommand (g : Nat) (deskew force : Bool) (s : State) : State :=
  if !(calEligible s g) then answer stCalRefused s
  else answer stOk ((bitPositions 32 (rdN s (Reg.TST_XCH g))).foldl (fun s k => startCal g k deskew force s) s)

/-- The table of R283 from the delays of a path: for each r, the code nearest to r, ties to the lower code. -/
def buildLin (d : List Int) : List Nat :=
  let d0 := nth 0 d 64
  (List.range 256).map (fun (r : Nat) =>
    let goal : Int := d0 + 256 * (r : Int)
    let best := ((List.range 1024).zip d).foldl (fun (b : Option (Nat × Nat)) e =>
      let dist := (e.2 - goal).natAbs
      match b with
      | some (c, x) => if dist < x then some (e.1, dist) else some (c, x)
      | none => some (e.1, dist)) none
    match best with | some (c, _) => c | none => 0)

/-- Whether a list never decreases. -/
def nonDecreasing : List Int → Bool
  | a :: b :: r => decide (a ≤ b) && nonDecreasing (b :: r)
  | _ => true

/-- The steps of a table lie from `lo` to `hi`. -/
def stepsWithin (lo hi : Int) : List Nat → Bool
  | a :: b :: r => decide (lo ≤ (b : Int) - a) && decide ((b : Int) - a ≤ hi) && stepsWithin lo hi (b :: r)
  | _ => true

/-- The sum of squares of a list. -/
def sumSquares (e : List Int) : Nat := sumN (e.map (fun x => x.natAbs * x.natAbs))

/-- Largest and rms residual of 64 in 0.1 ps, rounded to the nearest. -/
def residTenths (e : List Int) : Nat × Nat :=
  ((divNearestEven ((maxN (e.map Int.natAbs) * 6250 : Nat) : Int) 65536).toNat,
   (isqrt (4 * sumSquares e * 39062500 / (64 * 4294967296)) + 1) / 2)

/-- The first failing condition of R284, or 0. -/
def linReason (s : State) (g k : Nat) (force : Bool) (o : LinObs) : Nat :=
  let t := tstOf s g
  let tabs := o.delays.map buildLin
  let lim := rdN s (Reg.TST_XLIMIT_LIN g)
  if o.aborted then 0x09
  else if o.delays.any (fun d => !(nonDecreasing d)) || tabs.any (fun l => !(stepsWithin 1 1024 l)) then 0x01
  else if o.delays.any (fun d => decide (nth 0 d 1023 - nth 0 d 64 < 271 * 256)) then 0x02
  else if tabs.any (fun l => !(stepsWithin 1 12 l)) then 0x03
  else if o.residuals.any (fun e => e.any (fun x => decide (lim % 65536 * 65536 < x.natAbs * 6250)) ||
      decide ((lim / 65536) ^ 2 * 4294967296 * 64 < sumSquares e * 39062500)) then 0x04
  else if !force && tget (fun _ => false) t.linSet k &&
      (List.range 2).any (fun p => (List.range 256).any (fun r =>
        let new : Nat := nth 0 (nth [] tabs p) r
        let old : Nat := tget (fun _ => 0) t.acc (p * 8192 + k * 256 + r)
        decide (16 < (new - old) + (old - new)))) then 0x05
  else 0

/-- Ends the run of a kind on a channel: whether one was under way, and its FORCE. -/
def calRunOf (s : State) (g k : Nat) (deskew : Bool) : Option Bool :=
  ((tstOf s g).calRun.find? (fun r => r.1 == k && r.2.1 == deskew)).map (·.2.2)

/-- TST_CAL_LAST of a run that ended. -/
def calLast (g k kind why : Nat) (s : State) : State := setRegN (Reg.TST_CAL_LAST g) (k * 65536 + kind * 256 + why) s

/-- Whether calibration windows are suspended by an image load (R91). -/
def calSuspended (s : State) : Bool := rdFld s Reg.IMG_STATUS 1 0 == 1

/-- The trims that a run on a channel changes: within a step they wait for the next one (R292). -/
def trimAfter (g k : Nat) (s : State) : State := if groupInStep s g then s else showTrim g k s

/-- A run that fails a condition is discarded; three in a row on one channel are a C1 fault (R286). -/
def calRejected (g k why mask : Nat) (s : State) : State :=
  let s := raise (mkFaultD 0 0x1C g 0x0F (32 * g + k) why) (orReg (Reg.TST_CAL_EVENTS g) mask s)
  let n := tget (fun _ => 0) (tstOf s g).rejects k + 1
  let s := modTst g (fun t => { t with rejects := tset (fun _ => 0) t.rejects k (if n = 3 then 0 else n) }) s
  if n = 3 then raise (mkFaultD 1 0x1C g 0x09 (32 * g + k) why) s else s

/-- Whether two of the temperatures lie at least 10 °C apart. -/
def farApart (ts : List Int) : Bool := ts.any (fun a => ts.any (fun b => decide (160 ≤ a - b)))

/-- An accepted linearisation joins those that the drift coefficients are fitted from (R289), once two of them lie 10 °C apart. -/
def refit (k : Nat) (o : LinObs) (t : Timing) : Timing :=
  let ts := tget (fun _ => []) t.temps k
  let ts := if ts.contains o.temp then ts else ts ++ [o.temp]
  let t := { t with temps := tset (fun _ => []) t.temps k ts }
  if farApart ts then { t with coef := tset (fun _ => 500) (tset (fun _ => 500) t.coef k o.coefDrive) (32 + k) o.coefCompare }
  else t

/-- The event words of a channel of a set under its new tables wait for a time between steps (R287); raw words stay as they are. -/
def relinWords (g k : Nat) (s : State) (set : Nat) : State :=
  if isRaw (tstOf s g) set k || !(groupActive s g) then s
  else
    let ws := (List.range 16).map (fun j => (slotKey set k j, mapWord s g (slotKey set k j)))
    modLink g (fun l => { l with relin := l.relin.filter (fun e => e.1 / 16 != set * 32 + k) ++ ws }) s

/-- An accepted linearisation: its tables, and the rewrite of the channel's words in every set (R284, R287, R288). -/
def linAccepted (g k : Nat) (o : LinObs) (s : State) : State :=
  let tabs := o.delays.map buildLin
  let s := modTst g (refit k o) s
  let put := fun (x : Tbl Nat) =>
    tsetList (fun _ => 0) (tsetList (fun _ => 0) x (k * 256) (nth [] tabs 0)) (8192 + k * 256) (nth [] tabs 1)
  let s := modTst g (fun t => { t with
    lin := put t.lin, acc := put t.acc, linSet := tset (fun _ => false) t.linSet k true,
    since := tset (fun _ => 0) t.since k s.time, tcal := tset (fun _ => 0) t.tcal k o.temp,
    rejects := tset (fun _ => 0) t.rejects k 0 }) s
  let rs := o.residuals.map residTenths
  let s := setRegN (Reg.TST_RESID g k) (65536 * min 65535 (maxN (rs.map (·.2))) + min 65535 (maxN (rs.map (·.1)))) s
  let s := showCalStale g (setRegN (Reg.TST_CAL_AGE g k) 0 s)
  let s := orReg (Reg.TST_CAL_EVENTS g) 1 s
  trimAfter g k ((List.range 64).foldl (relinWords g k) (mapBusy g s))

/-- LIN_CAL_COMPLETE (R283, R284, R286). -/
def linComplete (g k : Nat) (o : LinObs) (s : State) : State :=
  match calRunOf s g k false with
  | none => s
  | some force =>
    if calSuspended s then s
    else
      let why := linReason s g k force o
      let s := calLast g k 1 why (stopCal g k false s)
      if why = 0 then linAccepted g k o s else calRejected g k why 2 s

/-- The skews of a deskew run, drive and compare: its path delays against the reference of 3,072 ticks (R270, R285). -/
def skewsOf (o : DeskewObs) : Int × Int := (o.drive - 3072, o.compare - 3072)

/-- Whether a reflection was found within 4,096 ticks of the launch (R285). -/
def reflected (o : DeskewObs) : Bool :=
  match o.reflection with | some r => decide (o.launch ≤ r) && decide (r ≤ o.launch + 4096) | none => false

/-- The first failing condition of R285, or 0. -/
def deskewReason (s : State) (g k : Nat) (force : Bool) (o : DeskewObs) : Nat :=
  let lim := rdN s (Reg.TST_XLIMIT_SKEW g)
  let d := (skewsOf o).1
  let c := (skewsOf o).2
  if o.aborted then 0x09
  else if !(reflected o) then 0x06
  else if lim / 65536 < d.natAbs || lim / 65536 < c.natAbs then 0x07
  else if !force && tget (fun _ => false) (tstOf s g).skewSet k &&
      (decide (lim % 65536 < (d - skewOf s g 0 k).natAbs) || decide (lim % 65536 < (c - skewOf s g 1 k).natAbs)) then 0x05
  else if [d, c].any (fun x => decide (-x - 128 < -2048) || decide (2047 < -x + 128)) then 0x08
  else 0

/-- DESKEW_COMPLETE (R285, R286). -/
def deskewComplete (g k : Nat) (o : DeskewObs) (s : State) : State :=
  match calRunOf s g k true with
  | none => s
  | some force =>
    if calSuspended s then s
    else
      let why := deskewReason s g k force o
      let s := calLast g k 2 why (stopCal g k true s)
      if why = 0 then
        let s := modTst g (fun t => { t with skewSet := tset (fun _ => false) t.skewSet k true,
                                             rejects := tset (fun _ => 0) t.rejects k 0 }) s
        trimAfter g k (orReg (Reg.TST_CAL_EVENTS g) 4
          (setRegN (Reg.TST_SKEW g k) (65536 * twos 16 (skewsOf o).2 + twos 16 (skewsOf o).1) s))
      else calRejected g k why 8 s

/-- A step start ends the runs on the channels of group `g` that the step uses: the partial result is discarded with reason ABORTED
(R91, R284 to R286, R292). -/
def endCals (g : Nat) (s : State) : State :=
  ((tstOf s g).calRun.filter (fun r => modeOf s (32 * g + r.1) != 0)).foldl (fun s r =>
    calRejected g r.1 9 (if r.2.1 then 8 else 2) (calLast g r.1 (if r.2.1 then 2 else 1) 9 (stopCal g r.1 r.2.1 s))) s

/-- CAL_AGE_EXPIRY: a channel's linearisation passes 30 days (R288). -/
def calAgeExpiry (g k : Nat) (s : State) : State :=
  if tget (fun _ => false) (tstOf s g).linSet k && !(rdBit s (Reg.TST_CAL_AGE g k) 31) then
    let s := showCalStale g (setBit (Reg.TST_CAL_AGE g k) 31 true s)
    raise (mkFaultD 0 0x1C g 0x0F (32 * g + k) 0) (orReg (Reg.TST_CAL_EVENTS g) 16 s)
  else s

/-! ### The table window -/

/-- The key that TST_XLIN_ADDR selects. -/
def linSel (s : State) (g : Nat) : Nat :=
  rdFld s (Reg.TST_XLIN_ADDR g) 16 16 * 8192 + rdFld s (Reg.TST_XLIN_ADDR g) 12 8 * 256 + rdFld s (Reg.TST_XLIN_ADDR g) 7 0

/-- Advances TST_XLIN_ADDR.INDEX. -/
def nextLin (g : Nat) (s : State) : State := setFld (Reg.TST_XLIN_ADDR g) 7 0 (rdFld s (Reg.TST_XLIN_ADDR g) 7 0 + 1) s

/-- A write of TST_XLIN_DATA (R288). -/
def linWrite (g : Nat) (value : Word) (s : State) : State :=
  let k := rdFld s (Reg.TST_XLIN_ADDR g) 12 8
  let s := modTst g (fun t => { t with lin := tset (fun _ => 0) t.lin (linSel s g) (fld value 9 0) }) s
  answer stOk (nextLin g (setRegN (Reg.TST_RESID g k) 0xFFFFFFFF s))

/-- A read of TST_XLIN_DATA. -/
def linRead (g : Nat) (s : State) : State := answerData (wd (tget (fun _ => 0) (tstOf s g).lin (linSel s g))) (nextLin g s)

/-! ### TSETS -/

/-- One entry of a TSETS record as loaded (R276, R277): its slots, its companion words, and whether it was dropped. -/
def loadEntry (raw : Bool) (n : Nat) (ws : List Nat) : List Word × List Word × Bool :=
  let slots := ws.map (fun w => (bitsN w 31 29, if raw then bitsN w 28 12 * 256 else bitsN w 24 0))
  let bad := if raw then
      (entryBreak [3, 5, 6] n slots).isSome || ws.any (fun w => decide ((2 * n - 1) / 256 < bitsN w 28 12))
    else (entryBreak allRules n slots).isSome || ws.any (fun w => bitsN w 28 25 != 0)
  if bad then (List.replicate 4 (if raw then wd 0x01FFFFFF else 0), List.replicate 4 0, true)
  else if raw then (ws.map (fun w => wd (bitsN w 31 29 * 2 ^ 29 + 0x01FFFFFF)), ws.map wd, false)
  else (ws.map (fun w => wd (if bitsN w 31 29 = 0 then 0 else w)), List.replicate 4 0, false)

/-- Loads the 128 entries of a record from entry `i` up. -/
def loadEntries (set : Nat) (raw : Bool) (n : Nat) (bs : List Byte) (t : Timing) : Timing × Bool :=
  (List.range 128).foldl (fun (r : Timing × Bool) i =>
    let ws := (List.range 4).map (fun j => secN bs (0x10 + 16 * i + 4 * j) 4)
    let (sl, rw, bad) := loadEntry raw n ws
    let key := set * 512 + 4 * i
    ({ r.1 with slots := tsetList (fun _ => 0) r.1.slots key sl, raw := tsetList (fun _ => 0) r.1.raw key rw }, r.2 || bad)) (t, false)

/-- Loads one record of TSETS (R276, R277). -/
def loadTset (bs : List Byte) (s : State) : State :=
  let g := secN bs 0 1
  let set := secN bs 1 1
  let raw := secN bs 2 2 % 2 == 1
  let (t, bad) := loadEntries set raw (groupRole s g).periodN bs (tstOf s g)
  let t := { t with rawMark := if raw then (List.range 32).foldl (fun m k => tset (fun _ => false) m (set * 32 + k) true) t.rawMark else t.rawMark }
  let s := modTst g (fun _ => t) s
  if bad then setBit (Reg.TST_STATUS g) 17 true s else s

/-- Loads the records of TSETS in order. -/
def loadTsets : Nat → List Byte → State → State
  | 0, _, s => s
  | n + 1, bs, s => if bs.length < 2064 then s else loadTsets n (bs.drop 2064) (loadTset (bs.take 2064) s)

/-- Applies TSETS at the switch point: every set is replaced, raw marks are cleared, calibrations are kept (R276, R277, R292);
one notice per group with a dropped entry. -/
def applyTsets (bs : List Byte) (s : State) : State :=
  let s := (List.range 16).foldl (fun s g => setBit (Reg.TST_STATUS g) 17 false
    (modTst g (fun t => { t with slots := [], raw := [], rawMark := [] }) s)) s
  let s := loadTsets 1024 bs s
  let s := (List.range 16).foldl (fun s g => showRaw g s) s
  (List.range 16).foldl (fun s g => if rdBit s (Reg.TST_STATUS g) 17 then imageNotice (activeSlot s) g s else s) s

/-! ### Meanings -/

/-- TST_COMMIT. -/
def execTstCommit (q : Req) (g : Fin 16) (s : State) : Host.Outcome State Fault Refusal :=
  .next (guarded q (Reg.TST_CMD g.val) 2 (tstCommit q g.val) s)

/-- TST_READ. -/
def execTstRead (q : Req) (g : Fin 16) (s : State) : Host.Outcome State Fault Refusal :=
  .next (guarded q (Reg.TST_CMD g.val) 1 (tstRead g.val) s)

/-- WRITE_RAW. -/
def execWriteRaw (q : Req) (g : Fin 16) (s : State) : Host.Outcome State Fault Refusal :=
  .next (guarded q (Reg.TST_XCMD g.val) 3 (writeRaw q g.val) s)

/-- CAL_LIN. -/
def execCalLin (q : Req) (g : Fin 16) (force : Bool) (s : State) : Host.Outcome State Fault Refusal :=
  .next (guarded q (Reg.TST_XCMD g.val) (wd (256 * b2n force + 1)) (calCommand g.val false force) s)

/-- CAL_DESKEW. -/
def execCalDeskew (q : Req) (g : Fin 16) (force : Bool) (s : State) : Host.Outcome State Fault Refusal :=
  .next (guarded q (Reg.TST_XCMD g.val) (wd (256 * b2n force + 2)) (calCommand g.val true force) s)

/-- SCHEDULED_LIN_CAL: Pavane linearises a channel (R282). -/
def execScheduledLinCal (g : Fin 16) (k : Fin 32) (s : State) : Host.Outcome State Fault Refusal :=
  .next (if mayCalibrate s g.val k.val && !(calSuspended s) then startCal g.val k.val false false s else s)

/-- LIN_CAL_COMPLETE. -/
def execLinCalComplete (g : Fin 16) (k : Fin 32) (obs : LinObs) (s : State) : Host.Outcome State Fault Refusal :=
  .next (linComplete g.val k.val obs s)

/-- DESKEW_COMPLETE. -/
def execDeskewComplete (g : Fin 16) (k : Fin 32) (obs : DeskewObs) (s : State) : Host.Outcome State Fault Refusal :=
  .next (deskewComplete g.val k.val obs s)

/-- CAL_AGE_EXPIRY. -/
def execCalAgeExpiry (g : Fin 16) (k : Fin 32) (s : State) : Host.Outcome State Fault Refusal :=
  .next (calAgeExpiry g.val k.val s)

/-- TSET_WRITE. -/
def execTsetWrite (q : Req) (g : Fin 16) (value : Word) (s : State) : Host.Outcome State Fault Refusal :=
  .next (guarded q (Reg.TST_TSET g.val) value (tsetWrite g.val value) s)

/-- PERIOD_WRITE. -/
def execPeriodWrite (q : Req) (g : Fin 16) (value : Word) (s : State) : Host.Outcome State Fault Refusal :=
  .next (guarded q (Reg.TST_PERIOD g.val) value (periodWrite g.val value) s)

/-- MODE_WRITE. -/
def execModeWrite (q : Req) (g : Fin 16) (r : Fin 4) (value : Word) (s : State) : Host.Outcome State Fault Refusal :=
  .next (guarded q (Reg.TST_MODE g.val r.val) value (modeWrite g.val r.val value) s)

/-- LIN_DATA_WRITE. -/
def execLinDataWrite (q : Req) (g : Fin 16) (value : Word) (s : State) : Host.Outcome State Fault Refusal :=
  .next (guarded q (Reg.TST_XLIN_DATA g.val) value (linWrite g.val value) s)

/-- LIN_DATA_READ. -/
def execLinDataRead (q : Req) (g : Fin 16) (s : State) : Host.Outcome State Fault Refusal :=
  .next (guardedRead q (Reg.TST_XLIN_DATA g.val) (linRead g.val) s)

end Sys2Proof.Machine
end

