-- ==== Sys2Proof/Machine/Tdc.lean ====
section
/-! DEFINITION. Time channels (R383 to R411): event records and stamps, queues, measurement functions, statistics, admission,
and the calibration of bin tables. -/

namespace Sys2Proof.Machine

open Sys2Proof

/-- Time channel `c`. -/
def tdcCh (s : State) (c : Nat) : TdcCh := tget (fun _ => {}) s.tdc.chans c

/-- Changes time channel `c`. -/
def modTdc (c : Nat) (f : TdcCh → TdcCh) (s : State) : State :=
  { s with tdc := { s.tdc with chans := tset (fun _ => {}) s.tdc.chans c (f (tdcCh s c)) } }

/-- Whether a channel is in TIME mode. -/
def isTime (s : State) (c : Nat) : Bool := modeOf s c == 6

/-- The channels of group `g` in TIME mode. -/
def timeChannels (s : State) (g : Nat) : List Nat := ((List.range 32).map (fun k => 32 * g + k)).filter (isTime s)

/-- The slot of channel index `k` in a frame vector: 2 bits (R135). -/
def slotOf (vec k : Nat) : Nat := vec / 4 ^ k % 4

/-- The 16-bit word of octet `o` of channel index `k`: its first vector in bits 15:14 (R165). -/
def octetWord (payload : List Nat) (k o : Nat) : Nat :=
  (List.range 8).foldl (fun w i => 4 * w + slotOf (nth 0 payload (8 * o + i)) k) 0

/-! ### Stamps -/

/-- Width of bin `i` in 1/32 fs; a table that holds no widths has the nominal ones (notes/assumptions/14.md). -/
def binWidth (t : BinTab) (i : Nat) : Nat := tget (fun _ => 78125) t.w i

/-- f of R388 in 1/64 fs: the centre of bin `code`. -/
def binCentre (t : BinTab) (code : Nat) : Nat := 2 * sumN ((List.range code).map (binWidth t)) + binWidth t code

/-- The stamp of an event on pin vector `v` in fs (R388). -/
def stampOf (t : BinTab) (n v cyc code : Nat) : Nat :=
  (divNearestEven (((v * (n / 256) + cyc) * 40000000 + binCentre t code : Nat) : Int) 64).toNat

/-- Whether stamps of a channel carry UNCAL (R390). -/
def isUncal (x : TdcCh) : Bool := !x.table.accepted || x.table.stale || x.warm || x.table.edited

/-! ### Queues -/

/-- Records of a channel's ring (R391). -/
def queueSize (s : State) (c : Nat) : Nat := 2 ^ rdFld s (Reg.TDC_CH_Q_HI c) 31 24

/-- Writes an event to the channel's queue, or drops it while the ring is full (R391 to R393). -/
def queueEvent (c stamp code cyc : Nat) (pol uncal : Bool) (s : State) : State :=
  let s := incWrap Reg.TDC_EVT_COUNT 1 s
  let wr := rdN s (Reg.TDC_CH_Q_WR c)
  let x := tdcCh s c
  if queueSize s c ≤ sub32 wr (rdN s (Reg.TDC_CH_Q_RD c)) then
    let s := modTdc c (fun x => { x with droppedBefore := true }) s
    orReg Reg.TDC_EVENTS 1 (incSat (Reg.TDC_CH_DROPPED c) 1 (incWrap Reg.TDC_DROPPED 1 s))
  else
    let flags := b2n pol + 2 * b2n x.gapBefore + 4 * b2n x.droppedBefore + 8 * b2n uncal + 16 * cyc
    let base := rdN s (Reg.TDC_CH_Q_LO c) + 4294967296 * rdFld s (Reg.TDC_CH_Q_HI c) 15 0
    let s := setBytes (base + 16 * (wr % queueSize s c))
      (leBytes 8 stamp ++ leBytes 4 (epochNow s).toNat ++ leBytes 2 c ++ leBytes 1 code ++ leBytes 1 flags) s
    let s := modTdc c (fun x => { x with gapBefore := false, droppedBefore := false }) s
    incWrap Reg.TDC_QUEUED 1 (setRegN (Reg.TDC_CH_Q_WR c) (add32 wr 1) s)

/-! ### Statistics -/

/-- TDC_CH_N; 0 stands for 2^32 (R397). -/
def blockLen (s : State) (c : Nat) : Nat := let n := rdN s (Reg.TDC_CH_N c); if n = 0 then 4294967296 else n

/-- A value joins a statistics block (R397); mean and M2 in 2^-16. -/
def addValue (x : Int) (stamp : Nat) (uncal : Bool) (b : StatBlock) : StatBlock :=
  let k := b.k + 1
  if k = 1 then
    { b with k := 1, mean := x * 65536, m2 := 0, lo := x, hi := x, first := stamp, last := stamp, uncal := b.uncal || uncal }
  else
    let d := x * 65536 - b.mean
    let mean := b.mean + divNearestEven d k
    let m2 := b.m2 + divNearestEven (d * (x * 65536 - mean)) 65536
    { b with k := k, mean := mean, m2 := m2, lo := min b.lo x, hi := max b.hi x, last := stamp, uncal := b.uncal || uncal }

/-- The words of a result record (R399). -/
def resultWords (s : State) (c : Nat) (b : StatBlock) (part : Bool) : List Word :=
  let flags := b2n part + 2 * b2n b.gap + 4 * b2n b.uncal
  let sd := if b.k ≤ 1 then 0 else rootNearest b.m2.toNat (b.k - 1)
  [wd (0x53 + 256 * flags + 65536 * c), epochNow s, rd s Reg.SEQ_STEP_COUNT, wd b.k] ++
    leWords 2 (twos 64 (divNearestEven b.mean 256)) ++ leWords 2 sd ++ leWords 2 (twos 64 b.lo) ++ leWords 2 (twos 64 b.hi) ++
    leWords 2 b.first ++ leWords 2 b.last

/-- Whether the result ring is full. -/
def resultsFull (s : State) : Bool :=
  decide (rdN s Reg.TDC_RES_SIZE ≤ sub32 (rdN s Reg.TDC_RES_WR) (rdN s Reg.TDC_RES_RD))

/-- Emits the block of a channel (R398, R399): its record goes to the ring, or is discarded while the ring is full. -/
def emitStats (c : Nat) (part : Bool) (s : State) : State :=
  let ws := resultWords s c (tdcCh s c).block part
  let s := modTdc c (fun x => { x with block := {}, view := ws }) s
  if resultsFull s then orReg Reg.TDC_EVENTS 8 (incWrap Reg.TDC_RES_LOST 1 s)
  else
    let wr := rdN s Reg.TDC_RES_WR
    let base := rdN s Reg.TDC_RES_BASE_LO + 4294967296 * rdFld s Reg.TDC_RES_BASE_HI 15 0
    let s := setMemWords (base + 64 * (wr % rdN s Reg.TDC_RES_SIZE)) ws s
    let s := setRegN Reg.TDC_RES_WR (add32 wr 1) s
    setBit Reg.TDC_STATUS 1 (resultsFull s) s

/-- A value of channel `c` (R397, R398). -/
def takeValue (c : Nat) (v : Int) (stamp : Nat) (uncal : Bool) (s : State) : State :=
  if (tdcCh s c).done then s
  else
    let s := modTdc c (fun x => { x with block := addValue v stamp uncal x.block }) s
    if blockLen s c ≤ (tdcCh s c).block.k then
      let s := emitStats c false s
      if rdBit s (Reg.TDC_CH_CTRL c) 4 then s else modTdc c (fun x => { x with done := true }) s
    else s

/-! ### Functions -/

/-- FUNC of a channel. -/
def tdcFunc (s : State) (c : Nat) : Nat := rdFld s (Reg.TDC_CH_CTRL c) 1 0

/-- The channel whose events open references (R394). -/
def refOf (s : State) (c : Nat) : Nat := if tdcFunc s c = 2 then rdFld s (Reg.TDC_CH_CTRL c) 24 16 else c

/-- Whether a channel's values are accumulated. -/
def hasStats (s : State) (c : Nat) : Bool := isTime s c && rdBit s (Reg.TDC_CH_CTRL c) 3 && tdcFunc s c != 0

/-- Whether a polarity passes a POLSEL or REF_POL code (R395); `falling` is POL. -/
def polPasses (code : Nat) (falling : Bool) : Bool := code == 0 || (code == 1 && !falling) || (code == 2 && falling)

/-- One event reaches the function of channel `c` (R395). -/
def funcEvent (c : Nat) (e : Nat × Nat × Bool × Bool) (s : State) : State :=
  let (ch, stamp, pol, uncal) := e
  let s :=
    if ch = c ∧ polPasses (rdFld s (Reg.TDC_CH_CTRL c) 11 10) pol then
      match (tdcCh s c).open_ with
      | some (t, u) =>
        takeValue c ((stamp : Int) - (t : Int)) stamp (uncal || u) (modTdc c (fun x => { x with open_ := none }) s)
      | none => s
    else s
  if ch = refOf s c ∧ polPasses (rdFld s (Reg.TDC_CH_CTRL c) 13 12) pol then
    modTdc c (fun x => { x with open_ := some (stamp, uncal) }) s
  else s

/-- A loss clears the open reference (R396). -/
def funcLoss (c : Nat) (s : State) : State :=
  modTdc c (fun x => { x with open_ := none, block := { x.block with gap := x.block.gap || x.open_.isSome } }) s

/-- Puts an event in stamp order, an event of `ref` before others of the same stamp (R395). -/
def insertEvent (ref : Nat) (e : Nat × Nat × Bool × Bool) : List (Nat × Nat × Bool × Bool) → List (Nat × Nat × Bool × Bool)
  | [] => [e]
  | h :: t =>
    if e.2.1 < h.2.1 || (e.2.1 == h.2.1 && e.1 == ref && h.1 != ref) then e :: h :: t else h :: insertEvent ref e t

/-- Pin frame `f` reaches the function of channel `c`: no value spans a loss of either group (R396). -/
def funcFrame (c f : Nat) (s : State) : State :=
  let r := refOf s c
  let its := s.tdc.items.filter (fun i => i.frame == f)
  let lost := its.any (fun i => i.evt.isNone && (i.group == c / 32 || i.group == r / 32))
  let evs := (its.filterMap (·.evt)).filter (fun e => e.1 == c || e.1 == r)
  let evs := evs.foldl (fun l e => insertEvent r e l) []
  let s := if lost then funcLoss c s else s
  let s := evs.foldl (fun s e => funcEvent c e s) s
  let s := if lost then funcLoss c s else s
  modTdc c (fun x => { x with taken := f + 1 }) s

/-- Frames of the step converted for both groups of channel `c`. -/
def framesReady (s : State) (c : Nat) : Nat :=
  min (tget (fun _ => 0) s.tdc.seen (c / 32)) (tget (fun _ => 0) s.tdc.seen (refOf s c / 32))

/-- The function of channel `c` takes the frames that are ready. -/
def runFunc (c : Nat) (s : State) : State :=
  let x := tdcCh s c
  (List.range (framesReady s c - x.taken)).foldl (fun s i => funcFrame c (x.taken + i) s) s

/-- Emits the open block of channel `c` with PARTIAL once the step has ended and its last frames are converted (R398). -/
def closeStats (c : Nat) (s : State) : State :=
  if hasStats s c && !(stepRuns s) && s.tdc.fin.contains (c / 32) && s.tdc.fin.contains (refOf s c / 32) &&
      decide (1 ≤ (tdcCh s c).block.k) then emitStats c true s
  else s

/-- Runs every function and drops the items that all have taken. -/
def runFuncs (s : State) : State :=
  let cs := (List.range 512).filter (hasStats s)
  let s := cs.foldl (fun s c => closeStats c (runFunc c s)) s
  let least := cs.foldl (fun m c => min m (tdcCh s c).taken) 4294967296
  { s with tdc := { s.tdc with items := s.tdc.items.filter (fun i => decide (least ≤ i.frame)) } }

/-! ### Records -/

/-- Whether an arm code arms a polarity (R383). -/
def arms (code : Nat) (falling : Bool) : Bool := if falling then decide (2 ≤ code) else code % 2 == 1

/-- A present record that R386 does not accept. -/
def badRecord (c : Nat) (s : State) : State :=
  let s := orReg Reg.TDC_EVENTS 2 (incSat Reg.TDC_BADREC 1 s)
  if (tdcCh s c).badNoted then s
  else raise (mkFaultD 0 0x08 0 0x0F c 0) (modTdc c (fun x => { x with badNoted := true }) s)

/-- One event record of channel `c` for the octet whose first vector is pin vector `v0`; `arm` gives the arm code of each of
its vectors (R385 to R391). -/
def tdcRecord (c f v0 rec : Nat) (arm : Nat → Nat) (s : State) : State :=
  if !(bitN rec 15) then s
  else
    let n := periodOf s (c / 32)
    let pol := bitN rec 14
    let vidx := bitsN rec 13 11
    let cyc := bitsN rec 10 8
    let code := bitsN rec 7 0
    if arms (arm vidx) pol && decide (cyc < n / 256) then
      let x := tdcCh s c
      let stamp := stampOf x.table n (v0 + vidx) cyc code
      let uncal := isUncal x
      let s := if rdBit s (Reg.TDC_CH_CTRL c) 2 then queueEvent c stamp code cyc pol uncal s else s
      { s with tdc := { s.tdc with items := s.tdc.items ++ [{ frame := f, group := c / 32, evt := some (c, stamp, pol, uncal) }] } }
    else badRecord c s

/-- Marks pin frame `f` of group `g` as converted. -/
def tdcFrameDone (g f : Nat) (last : Bool) (s : State) : State :=
  runFuncs { s with tdc := { s.tdc with seen := tset (fun _ => 0) s.tdc.seen g (f + 1),
                                        fin := if last then g :: s.tdc.fin else s.tdc.fin } }

/-- The records of an inward payload that answers frame `fr` of group `g` are converted (R385, R386). -/
def tdcFrame (g : Nat) (fr : SentFrame) (payload : List Nat) (s : State) : State :=
  let cs := timeChannels s g
  if cs.isEmpty then s
  else
    let s := (List.range 8).foldl (fun s o => cs.foldl (fun s c =>
      tdcRecord c fr.number (64 * fr.number + 8 * o) (octetWord payload (c % 32) o)
        (fun i => if 8 * o + i ≤ fr.vlast then nth 0 fr.vecs (8 * o + i) / 16 ^ (c % 32) % 4 else 0) s) s) s
    tdcFrameDone g fr.number fr.last s

/-- Pin frame `f` of group `g` is lost to the time channels (R386, R391, R396). -/
def tdcLoss (g : Nat) (fr : SentFrame) (s : State) : State :=
  let cs := timeChannels s g
  if cs.isEmpty then s
  else
    let s := orReg Reg.TDC_EVENTS 4 (incSat Reg.TDC_GAPS 1 s)
    let s := cs.foldl (fun s c => modTdc c (fun x => { x with gapBefore := true }) s) s
    tdcFrameDone g fr.number fr.last { s with tdc := { s.tdc with items := s.tdc.items ++ [{ frame := fr.number, group := g, evt := none }] } }

/-! ### START -/

/-- The record rate of TIME channels in 1/840 records/s (R400). -/
def tdcRate840 (s : State) (cs : List Nat) : Nat := sumN (cs.map (fun c => 168000000000 / (periodOf s (c / 32) / 256)))

/-- Whether a time channel's reservation of class 4 covers a rate of `num` × 10^6 / (P × `den`) MB/s, P in ps (R401). -/
def stampsReserved (s : State) (c consumer num den : Nat) : Bool :=
  match s.img.active.reserve.find? (fun r => r.cls == 4 && r.consumer == consumer) with
  | some r => decide (num * 1000000 * 32000 ≤ r.amount * (periodOf s (c / 32) * 78125 * den))
  | none => false

/-- Whether a TIME channel of a step with the given groups may start (R384, R396, R401). -/
def timeAdmitted (s : State) (groups : List Nat) (c : Nat) : Bool :=
  let n := periodOf s (c / 32)
  let r := refOf s c
  n % 256 == 0 && decide (n ≤ 2048) &&
  (tdcFunc s c != 2 || (isTime s r && groups.contains (r / 32) && periodOf s (r / 32) == n)) &&
  (!(rdBit s (Reg.TDC_CH_CTRL c) 2) || stampsReserved s c c 2 1) &&
  (!(rdBit s (Reg.TDC_CH_CTRL c) 3) || stampsReserved s c (0x200 + c) 8 (blockLen s c))

/-- Whether the TIME channels `cs` of a step fit the conversion (R400). -/
def timeRateAdmitted (s : State) (cs : List Nat) : Bool := decide (tdcRate840 s cs ≤ 840 * 6400000000)

/-- TDC_STATUS.CAL_STALE: some table in use is stale (R409). -/
def showStale (s : State) : State :=
  setBit Reg.TDC_STATUS 2 (s.tdc.chans.any (fun e => e.2.table.stale || (e.2.warm && e.2.table.accepted))) s

/-- The notice of a stale table, once per channel (R409). -/
def noteStale (c : Nat) (s : State) : State :=
  let s := orReg Reg.TDC_EVENTS 0x80 s
  if (tdcCh s c).staleNoted then s
  else raise (mkFaultD 0 0x08 0 0x0F c 0) (modTdc c (fun x => { x with staleNoted := true }) s)

/-- TDC_CH_CAL without its age (R412). -/
def showCal (c : Nat) (s : State) : State :=
  let x := tdcCh s c
  let t := if x.coming then x.stored.getD x.table else x.table
  setRegN (Reg.TDC_CH_CAL c) (2147483648 * b2n (t.stale || x.warm) + 1073741824 * b2n t.accepted + t.prec) s

/-- Sets up a TIME channel at a START (R396 to R398, R407, R409). -/
def startTime (c : Nat) (s : State) : State :=
  let temp := (tget (fun _ => {}) s.tst (c / 32)).compTemp
  let cold := fun (t : BinTab) => match temp with | some v => decide (96 < (v - t.temp).natAbs) | none => false
  let s := modTdc c (fun x =>
    let t := if x.coming then x.stored.getD x.table else x.table
    { x with table := t, coming := false, open_ := none, block := {}, done := false, taken := 0, gapBefore := false,
             droppedBefore := false, badNoted := false,
             warm := t.accepted && cold t }) s
  showCal c (if (tdcCh s c).warm then noteStale c s else s)

/-- Sets up the conversion at a START of a step with the given groups. -/
def startTdc (groups : List Nat) (s : State) : State :=
  let cs := groups.flatMap (timeChannels s)
  let s := { s with tdc := { s.tdc with items := [], seen := [], fin := [] } }
  let s := showStale (cs.foldl (fun s c => startTime c s) s)
  setRegN Reg.TDC_LOAD (ceilDiv (tdcRate840 s cs) 840000000) s

/-! ### Calibration -/

/-- The calibration run of a group: channel mask and FORCE. -/
def cdRun (s : State) (g : Nat) : Option (Nat × Bool) := tget (fun _ => none) s.tdc.runs g

/-- Sets the run of a group, RAND_CTRL of its companion (R404) and CAL_RUNNING. -/
def setCdRun (g : Nat) (r : Option (Nat × Bool)) (s : State) : State :=
  let s := { s with tdc := { s.tdc with runs := tset (fun _ => none) s.tdc.runs g r } }
  let s := queueMaps g [(0x8043, match r with | some (m, _) => m | none => 0)] s
  setBit Reg.TDC_STATUS 3 (!s.tdc.runs.isEmpty) s

/-- Starts code-density calibration of channels of a group (R403, R404). -/
def startCd (g mask : Nat) (force : Bool) (s : State) : State :=
  let old := match cdRun s g with | some (m, _) => m | none => 0
  setCdRun g (some (mask ||| old, force)) s

/-- CAL_CD on a group (R403). -/
def calCd (g : Nat) (force : Bool) (s : State) : State :=
  if !(calEligible s g) then answer stCalRefused s
  else
    let m := rdN s Reg.TDC_XCH
    answer stOk (if m = 0 then s else startCd g m force s)

/-- The widths of R405 for events by code, `e` in all: floors, and 1 more for the bins of largest remainder. -/
def cdWidths (codes : List Nat) (e : Nat) : List Nat :=
  let h := (List.range 256).map (fun i => nth 0 codes i * 20000000)
  let lows := h.map (· / e)
  let rems := (List.range 256).map (fun i => (nth 0 h i % e, i))
  let need := 20000000 - sumN lows
  (List.range 256).map (fun i =>
    let r := nth 0 h i % e
    let before := (rems.filter (fun x => decide (r < x.1) || (x.1 == r && decide (x.2 < i)))).length
    nth 0 lows i + (if before < need then 1 else 0))

/-- The first failing condition of R406, or 0. -/
def cdReason (s : State) (c : Nat) (force : Bool) (o : CdObs) : Nat :=
  let e := 2 ^ rdFld s Reg.TDC_XCAL_EDGES 4 0
  let w := cdWidths o.codes e
  let new : BinTab := { w := tsetList (fun _ => 78125) [] 0 w }
  let dnl := rdN s Reg.TDC_XLIMIT_DNL
  let prec := rdN s Reg.TDC_XLIMIT_PREC
  let jump := match (tdcCh s c).stored with
    | some old => (List.range 256).any (fun i =>
        decide (640 * (prec / 65536) < ((binCentre new i : Int) - (binCentre old i : Int)).natAbs))
    | none => false
  if o.aborted then 9
  else if !o.inTime || sumN (o.codes.take 256) != e then 1
  else if (List.range 8).any (fun k =>
      let d := (((nth 0 o.cycles k : Nat) : Int) - ((e / 8 : Nat) : Int)).natAbs
      decide (36 * (e / 8) < d * d)) then 2
  else if 10000 < o.correl.natAbs then 3
  else if w.any (fun x => decide (256 * x < dnl % 65536 * 78125) || decide (dnl / 65536 * 78125 < 256 * x)) then 4
  else if !force && jump then 5
  else if prec % 65536 < o.prec then 6
  else 0

/-- The run of channel index `k` of group `g` is over, with its reason (R406). -/
def stopCd (g k why : Nat) (s : State) : State :=
  match cdRun s g with
  | none => s
  | some (m, force) =>
    let s := setCdRun g (if m = 2 ^ k then none else some (m - 2 ^ k, force)) s
    setRegN Reg.TDC_XCAL_LAST (65536 * (32 * g + k) + why) s

/-- A run that fails a condition is discarded; three in a row on one channel are a C1 fault (R407). -/
def cdRejected (c why : Nat) (s : State) : State :=
  let s := raise (mkFaultD 0 0x08 0 0x0F c why) (orReg Reg.TDC_EVENTS 32 s)
  let n := (tdcCh s c).rejects + 1
  let s := modTdc c (fun x => { x with rejects := if n = 3 then 0 else n }) s
  if n = 3 then raise (mkFaultD 1 0x08 0 0x09 c why) s else s

/-- A step start ends the runs on the channels of group `g` that the step uses (R91, R406). -/
def endCds (g : Nat) (s : State) : State :=
  match cdRun s g with
  | none => s
  | some (m, _) =>
    ((bitPositions 32 m).filter (fun k => modeOf s (32 * g + k) != 0)).foldl (fun s k => cdRejected (32 * g + k) 9 (stopCd g k 9 s)) s

/-- CD_CAL_COMPLETE on channel index `k` of group `g` (R405 to R407); calibration windows are suspended during an image load (R91). -/
def cdComplete (g k : Nat) (o : CdObs) (s : State) : State :=
  match cdRun s g with
  | none => s
  | some (m, force) =>
    if !(bitN m k) || calSuspended s then s
    else
      let c := 32 * g + k
      let why := cdReason s c force o
      let s := stopCd g k why s
      if why = 0 then
        let e := 2 ^ rdFld s Reg.TDC_XCAL_EDGES 4 0
        let t : BinTab := { accepted := true, forced := force, edges := e, time := secOf (tod s), temp := o.temp, prec := o.prec,
                            since := s.time, w := tsetList (fun _ => 78125) [] 0 (cdWidths o.codes e) }
        showCal c (orReg Reg.TDC_EVENTS 16 (modTdc c (fun x => { x with stored := some t, coming := true, rejects := 0, staleNoted := false }) s))
      else cdRejected c why s

/-- The selected channel and index of the bin-table window. -/
def binSel (s : State) : Nat × Nat := (rdFld s Reg.TDC_XBIN_ADDR 24 16, rdFld s Reg.TDC_XBIN_ADDR 7 0)

/-- Advances TDC_XBIN_ADDR.INDEX. -/
def nextBin (s : State) : State := setFld Reg.TDC_XBIN_ADDR 7 0 ((binSel s).2 + 1) s

/-- The table that the window shows: an accepted table that still waits for a START, or the one in use. -/
def shownTable (x : TdcCh) : BinTab := if x.coming then x.stored.getD x.table else x.table

/-- A write of TDC_XBIN_DATA (R409). -/
def binWrite (value : Word) (s : State) : State :=
  let (c, i) := binSel s
  let t := shownTable (tdcCh s c)
  let w := tset (fun _ => 78125) t.w i (fld value 23 0)
  let t := { t with w := w, edited := true, accepted := false }
  if i = 255 ∧ sumN ((List.range 256).map (binWidth t)) ≠ 20000000 then answer stValueRange s
  else answer stOk (nextBin (showCal c (modTdc c (fun x => { x with table := t, coming := false }) s)))

/-- The word that a read of TDC_XBIN_DATA returns. -/
def binData (s : State) : Word := wd (binWidth (shownTable (tdcCh s (binSel s).1)) (binSel s).2)

/-- A write of TDC_CH_Q_RD (R392). -/
def qRdWrite (c : Nat) (value : Word) (s : State) : State :=
  if queueSize s c < sub32 (rdN s (Reg.TDC_CH_Q_WR c)) value.toNat then answer stValueRange s
  else accept (Reg.TDC_CH_Q_RD c) value s

/-! ### Meanings -/

/-- TDC_Q_RD_WRITE. -/
def execTdcQRdWrite (q : Req) (c : Fin 512) (value : Word) (s : State) : Host.Outcome State Fault Refusal :=
  .next (guarded q (Reg.TDC_CH_Q_RD c.val) value (qRdWrite c.val value) s)

/-- CAL_CD. -/
def execCalCd (q : Req) (g : Fin 16) (force : Bool) (s : State) : Host.Outcome State Fault Refusal :=
  .next (guarded q Reg.TDC_XCMD (wd (65536 * g.val + 256 * b2n force + 1)) (calCd g.val force) s)

/-- SCHEDULED_CD_CAL: Pavane calibrates a TIME-permitted channel, outside image loads (R91, R403). -/
def execScheduledCdCal (g : Fin 16) (k : Fin 32) (s : State) : Host.Outcome State Fault Refusal :=
  .next (if mayCalibrate s g.val k.val && bitN (chanRole s (32 * g.val + k.val)).permit 6 && !(calSuspended s) then
    startCd g.val (2 ^ k.val) false s else s)

/-- CD_CAL_COMPLETE. -/
def execCdCalComplete (g : Fin 16) (k : Fin 32) (obs : CdObs) (s : State) : Host.Outcome State Fault Refusal :=
  .next (cdComplete g.val k.val obs s)

/-- BIN_DATA_WRITE. -/
def execBinDataWrite (q : Req) (value : Word) (s : State) : Host.Outcome State Fault Refusal :=
  .next (guarded q Reg.TDC_XBIN_DATA value (binWrite value) s)

/-- BIN_DATA_READ. -/
def execBinDataRead (q : Req) (s : State) : Host.Outcome State Fault Refusal :=
  .next (guardedRead q Reg.TDC_XBIN_DATA (fun s => answerData (binData s) (nextBin s)) s)

/-- BIN_TABLE_STALE: the accepted table of a channel passes 30 days (R409). -/
def execBinTableStale (c : Fin 512) (s : State) : Host.Outcome State Fault Refusal :=
  .next (
    if (tdcCh s c.val).table.accepted then
      showCal c.val (showStale (noteStale c.val (modTdc c.val (fun x =>
        { x with table := { x.table with stale := true } }) s)))
    else s)

end Sys2Proof.Machine
end

