-- ==== Sys2Proof/Machine/LinkIn.lean ====
section
/-! DEFINITION. The inward half of a link (R133 to R165): the twin merge, control entries, the link ledger, losses, count
alignment, and the delivery of results to the compare stage and to the measure and time chains. -/

namespace Sys2Proof.Machine

open Sys2Proof

/-! ### Sequence numbers and the ledger -/

/-- (s − t) modulo 2^24 (R145). -/
def seqDiff (s t : Nat) : Nat := (s + 16777216 - t % 16777216) % 16777216

/-- Whether frame number `s` is after `t` (R145). -/
def seqAfter (s t : Nat) : Bool := decide (1 ≤ seqDiff s t) && decide (seqDiff s t < 8388608)

/-- Counts an unknown frame, entry or filler (R137, R141, R156). -/
def badSeq (g : Nat) (s : State) : State := orReg (Reg.LNK_FR_EVENTS g) 128 (incWrap (Reg.LNK_FR_BADSEQ g) 1 s)

/-- A fault of the link of group `g` (R624). -/
def linkFault (cls g cause d0 d1 : Nat) : FaultRec := mkFaultD cls 0x1E g cause d0 d1

/-- Frames that need nothing more are dropped from the list of sent frames. -/
def pruneSent (l : List SentFrame) : List SentFrame :=
  l.filter (fun x => !((x.applied || x.lost) && (x.results.isSome || x.resLost) && x.judges.isEmpty))

/-- Changes the sent frames of group `g` that `p` selects. -/
def modSent (g : Nat) (p : SentFrame → Bool) (f : SentFrame → SentFrame) (s : State) : State :=
  modLink g (fun l => { l with sent := l.sent.map (fun x => if p x then f x else x) }) s

/-- A DATA frame of group `g` is lost-and-reported (R149, R154, R155): in RUN as a C3 fault. -/
def frameLost (g fseq reason : Nat) (s : State) : State :=
  match (linkOf s g).sent.find? (fun x => x.fseq == fseq && !x.applied && !x.lost) with
  | none => s
  | some _ =>
    let s := modSent g (fun x => x.fseq == fseq && !x.applied) (fun x => { x with lost := true }) s
    let s := setRegN (Reg.LNK_FR_OUTSTANDING g) (rdN s (Reg.LNK_FR_OUTSTANDING g) - 1) (incWrap (Reg.LNK_FR_LOST g) 1 s)
    let s := orReg (Reg.LNK_FR_EVENTS g) 4 (showLead g s)
    if inRun s then raise (linkFault 3 g 0x10 fseq reason) s else s

/-- A DATA frame of group `g` misses its release point before it is sent (R88, R234): a lead underrun, C3. It counts as lost when it is sent,
so that the ledger balances throughout. -/
def leadUnderrun (g fseq : Nat) (s : State) : State :=
  if (linkOf s g).missed.contains fseq then s
  else
    let s := modLink g (fun l => { l with missed := fseq :: l.missed }) s
    raise (linkFault 3 g 0x10 fseq 0) (orReg (Reg.LNK_FR_EVENTS g) 4 s)

/-! ### Count alignment -/

/-- The probe of lane `l` of a group. -/
def probeOf (s : State) (g l : Nat) : Probe := if l = 0 then (linkOf s g).probeA else (linkOf s g).probeB

/-- Changes the probe of lane `l`. -/
def modProbe (g l : Nat) (f : Probe → Probe) (s : State) : State :=
  modLink g (fun k => if l = 0 then { k with probeA := f k.probeA } else { k with probeB := f k.probeB }) s

/-- Alignment of a group begins again (R162): nothing is known of its offset. -/
def alignAgain (g : Nat) (s : State) : State :=
  setBit (Reg.LNK_FR_STATUS g) 4 false
    (modLink g (fun k => { k with adjusted := false, probeA := { id := k.probeA.id }, probeB := { id := k.probeB.id } }) s)

/-- A good frame `f` arrives on lane `l` at `t` (R161): the latest 128 arrivals are kept, and a probe whose TECHO_RX came in the twin's copy
has its T4. -/
def noteArrival (g l f t : Nat) (s : State) : State :=
  let s := modLink g (fun k => { k with arrivals := ((l, f, t) :: k.arrivals).take 128 }) s
  if (probeOf s g l).rxFrame == some f && (probeOf s g l).t4.isNone then modProbe g l (fun p => { p with t4 := some t }) s else s

/-- The signed difference of two 40-bit stamps. -/
def stampDiff (a b : Nat) : Int := sext 40 (twos 40 ((a : Int) - (b : Int)))

/-- Sends CNTADJ with a correction (R162). -/
def sendAdjust (g : Nat) (corr : Int) (s : State) : State :=
  let s := modLink g (fun k => { k with idleEntries := k.idleEntries ++ [0x09 * 2 ^ 56 + twos 48 corr] }) s
  orReg (Reg.LNK_FR_EVENTS g) 32 (setRegN (Reg.LNK_CNT_CORR g) (twos 32 corr) s)

/-- Both lanes' runs of probes start again. -/
def restartRuns (g : Nat) (s : State) : State :=
  modLink g (fun k => { k with probeA := { k.probeA with run := 0, zero := false }, probeB := { k.probeB with run := 0, zero := false } }) s

/-- The ACTIVE lanes have each seen 8 probes that round to 0 (R162). -/
def zeroEverywhere (s : State) (g : Nat) : Bool :=
  (!(laneActive s g 0) || (probeOf s g 0).zero) && (!(laneActive s g 1) || (probeOf s g 1).zero)

/-- A probe that rounds to `th` with its residual in bounds or not while alignment is under way (R162): eight in a row that give the
same offset bring a correction, after which eight on every ACTIVE lane have to round to 0, whatever their residual. -/
def alignProbe (g l : Nat) (th : Int) (within : Bool) (s : State) : State :=
  let p := probeOf s g l
  let further := (linkOf s g).adjusted && th == 0
  let run := if within || further then (if p.run ≠ 0 && p.theta == th then p.run + 1 else 1) else 0
  let s := modProbe g l (fun p => { p with run := run, theta := th, zero := p.zero && th == 0 }) s
  if run < 8 then s
  else if !further then modLink g (fun k => { k with adjusted := true }) (restartRuns g (sendAdjust g (-th) s))
  else
    let s := modProbe g l (fun p => { p with zero := true }) s
    if zeroEverywhere s g then setBit (Reg.LNK_FR_STATUS g) 4 true (modLink g (fun k => { k with holdStart := false }) s) else s

/-- A probe of lane `l` is complete with its four stamps (R161 to R163), in 1/256 BEAT period. -/
def probeDone (g l t1 t2 t3 t4 : Nat) (s : State) : State :=
  let a := stampDiff t2 t1
  let b := stampDiff t4 t3
  let th := divNearestEven (a - b) 512
  let resid2 := (a - b) - 512 * th
  let delta := divNearestEven ((a + b) * 10) 512
  let s := setRegN (Reg.LNK_CNT_RESID g) (65536 * twos 16 delta + twos 16 (divNearestEven resid2 2)) s
  if rdBit s (Reg.LNK_FR_STATUS g) 4 then
    if th = 0 then s
    else
      let s := raise (linkFault 1 g 0x09 l 0) s
      let s := sendAdjust g (-th) (alignAgain g s)
      modLink g (fun k => { k with adjusted := true, holdStart := true }) s
  else alignProbe g l th (decide (resid2.natAbs ≤ 128)) s

/-- When the marker of inward frame `f` arrived on lane `l`, if it has (R161). -/
def arrivedAt (s : State) (g l f : Nat) : Option Nat := ((linkOf s g).arrivals.find? (fun e => e.1 == l && e.2.1 == f)).map (·.2.2)

/-- An inward TECHO_RX entry in frame `f` (R161): T2, with T4 the arrival of the frame's marker on the lane of the probe. -/
def techoRx (g e f : Nat) (s : State) : State :=
  let l := bitsN e 55 55
  if (probeOf s g l).t1.isSome && (probeOf s g l).id == bitsN e 54 48 then
    let t4 := arrivedAt s g l f
    modProbe g l (fun p => { p with t2 := some (bitsN e 39 0), t4 := t4, rxFrame := some f }) s
  else s

/-- An inward TECHO_TX entry (R161, R162): T3 completes the probe. -/
def techoTx (g e : Nat) (s : State) : State :=
  let l := bitsN e 55 55
  let p := probeOf s g l
  match p.t1, p.t2, p.t4 with
  | some t1, some t2, some t4 =>
    if p.id = bitsN e 54 48 then
      probeDone g l t1 t2 (bitsN e 39 0) t4 (modProbe g l (fun p => { p with id := (p.id + 1) % 128, t1 := none, t2 := none, t4 := none, rxFrame := none }) s)
    else s
  | _, _, _ => s

/-! ### Control entries -/

/-- An inward LOST entry (R149, R155, R158): each FSEQ is counted once. -/
def lostEntry (g e : Nat) (s : State) : State :=
  let f := bitsN e 23 0
  let why := bitsN e 27 24
  if (linkOf s g).lostSeen.contains f then s
  else
    let s := modLink g (fun k => { k with lostSeen := (f :: k.lostSeen).take 64, lostCum := (k.lostCum + 1) % 65536 }) s
    let s := if why = 2 then orReg (Reg.LNK_FR_EVENTS g) 64 s else s
    if f = rdN s (Reg.LNK_FR_TXSEQ g) ∧ groupInStep s g ∧ !(linkOf s g).finished then leadUnderrun g f s else frameLost g f why s

/-- DATA frames of the group that SUMMARY newly reports consumed, oldest first. -/
def consumedNow (s : State) (g released : Nat) : List Nat :=
  ((linkOf s g).sent.filter (fun x => !x.applied && !x.lost && !(seqAfter x.fseq released))).map (·.fseq)

/-- Losses that SUMMARY counts and no LOST entry has named are charged to the oldest frames consumed (R158). -/
def reconcile (g extra : Nat) (fs : List Nat) (s : State) : State := (fs.take extra).foldl (fun s f => frameLost g f 0 s) s

/-- Frames consumed and not lost are applied (R154). -/
def applyFrames (g : Nat) (fs : List Nat) (s : State) : State :=
  let live := fs.filter (fun f => (linkOf s g).sent.any (fun x => x.fseq == f && !x.applied && !x.lost))
  let s := modSent g (fun x => live.contains x.fseq) (fun x => { x with applied := true }) s
  let s := setRegN (Reg.LNK_FR_OUTSTANDING g) (rdN s (Reg.LNK_FR_OUTSTANDING g) - live.length) s
  showLead g (incWrap (Reg.LNK_FR_APPLIED g) live.length s)

/-- TBF_LEAD_MIN of a group while frames are still to be built (R87); a lead of 0 is an underrun (R234). -/
def noteLead (g : Nat) (s : State) : State :=
  let l := linkOf s g
  let lead := rdN s (Reg.LNK_FR_OUTSTANDING g)
  if groupInStep s g && !l.finished && l.sent.any (·.applied) && decide (lead < rdN s (Reg.TBF_LEAD_MIN g)) then
    let s := setRegN (Reg.TBF_LEAD_MIN g) lead s
    if lead = 0 then leadUnderrun g (rdN s (Reg.LNK_FR_TXSEQ g)) s else s
  else s

/-- Map writes reported consumed (R267, R273): the map may be whole, and commits are answered. -/
def consumeMap (g released : Nat) (s : State) : State :=
  let s := modLink g (fun k => { k with mapOut := k.mapOut.filter (fun f => seqAfter f released) }) s
  let l := linkOf s g
  let s := if l.mapOut.isEmpty && l.mapQ.isEmpty && l.mapCursor.isNone && l.relin.isEmpty then setBit (Reg.TST_STATUS g) 15 false s else s
  match l.commitFseq with
  | some f => if seqAfter f released then s else finishCommits g (modLink g (fun k => { k with commitFseq := none }) s)
  | none => s

/-- The status byte of SUMMARY (R158, R159, R630): each condition is reported when it appears. -/
def compStatus (g st : Nat) (s : State) : State :=
  let old := rdFld s (Reg.LNK_FR_STATUS g) 31 24
  let rises := fun k => bitN st k && !(bitN old k)
  let s := if rises 1 then raise (linkFault 2 g 0x03 0 0) s else s
  let s := if rises 2 then raise (mkFault 0 0x1C g 0x0C) s else s
  let s := if rises 3 then raise (mkFault (if inRun s then 3 else 2) 0x1C g 0x0D) s else s
  setBit (Reg.LNK_FR_STATUS g) 5 (bitN st 6) (setFld (Reg.LNK_FR_STATUS g) 31 24 st s)

/-- An inward SUMMARY entry (R154, R158). -/
def summary (g e : Nat) (s : State) : State :=
  let released := bitsN e 55 32
  let s := setFld (Reg.LNK_FR_STATUS g) 23 16 (bitsN e 15 8) (compStatus g (bitsN e 7 0) s)
  let fs := consumedNow s g released
  let extra := (bitsN e 31 16 + 65536 - (linkOf s g).lostCum) % 65536
  let extra := if extra < 32768 then extra else 0
  let s := reconcile g extra fs s
  let s := modLink g (fun k => { k with lostCum := (k.lostCum + extra) % 65536, released := released }) s
  consumeMap g released (noteLead g (applyFrames g fs s))

/-- An inward CRDATA entry (R158): the temperature of the companion is address 0x8040, asked for under tag 0x40, from which new trims follow
before a FIRST frame and not during a step (R289); CAL_STAT is address 0x8042, asked for under tag 0x42 (R264). -/
def crData (g e : Nat) (s : State) : State :=
  let tag := bitsN e 39 32
  if (linkOf s g).creads.contains tag then
    let s := modLink g (fun k => { k with creads := k.creads.filter (fun t => t != tag) }) s
    if tag = 0x40 then
      let s := modTst g (fun t => { t with compTemp := some (sext 16 e) }) s
      if groupInStep s g && (linkOf s g).built = 0 then showTrims g s else s
    else if tag = 0x42 then modTst g (fun t => { t with loopOn := bitN e 0 }) s
    else s
  else s

/-- One inward entry, by its opcode (R158); SUMMARY and LOST are taken before the others. -/
def inwardEntry (g f : Nat) (s : State) (e : Nat) : State :=
  match bitsN e 63 56 with
  | 0x00 => s
  | 0x80 => s
  | 0x81 => s
  | 0x82 => techoRx g e f s
  | 0x83 => techoTx g e s
  | 0x84 => crData g e s
  | 0x85 => s
  | _ => badSeq g s

/-- The control slot of inward frame `f` (R156, R158). -/
def inwardEntries (g f : Nat) (es : List Nat) (s : State) : State :=
  let s := (es.filter (fun e => bitsN e 63 56 == 0x81)).foldl (fun s e => lostEntry g e s) s
  let s := (es.filter (fun e => bitsN e 63 56 == 0x80)).foldl (fun s e => summary g e s) s
  es.foldl (inwardEntry g f) s

/-! ### Results -/

/-- The oldest sent frame whose results have not come. -/
def unanswered (s : State) (g : Nat) : List SentFrame := (linkOf s g).sent.filter (fun x => x.results.isNone && !x.resLost)

/-- The measure input of one channel from the payload that answers a frame (R164, R165, R322). -/
def intakeChannel (g k : Nat) (x : SentFrame) (payload : List Nat) (s : State) : State :=
  let c := 32 * g + k
  let v0 := 64 * x.number
  let m := modeOf s c
  if m = 2 ∨ m = 5 then
    (List.range (x.vlast + 1)).foldl (fun s i =>
      let lvl : Int := match slotOf (nth 0 payload i) k with | 0 => -3 | 1 => -1 | 3 => 1 | _ => 3
      intake c (v0 + i) lvl x.lost s) s
  else if m = 3 then
    (List.range (x.vlast / 8 + 1)).foldl (fun s o => intake c (v0 + 8 * o) (sext 16 (octetWord payload k o)) x.lost s) s
  else s

/-- The measure inputs of a group. -/
def intakeFrame (g : Nat) (x : SentFrame) (payload : List Nat) (s : State) : State :=
  (List.range 32).foldl (fun s k => intakeChannel g k x payload s) s

/-- The results of a sent frame never arrive (R155, R255, R316): C3, and no unit of the frame is detected. -/
def resultsLost (g : Nat) (x : SentFrame) (s : State) : State :=
  let s := modSent g (fun y => y.fseq == x.fseq) (fun y => { y with resLost := true }) s
  let s := orReg (Reg.LNK_FR_EVENTS g) 16 (incWrap (Reg.LNK_FR_RES_LOST g) 1 s)
  let s := raise (linkFault 3 g 0x10 x.fseq 0) s
  if x.old then s else judgeReady g x.number (tdcLoss g x (intakeFrame g { x with lost := true } [] s))

/-- The answer to an outward frame is lost on its way inward (R155): the results of an applied frame are a C3, and those of a frame lost
outward are none. -/
def answerLost (g : Nat) (s : State) (x : SentFrame) : State :=
  if x.applied then resultsLost g x s else modSent g (fun y => y.fseq == x.fseq) (fun y => { y with resLost := true }) s

/-- Inward frames declared lost before this one are judged at the next DATA frame, or at the next frame of a companion that releases no
more, by the frames consumed and unanswered: they carried results when more answers are due than this frame can hold
(notes/assumptions/21.md). -/
def settleGap (g : Nat) (isData : Bool) (s : State) : State :=
  let k := (linkOf s g).gap
  if k = 0 || !(isData || !(rdBit s (Reg.LNK_FR_STATUS g) 5)) then s
  else
    let due := (unanswered s g).filter (fun x => x.applied || x.lost)
    let s := modLink g (fun l => { l with gap := 0 }) s
    if k + b2n isData ≤ due.length then (due.take k).foldl (answerLost g) s
    else if groupInStep s g then raise (linkFault 1 g 0x10 0 k) s else s

/-- SEGECHO entries of the answer against the SEGSTART entries of the frame (R160). -/
def checkEchoes (g : Nat) (x : SentFrame) (es : List Nat) (s : State) : State :=
  let echoed := (es.filter (fun e => bitsN e 63 56 == 0x85)).map (fun e => bitsN e 55 0)
  if echoed = x.segs then s
  else
    let s := orReg (Reg.LNK_FR_EVENTS g) 256 s
    if inRun s then raise (linkFault 3 g 0x03 x.fseq 0) s else s

/-- An inward DATA frame answers the oldest unanswered frame (R150): its results go to the compare stage and to the measure
and time chains. -/
def answerFrame (g : Nat) (fr : Frame) (s : State) : State :=
  match unanswered s g with
  | [] => s
  | x :: _ =>
    let s := modSent g (fun y => y.fseq == x.fseq) (fun y => { y with results := some fr.payload }) s
    let s := checkEchoes g x fr.entries s
    if x.old then s else
    let s := intakeFrame g x fr.payload s
    let s := if x.lost then tdcLoss g x s else tdcFrame g x fr.payload s
    judgeReady g x.number s

/-- The merge delivers a frame (R152). -/
def deliver (g : Nat) (fr : Frame) (s : State) : State :=
  let s := if fr.typ = 2 then s else inwardEntries g fr.fseq fr.entries s
  let s := settleGap g (fr.typ == 1) s
  let s := if fr.typ = 1 then answerFrame g fr s else s
  modLink g (fun l => { l with sent := pruneSent l.sent }) s

/-! ### The twin merge -/

/-- Whether lane `l` of a group is in the merge. -/
def inMerge (s : State) (g l : Nat) : Bool := rdBit s (Reg.LNK_FR_STATUS g) (2 + l)

/-- The last FSEQ a lane delivered. -/
def seenOf (s : State) (g l : Nat) : Option Nat := if l = 0 then (linkOf s g).seenA else (linkOf s g).seenB

/-- Whether a lane in the merge has passed `n` without delivering it; a lane outside the merge holds nothing back. -/
def lanePassed (s : State) (g l n : Nat) : Bool :=
  !(inMerge s g l) || (match seenOf s g l with | some x => seqAfter x n | none => false)

/-- Moves the merge to the next FSEQ. -/
def mergeNext (g n : Nat) (s : State) : State :=
  let m := (n + 1) % 16777216
  setRegN (Reg.LNK_FR_RXSEQ g) m (modLink g (fun l => { l with next := some m }) s)

/-- Delivers frames in order and declares lost what every lane of the merge has passed (R152). -/
def drain (g : Nat) : Nat → State → State
  | 0, s => s
  | fuel + 1, s =>
    match (linkOf s g).next with
    | none => s
    | some n =>
      match (linkOf s g).buf.find? (fun f => f.fseq == n) with
      | some fr =>
        let s := modLink g (fun l => { l with buf := l.buf.filter (fun f => f.fseq != n) }) s
        drain g fuel (deliver g fr (mergeNext g n s))
      | none =>
        if (inMerge s g 0 || inMerge s g 1) && lanePassed s g 0 n && lanePassed s g 1 n then
          let s := orReg (Reg.LNK_FR_EVENTS g) 8 (incWrap (Reg.LNK_FR_IN_LOST g) 1 s)
          drain g fuel (mergeNext g n (modLink g (fun l => { l with gap := l.gap + 1 }) s))
        else s

/-- More rounds than a drain can take: there are 2^24 sequence numbers. -/
def drainFuel : Nat := 16777216

/-- A good frame of lane `l` enters the merge (R152, R153). -/
def mergeFrame (g l : Nat) (fr : Frame) (s : State) : State :=
  let alone := !(inMerge s g 0) && !(inMerge s g 1)
  let s := setBit (Reg.LNK_FR_STATUS g) (2 + l) true s
  let s := modLink g (fun k =>
    let k := if l = 0 then { k with seenA := some fr.fseq } else { k with seenB := some fr.fseq }
    if alone || k.next.isNone then { k with next := some fr.fseq, buf := [] } else k) s
  let n := (linkOf s g).next.getD fr.fseq
  let d := seqDiff fr.fseq n
  if 8388608 ≤ d || (linkOf s g).buf.any (fun f => f.fseq == fr.fseq) then incWrap (Reg.LNK_FR_TWIN g) 1 s
  else if 64 ≤ d then badSeq g s
  else
    let s := incWrap (if l = 0 then Reg.LNK_FR_KEPT_A g else Reg.LNK_FR_KEPT_B g) 1 s
    drain g drainFuel (modLink g (fun k => { k with buf := k.buf ++ [fr] }) s)

/-- A lane leaves the merge: what only it held back is resolved by the remaining lane (R153). -/
def leaveMerge (g l : Nat) (s : State) : State :=
  let s := setBit (Reg.LNK_FR_STATUS g) (2 + l) false s
  let s := modLink g (fun k => if l = 0 then { k with seenA := none } else { k with seenB := none }) s
  if inMerge s g (1 - l) then drain g drainFuel s else s

end Sys2Proof.Machine
end

