-- ==== Sys2Proof/Machine/Ready.lean ====
section
/-! DEFINITION. The balls that show state: READY with its conditions (R74, R666), XO_MON (R75) and ALERT_N (R612). -/

namespace Sys2Proof.Machine

open Sys2Proof

/-- Whether the reference in use is permitted for the strapped role (R74). -/
def refPermitted (s : State) : Bool := aloneRole s || !(rdBit s Reg.TBF_STATUS 0)

/-- Whether an enabled group has an ACTIVE lane, its map whole and its count aligned (R666). -/
def groupReady (s : State) (g : Nat) : Bool :=
  groupActive s g && !(rdBit s (Reg.TST_STATUS g) 15) && rdBit s (Reg.LNK_FR_STATUS g) 4

/-- Whether the power state is RUN, HOLD or STANDBY. -/
def poweredUp (s : State) : Bool :=
  !s.pwr.inReset && (s.pwr.state == .run || s.pwr.state == .hold || s.pwr.state == .standby)

/-- The eight conditions of R666, in order. -/
def readyConds (s : State) : List Bool :=
  [ rdFld s Reg.IMG_STATUS 1 0 == 2 && s.sec.state != .retired,
    refPermitted s,
    (List.range 16).all (fun g => !(groupEnabled s g) || groupReady s g),
    busState s == 4 || busState s == 5 || (busState s == 0 && aloneRole s),
    poweredUp s && !(detaching s),
    !s.flt.halted && !s.flt.grave,
    !(rdBit s Reg.PWR_CTRL 1) || rdBit s Reg.PTP_STATUS (4 + rdFld s Reg.PTP_STATUS 0 0),
    !(rdBit s Reg.PWR_CTRL 0) || s.net.owner.isSome ]

/-- The level of the READY ball (R666). -/
def readyNow (s : State) : Bool := (readyConds s).all id

/-- PWR_STATUS.READY_WAIT: bit k − 1 for each unmet condition k (R666). -/
def readyWait (s : State) : Nat :=
  sumN ((List.range 8).map (fun (k : Nat) => b2n (!(nth true (readyConds s) k)) * 2 ^ k))

/-- Whether the XO_MON ball drives the 100 MHz square wave of the crystal time base; it is held low otherwise (R75). -/
def xoMon (s : State) : Bool := rdBit s Reg.TBF_CTRL 2 && s.pwr.core

/-- The level of the ALERT_N ball, low while FLT_ALERT is not 0 (R612); released in DETACHED and OFF (R668). -/
def alertN (s : State) : Bool := rd s Reg.FLT_ALERT == 0 || s.pwr.state == .detached || s.pwr.state == .off

end Sys2Proof.Machine
end

