-- ==== Sys2Proof/Machine/Wire.lean ====
section
/-! DEFINITION. What a companion lane carries on its pair (R99 to R101, R107, R125, R133 to R140): PAM4 symbols and precoding, training
frames, the Reed-Solomon code of frames, the layout of a frame, and filler words. A string of symbols or bits is one number: the first
sent is the most significant. -/

namespace Sys2Proof.Machine

open Sys2Proof

/-! ### Symbols (R99 to R101) -/

/-- `n` symbols, each with its low bit set. -/
def lowBits (n : Nat) : Nat := (4 ^ n - 1) / 3

/-- The Gray values of `n` symbols from their bit pairs (R99): 00 gives 0, 01 gives 1, 11 gives 2 and 10 gives 3. The same map leads
back. -/
def grayMap (n x : Nat) : Nat := x ^^^ (x / 2 &&& lowBits n)

/-- The level of a Gray value (R99): −3, −1, +1, +3. -/
def levelOf (v : Nat) : Int := 2 * (v : Int) - 3

/-- Every level of `n` symbols negated (R101), which inverts the first bit of each pair. -/
def negateLevels (n v : Nat) : Nat := v ^^^ (4 ^ n - 1)

/-- The sum modulo 4 of `n` symbols, one by one. -/
def addSymbols (n a b : Nat) : Nat := (a ^^^ b) ^^^ 2 * (a &&& b &&& lowBits n)

/-- Precodes `n` Gray values from the state `p` (R100): p_n = (v_n − p_(n−1)) mod 4. The result ends with the new state. -/
def precode (v : Nat) : Nat → Nat → Nat
  | 0, p => p
  | n + 1, p =>
    let out := precode v n p
    4 * out + (v / 4 ^ n + 4 - out % 4) % 4

/-- The low `n` symbols of `x` in the opposite order. -/
def flipSymbols : Nat → Nat → Nat
  | 0, _ => 0
  | n + 1, x => x % 4 * 4 ^ n + flipSymbols n (x / 4)

/-- What a transmitter puts on its pair for `n` bit pairs (R99 to R101): its Gray values, precoded from the state `p` when it precodes,
negated when the polarity is inverted; with the precoder's state after them. -/
def transmit (pre inv : Bool) (p n x : Nat) : Nat × Nat :=
  let v := grayMap n x
  let w := if pre then precode (flipSymbols n v) n p % 4 ^ n else v
  (if inv then negateLevels n w else w, if n = 0 then p else w % 4)

/-- What a receiver makes of `n` symbols of a pair (R99 to R101): v_n = (p_n + p_(n−1)) mod 4 where the lane is precoded; `p` is the symbol
before them. -/
def receive (pre inv : Bool) (p n x : Nat) : Nat × Nat :=
  let w := if inv then negateLevels n x else x
  let v := if pre then addSymbols n w (p * 4 ^ (n - 1) + w / 4) else w
  (grayMap n v, if n = 0 then p else w % 4)

/-! ### Training frames (R107) -/

/-- The low `n` bits of `v` with bit 0 first. -/
def bitsFirst0 : Nat → Nat → Nat
  | 0, _ => 0
  | n + 1, v => v % 2 * 2 ^ n + bitsFirst0 n (v / 2)

/-- CRC-16 with polynomial 0x1021 over `n` bits, the first sent the most significant, from the value `crc`. -/
def crc16From (x : Nat) : Nat → Nat → Nat
  | 0, crc => crc
  | n + 1, crc =>
    let c := crc * 2 % 65536
    crc16From x n (if bitN crc 15 != bitN x n then c ^^^ 0x1021 else c)

/-- The check of a training frame: over the 32 control bits and then the 32 status bits, bit 0 first. -/
def trainingCheck (control status : Nat) : Nat :=
  crc16From (bitsFirst0 32 control * 2 ^ 32 + bitsFirst0 32 status) 64 0xFFFF

/-- `n` bits, the first the most significant, each as 8 symbols: 0 at level −3 and 1 at level +3. -/
def spreadBits (x : Nat) : Nat → Nat
  | 0 => 0
  | n + 1 => (if bitN x n then 65535 else 0) * 65536 ^ n + spreadBits x n

/-- `n` further bits of a linear-feedback register of `w` bits whose new bit is the parity of its bits in `taps`, appended to the bits
`acc` (notes/assumptions/46.md). -/
def prbsRun (w taps : Nat) : Nat → Nat → Nat → Nat × Nat
  | 0, st, acc => (acc, st)
  | n + 1, st, acc =>
    let b := popcount w (st &&& taps) % 2
    prbsRun w taps n ((2 * st + b) % 2 ^ w) (2 * acc + b)

/-- PRBS13 (R107): the parity of the bits 13, 12, 2 and 1 back. -/
def prbs13 (n st : Nat) : Nat × Nat := prbsRun 13 0x1803 n st 0

/-- PRBS31 (R125): the parity of the bits 31 and 28 back. -/
def prbs31 (n st : Nat) : Nat × Nat := prbsRun 31 0x48000000 n st 0

/-- The seed of a lane's training pattern at entry to TRAIN (R107). -/
def trainingSeed (l : Nat) : Nat := if l = 0 then 0x1ACE else 0x0B3D

/-- Symbols of a training frame (R107). -/
def trainingLen : Nat := 8192

/-- A training frame before polarity (R107): marker, control, status and check as levels, then the pattern from the generator's state `st`,
precoded from 0 while PRECODE_ON; with the generator's state after it. -/
def trainingWord (control status st : Nat) : Nat × Nat :=
  let head := (4 ^ 32 - 1) * 4 ^ 32
  let words := spreadBits (bitsFirst0 32 control * 2 ^ 32 + bitsFirst0 32 status) 64
  let check := spreadBits (trainingCheck control status) 16
  let (bits, st) := prbs13 14976 st
  let pattern := (transmit (bitN status 6) false 0 7488 bits).1
  (((head * 4 ^ 512 + words) * 4 ^ 128 + check) * 4 ^ 7488 + pattern, st)

/-! ### The code of frames (R136) -/

/-- Multiplies by α in GF(2^10) with x^10 + x^3 + 1. -/
def gfTimesAlpha (a : Nat) : Nat := if bitN a 9 then (2 * a) % 1024 ^^^ 9 else 2 * a

/-- The product of two elements. -/
def gfMul (a b : Nat) : Nat := (List.range 10).foldr (fun i v => gfTimesAlpha v ^^^ (if bitN b i then a else 0)) 0

/-- α^n. -/
def gfAlpha : Nat → Nat
  | 0 => 1
  | n + 1 => gfTimesAlpha (gfAlpha n)

/-- a^(2^n), by squaring. -/
def gfSquares (a : Nat) : Nat → Nat
  | 0 => a
  | n + 1 => gfSquares (gfMul a a) n

/-- The inverse of a non-zero element: a^1022 = a^2 · a^4 ⋯ a^512. -/
def gfInv (a : Nat) : Nat := ((List.range 9).map (fun i => gfSquares a (i + 1))).foldl gfMul 1

/-- A polynomial times (x − r): coefficients from the highest degree down. -/
def gfPolyTimesRoot (p : List Nat) (r : Nat) : List Nat := List.zipWith (· ^^^ ·) (p ++ [0]) (0 :: p.map (gfMul r))

/-- The generator g(x) of degree 48, without its leading 1: its coefficients from degree 47 down. -/
def rsGenerator : List Nat := (((List.range 48).map gfAlpha).foldl gfPolyTimesRoot [1]).drop 1

/-- Elements as one number of 10-bit symbols, the first the most significant. -/
def packSymbols (l : List Nat) : Nat := l.foldl (fun v x => 1024 * v + x) 0

/-- The generator times α^i, for the bits of a symbol. -/
def rsRows : List Nat := (List.range 10).map (fun i => packSymbols (rsGenerator.map (gfMul (gfAlpha i))))

/-- The remainder modulo g(x) after one more symbol. -/
def rsStep (rows : List Nat) (r d : Nat) : Nat :=
  let f := r / 1024 ^ 47 ^^^ d
  (rows.zip (List.range 10)).foldl (fun v e => if bitN f e.2 then v ^^^ e.1 else v) (r * 1024 % 1024 ^ 48)

/-- The remainder of `n` symbols times x^48. -/
def rsRemainder (rows : List Nat) (x : Nat) : Nat → Nat → Nat
  | 0, r => r
  | n + 1, r => rsRemainder rows x n (rsStep rows r (x / 1024 ^ n % 1024))

/-- The 480 parity bits of 4,400 data bits (R136). -/
def rsParity (data : Nat) : Nat := rsRemainder rsRows data 440 0

/-- The codeword of 4,400 data bits: 488 symbols. -/
def rsEncode (data : Nat) : Nat := data * 2 ^ 480 + rsParity data

/-- The value at `x` of a polynomial, its coefficients from the highest degree down. -/
def gfEval (p : List Nat) (x : Nat) : Nat := p.foldl (fun v c => gfMul v x ^^^ c) 0

/-- The 488 symbols of a word, the first that of the highest degree. -/
def wordSymbols (w : Nat) : List Nat := (List.range 488).map (fun i => w / 1024 ^ (487 - i) % 1024)

/-- The syndromes S_0 to S_47 of a word. -/
def rsSyndromes (w : Nat) : List Nat := (List.range 48).map (fun j => gfEval (wordSymbols w) (gfAlpha j))

/-- A step of the search for the error locator (coefficients from degree 0 up): the locator, the one before its last change of length, its
length, the distance since, and the discrepancy then. -/
def locatorStep (syn : List Nat) (n : Nat) (p : List Nat × List Nat × Nat × Nat × Nat) : List Nat × List Nat × Nat × Nat × Nat :=
  let (c, b, len, m, bd) := p
  let d := (List.range (len + 1)).foldl (fun v i => v ^^^ gfMul (nth 0 c i) (nth 0 syn (n - i))) 0
  if d = 0 then (c, b, len, m + 1, bd)
  else
    let t := (List.replicate m 0 ++ b).map (gfMul (gfMul d (gfInv bd)))
    let k := max c.length t.length
    let c' := List.zipWith (· ^^^ ·) (padTo k 0 c) (padTo k 0 t)
    if 2 * len ≤ n then (c', c, n + 1 - len, 1, d) else (c', b, len, m + 1, bd)

/-- The error locator of a list of syndromes, and its degree. -/
def errorLocator (syn : List Nat) : List Nat × Nat :=
  let (c, _, len, _, _) := (List.range 48).foldl (fun p n => locatorStep syn n p) ([1], [1], 0, 1, 1)
  (c, len)

/-- The places, as powers of x, at which a locator says that symbols are wrong. -/
def errorPlaces (c : List Nat) : List Nat :=
  (List.range 488).filter (fun k => gfEval c.reverse (gfInv (gfAlpha k)) == 0)

/-- The value of the error at place `k` (Forney): X · Ω(1/X) / Λ'(1/X), for X = α^k. -/
def errorValue (syn c : List Nat) (k : Nat) : Nat :=
  let xi := gfInv (gfAlpha k)
  let om := (List.range 48).map (fun n => (List.range (n + 1)).foldl (fun v i => v ^^^ gfMul (nth 0 c i) (nth 0 syn (n - i))) 0)
  let der := (List.range c.length).map (fun i => if i % 2 = 0 then nth 0 c (i + 1) else 0)
  gfMul (gfMul (gfAlpha k) (gfEval om.reverse xi)) (gfInv (gfEval der.reverse xi))

/-- A word with the errors at the places `ks` taken out. -/
def correctWord (w : Nat) (syn c ks : List Nat) : Nat := ks.foldl (fun v k => v ^^^ errorValue syn c k * 1024 ^ k) w

/-- Decodes a word of 488 symbols (R136): its 4,400 data bits and the number of symbols corrected, at most 24; none when no codeword lies
within 24 symbols of it. -/
def rsDecode (w : Nat) : Option (Nat × Nat) :=
  let data := w / 2 ^ 480
  if rsParity data = w % 2 ^ 480 then some (data, 0)
  else
    let syn := rsSyndromes w
    let (c, len) := errorLocator syn
    let ks := errorPlaces c
    let v := correctWord w syn c ks
    let data := v / 2 ^ 480
    if len ≤ 24 ∧ ks.length = len ∧ rsParity data = v % 2 ^ 480 then some (data, len) else none

/-! ### The layout of a frame (R134 to R138) -/

/-- The marker (R135). -/
def frameMarker : Nat := 0x3D9AE2C5

/-- Symbols of a frame and of a filler word. -/
def frameLen : Nat := 2456
def fillerLen : Nat := 16

/-- The 48 bits of a header (R137). -/
def headerBits (f : Frame) : Nat :=
  f.fseq % 2 ^ 24 * 2 ^ 24 + f.typ % 16 * 2 ^ 20 + f.tset % 64 * 2 ^ 14 + f.vlast % 64 * 2 ^ 8 + b2n f.first * 128 + b2n f.last * 64

/-- Numbers of `k` bits one after another, the first the most significant. -/
def packBits (k : Nat) (l : List Nat) : Nat := l.foldl (fun v x => v * 2 ^ k + x % 2 ^ k) 0

/-- `n` numbers of `k` bits taken apart. -/
def unpackBits (k n x : Nat) : List Nat := (List.range n).map (fun i => x / 2 ^ (k * (n - 1 - i)) % 2 ^ k)

/-- The 4,400 data bits of a frame (R135 to R138): header, 64 vectors with channel 0 first, and the control slot with E0 first. -/
def frameData (f : Frame) : Nat :=
  (headerBits f * 2 ^ 4096 + packBits 64 (f.payload.map (flipSymbols 32))) * 2 ^ 256 + packBits 64 f.entries

/-- The frame that 4,400 data bits spell; its reserved header bits are ignored. -/
def frameOfData (x : Nat) : Frame :=
  let h := x / 2 ^ 4352
  { fseq := bitsN h 47 24, typ := bitsN h 23 20, tset := bitsN h 19 14, vlast := bitsN h 13 8, first := bitN h 7, last := bitN h 6,
    payload := (unpackBits 64 64 (x / 2 ^ 256 % 2 ^ 4096)).map (flipSymbols 32), entries := unpackBits 64 4 (x % 2 ^ 256) }

/-- The 4,912 bits of a frame: marker and codeword (R134, R135). -/
def frameBits (f : Frame) : Nat := frameMarker * 2 ^ 4880 + rsEncode (frameData f)

/-! ### Filler words (R140, R141) -/

/-- A filler word of a kind with its byte. -/
def fillerOf (kind data : Nat) : Nat :=
  0x5AC30000 + kind % 16 * 4096 + data % 256 * 16 + (kind % 16 ^^^ data / 16 % 16 ^^^ data % 16 ^^^ 10)

/-- The IDLE filler. -/
def idleFiller : Nat := fillerOf 0 0

end Sys2Proof.Machine
end

