-- ==== Sys2Proof/Machine/Lanes.lean ====
section
/-! DEFINITION. Companion lanes (R99 to R132): equaliser taps, training, the bring-up states, the capability exchange, losing a
lane, loopbacks and eye scans, with the filler words and codewords that a lane receives (R139 to R144). -/

namespace Sys2Proof.Machine

open Sys2Proof

/-! ### Lanes -/

/-- The number of a lane in its group: 0 for A, 1 for B. -/
def laneNum : LaneId → Nat
  | .a => 0
  | .b => 1

/-- The state of lane `l` of group `g` beside its registers. -/
def laneOf (s : State) (g l : Nat) : Lane := tget (fun _ => {}) s.lanes (2 * g + l)

/-- Changes a lane. -/
def modLane (g l : Nat) (f : Lane → Lane) (s : State) : State :=
  { s with lanes := tset (fun _ => {}) s.lanes (2 * g + l) (f (laneOf s g l)) }

/-- The state code of a lane (R131): 0 DETECT, 1 TRAIN, 2 LOCK, 3 EXCHANGE, 4 ACTIVE. -/
def laneState (s : State) (g l : Nat) : Nat := rdFld s (laneStatus g l) 2 0

/-- Sets the state code of a lane. -/
def setLaneState (g l code : Nat) (s : State) : State := setFld (laneStatus g l) 2 0 code s

/-- Registers of a lane. -/
def xctrlOf (g l : Nat) : Nat := if l = 0 then Reg.LNK_PHY_XCTRL_A g else Reg.LNK_PHY_XCTRL_B g
def txffeOf (g l : Nat) : Nat := if l = 0 then Reg.LNK_TXFFE_A g else Reg.LNK_TXFFE_B g
def rxffeOf (g l : Nat) : Nat := if l = 0 then Reg.LNK_RXFFE_A g else Reg.LNK_RXFFE_B g
def txffeManOf (g l : Nat) : Nat := if l = 0 then Reg.LNK_TXFFE_MAN_A g else Reg.LNK_TXFFE_MAN_B g
def capOf (g l i : Nat) : Nat := if l = 0 then Reg.LNK_CAP_A g i else Reg.LNK_CAP_B g i
def uncorrOf (g l : Nat) : Nat := if l = 0 then Reg.LNK_FR_UNCORR_A g else Reg.LNK_FR_UNCORR_B g
def corrOf (g l : Nat) : Nat := if l = 0 then Reg.LNK_FR_CORR_A g else Reg.LNK_FR_CORR_B g
def bertErrOf (g l : Nat) : Nat := if l = 0 then Reg.LNK_BERT_ERR_A g else Reg.LNK_BERT_ERR_B g
def bertUnitsOf (g l : Nat) : Nat := if l = 0 then Reg.LNK_BERT_UNITS_A g else Reg.LNK_BERT_UNITS_B g

/-- The loopback asked for on a lane. -/
def loopbackOf (s : State) (g l : Nat) : Nat := rdFld s (xctrlOf g l) 10 8

/-- LANEMAP of a group. -/
def laneMap (s : State) (g : Nat) : LaneMap := tget (fun _ => {}) s.img.active.lanes g

/-! ### The pair of a lane -/

/-- Whether the polarity of a lane's transmitter and of its receiver is declared inverted (R32, R101). -/
def txInverted (s : State) (g l : Nat) : Bool := bitN (laneMap s g).lflags (1 + 2 * l)
def rxInverted (s : State) (g l : Nat) : Bool := bitN (laneMap s g).lflags (2 + 2 * l)

/-- Whether a near loopback leads the transmitter to the own receiver, with the TX pair squelched (R123). -/
def nearLoop (s : State) (g l : Nat) : Bool := loopbackOf s g l == 1 || loopbackOf s g l == 2

/-- Whether BERT runs on a lane (R125): enabled, in a loopback that has reached LOCK. -/
def bertRuns (s : State) (g l : Nat) : Bool := rdBit s (Reg.LNK_BERT_CTRL g) l && loopbackOf s g l != 0 && laneState s g l == 2

/-- `n` symbols stand on the TX pair, or on none while it is squelched. -/
def putOut (g l n v : Nat) (s : State) : State :=
  modLane g l (fun x => { x with out := if nearLoop s g l then {} else { len := n, val := v } }) s

/-- A lane in DETECT or TRAIN sends its next training frame (R107, R112), unless it is squelched (R113, R115). -/
def sendTraining (g l : Nat) (s : State) : State :=
  let x := laneOf s g l
  if x.squelched || !s.pwr.core || !s.img.loaded || !(groupEnabled s g) || s.pwr.state == .detached || decide (2 ≤ laneState s g l) then s
  else
    let (v, st) := trainingWord x.ctl.toNat x.stat.toNat x.prbs
    putOut g l trainingLen (if txInverted s g l then negateLevels trainingLen v else v) (modLane g l (fun x => { x with prbs := st }) s)

/-! ### Equaliser taps -/

/-- The three coefficients c(−1), c(0), c(+1) of a tap word. -/
def tapsOf (w : Word) : Int × Int × Int := (sext 8 (fld w 7 0), sext 8 (fld w 15 8), sext 8 (fld w 23 16))

/-- The word of three coefficients. -/
def tapWord (t : Int × Int × Int) : Word := wd (twos 8 t.1 + 256 * twos 8 t.2.1 + 65536 * twos 8 t.2.2)

/-- The limits of R103. -/
def tapsOk (t : Int × Int × Int) : Bool :=
  let (pre, main, post) := t
  decide (-16 ≤ pre) && decide (pre ≤ 0) && decide (24 ≤ main) && decide (main ≤ 64) && decide (-24 ≤ post) && decide (post ≤ 0) &&
  decide (pre.natAbs + main + post.natAbs ≤ 64) && decide (8 ≤ main - pre.natAbs - post.natAbs)

/-- The presets of R104. -/
def presetTaps (n : Nat) : Int × Int × Int :=
  if n = 2 then (-4, 52, -8) else if n = 3 then (-8, 44, -12) else (0, 64, 0)

/-- One coefficient changed: 0 pre, 1 main, 2 post. -/
def moveTap (i : Nat) (d : Int) (t : Int × Int × Int) : Int × Int × Int :=
  if i = 0 then (t.1 + d, t.2.1, t.2.2) else if i = 1 then (t.1, t.2.1 + d, t.2.2) else (t.1, t.2.1, t.2.2 + d)

/-- A request (1 increment, 2 decrement) on coefficient `i`: the taps and the answer (1 UPDATED, 2 AT_MIN, 3 AT_MAX) under
R105. -/
def applyTap (fixed : Bool) (i req : Nat) (t : Int × Int × Int) : (Int × Int × Int) × Nat :=
  let n := moveTap i (if req = 1 then 1 else -1) t
  if !fixed && tapsOk n then (n, 1) else (t, if req = 1 then 3 else 2)

/-- The answer to the request field of coefficient `i` while its status is `st` (R105, R110). -/
def answerTap (fixed : Bool) (control st i : Nat) (t : Int × Int × Int) : (Int × Int × Int) × Nat :=
  let req := bitsN control (2 * i + 1) (2 * i)
  if req = 0 ∨ req = 3 then (t, 0)
  else if st ≠ 0 then (t, st)
  else applyTap fixed i req t

/-- What the transmitter answers to a control word: its taps and the three status fields (R105, R108, R110). -/
def answerTaps (fixed : Bool) (control stat : Nat) (t : Int × Int × Int) : (Int × Int × Int) × Nat :=
  let preset := bitsN control 7 6
  if preset ≠ 0 then (if fixed then t else presetTaps preset, 0x15)
  else
    let (t, a) := answerTap fixed control (bitsN stat 1 0) 0 t
    let (t, b) := answerTap fixed control (bitsN stat 3 2) 1 t
    let (t, c) := answerTap fixed control (bitsN stat 5 4) 2 t
    (t, a + 4 * b + 16 * c)

/-- The partner's taps as they are tracked from an answered request (R131). -/
def trackTap (ctl status i : Nat) (t : Int × Int × Int) : Int × Int × Int :=
  if bitsN status (2 * i + 1) (2 * i) = 1 then
    (match bitsN ctl (2 * i + 1) (2 * i) with | 1 => moveTap i 1 t | 2 => moveTap i (-1) t | _ => t)
  else t

/-! ### Bring-up -/

/-- Whether the lanes of a group may leave DETECT (R115). -/
def laneMayTrain (s : State) (g l : Nat) : Bool :=
  refPermitted s && s.pwr.core && s.img.loaded && groupEnabled s g && s.pwr.state != .detached && !(laneOf s g l).squelched &&
  !(rdBit s (laneStatus g l) 6) && !(isFenced 0x10 (2 * g + l) s)

/-- The LANE_ID byte that this end sends (R109). -/
def laneIdByte (g l : Nat) : Nat := 2 * g + l

/-- The lane enters DETECT (R112): PRESET1, control word 0, scans end without a report (R122). -/
def enterDetect (g l : Nat) (s : State) : State :=
  let s := setLaneState g l 0 s
  let a := laneStatus g l
  let s := setFld a 10 8 (if loopbackOf s g l = 3 then 0 else loopbackOf s g l) (setBit a 5 false (setBit a 4 false s))
  let s := setReg (rxffeOf g l) (tapWord (presetTaps 1)) (setReg (txffeOf g l) (tapWord (presetTaps 1)) s)
  let s := setBit (Reg.LNK_FR_STATUS g) l false s
  modLane g l (fun x => { x with ctl := 0, stat := wd (256 * laneIdByte g l), ready := false, partnerReady := 0, further := 0,
                                 presetSent := false, goodRun := 0, badWords := 0, recent := [], eyeIn := none, eyeOut := none,
                                 eyeStop := none, serial := 0, capRec := [], capRun := 0, out := {} }) s

/-- The lane enters TRAIN (R106, R107, R112): manual taps if set, its first requests, and its pattern from the seed. With manual taps and no
PARTNER_PRESET the preset requested once is PRESET2 (DESIGN CHOICE, notes/assumptions/47.md). -/
def enterTrain (g l : Nat) (s : State) : State :=
  let x := rdN s (xctrlOf g l)
  let s := setLaneState g l 1 s
  let s := if bitN x 0 then setReg (txffeOf g l) (tapWord (tapsOf (rd s (txffeManOf g l)))) s else s
  let preset := if bitsN x 3 2 = 0 then 2 else bitsN x 3 2
  let ctl := 64 * preset + 256 * b2n (bitsN x 7 6 == 1) + 1024 * b2n (bitsN x 10 8 == 3)
  let pre := bitsN x 5 4 == 1
  let s := setBit (laneStatus g l) 4 pre s
  modLane g l (fun y => { y with ctl := wd ctl, stat := wd (256 * laneIdByte g l + 64 * b2n pre), presetSent := true,
                                 prbs := trainingSeed l }) s

/-- The frame counter and the merge of a group start (R145). -/
def startLink (g : Nat) (s : State) : State :=
  let s := setRegN (Reg.LNK_FR_RXSEQ g) 0 (setRegN (Reg.LNK_FR_TXSEQ g) 0 s)
  modLink g (fun k => { k with started := true, next := none, buf := [], seenA := none, seenB := none, lostSeen := [], lostCum := 0, arrivals := [],
                               mapOut := [], gap := 0, released := 0xFFFFFF }) s

/-- The lane enters LOCK (R100, R112, R145): the precoders of both directions begin from 0. -/
def enterLock (g l : Nat) (s : State) : State :=
  let s := if laneState s g (1 - l) < 2 then startLink g s else s
  modLane g l (fun x => { x with goodRun := 0, txP := 0, rxP := 0 }) (setLaneState g l 2 s)

/-- Holds a lane squelched in DETECT with GAVE_UP (R113, R120); R61 may have raised the fault already at the load since which no lane of
the group was ACTIVE. -/
def giveUp (g l : Nat) (s : State) : State :=
  let s := if s.img.lateGroups.contains g then s else raise (mkFault 2 0x10 (2 * g + l) 0x07) s
  let s := orReg (Reg.LNK_PHY_EVENTS g) (16 * 2 ^ l) (setBit (laneStatus g l) 6 true s)
  modLane g l (fun x => { x with squelched := true, out := {} }) s

/-- A failed attempt (R113): the lane squelches in DETECT, and gives up at the third in a row. -/
def fallBack (g l why : Nat) (s : State) : State :=
  let n := rdFld s (laneStatus g l) 31 24 + 1
  let s := enterDetect g l s
  let s := setFld (laneStatus g l) 31 24 n (setFld (laneStatus g l) 23 16 why s)
  let s := modLane g l (fun x => { x with squelched := true }) s
  if 3 ≤ n then giveUp g l s else s

/-! ### Losing a lane -/

/-- Whether the step is still in a stage-late hold (R207, R254). -/
def stageLate (s : State) : Bool := match s.seq.step with | some st => st.steptime.isNone | none => false

/-- The fault of a lane that leaves ACTIVE without a command (R119); a stage-late hold counts as HOLD (R254). -/
def laneLossFault (s : State) (g l : Nat) : Option FaultRec :=
  if laneActive s g (1 - l) then some (mkFault 1 0x10 (2 * g + l) 0x08)
  else match s.pwr.state with
    | .run => some (linkFault (if stageLate s then 2 else 3) g 0x08 0 0)
    | .hold => some (linkFault 2 g 0x08 0 0)
    | .standby => some (linkFault 2 g 0x08 0 0)
    | _ => none

/-- One frame period of a group in reference periods, rounded up: 64 × n × 625/256 ps. -/
def framePeriods (s : State) (g : Nat) : Nat := ceilDiv (periodOf s g) 64

/-- The report of a lane that leaves ACTIVE (R119, R122): in RUN the C1 of a lane whose twin stays waits one frame period, and the
loss of the twin within it leaves the one C3 of the group. -/
def reportLoss (g l : Nat) (s : State) : State :=
  match laneLossFault s g l with
  | none => s
  | some f =>
    if f.cls = 1 && inRun s then modLink g (fun k => { k with lossNote := some (l, s.time + framePeriods s g) }) s
    else raise f (modLink g (fun k => { k with lossNote := none }) s)

/-- The frame period after a lane's loss has passed with its twin ACTIVE: the C1 is raised (R119, R122). -/
def lossDue (g : Nat) (s : State) : State :=
  match (linkOf s g).lossNote with
  | some (l, t) =>
    if t ≤ s.time then raise (mkFault 1 0x10 (2 * g + l) 0x08) (modLink g (fun k => { k with lossNote := none }) s) else s
  | none => s

/-- A group left without an ACTIVE lane (R119, R162, R273): its count is no longer aligned, its frames are written off and its
commits are answered. A stage-late hold notes it (R254). -/
def groupDown (g : Nat) (s : State) : State :=
  if groupActive s g then s
  else
    let s := if groupInStep s g then orReg (Reg.LNK_FR_EVENTS g) 4 (writeOffGroup g s) else s
    let s := if groupInStep s g && stageLate s then
        { s with seq := { s.seq with step := s.seq.step.map (fun st => { st with laneLost := true }) } } else s
    let s := modLink g (fun k => { k with idleEntries := [], creads := [], mapCursor := none, mapQ := [], relin := [], mapOut := [],
                                          commitFseq := none, announced := none, missed := [], ctrl := [] }) s
    finishCommits g (alignAgain g s)

/-- What leaving ACTIVE does to the link, whatever the cause: the event, the merge, and the group if it was the last lane. -/
def leaveActive (g l why : Nat) (s : State) : State :=
  let s := orReg (Reg.LNK_PHY_EVENTS g) (4 ^ l) s
  let s := setFld (laneStatus g l) 23 16 why (enterDetect g l s)
  groupDown g (leaveMerge g l s)

/-- Departures within the last 60 s, in reference periods. -/
def recentDepartures (s : State) (g l : Nat) : List Nat := (laneOf s g l).departures.filter (fun t => decide (s.time < t + 6000000000))

/-- A lane leaves ACTIVE without a command (R119, R120). -/
def loseLane (g l why : Nat) (s : State) : State :=
  let s := reportLoss g l s
  let ds := recentDepartures s g l ++ [s.time]
  let s := leaveActive g l why (modLane g l (fun x => { x with departures := ds }) s)
  if 4 ≤ ds.length then giveUp g l s else s

/-- A command takes a lane to DETECT without a fault (R119, R121). LAST_EXIT takes the reason where the lane was past DETECT or held with
GAVE_UP (DESIGN CHOICE, notes/assumptions/47.md). -/
def toDetect (g l why : Nat) (s : State) : State :=
  let st := laneState s g l
  if st = 4 then leaveActive g l why s
  else if st = 0 && !(rdBit s (laneStatus g l) 6) then enterDetect g l s
  else setFld (laneStatus g l) 23 16 why (enterDetect g l s)

/-- A RETRAIN, an image load or a reset takes a lane to DETECT and lets it begin anew (R113): GAVE_UP and the failed attempts are cleared,
and a squelch ends at once (DESIGN CHOICE, notes/assumptions/47.md). -/
def commandDetect (g l why : Nat) (s : State) : State :=
  let s := setFld (laneStatus g l) 31 24 0 (setBit (laneStatus g l) 6 false (toDetect g l why s))
  sendTraining g l (modLane g l (fun x => { x with squelched := false }) s)

/-- A write of an expert register takes a lane to DETECT (R119, R131); a squelch and GAVE_UP stay (R113). -/
def writeDetect (g l why : Nat) (s : State) : State := sendTraining g l (toDetect g l why s)

/-- LANE_SIGNAL_LOST: signal is lost for 1 µs (R112, R113, R119). -/
def signalLost (g l : Nat) (s : State) : State :=
  let s := setBit (laneStatus g l) 3 false s
  let st := laneState s g l
  if st = 0 then s
  else if st = 4 then loseLane g l 0x08 s
  else sendTraining g l (setFld (laneStatus g l) 23 16 0x08 (enterDetect g l s))

/-- Frame alignment is lost (R139): an exit from ACTIVE under R112. -/
def loseAlignment (g l : Nat) (s : State) : State :=
  if rdBit s (Reg.LNK_FR_STATUS g) l then
    let s := orReg (Reg.LNK_FR_EVENTS g) (2 ^ l) (setBit (Reg.LNK_FR_STATUS g) l false s)
    let s := modLane g l (fun x => { x with goodRun := 0, badWords := 0, recent := [] }) s
    if laneState s g l = 4 then loseLane g l 0x09 s else s
  else s

/-! ### DETECT and TRAIN -/

/-- LANE_DETECT_EXIT (R101, R112, R115): signal and markers are found; `inverted` says whether the markers are inverted at the pins,
which an inversion declared in LANEMAP makes upright. -/
def detectExit (g l : Nat) (inverted : Bool) (s : State) : State :=
  let s := setBit (laneStatus g l) 3 true s
  if laneState s g l ≠ 0 then s
  else if inverted != rxInverted s g l then orReg (Reg.LNK_PHY_EVENTS g) 128 s
  else if laneMayTrain s g l then sendTraining g l (enterTrain g l s)
  else s

/-- The requests that this end sends next (R106, R110): an answered one returns to hold, and the receiver's wish `steer` fills
fields at hold when requests are automatic. -/
def nextControl (auto : Bool) (ctl status steer : Nat) : Nat :=
  if bitsN ctl 7 6 ≠ 0 then
    if bitsN status 1 0 ≠ 0 ∧ bitsN status 3 2 ≠ 0 ∧ bitsN status 5 4 ≠ 0 then putBitsN ctl 7 6 0 else ctl
  else
    (List.range 3).foldl (fun (c : Nat) (i : Nat) =>
      let req := bitsN c (2 * i + 1) (2 * i)
      let ans := bitsN status (2 * i + 1) (2 * i)
      let wish := bitsN steer (2 * i + 1) (2 * i)
      if req ≠ 0 then (if ans ≠ 0 then putBitsN c (2 * i + 1) (2 * i) 0 else c)
      else if auto && ans == 0 && (wish == 1 || wish == 2) then putBitsN c (2 * i + 1) (2 * i) wish
      else c) ctl

/-- The partner's taps after its answers to the requests of `ctl`. -/
def trackTaps (ctl status : Nat) (t : Int × Int × Int) : Int × Int × Int :=
  if bitsN ctl 7 6 ≠ 0 then (if bitsN status 1 0 = 1 then presetTaps (bitsN ctl 7 6) else t)
  else trackTap ctl status 2 (trackTap ctl status 1 (trackTap ctl status 0 t))

/-- The handshake counts of R112: RX_READY of the partner in 3 consecutive frames, then 16 further frames. -/
def trainProgress (g l : Nat) (partner : Bool) (s : State) : State :=
  let x := laneOf s g l
  if 3 ≤ x.partnerReady && x.ready then
    let s := modLane g l (fun x => { x with further := x.further + 1 }) s
    if 16 ≤ x.further + 1 then enterLock g l s else s
  else modLane g l (fun x => { x with partnerReady := if partner then x.partnerReady + 1 else (if 3 ≤ x.partnerReady then x.partnerReady else 0) }) s

/-- A training frame whose check holds (R105 to R111). -/
def trainingFrame (g l control status steer : Nat) (s : State) : State :=
  let x := laneOf s g l
  let c := rdN s (xctrlOf g l)
  let manual := bitN c 0
  -- this end's transmitter
  let (t, st) := answerTaps manual control x.stat.toNat (tapsOf (rd s (txffeOf g l)))
  let pre := match bitsN c 5 4 with | 1 => true | 2 => false | _ => bitN control 8
  let s := setBit (laneStatus g l) 4 pre (setReg (txffeOf g l) (tapWord t) s)
  -- this end's receiver
  let ctl := x.ctl.toNat
  let s := setReg (rxffeOf g l) (tapWord (trackTaps ctl status (tapsOf (rd s (rxffeOf g l))))) s
  let s := setBit (laneStatus g l) 5 (bitN status 6) s
  let s := if bitN status 7 && bitN ctl 10 then setFld (laneStatus g l) 10 8 3 s else s
  let ctl := nextControl (!manual && bitsN c 3 2 == 0) ctl status steer
  let s := modLane g l (fun x => { x with ctl := wd ctl, stat := wd (256 * laneIdByte g l + 64 * b2n pre + st) }) s
  trainProgress g l (bitN control 9) s

/-- TRAINING_FRAME_RX: the words of a received frame, or of the lane's own in a near loopback (R123); a frame whose check fails, or
that falls outside TRAIN, is ignored (R107). The lane sends its own next frame meanwhile. -/
def trainingRx (g l control status check steer : Nat) (s : State) : State :=
  let x := laneOf s g l
  let s := if laneState s g l ≠ 1 then s
    else if nearLoop s g l then trainingFrame g l x.ctl.toNat x.stat.toNat steer s
    else if check = trainingCheck control status then trainingFrame g l control status steer s
    else s
  sendTraining g l s

/-- RX_READY_SET (R110, R111): precoding is asked for when the first DFE tap is at least 0.35 of the main cursor, and is not
changed afterwards. -/
def rxReady (g l errors dfeTap mainCursor : Nat) (s : State) : State :=
  let x := laneOf s g l
  if laneState s g l = 1 && decide (errors ≤ 16) && !x.ready then
    let mode := rdFld s (xctrlOf g l) 7 6
    let want := if mode = 1 then true else if mode = 2 then false else decide (35 * mainCursor ≤ 100 * dfeTap)
    let ctl := putBitsN (putBitsN x.ctl.toNat 8 8 (b2n want)) 9 9 1
    modLane g l (fun x => { x with ready := true, ctl := wd ctl }) s
  else s

/-- The timeouts of TRAIN, LOCK and EXCHANGE (R112, R113); a loopback stays in LOCK (R124). -/
def stateTimeout (g l : Nat) (s : State) : State :=
  match laneState s g l with
  | 1 => fallBack g l 0x01 s
  | 2 => if loopbackOf s g l = 0 then fallBack g l 0x02 s else s
  | 3 => fallBack g l 0x03 s
  | _ => s

/-- The squelch ends and the lane starts again from DETECT, unless it has given up (R113). -/
def squelchEnd (g l : Nat) (s : State) : State :=
  if rdBit s (laneStatus g l) 6 then s else sendTraining g l (modLane g l (fun x => { x with squelched := false }) s)

/-! ### The capability exchange -/

/-- The modes permitted to the channels of a group (R117). -/
def modesPermitted (s : State) (g : Nat) : Nat :=
  (List.range 32).foldl (fun m k => m ||| ((chanRole s (32 * g + k)).permit % 128)) 0

/-- The SERIAL of a record. -/
def recordSerial (r : List Byte) : Nat := ofLeBytes ((r.drop 0x10).take 8)

/-- The first check of R117 that a record fails, as its exit reason. -/
def exchangeReason (s : State) (g l : Nat) (r : List Byte) (skew : Int) : Option Nat :=
  let f := fun o n => ofLeBytes ((r.drop o).take n)
  let letter := (if bitN (laneMap s g).lflags 0 then 1 - l else l)
  let twin := laneState s g (1 - l)
  if f 2 1 ≠ (laneMap s g).compClass then some 0x04
  else if f 3 1 % 2 ≠ letter ∨ f 3 1 / 2 % 32 ≠ g then some 0x06
  else if f 4 2 ≠ 0x0100 ∨ f 0xC 1 < 34 ∨ periodOf s g < f 8 4 then some 0x0D
  else if modesPermitted s g &&& f 6 2 ≠ modesPermitted s g then some 0x0D
  else if 3 ≤ twin ∧ (laneOf s g (1 - l)).serial ≠ 0 ∧ (laneOf s g (1 - l)).serial ≠ recordSerial r + 1 then some 0x05
  else if 3 ≤ twin ∧ 20000 < skew.natAbs then some 0x07
  else none

/-- Whether a record is intact (R116). -/
def recordIntact (r : List Byte) : Bool :=
  r.length == 32 && ofLeBytes (r.take 2) == 0x01C1 && crc32 (r.take 28) == ofLeBytes (r.drop 28)

/-- ACK of a record: its sender has received this end's record intact. -/
def recordAck (r : List Byte) : Bool := bitN (ofLeBytes ((r.drop 0xD).take 1)) 2

/-- The record that the control slot of a CAP frame carries, byte 0x00 first (R156). -/
def entriesRecord (es : List Nat) : List Byte := es.flatMap (fun e => (leBytes 8 e).reverse)

/-- A capability record reaches a lane in EXCHANGE (R112, R116): an intact one is kept, with the receptions in a row of the same record
with ACK = 1. -/
def takeRecord (g l : Nat) (r : List Byte) (s : State) : State :=
  if recordIntact r then
    modLane g l (fun x => { x with serial := recordSerial r + 1, capRec := r,
                                   capRun := if !(recordAck r) then 0 else if x.capRec = r then x.capRun + 1 else 1 }) s
  else modLane g l (fun x => { x with capRun := 0 }) s

/-- The first lane of a group is ACTIVE: its whole map is rewritten before any probe (R162, R268). -/
def groupUp (g : Nat) (s : State) : State :=
  setBit (Reg.TST_STATUS g) 15 true
    (modLink g (fun k => { k with mapCursor := some 0, mapQ := [], relin := [], mapOut := [], announced := none, commitFseq := none, idleEntries := [],
                                  creads := [] }) (alignAgain g s))

/-- A lane enters ACTIVE (R112, R113, R117). -/
def enterActive (g l : Nat) (r : List Byte) (s : State) : State :=
  let first := !(groupActive s g)
  let s := setRegs (capOf g l 0) (bytesToWords r) s
  let s := { s with img := { s.img with lateGroups := s.img.lateGroups.filter (· != g) } }
  let s := setFld (laneStatus g l) 31 24 0 (setLaneState g l 4 s)
  let s := orReg (Reg.LNK_PHY_EVENTS g) (2 * 4 ^ l) s
  if first then groupUp g s else s

/-- LANE_EXCHANGE_ACCEPT (R112, R116 to R118): the partner's record, received 4 times identical with ACK, is checked. -/
def exchangeAccept (g l : Nat) (skew : Int) (s : State) : State :=
  let r := (laneOf s g l).capRec
  if laneState s g l = 3 && decide (4 ≤ (laneOf s g l).capRun) then
    let both := decide (3 ≤ laneState s g (1 - l))
    match exchangeReason s g l r skew with
    | some why =>
      let s := if both && why == 0x07 then setRegN (Reg.LNK_PHY_SKEW g) (twos 32 skew) s else s
      fallBack g l why s
    | none => enterActive g l r (if both then setRegN (Reg.LNK_PHY_SKEW g) (twos 32 skew) s else s)
  else s

/-! ### Lane commands -/

/-- Whether a command on these lanes would take the only ACTIVE lane of a running group (R121). -/
def lanesBusy (s : State) (g : Nat) (a b : Bool) : Bool :=
  groupInStep s g && groupActive s g && (!(laneActive s g 0) || a) && (!(laneActive s g 1) || b)

/-- RETRAIN of lanes (R119, R121). -/
def retrain (g : Nat) (a b : Bool) (s : State) : State :=
  let s := if a then commandDetect g 0 0x0A s else s
  if b then commandDetect g 1 0x0A s else s

/-- Whether a lane carries traffic that a scan can run on (R126, R127), and no scan of Pavane's is suspended on it (R91). -/
def scanRuns (s : State) (g l : Nat) : Bool :=
  (laneState s g l == 4 && laneState s g (1 - l) == 4) || (loopbackOf s g l != 0 && laneState s g l == 2)

/-- Starts an eye scan of a lane in both directions, unless one runs (R126, R127). On a lane that is neither ACTIVE nor in a loopback's LOCK
nothing starts (DESIGN CHOICE, notes/assumptions/47.md). -/
def startScan (g l : Nat) (s : State) : State :=
  let x := laneOf s g l
  let n := rdFld s (Reg.LNK_EYE_CFG g) 4 0
  if (laneState s g l = 4 ∨ (loopbackOf s g l ≠ 0 ∧ laneState s g l = 2)) ∧ x.eyeIn.isNone ∧ x.eyeOut.isNone then
    let far := bitN (rdFld s (capOf g l 3) 15 8) 3 && laneState s g l == 4
    modLane g l (fun x => { x with eyeIn := some { samples := n }, eyeOut := if far then some { samples := n } else none }) s
  else s

/-- A write of LNK_PHY_CMD (R121, R126, R131): RETRAIN, then EYE. -/
def phyCommand (g : Nat) (value : Word) (s : State) : State :=
  let a := bit value 0
  let b := bit value 1
  if (a || b) && lanesBusy s g a b then answer stLaneBusy s
  else
    let s := retrain g a b s
    let s := if bit value 2 then startScan g 0 s else s
    answer stOk (if bit value 3 then startScan g 1 s else s)

/-- Whether a value may stand in LNK_PHY_XCTRL (R131). -/
def xctrlOk (v : Word) : Bool := decide (fld v 10 8 ≤ 3) && decide (fld v 7 6 ≤ 2) && decide (fld v 5 4 ≤ 2)

/-- A write of LNK_PHY_XCTRL (R119, R124, R131). -/
def xctrlWrite (g l : Nat) (value : Word) (s : State) : State :=
  refuseIf (!(xctrlOk value)) stValueRange
    (fun s => writeDetect g l (if fld value 10 8 = 0 then 0x0A else 0x0E) (accept (xctrlOf g l) value s)) s

/-- A write of manual taps (R103, R131). -/
def manualWrite (g l : Nat) (value : Word) (s : State) : State :=
  refuseIf (!(tapsOk (tapsOf value))) stValueRange (fun s => writeDetect g l 0x0A (accept (txffeManOf g l) value s)) s

/-- BERT begins on a lane (R125): its counters are cleared, its checker knows nothing, and its pattern starts from a state that the spec
leaves open. -/
def bertBegin (g l : Nat) (s : State) : State :=
  let s := setRegN (bertErrOf g l) 0 (setRegN (bertUnitsOf g l) 0 s)
  let (v, s) := freeNat 31 s
  modLane g l (fun x => { x with bertTx := 1 + v % (2 ^ (if rdFld s (Reg.LNK_BERT_CTRL g) 3 2 = 0 then 31 else 13) - 1), bertRx := 0,
                                 bertSeen := 0, bertSyms := 0 }) s

/-- A write of LNK_BERT_CTRL (R125, R131). -/
def bertWrite (g : Nat) (value : Word) (s : State) : State :=
  refuseIf (decide (2 ≤ fld value 3 2)) stValueRange (fun s =>
    let old := rd s (Reg.LNK_BERT_CTRL g)
    let s := accept (Reg.LNK_BERT_CTRL g) value s
    let s := if bit value 0 && !(bit old 0) then bertBegin g 0 s else s
    if bit value 1 && !(bit old 1) then bertBegin g 1 s else s) s

/-- The next `n` symbols of a lane's pattern, as bit pairs, and the generator after them. -/
def bertPattern (s : State) (g l n : Nat) : Nat × Nat :=
  let st := (laneOf s g l).bertTx
  if rdFld s (Reg.LNK_BERT_CTRL g) 3 2 = 0 then prbs31 (2 * n) st else prbs13 (2 * n) st

/-- The checker on `n` received symbols `x` (R125): each is compared with what the bits before it predict, once enough bits are known;
the errors among them, the bits known and their number. -/
def bertCheck (w taps x : Nat) : Nat → Nat × Nat × Nat → Nat × Nat × Nat
  | 0, p => p
  | n + 1, (errs, hist, seen) =>
    let got := x / 4 ^ n % 4
    let want := (prbsRun w taps 2 hist 0).1
    bertCheck w taps x n (if w ≤ seen && got != want then errs + 1 else errs, (4 * hist + got) % 2 ^ w, seen + 2)

/-- `n` received symbols reach the checker of a lane (R125). -/
def bertTake (g l n x : Nat) (s : State) : State :=
  let y := laneOf s g l
  let p31 := rdFld s (Reg.LNK_BERT_CTRL g) 3 2 == 0
  let (errs, hist, seen) := bertCheck (if p31 then 31 else 13) (if p31 then 0x48000000 else 0x1803) x n (0, y.bertRx, y.bertSeen)
  let s := incSat (bertErrOf g l) errs s
  let s := incWrap (bertUnitsOf g l) ((y.bertSyms + n) / 1048576) s
  modLane g l (fun y => { y with bertRx := hist, bertSeen := min seen 31, bertSyms := (y.bertSyms + n) % 1048576 }) s

/-! ### Eye scans -/

/-- The registers of a report: lane and direction (0 own receiver, 1 the partner's). -/
def eyeAddr (g l dir : Nat) : Nat :=
  if l = 0 then (if dir = 0 then Reg.LNK_EYE_AI g 0 else Reg.LNK_EYE_AO g 0)
  else (if dir = 0 then Reg.LNK_EYE_BI g 0 else Reg.LNK_EYE_BO g 0)

/-- The report of a scan (R128, R129). -/
def eyeReport (g l dir : Nat) (e : EyeScan) (s : State) : State :=
  let lim := rdN s (Reg.LNK_EYE_LIMIT g)
  let low := e.widths.any (fun w => decide (w < lim % 256)) || e.heights.any (fun h => decide (h < lim / 65536))
  let pre := rdBit s (laneStatus g l) (if dir = 0 then 5 else 4)
  let loop := rdFld s (laneStatus g l) 10 8 != 0
  let taps := rdFld s (if dir = 0 then rxffeOf g l else txffeOf g l) 23 0
  let bs := leBytes 2 0x0045 ++ leBytes 1 (2 * g + l) ++ leBytes 1 (dir + 2 * b2n pre + 4 * b2n loop + 8 * b2n low) ++
    leBytes 4 (epochNow s).toNat ++ leBytes 8 s.beat ++ e.widths.flatMap (leBytes 1) ++ leBytes 1 e.samples ++
    e.heights.flatMap (leBytes 2) ++ leBytes 2 0 ++ leBytes 3 taps ++ leBytes 1 0
  let ws := bytesToWords bs
  let s := setRegs (eyeAddr g l dir) ws s
  let s := if rdBit s Reg.TEL_CTRL 16 then pushTelemetry ws s else s
  if low then raise (mkFault 0 0x10 (2 * g + l) 0x09) (orReg (Reg.LNK_PHY_EVENTS g) 64 s) else s

/-- The largest offset of a sweep: 31 or 32 phase steps, 127 mV (R126). -/
def eyeReach (e : EyeScan) : Nat := if e.height then 127 else if e.down then 32 else 31

/-- What one point does to a scan (R126); `none` for the next scan state when the scan is complete. -/
def eyePoint (open_ : Bool) (e : EyeScan) : EyeScan × Bool :=
  let e := { e with pointId := (e.pointId + 1) % 256, rspKind := 0, rsp := [], sent := false }
  let e := if open_ then { e with count := e.count + 1 } else e
  if open_ && decide (e.off < eyeReach e) then ({ e with off := e.off + 1 }, false)
  else if !e.down then ({ e with down := true, off := 1 }, false)
  else if !e.height then ({ e with height := true, down := false, off := 1, count := 1, widths := e.widths ++ [e.count] }, false)
  else
    let e := { e with height := false, down := false, off := 1, count := 1, heights := e.heights ++ [e.count], eye := e.eye + 1 }
    (e, e.eye == 3)

/-- EYE_SCAN_POINT_DONE: a point of the own receiver (R126, R128). -/
def eyePointIn (g l : Nat) (open_ : Bool) (s : State) : State :=
  match (laneOf s g l).eyeIn with
  | some e =>
    if scanRuns s g l then
      let (e, done) := eyePoint open_ e
      if done then eyeReport g l 0 e (modLane g l (fun x => { x with eyeIn := none }) s)
      else modLane g l (fun x => { x with eyeIn := some e }) s
    else s
  | none => s

/-- The offset byte of the point under way, in phase or in threshold (R126, R144). -/
def eyeOffset (e : EyeScan) : Nat := twos 8 (if e.down then - (e.off : Int) else (e.off : Int))

/-- The four bytes of the command for the point under way (R144). -/
def eyeCommand (e : EyeScan) : List Nat :=
  [64 * e.eye + e.samples, if e.height then 0 else eyeOffset e, if e.height then eyeOffset e else 0, e.pointId]

/-- A complete response of the partner to the point under way (R127, R144). -/
def eyeResponse (g l : Nat) (e : EyeScan) (bs : List Nat) (s : State) : State :=
  if bitN (nth 0 bs 0) 1 && bs.drop 1 == (eyeCommand e).drop 1 then
    let (e, done) := eyePoint (bitN (nth 0 bs 0) 0) e
    if done then eyeReport g l 1 e (modLane g l (fun x => { x with eyeOut := none }) s)
    else modLane g l (fun x => { x with eyeOut := some e }) s
  else modLane g l (fun x => { x with eyeOut := some { e with rspKind := 0, rsp := [] } }) s

/-- A response word of kind EYE_RSP0 + `i` (R141, R144): the four come in ascending order. -/
def eyeWord (g l i data : Nat) (s : State) : State :=
  match (laneOf s g l).eyeOut with
  | some e =>
    let e := if i = 0 then { e with rspKind := 1, rsp := [data] }
      else if e.rspKind = i then { e with rspKind := i + 1, rsp := e.rsp ++ [data] }
      else { e with rspKind := 0, rsp := [] }
    if e.rspKind = 4 then eyeResponse g l e e.rsp s else modLane g l (fun x => { x with eyeOut := some e }) s
  | none => s

/-- EYE_RSP_TIMEOUT: the partner's scan ends without a report (R144), and the partner is told to STOP
(DESIGN CHOICE, notes/assumptions/47.md). -/
def eyeTimeout (g l : Nat) (s : State) : State :=
  if !((laneOf s g l).eyeOut.any (·.sent)) then s
  else modLane g l (fun x => { x with eyeOut := none, eyeStop := x.eyeOut.map (·.samples) }) s

/-! ### Received words -/

/-- The number of bits in which two 32-bit words differ. -/
def bitDiff (a b : Nat) : Nat := popcount 32 (a ^^^ b)

/-- Whether the check of a filler word holds (R140). -/
def fillerCheck (w : Nat) : Bool := bitsN w 3 0 == (bitsN w 15 12 ^^^ bitsN w 11 8 ^^^ bitsN w 7 4 ^^^ 10)

/-- A word after a frame end that is neither filler nor marker; the fourth in a row loses alignment (R139). -/
def badWord (g l : Nat) (s : State) : State :=
  let s := modLane g l (fun x => { x with badWords := x.badWords + 1 }) s
  if 4 ≤ (laneOf s g l).badWords then loseAlignment g l s else s

/-- The bits of `n` received symbols (R99 to R101), with the lane's receiver past them. -/
def receiveBits (g l n x : Nat) (s : State) : Nat × State :=
  let (b, p) := receive (rdBit s (laneStatus g l) 5) (rxInverted s g l) (laneOf s g l).rxP n x
  (b, modLane g l (fun y => { y with rxP := p }) s)

/-- A 32-bit word of the lane stream outside frames (R139 to R144). -/
def fillerBits (g l w : Nat) (s : State) : State :=
  if bitDiff (bitsN w 31 16) 0x5AC3 ≤ 2 then
    if fillerCheck w then
      let s := modLane g l (fun x => { x with badWords := 0 }) s
      let k := bitsN w 15 12
      if 9 ≤ k then badSeq g s
      else if 5 ≤ k then eyeWord g l (k - 5) (bitsN w 11 4) s
      else s
    else badWord g l (badSeq g s)
  else if bitDiff w frameMarker ≤ 3 then modLane g l (fun x => { x with badWords := 0 }) s
  else badWord g l s

/-- The bits of a word outside frames reach a lane: BERT's checker takes them while it runs (R125). -/
def takeFiller (g l b : Nat) (s : State) : State :=
  if bertRuns s g l then bertTake g l fillerLen b s else fillerBits g l b s

/-- FILLER_WORD_RX: 16 symbols `w` at the pins of a lane from LOCK on, outside frames (R133); in a near loopback the receiver does not hear
its pins (R123). -/
def fillerWord (g l : Nat) (w : Nat) (s : State) : State :=
  if laneState s g l < 2 || nearLoop s g l then s
  else
    let (b, s) := receiveBits g l fillerLen w s
    takeFiller g l b s

/-- A codeword that does not decode (R136, R139, R152). -/
def uncorrectable (g l : Nat) (s : State) : State :=
  let s := incWrap (uncorrOf g l) 1 s
  let s := modLane g l (fun x => { x with goodRun := 0, badWords := 0, recent := (true :: x.recent).take 64 }) s
  if 8 ≤ ((laneOf s g l).recent.filter id).length then loseAlignment g l s else s

/-- The companion has lost its vector clock (R122): the group's ACTIVE lanes leave ACTIVE, as one loss of the group where both do. -/
def clockLost (g : Nat) (s : State) : State :=
  let on := [0, 1].filter (laneActive s g)
  on.foldl (fun s l => loseLane g l 0x0B s) s

/-- A good frame of an ACTIVE lane enters the merge; a SUMMARY in it may say that VCLK_LOCK is gone (R122, R158). -/
def activeFrame (g l : Nat) (fr : Frame) (s : State) : State :=
  let was := rdBit s (Reg.LNK_FR_STATUS g) 24
  let s := mergeFrame g l fr s
  if was && !(rdBit s (Reg.LNK_FR_STATUS g) 24) then clockLost g s else s

/-- A codeword that decodes, with the symbols it corrected (R112, R116, R137, R139, R152): a reserved TYPE is discarded in every state from
LOCK on. -/
def goodCodeword (g l corrected t4 : Nat) (fr : Frame) (s : State) : State :=
  let s := incSat (corrOf g l) corrected s
  let s := setBit (Reg.LNK_FR_STATUS g) l true s
  let s := modLane g l (fun x => { x with goodRun := x.goodRun + 1, badWords := 0, recent := (false :: x.recent).take 64,
                                          eyeOut := x.eyeOut.map (fun e => { e with rspKind := 0, rsp := [] }) }) s
  let s := if 3 ≤ fr.typ then badSeq g s else s
  let st := laneState s g l
  if st = 2 then
    if 64 ≤ (laneOf s g l).goodRun && loopbackOf s g l == 0 then setLaneState g l 3 s else s
  else if st = 3 then
    if fr.typ = 2 then takeRecord g l (entriesRecord fr.entries) s else s
  else if st = 4 then
    if 3 ≤ fr.typ then s else activeFrame g l fr (noteArrival g l fr.fseq t4 s)
  else s

/-- The bits of a frame from its marker on (R135, R136, R139): a lane that holds alignment takes a marker with 29 of 32 bits right; one
that does not takes the exact marker, followed by a codeword that decodes. -/
def frameWord (g l b t4 : Nat) (s : State) : State :=
  let aligned := rdBit s (Reg.LNK_FR_STATUS g) l
  let off := bitDiff (b / 2 ^ 4880) frameMarker
  if (if aligned then 3 else 0) < off then (if aligned then badWord g l s else s)
  else match rsDecode (b % 2 ^ 4880) with
    | some (data, n) => goodCodeword g l n t4 (frameOfData data) s
    | none => if aligned then uncorrectable g l s else s

/-- The bits of a frame reach a lane, with the arrival of its marker: BERT's checker takes them while it runs (R125). -/
def takeFrame (g l b t4 : Nat) (s : State) : State :=
  if bertRuns s g l then bertTake g l frameLen b s else frameWord g l b t4 s

/-- INWARD_CODEWORD: 2,456 symbols `w` at the pins of a lane from LOCK on, a marker and a codeword (R133); in a near loopback the receiver
does not hear its pins (R123). -/
def inwardCodeword (g l w t4 : Nat) (s : State) : State :=
  if laneState s g l < 2 || nearLoop s g l then s
  else
    let (b, s) := receiveBits g l frameLen w s
    takeFrame g l b t4 s

end Sys2Proof.Machine
end

