-- ==== Sys2Proof/Machine/Quadrille.lean ====
section
/-! DEFINITION. The Quadrille bus (R432 to R449): frames, heartbeats, fault broadcast and hints as sent and received,
joining, leading and leaving, and the peer ledger (R634). -/

namespace Sys2Proof.Machine

open Sys2Proof

/-! ### Words on the bus -/

/-- One bit through the CRC-16 of R439. -/
def crc16Bit (crc : Nat) (b : Bool) : Nat :=
  let top := bitN crc 15 != b
  let c := crc * 2 % 65536
  if top then Nat.xor c 0x1021 else c

/-- The CRC-16 of the `n` low bits of `v`, most significant first. -/
def crc16 (n v : Nat) : Nat := ((List.range n).map (fun i => bitN v (n - 1 - i))).foldl crc16Bit 0xFFFF

/-- The fields of a time-of-day frame (R439). -/
def todCount (f : Nat) : Nat := bitsN f 111 64
def todMembers (f : Nat) : Nat := bitsN f 63 32
def todLeader (f : Nat) : Nat := bitsN f 31 27
def todGen (f : Nat) : Nat := bitsN f 26 16

/-- Whether a frame carries SYNC and its CRC holds (R439). -/
def todValid (f : Nat) : Bool := bitsN f 127 112 == 0xB6D2 && crc16 112 (f / 65536) == f % 65536

/-- A time-of-day frame (R439). -/
def todFrame (count members leader gen : Nat) : Nat :=
  let v := ((0xB6D2 * 2 ^ 48 + count % 2 ^ 48) * 2 ^ 32 + members % 2 ^ 32) * 2 ^ 16 + leader % 32 * 2048 + gen % 2048
  v * 65536 + crc16 112 v

/-- The check field of a heartbeat (R441). -/
def beatCheck (w : Nat) : Nat := Nat.xor (Nat.xor (bitsN w 15 12) (bitsN w 11 8)) (Nat.xor (bitsN w 7 4) 6)

/-- Whether a heartbeat meets its check and names unit `u` (R441). -/
def beatValid (u w : Nat) : Bool := bitsN w 3 0 == beatCheck w && bitsN w 15 11 == u

/-- The power state code of R95. -/
def heartbeatPower (s : State) : Nat :=
  match s.pwr.state with | .run => 0 | .hold => 1 | .standby => 2 | .detached => 3 | .off => 3

/-- The heartbeat of this unit (R441). -/
def ownBeat (departing : Bool) (s : State) : Nat :=
  let w := ownAddr s * 2048 + role s * 512 + b2n departing * 256 + b2n (readyNow s) * 128 + heartbeatPower s * 16
  w + beatCheck w

/-- The OWNER_TAG of this unit (R443): byte 0 of the owner's identity hash, 0 with no owner. -/
def ownTag (s : State) : Nat :=
  match s.net.owner with | some k => (sessOf s k).hostId / 2 ^ 248 % 256 | none => 0

/-- The hints of a leader (R443). -/
def hints (s : State) : Nat := ownAddr s * 2048 + 1024 + ownTag s

/-- The 4-bit words of a field of `n` slots from `slot` up, most significant first (R435). -/
def slotWords (slot n v : Nat) : List (Nat × Nat) := (List.range n).map (fun i => (slot + i, v / 16 ^ (n - 1 - i) % 16))

/-! ### Peers -/

/-- What is kept of peer `u`. -/
def peerOf (s : State) (u : Nat) : Peer := tget (fun _ => {}) s.qdr.peers u

/-- Changes what is kept of peer `u`. -/
def modPeer (u : Nat) (f : Peer → Peer) (s : State) : State :=
  { s with qdr := { s.qdr with peers := tset (fun _ => {}) s.qdr.peers u (f (peerOf s u)) } }

/-- Whether unit `u` is present. -/
def isPresent (s : State) (u : Nat) : Bool := rdBit s Reg.QDR_PRESENT u

/-- The present cycle of the bus count (R434). -/
def busCycle (s : State) : Nat := s.beat / 16

/-- The address of the leader last heard. -/
def leaderNow (s : State) : Nat := rdFld s Reg.QDR_STATUS 20 16

/-- The first frame boundary at least 8 cycles later (R445). -/
def leadBoundary (c : Nat) : Nat := ceilDiv (c + 8) 4 * 4

/-- Succession (R445): when the leader goes, the present LEADER-CAPABLE unit with the lowest address leads. -/
def succeed (u : Nat) (s : State) : State :=
  if busState s == 4 && leaderNow s == u then
    let s := setBit Reg.QDR_STATUS 21 false s
    let lower := (List.range (ownAddr s)).any (fun v => isPresent s v && (peerOf s v).role == 0 && v != u)
    if role s == 0 && !lower then { s with qdr := { s.qdr with leadFrom := some (leadBoundary (busCycle s)) } } else s
  else s

/-- Peer `u` stops being present: its QT lines stop acting and its PEER_HALT ends (R446). -/
def dropPeer (u : Nat) (s : State) : State :=
  let s := setBit Reg.QDR_PRESENT u false (modPeer u (fun _ => {}) s)
  let s := { s with qdr := { s.qdr with qtAct := s.qdr.qtAct.filter (fun e => qtSender s e.1 != u) } }
  let s := if rdBit s Reg.QDR_PEER_FAULT u then
      releaseSrc (0x140 + u) (gridPerCycle * (busCycle s + 2)) (setBit Reg.QDR_PEER_FAULT u false s) else s
  ptpEvaluate (succeed u s)

/-- A heartbeat of peer `u` as received in its turn (R441, R446, R448, R634). -/
def heartbeat (u w : Nat) (s : State) : State :=
  let s := modPeer u (fun _ => { missed := 0, role := bitsN w 10 9, ready := bitN w 7, power := bitsN w 6 4 }) s
  if bitN w 8 then
    if isPresent s u then
      dropPeer u (orReg Reg.QDR_EVENTS 4 { s with qdr := { s.qdr with gone := add32 s.qdr.gone 1 } })
    else s
  else if isPresent s u then s
  else
    let s := setBit Reg.QDR_PRESENT u true (orReg Reg.QDR_EVENTS 2 { s with qdr := { s.qdr with joined := add32 s.qdr.joined 1 } })
    let q := s.img.active.quadrille
    let s := if !q.isEmpty && !(bitN (secN q 0 4) u) then raise (mkFaultD 0 0x14 u 0x0F u 0) s else s
    ptpEvaluate s

/-- QD_HEARTBEAT: the turn of unit `u`, with the word received (none when nothing was). A valid heartbeat in the unit's own
turn while it listens is an address conflict (R444). -/
def qdHeartbeat (u : Nat) (word : Option Nat) (s : State) : State :=
  if aloneRole s || busState s == 0 || busState s == 6 then s
  else
    let valid := match word with | some w => beatValid u w | none => false
    if u = ownAddr s then
      if busState s == 1 && valid then
        let s := if rdBit s Reg.QDR_STATUS 22 then s else raise (mkFaultD 2 0x14 u 0x0E u 0) s
        setBit Reg.QDR_STATUS 22 true s
      else if busState s == 1 then setBit Reg.QDR_STATUS 22 false s
      else s
    else if s.qdr.excluded.contains u then s
    else match word with
      | some w => if valid then heartbeat u w s else modPeer u (fun p => { p with missed := p.missed + 1 }) s
      | none => modPeer u (fun p => { p with missed := p.missed + 1 }) s

/-- PEER_ABSENT: a present peer has missed 3 turns in a row (R441, R446, R634). -/
def peerAbsent (u : Nat) (s : State) : State :=
  if isPresent s u && decide (3 ≤ (peerOf s u).missed) then
    let s := orReg Reg.QDR_EVENTS 1 { s with qdr := { s.qdr with writtenOff := add32 s.qdr.writtenOff 1 } }
    let s := orReg Reg.LGR_EVENTS 2 (orReg Reg.LGR_PEER_WO_MASK (2 ^ u) s)
    dropPeer u (raise (mkFaultD 0 0x14 u 0x07 u 0) s)
  else s

/-- FAULT_BROADCAST_RX: the bit of unit `u` is seen, or a cycle of its parity passes without it (R442). -/
def faultBroadcast (u : Nat) (seen : Bool) (s : State) : State :=
  let at_ := gridPerCycle * (busCycle s + 2)
  if aloneRole s || u == ownAddr s || s.qdr.excluded.contains u || !(onBus s) then s
  else if seen && !(rdBit s Reg.QDR_PEER_FAULT u) then
    assertSrc (0x140 + u) at_ none (setBit Reg.QDR_PEER_FAULT u true s)
  else if !seen && rdBit s Reg.QDR_PEER_FAULT u then
    releaseSrc (0x140 + u) at_ (setBit Reg.QDR_PEER_FAULT u false s)
  else s

/-- HINTS_RX: a member receives the leader's hints (R443). -/
def hintsRx (leader tag : Nat) (s : State) : State :=
  if busState s == 4 && leader == leaderNow s then
    setBit Reg.QDR_STATUS 23 (ownTag s != tag % 256) (setFld Reg.QDR_OWNER_TAG 7 0 tag s)
  else s

/-! ### Time of day -/

/-- The new leader, MEMBERS and GEN of a valid frame (R439, R452). -/
def noteFrame (f : Nat) (s : State) : State :=
  let s := if rdBit s Reg.QDR_STATUS 21 && leaderNow s == todLeader f then s else orReg Reg.QDR_EVENTS 8 s
  let s := setFld Reg.QDR_STATUS 20 16 (todLeader f) (setBit Reg.QDR_STATUS 21 true s)
  setRegN Reg.QDR_GEN (todGen f) { s with qdr := { s.qdr with members := todMembers f } }

/-- A claimant withdraws and listens (R445); `again` while its backoff runs. -/
def withdraw (again : Bool) (s : State) : State :=
  let s := quadrilleListen s
  { s with qdr := { s.qdr with backoff := again } }

/-- Becomes leader (R445). -/
def becomeLeader (s : State) : State :=
  let s := setFld Reg.QDR_STATUS 20 16 (ownAddr s) (setBit Reg.QDR_STATUS 21 true (setBusState 5 s))
  let s := setRegN Reg.QDR_GEN ((rdN s Reg.QDR_GEN + 1) % 2048) (orReg Reg.QDR_EVENTS 8 s)
  { s with qdr := { s.qdr with leadFrom := none, members := rdN s Reg.QDR_PRESENT ||| 2 ^ ownAddr s } }

/-- The comparison of a member (R440): a COUNT that differs from its own count is C3 in RUN; otherwise it is C1 and the unit
rejoins. -/
def compareCount (own count : Nat) (s : State) : State :=
  if own = count then s
  else if inRun s then raise (mkFaultD 3 0x16 0 0x08 count own) s
  else quadrilleListen (raise (mkFaultD 1 0x16 0 0x08 count own) s)

/-- A valid frame while the unit listens (R444): consecutive COUNTs are counted. -/
def listenFrame (own f : Nat) (s : State) : State :=
  let q := s.qdr
  let run := if q.todRun ≠ 0 ∧ todCount f = q.todCount + 64 then q.todRun + 1 else 1
  let s := { s with qdr := { q with todRun := run, todCount := todCount f, todOwn := own } }
  noteFrame f (setBusState 1 s)

/-- TOD_FRAME: a frame is received that began `age` BEAT periods ago by this unit's count. -/
def todReceived (f age : Nat) (s : State) : State :=
  let own := s.beat - age
  let st := busState s
  if aloneRole s || st == 0 || st == 6 then s
  else if !(todValid f) then
    let s := orReg Reg.QDR_EVENTS 32 (incSat Reg.QDR_CRC_ERR 1 { s with qdr := { s.qdr with todRun := 0 } })
    if st == 3 then withdraw true s else s
  else if st == 3 then
    if todLeader f = ownAddr s then becomeLeader s else listenFrame own f (withdraw false s)
  else if st == 5 then s
  else if st == 4 then compareCount own (todCount f) (noteFrame f s)
  else listenFrame own f { s with qdr := { s.qdr with backoff := false } }

/-- The delay from one unit, and its exclusion above DELAY_MAX (R444). -/
def noteDelay (s : State) (e : Nat × Nat) : State :=
  let s := setFld (Reg.QDR_DELAY e.1) 15 0 e.2 s
  let q := s.img.active.quadrille
  if !q.isEmpty && decide (secN q 4 2 < e.2) then
    let s := { s with qdr := { s.qdr with excluded := s.qdr.excluded ++ [e.1] } }
    raise (mkFaultD 2 0x14 e.1 0x09 e.2 0) (orReg Reg.QDR_EVENTS 128 s)
  else s

/-- Realigns the companions after a step of the count (R163, R440). -/
def realignCounts (s : State) : State :=
  ((List.range 16).filter (groupActive s)).foldl (fun s g => modLink g (fun l => { l with probeDue := [0, 1].filter (laneActive s g) }) s) s

/-- Steps the BEAT count by a signed number of periods (R440). -/
def stepCount (d : Int) (s : State) : State :=
  if d = 0 then s
  else
    let s := setRegN Reg.QDR_CNT_STEP (twos 32 d) (orReg Reg.QDR_EVENTS 16 s)
    realignCounts { s with beat := (((s.beat : Int) + d) % ((2 ^ 48 : Nat) : Int)).toNat }

/-- LISTEN_END: with 4 consecutive valid frames, a delay for every unit of MEMBERS and no conflict, the unit steps its count
and joins (R440, R444). `delays` are the measured delays in ps. -/
def listenEnd (delays : List (Nat × Nat)) (s : State) : State :=
  let own := ownAddr s
  let needed := (bitPositions 32 s.qdr.members).filter (fun u => u != own)
  if busState s == 1 && !s.qdr.backoff && decide (4 ≤ s.qdr.todRun) && !(rdBit s Reg.QDR_STATUS 22) &&
      rdBit s Reg.TBF_STATUS 1 && !(rdBit s Reg.TBF_STATUS 0) &&
      needed.all (fun u => delays.any (fun e => e.1 == u)) then
    let s := { s with qdr := { s.qdr with excluded := [] } }
    let s := (delays.filter (fun e => e.1 < 32 && e.1 != own)).foldl noteDelay s
    let s := setFld (Reg.QDR_DELAY own) 15 0 0 s
    setBusState 4 (stepCount ((s.qdr.todCount : Int) - (s.qdr.todOwn : Int)) s)
  else s

/-- LEADER_TIMEOUT: no valid frame for 16,384 cycles (R445). -/
def leaderTimeout (s : State) : State :=
  let st := busState s
  if aloneRole s then s
  else if (st == 1 && !s.qdr.backoff) || st == 2 || st == 4 then
    setBusState (if role s == 0 then 3 else 2) (setBit Reg.QDR_STATUS 21 false { s with qdr := { s.qdr with todRun := 0 } })
  else s

/-- CLAIM_BACKOFF_END: a withdrawn claimant claims again (R445). -/
def claimBackoffEnd (s : State) : State :=
  if busState s == 1 && s.qdr.backoff then setBusState 3 { s with qdr := { s.qdr with backoff := false } } else s

/-- QD_CELL_MISMATCH: a cell of line `q` disagrees with what it drives (R447). -/
def cellMismatch (q : Nat) (s : State) : State :=
  if busState s == 0 || busState s == 6 then s
  else if rdBit s Reg.QDR_STATUS (25 + q) then
    if inRun s then raise { mkFault 3 0x14 q 0x0B with escalated := true } s
    else quadrilleListen (raise (mkFault 2 0x14 q 0x03) s)
  else
    let s := raise { mkFault 2 0x14 q 0x03 with takeover := true, replacement := q + 0x100 } s
    orReg Reg.QDR_EVENTS 64 (setBit Reg.QDR_STATUS (25 + q) true (markOneCopy 0x14 q (fenceUnit 0x14 q s)))

/-! ### What the unit drives -/

/-- Whether this unit holds an active C3 or C4 fault (R442, R613, R615). -/
def faultActive (s : State) : Bool := s.flt.halted || s.flt.grave

/-- The QT words of cycle `c` (R436). -/
def qtWords (s : State) (c : Nat) : List (Nat × Nat) :=
  s.qdr.qtOut.filterMap (fun e =>
    if e.2.1 + 2 = c then some (e.1, 8 + e.2.2 / 16) else if e.2.1 + 3 = c then some (e.1, e.2.2 % 16) else none)

/-- The leader's frame of the four cycles from `c` (R439). -/
def ownFrame (s : State) (c : Nat) : Nat :=
  todFrame (64 * (c / 4)) (rdN s Reg.QDR_PRESENT ||| 2 ^ ownAddr s) (ownAddr s) (rdN s Reg.QDR_GEN)

/-- A departing unit has sent its turns and releases every driver; its peers leave its view (R446, R634). -/
def departed (s : State) : State :=
  let n := popcount 32 (rdN s Reg.QDR_PRESENT)
  let s := { s with qdr := { s.qdr with gone := add32 s.qdr.gone n, peers := [], driven := [], qtOut := [], leadFrom := none } }
  ptpEvaluate (setBusState 6 (setBit Reg.QDR_STATUS 21 false (setRegN Reg.QDR_PRESENT 0 s)))

/-- Departure begins (R446): the next 2 turns carry DEPARTING; a unit that drives nothing departs at once. -/
def depart (s : State) : State :=
  if aloneRole s || busState s == 6 then s
  else if onBus s then { s with qdr := { s.qdr with departing := 2 } }
  else departed s

/-- At a frame boundary, a leader whose view of the present units has changed steps GEN and sends the new MEMBERS
(R439). -/
def frameBoundary (c : Nat) (s : State) : State :=
  if c % 4 = 0 then
    let m := rdN s Reg.QDR_PRESENT ||| 2 ^ ownAddr s
    let s := if m = s.qdr.members then s else setRegN Reg.QDR_GEN ((rdN s Reg.QDR_GEN + 1) % 2048) s
    { s with qdr := { s.qdr with members := m } }
  else s

/-- QUADRILLE_CYCLE: cycle `c` of the bus count begins and the unit drives its slots (R434 to R446). -/
def quadrilleCycle (s : State) : State :=
  let c := busCycle s
  let s := match s.qdr.leadFrom with
    | some f => if f ≤ c ∧ busState s = 4 then becomeLeader s else s
    | none => s
  let st := busState s
  if st == 3 || st == 4 || st == 5 then
    let lead := st == 3 || st == 5
    let s := if lead then frameBoundary c s else s
    let own := ownAddr s
    let turn := c % 32 == own
    let qt := if st == 3 then [] else qtWords s c
    let flags := (qt.filter (fun e => decide (8 ≤ e.2) && s.qdr.qtOut.any (fun o => o.1 == e.1 && o.2.1 + 2 == c))).length
    let fault := if st != 3 && faultActive s && c % 2 == own / 16 then slotWords 44 4 (2 ^ (own % 16)) else []
    let beat := if turn then slotWords 40 4 (ownBeat (decide (s.qdr.departing ≠ 0)) s) else []
    let frame := if lead then
        slotWords 32 8 (ownFrame s c / 2 ^ (32 * (3 - c % 4)) % 2 ^ 32) ++ slotWords 48 4 (hints s) else []
    let s := if st == 5 then setFld Reg.QDR_OWNER_TAG 7 0 (ownTag s) s else s
    let s := incWrap Reg.QDR_QT_SENT flags s
    let s := { s with qdr := { s.qdr with driven := qt ++ frame ++ beat ++ fault,
                                          qtOut := s.qdr.qtOut.filter (fun e => decide (c < e.2.1 + 3)) } }
    if turn && s.qdr.departing == 1 then { (departed s) with qdr := { (departed s).qdr with departing := 0 } }
    else if turn && s.qdr.departing == 2 then { s with qdr := { s.qdr with departing := 1 } }
    else s
  else { s with qdr := { s.qdr with driven := [] } }

/-! ### Global triggers received -/

/-- QT_RECEIVED: the flag and offset words of QTk, whose flag word was sent in cycle `cs` (R437). -/
def qtReceived (k off cs : Nat) (s : State) : State :=
  let u := qtSender s k
  if onBus s && u != ownAddr s && isPresent s u && !s.qdr.excluded.contains u then
    { s with qdr := { s.qdr with qtAct := s.qdr.qtAct ++ [(k, gridPerCycle * (cs + 2) + 2 * off)] } }
  else s

/-- QT_ACT: the earliest act of QTk that is scheduled arrives (R418, R437). -/
def qtActs (k : Nat) (s : State) : State :=
  match s.qdr.qtAct.find? (fun e => e.1 == k) with
  | some e =>
    let s := { s with qdr := { s.qdr with qtAct := s.qdr.qtAct.erase e } }
    if aloneRole s then s else assertEvent (0x100 + k) e.2 s
  | none => s

/-! ### Meanings -/

/-- QT_RECEIVED. -/
def execQtReceived (k : Fin 32) (off : Fin 128) (cs : Nat) (s : State) : Host.Outcome State Fault Refusal :=
  .next (qtReceived k.val off.val cs s)

/-- QT_ACT. -/
def execQtAct (k : Fin 32) (s : State) : Host.Outcome State Fault Refusal := .next (qtActs k.val s)

/-- TOD_FRAME. -/
def execTodFrame (frame : BitVec 128) (age : Nat) (s : State) : Host.Outcome State Fault Refusal :=
  .next (todReceived frame.toNat age s)

/-- QD_HEARTBEAT. -/
def execQdHeartbeat (u : Fin 32) (word : Option (BitVec 16)) (s : State) : Host.Outcome State Fault Refusal :=
  .next (qdHeartbeat u.val (word.map (·.toNat)) s)

/-- PEER_ABSENT. -/
def execPeerAbsent (u : Fin 32) (s : State) : Host.Outcome State Fault Refusal := .next (peerAbsent u.val s)

/-- FAULT_BROADCAST_RX. -/
def execFaultBroadcastRx (u : Fin 32) (seen : Bool) (s : State) : Host.Outcome State Fault Refusal :=
  .next (faultBroadcast u.val seen s)

/-- HINTS_RX. -/
def execHintsRx (leader : Fin 32) (tag : Byte) (s : State) : Host.Outcome State Fault Refusal :=
  .next (hintsRx leader.val tag.toNat s)

/-- LISTEN_END. -/
def execListenEnd (delays : List (Nat × Nat)) (s : State) : Host.Outcome State Fault Refusal := .next (listenEnd delays s)

/-- LEADER_TIMEOUT. -/
def execLeaderTimeout (s : State) : Host.Outcome State Fault Refusal := .next (leaderTimeout s)

/-- CLAIM_BACKOFF_END. -/
def execClaimBackoffEnd (s : State) : Host.Outcome State Fault Refusal := .next (claimBackoffEnd s)

/-- QD_CELL_MISMATCH. -/
def execQdCellMismatch (q : Fin 4) (s : State) : Host.Outcome State Fault Refusal := .next (cellMismatch q.val s)

/-- REJOIN: QDR_CMD bit 0 (R452). -/
def execRejoin (q : Req) (s : State) : Host.Outcome State Fault Refusal :=
  .next (guarded q Reg.QDR_CMD 1 (fun s => answer stOk (quadrilleListen s)) s)

/-- QUADRILLE_CYCLE. -/
def execQuadrilleCycle (s : State) : Host.Outcome State Fault Refusal := .next (quadrilleCycle s)

end Sys2Proof.Machine
end

