-- ==== Sys2Proof/Machine/Ledgers.lean ====
section
/-! DEFINITION. The ledgers (R627, R631 to R637, R640, R641): the two sides of each and its in-transit term, as the blocks'
counters give them, balance and drain, imbalance, the read latch, and rebasing at a load. -/

namespace Sys2Proof.Machine

open Sys2Proof

/-! ### Sides -/

/-- The sum, modulo 2^32, of one register over the 16 groups. -/
def sumGroups (s : State) (r : Nat → Nat) : Nat := sumN ((List.range 16).map (fun g => rdN s (r g))) % 4294967296

/-- The sum of counters, modulo 2^32. -/
def sum32 (l : List Nat) : Nat := sumN l % 4294967296

/-- A ledger held in registers: its left side, the other terms of its right side, and its in-transit term. -/
def regView (s : State) (left : Nat) (terms : List Nat) (out : Nat) : LedgerView :=
  { left := rdN s left, right := sum32 ((terms ++ [out]).map (rdN s)), out := rdN s out }

/-- What the blocks count for ledger `n` (R631, R634). -/
def liveView (s : State) (n : Nat) : LedgerView :=
  match n with
  | 0 => { left := sumGroups s Reg.LNK_FR_SENT,
           right := sum32 [sumGroups s Reg.LNK_FR_APPLIED, sumGroups s Reg.LNK_FR_LOST, sumGroups s Reg.LNK_FR_OUTSTANDING],
           out := sumGroups s Reg.LNK_FR_OUTSTANDING }
  | 1 => regView s Reg.NET_CRED_GRANTED [Reg.NET_CRED_USED, Reg.NET_CRED_WITHDRAWN] Reg.NET_CRED_OUTSTANDING
  | 2 => regView s Reg.DMA_TOK_ISSUED [Reg.DMA_TOK_RETURNED] Reg.DMA_TOK_ACTIVE
  | 3 => regView s Reg.SCH_SUBMITTED [Reg.SCH_RELEASED, Reg.SCH_CANCELLED] Reg.SCH_OUTSTANDING
  | 4 => regView s Reg.CMP_DETECTED [Reg.CMP_LOGGED, Reg.CMP_UNLOG_FULL, Reg.CMP_UNLOG_SITEMAX, Reg.CMP_UNLOG_RATE] Reg.CMP_INFLIGHT
  | 5 => regView s Reg.ACQ_PRODUCED [Reg.ACQ_STORED, Reg.ACQ_OVERWRITTEN] Reg.ACQ_INFLIGHT
  | 6 => regView s Reg.TDC_EVT_COUNT [Reg.TDC_QUEUED, Reg.TDC_DROPPED] Reg.TDC_INFLIGHT
  | 7 => regView s Reg.LIB_ACCEPTED [Reg.LIB_COMMITTED, Reg.LIB_ABANDONED] Reg.LIB_INFLIGHT
  | 8 =>
    let p := popcount 32 (rdN s Reg.QDR_PRESENT)
    { left := s.qdr.joined, right := sum32 [s.qdr.gone, s.qdr.writtenOff, p], out := p }
  | _ => {}

/-- The frozen sides of a ledger, if it is frozen (R632). -/
def frozenView (s : State) (n : Nat) : Option LedgerView := tget (fun _ => none) s.lgr.frozen n

/-- What a ledger reads: its frozen sides, or the live ones with what rebasing added to the right (R632, R635). -/
def ledgerView (s : State) (n : Nat) : LedgerView :=
  match frozenView s n with
  | some v => v
  | none => let v := liveView s n; { v with right := add32 v.right (tget (fun _ => 0) s.lgr.rebase n) }

/-- Whether a ledger is used (R631). -/
def ledgerUsed (n : Nat) : Bool := decide (n < 9)

/-- The bound of a ledger's in-transit term, 0 for none (R631, R641). -/
def ledgerBound (n : Nat) : Nat :=
  match n with
  | 0 => 32 | 2 => 32 | 3 => 4096 | 4 => 8192 | 5 => 4096 | 6 => 8192 | 7 => 128 | 8 => 31
  | _ => 0

/-- Whether a ledger is balanced. -/
def ledgerBalanced (s : State) (n : Nat) : Bool :=
  (frozenView s n).isNone && (ledgerView s n).left == (ledgerView s n).right

/-- Whether a ledger has an in-transit term (R633). -/
def hasTransit (n : Nat) : Bool := n == 0 || (decide (2 ≤ n) && decide (n ≤ 7))

/-- Whether a ledger is drained (R633). -/
def ledgerDrained (s : State) (n : Nat) : Bool := !(hasTransit n) || (frozenView s n).isSome || (liveView s n).out == 0

/-- Whether every ledger is drained (R55). -/
def allDrained (s : State) : Bool := (List.range 16).all (ledgerDrained s)

/-- Whether the link ledger of group `g` balances (R154). -/
def linkBalanced (s : State) (g : Nat) : Bool :=
  rdN s (Reg.LNK_FR_SENT g) ==
    sum32 [rdN s (Reg.LNK_FR_APPLIED g), rdN s (Reg.LNK_FR_LOST g), rdN s (Reg.LNK_FR_OUTSTANDING g)]

/-- LGR_STATUS of a ledger (R640, R641). -/
def ledgerStatus (s : State) (n : Nat) : Nat :=
  2147483648 * b2n (ledgerBalanced s n) + 1073741824 * b2n (frozenView s n).isSome + 536870912 * b2n (ledgerUsed n) +
    ledgerBound n

/-- A register of bits 0 to 15. -/
def mask16 (p : Nat → Bool) : Nat := sumN ((List.range 16).map (fun (n : Nat) => b2n (p n) * 2 ^ n))

/-! ### Imbalance -/

/-- An imbalance of ledger `n` (R632): a C3 fault; the ledger is frozen as it then reads. -/
def freezeLedger (n : Nat) (v : LedgerView) (s : State) : State :=
  let s := { s with lgr := { s.lgr with frozen := tset (fun _ => none) s.lgr.frozen n (some v) } }
  raise (mkFaultD 3 0x1B n 0x06 v.left v.right) (orReg Reg.LGR_EVENTS 1 s)

/-- LEDGER_IMBALANCE: ledger `n` is found with these sides and this in-transit term; `term` is what its bound holds against
(of LG0 the OUTSTANDING of one group). -/
def ledgerImbalance (n left right out term : Nat) (s : State) : State :=
  let excess := decide (ledgerBound n ≠ 0) && decide (ledgerBound n < term)
  if ledgerUsed n && (frozenView s n).isNone && (left != right || excess) then
    freezeLedger n { left := left, right := right, out := out } s
  else s

/-- Whether the deadline that a rule sets for the in-transit term of ledger `n` can run (R154, R311, R393, R427, R476). -/
def deadlineRuns (s : State) (n : Nat) : Bool :=
  if n = 7 then !(match s.lib.run with | some r => !r.isRead | none => false)
  else (n == 0 || n == 4 || n == 5 || n == 6) && !(stepRuns s)

/-- LEDGER_DEADLINE: a term has not reached 0 by its deadline. -/
def ledgerDeadline (n : Nat) (s : State) : State :=
  if deadlineRuns s n && (frozenView s n).isNone && (liveView s n).out != 0 then freezeLedger n (ledgerView s n) s else s

/-! ### Rebasing, the check of a takeover, the read latch -/

/-- The amount that makes both sides of a ledger read equal. -/
def rebaseOf (s : State) (n : Nat) : Nat := sub32 (liveView s n).left (liveView s n).right

/-- Rebases ledger `n` if it is frozen (R635). -/
def rebaseLedger (s : State) (n : Nat) : State :=
  if (frozenView s n).isSome then
    orReg Reg.LGR_EVENTS 4 { s with lgr := { frozen := tset (fun _ => none) s.lgr.frozen n none,
                                             rebase := tset (fun _ => 0) s.lgr.rebase n (rebaseOf s n) } }
  else s

/-- At the switch point of a load every frozen ledger is rebased (R635). -/
def rebaseLedgers (s : State) : State := (List.range 9).foldl rebaseLedger s

/-- The ledgers checked for a unit class (R626). -/
def ledgersOf (uc : Nat) : List Nat :=
  match uc with
  | 0x01 => [0, 4] | 0x02 => [0] | 0x03 => [3] | 0x04 => [5] | 0x0B => [2] | 0x0E => [4, 5, 6] | 0x10 => [0] | 0x11 => [1]
  | 0x12 => [7] | 0x14 => [8] | 0x1F => [3]
  | 0x05 => [5] | 0x06 => [4] | 0x07 => [0] | 0x08 => [6] | 0x09 => [0] | 0x0A => [5] | 0x0C => [2] | 0x0D => [3]
  | _ => []

/-- Reads LGR_LEFT of ledger `n`: LGR_RIGHT and LGR_OUT are latched with it (R637). -/
def ledgerRead (n : Nat) (s : State) : Word × State :=
  let v := ledgerView s n
  (wd v.left, setRegN (Reg.LGR_OUT n) v.out (setRegN (Reg.LGR_RIGHT n) v.right s))

/-! ### Meanings -/

/-- LEDGER_IMBALANCE. -/
def execLedgerImbalance (n : Fin 16) (left right out term : Word) (s : State) : Host.Outcome State Fault Refusal :=
  .next (ledgerImbalance n.val left.toNat right.toNat out.toNat term.toNat s)

/-- LEDGER_DEADLINE. -/
def execLedgerDeadline (n : Fin 16) (s : State) : Host.Outcome State Fault Refusal := .next (ledgerDeadline n.val s)

end Sys2Proof.Machine
end

