-- ==== Sys2Proof/Machine/Nand.lean ====
section
/-! DEFINITION. The blocks of the library (R469, R483 to R487): where write units stand, erase counts, dynamic and static levelling, and the
moves of blocks that patrol, retirement and the rebuild of a die make. -/

namespace Sys2Proof.Machine

open Sys2Proof

/-! ### Geometry -/

/-- Blocks of a die and pages of a block (R469). -/
def dieBlocks : Nat := 3072
def blockPages : Nat := 768

/-- Die `k` of channel `ch`: the four dies of a channel follow one another, and stripe set `k` takes die `k` of every channel. -/
def dieOf (ch k : Nat) : Nat := 4 * ch + k

/-- The die of block `b`; block numbers run over the dies in turn. -/
def blockDie (b : Nat) : Nat := b / dieBlocks

/-- The erase count of a block. -/
def erasesOf (s : State) (b : Nat) : Nat := tget (fun _ => 0) s.lib.erases b

/-- Changes the library's rows of blocks. -/
def modRows (f : List NandRow → List NandRow) (s : State) : State := { s with lib := { s.lib with rows := f s.lib.rows } }

/-- Whether a block holds data. -/
def blockUsed (s : State) (b : Nat) : Bool := s.lib.rows.any (fun r => r.blocks.contains b)

/-- Whether a block may take data. -/
def blockFree (s : State) (b : Nat) : Bool := !(blockUsed s b) && !(s.lib.retired.contains b) && !(s.lib.deadDies.contains (blockDie b))

/-! ### Choosing a block -/

/-- The free block with no erase on record and the lowest number among the `n` from `b` on. -/
def freshBlock (s : State) : Nat → Nat → Option Nat
  | 0, _ => none
  | n + 1, b => if erasesOf s b = 0 && blockFree s b then some b else freshBlock s n (b + 1)

/-- The free block of the lowest erase count of a die (R483), of the lowest number among equals (DESIGN CHOICE,
notes/assumptions/54.md). -/
def freeBlock (s : State) (die : Nat) : Option Nat :=
  match freshBlock s dieBlocks (die * dieBlocks) with
  | some b => some b
  | none =>
    ((s.lib.erases.filter (fun e => blockDie e.1 == die && blockFree s e.1)).foldl (fun (m : Option (Nat × Nat)) e =>
      match m with
      | some x => if e.2 < x.2 then some e else some x
      | none => some e) none).map (·.1)

/-- The free blocks for a new row of stripe set `k`, one on a die of each channel; none while one is lacking. -/
def freeRow (s : State) (k : Nat) : Option (List Nat) :=
  let bs := (List.range 16).filterMap (fun ch => freeBlock s (dieOf ch k))
  if bs.length = 16 then some bs else none

/-! ### Erasing and moving -/

/-- Erases a block: its count rises by 1. -/
def eraseBlock (s : State) (b : Nat) : State := { s with lib := { s.lib with erases := tmod (fun _ => 0) s.lib.erases b (· + 1) } }

/-- Rows that hold nothing are reclaimed: their blocks are erased (R473). -/
def reclaimRows (s : State) : State :=
  let empty := s.lib.rows.filter (fun r => r.units.isEmpty)
  (empty.flatMap (·.blocks)).foldl eraseBlock (modRows (fun rs => rs.filter (fun r => !r.units.isEmpty)) s)

/-- Write units that satisfy `p` (of an object and the number of the unit) hold nothing any more. -/
def dropUnits (p : Nat → Nat → Bool) (s : State) : State :=
  reclaimRows (modRows (fun rs => rs.map (fun r => { r with units := r.units.filter (fun u => !(p u.1 u.2)) })) s)

/-- The data of block `b` moves to block `n`. -/
def moveBlock (b n : Nat) (s : State) : State :=
  modRows (fun rs => rs.map (fun r => { r with blocks := r.blocks.map (fun x => if x = b then n else x) })) s

/-- The data of block `b` moves to the free block of its die that dynamic levelling gives, and `b` is erased. -/
def relocate (b : Nat) (s : State) : State :=
  if blockUsed s b then
    match freeBlock s (blockDie b) with
    | some n => eraseBlock (moveBlock b n s) b
    | none => s
  else s

/-! ### Write units -/

/-- A write unit is programmed (R469, R483): at the next page of the row being filled, or of a new row on the free blocks of lowest erase
count of the next stripe set in turn (DESIGN CHOICE, notes/assumptions/54.md). A unit written again leaves its old place. -/
def placeUnit (obj unit_ : Nat) (s : State) : State :=
  let s := dropUnits (fun o u => o == obj && u == unit_) s
  if s.lib.rows.any (fun r => decide (r.filled < blockPages)) then
    modRows (fun rs => rs.map (fun r =>
      if r.filled < blockPages then { r with filled := r.filled + 1, units := r.units ++ [(obj, unit_)] } else r)) s
  else
    let k := s.lib.nextSet
    match freeRow s k with
    | some bs => modRows (fun rs => rs ++ [{ blocks := bs, filled := 1, units := [(obj, unit_)] }])
        { s with lib := { s.lib with nextSet := (k + 1) % 4 } }
    | none => s

/-- The units written for object `a` become those of object `b`, whose older ones hold nothing any more. -/
def takeUnits (a b : Nat) (s : State) : State :=
  let s := dropUnits (fun o _ => o == b) s
  modRows (fun rs => rs.map (fun r => { r with units := r.units.map (fun u => if u.1 = a then (b, u.2) else u) })) s

/-! ### Static levelling and patrol -/

/-- Erases on all blocks of a die. -/
def dieErases (s : State) (die : Nat) : Nat := sumN ((s.lib.erases.filter (fun e => blockDie e.1 == die)).map (·.2))

/-- Whether the erase count of a block lies more than 500 below the mean of its die (R483). -/
def isCold (s : State) (b : Nat) : Bool := decide (dieBlocks * (erasesOf s b + 500) < dieErases s (blockDie b))

/-- Static levelling inside Pavane's wear share (R483): the data of the cold blocks moves. -/
def levelWear (s : State) : State :=
  ((s.lib.rows.flatMap (·.blocks)).filter (isCold s)).foldl (fun s b => relocate b s) s

/-- The block that patrol reads at its present place. -/
def patrolBlock (s : State) : Option Nat := (s.lib.rows.flatMap (·.blocks))[s.lib.patrolAt / blockPages]?

/-- Patrol goes on to the next programmed page (R484). -/
def patrolNext (s : State) : State :=
  let n := blockPages * (s.lib.rows.flatMap (·.blocks)).length
  { s with lib := { s.lib with patrolAt := if s.lib.patrolAt + 1 < n then s.lib.patrolAt + 1 else 0 } }

/-- Patrol rewrites the block that it reads elsewhere (R484): into the rescue reserve once the library is retired, while blocks of it remain
(R487). -/
def patrolRewrite (s : State) : State :=
  let s := { s with lib := { s.lib with rewritten := s.lib.rewritten + 1 } }
  match patrolBlock s with
  | some b => relocate b s
  | none => s

/-! ### Blocks and dies that fail -/

/-- A block fails and its data moves to another block (R485, R487). -/
def retireBlock (b : Nat) (s : State) : State :=
  let s := { s with lib := { s.lib with retired := if s.lib.retired.contains b then s.lib.retired else s.lib.retired ++ [b] } }
  if blockUsed s b then
    match freeBlock s (blockDie b) with
    | some n => moveBlock b n s
    | none => s
  else s

/-- The data of a block of a failed die is rebuilt on another die of the channel, so that its stripes stay on 16 dies (R486). -/
def rebuildBlock (s : State) (b : Nat) : State :=
  let ch := blockDie b / 4
  match (List.range 4).findSome? (fun i => freeBlock s (dieOf ch ((blockDie b + 1 + i) % 4))) with
  | some n => moveBlock b n s
  | none => s

/-- The rebuild of the failed dies of stripe set `k` (R486). -/
def rebuildSet (k : Nat) (s : State) : State :=
  let bs := (s.lib.rows.flatMap (·.blocks)).filter (fun b => s.lib.deadDies.contains (blockDie b) && blockDie b % 4 == k)
  bs.foldl rebuildBlock s

end Sys2Proof.Machine
end

