-- ==== Sys2Proof/Machine/Library.lean ====
section
/-! DEFINITION. The pattern library (R469 to R489): objects and the commands of LIB_CMD, write units and their ledger, staging
and residency, wear, patrol, block and die failures. -/

namespace Sys2Proof.Machine

open Sys2Proof

/-! ### Objects -/

/-- Whether an identifier is a system identifier (R470). -/
def isSystemId (id : Nat) : Bool := decide (0xFFFFFF00 ≤ id)

/-- Whether an identifier is an image slot. -/
def isImageSlot (id : Nat) : Bool := id == 0xFFFFFF00 || id == 0xFFFFFF01

/-- Bytes of a write unit (R469). -/
def writeUnit : Nat := 245760

/-- User capacity in bytes (R469). -/
def userCapacity : Nat := 2 ^ 41

/-- Bytes that the non-system objects take. -/
def libUsed (s : State) : Nat :=
  sumN (s.lib.objs.map (fun e => if isSystemId e.1 then 0 else match e.2 with | some o => o.length | none => 0))

/-- Refreshes LIB_USED_MB and LIB_FREE_MB. -/
def showLibUse (s : State) : State :=
  let u := ceilDiv (libUsed s) 1048576
  setRegN Reg.LIB_USED_MB u (setRegN Reg.LIB_FREE_MB (2097152 - u) s)

/-- Whether an object is pinned (R480). -/
def isPinned (s : State) (id : Nat) : Bool :=
  s.src.inPlay.contains id ||
  (match s.seq.step with | some st => st.ctxs.any (fun c => (ctxOf s c).pinned.contains id) | none => false)

/-- State code of an object (R473). -/
def objStateCode : ObjState → Nat
  | .opened => 1
  | .sealed => 2
  | .lost => 3

/-- The words of an object's record (R473). -/
def infoWords (s : State) (id : Nat) : List Word :=
  match objOf s id with
  | none => [wd id, 0, 0, 0, 0, 0, 0, 0]
  | some o =>
    let flags := b2n o.base.isSome + 2 * b2n (isPinned s id) + 4 * b2n (s.src.inPlay.contains id) +
      8 * b2n (s.lib.queue.any (fun r => r.id == id)) + 16 * b2n (isSystemId id)
    [wd id, wd (o.typ + 256 * objStateCode o.state + 65536 * flags)] ++ leWords 2 o.length ++ leWords 2 o.written ++
      leWords 2 (o.base.getD 0)

/-- The bytes of an object from an offset. -/
def objBytes (o : LibObj) (off n : Nat) : List Byte := tgetList memDefault o.data off n

/-- TOTAL_LEN of an image slot as far as it is written (R472); none before the first 128 bytes. -/
def slotTotal (o : LibObj) : Option Nat := if 128 ≤ o.written then some (ofLeBytes (objBytes o 0x10 4)) else none

/-- The length of an image slot in force (R472). -/
def slotLength (o : LibObj) : Nat :=
  match slotTotal o with
  | some n => if n ≤ 67108864 then n else 67108864
  | none => 67108864

/-! ### Completion -/

/-- The library command ends (R474): LIB_CMD_RESULT, CMD_DONE and the event on the owner's stream. -/
def libDone (cmd code id : Nat) (s : State) : State :=
  let s := setRegN Reg.LIB_CMD_RESULT (16777216 * cmd + 256 + code) s
  let s := orReg Reg.LIB_EVENTS 32 s
  pushRec isOwnerEvent (eventRecord 3 cmd (code + 4294967296 * id) s) s

/-- The command is accepted: it is answered OK and not yet done. -/
def libTaken (cmd : Nat) (s : State) : State := answer stOk (setRegN Reg.LIB_CMD_RESULT (16777216 * cmd) s)

/-- Runs a LIB_CMD write: refused while a WRITE or READ runs, unless it is CANCEL (R474). -/
def libCommand (q : Req) (cmd : Nat) (k : State → State) (s : State) : State :=
  guarded q Reg.LIB_CMD (wd cmd) (fun s => refuseIf (s.lib.run.isSome && cmd != 8) stRefusedFull k s) s

/-- LIB_ARG_ID. -/
def argId (s : State) : Nat := rdN s Reg.LIB_ARG_ID

/-- LIB_ARG_OFF. -/
def argOff (s : State) : Nat := rdN s Reg.LIB_ARG_OFF_LO + 4294967296 * rdFld s Reg.LIB_ARG_OFF_HI 8 0

/-- LIB_ARG_ADDR. -/
def argAddr (s : State) : Nat := rdN s Reg.LIB_ARG_ADDR_LO + 4294967296 * rdFld s Reg.LIB_ARG_ADDR_HI 15 0

/-- LIB_ARG_BYTES. -/
def argBytes (s : State) : Nat := rdN s Reg.LIB_ARG_BYTES

/-- LIB_ARG_LEN. -/
def argLen (s : State) : Nat := rdN s Reg.LIB_ARG_LEN_LO + 4294967296 * rdFld s Reg.LIB_ARG_LEN_HI 8 0

/-- Whether the library is retired (R487). -/
def libRetired (s : State) : Bool := rdBit s Reg.LIB_STATUS 1

/-! ### CREATE, DELETE, EVICT, INFO -/

/-- CREATE (R471). -/
def libCreate (s : State) : State :=
  let id := argId s
  let t := rdFld s Reg.LIB_ARG_TYPE 7 0
  let n := argLen s
  if id = 0 ∨ !([1, 2, 3, 4, 8, 9, 10].contains t) ∨ n = 0 then answer stValueRange s
  else if isSystemId id || (objOf s id).isSome then answer stObjExists s
  else if userCapacity < libUsed s + n then answer stLibFull s
  else if libRetired s then answer stLibRetired s
  else
    let s := libTaken 1 s
    let s := setObj id (some { typ := t, length := n }) s
    libDone 1 stOk id (incWrap Reg.LIB_OBJECTS 1 (showLibUse s))

/-- DELETE (R473). -/
def libDelete (s : State) : State :=
  let id := argId s
  if isSystemId id then answer stObjState s
  else if (objOf s id).isNone then answer stObjNotFound s
  else if isPinned s id then answer stObjPinned s
  else if libRetired s then answer stLibRetired s
  else
    let s := libTaken 4 s
    let s := dropUnits (fun o _ => o == id) (setObj id none (evict id s))
    libDone 4 stOk id (setRegN Reg.LIB_OBJECTS (sub32 (rdN s Reg.LIB_OBJECTS) 1) (showArea (showLibUse s)))

/-- EVICT: removes an unpinned object from the object area. -/
def libEvict (s : State) : State :=
  let id := argId s
  if (objOf s id).isNone then answer stObjNotFound s
  else if isPinned s id then answer stObjPinned s
  else libDone 6 stOk id (showArea (evict id (libTaken 6 s)))

/-- INFO (R473). -/
def libInfo (s : State) : State :=
  let id := argId s
  let ws := infoWords s id
  libDone 7 stOk id (setRegs (Reg.LIB_INFO 0) ws (libTaken 7 s))

/-! ### Firmware and microcode -/

/-- The number of `n` little-endian bytes at byte `a` of an object. -/
def objN (o : LibObj) (a n : Nat) : Nat := ofLeBytes (objBytes o a n)

/-- Whether bytes `a` to `a + n − 1` of an object are all 0. -/
def objZero (o : LibObj) (a n : Nat) : Bool := (objBytes o a n).all (· == 0)

/-- The hash of the vendor root key in the fuses (R649). -/
def vendorHash (s : State) : List Word := rdRegs s (Reg.SEC_VENDOR_HASH 0) 8

/-- The SHA3-512 digest that a signature signs: of the bytes before its body at byte `a` (R37, R214, R652). -/
def signedDigest (o : LibObj) (a : Nat) : List Word := sha3_512 (objBytes o 0 a)

/-- The SHA3-256 hash of the public key in the SIGNATURE body at byte `a` (R36, R38). -/
def signerHash (o : LibObj) (a : Nat) : List Word := sha3_256 (objBytes o (a + 4) 2592)

/-- The SIGNATURE body at byte `a` of a firmware or microcode object (R36, R214, R652): the vendor key signs it. -/
def vendorSigned (s : State) (o : LibObj) (a : Nat) (c : CryptoObs) : Bool :=
  objN o a 2 == 0x0087 && objN o (a + 2) 1 == 0xFF && objZero o (a + 3) 1 && objZero o (a + 0x1C37) 9 &&
  decide (a + 7232 ≤ o.written) && signerHash o a == vendorHash s && c.sigOk

/-- The check of the boot ROM on a firmware object (R652, R653). -/
def firmwareOk (s : State) (o : LibObj) (c : CryptoObs) : Bool :=
  objN o 0 4 == 0x5746584B && objN o 4 2 == 1 && decide (objN o 0x10 4 ≤ 16777216) && decide (s.sec.fwFloor ≤ objN o 0x0C 4) &&
  vendorSigned s o (64 + objN o 0x10 4) c

/-- The check on a microcode object (R214, R215, R651). -/
def microcodeOk (s : State) (o : LibObj) (c : CryptoObs) : Bool :=
  objN o 0 4 == 0x4355584B && objN o 4 2 == 1 && decide (s.sec.ucodeFloor ≤ objN o 0x0C 4) && vendorSigned s o 65600 c

/-- The check on the object of a system identifier (R654). -/
def codeOk (s : State) (id : Nat) (o : LibObj) (c : CryptoObs) : Bool :=
  if id = 0xFFFFFF20 then microcodeOk s o c else firmwareOk s o c

/-! ### WRITE and READ -/

/-- Whether an identifier is a firmware slot or the microcode object. -/
def isCode (id : Nat) : Bool := id == 0xFFFFFF10 || id == 0xFFFFFF11 || id == 0xFFFFFF20

/-- Where the writes of an object go: firmware and microcode are held in a shadow until they pass (R654). -/
def writeKey (id : Nat) : Nat := if isCode id then id + 4294967296 else id

/-- The length of a firmware or microcode object as far as it is written (R214, R652). -/
def codeLength (id : Nat) (o : LibObj) : Nat :=
  if id = 0xFFFFFF20 then 72832
  else if 64 ≤ o.written ∧ ofLeBytes (objBytes o 0x10 4) ≤ 16777216 then 7296 + ofLeBytes (objBytes o 0x10 4)
  else 7296 + 16777216

/-- The refusals that name the object of a WRITE (R48, R62, R471, R472, R654). -/
def writeRefusal (s : State) (id off n : Nat) : Option Nat :=
  let fresh : LibObj := { typ := 0, length := 0, state := .sealed }
  if isImageSlot id then
    let o := (objOf s id).getD fresh
    let k := id - 0xFFFFFF00
    let loading := match s.img.load with
      | .draining auto m => auto || m == k
      | .passed auto m _ _ => auto || m == k
      | .failed auto m _ => auto || m == k
      | .retraining auto => auto
      | _ => false
    if s.img.loaded && activeSlot s == k then some stImgSlotActive
    else if loading || s.img.verify == some k then some stImgLoading
    else if off = 0 then (if 67108864 < n then some stObjState else none)
    else if o.state != .opened || off != o.written || decide (slotLength o < off + n) then some stObjState
    else none
  else if isCode id then
    let o := (objOf s (writeKey id)).getD fresh
    if !(inHold s) then some stNotInHold
    else if id = 0xFFFFFF10 + s.pwr.fwSlot then some stImgSlotActive
    else if off = 0 then (if codeLength id {o with written := 0} < n then some stObjState else none)
    else if o.state != .opened || off != o.written || decide (codeLength id o < off + n) then some stObjState
    else none
  else
    match objOf s id with
    | none => some stObjNotFound
    | some o =>
      if o.state != .opened || off != o.written || decide (o.length < off + n) then some stObjState else none

/-- Write units that a write touches from `off` on. -/
def unitsLeft (off n : Nat) : Nat := if n = 0 then 0 else (off + n - 1) / writeUnit - off / writeUnit + 1

/-- Lets units enter, up to 128 in flight (R476). -/
def fillUnits (left : Nat) (s : State) : State :=
  let now := rdN s Reg.LIB_INFLIGHT
  let want := min 128 left
  setRegN Reg.LIB_INFLIGHT want (incWrap Reg.LIB_ACCEPTED (want - now) s)

/-- Abandons the units in flight (R476). -/
def abandonUnits (s : State) : State :=
  let n := rdN s Reg.LIB_INFLIGHT
  incWrap Reg.LIB_ABANDONED n (setRegN Reg.LIB_INFLIGHT 0 s)

/-- Refreshes LIB_WEAR_7D. -/
def showWear (s : State) : State := setRegN Reg.LIB_WEAR_7D (ceilDiv (sumN s.lib.wear) 1000000) s

/-- Counts bytes toward the wear budget (R488). -/
def countWear (n : Nat) (s : State) : State :=
  let w := match s.lib.wear with | [] => [n] | h :: t => (h + n) :: t
  showWear { s with lib := { s.lib with wear := w } }

/-- WRITE (R471, R472, R475, R476, R488). -/
def libWrite (s : State) : State :=
  let id := argId s
  let off := argOff s
  let n := argBytes s
  let a := argAddr s
  if n = 0 then answer stValueRange s
  else if !(inHbm s a && rangeMapped s a n) then answer stBadAddr s
  else
    match writeRefusal s id off n with
    | some code => answer code s
    | none =>
      if libRetired s then answer stLibRetired s
      else if !(isSystemId id) && decide (11200000000000 < sumN s.lib.wear + n) then
        answer stNotAdmitted (setBit Reg.LIB_STATUS 7 true s)
      else
        let s := libTaken 2 s
        let s := if isImageSlot id && off == 0 then
            dropUnits (fun o _ => o == id) (modObj id (fun o => { o with state := .opened, written := 0, length := 67108864 }) s)
          else if isCode id && off == 0 then
            dropUnits (fun o _ => o == writeKey id) (setObj (writeKey id) (some { typ := 0, length := 0 }) s)
          else s
        let s := if isSystemId id then s else countWear n s
        let s := { s with lib := { s.lib with run := some { isRead := false, id := id, off := off, addr := a, bytes := n } } }
        fillUnits (unitsLeft off n) (setBit Reg.LIB_STATUS 0 true s)

/-- READ (R473). -/
def libRead (s : State) : State :=
  let id := argId s
  let off := argOff s
  let n := argBytes s
  let a := argAddr s
  if n = 0 then answer stValueRange s
  else if !(inHbm s a && rangeMapped s a n) then answer stBadAddr s
  else
    match objOf s id with
    | none => answer stObjNotFound s
    | some o =>
      if o.state == .lost || decide (o.written < off + n) then answer stObjState s
      else if inProtected s a n then answer stMemProtected s
      else
        let s := libTaken 3 s
        let s := { s with lib := { s.lib with run := some { isRead := true, id := id, off := off, addr := a, bytes := n } } }
        setBit Reg.LIB_STATUS 0 true s

/-- CANCEL (R474). -/
def libCancel (s : State) : State :=
  match s.lib.run with
  | none => libDone 8 stOk 0 (libTaken 8 s)
  | some r =>
    let s := libTaken 8 s
    let s := if r.isRead then s else abandonUnits s
    libDone 8 stOk r.id (setBit Reg.LIB_STATUS 0 false { s with lib := { s.lib with run := none } })

/-- Whether the running WRITE is paused: it is unreserved and a step runs (R475). -/
def writePaused (s : State) : Bool :=
  stepRuns s && !(s.img.active.reserve.any (fun r => r.cls == 5 && r.consumer == 1))

/-- Seals the object of a WRITE that has come to its end, where its rule lets it (R471, R472). -/
def sealWritten (r : LibRun) (s : State) : State :=
  match objOf s (writeKey r.id) with
  | none => s
  | some o =>
    if isCode r.id then
      if o.written = codeLength r.id o then modObj (writeKey r.id) (fun o => { o with state := .sealed, length := o.written }) s
      else s
    else if isImageSlot r.id then
      match slotTotal o with
      | some n => if n = o.written ∧ n ≤ 67108864 then modObj r.id (fun o => { o with state := .sealed, length := n }) s
          else modObj r.id (fun o => { o with length := slotLength o }) s
      | none => s
    else if o.written = o.length then modObj r.id (fun o => { o with state := .sealed }) s
    else s

/-- The running WRITE ends early: its units are abandoned, and it completes with a code. -/
def endWrite (code : Nat) (s : State) : State :=
  match s.lib.run with
  | some r =>
    if r.isRead || r.ending.isSome then s
    else { abandonUnits s with lib := { s.lib with run := some { r with ending := some code } } }
  | none => s

/-- WRITE_UNIT_COMMIT: the next write unit of the running WRITE is programmed (R469, R476). -/
def writeUnitCommit (s : State) : State :=
  match s.lib.run with
  | none => s
  | some r =>
    if r.isRead || r.ending.isSome || writePaused s then s
    else
      let pos := r.off + r.done
      let n := min (writeUnit - pos % writeUnit) (r.bytes - r.done)
      let a := r.addr + r.done
      let s := readHook a n s
      if rangePoisoned s a n then endWrite stMemPoison s
      else
        let bs := memBytes s a n
        let s := modObj (writeKey r.id) (fun o => { o with data := tsetList memDefault o.data pos bs, written := pos + n }) s
        let s := placeUnit (writeKey r.id) (pos / writeUnit) s
        let r := { r with done := r.done + n }
        let s := incWrap Reg.LIB_COMMITTED 1 (setRegN Reg.LIB_INFLIGHT (rdN s Reg.LIB_INFLIGHT - 1) s)
        let s := fillUnits (unitsLeft (r.off + r.done) (r.bytes - r.done)) s
        if r.done = r.bytes then
          sealWritten r { s with lib := { s.lib with run := some { r with ending := some stOk } } }
        else { s with lib := { s.lib with run := some r } }

/-- LIB_CMD_COMPLETE: a WRITE that has come to its end, or a READ, completes (R474). Firmware or microcode that
seals is checked as the boot ROM would (R654). -/
def libCmdComplete (c : CryptoObs) (s : State) : State :=
  match s.lib.run with
  | none => s
  | some r =>
    if r.isRead then
      let code := match objOf s r.id with | some o => if o.state == .lost then stObjState else stOk | none => stObjNotFound
      let s := match objOf s r.id with
        | some o => if code = stOk then setBytes r.addr (objBytes o r.off r.bytes) s else s
        | none => s
      libDone 3 code r.id (setBit Reg.LIB_STATUS 0 false { s with lib := { s.lib with run := none } })
    else
      match r.ending with
      | none => s
      | some code =>
        let s := setBit Reg.LIB_STATUS 0 false { s with lib := { s.lib with run := none } }
        match (if isCode r.id then objOf s (writeKey r.id) else none) with
        | some o =>
          if o.state == .sealed then
            let s := setObj (writeKey r.id) none s
            if codeOk s r.id o c then
              libDone 2 code r.id (takeUnits (writeKey r.id) r.id (setObj r.id (some { o with typ := if r.id = 0xFFFFFF20 then 7 else 6 }) s))
            else libDone 2 stRcvInvalid r.id (dropUnits (fun x _ => x == writeKey r.id) s)
          else libDone 2 code r.id s
        | none => libDone 2 code r.id s

/-! ### Staging -/

/-- Refreshes LIB_STG_PENDING. -/
def showQueue (s : State) : State := setRegN Reg.LIB_STG_PENDING s.lib.queue.length s

/-- Requests staging of an object that is not resident; each object is pending at most once (R478). -/
def requestStage (cmd : Bool) (id : Nat) (s : State) : State :=
  if isResident s id then s
  else if s.lib.queue.any (fun r => r.id == id) then
    { s with lib := { s.lib with queue := s.lib.queue.map (fun r => if r.id == id then { r with cmd := r.cmd || cmd } else r) } }
  else showQueue { s with lib := { s.lib with queue := s.lib.queue ++ [{ id := id, cmd := cmd }] } }

/-- Whether context `c` of a step goes on after its HOLD (R206). -/
def continuesHold (s : State) (st : StepInfo) (c : Nat) : Bool :=
  st.prior.any (fun p => p.1 == c && p.2.1 == .holdWait) && !(rdBit s (Reg.SEQ_CTX_ENTRY c) 31)

/-- The step list of context `c` (R206). -/
def stepRlist (s : State) (st : StepInfo) (c : Nat) : Nat :=
  if continuesHold s st c then (ctxOf s c).holdRlist else rdFld s (Reg.SEQ_CTX_RLIST c) 19 0

/-- The objects of the step list of context `c`, its program among them, as far as they are known (R206): the list stands in
the program, which must be resident; the waveforms of its channels belong to it (R374); none when the list number is too
high. -/
def stepObjects (s : State) (st : StepInfo) (c : Nat) : Option (List Nat) :=
  let p := rdN s (Reg.SEQ_CTX_PROG c)
  let ws := (st.waves.filter (fun e => e.1 == c)).map (·.2)
  if p = 0 then some ws
  else match residentBase s p with
    | none => some (p :: ws)
    | some b =>
      if memN s b 4 = 0x5051584B ∧ memN s (b + 4) 2 = 1 then (residencyList s b (stepRlist s st c)).map (fun l => p :: ws ++ l)
      else some (p :: ws)

/-- Requests the objects of one context's step list and keeps them resident (R204, R207). -/
def requestStepList (st : StepInfo) (s : State) (c : Nat) : State :=
  let ids := (stepObjects s st c).getD []
  ids.foldl (fun s i => requestStage false i s) (modCtx c (fun x => { x with pinned := ids }) s)

/-- Requests the objects of the step lists of a held START (R207). -/
def requestStepLists (s : State) : State :=
  match s.seq.step with
  | some st => if st.steptime.isNone then st.ctxs.foldl (requestStepList st) s else s
  | none => s

/-- Marks a resident object as the most recently used. -/
def touchObj (id : Nat) (s : State) : State :=
  { s with lib := { s.lib with lru := s.lib.lru.filter (fun i => i != id) ++ [id] } }

/-- STAGE (R367, R478). -/
def libStage (s : State) : State :=
  let id := argId s
  if isResident s id then libDone 5 stOk id (touchObj id (libTaken 5 s))
  else if s.src.inPlay.contains id then answer stWaveInPlay (orReg Reg.SRC_EVENTS 8 s)
  else requestStage true id (libTaken 5 s)

/-- Objects of held residency checks and held STARTs, which are served first (R478). -/
def heldObjects (s : State) : List Nat :=
  match s.seq.step with
  | none => []
  | some st => st.ctxs.flatMap (fun c =>
      let x := ctxOf s c
      (if x.state == .starting then x.pinned else []) ++
      (match x.cur with | some (.resHold _ _ _ ids) => ids | _ => []))

/-- The requests in the order they are served (R478). -/
def serviceOrder (s : State) : List StageReq :=
  let held := heldObjects s
  s.lib.queue.filter (fun r => held.contains r.id) ++ s.lib.queue.filter (fun r => !(held.contains r.id))

/-- The size of the object area in bytes. -/
def areaSize (s : State) : Nat := deviceRegion - objBase s

/-- The bytes of DATA whose SHA3-256 an object's DIGEST holds, where its layout has one (R181, R363). -/
def digestSpan (o : LibObj) : Option Nat :=
  if o.typ = 2 then some (16 * popcount 16 (objN o 6 2) * objN o 8 4)
  else if o.typ = 3 then some (2 * objN o 8 4)
  else none

/-- Whether the DIGEST of an object verifies (R477). -/
def digestOk (o : LibObj) : Bool :=
  match digestSpan o with
  | some n => bytesToWords (objBytes o 0x20 32) == sha3_256 (objBytes o 0x40 (min n (o.length - 0x40)))
  | none => true

/-- Whether the DIGEST of the object named `id`, if there is one, verifies. -/
def verifies (s : State) (id : Nat) : Bool := match objOf s id with | some o => digestOk o | none => false

/-- Whether the object named `id` holds a DIGEST. -/
def hasDigest (s : State) (id : Nat) : Bool := match objOf s id with | some o => (digestSpan o).isSome | none => false

/-- The reason for which a request cannot be served (R481); 0 for none. -/
def stageReason (s : State) (id : Nat) : Nat :=
  match objOf s id with
  | none => 1
  | some o =>
    match o.state with
    | .opened => 2
    | .lost => 4
    | .sealed => if areaSize s < o.length then 5 else 0

/-- The resident extents of the object area, in 64-byte granules, rising. -/
def areaExtents (s : State) : List (Nat × Nat) :=
  let es := s.lib.objs.filterMap (fun e => (e.2.bind objSpan).map (fun x => (x.1, (x.2 + 63) / 64 * 64)))
  es.foldl (fun l e => l.filter (fun f => decide (f.1 ≤ e.1)) ++ [e] ++ l.filter (fun f => decide (e.1 < f.1))) []

/-- The lowest free place of `n` bytes in the object area from `a` on. -/
def firstFit (n limit : Nat) : Nat → List (Nat × Nat) → Option Nat
  | a, [] => if a + n ≤ limit then some a else none
  | a, (b, l) :: es => if a + n ≤ b then some a else firstFit n limit (max a (b + l)) es

/-- A place for `n` bytes, evicting unpinned objects, least recently used first, while room is lacking (R480). -/
def makeRoom (n : Nat) : List Nat → State → Option Nat × State
  | lru, s =>
    match firstFit n deviceRegion (objBase s) (areaExtents s) with
    | some a => (some a, s)
    | none =>
      match lru with
      | [] => (none, s)
      | id :: ids => makeRoom n ids (if isPinned s id then s else evict id s)

/-- An object becomes resident (R477): its bytes stand in the object area. -/
def becomeResident (id a : Nat) (s : State) : State :=
  let wait := s.lib.queue.any (fun r => r.id == id && r.cmd)
  let s := match objOf s id with
    | some o => setBytes a (objBytes o 0 o.length) s
    | none => s
  let s := modObj id (fun o => { o with base := some a }) s
  let s := touchObj id { s with lib := { s.lib with queue := s.lib.queue.filter (fun r => r.id != id) } }
  let s := requestStepLists (stageDoneAll (setBit Reg.LIB_STATUS 6 false (showArea (showQueue s))))
  if wait then libDone 5 stOk id s else s

/-- STAGING_COMPLETE: the first request that can be served is served; when pinned objects leave too little room, it waits
(R478, R480). -/
def stagingComplete (s : State) : State :=
  match (serviceOrder s).find? (fun r => stageReason s r.id == 0 && verifies s r.id) with
  | none => s
  | some r =>
    match objOf s r.id with
    | none => s
    | some o =>
      match makeRoom o.length s.lib.lru s with
      | (some a, s) => becomeResident r.id a s
      | (none, _) =>
        let s := setBit Reg.LIB_STATUS 6 true s
        if s.lib.areaNoted then s
        else raise (mkFaultD 0 0x12 0 0x0F r.id 0) { s with lib := { s.lib with areaNoted := true } }

/-- STAGE_FAILED: the request for an object ends unserved (R481); `digest` says that the bytes read failed its DIGEST, also
once more through parity. -/
def stageFailed (id : Nat) (digest : Bool) (s : State) : State :=
  match s.lib.queue.find? (fun r => r.id == id) with
  | none => s
  | some r =>
    let why := stageReason s id
    let why := if why = 0 && hasDigest s id && (digest || !(verifies s id)) then 3 else why
    if why = 0 then s
    else
      let s := showQueue { s with lib := { s.lib with queue := s.lib.queue.filter (fun r => r.id != id) } }
      let s := setRegN Reg.LIB_STG_FAIL_ID id (setRegN Reg.LIB_STG_FAIL_REASON why (orReg Reg.LIB_EVENTS 4 s))
      let s := raise (mkFaultD 0 0x12 0 0x0F id why) s
      if r.cmd then libDone 5 stStageFailed id s else s

/-! ### Blocks, dies and wear -/

/-- Lowers LIB_POOL_LEFT and sets what follows from it (R485). -/
def takePool (n : Nat) (s : State) : State :=
  let init := rdN s Reg.LIB_POOL_INIT
  let left := rdN s Reg.LIB_POOL_LEFT - n
  let s := setRegN Reg.LIB_POOL_LEFT left s
  let mark := fun (bit pct : Nat) (s : State) =>
    if 100 * left ≤ pct * init && !(rdBit s Reg.LIB_STATUS bit) then
      raise (mkFaultD 0 0x12 0 0x09 left init) (setBit Reg.LIB_STATUS bit true s)
    else s
  setBit Reg.LIB_STATUS 4 (decide (left = 0)) (mark 3 5 (mark 2 25 s))

/-- The library becomes read-only (R487). -/
def retireLibrary (s : State) : State :=
  if libRetired s then s
  else
    let s := orReg Reg.LIB_EVENTS 16 (setBit Reg.LIB_STATUS 1 true s)
    raise (mkFault 2 0x12 0 0x0A) (endWrite stLibRetired s)

/-- BLOCK_RETIRE: block `b` fails (R485, R487). -/
def blockRetire (b : Nat) (s : State) : State :=
  let s := retireBlock b (orReg Reg.LIB_EVENTS 1 s)
  if rdN s Reg.LIB_POOL_LEFT = 0 then
    let s := setRegN Reg.LIB_RESCUE_LEFT (rdN s Reg.LIB_RESCUE_LEFT - 1) s
    if libRetired s then raise (mkFaultD 1 0x12 0 0x02 b 0) s else retireLibrary s
  else takePool 1 (raise (mkFaultD 1 0x12 0 0x02 b 0) s)

/-- DIE_FAILURE: a die of a stripe set fails (R486); `lost` names the objects of the stripes that a second failure takes. -/
def dieFailure (die set : Nat) (lost : List Nat) (s : State) : State :=
  let s := orReg Reg.LIB_EVENTS 2 (setBit Reg.LIB_STATUS 5 true (incWrap Reg.LIB_DIES_FAILED 1 s))
  let s := raise (mkFault 2 0x13 die 0x02) s
  let s := { s with lib := { s.lib with deadDies := if s.lib.deadDies.contains die then s.lib.deadDies else s.lib.deadDies ++ [die] } }
  if s.lib.rebuilding.contains set then
    lost.foldl (fun s id => modObj id (fun o => { o with state := .lost }) s)
      (if lost.isEmpty then s else orReg Reg.LIB_EVENTS 8 s)
  else { s with lib := { s.lib with rebuilding := s.lib.rebuilding ++ [set] } }

/-- DIE_REBUILD_COMPLETE: the rebuild of a stripe set ends and has taken `n` blocks of the pool (R486, R487). -/
def dieRebuilt (set n : Nat) (s : State) : State :=
  if s.lib.rebuilding.contains set then
    let s := rebuildSet set { s with lib := { s.lib with rebuilding := s.lib.rebuilding.filter (fun k => k != set) } }
    let s := setBit Reg.LIB_STATUS 5 (!s.lib.rebuilding.isEmpty) s
    let left := rdN s Reg.LIB_POOL_LEFT
    let s := takePool n s
    if left ≤ n then retireLibrary s else s
  else s

/-- Whether patrol has a block to rewrite into: a retired library has the rescue reserve only, while blocks of it remain (R487). -/
def rescueLasts (s : State) : Bool := !(libRetired s) || rd s Reg.LIB_RESCUE_LEFT != 0

/-- A rewrite in a retired library takes a block of the rescue reserve. -/
def takeRescue (s : State) : State :=
  if libRetired s then setRegN Reg.LIB_RESCUE_LEFT (rdN s Reg.LIB_RESCUE_LEFT - 1) s else s

/-- WEAR_BUDGET_HOUR: an hourly bucket expires (R488). -/
def wearHour (s : State) : State :=
  setBit Reg.LIB_STATUS 7 false (showWear { s with lib := { s.lib with wear := (0 :: s.lib.wear).take 168 } })

/-! ### Meanings -/

/-- LIB_CREATE. -/
def execLibCreate (q : Req) (s : State) : Host.Outcome State Fault Refusal := .next (libCommand q 1 libCreate s)

/-- LIB_WRITE. -/
def execLibWrite (q : Req) (s : State) : Host.Outcome State Fault Refusal := .next (libCommand q 2 libWrite s)

/-- LIB_READ. -/
def execLibRead (q : Req) (s : State) : Host.Outcome State Fault Refusal := .next (libCommand q 3 libRead s)

/-- LIB_DELETE. -/
def execLibDelete (q : Req) (s : State) : Host.Outcome State Fault Refusal := .next (libCommand q 4 libDelete s)

/-- LIB_STAGE. -/
def execLibStage (q : Req) (s : State) : Host.Outcome State Fault Refusal := .next (libCommand q 5 libStage s)

/-- LIB_EVICT. -/
def execLibEvict (q : Req) (s : State) : Host.Outcome State Fault Refusal := .next (libCommand q 6 libEvict s)

/-- LIB_INFO. -/
def execLibInfo (q : Req) (s : State) : Host.Outcome State Fault Refusal := .next (libCommand q 7 libInfo s)

/-- LIB_CANCEL. -/
def execLibCancel (q : Req) (s : State) : Host.Outcome State Fault Refusal := .next (libCommand q 8 libCancel s)

/-- WRITE_UNIT_COMMIT. -/
def execWriteUnitCommit (s : State) : Host.Outcome State Fault Refusal := .next (writeUnitCommit s)

/-- LIB_CMD_COMPLETE. -/
def execLibCmdComplete (obs : CryptoObs) (s : State) : Host.Outcome State Fault Refusal := .next (libCmdComplete obs s)

/-- STAGING_COMPLETE. -/
def execStagingComplete (s : State) : Host.Outcome State Fault Refusal := .next (stagingComplete s)

/-- STAGE_FAILED. -/
def execStageFailed (id : Nat) (digest : Bool) (s : State) : Host.Outcome State Fault Refusal := .next (stageFailed id digest s)

/-- PATROL_PASS: the next page is read with at most `corrected` corrected bits in a codeword; its block is rewritten above the
threshold, in every state but OFF (R484). Static levelling runs beside it in the wear share (R483), which stops in DETACHED (R91). -/
def execPatrolPass (corrected : Nat) (s : State) : Host.Outcome State Fault Refusal :=
  .next (if s.pwr.state == .off then s
    else
      let s := if rdN s Reg.LIB_XREFRESH_THRESH < corrected && rescueLasts s then patrolRewrite (takeRescue s) else s
      let s := patrolNext s
      if s.pwr.state == .detached then s else levelWear s)

/-- BLOCK_RETIRE. -/
def execBlockRetire (block : Nat) (s : State) : Host.Outcome State Fault Refusal := .next (blockRetire block s)

/-- DIE_FAILURE. -/
def execDieFailure (die : Fin 64) (set : Fin 4) (lost : List Nat) (s : State) : Host.Outcome State Fault Refusal :=
  .next (dieFailure die.val set.val lost s)

/-- DIE_REBUILD_COMPLETE. -/
def execDieRebuildComplete (set : Fin 4) (blocks : Nat) (s : State) : Host.Outcome State Fault Refusal :=
  .next (dieRebuilt set.val blocks s)

/-- WEAR_BUDGET_HOUR. -/
def execWearBudgetHour (s : State) : Host.Outcome State Fault Refusal := .next (wearHour s)

end Sys2Proof.Machine
end

