-- ==== Sys2Proof/Machine/SeqInstr.lean ====
section
/-! DEFINITION. The sequence instructions (R184 to R204), jumps and the ends of waits, match loops and residency holds
(R189 to R197, R239 to R250). -/

namespace Sys2Proof.Machine

open Sys2Proof

/-! ### Fetch -/

/-- Program error codes (R210). -/
def peBadOpcode : Nat := 0x01
def peLoopOverflow : Nat := 0x02
def peCallOverflow : Nat := 0x03
def peLoopUnderflow : Nat := 0x04
def peCallUnderflow : Nat := 0x05
def peBadTarget : Nat := 0x06
def pePopRange : Nat := 0x07
def peTsetNotMaster : Nat := 0x09
def pePcEnd : Nat := 0x0A
def peBadList : Nat := 0x0B
def peSegInvalid : Nat := 0x0C
def peZeroCount : Nat := 0x0D

/-- The opcode of an instruction word (R184). -/
def opcOf (w : Nat) : Nat := bitsN w 63 58

/-- Whether the reserved bits of an instruction word are 0 (R184). -/
def reservedZero (w : Nat) : Bool :=
  match opcOf w with
  | 0x01 => bitsN w 50 32 == 0
  | 0x03 => bitsN w 57 52 == 0
  | 0x04 => bitsN w 57 0 == 0
  | 0x05 => bitsN w 57 24 == 0
  | 0x06 => bitsN w 57 0 == 0
  | 0x07 => bitsN w 57 24 == 0
  | 0x08 => bitsN w 38 24 == 0
  | 0x0A => bitsN w 50 40 == 0
  | 0x0B => bitsN w 57 40 == 0
  | 0x0C => bitsN w 57 6 == 0
  | 0x0D => bitsN w 49 32 == 0
  | 0x0E => bitsN w 57 20 == 0
  | 0x0F => bitsN w 55 34 == 0
  | 0x10 => bitsN w 57 20 == 0
  | 0x11 => bitsN w 57 0 == 0
  | _ => true

/-- Whether a word is an instruction: a defined opcode, reserved bits 0, no reserved COND or OP, and no ARG bit 6 with TRIG
(R184, R187, R201, R210). -/
def wordValid (w : Nat) : Bool :=
  decide (1 ≤ opcOf w) && decide (opcOf w ≤ 0x11) && reservedZero w &&
  !(opcOf w == 0x08 && (decide (5 ≤ bitsN w 57 54) || (bitsN w 57 54 == 4 && bitN w 53))) &&
  !(opcOf w == 0x0F && bitsN w 33 32 == 3)

/-- Whether the resident program at `b` has the header of R179. -/
def progValid (s : State) (b : Nat) : Bool := memN s b 4 == 0x5051584B && memN s (b + 4) 2 == 1

/-- The instruction count of a context's program; 0 when it has none. -/
def progCount (s : State) (c : Nat) : Nat :=
  match progBase s c with | some b => if progValid s b then instrCount s b else 0 | none => 0

/-- The instruction word at address `a` of a context's program. -/
def progWord (s : State) (c a : Nat) : Nat := match progBase s c with | some b => instrWord s b a | none => 0

/-- Whether a context takes its next instruction: it runs, none is in progress, and no abort, takeover or debug halt stops
it. -/
def takesInstr (s : State) (c : Nat) : Bool :=
  let x := ctxOf s c
  ctxInStep s c && x.state == .running && x.cur.isNone && !x.takeover && !x.halted &&
    (match x.stopAt with | some n => decide (x.emitted < n) | none => true)

/-- Whether the gate and the points of effect let the next vector of a context be emitted. -/
def mayEmit (s : State) (c : Nat) : Bool :=
  decide ((ctxOf s c).emitted < emitLimit s c) && !(boundaryDue s c (ctxOf s c).emitted)

/-- The micro-state window shows the instruction being executed and its address (R222). -/
def noteInstr (c w pc : Nat) (s : State) : State :=
  set64 (Reg.SEQ_MST_INSTR c 0) w (setRegN (Reg.SEQ_MST_INSTR_PC c) (pc % 16777216) s)

/-- The length in microwords of the atomic section of an instruction in microcode version 0x0001_0004 (R221), 0 for one without: PLAY,
PLAYN and MATCH have theirs at each segment start, and MATCH `matchSection` at each outcome. A sequence command runs its instruction whole,
so that no trap falls into a section. -/
def sectionLength (op : Nat) : Nat :=
  match op with
  | 0x01 => 6 | 0x02 => 6 | 0x09 => 6 | 0x03 => 12 | 0x04 => 8 | 0x05 => 5 | 0x06 => 5 | 0x08 => 10 | 0x0A => 7 | 0x0C => 4
  | 0x0D => 3 | 0x0F => 4 | 0x10 => 18 | 0x11 => 9
  | _ => 0

/-- The section of a MATCH outcome, and that of the JUMP_REQUEST handler (R221). -/
def matchSection : Nat := 14
def requestSection : Nat := 24

/-- Runs the instruction at the context's address when it has opcode `op`; a word that is no instruction and an address past
the last one are program errors, which any of the instruction commands raises (R210). An instruction that emits vectors
waits until the next vector may be emitted. -/
def seqStep (c op : Nat) (k : Nat → State → State) (s : State) : State :=
  if !(takesInstr s c) then s
  else
    let pc := (ctxOf s c).pc
    if progCount s c ≤ pc then programError c pePcEnd s
    else
      let w := progWord s c pc
      let s := noteInstr c w pc s
      let s := match progBase s c with | some b => poisonRead (b + 0x40 + 8 * pc) 8 s | none => s
      if !(wordValid w) then programError c peBadOpcode s
      else if opcOf w ≠ op then s
      else if emitting op && !(mayEmit s c) then s
      else k w s

/-- Ends an instruction without vectors: the next address, and whatever may be emitted. -/
def seqNext (c : Nat) (s : State) : State := showCtx c (nextInstr c s)

/-- Continues at an address. -/
def seqGoto (c a : Nat) (s : State) : State := showCtx c (writeCheckpoint c (modCtx c (fun x => { x with pc := a }) s))

/-! ### Segments -/

/-- Why a segment cannot be played: 0 when it can (R183, R204, R210). -/
def segError (s : State) (id : Nat) : Nat :=
  match objOf s id with
  | none => peSegInvalid
  | some o =>
    if o.typ ≠ 2 then peSegInvalid
    else match o.base with
      | none => peNotResident
      | some b => if segValid s b then 0 else peSegInvalid

/-- The start-trigger line of an instruction with STRIG and SLINE. -/
def strigOf (w : Nat) : Option Nat := if bitN w 57 then some (bitsN w 56 51) else none

/-- Begins an instruction that emits vectors. -/
def begin_ (c : Nat) (cur : Cur) (st : CtxState) (s : State) : State :=
  emitAll c (modCtx c (fun x => { x with cur := some cur, state := st }) s)

/-- PLAY, PLAYN. -/
def playSeg (c seg reps : Nat) (line : Option Nat) (each : Bool) (s : State) : State :=
  if reps = 0 then programError c peZeroCount s
  else
    let e := segError s seg
    if e ≠ 0 then programError c e s
    else begin_ c (.play seg (segLen s ((residentBase s seg).getD 0)) reps 0 0 line each) .running (touchObj seg s)

/-- MATCH. -/
def matchSeg (c : Nat) (w : Nat) (s : State) : State :=
  let seg := bitsN w 31 0
  if bitsN w 49 32 = 0 then programError c peZeroCount s
  else
    let e := segError s seg
    if e ≠ 0 then programError c e s
    else begin_ c (.matching seg (segLen s ((residentBase s seg).getD 0)) (bitsN w 49 32) 0 (strigOf w) (bitN w 50) [])
      .running (touchObj seg s)

/-! ### Loops and calls -/

/-- Pushes a loop entry (R185). -/
def pushLoop (c count : Nat) (s : State) : State :=
  modCtx c (fun x => { x with
    loops := { body := x.pc + 1, left := count - 1, endless := count == 0 } :: x.loops }) s

/-- LOOP (R185, R203, R249). -/
def loopInstr (c w : Nat) (s : State) : State :=
  let x := ctxOf s c
  let n := bitsN w 51 32
  let b := (progBase s c).getD 0
  if 4 ≤ x.loops.length then programError c peLoopOverflow s
  else match residencyList s b n with
    | none => programError c peBadList s
    | some ids =>
      let s := modCtx c (fun x => { x with pinned := x.pinned ++ ids, checkedLists := x.checkedLists ++ [n] }) s
      if ids.all (isResident s) then seqNext c (pushLoop c (bitsN w 31 0) (ids.foldl (fun s i => touchObj i s) s))
      else
        let s := ids.foldl (fun s i => requestStage false i s) s
        let a := Reg.SEQ_CTX_HOLDS c
        let s := setFld a 15 0 (min (rdFld s a 15 0 + 1) 65535) s
        showCtx c (writeCheckpoint c
          (modCtx c (fun x => { x with cur := some (.resHold x.emitted n (bitsN w 31 0) ids), state := .resHold }) s))

/-- ENDLOOP (R185). -/
def endLoop (c : Nat) (s : State) : State :=
  match (ctxOf s c).loops with
  | [] => programError c peLoopUnderflow s
  | e :: es =>
    if e.endless then seqGoto c e.body s
    else if e.left = 0 then seqNext c (modCtx c (fun x => { x with loops := es }) s)
    else seqGoto c e.body (modCtx c (fun x => { x with loops := { e with left := e.left - 1 } :: es }) s)

/-- CALL. -/
def callInstr (c target : Nat) (s : State) : State :=
  if 8 ≤ (ctxOf s c).calls.length then programError c peCallOverflow s
  else if progCount s c ≤ target then programError c peBadTarget s
  else seqGoto c target (modCtx c (fun x => { x with calls := (x.pc + 1) :: x.calls }) s)

/-- RET. -/
def retInstr (c : Nat) (s : State) : State :=
  match (ctxOf s c).calls with
  | [] => programError c peCallUnderflow s
  | a :: as => seqGoto c a (modCtx c (fun x => { x with calls := as }) s)

/-- JUMP. -/
def jumpInstr (c target : Nat) (s : State) : State :=
  if progCount s c ≤ target then programError c peBadTarget s else seqGoto c target s

/-- JUMPC: arms or disarms the conditional jump (R187, R188, R190). -/
def jumpcInstr (c w : Nat) (s : State) : State :=
  let x := ctxOf s c
  let target := bitsN w 23 0
  let lpop := bitsN w 45 43
  let cpop := bitsN w 42 39
  let op := opcOf (progWord s c target)
  if progCount s c ≤ target || !(op == 0x01 || op == 0x02 || op == 0x09) then programError c peBadTarget s
  else if x.loops.length < lpop || x.calls.length < cpop then programError c pePopRange s
  else
    seqNext c (modCtx c (fun x => { x with
      arms := x.arms ++ [{ pos := x.emitted, cond := bitsN w 57 54, arg := bitsN w 53 47, stay := bitN w 46, lpop := lpop,
                           cpop := cpop, target := target }] }) s)

/-! ### Instructions at a stream position -/

/-- The groups whose TMASTER is context `c` (R198). -/
def masteredGroups (s : State) (c : Nat) : List Nat :=
  (List.range 16).filter (fun g => (groupRole s g).enabled && (groupRole s g).tmaster == c)

/-- TSET (R198). -/
def tsetInstr (c set : Nat) (s : State) : State :=
  let gs := masteredGroups s c
  if gs.isEmpty then programError c peTsetNotMaster s
  else seqNext c (gs.foldl (fun s g => setInStream (2 * (ctxOf s c).emitted + 1) set g s) s)

/-- SIGNAL: acts at the next vector (R199). -/
def signalInstr (c w : Nat) (s : State) : State :=
  seqNext c (modCtx c (fun x => { x with signals := x.signals ++ [.signal (bitsN w 57 56) (bitsN w 55 50) (bitsN w 31 0)] }) s)

/-- Requests the staging of a stage list for a context (R200). -/
def requestList (c n : Nat) (ids : List Nat) (s : State) : State :=
  let s := ids.foldl (fun s i => requestStage false i s) s
  stageDone c (modCtx c (fun x => { x with stageReq := x.stageReq ++ [(n, ids)] }) s)

/-- STAGE (R200). -/
def stageInstr (c n : Nat) (s : State) : State :=
  match stageList s ((progBase s c).getD 0) n with
  | none => programError c peBadList s
  | some ids => seqNext c (requestList c n ids s)

/-- SITEMASK (R201). -/
def siteMaskInstr (c w : Nat) (s : State) : State :=
  let bank := bitsN w 57 56
  let m := bitsN w 31 0 * 2 ^ (32 * bank)
  let all := 2 ^ (siteList s c).length - 1
  let field := 4294967295 * 2 ^ (32 * bank)
  let f := fun (v : Nat) => match bitsN w 33 32 with
    | 0 => Nat.xor v (v &&& field) ||| m
    | 1 => v ||| m
    | _ => Nat.xor v (v &&& m)
  seqNext c (modCtx c (fun x => { x with mask := f x.mask &&& all }) s)

/-- Ends a context's part of the step at HOLD or HALT (R185, R208). -/
def endPart (c : Nat) (st : CtxState) (s : State) : State := settleEnd (showCtx c (endContext c st s))

/-- HOLD. -/
def holdInstr (c n : Nat) (s : State) : State :=
  match residencyList s ((progBase s c).getD 0) n with
  | none => programError c peBadList s
  | some _ =>
    let x := ctxOf s c
    let s := seqLog 0x0F c x.pc (x.emitted - 1) n 0 false s
    endPart c .holdWait (modCtx c (fun x => { x with pc := x.pc + 1, holdRlist := n }) s)

/-- HALT, and the end of a timeout with TOHALT. -/
def haltInstr (c : Nat) (s : State) : State :=
  let x := ctxOf s c
  endPart c .ended (seqLog 0x10 c x.pc (x.emitted - 1) 0 0 false s)

/-! ### Points of effect -/

/-- Whether control flow from address `pc` reaches an instruction that emits vectors before the context emits anything or ends
(R178, R241); `fuel` bounds the instructions followed. -/
def reachesEmit (s : State) (c : Nat) : Nat → Nat → List LoopEntry → List Nat → Bool
  | 0, _, _, _ => false
  | fuel + 1, pc, loops, calls =>
    let w := progWord s c pc
    let op := opcOf w
    if progCount s c ≤ pc || !(wordValid w) then false
    else if emitting op then true
    else match op with
      | 0x03 =>
        (match residencyList s ((progBase s c).getD 0) (bitsN w 51 32) with
         | some ids => decide (loops.length < 4) && ids.all (isResident s) &&
             reachesEmit s c fuel (pc + 1) ({ body := pc + 1, left := bitsN w 31 0 - 1, endless := bitsN w 31 0 == 0 } :: loops) calls
         | none => false)
      | 0x04 =>
        (match loops with
         | [] => false
         | e :: es =>
           if e.endless then reachesEmit s c fuel e.body loops calls
           else if e.left = 0 then reachesEmit s c fuel (pc + 1) es calls
           else reachesEmit s c fuel e.body ({ e with left := e.left - 1 } :: es) calls)
      | 0x05 => decide (calls.length < 8) && reachesEmit s c fuel (bitsN w 23 0) loops ((pc + 1) :: calls)
      | 0x06 => (match calls with | [] => false | a :: as => reachesEmit s c fuel a loops as)
      | 0x07 => reachesEmit s c fuel (bitsN w 23 0) loops calls
      | 0x10 => false
      | 0x11 => false
      | _ => reachesEmit s c fuel (pc + 1) loops calls

/-- Whether the instruction after the one in progress leads to an instruction that emits vectors. -/
def nextEmits (s : State) (c : Nat) : Bool :=
  let x := ctxOf s c
  reachesEmit s c 65536 (x.pc + 1) x.loops x.calls

/-- How a MATCH leaves at the present position (R194, R195): on its match, without one, or not yet. -/
inductive MatchEnd where
  | no
  | matched
  | timeout
  deriving DecidableEq, Repr

/-- How a MATCH with these repetitions leaves at stream position `p`. -/
def matchEnd (maxrep p : Nat) (reps : List MatchRep) : MatchEnd :=
  match reps.find? (fun r => r.matched == some true) with
  | some r => if 64 * (r.last / 64 + 40) ≤ p then .matched else .no
  | none =>
    match reps.getLast? with
    | some r =>
      if maxrep ≤ reps.length && reps.all (fun r => r.matched == some false) && decide (64 * (r.last / 64 + 40) ≤ p) then .timeout
      else .no
    | none => .no

/-- Whether an emission in progress stands at a point of effect of a BOUNDARY jump (R243); at the leave point of a MATCH it is that of the
instruction that would start there (R247). -/
def atStartPoint (s : State) (c : Nat) : Bool :=
  let x := ctxOf s c
  match x.cur with
  | some (.play _ _ _ _ off _ _) => off == 0
  | some (.matching _ _ maxrep off _ toHalt reps) =>
    off == 0 &&
    (match matchEnd maxrep x.emitted reps with
     | .no => decide (reps.length < maxrep)
     | .matched => nextEmits s c
     | .timeout => !toHalt && nextEmits s c)
  | some (.waitt _ _ _ start _) => x.emitted == start
  | some (.waittime start count) => x.emitted == start && count != 0
  | _ => false

/-- Whether the instruction in progress has emitted its last vector, so that the old stream goes on before the point. -/
def curFinished (x : Ctx) : Bool :=
  match x.cur with | some (.waittime start count) => x.emitted == start + count | _ => false

/-- Whether a context stands at the point of effect of its pending jump (R189, R241, R243); an abort wins over it (R226). -/
def atEffect (s : State) (c : Nat) : Bool :=
  let x := ctxOf s c
  let starts := x.cur.isNone && decide (x.pc < progCount s c) && emitting (opcOf (progWord s c x.pc))
  match x.jump with
  | none => false
  | some j =>
    ctxInStep s c && !(ctxEnded x) && !x.takeover && !x.halted && x.stopAt.isNone &&
    (if rdBit s (Reg.SEQ_CTX_CFG c) 0 then decide (64 * (j.frame + 40) ≤ x.emitted) && (starts || atStartPoint s c)
     else x.emitted == 64 * (j.frame + 40) && (starts || (x.cur.isSome && !(curFinished x))))

/-- The SEG_CUT record of a segment in progress at a point of effect (R193, R242). -/
def cutSegment (c : Nat) (s : State) : State :=
  let x := ctxOf s c
  let cut := fun seg off => if off = 0 then s else seqLog 0x03 c x.pc (x.emitted - off) seg off true s
  match x.cur with
  | some (.play seg _ _ _ off _ _) => cut seg off
  | some (.matching seg _ _ off _ _ _) => cut seg off
  | _ => s

/-- JUMP_EFFECT: the stream of TARGET starts (R189, R242). -/
def jumpEffect (c : Nat) (s : State) : State :=
  match (ctxOf s c).jump with
  | none => s
  | some j =>
    if !(atEffect s c) then s
    else
      let s := cutSegment c s
      let x := ctxOf s c
      let s := seqLog 0x05 c x.pc x.emitted j.target j.frame false s
      let s := incWrap (Reg.SEQ_CTX_JTAKEN c) 1 s
      showCtx c (writeCheckpoint c (modCtx c (fun x => { noteIgnored x with
        loops := x.loops.drop j.lpop, calls := x.calls.drop j.cpop, pc := j.target, cur := none, state := .running,
        jump := none, lastJump := some (j.frame, x.emitted / 64, j.target) }) s))

/-! ### Ends of waits, match loops and holds -/

/-- Whether an emission in progress may end at this vector: the gate is open there and no jump acts there. -/
def mayLeave (s : State) (c : Nat) : Bool :=
  decide ((ctxOf s c).emitted < emitLimit s c) && ctxInStep s c && !(ctxOf s c).takeover && !(ctxOf s c).halted

/-- Whether a BOUNDARY jump takes the vector at which the instruction in progress would be followed by the next. -/
def jumpWins (s : State) (c : Nat) : Bool := boundaryDue s c (ctxOf s c).emitted && nextEmits s c

/-- Ends the instruction in progress with its record. -/
def leaveWith (t c arg0 arg1 : Nat) (s : State) : State :=
  let x := ctxOf s c
  showCtx c (nextInstr c (modCtx c noteIgnored (seqLog t c x.pc x.emitted arg0 arg1 false s)))

/-- MATCH_LEAVE: the leave point of a MATCH (R194, R195, R245 to R247). When a jump acts on the same vector, it wins: the MATCH neither logs
nor flags anything, and nothing after it starts. -/
def matchLeave (c : Nat) (s : State) : State :=
  let x := ctxOf s c
  match x.cur with
  | some (.matching seg _ maxrep off _ toHalt reps) =>
    if !(mayLeave s c) || off ≠ 0 || (boundaryDue s c x.emitted && atStartPoint s c) then s
    else match matchEnd maxrep x.emitted reps with
      | .no => s
      | .matched => leaveWith 0x0B c seg reps.length s
      | .timeout =>
        let s := setBit (Reg.SEQ_CTX_STATUS c) 13 true s
        if toHalt then haltInstr c (seqLog 0x0C c x.pc x.emitted seg reps.length false s)
        else leaveWith 0x0C c seg reps.length s
  | _ => s

/-- WAITT_RELEASE: the first vector of frame f + 40 comes before the timeout (R196). With a jump on the same vector no WAIT_DONE record is
written (R255). -/
def waittRelease (c : Nat) (s : State) : State :=
  let x := ctxOf s c
  match x.cur with
  | some (.waitt line timeout _ start (some f)) =>
    if mayLeave s c && x.emitted == 64 * (f + 40) && (timeout == 0 || decide (x.emitted - start < timeout)) then
      if jumpWins s c then showCtx c (nextInstr c s) else leaveWith 0x0D c line (x.emitted - start) s
    else s
  | _ => s

/-- WAITT_TIMEOUT (R196). -/
def waittTimeout (c : Nat) (s : State) : State :=
  let x := ctxOf s c
  match x.cur with
  | some (.waitt line timeout toHalt start _) =>
    if mayLeave s c && timeout != 0 && x.emitted == start + timeout then
      let s := setBit (Reg.SEQ_CTX_STATUS c) 14 true s
      if toHalt then haltInstr c (seqLog 0x0E c x.pc x.emitted line timeout false s)
      else leaveWith 0x0E c line timeout s
    else s
  | _ => s

/-- WAITTIME_END (R197). -/
def waittimeEnd (c : Nat) (s : State) : State :=
  let x := ctxOf s c
  if ctxInStep s c && !x.takeover && !x.halted && curFinished x then showCtx c (nextInstr c s) else s

/-- RESIDENCY_HOLD_END: all objects of a held LOOP are resident, and the first pass begins at vector 0 of the first pin frame not yet emitted
(R250): the hold vectors fill the frame that has begun, as far as the gate permits, and the pass begins once they have. -/
def residencyHoldEnd (c : Nat) (s : State) : State :=
  let x := ctxOf s c
  match x.cur with
  | some (.resHold start n count ids) =>
    if ctxInStep s c && !x.takeover && !x.halted && x.stopAt.isNone && ids.all (isResident s) then
      let s := holdTo c (64 * ceilDiv x.emitted 64) s
      let y := ctxOf s c
      if y.emitted % 64 = 0 then
        seqNext c (pushLoop c count (seqLog 0x08 c y.pc start n (y.emitted - start) false s))
      else s
    else s
  | _ => s

/-! ### Meanings -/

/-- PLAY. -/
def execSeqPlay (c : Fin 64) (s : State) : Host.Outcome State Fault Refusal :=
  .next (seqStep c.val 0x01 (fun w => playSeg c.val (bitsN w 31 0) 1 (strigOf w) false) s)

/-- PLAYN. -/
def execSeqPlayn (c : Fin 64) (s : State) : Host.Outcome State Fault Refusal :=
  .next (seqStep c.val 0x02 (fun w => playSeg c.val (bitsN w 31 0) (bitsN w 49 32) (strigOf w) (bitN w 50)) s)

/-- LOOP. -/
def execSeqLoop (c : Fin 64) (s : State) : Host.Outcome State Fault Refusal :=
  .next (seqStep c.val 0x03 (loopInstr c.val) s)

/-- ENDLOOP. -/
def execSeqEndloop (c : Fin 64) (s : State) : Host.Outcome State Fault Refusal :=
  .next (seqStep c.val 0x04 (fun _ => endLoop c.val) s)

/-- CALL. -/
def execSeqCall (c : Fin 64) (s : State) : Host.Outcome State Fault Refusal :=
  .next (seqStep c.val 0x05 (fun w => callInstr c.val (bitsN w 23 0)) s)

/-- RET. -/
def execSeqRet (c : Fin 64) (s : State) : Host.Outcome State Fault Refusal :=
  .next (seqStep c.val 0x06 (fun _ => retInstr c.val) s)

/-- JUMP. -/
def execSeqJump (c : Fin 64) (s : State) : Host.Outcome State Fault Refusal :=
  .next (seqStep c.val 0x07 (fun w => jumpInstr c.val (bitsN w 23 0)) s)

/-- JUMPC. -/
def execSeqJumpc (c : Fin 64) (s : State) : Host.Outcome State Fault Refusal :=
  .next (seqStep c.val 0x08 (jumpcInstr c.val) s)

/-- MATCH. -/
def execSeqMatch (c : Fin 64) (s : State) : Host.Outcome State Fault Refusal :=
  .next (seqStep c.val 0x09 (matchSeg c.val) s)

/-- WAITT (R196). -/
def execSeqWaitt (c : Fin 64) (s : State) : Host.Outcome State Fault Refusal :=
  .next (seqStep c.val 0x0A (fun w s =>
    begin_ c.val (.waitt (bitsN w 57 52) (bitsN w 39 0) (bitN w 51) (ctxOf s c.val).emitted none) .waiting s) s)

/-- WAITTIME (R197). -/
def execSeqWaittime (c : Fin 64) (s : State) : Host.Outcome State Fault Refusal :=
  .next (seqStep c.val 0x0B (fun w s =>
    if bitsN w 39 0 = 0 then programError c.val peZeroCount s
    else begin_ c.val (.waittime (ctxOf s c.val).emitted (bitsN w 39 0)) .waiting s) s)

/-- TSET. -/
def execSeqTset (c : Fin 64) (s : State) : Host.Outcome State Fault Refusal :=
  .next (seqStep c.val 0x0C (fun w => tsetInstr c.val (bitsN w 5 0)) s)

/-- SIGNAL. -/
def execSeqSignal (c : Fin 64) (s : State) : Host.Outcome State Fault Refusal :=
  .next (seqStep c.val 0x0D (signalInstr c.val) s)

/-- STAGE. -/
def execSeqStage (c : Fin 64) (s : State) : Host.Outcome State Fault Refusal :=
  .next (seqStep c.val 0x0E (fun w => stageInstr c.val (bitsN w 19 0)) s)

/-- SITEMASK. -/
def execSeqSitemask (c : Fin 64) (s : State) : Host.Outcome State Fault Refusal :=
  .next (seqStep c.val 0x0F (siteMaskInstr c.val) s)

/-- HOLD. -/
def execSeqHold (c : Fin 64) (s : State) : Host.Outcome State Fault Refusal :=
  .next (seqStep c.val 0x10 (fun w => holdInstr c.val (bitsN w 19 0)) s)

/-- HALT. -/
def execSeqHalt (c : Fin 64) (s : State) : Host.Outcome State Fault Refusal :=
  .next (seqStep c.val 0x11 (fun _ => haltInstr c.val) s)

/-- JUMP_EFFECT. -/
def execJumpEffect (c : Fin 64) (s : State) : Host.Outcome State Fault Refusal := .next (jumpEffect c.val s)

/-- MATCH_LEAVE. -/
def execMatchLeave (c : Fin 64) (s : State) : Host.Outcome State Fault Refusal := .next (matchLeave c.val s)

/-- WAITT_RELEASE. -/
def execWaittRelease (c : Fin 64) (s : State) : Host.Outcome State Fault Refusal := .next (waittRelease c.val s)

/-- WAITT_TIMEOUT. -/
def execWaittTimeout (c : Fin 64) (s : State) : Host.Outcome State Fault Refusal := .next (waittTimeout c.val s)

/-- WAITTIME_END. -/
def execWaittimeEnd (c : Fin 64) (s : State) : Host.Outcome State Fault Refusal := .next (waittimeEnd c.val s)

/-- RESIDENCY_HOLD_END. -/
def execResidencyHoldEnd (c : Fin 64) (s : State) : Host.Outcome State Fault Refusal := .next (residencyHoldEnd c.val s)

end Sys2Proof.Machine
end

