-- ==== Sys2Proof/Machine/Micro.lean ====
section
/-! DEFINITION. Microwords and micro-traps (R214 to R222), state-store faults of contexts and their takeover by spare
contexts (R223 to R225). -/

namespace Sys2Proof.Machine

open Sys2Proof

/-! ### Micro-state -/

/-- The micro-state of context `c`. -/
def microOf (s : State) (c : Nat) : Micro := tget (fun _ => {}) s.seq.micro c

/-- Changes the micro-state of context `c`. -/
def modMicro (c : Nat) (f : Micro → Micro) (s : State) : State :=
  { s with seq := { s.seq with micro := tset (fun _ => {}) s.seq.micro c (f (microOf s c)) } }

/-- Word `n` of the control store (R216, R229). -/
def ctrlWord (s : State) (n : Nat) : Nat :=
  if n < 8192 then rdN s (Reg.SEQ_UCODE_LO n) else rdN s (Reg.SEQ_UCODE_HI (n % 8192))

/-- Micro-register `r`. -/
def uReg (m : Micro) (r : Nat) : Nat := (tget (fun _ => (0 : BitVec 64)) m.regs r).toNat

/-- A micro-state with register `r` set. -/
def Micro.put (m : Micro) (r v : Nat) : Micro := { m with regs := tset (fun _ => 0) m.regs r (BitVec.ofNat 64 v) }

/-- The next microword follows. -/
def Micro.step (m : Micro) : Micro := { m with mpc := (m.mpc + 1) % 16384 }

/-- The engine that runs context `c` (R170, R171): 8 is the spare engine. -/
def engineOf (s : State) (c : Nat) : Nat := if (ctxOf s c).onSpare then 8 else c / 8

/-! ### Microwords -/

/-- What an ALU operation gives (R217): its 64-bit result, carry and overflow where the spec gives them. -/
structure AluOut where
  value : Option Nat
  carry : Option Bool
  ovf : Option Bool
  deriving DecidableEq, Repr

/-- The ALU operations (R217). Which way C reads after a subtraction, C and V after the others, and a shift by 64 or more are
not stated. -/
def alu (op a b : Nat) : AluOut :=
  let w := 2 ^ 64
  let sa := sext 64 a
  let sb := sext 64 b
  let out := fun (v : Int) => !(decide (-(2 ^ 63 : Int) ≤ v) && decide (v < (2 ^ 63 : Int)))
  match op with
  | 0 => { value := some ((a + b) % w), carry := some (decide (w ≤ a + b)), ovf := some (out (sa + sb)) }
  | 1 => { value := some ((a + w - b) % w), carry := none, ovf := some (out (sa - sb)) }
  | 2 => { value := some (a &&& b), carry := none, ovf := none }
  | 3 => { value := some (a ||| b), carry := none, ovf := none }
  | 4 => { value := some (Nat.xor a b), carry := none, ovf := none }
  | 5 => { value := if b < 64 then some (a * 2 ^ b % w) else none, carry := none, ovf := none }
  | 6 => { value := if b < 64 then some (a / 2 ^ b) else none, carry := none, ovf := none }
  | 7 => { value := if b < 64 then some (twos 64 (sa / ((2 ^ b : Nat) : Int))) else none, carry := none, ovf := none }
  | 8 => { value := some (min a b), carry := none, ovf := none }
  | 9 => { value := some (max a b), carry := none, ovf := none }
  | 10 => { value := some ((a + w - b) % w), carry := none, ovf := some (out (sa - sb)) }
  | _ => { value := some (a &&& b), carry := none, ovf := none }

/-- A value, or the next free one. -/
def orFree (n : Nat) (v : Option Nat) (s : State) : Nat × State := match v with | some x => (x, s) | none => freeNat n s

/-- An ALU microword. -/
def aluWord (c w : Nat) (s : State) : State :=
  let m := microOf s c
  let op := bitsN w 29 26
  let b := if bitN w 17 then twos 64 (sext 17 w) else uReg m (bitsN w 16 13)
  let r := alu op (uReg m (bitsN w 21 18)) b
  let (v, s) := orFree 64 r.value s
  let (cy, s) := orFree 1 (r.carry.map b2n) s
  let (ov, s) := orFree 1 (r.ovf.map b2n) s
  modMicro c (fun m =>
    let m := if op < 10 then m.put (bitsN w 25 22) v else m
    { m with z := v == 0, n := bitN v 63, c := cy == 1, v := ov == 1 }.step) s

/-! ### Context fields -/

/-- How many numbered fields LDF and STF reach: the 36 words of the context block's window, the arm and the pending request. -/
def fieldCount : Nat := 38

/-- The field that an OPERAND names. -/
def fieldOf (operand : Nat) : Nat := Config.contextField operand % fieldCount

/-- The arm in force as the fields of its JUMPC (R184). -/
def armWord (x : Ctx) : Nat :=
  match x.arms.getLast? with
  | some a => a.cond * 2 ^ 54 + a.arg * 2 ^ 47 + b2n a.stay * 2 ^ 46 + a.lpop * 2 ^ 43 + a.cpop * 2 ^ 39 + a.target
  | none => 0

/-- The pending request: VALID, its pops, its frame and its target. -/
def jumpWord (x : Ctx) : Nat :=
  match x.jump with
  | some j => 2 ^ 63 + j.lpop * 2 ^ 60 + j.cpop * 2 ^ 56 + j.frame % 2 ^ 32 * 2 ^ 24 + j.target
  | none => 0

/-- The value of context field `n`. -/
def readField (s : State) (c n : Nat) : Nat :=
  if n < 36 then rdN s (Reg.SEQ_CTX_STATUS c + 4 * n) else if n = 36 then armWord (ctxOf s c) else jumpWord (ctxOf s c)

/-- What the context registers say of a context: its address, both stacks and the compare mask (R228). -/
def takeCtx (s : State) (c : Nat) (x : Ctx) : Ctx :=
  { x with
    pc := rdFld s (Reg.SEQ_CTX_PC c) 23 0,
    loops := ((List.range (rdFld s (Reg.SEQ_CTX_STATUS c) 19 17)).map (fun k =>
      ({ body := rdFld s (Reg.SEQ_CTX_LPC c k) 23 0, left := rdN s (Reg.SEQ_CTX_LCNT c k),
         endless := rdBit s (Reg.SEQ_CTX_LPC c k) 31 } : LoopEntry))).reverse,
    calls := ((List.range (rdFld s (Reg.SEQ_CTX_STATUS c) 23 20)).map (fun k => rdFld s (Reg.SEQ_CTX_CALL c k) 23 0)).reverse,
    mask := ofLeWords (rdRegs s (Reg.SEQ_CTX_SMASK c 0) 4) }

/-- STF puts a value into context field `n`. -/
def writeField (c n v : Nat) (s : State) : State :=
  if n < 36 then
    let s := setRegN (Reg.SEQ_CTX_STATUS c + 4 * n) v s
    modCtx c (takeCtx s c) s
  else if n = 36 then
    modCtx c (fun x => { x with arms := x.arms ++ [{ pos := x.emitted, cond := bitsN v 57 54, arg := bitsN v 53 47, stay := bitN v 46,
                                                     lpop := bitsN v 45 43, cpop := bitsN v 42 39, target := bitsN v 23 0 }] }) s
  else
    let j : JumpReq := { frame := bitsN v 55 24, target := bitsN v 23 0, lpop := bitsN v 62 60, cpop := bitsN v 59 56 }
    modCtx c (fun x => { x with jump := if bitN v 63 then some j else none }) s

/-- A MOVE microword (R217); the numbers of the context fields are the vendor's, and free here (notes/assumptions/53.md). -/
def moveWord (c w : Nat) (s : State) : State :=
  let m := microOf s c
  let rdI := bitsN w 25 22
  match bitsN w 29 26 with
  | 0 => modMicro c (fun m => (m.put rdI (uReg m (bitsN w 21 18))).step) s
  | 1 =>
    let k := 16 * bitsN w 17 16
    let v := uReg m rdI
    modMicro c (fun m => (m.put rdI (putBitsN v (k + 15) k (bitsN w 15 0))).step) s
  | 2 => modMicro c (fun m => (m.put rdI (readField s c (fieldOf (bitsN w 17 0)))).step) s
  | 3 => modMicro c Micro.step (writeField c (fieldOf (bitsN w 17 0)) (uReg m (bitsN w 21 18)) s)
  | _ => modMicro c (fun m => (m.put rdI (rdN s (Reg.SEQ_MST_U c (bitsN w 17 0 % 64)))).step) s

/-- Whether the condition of a BRANCH microword holds; DISPATCH and RETURN always do. -/
def branchTaken (m : Micro) (cond : Nat) : Bool :=
  match cond with
  | 1 => m.z
  | 2 => !m.z
  | 3 => m.n
  | 4 => !m.n
  | 5 => m.c
  | 6 => !m.c
  | 7 => m.v
  | _ => true

/-- A BRANCH microword. -/
def branchWord (c w : Nat) (s : State) : State :=
  let m := microOf s c
  let cond := bitsN w 29 26
  let dest := match cond with
    | 8 => ctrlWord s (opcOf (uReg m 0)) % 16384
    | 9 => uReg m 15 % 16384
    | _ => bitsN w 13 0
  let next := (m.mpc + 1) % 16384
  modMicro c (fun m =>
    let t := branchTaken m cond
    let m := if bitN w 25 then m.put 15 next else m
    { m with mpc := if t then dest else next }) s

/-- The return from a trap handler: the saved micro-PC, registers and flags (R219). -/
def trapReturn (c : Nat) (s : State) : State :=
  let flags := rdN s (Reg.SEQ_MST_MFLAGS c)
  let regs := (List.range 16).foldl (fun t r => tset (fun _ => (0 : BitVec 64)) t r (BitVec.ofNat 64 (rd64 s (Reg.SEQ_MST_U c (2 * r))))) []
  setBit (Reg.SEQ_CTX_STATUS c) 15 false (modMicro c (fun m =>
    { m with regs := regs, mpc := rdFld s (Reg.SEQ_MST_MPC c) 13 0, z := bitN flags 0, n := bitN flags 1, c := bitN flags 2,
             v := bitN flags 3, inTrap := none }) s)

/-- EMIT: vectors of the segment being built, from vector `off` on, as far as it and the points of effect permit (R217). -/
def emitRange (c off n : Nat) (s : State) : State :=
  let seg := rdN s (Reg.SEQ_CTX_SEG c)
  let room := emitLimit s c - (ctxOf s c).emitted
  let left := match residentBase s seg with | some b => segLen s b - off | none => n
  showCtx c (emitRun c (min room (min n left)) (.seg seg off) s)

/-- EMITHOLD: hold vectors, as far as the points of effect permit. -/
def emitHold (c n : Nat) (s : State) : State :=
  showCtx c (emitRun c (min n (emitLimit s c - (ctxOf s c).emitted)) (holdKind s c) s)

/-- CTRL: an entry for the control slot of the next frame of every group that the context masters. -/
def emitCtrl (c e : Nat) (s : State) : State :=
  (masteredGroups s c).foldl (fun s g => modLink g (fun l => { l with ctrl := l.ctrl ++ [e] }) s) s

/-- RESCHK: Z tells whether every object of a residency list is resident; a list number at or above the count is a program error. -/
def checkList (c n : Nat) (s : State) : State :=
  match residencyList s ((progBase s c).getD 0) n with
  | none => programError c peBadList s
  | some ids => let z := ids.all (isResident s); modMicro c (fun m => { m with z := z }.step) s

/-- STGREQ: a stage request. -/
def stageWord (c n : Nat) (s : State) : State :=
  match stageList s ((progBase s c).getD 0) n with
  | none => programError c peBadList s
  | some ids => modMicro c Micro.step (requestList c n ids s)

/-- JREQ: a jump request to an address, for the frame resolved last. -/
def requestWord (c target : Nat) (s : State) : State :=
  makeRequest c 0 { frame := (ctxOf s c).resolved - 1, target := target, lpop := 0, cpop := 0 } s

/-- An IO microword (R217). The spec names each operation and gives the two registers and the immediate no part in it: which of them each
takes is this model's choice (notes/assumptions/53.md). -/
def ioWord (c w : Nat) (s : State) : State :=
  let m := microOf s c
  let a := uReg m (bitsN w 25 22)
  let b := uReg m (bitsN w 21 18)
  let next := modMicro c Micro.step
  match bitsN w 29 26 with
  | 0 =>
    let i := progWord s c (ctxOf s c).pc
    modMicro c (fun m => (m.put 0 i).step) (noteInstr c i (ctxOf s c).pc s)
  | 1 => next (emitRange c a b s)
  | 2 => next (emitHold c a s)
  | 3 => next (emitCtrl c a s)
  | 4 => next (modCtx c (fun x => { x with signals := x.signals ++ [.signal (bitsN a 57 56) (bitsN a 55 50) (bitsN a 31 0)] }) s)
  | 5 => if m.waited then modMicro c (fun m => { m with waited := false }.step) s else s
  | 6 => checkList c (bitsN a 19 0) s
  | 7 => modMicro c (fun m => { m with asec := bitsN w 4 0 + 1 }.step) s
  | 8 => next (seqLog (bitsN w 7 0) c (ctxOf s c).pc (ctxOf s c).emitted (bitsN a 31 0) (bitsN b 31 0) false s)
  | 9 => next (requestWord c (bitsN a 23 0) s)
  | 10 => if m.inTrap.isSome then trapReturn c s else next (writeCheckpoint c s)
  | _ => stageWord c (bitsN a 19 0) s

/-- Whether a microword has a reserved operation code (R217). -/
def microReserved (w : Nat) : Bool :=
  let op := bitsN w 29 26
  match bitsN w 31 30 with
  | 0 => decide (12 ≤ op)
  | 1 => decide (5 ≤ op)
  | 2 => decide (10 ≤ op)
  | _ => decide (12 ≤ op)

/-- Executes one microword of context `c`, whatever traps are pending (R216, R217, R220). -/
def microword (c : Nat) (s : State) : State :=
  let w := ctrlWord s (microOf s c).mpc
  if microReserved w then programError c peBadOpcode s
  else
    let s := match bitsN w 31 30 with
      | 0 => aluWord c w s
      | 1 => moveWord c w s
      | 2 => branchWord c w s
      | _ => ioWord c w s
    modMicro c (fun m => { m with asec := m.asec - 1 }) s

/-! ### Micro-traps -/

/-- Traps in the order they are taken (R218). -/
def trapOrder : List Nat := [2, 1, 3, 4, 5]

/-- Saves the micro-state of context `c` into its window under cause `k` (R219, R222). -/
def saveMicro (c k : Nat) (s : State) : State :=
  let m := microOf s c
  let s := setRegs (Reg.SEQ_MST_U c 0) ((List.range 16).flatMap (fun r => leWords 2 (uReg m r))) s
  let s := setRegN (Reg.SEQ_MST_MPC c) m.mpc s
  let s := setRegN (Reg.SEQ_MST_MFLAGS c) (b2n m.z + 2 * b2n m.n + 4 * b2n m.c + 8 * b2n m.v) s
  let s := setRegN (Reg.SEQ_MST_ASEC_LEFT c) m.asec (setRegN (Reg.SEQ_MST_TRAP_CAUSE c) k s)
  setBit (Reg.SEQ_CTX_STATUS c) 15 true (incWrap (Reg.SEQ_MST_TRAPS c) 1 s)

/-- MICRO_TRAP: the first pending trap is taken (R219): the micro-state is saved into the window and the handler entered. -/
def microTrap (c : Nat) (s : State) : State :=
  let m := microOf s c
  if m.asec ≠ 0 || m.inTrap.isSome then s
  else match trapOrder.find? (fun k => (ctxOf s c).microTraps.contains k) with
    | none => s
    | some k =>
      let s := modCtx c (fun x => { x with microTraps := x.microTraps.erase k }) (saveMicro c k s)
      modMicro c (fun m => { m with mpc := ctrlWord s (64 + k) % 16384, inTrap := some k, waited := true }) s

/-- The routine of a context is over without a return from its handler; a DEBUG_HALT keeps its window (R209, R662). -/
def dropRoutine (c : Nat) (s : State) : State :=
  let s := modCtx c (fun x => { x with microTraps := [] }) s
  if (microOf s c).inTrap = some 5 then s
  else setBit (Reg.SEQ_CTX_STATUS c) 15 false (modMicro c (fun m => { m with asec := 0, inTrap := none, waited := false }) s)

/-- A context stops for the debugger at its instruction boundary, its window readable (R218, R222, R662): the trap DEBUG_HALT is taken,
unless it has been taken within the step. -/
def haltContext (c : Nat) (s : State) : State :=
  let s := modCtx c (fun x => { x with halted := true, halting := false }) (dropRoutine c s)
  if (microOf s c).inTrap = some 5 then s
  else
    let s := saveMicro c 5 s
    modMicro c (fun m => { m with mpc := ctrlWord s 69 % 16384, inTrap := some 5 }) s

/-- A context goes on after a debug halt. -/
def unhaltContext (c : Nat) (s : State) : State :=
  let s := modCtx c (fun x => { x with halting := false }) s
  if (ctxOf s c).halted then modCtx c (fun x => { x with halted := false }) (trapReturn c s) else s

/-! ### State-store faults -/

/-- CONTEXT_FAULT: an ECC error in the state store of context `c` (R223 to R225, R621). -/
def contextFault (c : Nat) (correctable : Bool) (s : State) : State :=
  let x := ctxOf s c
  if correctable then raise (mkFault 1 0x01 c 0x01) s
  else if x.state == .fenced then s
  else
    let fence := fun s => settleEnd (showCtx c (endContext c .fenced (modCtx c (fun x => { x with takeover := false }) (fenceUnit 0x01 c s))))
    if x.takeover || x.onSpare then
      fence (raise { mkFault 3 0x01 c 0x0B with escalated := true } s)
    else if s.img.active.spares.ctx ≠ 0 then
      let s := raise { mkFault 2 0x01 c 0x02 with takeover := true, replacement := 68 - s.seq.ctxSpares } s
      let sp := s.img.active.spares
      let s := { s with
        seq := { s.seq with ctxSpares := s.seq.ctxSpares - 1 },
        img := { s.img with active := { s.img.active with spares := { sp with ctx := sp.ctx - 1 } } } }
      useSpare (modCtx c (fun x => { x with takeover := true }) s)
    else fence (raise (mkFault (if stepRuns s then 3 else 2) 0x01 c 0x0A) s)

/-- The repetitions of a MATCH in a checkpoint with the outcomes that have come since. -/
def withOutcomes (live : List MatchRep) (reps : List MatchRep) : List MatchRep :=
  reps.map (fun r => (live.find? (fun x => x.first == r.first)).getD r)

/-- The emission in progress at a checkpoint, with the conditions delivered since (R224). -/
def resumeCur (live check : Option Cur) : Option Cur :=
  match check, live with
  | some (.matching seg len maxrep off line toHalt reps), some (.matching _ _ _ _ _ _ now) =>
    some (.matching seg len maxrep off line toHalt (withOutcomes now reps))
  | some (.waitt line t toHalt start none), some (.waitt _ _ _ _ acted) => some (.waitt line t toHalt start acted)
  | k, _ => k

/-- The state of a context with an emission in progress. -/
def curState : Option Cur → CtxState
  | some (.waitt _ _ _ _ _) => .waiting
  | some (.waittime _ _) => .waiting
  | some (.resHold _ _ _ _) => .resHold
  | _ => .running

/-- A context as the spare finds it in the checkpoint (R223, R224): the vectors that the frame builders hold are emitted again without
effect. -/
def fromCheckpoint (x : Ctx) : Ctx :=
  let k := x.check
  { x with
    takeover := false, onSpare := true, held := max x.held x.emitted,
    pc := k.pc, loops := k.loops, calls := k.calls, mask := k.mask, cur := resumeCur x.cur k.cur, emitted := k.emitted,
    lastVec := k.lastVec, signals := k.signals, state := curState k.cur }

/-- CONTEXT_TAKEOVER_DONE: the spare resumes from the checkpoint (R224), and a trap that was in progress is taken again (R226). A context
that has ended its part of the step, or takes part in none, has nothing to resume. -/
def contextTakenOver (c : Nat) (s : State) : State :=
  let x := ctxOf s c
  if !x.takeover then s
  else if !(ctxInStep s c) || ctxEnded x || x.state == .starting then modCtx c (fun x => { x with takeover := false, onSpare := true }) s
  else
    let trap := (microOf s c).inTrap
    let s := setBit (Reg.SEQ_CTX_STATUS c) 15 false (modMicro c (fun _ => {}) (modCtx c fromCheckpoint s))
    let s := match trap with | some k => postTrap k c s | none => s
    emitAll c s

/-! ### Meanings -/

/-- MICROWORD_EXECUTE: one microword of a context of the step, on both copies of its engine's datapath (R172); a pending trap is taken
before it (R219). -/
def execMicrowordExecute (c : Fin 64) (copies : Copies) (s : State) : Host.Outcome State Fault Refusal :=
  .next (if ctxInStep s c.val && !(ctxOf s c.val).takeover then
    copiesRun 0x02 (engineOf s c.val) copies (microword c.val (microTrap c.val s)) else s)

/-- MICRO_TRAP. -/
def execMicroTrap (c : Fin 64) (s : State) : Host.Outcome State Fault Refusal := .next (microTrap c.val s)

/-- CONTEXT_FAULT. -/
def execContextFault (c : Fin 64) (correctable : Bool) (s : State) : Host.Outcome State Fault Refusal :=
  .next (contextFault c.val correctable s)

/-- CONTEXT_TAKEOVER_DONE. -/
def execContextTakeoverDone (c : Fin 64) (s : State) : Host.Outcome State Fault Refusal := .next (contextTakenOver c.val s)

end Sys2Proof.Machine
end

