-- ==== Sys2Proof/Machine/LinkOut.lean ====
section
/-! DEFINITION. The outward half of a link (R133 to R169): the frame builder, idle frames with their control entries, and the
LNK registers of the frame layer that act. -/

namespace Sys2Proof.Machine

open Sys2Proof

/-! ### Timing sets in the stream -/

/-- The timing set in force at pin frame `f` of a group (R198, R278): that of the last change in the stream whose boundary is not after
`f`. -/
def setAt (l : Link) (f : Nat) : Nat :=
  (l.tsets.foldl (fun b e => if ceilDiv (e.1 / 2) 64 ≤ f ∧ b.1 ≤ e.1 then e else b) (0, l.tsetNow)).2

/-- A group's sets after its part of the step (R279): the last change of the stream stays in force, and a host write that has not acted
waits for the next outward frame. -/
def settleSets (l : Link) : Link :=
  let ts := l.tsets.filter (fun e => !(l.tsetAt.any (fun b => e.1 == 128 * b)))
  { l with tsetNow := setAt { l with tsets := ts } (2 ^ 64), tsets := [], tsetAt := none }

/-- Whether a host write of TST_TSET waits for the next outward frame (R278). -/
def tsetWaits (s : State) (g : Nat) : Bool :=
  s.shadowF.any (fun e => e.1 == Reg.TST_TSET g) && (linkOf s g).tsetAt.isNone

/-- The set in force in a group as its registers show it (R17, R293). -/
def showSet (g set : Nat) (s : State) : State := setRegN (Reg.TST_TSET g) set (setFld (Reg.TST_STATUS g) 5 0 set s)

/-- A host write of TST_TSET ceases to wait. -/
def dropSetShadow (g : Nat) (s : State) : State := { s with shadowF := s.shadowF.filter (fun e => e.1 != Reg.TST_TSET g) }

/-- A host write of TST_TSET made outside a step takes effect at this outward frame (R278). -/
def takeSetIdle (g : Nat) (s : State) : State :=
  if tsetWaits s g then
    match s.shadowF.find? (fun e => e.1 == Reg.TST_TSET g) with
    | some e =>
      let set := fld e.2 5 0
      setRegN (Reg.TST_TSET_AT g) 0xFFFFFFFF (showSet g set (modLink g (fun l => { l with tsetNow := set }) (dropSetShadow g s)))
    | none => s
  else s

/-- A host write of TST_TSET made within a step takes effect at the boundary of pin frame `f` (R278). -/
def takeSet (g f : Nat) (s : State) : State :=
  match (linkOf s g).tsetAt with
  | some b =>
    if b ≤ f then setRegN (Reg.TST_TSET_AT g) (b % 4294967296) (modLink g (fun l => { l with tsetAt := none }) (dropSetShadow g s))
    else s
  | none => s

/-- The set the next outward frame should be under: that of pin frame 0 before the FIRST frame of a step, and otherwise the
set in force. -/
def setWanted (s : State) (g : Nat) : Nat :=
  let l := linkOf s g
  if groupInStep s g && l.built = 0 then setAt l 0 else l.tsetNow

/-! ### When a DATA frame may be built -/

/-- Whether the stream of context `c` has settled pin frame `f`: its vectors are emitted and so is one more, so that every
instruction before the next boundary has acted (R198, R241); a context that has ended or holds needs no more. -/
def ctxCovers (s : State) (c f : Nat) : Bool :=
  let x := ctxOf s c
  ctxEnded x || holdCovers s c f || (inResHold x && decide (64 * (f + 1) ≤ x.emitted)) ||
  (match x.stopAt with | some n => decide (n ≤ 64 * (f + 1)) && decide (n ≤ x.emitted) | none => false) ||
  decide (64 * (f + 1) < x.emitted)

/-- Whether the step is known to last to the end of frame `f` of group `g` and beyond, or its end is known (R208): a residency hold on the
group's channels fills the frame. -/
def stepCovers (s : State) (st : StepInfo) (g f : Nat) : Bool :=
  let t := 64 * (f + 1) * periodOf s g
  st.endTicks.isSome ||
  st.ctxs.any (fun c => !(ctxEnded (ctxOf s c)) &&
    (decide (t ≤ (ctxOf s c).emitted * ctxPeriod s c) || (ctxMask s c g != 0 && holdCovers s c f)))

/-- Whether the source channels of a group have formed their levels up to vector `v` (not included). -/
def levelsReady (s : State) (g v : Nat) : Bool :=
  (List.range 32).all (fun k => !(isSource (modeOf s (32 * g + k))) || decide (v ≤ (srcCh s (32 * g + k)).next))

/-- What must hold before the FIRST frame of a step (R157, R162, R267, R278): entries and map writes gone, the count aligned, the
set announced. The rewrite of an accepted table goes on after the step (R287). -/
def firstReady (s : State) (g : Nat) : Bool :=
  let l := linkOf s g
  l.idleEntries.isEmpty && l.mapQ.isEmpty && l.mapCursor.isNone && rdBit s (Reg.LNK_FR_STATUS g) 4 &&
  l.announced == some (setAt l 0) && !(tsetWaits s g)

/-- The last vector of group `g` in the step and whether it lies in frame `f` or before it. -/
def lastIn (s : State) (g f : Nat) : Option Nat :=
  match s.seq.step.bind (·.endTicks) with
  | some t =>
    let v := vectorsIn t (periodOf s g) - 1
    if v < 64 * f then some 0 else if v < 64 * (f + 1) then some (v % 64) else none
  | none => none

/-- Whether the frame builder of group `g` sends its next DATA frame (R146, R147, R207, R231). -/
def dataReady (s : State) (g : Nat) : Bool :=
  let l := linkOf s g
  let f := l.built
  match s.seq.step with
  | none => false
  | some st =>
    st.groups.contains g && st.steptime.isSome && l.started && groupActive s g && !l.finished &&
    decide (rdN s (Reg.LNK_FR_OUTSTANDING g) < 32) && (f != 0 || firstReady s g) &&
    (groupCtxs s st.ctxs g).all (fun c => ctxCovers s c f) && stepCovers s st g f &&
    levelsReady s g (match lastIn s g f with | some v => 64 * f + v + 1 | none => 64 * (f + 1))

/-! ### The content of a DATA frame -/

/-- The nibbles of the channels of a mask. -/
def nibbleMask (m : Nat) : Nat := sumN ((bitPositions 32 m).map (fun (k : Nat) => 15 * 16 ^ k))

/-- Vector `p` of group `g` as stored in a segment: each context of the step supplies its own channels (R173); a channel of no
context has action 0b00 and expect 0b11. -/
def builtVector (s : State) (cs : List Nat) (g p : Nat) : Nat :=
  let all := cs.foldl (fun m c => m ||| ctxMask s c g) 0
  cs.foldl (fun v c => v + (streamVector s c g p &&& nibbleMask (ctxMask s c g)))
    (0xCCCCCCCCCCCCCCCCCCCCCCCCCCCCCCCC &&& nibbleMask (0xFFFFFFFF - all))

/-- The outward slot code of channel index `k` at vector `p` (R164). -/
def slotCode (s : State) (g vec p k : Nat) : Nat :=
  match modeOf s (32 * g + k) with
  | 1 => bitsN vec (4 * k + 1) (4 * k)
  | 6 => bitsN vec (4 * k + 1) (4 * k)
  | 4 => (((srcCh s (32 * g + k)).levels.find? (fun e => e.1 == p)).map (·.2)).getD 0
  | 5 => (((srcCh s (32 * g + k)).levels.find? (fun e => e.1 == p)).map (·.2)).getD 0
  | _ => 0

/-- The 64 bits of vector `p` of the payload (R138). -/
def payloadVector (s : State) (g vec p : Nat) : Nat := sumN ((List.range 32).map (fun (k : Nat) => slotCode s g vec p k * 4 ^ k))

/-- The levels sent leave the source channels of a group. -/
def dropLevels (g v : Nat) (s : State) : State :=
  (List.range 32).foldl (fun s k =>
    if (srcCh s (32 * g + k)).levels.isEmpty then s
    else modSrc (32 * g + k) (fun x => { x with levels := x.levels.filter (fun e => decide (v ≤ e.1)) }) s) s

/-- The first vector of pin frame `f` whose segment is not resident (R204). -/
def missingAt (s : State) (x : Ctx) (f : Nat) : Option Nat :=
  x.runs.findSome? (fun r =>
    match r.kind with
    | .seg id _ =>
      let lo := max r.first (64 * f)
      if lo < min (r.first + r.len) (64 * (f + 1)) && !(isResident s id) then some lo else none
    | _ => none)

/-- The segment reads of context `c` for pin frame `f` (R462). -/
def fetchRuns (c f : Nat) (s : State) : State :=
  (ctxOf s c).runs.foldl (fun s r =>
    match r.kind with
    | .seg id off =>
      let lo := max r.first (64 * f)
      let hi := min (r.first + r.len) (64 * (f + 1))
      if lo < hi then
        match residentBase s id with
        | some b =>
          let m := 16 * popcount 16 (memN s (b + 6) 2)
          poisonRead (b + 0x40 + m * (off + (lo - r.first))) (m * (hi - lo)) s
        | none => s
      else s
    | _ => s) s

/-- The vectors of pin frame `f` are fetched for context `c`, once (R204, R462): at a vector whose segment is not resident the context's
stream ends with a program error. -/
def fetchFrame (c f : Nat) (s : State) : State :=
  if f < (ctxOf s c).fetched then s
  else
    let s := modCtx c (fun x => { x with fetched := f + 1 }) s
    match missingAt s (ctxOf s c) f with
    | some v => programError c peNotResident (modCtx c (cutStream v) (fetchRuns c f s))
    | none => fetchRuns c f s

/-! ### Events of the stream -/

/-- A host event or a dispatcher flag of a SIGNAL acts (R199). -/
def fireSignal (s : State) (e : Nat × StreamEvt) : State :=
  match e.2 with
  | .signal 2 num value => pushRec isOwnerEvent (eventRecord 1 num value s) s
  | .signal 3 num value => setFlag num value s
  | _ => s

/-- The host events and flags whose pin time `p` selects act (R199). -/
def fireSignals (p : Nat → Bool) (s : State) : State :=
  let now := s.seq.due.filter (fun e => p e.1)
  now.foldl fireSignal { s with seq := { s.seq with due := s.seq.due.filter (fun e => !(p e.1)) } }

/-- Those whose pin time has come. -/
def signalsDue (s : State) : State := if s.seq.due.isEmpty then s else fireSignals (fun t => decide (t ≤ s.beat)) s

/-- An event of context `c` bound to vector `p` acts (R192, R199): a trigger or a SYNC with its pin time, a host event or a flag when that
time has come, at the next BEAT edge. -/
def actEvent (c : Nat) (s : State) (e : Nat × StreamEvt) : State :=
  let n := ctxPeriod s c
  match e.2 with
  | .startTrigger l => postDirect l (vectorGrid s n e.1) s
  | .signal kind num _ =>
    match kind with
    | 0 => postDirect num (vectorGrid s n e.1) s
    | 1 => syncSet num (e.1 * n) s
    | _ =>
      let at_ := (s.seq.step.bind (·.steptime)).getD 0 + ceilDiv (e.1 * n) 4096
      { s with seq := { s.seq with due := s.seq.due ++ [(at_, e.2)] } }

/-- The events of context `c` that pin frame `f` carries, or all that are left when the frame is the last; a SIGNAL that no
instruction's vector follows acts at the first vector after its position, or at the end of the last (R199). -/
def actEvents (c f : Nat) (last : Bool) (s : State) : State :=
  let x := ctxOf s c
  let loose := ctxEnded x || last
  let evts := x.evts ++ (if loose then x.signals.map (fun e => (if ctxEnded x then x.endVec else x.emitted, e)) else [])
  let now := evts.filter (fun e => last || decide (e.1 < 64 * (f + 1)))
  let later := evts.filter (fun e => !(last || decide (e.1 < 64 * (f + 1))))
  let s := modCtx c (fun x => { x with evts := later, signals := if loose then [] else x.signals }) s
  now.foldl (actEvent c) s

/-! ### Building -/

/-- SEGSTART arguments of pin frame `f`: the segment starts of the group's TMASTER (R157, R192). -/
def segStartsOf (s : State) (g f : Nat) : List Nat :=
  if ctxInStep s (groupRole s g).tmaster then
    ((ctxOf s (groupRole s g).tmaster).segStarts.filter (fun e => e.1 / 64 == f)).map (fun e => e.1 % 64 * 2 ^ 32 + e.2 % 2 ^ 32)
  else []

/-! ### Onto the pairs -/

/-- Four filler words that carry the bytes of an eye-scan command (R141, R144). -/
def commandFillers (bs : List Nat) : List Nat := (List.range 4).map (fun i => fillerOf (i + 1) (nth 0 bs i))

/-- The four filler words before a frame on lane `l` (R142, R144, R167): a STOP that is due, the command of an eye-scan point not yet
sent, or IDLE fillers. -/
def gapWords (s : State) (g l : Nat) : List Nat :=
  match (laneOf s g l).eyeStop, (laneOf s g l).eyeOut with
  | some n, _ => commandFillers [192 + n, 0, 0, 0]
  | none, some e => if e.sent || !(scanRuns s g l) then List.replicate 4 idleFiller else commandFillers (eyeCommand e)
  | none, none => List.replicate 4 idleFiller

/-- The command that the gap carried is sent. -/
def gapSent (g l : Nat) (s : State) : State :=
  if (laneOf s g l).eyeStop.isSome then modLane g l (fun x => { x with eyeStop := none }) s
  else if scanRuns s g l then modLane g l (fun x => { x with eyeOut := x.eyeOut.map (fun e => { e with sent := true }) }) s
  else s

/-- Lane `l` sends `n` bit pairs through its transmitter (R99 to R101, R134). -/
def sendPairs (g l n b : Nat) (s : State) : State :=
  let (v, p) := transmit (rdBit s (laneStatus g l) 4) (txInverted s g l) (laneOf s g l).txP n b
  putOut g l n v (modLane g l (fun x => { x with txP := p }) s)

/-- The bits of a frame with `n` symbols of its codeword changed, from the place `at_` on (R169): to what the spec leaves open. -/
def corruptFrame : Nat → Nat → Nat × State → Nat × State
  | 0, _, p => p
  | n + 1, at_, (b, s) =>
    let (e, s) := freeNat 10 s
    corruptFrame n (at_ + 1) (b ^^^ ((1 + e % 1023) * 1024 ^ (at_ % 488)), s)

/-- The bits of the frame `fr` as lane `l` sends it: an armed LNK_FR_INJECT corrupts its symbols in a row, from a place that the spec leaves
open (DESIGN CHOICE, notes/assumptions/48.md). -/
def laneBits (g l : Nat) (fr : Frame) (s : State) : Nat × State :=
  match (linkOf s g).inject with
  | some (n, lane) =>
    if lane = l then
      let (p, s) := freeNat 9 s
      corruptFrame n p (frameBits fr, s)
    else (frameBits fr, s)
  | none => (frameBits fr, s)

/-- The bit pairs of a gap and a frame. -/
def slotLen : Nat := 4 * fillerLen + frameLen

/-- BERT's pattern takes the place of a gap and a frame on a lane (R125). -/
def sendBert (g l : Nat) (s : State) : State :=
  let (b, st) := bertPattern s g l slotLen
  let s := sendPairs g l slotLen b (modLane g l (fun x => { x with bertTx := st }) s)
  if nearLoop s g l then bertTake g l slotLen b s else s

/-- Lane `l` sends its gap and then the frame `fr` (R133, R142); only the gap while LNK_FR_XCTRL holds it off (R169). A near loopback brings
them to its own receiver (R123). -/
def sendFrame (g l : Nat) (fr : Frame) (s : State) : State :=
  let ws := gapWords s g l
  let gap := packBits 32 ws
  let s := gapSent g l s
  let loop := nearLoop s g l
  if rdBit s (Reg.LNK_FR_XCTRL g) l then
    let s := sendPairs g l (4 * fillerLen) gap s
    if loop then ws.foldl (fun s w => takeFiller g l w s) s else s
  else
    let (b, s) := laneBits g l fr s
    let s := sendPairs g l slotLen (gap * 2 ^ 4912 + b) s
    if loop then takeFrame g l b 0 (ws.foldl (fun s w => takeFiller g l w s) s) else s

/-- What lane `l` sends in the slot of a frame: nothing before LOCK (R133). -/
def sendLane (g l : Nat) (fr : Frame) (s : State) : State :=
  if laneState s g l < 2 then s else if bertRuns s g l then sendBert g l s else sendFrame g l fr s

/-- A frame leaves on both lanes (R145): the next FSEQ, and an armed corruption is spent. A CAP frame differs in the record that each lane
carries (notes/assumptions/48.md). -/
def emitFrames (g : Nat) (a b : Frame) (s : State) : State :=
  let s := sendLane g 1 b (sendLane g 0 a s)
  setRegN (Reg.LNK_FR_TXSEQ g) ((a.fseq + 1) % 16777216) (modLink g (fun l => { l with lastOut := some a, inject := none }) s)

/-- The same frame leaves on both lanes. -/
def emitFrame (g : Nat) (fr : Frame) (s : State) : State := emitFrames g fr fr s

/-- SEQ_STATUS reads ENDING once every group has built its LAST frame, unless the step is aborted. -/
def showEnding (s : State) : State :=
  match s.seq.step with
  | some st => if !st.aborted && st.groups.all (fun g => (linkOf s g).finished) then setFld Reg.SEQ_STATUS 2 0 3 s else s
  | none => s

/-- A DATA frame counts as sent and outstanding (R154); one whose release point had passed before it was sent counts as lost (R88). -/
def countSent (g fseq : Nat) (s : State) : State :=
  let s := incWrap (Reg.LNK_FR_SENT g) 1 s
  if (linkOf s g).missed.contains fseq then
    let s := modSent g (fun x => x.fseq == fseq) (fun x => { x with lost := true })
      (modLink g (fun l => { l with missed := l.missed.filter (fun f => f != fseq) }) s)
    incWrap (Reg.LNK_FR_LOST g) 1 s
  else setRegN (Reg.LNK_FR_OUTSTANDING g) (rdN s (Reg.LNK_FR_OUTSTANDING g) + 1) s

/-- Builds and sends DATA frame number `built` of a group whose vectors are fetched (R137, R138, R146, R157). R157 gives STEPTIME, TSET and SEGSTART no order among E0 to E3:
they stand in this one (DESIGN CHOICE, notes/assumptions/48.md). -/
def buildData (g : Nat) (st : StepInfo) (s : State) : State :=
  let f := (linkOf s g).built
  let cs := groupCtxs s st.ctxs g
  let lv := lastIn s g f
  let last := lv.isSome
  let vl := lv.getD 63
  let l := linkOf s g
  let vecs := (List.range 64).map (fun i => builtVector s cs g (64 * f + i))
  let segs := segStartsOf s g f
  let set := setAt l f
  let after := settleSets { l with tsetAt := l.tsetAt.filter (fun b => decide (f < b)) }
  let next := if last then after.tsetNow else setAt l (f + 1)
  let entries := (if f = 0 then [0x04 * 2 ^ 56 + (st.steptime.getD 0) % 2 ^ 48 * 256] else []) ++
    (if next = set then [] else [0x01 * 2 ^ 56 + next]) ++ segs.map (fun a => 0x05 * 2 ^ 56 + a)
  let extra := l.ctrl.take (4 - entries.length)
  let entries := entries ++ extra
  let fseq := rdN s (Reg.LNK_FR_TXSEQ g)
  let fr : Frame := {
    fseq := fseq, typ := 1, tset := set, vlast := vl, first := f == 0, last := last,
    payload := (List.range 64).map (fun i => payloadVector s g (nth 0 vecs i) (64 * f + i)),
    entries := padTo 4 0 entries }
  let sent : SentFrame := { fseq := fseq, number := f, first := f == 0, last := last, vlast := vl, tset := set, vecs := vecs,
                            segs := segs, judges := cs }
  let s := emitFrame g fr s
  let s := modLink g (fun l => { l with
    built := f + 1, sent := l.sent ++ [sent], finished := last, announced := some next, ctrl := l.ctrl.drop extra.length }) s
  let s := takeSet g f (showSet g set (dropLevels g (64 * (f + 1)) s))
  let s := countSent g fseq (if last then modLink g settleSets s else s)
  showEnding (cs.foldl (fun s c => writeCheckpoint c (actEvents c f last s)) (showLead g s))

/-- The next DATA frame of a group: residency holds fill it, the boundary is passed, its vectors are fetched, and it is built, unless a program
error has ended the step before its first frame (R204, R249). -/
def sendData (g : Nat) (st : StepInfo) (s : State) : State :=
  let f := (linkOf s g).built
  let cs := groupCtxs s st.ctxs g
  let s := passBoundary g f (cs.foldl (fun s c => holdFrame c f s) s)
  let s := cs.foldl (fun s c => fetchFrame c f s) s
  match s.seq.step with
  | some st => buildData g st s
  | none => s

/-! ### Idle frames -/

/-- Whether a count probe may be sent on lane `l` (R161 to R163, R268): while the count is not aligned, one after another once
the map is whole, and when one is due outside a step. -/
def probeWanted (s : State) (g l : Nat) : Bool :=
  let k := linkOf s g
  laneActive s g l &&
  (if rdBit s (Reg.LNK_FR_STATUS g) 4 then k.probeDue.contains l && !(groupInStep s g)
   else k.mapCursor.isNone && k.mapOut.isEmpty && (probeOf s g l).t1.isNone)

/-- Adds a TPROBE entry for lane `l` when one is wanted and there is room. -/
def addProbe (g t1 l : Nat) (p : List Nat × State) : List Nat × State :=
  if probeWanted p.2 g l && decide (p.1.length < 4) then
    let id := ((probeOf p.2 g l).id + b2n (probeOf p.2 g l).t1.isSome) % 128
    (p.1 ++ [0x08 * 2 ^ 56 + l * 2 ^ 55 + id * 2 ^ 48],
     modLink g (fun k => { k with probeDue := k.probeDue.filter (· != l) })
       (modProbe g l (fun x => { x with id := id, t1 := some t1, t2 := none, t4 := none, rxFrame := none }) p.2))
  else p

/-- The CWRITE entry of a map word. -/
def mapEntry (w : Nat × Nat) : Nat := 0x06 * 2 ^ 56 + w.1 * 2 ^ 32 + w.2 % 2 ^ 32

/-- The next words of a whole rewrite of the companion map (R268): 32,768 event words and 64 trim words. -/
def cursorWords (s : State) (g n : Nat) : List (Nat × Nat) × Option Nat :=
  match (linkOf s g).mapCursor with
  | none => ([], none)
  | some a =>
    let k := min n (0x8040 - a)
    ((List.range k).map (fun i => (a + i, mapWord s g (a + i))), if a + k < 0x8040 then some (a + k) else none)

/-- Takes map writes for an IDLE frame while at most 16 frames with map writes are outstanding (R267); a commit's answer waits
for the frame with its last word (R273). The rewrite of an accepted table goes behind them, between steps (R287). -/
def takeMap (g fseq : Nat) (p : List Nat × State) : List Nat × State :=
  let (es, s) := p
  let l := linkOf s g
  let room := 4 - es.length
  if 16 ≤ l.mapOut.length ∨ room = 0 ∨ !(groupActive s g) then (es, s)
  else
    let (ws, cur) := cursorWords s g room
    let q := if cur.isNone then l.mapQ.take (room - ws.length) else []
    let ws := ws ++ q
    let again := if cur.isNone && !(groupInStep s g) then l.relin.take (room - ws.length) else []
    let ws := ws ++ again
    if ws.isEmpty then (es, s)
    else
      let rest := l.mapQ.drop q.length
      let s := modLink g (fun l => { l with
        mapCursor := cur, mapQ := rest, relin := l.relin.drop again.length, mapOut := l.mapOut ++ [fseq],
        commitFseq := if cur.isNone && rest.isEmpty && isOpen (.commit g) s && l.commitFseq.isNone then some fseq else l.commitFseq }) s
      (es ++ ws.map mapEntry, s)

/-- The TSET announcement of the set that the next frame should be under (R157, R278). -/
def announceSet (g : Nat) (s : State) : List Nat × State :=
  let set := setWanted s g
  if (linkOf s g).announced = some set ∨ !(groupActive s g) then ([], s)
  else ([0x01 * 2 ^ 56 + set], modLink g (fun l => { l with announced := some set }) s)

/-- The queued entries that an IDLE frame has room for. -/
def takeEntries (g : Nat) (p : List Nat × State) : List Nat × State :=
  let q := (linkOf p.2 g).idleEntries
  let n := 4 - p.1.length
  if q.isEmpty then p else (p.1 ++ q.take n, modLink g (fun l => { l with idleEntries := q.drop n }) p.2)

/-- Whether a lane of a group is in EXCHANGE. -/
def exchanging (s : State) (g l : Nat) : Bool := laneState s g l == 3

/-- The capability record this unit sends on a lane (R116): ACK says that the partner's record has been received intact. -/
def ownRecord (s : State) (g l : Nat) : List Byte :=
  let x := rdN s (laneStatus g l)
  let ack := b2n (!((laneOf s g l).capRec.isEmpty))
  let body := leBytes 1 0xC1 ++ leBytes 1 0x01 ++ leBytes 1 0x00 ++ leBytes 1 (laneIdByte g l) ++ leBytes 2 0x0100 ++
    leBytes 2 0x7F ++ leBytes 4 256 ++ leBytes 1 0 ++ leBytes 1 (bitsN x 4 4 + 2 * bitsN x 5 5 + 4 * ack + 8) ++ leBytes 2 0 ++
    leBytes 4 (rdN s Reg.SYS_SERIAL_LO) ++ leBytes 4 (rdN s Reg.SYS_SERIAL_HI) ++ leBytes 4 0
  body ++ leBytes 4 (crc32 body)

/-- The number of a byte string whose first byte is the most significant. -/
def ofBeBytes (bs : List Byte) : Nat := ofLeBytes bs.reverse

/-- The four words of a control slot that carries a record, byte 0x00 first (R156). -/
def recordEntries (r : List Byte) : List Nat := (List.range 4).map (fun i => ofBeBytes ((r.drop (8 * i)).take 8))

/-- A frame without vectors. -/
def quietFrame (s : State) (g typ set : Nat) (entries : List Nat) : Frame :=
  { fseq := rdN s (Reg.LNK_FR_TXSEQ g), typ := typ, tset := set, vlast := 0, first := false, last := false,
    payload := List.replicate 64 0, entries := padTo 4 0 entries }

/-- A CAP frame with the record of a lane. -/
def capFrame (s : State) (g set l : Nat) : Frame := quietFrame s g 2 set (recordEntries (ownRecord s g l))

/-- Sends a CAP frame (R116, R145, R156): each lane in EXCHANGE carries its own record, and a lane that is not carries its twin's (DESIGN
CHOICE, notes/assumptions/48.md). -/
def sendCap (g set : Nat) (s : State) : State :=
  emitFrames g (capFrame s g set (if exchanging s g 0 then 0 else 1)) (capFrame s g set (if exchanging s g 1 then 1 else 0)) s

/-- Sends an IDLE frame with the entries that wait; when none waits and a lane is in EXCHANGE, a CAP frame (R116, R146, R156). Outside a
step F-class fields of the group take effect at it (R16). -/
def sendIdle (g t1 : Nat) (s : State) : State :=
  let s := if groupInStep s g && !(linkOf s g).finished then s else crossBoundary g s
  let s := takeSetIdle g s
  let set := ((linkOf s g).announced).getD (setWanted s g)
  let (es, s) := addProbe g t1 1 (addProbe g t1 0 (takeMap g (rdN s (Reg.LNK_FR_TXSEQ g)) (takeEntries g (announceSet g s))))
  if es.isEmpty && (exchanging s g 0 || exchanging s g 1) then sendCap g set s
  else emitFrame g (quietFrame s g 0 set es) s

/-- Whether the group carries frames at all: a lane is in LOCK or beyond (R133). -/
def carriesFrames (s : State) (g : Nat) : Bool :=
  (linkOf s g).started && (decide (2 ≤ laneState s g 0) || decide (2 ≤ laneState s g 1))

/-- Whether the group is between its FIRST and its LAST frame, where only DATA frames are sent (R146). -/
def betweenFrames (s : State) (g : Nat) : Bool :=
  groupInStep s g && (linkOf s g).built != 0 && !(linkOf s g).finished

/-- An IDLE frame is sent where one may be (R146). -/
def idleFrame (g t1 : Nat) (s : State) : State :=
  if carriesFrames s g && !(betweenFrames s g) then sendIdle g t1 s else s

/-- FRAME_SEND: the next DATA frame when one is ready, and an IDLE frame outside FIRST to LAST; `t1` is the departure of the
frame's marker in 1/256 BEAT period. -/
def frameSend (g t1 : Nat) (s : State) : State :=
  match s.seq.step with
  | some st => if dataReady s g then sendData g st s else idleFrame g t1 s
  | none => idleFrame g t1 s

/-! ### Alignment timers -/

/-- PROBE_PERIOD (R163, R167): a probe is due; during a step it waits for the step's end. -/
def probePeriod (g : Nat) (s : State) : State :=
  if rdBit s (Reg.LNK_FR_STATUS g) 4 then modLink g (fun l => { l with probeDue := [0, 1].filter (laneActive s g) }) s else s

/-- CNT_ALIGN_TIMEOUT (R162). -/
def alignTimeout (g : Nat) (s : State) : State :=
  if groupActive s g && !(rdBit s (Reg.LNK_FR_STATUS g) 4) then alignAgain g (raise (linkFault 2 g 0x07 0 0) s) else s

/-! ### Register writes -/

/-- A write of LNK_FR_INJECT. -/
def frameInject (g : Nat) (value : Word) (s : State) : State :=
  answer stOk (modLink g (fun l => { l with inject := some (fld value 7 0, fld value 8 8) }) s)

/-- A write of LNK_FR_XCTRL: both lanes off is refused. -/
def frXctrl (g : Nat) (value : Word) (s : State) : State :=
  refuseIf (fld value 1 0 == 3) stValueRange (accept (Reg.LNK_FR_XCTRL g) value) s

/-! ### Meanings -/

/-- FRAME_SEND. -/
def execFrameSend (g : Fin 16) (t1 : Nat) (s : State) : Host.Outcome State Fault Refusal := .next (frameSend g.val t1 s)

/-- IDLE_FRAME_TIMER. -/
def execIdleFrameTimer (g : Fin 16) (t1 : Nat) (s : State) : Host.Outcome State Fault Refusal := .next (idleFrame g.val t1 s)

/-- PROBE_PERIOD. -/
def execProbePeriod (g : Fin 16) (s : State) : Host.Outcome State Fault Refusal := .next (probePeriod g.val s)

/-- CNT_ALIGN_TIMEOUT. -/
def execCntAlignTimeout (g : Fin 16) (s : State) : Host.Outcome State Fault Refusal := .next (alignTimeout g.val s)

/-- FRAME_INJECT. -/
def execFrameInject (q : Req) (g : Fin 16) (value : Word) (s : State) : Host.Outcome State Fault Refusal :=
  .next (guarded q (Reg.LNK_FR_INJECT g.val) value (frameInject g.val value) s)

/-- FR_XCTRL_WRITE. -/
def execFrXctrlWrite (q : Req) (g : Fin 16) (value : Word) (s : State) : Host.Outcome State Fault Refusal :=
  .next (guarded q (Reg.LNK_FR_XCTRL g.val) value (frXctrl g.val value) s)

end Sys2Proof.Machine
end

