-- ==== Sys2Proof/Machine/Steps.lean ====
section
/-! DEFINITION. Steps (R205 to R210, R226, R253, R254): the refusals of a START, its admission by every block, the stage-late hold,
STEPTIME, the first pin vector, and the end of a step. -/

namespace Sys2Proof.Machine

open Sys2Proof

/-! ### What a START names -/

/-- The contexts that SEQ_STEP_CTX names. -/
def stepContexts (s : State) : List Nat := bitPositions 64 (rd64 s Reg.SEQ_STEP_CTX_LO)

/-- The groups that hold channels of the named contexts. -/
def stepGroups (s : State) (cs : List Nat) : List Nat := (List.range 16).filter (fun g => cs.any (fun c => ctxMask s c g ≠ 0))

/-- Whether START includes the unit that a register belongs to, so that its S-class shadow takes effect (R16). -/
def includedIn (s : State) (cs gs : List Nat) (a : Nat) : Bool :=
  match fieldUnit a with
  | .group g => gs.contains g
  | .channel c => gs.contains (c / 32)
  | .context c => cs.contains c
  | .acq u => acqIncluded s gs u
  | .other => true

/-- The channels of the groups that satisfy `p`. -/
def channelsOf (gs : List Nat) (p : Nat → Bool) : List Nat :=
  (gs.flatMap (fun g => (List.range 32).map (fun k => 32 * g + k))).filter p

/-- The measure, source and time channels of a step. -/
def measureIn (s : State) (gs : List Nat) : List Nat := channelsOf gs (fun c => measureClass (modeOf s c) != 0)
def sourceIn (s : State) (gs : List Nat) : List Nat := channelsOf gs (fun c => isSource (modeOf s c))
def timeIn (s : State) (gs : List Nat) : List Nat := channelsOf gs (fun c => modeOf s c == 6)

/-! ### Admission -/

/-- All groups of a context share one vector period (R173). -/
def onePeriod (s : State) (c : Nat) : Bool := (ctxGroups s c).all (fun g => periodOf s g == ctxPeriod s c)

/-- The sum of the class-8 reservations (R350). -/
def engineReserved (s : State) : Nat := sumN ((s.img.active.reserve.filter (fun r => r.cls == 8)).map (·.amount))

/-- The structural conditions of R205. -/
def stepWellFormed (s : State) (cs gs : List Nat) : Bool :=
  !cs.isEmpty && cs.all (fun c => !(siteList s c).isEmpty && (ctxOf s c).state != .fenced && onePeriod s c) &&
  gs.all (fun g => rdBit s (Reg.LNK_FR_STATUS g) 4 && !(linkOf s g).holdStart && groupActive s g)

/-- What the blocks accept (R315, R335, R350, R366, R374, R384, R396, R400, R401, R430, R538). -/
def blocksAdmit (s : State) (cs gs : List Nat) : Bool :=
  cs.all (rawAdmitted s) &&
  (measureIn s gs).all (measureAdmitted s) && decide (engineReserved s ≤ rdN s Reg.MEA_ENG_CAP) &&
  (sourceIn s gs).all (sourceAdmitted s) &&
  (timeIn s gs).all (timeAdmitted s gs) && timeRateAdmitted s (timeIn s gs) &&
  (List.range 32).all (fun a => !(rdBit s (Reg.ACQ_CTRL a) 0 && acqIncluded s gs a) || acqAdmitted s a) &&
  !(rdBit s Reg.DMA_XARB 0)

/-- The refusals of a START before R205: halted, power state, debug state (R644, R662, R664). -/
def startBarred (s : State) : Option Nat :=
  if s.flt.halted then some stFltHalted
  else if s.pwr.state == .standby || s.pwr.state == .detached || s.pwr.state == .off || detaching s then some stPowerState
  else if rdBit s Reg.DBG_STATUS 6 || (stepContexts s).any (fun c => (ctxOf s c).halted) then some stDebugActive
  else if stepRuns s then some stStepRunning
  else if rdFld s Reg.IMG_STATUS 1 0 = 1 then some stImgLoading
  else none

/-- What a START refused with NOT_ADMITTED leaves behind: unbuilt chains read class 0 (R332), and a failing play list is
reported (R374). -/
def reportRefusal (t : State) (gs : List Nat) (s : State) : State :=
  let s := ((measureIn t gs).filter (fun c => (buildChain t c).isNone)).foldl (fun s c => setFld (Reg.MEA_CH_STATE c) 2 0 0 s) s
  match (sourceIn t gs).find? (fun c => !(sourceAdmitted t c)) with
  | some c => reportList c s
  | none => s

/-! ### An accepted START -/

/-- The MODE entries of a group (R157, R281). -/
def modeEntries (s : State) (g : Nat) : List Nat :=
  (List.range 7).filterMap (fun m =>
    let mask := sumN (((List.range 32).filter (fun k => modeOf s (32 * g + k) == m)).map (fun (k : Nat) => 2 ^ k))
    if mask = 0 then none else some (0x02 * 2 ^ 56 + m * 2 ^ 32 + mask))

/-- A group joins the step: its frames restart, and PERIOD, MODE and, with drift tracking, the read of the companion's
temperature wait for IDLE frames (R157, R280, R281, R289). -/
def startGroup (s : State) (g : Nat) : State :=
  let drift := rdBit s (Reg.TST_XDRIFT g) 0
  let es := [0x03 * 2 ^ 56 + periodOf s g] ++ modeEntries s g ++ (if drift then [0x07 * 2 ^ 56 + 0x8040 * 2 ^ 32 + 0x40] else [])
  let s := modLink g (fun l => { l with
    built := 0, begun := 0, finished := false, tsets := [], idleEntries := l.idleEntries ++ es,
    creads := if drift then l.creads ++ [0x40] else l.creads }) s
  endCds g (endCals g (setBit (Reg.LNK_FR_STATUS g) 6 true s))

/-- The minimum leads start anew (R87). -/
def clearLeads (s : State) : State := (List.range 16).foldl (fun s g => setRegN (Reg.TBF_LEAD_MIN g) 32 s) s

/-- A context joins the step: STARTING, its counters cleared (R222, R228). -/
def startContext (s : State) (c : Nat) : State :=
  let s := setRegN (Reg.SEQ_CTX_SUPERSEDED c) 0 (setRegN (Reg.SEQ_CTX_JTAKEN c) 0 (setRegN (Reg.SEQ_MST_TRAPS c) 0 s))
  let s := setFld (Reg.SEQ_CTX_STATUS c) 14 13 0 (setFld (Reg.SEQ_CTX_STATUS c) 31 24 0 s)
  showCtx c (modCtx c (fun x => { x with state := .starting, emitted := 0, held := 0 }) (startContextCompare c (dropRoutine c s)))

/-- Clears the act counts of the lines (R450). -/
def clearLineCounts (s : State) : State :=
  (List.range 64).foldl (fun s l => setRegN (Reg.TRG_LINE_SUPP l) 0 (setRegN (Reg.TRG_LINE_CNT l) 0 s)) s

/-- The waveform segments that play lists add, by driving context (R374). -/
def stepWaves (s : State) (cs gs : List Nat) : List (Nat × Nat) :=
  (sourceIn s gs).flatMap (fun ch =>
    match cs.find? (fun c => bitN (ctxMask s c (ch / 32)) (ch % 32)) with
    | some c => (listWaves s ch).map (fun o => (c, o))
    | none => [])

/-- The blocks are set up for the step. -/
def startBlocks (cs gs : List Nat) (s : State) : State :=
  let waves := stepWaves s cs gs
  let s := (channelsOf gs (fun _ => true)).foldl (fun s c => startMeasure c s) s
  let s := (sourceIn s gs).foldl (fun s c => startSource c s) s
  let s := startTdc gs s
  let s := ((List.range 32).filter (acqIncluded s gs)).foldl (fun s a => startAcq a s) s
  let s := startCompare ((List.range 32).foldl (startDetector gs) s)
  { s with src := { s.src with inPlay := waves.map (·.2) }, lib := { s.lib with areaNoted := false },
           tb := { s.tb with slackNoted := [] } }

/-! ### STEPTIME -/

/-- The objects of every step list of the step are resident. -/
def listsResident (s : State) (st : StepInfo) : Bool :=
  st.ctxs.all (fun c => match stepObjects s st c with | some ids => ids.all (isResident s) | none => true)

/-- The STAGE_LATE records, written when the hold ends (R207, R253). -/
def logStageLate (st : StepInfo) (s : State) : State :=
  st.late.foldl (fun s c =>
    let a := Reg.SEQ_CTX_HOLDS c
    let s := setFld a 31 16 (min (rdFld s a 31 16 + 1) 65535) s
    seqLog 0x09 c (ctxOf s c).pc 0 (stepRlist s st c) (min (s.beat - st.startBeat) max32) false s) s

/-- The contexts of a step that never began take their earlier states, with the code of an error (R207). -/
def restorePrior (st : StepInfo) (s : State) : State :=
  st.prior.foldl (fun s p =>
    setFld (Reg.SEQ_CTX_STATUS p.1) 31 24 p.2.2 (showCtx p.1 (modCtx p.1 (fun x => { x with state := p.2.1 }) s))) s

/-- The step is abandoned before any frame because its AT count cannot be met (R207, R254). -/
def abandonLate (st : StepInfo) (s : State) : State :=
  let s := clearStep st (restorePrior st (logStageLate st s))
  raise (mkFault 0 0x20 (st.ctxs.headD 0) 0x0F) (setBit Reg.SEQ_STATUS 8 true s)

/-- The step is refused at the end of the hold because a group has no lane left (R254). -/
def refuseHeld (st : StepInfo) (s : State) : State := answer stNotAdmitted (clearStep st (restorePrior st (logStageLate st s)))

/-- Frames of an earlier step are set apart. -/
def retireFrames (s : State) (g : Nat) : State :=
  modLink g (fun l => { l with sent := l.sent.map (fun x => { x with old := true, judges := [] }) }) s

/-- A context begins its part of the step (R201, R206). -/
def beginContext (st : StepInfo) (s : State) (c : Nat) : State :=
  let x := ctxOf s c
  let goesOn := continuesHold s st c
  let y : Ctx :=
    { state := .running,
      pc := if goesOn then x.pc else rdFld s (Reg.SEQ_CTX_ENTRY c) 23 0,
      loops := if goesOn then x.loops else [],
      calls := if goesOn then x.calls else [],
      mask := 2 ^ (siteList s c).length - 1,
      holdRlist := x.holdRlist, stageReq := x.stageReq, pinned := x.pinned, onSpare := x.onSpare, takeover := x.takeover }
  showCtx c (writeCheckpoint c (setCtx c y s))

/-- ACQ ring headers carry STEPTIME (R425). -/
def stampHeaders (gs : List Nat) (t : Nat) (s : State) : State :=
  ((List.range 32).filter (fun a => rdBit s (Reg.ACQ_CTRL a) 0 && acqIncluded s gs a)).foldl (fun s a =>
    ((List.range 4).filter (fun r => redOn s a r)).foldl (fun s r => setMemN (ringBase s a r + 24) 8 t s) s) s

/-- The step leaves its hold: STEPTIME is set, and every context begins (R207, R212). -/
def setStepTime (st : StepInfo) (t : Nat) (s : State) : State :=
  let s := logStageLate st s
  let s := set64 Reg.SEQ_STEPTIME_LO t s
  let s := { s with seq := { s.seq with step := some { st with steptime := some t } } }
  let s := stampHeaders st.groups t s
  let s := st.groups.foldl (fun s g => showTrims g (retireFrames s g)) s
  st.ctxs.foldl (fun s c =>
    let s := beginContext st s c
    seqLog 0x01 c (ctxOf s c).pc 0 (t % 4294967296) (t / 4294967296) false s) s

/-- What happens when every step list is resident (R207, R210, R254). -/
def listResident (s : State) : State :=
  match s.seq.step with
  | none => s
  | some st =>
    if st.steptime.isSome then s
    else if !(listsResident s st) then s
    else if st.laneLost || !(st.groups.all (groupActive s)) then refuseHeld st s
    else match st.ctxs.find? (fun c => (stepObjects s st c).isNone) with
      | some c => programError c peBadList (logStageLate st s)
      | none =>
        let d := s.beat + rdN s Reg.SEQ_STEP_DELAY
        match st.at_ with
        | none => setStepTime st (d % 2 ^ 48) s
        | some a => if a < d then abandonLate st s else setStepTime st a s

/-- An accepted START (R205 to R207, R643); `t` is the state with the S-class shadows of the units it includes applied. -/
def startAccepted (at_ : Bool) (cs gs : List Nat) (t : State) : State :=
  let p := powerEstimate t (gs.map (periodOf t))
  let st : StepInfo :=
    { ctxs := cs, groups := gs,
      at_ := if at_ then some (rdN t Reg.SEQ_STEP_AT_LO + 4294967296 * rdFld t Reg.SEQ_STEP_AT_HI 15 0) else none,
      startBeat := t.beat, waves := stepWaves t cs gs,
      prior := cs.map (fun c => (c, (ctxOf t c).state, rdFld t (Reg.SEQ_CTX_STATUS c) 31 24)) }
  let s := { t with pwr := { t.pwr with state := .run, galopStep := exceedsTenths p (rdN t Reg.PWR_XGALOP_W), overrun := false } }
  let s := incWrap Reg.SEQ_STEP_COUNT 1 (setFld Reg.SEQ_STATUS 2 0 1 (setBit Reg.SEQ_STATUS 8 false s))
  let s := clearLeads (clearLineCounts (setRegN Reg.TBF_SLACK_MIN 0x7FFF (startBlocks cs gs s)))
  let late := cs.filter (fun c => match stepObjects s st c with | some ids => !(ids.all (isResident s)) | none => false)
  let s := showFades { s with seq := { s.seq with step := some { st with late := late } } }
  let s := cs.foldl startContext (gs.foldl startGroup s)
  answer stOk (listResident (requestStepLists s))

/-- STEP_START: SEQ_STEP_CMD START with its refusals in order (R205, R644, R676). -/
def stepStart (at_ : Bool) (s : State) : State :=
  match startBarred s with
  | some code => answer code s
  | none =>
    let cs := stepContexts s
    let gs := stepGroups s cs
    let t := applyS (includedIn s cs gs) s
    let p := powerEstimate t (gs.map (periodOf t))
    let reason := admitReason t p
    if stepWellFormed t cs gs && blocksAdmit t cs gs && reason == 0 then startAccepted at_ cs gs (reportAdmit p 0 (refPolicy t))
    else answer stNotAdmitted (reportRefusal t gs (reportAdmit p reason s))

/-- STEP_AT_PASSED: the count of a START with AT passes during the hold (R254). -/
def stepAtPassed (s : State) : State :=
  match s.seq.step with
  | some st => if st.steptime.isNone && st.at_.isSome then abandonLate st s else s
  | none => s

/-! ### The first pin vector -/

/-- STEP_VECTOR_ZERO (R341, R418): chains are reset, STEP_START asserts, and a Galop step begins to count. -/
def vectorZero (s : State) : State :=
  match s.seq.step with
  | some st =>
    if st.steptime.isSome && !st.zeroed then
      let s := { s with seq := { s.seq with step := some { st with zeroed := true } } }
      let s := if rdFld s Reg.SEQ_STATUS 2 0 = 1 then setFld Reg.SEQ_STATUS 2 0 2 s else s
      let s := (measuring s).foldl (fun s c => askReset 0 c s) s
      let s := assertEvent 0x160 (vectorGrid s 0 0) s
      if s.pwr.galopStep then
        { s with pwr := { s.pwr with galopRuns := (s.time, none) :: s.pwr.galopRuns.filter (fun r =>
            match r.2 with | some e => decide (s.time < e + periods60s) | none => true) } }
      else s
    else s
  | none => s

/-! ### The end of a step -/

/-- Records of a context at the end of a step (R209, R212, R240): a pending jump expires, an abort is logged. -/
def closeContext (st : StepInfo) (t : Nat) (s : State) (c : Nat) : State :=
  let x := ctxOf s c
  let s := expireJump t c s
  let s := if st.aborted then seqLog 0x11 c x.pc (lastVector s t c) st.abortArg 0 false s else s
  let keep := x.state == .error || x.state == .fenced
  let s := modCtx c (fun x => { x with
    cur := none, arms := [], stopAt := none, state := if st.aborted && !keep then .idle else x.state }) s
  showCtx c (if x.halting then haltContext c s else dropRoutine c s)

/-- A group leaves the step: the set in force stays in force (R279). -/
def closeGroup (s : State) (g : Nat) : State :=
  let s := modLink g settleSets s
  showSet g (linkOf s g).tsetNow s

/-- STEP_END: the last vector of the last context has been released (R208, R643). Every group has built its LAST frame or has
no lane to send it on. -/
def stepEnd (s : State) : State :=
  match s.seq.step with
  | some st =>
    match st.endTicks with
    | some t =>
      if st.steptime.isSome && st.groups.all (fun g => (linkOf s g).finished || !(groupActive s g)) then
        let s := st.ctxs.foldl (closeContext st t) s
        let s := st.groups.foldl closeGroup s
        let s := ((List.range 32).filter (acqIncluded s st.groups)).foldl (fun s a => endAcq a s) s
        ptpEvaluate (runFuncs (clearStep st (fireSignals (fun _ => true) s)))
      else s
    | none => s
  | none => s

/-! ### Meanings -/

/-- The value that SEQ_STEP_CMD carries for START. -/
def startWord (at_ : Bool) : Word := wd (1 + 256 * b2n at_)

/-- STEP_START. -/
def execStepStart (q : Req) (at_ : Bool) (s : State) : Host.Outcome State Fault Refusal :=
  .next (guarded q Reg.SEQ_STEP_CMD (startWord at_) (stepStart at_) s)

/-- STEP_ABORT (R209); without a running step it changes nothing. -/
def execStepAbort (q : Req) (s : State) : Host.Outcome State Fault Refusal :=
  .next (guarded q Reg.SEQ_STEP_CMD 2 (fun s => answer stOk (abortStep 1 s)) s)

/-- STEP_LIST_RESIDENT. -/
def execStepListResident (s : State) : Host.Outcome State Fault Refusal := .next (listResident (requestStepLists s))

/-- STEP_AT_PASSED. -/
def execStepAtPassed (s : State) : Host.Outcome State Fault Refusal := .next (stepAtPassed s)

/-- STEP_VECTOR_ZERO. -/
def execStepVectorZero (s : State) : Host.Outcome State Fault Refusal := .next (vectorZero s)

/-- STEP_END. -/
def execStepEnd (s : State) : Host.Outcome State Fault Refusal := .next (stepEnd s)

end Sys2Proof.Machine
end

