-- ==== Sys2Proof/Machine/Faults.lean ====
section
/-! DEFINITION. The fault collector (R608 to R630, R638, R639): handling and delivering records, the reactions of the classes,
known-answer tests and what fencing a unit of each class does, wire faults and injected faults. -/

namespace Sys2Proof.Machine

open Sys2Proof

/-! ### Records -/

/-- The FLAGS of a record (R623). -/
def recordFlags (r : FaultRec) : Nat :=
  b2n r.covered + 2 * b2n r.takeover + 4 * b2n r.wire + 8 * b2n r.nested + 16 * b2n r.escalated + 32 * b2n r.queueWait +
    64 * b2n (decide (1 < r.occ)) + 128 * b2n r.injected + 256 * b2n r.latched

/-- The 64 bytes of a record (R623), with the ledgers found balanced at its end. -/
def recordBytes (r : FaultRec) (ledgers : Nat) : List Byte :=
  leBytes 1 0x47 ++ leBytes 1 r.cls ++ leBytes 2 (recordFlags r) ++ leBytes 4 r.epoch.toNat ++ leBytes 8 r.beat ++ leBytes 4 r.seq ++
  leBytes 2 r.unitClass ++ leBytes 2 r.unit ++ leBytes 2 r.replacement ++ leBytes 2 r.cause ++ leBytes 4 r.occ ++
  leBytes 8 r.detail0 ++ leBytes 8 r.detail1 ++ leBytes 4 r.takeoverNs ++ leBytes 4 ledgers ++ leBytes 4 r.parent ++ leBytes 4 0

/-- The bound of a takeover in ns (R626), if the table gives one. -/
def takeoverBound (uc : Nat) : Option Nat :=
  match uc with
  | 0x01 => some 600
  | 0x02 => some 200
  | 0x03 => some 2000
  | 0x05 => some 250 | 0x06 => some 250 | 0x07 => some 250 | 0x08 => some 250 | 0x09 => some 250 | 0x0A => some 250
  | 0x0C => some 250 | 0x0D => some 250
  | 0x0B => some 1000
  | 0x0E => some 110000000
  | _ => none

/-- TAKEOVER_NS of a record: 0 without a takeover, otherwise a free value within the bound of R626. -/
def takeoverTime (r : FaultRec) (s : State) : Nat × State :=
  if r.takeover then
    let (n, s) := freeNat 32 s
    (match takeoverBound r.unitClass with | some b => n % (b + 1) | none => n, s)
  else (0, s)

/-! ### Reactions -/

/-- A fault ends a load before its switch point (R62): the load is answered LOAD_ABANDONED with reason 0x12. -/
def abandonLoad (s : State) : State :=
  let drop (slot : Nat) (s : State) : State :=
    let s := setRegN Reg.IMG_REASON (0x12 + 256 * slot) { s with img := { s.img with load := .idle } }
    finishOpen .load stLoadAbandoned (setFld Reg.IMG_STATUS 1 0 (if s.img.loaded then 2 else 0) s)
  match s.img.load with
  | .draining _ slot => drop slot s
  | .passed _ slot _ _ => drop slot s
  | .failed _ slot _ => drop slot s
  | _ => s

/-- The reaction to a C3 fault (R613, R614): the step is aborted, the device halts, DMA goes into safe service, a load is
abandoned. -/
def haltReaction (s : State) : State :=
  let s := abortStep 3 s
  showDma (abandonLoad { s with flt := { s.flt with halted := true } })

/-- The reaction to a C4 fault (R62, R615): the foreground stops, a load is abandoned, the device is in the grave condition. -/
def graveReaction (s : State) : State :=
  let s := abandonLoad (abortStep 3 s)
  { s with flt := { s.flt with grave := true } }

/-- The core, HBM and lane rails switch off (R678): the step is lost and the lanes are squelched in DETECT. -/
def railsOff (s : State) : State :=
  let s := match s.seq.step with | some st => clearStep st s | none => s
  let s := (List.range 16).foldl (fun s g => [0, 1].foldl (fun s l =>
    modLane g l (fun x => { x with squelched := true }) (if laneState s g l = 4 then leaveActive g l 0x08 s else enterDetect g l s)) s) s
  { s with pwr := { s.pwr with core := false } }

/-- The reaction of a class and its bit of FLT_ALERT (R611, R612, R639). -/
def classReaction (r : FaultRec) (s : State) : State :=
  if 4 ≤ r.cls then
    let s := orReg Reg.FLT_ALERT 4 (graveReaction s)
    if r.unitClass = 0x18 then railsOff s else s
  else if r.cls = 3 then orReg Reg.FLT_ALERT 2 (haltReaction s)
  else if r.cls = 2 && !r.covered then orReg Reg.FLT_ALERT 1 s
  else s

/-- The check of the ledgers of a takeover (R627): a ledger out of balance is frozen, its record a child of the takeover's. -/
def checkLedger (s : State) (n : Nat) : State :=
  let v := ledgerView s n
  if (frozenView s n).isNone && v.left != v.right then freezeLedger n v s else s

/-! ### The collector -/

/-- The first report of the highest class in a list. -/
def topOf (l : List FaultRec) : Option FaultRec :=
  l.foldl (fun (b : Option FaultRec) r => match b with | some x => if x.cls < r.cls then some r else b | none => some r) none

/-- Lines left unacknowledged are taken into the queue while it has room (R620). -/
def takeHeld : Nat → Collector → Collector
  | 0, c => c
  | n + 1, c =>
    match topOf c.held with
    | none => c
    | some h =>
      if c.queue.length < 64 then
        takeHeld n { c with held := c.held.erase h, queue := c.queue ++ [{ h with seq := c.nextSeq }], nextSeq := add32 c.nextSeq 1 }
      else c

/-- The next record once one is delivered (R618, R619): the one last pre-empted, unless a queued one has a higher class. -/
def nextRecord (c : Collector) : Collector :=
  let q := topOf c.queue
  let c := match c.preempted, q with
    | p :: ps, some x => if p.cls < x.cls then { c with handling := some x, queue := c.queue.erase x }
                         else { c with handling := some p, preempted := ps }
    | p :: ps, none => { c with handling := some p, preempted := ps }
    | [], some x => { c with handling := some x, queue := c.queue.erase x }
    | [], none => { c with handling := none }
  takeHeld c.held.length c

/-- Counts a record (R639). -/
def countRecord (r : FaultRec) (s : State) : State :=
  let s := incSat (Reg.FLT_COUNT_C (min r.cls 4)) 1 s
  let s := if r.covered then incSat Reg.FLT_COVERED 1 s else s
  { s with flt := { s.flt with worst := max s.flt.worst r.cls } }

/-- Delivers a record (R576, R623): FLT_LAST, the history of 256, the owner's EVENT stream, and, for a C4, the library. -/
def deliverRecord (r : FaultRec) (s : State) : State :=
  let (ns, s) := takeoverTime r s
  let ls := if r.takeover then sumN (((ledgersOf r.unitClass).filter (ledgerBalanced s)).map (fun (n : Nat) => 2 ^ n)) else 0
  let ws := bytesToWords (recordBytes { r with takeoverNs := ns } ls)
  let s := setRegs (Reg.FLT_LAST 0) ws s
  let s := { s with flt := { s.flt with
      history := (ws :: s.flt.history).take 256,
      graveKept := if r.cls = 4 && s.pwr.state != .off then ws else s.flt.graveKept } }
  pushRec isOwnerEvent { epoch := r.epoch, words := ws } s

/-- FAULT_HANDLE: the record being handled is completed and delivered, and the next is taken (R618 to R620, R627). -/
def faultHandle (s : State) : State :=
  match s.flt.handling with
  | none => s
  | some r =>
    let s := classReaction r s
    let s := if r.takeover then (ledgersOf r.unitClass).foldl checkLedger s else s
    -- an imbalance found just now has pre-empted this record: it is delivered when it resumes
    match s.flt.handling with
    | some h =>
      -- a latched fault is delivered once a reference returns (R76)
      if h.latched && rdBit s Reg.TBF_STATUS 0 && s.tb.xoFailed then s
      else if h.seq = r.seq then let s := countRecord h (deliverRecord h s); { s with flt := nextRecord s.flt } else s
    | none => s

/-- COLLECTOR_SELF_CHECK: the copies disagree or the self-check fails (R617). -/
def selfCheck (agree passed : Bool) (s : State) : State :=
  if !agree then raise (mkFault 4 0x1A 0 0x03) s
  else if !passed then raise (mkFault 4 0x1A 0 0x0E) s
  else s

/-! ### Fencing a unit -/

/-- Shows single-copy operation of a unit in its block. -/
def showSingle (uc unit : Nat) (s : State) : State :=
  match uc with
  | 0x02 => setBit Reg.SEQ_ENG_SINGLE unit true s
  | 0x05 => setBit Reg.MEA_STATUS unit true s
  | 0x06 => orReg Reg.CMP_EVENTS 64 (setBit Reg.CMP_STATUS 2 true s)
  | 0x07 => orReg Reg.SRC_EVENTS 16 (setBit Reg.SRC_STATUS unit true s)
  | 0x08 => orReg Reg.TDC_EVENTS 64 (setBit Reg.TDC_STATUS 0 true s)
  | 0x09 => orReg Reg.TRG_EVENTS 4 (setBit Reg.TRG_STATUS 0 true s)
  | 0x0A => orReg Reg.ACQ_EVENTS 8 (setBit Reg.ACQ_STATUS 0 true s)
  | 0x0C => orReg Reg.DMA_EVENTS 32 (setBit Reg.DMA_STATUS 2 true s)
  | 0x0D => orReg Reg.SCH_EVENTS 16 (setBit Reg.SCH_STATUS 0 true s)
  | _ => s

/-- One copy of a doubled unit is fenced and the unit goes on with the other (R172, R302); on a single copy the fault is
C3. -/
def fenceCopy (uc unit copy cause : Nat) (s : State) : State :=
  if onOneCopy uc unit s then raise { mkFault 3 uc unit 0x0B with escalated := true } s
  else
    let failed := unit + 0x100 * copy
    let other := unit + 0x100 * (1 - copy)
    let s := raise { mkFault 2 uc failed cause with takeover := true, replacement := other } s
    showSingle uc unit (markOneCopy uc unit (fenceUnit uc failed s))

/-- Output datapath `d` is fenced (R349, R350): the spare joins, or the engine loses an eighth of its capacity. -/
def fenceDatapath (d cause : Nat) (s : State) : State :=
  let s' := orReg Reg.MEA_EVENTS (16 * 2 ^ d) s
  if s.img.active.spares.dp ≠ 0 ∧ !s.mea.spareUsed ∧ d ≠ 8 then
    let s := raise { mkFault 2 0x04 d cause with takeover := true, replacement := 8 } s'
    useSpare (fenceUnit 0x04 d { s with mea := { s.mea with spareUsed := true } })
  else if d = 8 ∧ !s.mea.spareUsed then
    useSpare (fenceUnit 0x04 d (raise (mkFault 2 0x04 d cause) { s' with mea := { s'.mea with spareUsed := true } }))
  else if stepRuns s then fenceUnit 0x04 d (raise (mkFault 3 0x04 d 0x0A) s')
  else
    let s := fenceUnit 0x04 d (raise (mkFault 2 0x04 d 0x0A) s')
    setRegN Reg.MEA_ENG_CAP (rdN s Reg.MEA_ENG_CAP - 800000) s

/-- A companion lane is fenced: it leaves ACTIVE as under R119 and stays in DETECT. -/
def fenceLane (u cause : Nat) (s : State) : State :=
  let g := u / 2
  let l := u % 2
  let s := raise (mkFault 2 0x10 u cause) (fenceUnit 0x10 u s)
  let s := if laneState s g l = 4 then
      let s := if laneActive s g (1 - l) then s
        else match laneLossFault s g l with | some f => raise f s | none => s
      leaveActive g l 0x08 s
    else enterDetect g l s
  modLane g l (fun x => { x with squelched := true }) s

/-- An Ethernet port is fenced: it loses its link (R558). -/
def fencePort (p cause : Nat) (s : State) : State :=
  let s := raise (mkFault 2 0x11 p cause) (fenceUnit 0x11 p s)
  let drop (x : Port) : Port := { x with linked := 0 }
  { s with net := { s.net with port0 := if p = 0 then drop s.net.port0 else s.net.port0,
                               port1 := if p = 1 then drop s.net.port1 else s.net.port1 } }

/-- The channel that runs on DMA engine `e`. -/
def channelOn (s : State) (e : Nat) : Option Nat := (List.range 32).find? (fun c => dmaHost s c == e)

/-- What a C2 fault of a unit does under the rules of its chapter (R626): the takeover by its spare or other copy, or
degraded operation. -/
def fenceAs (uc unit cause : Nat) (s : State) : State :=
  if isFenced uc unit s then raise { mkFault 3 uc unit 0x0B with escalated := true } s
  else match uc with
  | 0x01 => contextFault unit false s
  | 0x03 => coreMismatch unit s
  | 0x04 => fenceDatapath unit cause s
  | 0x0B => match channelOn s unit with
    | some c => if dmaState s c = 6 ∨ dmaState s c = 5 then
        useSpare (fenceUnit 0x0B unit (raise (mkFault 2 0x0B unit cause) s)) else engineFault c s
    | none => fenceUnit 0x0B unit (raise (mkFault 2 0x0B unit cause) s)
  | 0x0E => fencePc (unit / 32) (unit % 32) s
  | 0x0F => fencePhy unit s
  | 0x10 => fenceLane unit cause s
  | 0x11 => fencePort unit cause s
  | 0x12 => takePool 1 (orReg Reg.LIB_EVENTS 1 (raise (mkFault 2 0x12 unit cause) s))
  | 0x14 => cellMismatch unit s
  | 0x02 => fenceCopy uc unit 0 cause s
  | 0x05 => fenceCopy uc unit 0 cause s
  | 0x06 => fenceCopy uc unit 0 cause s
  | 0x07 => fenceCopy uc unit 0 cause s
  | 0x08 => fenceCopy uc unit 0 cause s
  | 0x09 => fenceCopy uc unit 0 cause s
  | 0x0A => fenceCopy uc unit 0 cause s
  | 0x0C => fenceCopy uc unit 0 cause s
  | 0x0D => fenceCopy uc unit 0 cause s
  | _ => fenceUnit uc unit (raise (mkFault 2 uc unit cause) s)

/-- The number of units of a class; 0 for a code that names no class (R624). -/
def unitCount (uc : Nat) : Nat :=
  match uc with
  | 0x01 => 64 | 0x02 => 16 | 0x03 => 64 | 0x04 => 9 | 0x05 => 16 | 0x06 => 1 | 0x07 => 16 | 0x08 => 1 | 0x09 => 1
  | 0x0A => 1 | 0x0B => 32 | 0x0C => 2 | 0x0D => 2 | 0x0E => 64 | 0x0F => 2 | 0x10 => 32 | 0x11 => 2 | 0x12 => 65536
  | 0x13 => 65536 | 0x14 => 4 | 0x15 => 16 | 0x1C => 16 | 0x1D => 32 | 0x1E => 16 | 0x1F => 65536 | 0x21 => 2 | 0x20 => 64
  | 0x16 => 1 | 0x17 => 1 | 0x18 => 1 | 0x19 => 16 | 0x1A => 1 | 0x1B => 16
  | _ => 0

/-- Changes the records of a unit that arrived since record number `old` and since `n` lines were held. -/
def relabel (old n uc : Nat) (f : FaultRec → FaultRec) (c : Collector) : Collector :=
  let on (r : FaultRec) : FaultRec := if r.unitClass = uc ∧ sub32 r.seq old < sub32 c.nextSeq old then f r else r
  { c with handling := c.handling.map on, preempted := c.preempted.map on, queue := c.queue.map on,
           held := c.held.take n ++ (c.held.drop n).map (fun r => if r.unitClass = uc then f r else r) }

/-- Fences a unit and relabels the record of it. -/
def fenceMarked (uc unit cause : Nat) (f : FaultRec → FaultRec) (s : State) : State :=
  let t := fenceAs uc unit cause s
  { t with flt := relabel s.flt.nextSeq s.flt.held.length uc f t.flt }

/-! ### Wire faults, reports, injection -/

/-- Units whose lines are grave: the power stage, the thermal trip, the collector's own cross-check (R610). -/
def graveLine (uc : Nat) : Bool := uc == 0x18 || uc == 0x19 || uc == 0x1A

/-- WIRE_FAULT: the line of a unit is held invalid (R610). -/
def wireFault (uc unit : Nat) (s : State) : State :=
  let s := incSat Reg.FLT_WIRE 1 s
  if graveLine uc then raise { mkFault 4 uc unit 0x05 with wire := true } s
  else fenceMarked uc unit 0x05 (fun r => { r with cause := 0x05, wire := true }) s

/-- FLT_XINJECT (R638, R639): a unit reports a fault of cause 0x0F; a C2 acts as a real fault does. -/
def faultInject (v : Word) (s : State) : State :=
  let cls := fld v 26 24
  let uc := fld v 23 16
  let unit := fld v 15 0
  refuseIf (decide (2 < cls) || decide (unitCount uc ≤ unit)) stValueRange (fun s =>
    answer stOk (if cls = 2 then fenceMarked uc unit 0x0F (fun r => { r with cause := 0x0F, injected := true }) s
                 else raise { mkFault cls uc unit 0x0F with injected := true } s)) s

/-- KNOWN_ANSWER_TEST_END (R172, R302, R349): a test under way ends; `failing` is the copy that failed it. -/
def knownAnswerEnd (uc unit : Nat) (failing : Option Nat) (s : State) : State :=
  if s.flt.tests.contains (uc, unit) then
    let s := { s with flt := { s.flt with tests := s.flt.tests.erase (uc, unit) } }
    match failing with
    | none => raise (mkFault 1 uc unit 0x03) s
    | some k => if uc = 0x04 then fenceDatapath unit 0x04 s else fenceCopy uc unit k 0x04 s
  else s

/-! ### Meanings -/

/-- FAULT_REPORT: a unit raises its line with a report (R609). -/
def execFaultReport (cls : Fin 5) (unitClass unit cause : Nat) (detail0 detail1 : BitVec 64) (s : State) :
    Host.Outcome State Fault Refusal :=
  .next (raise (mkFaultD cls.val (unitClass % 65536) (unit % 65536) (cause % 65536) detail0.toNat detail1.toNat) s)

/-- WIRE_FAULT. -/
def execWireFault (unitClass unit : Nat) (s : State) : Host.Outcome State Fault Refusal := .next (wireFault unitClass unit s)

/-- FAULT_HANDLE. -/
def execFaultHandle (s : State) : Host.Outcome State Fault Refusal := .next (faultHandle s)

/-- COLLECTOR_SELF_CHECK. -/
def execCollectorSelfCheck (agree passed : Bool) (s : State) : Host.Outcome State Fault Refusal :=
  .next (selfCheck agree passed s)

/-- FAULT_INJECT. -/
def execFaultInject (q : Req) (value : Word) (s : State) : Host.Outcome State Fault Refusal :=
  .next (guarded q Reg.FLT_XINJECT value (faultInject value) s)

/-- ALERT_CLEAR: a write of FLT_ALERT clears the bits written 1, but for GRAVE (R612). -/
def execAlertClear (q : Req) (value : Word) (s : State) : Host.Outcome State Fault Refusal :=
  .next (guarded q Reg.FLT_ALERT value (fun s => answer stOk (setReg Reg.FLT_ALERT (rd s Reg.FLT_ALERT &&& ~~~ (value &&& 3)) s)) s)

/-- KNOWN_ANSWER_TEST_END. -/
def execKnownAnswerTestEnd (unitClass unit : Nat) (failing : Option (Fin 2)) (s : State) : Host.Outcome State Fault Refusal :=
  .next (knownAnswerEnd unitClass unit (failing.map (·.val)) s)

/-- LEDGER_READ_LATCH: LGR_LEFT of ledger `n` is read (R637). -/
def execLedgerReadLatch (q : Req) (n : Fin 16) (s : State) : Host.Outcome State Fault Refusal :=
  .next (guardedRead q (Reg.LGR_LEFT n.val) (fun s => let (w, s) := ledgerRead n.val s; answerData w s) s)

end Sys2Proof.Machine
end

