-- ==== Sys2Proof/Machine/Image.lean ====
section
/-! DEFINITION. The structure image (R22 to R65, R702): reading an image from its slot, the checks of verification and
admission, selection, and the load of an image with its switch point. -/

namespace Sys2Proof.Machine

open Sys2Proof

/-! ### Reading an image -/

/-- The library object of an image slot (R48). -/
def slotObj (s : State) (k : Nat) : LibObj := (objOf s (0xFFFFFF00 + k)).getD { typ := 5, length := 0, state := .sealed }

/-- A directory entry (R25): TYPE, SFLAGS, OFFSET, LENGTH and whether its reserved bytes are 0. -/
structure SecEntry where
  typ : Nat
  flags : Nat
  off : Nat
  len : Nat
  clean : Bool
  deriving DecidableEq, Repr

/-- The directory of an image (R25). -/
def directory (o : LibObj) : List SecEntry :=
  (List.range (objN o 0x06 2)).map (fun (i : Nat) =>
    let a := 0x80 + 16 * i
    { typ := objN o a 2, flags := objN o (a + 2) 2, off := objN o (a + 4) 4, len := objN o (a + 8) 4, clean := objZero o (a + 12) 4 })

/-- The body of a section, empty when the image lacks it. -/
def sectionBody (o : LibObj) (d : List SecEntry) (typ : Nat) : List Byte :=
  match d.find? (fun e => e.typ == typ) with
  | some e => objBytes o e.off e.len
  | none => []

/-! ### Checks 1 to 10 -/

/-- Check 3 (R24, R39). -/
def formatOk (o : LibObj) : Bool :=
  let n := objN o 0x06 2
  objN o 0 4 == 0x4D49584B && objN o 4 2 == 1 && decide (11 ≤ n) && decide (n ≤ 32) && objN o 8 8 != 0 &&
  decide (objN o 0x1C 4 < 8) && objZero o 0x50 48 && (bitN (objN o 0x1C 4) 2 || objZero o 0x20 32)

/-- Check 4 (R37, R39). -/
def lengthOk (o : LibObj) : Bool :=
  let t := objN o 0x10 4
  let d := directory o
  t % 64 == 0 && decide (t ≤ 67108864) && decide (t ≤ o.written) && decide (0x80 + 16 * d.length ≤ t) &&
  d.all (fun e => decide (e.off + e.len ≤ t)) &&
  (match d.getLast? with | some e => e.typ == 0x000C && e.len == 7232 && e.off + 7232 == t | none => false)

/-- The byte at which the SIGNATURE body begins. -/
def sigAt (o : LibObj) : Nat := objN o 0x10 4 - 7232

/-- The key slot `k` of the fuses. -/
def keySlot (s : State) (k : Nat) : KeySlot := tget (fun _ => {}) s.sec.slots k

/-- Whether a customer slot is enrolled and unrevoked. -/
def slotLive (x : KeySlot) : Bool := x.enrolled && !x.revoked

/-- Check 6 (R38): whether the key of a signature is accepted for images. -/
def imageKeyOk (s : State) (slot : Nat) (hash : List Word) : Bool :=
  if slot = 0xFF then
    hash == vendorHash s && !((List.range 4).any (fun k => slotLive (keySlot s k) && (keySlot s k).image))
  else decide (slot < 4) && slotLive (keySlot s slot) && (keySlot s slot).image && hash == (keySlot s slot).hash

/-- Check 9 (R39): TARGET, and DEVICE_BIND when BIND_DEVICE is 1. -/
def targetOk (s : State) (o : LibObj) : Bool :=
  objN o 0x18 4 == 0x05120002 && (!(bitN (objN o 0x1C 4) 2) || bytesToWords (objBytes o 0x20 32) == s.sec.idHash)

/-! ### Check 11 -/

/-- The sections of R27 that are always required. -/
def requiredSections : List Nat := [1, 2, 3, 4, 5, 6, 7, 9, 10, 11, 12]

/-- The length of the set records of DSPMAP from byte `a` up (R352, R702); none for a record of unknown KIND. -/
def setRecordsLen (bs : List Byte) : Nat → Nat → Option Nat
  | 0, _ => some 0
  | n + 1, a =>
    let k := secN bs a 1
    if a ≥ bs.length then none
    else if k = 0 then (setRecordsLen bs n (a + 4104)).map (· + 4104)
    else if k = 1 then (setRecordsLen bs n (a + 44)).map (· + 44)
    else none

/-- Whether a body has the length its layout fixes (R702). -/
def bodyLengthOk (typ : Nat) (bs : List Byte) : Bool :=
  let n := bs.length
  match typ with
  | 1 => n == 64
  | 2 => n == 10240
  | 3 => n == 4224
  | 4 => n == 128
  | 5 => n % 2064 == 0 && decide (n / 2064 ≤ 1024)
  | 6 => n % 16 == 0 && decide (1 ≤ n / 16) && decide (n / 16 ≤ 1024)
  | 7 => n == 1024
  | 8 => n == 80
  | 9 => decide (64 ≤ n) && n == 64 + 16 * secN bs 0 2 + 16 * secN bs 2 2 + 72 * secN bs 4 2
  | 10 =>
    let e := 16 + 32 * secN bs 0 4
    decide (16 ≤ n) && decide (e ≤ n) && decide (secN bs 4 4 ≤ n) &&
      (match setRecordsLen bs (secN bs 4 4) e with | some l => n == e + l | none => false)
  | 11 => n == 32
  | 12 => n == 7232
  | _ => true

/-- Sections in order of their bodies. -/
def insertEntry (e : SecEntry) : List SecEntry → List SecEntry
  | [] => [e]
  | h :: t => if h.off ≤ e.off then h :: insertEntry e t else e :: h :: t

/-- Whether bodies, taken in order from byte `a`, do not overlap and only zero bytes lie between them (R26). -/
def gapsZero (o : LibObj) : Nat → List SecEntry → Bool
  | a, [] => a == objN o 0x10 4
  | a, e :: r => decide (a ≤ e.off) && objZero o a (e.off - a) && gapsZero o (e.off + e.len) r

/-- Check 11 (R25, R26, R27, R702). -/
def sectionsOk (s : State) (o : LibObj) : Bool :=
  let d := directory o
  let ordered := d.foldl (fun l e => insertEntry e l) []
  let known := fun (e : SecEntry) => decide (1 ≤ e.typ) && decide (e.typ ≤ 12)
  d.all (fun e => e.clean && e.flags % 32768 == 0 && e.off % 64 == 0 && (known e || bitN e.flags 15)) &&
  d.all (fun e => (d.filter (fun f => f.typ == e.typ)).length == 1) &&
  (match ordered.getLast? with | some e => e.typ == 12 | none => false) && gapsZero o (0x80 + 16 * d.length) ordered &&
  requiredSections.all (fun t => d.any (fun e => e.typ == t)) && (aloneRole s || d.any (fun e => e.typ == 8)) &&
  d.all (fun e => !(known e) || bodyLengthOk e.typ (objBytes o e.off e.len))

/-! ### Sections as data -/

/-- A site of SITEMAP (R28). -/
def parseSite (bs : List Byte) (n : Nat) : Site :=
  { channels := secN bs (80 * n) 64, context := secN bs (80 * n + 0x40) 1, enabled := secN bs (80 * n + 0x41) 1 % 2 == 1 }

/-- A group header of CHANROLE (R30). -/
def parseGroup (bs : List Byte) (g : Nat) : GroupRole :=
  { periodN := secN bs (8 * g) 3, tset0 := secN bs (8 * g + 3) 1, tmaster := secN bs (8 * g + 4) 1,
    enabled := secN bs (8 * g + 5) 1 % 2 == 1 }

/-- A channel entry of CHANROLE (R30). -/
def parseChan (bs : List Byte) (c : Nat) : ChanRole :=
  let a := 128 + 8 * c
  { mode0 := secN bs a 1, permit := secN bs (a + 1) 1, site := secN bs (a + 2) 1, aq := secN bs (a + 3) 1, dsp := secN bs (a + 4) 2 }

/-- An entry of LANEMAP (R32). -/
def parseLane (bs : List Byte) (g : Nat) : LaneMap :=
  { lflags := secN bs (8 * g) 1, compClass := secN bs (8 * g + 1) 1, tracePs := secN bs (8 * g + 2) 2 }

/-- The entries of RESERVE (R33). -/
def parseReserve (bs : List Byte) : List Reserve :=
  (List.range (bs.length / 16)).map (fun (i : Nat) =>
    { cls := secN bs (16 * i) 1, rflags := secN bs (16 * i + 1) 1, consumer := secN bs (16 * i + 2) 2, amount := secN bs (16 * i + 8) 8 })

/-- The SPARES record (R34). -/
def parseSpares (bs : List Byte) : Spares :=
  { ctx := secN bs 0 1, core := secN bs 1 1, dp := secN bs 2 1, dmaFree := secN bs 3 1, pc := secN bs 4 1 }

/-- A table of the first `n` entries. -/
def tableOf {α : Type} [DecidableEq α] (d : α) (n : Nat) (f : Nat → α) : Tbl α :=
  (List.range n).filterMap (fun i => if f i = d then none else some (i, f i))

/-- The image that an object holds; `digest` is the digest of R37. -/
def parseImage (o : LibObj) (digest : List Word) : Image :=
  let d := directory o
  let sm := sectionBody o d 2
  let cr := sectionBody o d 3
  let lm := sectionBody o d 4
  { seq := objN o 8 8, svn := objN o 0x14 4, flags := objN o 0x1C 4, digest := digest,
    sites := tableOf {} 128 (parseSite sm), groups := tableOf {} 16 (parseGroup cr), chans := tableOf {} 512 (parseChan cr),
    lanes := tableOf {} 16 (parseLane lm), reserve := parseReserve (sectionBody o d 6), spares := parseSpares (sectionBody o d 11),
    tsets := sectionBody o d 5, trigroute := sectionBody o d 7, quadrille := sectionBody o d 8, sched := sectionBody o d 9,
    dspmap := sectionBody o d 10 }

/-! ### Check 12 -/

/-- Site `n`, group `g`, channel `c` and lane entry `g` of an image. -/
def imgSite (m : Image) (n : Nat) : Site := tget (fun _ => {}) m.sites n
def imgGroup (m : Image) (g : Nat) : GroupRole := tget (fun _ => {}) m.groups g
def imgChan (m : Image) (c : Nat) : ChanRole := tget (fun _ => {}) m.chans c
def imgLane (m : Image) (g : Nat) : LaneMap := tget (fun _ => {}) m.lanes g

/-- Whether a section's bytes from `a` on, `n` of them, are 0. -/
def secZero (bs : List Byte) (a n : Nat) : Bool := ((bs.drop a).take n).all (· == 0)

/-- Fields of IDENT, SITEMAP, CHANROLE, LANEMAP, RESERVE and SPARES within their ranges and reserved bytes 0 (R41). CONSUMER of classes
other than 5, NAME and LABEL are held to no range (DESIGN CHOICE, notes/assumptions/49.md). -/
def fieldsOk (m : Image) (ident sm cr lm rs sp : List Byte) : Bool :=
  secZero ident 0x24 12 &&
  (List.range 128).all (fun n =>
    let x := imgSite m n
    (decide (x.context < 64) || x.context == 0xFF) && decide (secN sm (80 * n + 0x41) 1 < 2)) &&
  (List.range 16).all (fun g =>
    let x := imgGroup m g
    decide (256 ≤ x.periodN) && decide (x.tset0 < 64) && (decide (x.tmaster < 64) || x.tmaster == 0xFF) &&
    decide (secN cr (8 * g + 5) 1 < 2) && secZero cr (8 * g + 6) 2 && decide (secN lm (8 * g) 1 < 32) && secZero lm (8 * g + 4) 4) &&
  (List.range 512).all (fun c =>
    let x := imgChan m c
    decide (x.mode0 < 7) && decide (x.permit < 128) && bitN x.permit x.mode0 && (decide (x.site < 128) || x.site == 0xFF) &&
    (decide (x.aq < 32) || x.aq == 0xFF) && secZero cr (128 + 8 * c + 6) 2) &&
  (List.range m.reserve.length).all (fun i =>
    let x := (m.reserve[i]?).getD { cls := 0, rflags := 0, consumer := 0, amount := 0 }
    decide (1 ≤ x.cls) && decide (x.cls ≤ 8) && decide (x.rflags < 8) && secZero rs (16 * i + 4) 4 &&
    (x.cls != 5 || decide (x.consumer < 2))) &&
  decide (m.spares.ctx ≤ 4) && decide (m.spares.core ≤ 4) && decide (m.spares.dp ≤ 1) && decide (m.spares.dmaFree ≤ 31) &&
  decide (m.spares.pc ≤ 1) && secZero sp 5 27

/-- SITEMAP and CHANROLE agree (R29, R41). -/
def sitesAgree (m : Image) : Bool :=
  (List.range 128).all (fun n =>
    let x := imgSite m n
    !x.enabled || (decide (x.context < 64) && x.channels != 0 &&
      (List.range 512).all (fun c => !(bitN x.channels c) || ((imgChan m c).site == n && (imgGroup m (c / 32)).enabled)))) &&
  (List.range 512).all (fun c =>
    let x := imgChan m c
    x.site == 0xFF || ((imgSite m x.site).enabled && bitN (imgSite m x.site).channels c))

/-- Groups and channels agree (R41): TMASTER, TIME-permitted channels, DSPMAP references. -/
def rolesAgree (m : Image) : Bool :=
  (List.range 16).all (fun g =>
    let x := imgGroup m g
    (!x.enabled || (decide (x.tmaster < 64) && (List.range 32).any (fun k =>
      let n := (imgChan m (32 * g + k)).site
      n != 0xFF && (imgSite m n).context == x.tmaster))) &&
    (decide (x.periodN ≤ 2048) || (List.range 32).all (fun k => !(bitN (imgChan m (32 * g + k)).permit 6)))) &&
  (List.range 512).all (fun c =>
    let x := imgChan m c
    let measure := bitN x.permit 2 || bitN x.permit 3 || bitN x.permit 5
    decide (x.dsp < secN m.dspmap 0 4) || (x.dsp == 0xFFFF && !measure))

/-- RESERVE agrees with UNMIRRORED (R41, R43). -/
def reserveAgree (m : Image) : Bool :=
  m.reserve.all (fun r =>
    let both := bitN r.rflags 1 && bitN r.rflags 2
    if bitN m.flags 1 then !(bitN r.rflags 0) && !both else !(bitN r.rflags 1) && !(bitN r.rflags 2))

/-- QUADRILLE within its ranges and in agreement with the straps (R448). -/
def quadrilleOk (s : State) (q : List Byte) : Bool :=
  if q.isEmpty then true
  else
    !(aloneRole s) && decide (1000 ≤ secN q 4 2) && decide (secN q 4 2 ≤ 30000) && secZero q 6 10 && bitN (secN q 0 4) (ownAddr s) &&
    (List.range 32).all (fun k =>
      let u := secN q (0x10 + k) 1
      let l := secN q (0x30 + k) 1
      (u == 0xFF || (decide (u < 32) && bitN (secN q 0 4) u)) && (decide (l < 64) || (l == 0xFF && u != ownAddr s)))

/-- TSETS records within their ranges, no two for the same set (R41, R276). -/
def tsetsOk (t : List Byte) : Bool :=
  let keys := (List.range (t.length / 2064)).map (fun (i : Nat) => (secN t (2064 * i) 1, secN t (2064 * i + 1) 1))
  keys.all (fun k => decide (k.1 < 16) && decide (k.2 < 64) && (keys.filter (· == k)).length == 1) &&
  (List.range (t.length / 2064)).all (fun i => decide (secN t (2064 * i + 2) 2 < 2) && secZero t (2064 * i + 4) 12)

/-- Counts and reserved bytes of the headers of SCHED and DSPMAP (R41, R352, R504). -/
def countsOk (m : Image) : Bool :=
  let nl := secN m.sched 0 2
  let nf := secN m.sched 2 2
  let ne := secN m.dspmap 0 4
  decide (1 ≤ nl) && decide (nl ≤ 64) && decide (1 ≤ nf) && decide (nf ≤ 1024) && decide (secN m.sched 4 2 ≤ 64) &&
  secZero m.sched 6 2 && secZero m.sched 0x14 12 &&
  decide (1 ≤ ne) && decide (ne ≤ 512) && decide (secN m.dspmap 4 4 ≤ 84) && secZero m.dspmap 8 8

/-- Check 12 (R41). -/
def consistencyOk (s : State) (o : LibObj) (m : Image) : Bool :=
  let d := directory o
  fieldsOk m (sectionBody o d 1) (sectionBody o d 2) (sectionBody o d 3) (sectionBody o d 4) (sectionBody o d 6) (sectionBody o d 11) &&
  sitesAgree m && rolesAgree m && reserveAgree m && quadrilleOk s m.quadrille && tsetsOk m.tsets && countsOk m

/-! ### Verification and admission -/

/-- Checks 1 to 12 (R39, R40): the failing check with its reason, or the image. -/
def verifySlot (s : State) (k : Nat) (c : CryptoObs) : (Nat × Nat) ⊕ Image :=
  let o := slotObj s k
  if o.state == .opened then .inl (1, 0x10)
  else if o.written = 0 then .inl (2, 0x11)
  else if !(formatOk o) then .inl (3, 0x01)
  else if !(lengthOk o) then .inl (4, 0x02)
  else if !(imageKeyOk s (objN o (sigAt o + 2) 1) (signerHash o (sigAt o))) then .inl (6, 0x04)
  else if !(c.sigOk && objN o (sigAt o) 2 == 0x0087) then .inl (7, 0x05)
  else if objN o 0x14 4 < s.sec.imageFloor then .inl (8, 0x06)
  else if !(targetOk s o) then .inl (9, 0x07)
  else if rdN s Reg.SYS_FW_VER < objN o 0x40 4 ∨ rdN s Reg.SEQ_UCODE_VER < objN o 0x44 4 then .inl (10, 0x08)
  else if !(sectionsOk s o) then .inl (11, 0x09)
  else
    let m := parseImage o (signedDigest o (sigAt o))
    if !(consistencyOk s o m) then .inl (12, 0x0A) else .inr m

/-- The sum of the amounts of a class. -/
def classSum (rs : List Reserve) (p : Reserve → Bool) : Nat := sumN ((rs.filter p).map (·.amount))

/-- The charge of a stack, at least 0. -/
def chargeOf (s : State) (m : Image) (st : Nat) : Nat := (hbmCharge s m.reserve (bitN m.flags 1) st).toNat

/-- The sums of R42 and R43 as the registers of R64 report them. -/
def admitSums (s : State) (m : Image) : AdmitSums :=
  { hbm0 := ceilDiv (chargeOf s m 0) 496, cap0 := hbmRoom s 0, hbm1 := ceilDiv (chargeOf s m 1) 496, cap1 := hbmRoom s 1,
    eng := classSum m.reserve (fun r => r.cls == 8), eth := classSum m.reserve (fun r => r.cls == 6),
    libr := classSum m.reserve (fun r => r.cls == 5 && r.consumer == 0),
    libw := classSum m.reserve (fun r => r.cls == 5 && r.consumer == 1) }

/-- The engines among the top `f` that still stand by (R45). -/
def enginesHeld (s : State) (f : Nat) : Nat :=
  ((List.range 32).filter (fun e => decide (32 - f ≤ e) && !(s.dma.used.contains e) && !(isFenced 0x0B e s))).length

/-- Whether the spare pseudo-channels of both stacks are unused. -/
def pcSparesHeld (s : State) : Bool :=
  [0, 1].all (fun st => !(rdBit s Reg.MEM_STATUS (3 + st)) && !(pcFenced s st 31))

/-- The SPARES record cut to what the device holds (R45); the cut of PC_SPARES applies per stack where it is used. -/
def cutSpares (s : State) (x : Spares) : Spares :=
  { ctx := min x.ctx s.seq.ctxSpares, core := min x.core (rdFld s Reg.SCH_STATUS 18 16),
    dp := if s.mea.spareUsed then 0 else x.dp, dmaFree := min x.dmaFree (enginesHeld s x.dmaFree), pc := x.pc }

/-- The kinds of spare that an image lacks (R35, R45), in the order of R34: contexts, cores, datapath, free DMA channels,
pseudo-channels. -/
def sparesMissing (s : State) (x : Spares) : List Bool :=
  let y := cutSpares s x
  [y.ctx != 4, y.core != 4, y.dp != 1, x.dmaFree == 0 || y.dmaFree != x.dmaFree, x.pc != 1 || !(pcSparesHeld s)]

/-- Whether the reservations of an image are intact (R35). -/
def sparesIntact (s : State) (x : Spares) : Bool := !((sparesMissing s x).any id)

/-- The C0 notice that names the missing spares (R45): DETAIL1 holds a bit for each kind in the order of R34 (DESIGN CHOICE,
notes/assumptions/49.md). -/
def sparesNotice (slot : Nat) (x : Spares) (s : State) : State :=
  raise (mkFaultD 0 0x21 slot 0x0F 0x0F (sumN ((List.range 5).map (fun (k : Nat) => b2n (nth false (sparesMissing s x) k) * 2 ^ k)))) s

/-- Checks 13 to 17 (R39, R42 to R45). -/
def admitImage (s : State) (m : Image) : Option (Nat × Nat) :=
  let a := admitSums s m
  if overCap s m.reserve (bitN m.flags 1) 0 || overCap s m.reserve (bitN m.flags 1) 1 then some (13, 0x0B)
  else if rdN s Reg.MEA_ENG_CAP < a.eng then some (14, 0x0C)
  else if 720000 < a.eth then some (15, 0x0D)
  else if 16000 < a.libr ∨ 4000 < a.libw then some (16, 0x0E)
  else if bitN m.flags 0 && !(sparesIntact s m.spares) then some (17, 0x0F)
  else none

/-- The checks of R39 on a slot; `admission` says whether admission is to run. -/
def checkSlot (s : State) (k : Nat) (c : CryptoObs) (admission : Bool) : CheckResult :=
  match verifySlot s k c with
  | .inl (n, r) => { check := n, reason := r }
  | .inr m =>
    if admission then
      match admitImage s m with
      | some (n, r) => { check := n, reason := r, admitRun := true, sums := some (admitSums s m), image := some m }
      | none => { admitRun := true, sums := some (admitSums s m), image := some m }
    else { image := some m }

/-! ### Reports -/

/-- The state code of a slot (R64). -/
def checkCode (r : CheckResult) : Nat :=
  if r.image.isNone then 1 else if r.admitRun && r.check == 0 then 3 else 2

/-- Shows sums in the eight registers from `a` up (R64), each modulo 2^32 (DESIGN CHOICE, notes/assumptions/49.md). -/
def showSums (a : Nat) (x : AdmitSums) (s : State) : State :=
  setRegs a ([x.hbm0, x.cap0, x.hbm1, x.cap1, x.eng, x.eth, x.libr, x.libw].map wd) s

/-- Reports the checks of a slot in IMG_SLOT_STATE, IMG_REASON and the IMG_V registers. -/
def reportCheck (k : Nat) (r : CheckResult) (s : State) : State :=
  let s := setBit Reg.IMG_SLOT_STATE (4 + k) r.admitRun (setFld Reg.IMG_SLOT_STATE (2 * k + 1) (2 * k) (checkCode r) s)
  let s := if r.check = 0 then s else setRegN Reg.IMG_REASON (65536 * r.check + 256 * k + r.reason) s
  match r.sums with | some x => showSums (Reg.IMG_V_HBM0_RSV) x s | none => s

/-! ### Selection (R50) -/

/-- The SEQ of a slot's image; 0 when the slot is empty or its header is unreadable, which is one not wholly written or lost (R64; DESIGN
CHOICE, notes/assumptions/49.md). -/
def slotSeq (s : State) (k : Nat) : Nat :=
  let o := slotObj s k
  if o.written < 128 || o.state == .lost then 0 else objN o 8 8

/-- The slots that pass verification, in the order of R50. -/
def selectOrder (s : State) (a b : CryptoObs) : List Nat :=
  let va := (checkSlot s 0 a false).image.isSome
  let vb := (checkSlot s 1 b false).image.isSome
  if va && vb then (if slotSeq s 0 < slotSeq s 1 then [1, 0] else [0, 1])
  else if va then [0] else if vb then [1] else []

/-- Runs admission on the slots of a list until one is admitted, reporting each. -/
def tryAdmit (a b : CryptoObs) : List Nat → State → Option (Nat × CheckResult) × State
  | [], s => (none, s)
  | k :: ks, s =>
    let r := checkSlot s k (if k = 0 then a else b) true
    let s := reportCheck k r s
    if r.check = 0 then (some (k, r), s) else tryAdmit a b ks s

/-- The selection of R50: the slot and image admitted, if any. -/
def selectImage (a b : CryptoObs) (s : State) : Option (Nat × CheckResult) × State :=
  let s0 := s
  let s := reportCheck 1 (checkSlot s0 1 b false) (reportCheck 0 (checkSlot s0 0 a false) s)
  let order := selectOrder s0 a b
  let s := if order.length = 2 && slotSeq s0 0 == slotSeq s0 1 then imageNotice 0 0 s else s
  tryAdmit a b order s

/-! ### The switch point -/

/-- TST_TSET, TST_PERIOD and TST_MODE of a group from CHANROLE (R278, R281). -/
def applyGroupRole (s : State) (g : Nat) : State :=
  let x := groupRole s g
  let s := setRegN (Reg.TST_TSET g) x.tset0 (setRegN (Reg.TST_PERIOD g) x.periodN s)
  let s := setFld (Reg.TST_STATUS g) 5 0 x.tset0 (modLink g (fun l => { l with tsetNow := x.tset0, tsets := [] }) s)
  (List.range 4).foldl (fun s j =>
    setRegN (Reg.TST_MODE g j) (sumN ((List.range 8).map (fun (i : Nat) => (chanRole s (32 * g + 8 * j + i)).mode0 * 16 ^ i))) s) s

/-- Every context becomes IDLE and loses its continuation; SITES and the counts of the epoch are set (R52, R229). -/
def resetContext (s : State) (c : Nat) : State :=
  let s := modCtx c (fun x => { state := if x.state == .fenced then .fenced else .idle, onSpare := x.onSpare, takeover := x.takeover,
                                halted := x.halted }) s
  showCtx c (setRegN (Reg.SEQ_CTX_HOLDS c) 0 (setRegN (Reg.SEQ_CTX_SITES c) (siteList s c).length s))

/-- Lanes of a group at the switch point (R61, R113): a changed or newly enabled group retrains, GAVE_UP is cleared, and a
group that stays has its companion map rewritten. -/
def switchLanes (old : Image) (s : State) (g : Nat) : State :=
  let was := (imgGroup old g).enabled
  let now := groupEnabled s g
  if imgLane old g != laneMap s g || was != now then
    commandDetect g 1 0x0C (commandDetect g 0 0x0C s)
  else
    let s := [0, 1].foldl (fun s l => if rdBit s (laneStatus g l) 6 then commandDetect g l 0x0C s else s) s
    if now && groupActive s g then
      setBit (Reg.TST_STATUS g) 15 true
        (modLink g (fun k => { k with mapCursor := some 0, mapQ := [], relin := [], announced := none }) s)
    else s

/-- Whether every enabled group is ACTIVE. -/
def groupsActive (s : State) : Bool := (List.range 16).all (fun g => !(groupEnabled s g) || groupActive s g)

/-- Whether the companion of a group has consumed its whole map (R268). -/
def mapWhole (s : State) (g : Nat) : Bool :=
  let l := linkOf s g
  l.mapCursor.isNone && l.mapQ.isEmpty && l.mapOut.isEmpty

/-- Whether every enabled group is ACTIVE and has its timing sets, whose rewrite belongs to the switch point (R61, R268). -/
def groupsServed (s : State) : Bool := groupsActive s && (List.range 16).all (fun g => !(groupEnabled s g) || mapWhole s g)

/-- A load ends: it is answered OK and IMG_STATUS reads LOADED (R61). -/
def endLoad (s : State) : State :=
  finishOpen .load stOk (setFld Reg.IMG_STATUS 1 0 2 { s with img := { s.img with load := .idle } })

/-- Whether a load is past its switch point. -/
def retraining (s : State) : Bool := match s.img.load with | .retraining _ => true | _ => false

/-- The load in its retrain time is answered once every enabled group is ACTIVE with its map whole (R61, R268). -/
def checkLoadDone (s : State) : State := if retraining s && groupsServed s then endLoad s else s

/-- The next epoch number (R58). -/
def nextEpoch (n : Nat) : Nat := if n = 0xFFFFFFFF then 1 else n + 1

/-- Shadows that a load replaces (R281, R354). -/
def keptShadow (e : Nat × Word) : Bool :=
  let b := blockOf e.1
  let o := e.1 % 0x10000
  !(b == 0x41) && !(decide (0x30 ≤ b) && decide (b < 0x40) && (o == 0x4 || o == 0xC || (decide (0x320 ≤ o) && decide (o < 0x330))))

/-- The registers and blocks of the new image (R61); the new epoch starts in HOLD (R63). -/
def applyImage (slot : Nat) (m : Image) (x : AdmitSums) (coreRead : Bool) (s : State) : State :=
  let intact := sparesIntact s m.spares
  let s := if intact then s else sparesNotice slot m.spares s
  let m := { m with spares := cutSpares s m.spares }
  let epoch := nextEpoch s.img.sysEpoch
  let s := { s with
    img := { s.img with active := m, loaded := true, lateGroups := [], sysEpoch := epoch },
    flt := { s.flt with halted := false, spareUsed := false, badRecord := false, broken := false },
    sec := { s.sec with mImage := m.digest, mCore := coreMeasure s m.sched coreRead },
    pwr := { s.pwr with state := .hold },
    shadowS := s.shadowS.filter keptShadow, shadowF := s.shadowF.filter keptShadow }
  let s := setRegN Reg.IMG_EPOCH epoch (set64 Reg.IMG_ACTIVE_SEQ_LO m.seq s)
  let s := setRegs (Reg.IMG_DIGEST 0) (padTo 16 0 m.digest) s
  let s := showSums Reg.IMG_HBM0_RSV x s
  let s := setRegN Reg.IMG_STATUS (1 + 16 * slot + 32 * b2n (bitN m.flags 1) + 64 * b2n intact + 128 * b2n (decide (x.eth ≤ 360000))) s
  let s := setBit Reg.MEM_STATUS 0 (bitN m.flags 1) (setRegN Reg.MEA_ENG_RSV x.eng s)
  let s := (List.range 16).foldl applyGroupRole s
  let s := applyDspMap m.dspmap (applyTsets m.tsets s)
  let s := applySched m.sched coreRead (applyRoute m.trigroute s)
  let s := showDma (applyDmaFree m.spares.dmaFree s)
  let s := (List.range 64).foldl resetContext (setRegN Reg.SEQ_STEP_COUNT 0 s)
  let s := (List.range 16).foldl (fun s g => setRegN (Reg.SRC_XNTF g) 0 s) s
  let s := (List.range 512).foldl (fun s c => setRegN (Reg.TDC_CH_DROPPED c) 0 (setRegN (Reg.SRC_CH_OVERLOAD c) 0 s)) s
  rebaseLedgers (showLogRate s)

/-- The switch point of a load (R61). -/
def switchTo (slot : Nat) (m : Image) (x : AdmitSums) (coreRead : Bool) (s : State) : State :=
  let old := s.img.active
  let s := applyImage slot m x coreRead s
  (List.range 16).foldl (switchLanes old) s

/-! ### The commands of IMG_CMD -/

/-- Whether a load or a VERIFY is in progress, so that IMG_CMD is refused (R57). -/
def imgBusy (s : State) : Bool := s.img.load != .idle || s.img.verify.isSome

/-- Whether a load may begin: in HOLD, or in the halted condition once the step has ended (R23, R54). -/
def mayLoad (s : State) : Bool := inHold s || (s.flt.halted && !(stepRuns s))

/-- Begins a load (R53 to R55, R645). -/
def beginLoad (q : Req) (auto : Bool) (slot : Nat) (s : State) : State :=
  refuseIf (imgBusy s) stImgLoading (refuseIf (!(mayLoad s)) stNotInHold
    (refuseIf (s.sec.state == .retired) stSecState (fun s =>
      deferAnswer .load q.slot.val (setFld Reg.IMG_STATUS 1 0 1 { s with img := { s.img with load := .draining auto slot } })))) s

/-- IMG_CMD = VERIFY (R53, R57). -/
def beginVerify (q : Req) (slot : Nat) (s : State) : State :=
  refuseIf (imgBusy s) stImgLoading (fun s =>
    deferAnswer .verify q.slot.val { s with img := { s.img with verify := some slot } }) s

/-- VERIFY_END: the checks of a VERIFY end (R53). -/
def verifyEnd (c : CryptoObs) (s : State) : State :=
  match s.img.verify with
  | none => s
  | some k =>
    let r := checkSlot s k c true
    let s := reportCheck k r { s with img := { s.img with verify := none } }
    finishOpen .verify (if r.check = 0 then stOk else if r.image.isSome then stNotAdmitted else stImgInvalid) s

/-- Whether a STREAM_DATA message of the epoch in force, on an EVENT or RING stream, is unacknowledged (R55). -/
def unackedData (s : State) (m : OutMsg) : Bool :=
  match m.body with
  | .streamData _ kind _ _ _ => kind != 1 && m.epoch == epochNow s
  | _ => false

/-- The drain condition of R55; due records of the sequence log reach HBM as they arise in this model. -/
def drainMet (s : State) : Bool :=
  allDrained s && (List.range 8).all (fun k => (sessOf s k).unacked.all (fun m => !(unackedData s m))) &&
  s.net.orphans.all (fun m => !(unackedData s m)) &&
  s.net.streams.all (fun t => t.kind != 2 || t.credit != 0 || t.recs.all (fun r => r.epoch != epochNow s))

/-- LOAD_DRAIN_MET: the checks of the load run (R53, R55). -/
def loadDrainMet (a b : CryptoObs) (s : State) : State :=
  match s.img.load with
  | .draining auto slot =>
    if drainMet s then
      if auto then
        let (r, s) := selectImage a b s
        match r with
        | some (k, x) =>
          { s with img := { s.img with load := .passed true k (x.image.getD {}) (x.sums.getD {}) } }
        | none =>
          let some_ := rdFld s Reg.IMG_SLOT_STATE 1 0 == 2 || rdFld s Reg.IMG_SLOT_STATE 3 2 == 2
          { s with img := { s.img with load := .failed true slot (if some_ then stNotAdmitted else stImgInvalid) } }
      else
        let r := checkSlot s slot (if slot = 0 then a else b) true
        let s := reportCheck slot r s
        let p := if r.check = 0 then .passed false slot (r.image.getD {}) (r.sums.getD {})
          else .failed false slot (if r.image.isSome then stNotAdmitted else stImgInvalid)
        { s with img := { s.img with load := p } }
    else s
  | _ => s

/-- A load ends without a switch (R55, R56). -/
def failLoad (code : Nat) (s : State) : State :=
  finishOpen .load code (setFld Reg.IMG_STATUS 1 0 (if s.img.loaded then 2 else 0) { s with img := { s.img with load := .idle } })

/-- LOAD_DRAIN_TIMEOUT (R55). -/
def loadDrainTimeout (s : State) : State := match s.img.load with | .draining _ _ => failLoad stImgBusy s | _ => s

/-- LOAD_CHECK_FAILURE (R53, R56). -/
def loadCheckFailure (s : State) : State := match s.img.load with | .failed _ _ code => failLoad code s | _ => s

/-- LOAD_SWITCH_POINT (R61). -/
def loadSwitch (coreRead : Bool) (s : State) : State :=
  match s.img.load with
  | .passed auto slot m x =>
    let s := switchTo slot m x coreRead s
    checkLoadDone { s with img := { s.img with load := .retraining auto } }
  | _ => s

/-- LOAD_RETRAIN_TIMEOUT (R61): groups not ACTIVE raise a C2 each and the load is answered. -/
def loadRetrainTimeout (s : State) : State :=
  if retraining s then
    let late := (List.range 16).filter (fun g => groupEnabled s g && !(groupActive s g))
    let s := late.foldl (fun s g => raise (linkFault 2 g 0x07 0 0) s) s
    endLoad { s with img := { s.img with lateGroups := late } }
  else s

/-! ### Meanings -/

/-- The word of IMG_CMD. -/
def imgWord (cmd slot : Nat) : Word := wd (cmd + 256 * slot)

/-- IMG_VERIFY. -/
def execImgVerify (q : Req) (slot : Fin 2) (s : State) : Host.Outcome State Fault Refusal :=
  .next (guarded q Reg.IMG_CMD (imgWord 1 slot.val) (beginVerify q slot.val) s)

/-- IMG_LOAD. -/
def execImgLoad (q : Req) (slot : Fin 2) (s : State) : Host.Outcome State Fault Refusal :=
  .next (guarded q Reg.IMG_CMD (imgWord 2 slot.val) (beginLoad q false slot.val) s)

/-- LOAD_AUTO. -/
def execLoadAuto (q : Req) (s : State) : Host.Outcome State Fault Refusal :=
  .next (guarded q Reg.IMG_CMD (imgWord 3 0) (beginLoad q true 0) s)

/-- LOAD_DRAIN_MET. -/
def execLoadDrainMet (obsA obsB : CryptoObs) (s : State) : Host.Outcome State Fault Refusal := .next (loadDrainMet obsA obsB s)

/-- LOAD_DRAIN_TIMEOUT. -/
def execLoadDrainTimeout (s : State) : Host.Outcome State Fault Refusal := .next (loadDrainTimeout s)

/-- LOAD_CHECK_FAILURE. -/
def execLoadCheckFailure (s : State) : Host.Outcome State Fault Refusal := .next (loadCheckFailure s)

/-- LOAD_RETRAIN_TIMEOUT. -/
def execLoadRetrainTimeout (s : State) : Host.Outcome State Fault Refusal := .next (loadRetrainTimeout s)

/-- VERIFY_END. -/
def execVerifyEnd (obs : CryptoObs) (s : State) : Host.Outcome State Fault Refusal := .next (verifyEnd obs s)

end Sys2Proof.Machine
end

