-- ==== Sys2Proof/Machine/Sessions.lean ====
section
/-! DEFINITION. Sessions, ownership and streams (R563 to R580, R585, R587): opening and closing, vacancy, election and handover,
credit, the ports (R553 to R558) and the host table (R566). -/

namespace Sys2Proof.Machine

open Sys2Proof

/-! ### Credit and streams -/

/-- Refreshes NET_CRED_OUTSTANDING (R579). -/
def showCredit (s : State) : State := setRegN Reg.NET_CRED_OUTSTANDING (sumN (s.net.streams.map (·.credit))) s

/-- A stream by its number. -/
def streamOf (s : State) (n : Nat) : Option Stream := s.net.streams.find? (fun t => t.num == n)

/-- Changes a stream. -/
def modStream (n : Nat) (f : Stream → Stream) (s : State) : State :=
  { s with net := { s.net with streams := s.net.streams.map (fun t => if t.num = n then f t else t) } }

/-- Closes the streams that `p` selects and withdraws their credit (R579). -/
def closeStreams (p : Stream → Bool) (s : State) : State :=
  let gone := sumN ((s.net.streams.filter p).map (·.credit))
  showCredit (incWrap Reg.NET_CRED_WITHDRAWN gone
    { s with net := { s.net with streams := s.net.streams.filter (fun t => !p t) } })

/-- The lowest stream number not in use. -/
def freeStream (s : State) : Nat := ((List.range 64).find? (fun n => (streamOf s n).isNone)).getD 64

/-- Whether a STREAM_OPEN stays within the limits of R577 for session slot `k`. -/
def streamRoom (s : State) (k kind : Nat) : Bool :=
  let own := s.net.streams.filter (fun t => t.holder == some k)
  let most := if kind = 3 then 14 else 1
  decide (s.net.streams.length < 64) && decide ((own.filter (fun t => t.kind == kind)).length < most)

/-- The sum of the class-6 reservations of the image in force. -/
def ethReserved (s : State) : Nat := sumN ((s.img.active.reserve.filter (fun r => r.cls == 6)).map (·.amount))

/-- Whether the fields that STREAM_OPEN of kind RING adds lie in their ranges (R575). -/
def ringFieldsOk (p : StreamReq) : Bool :=
  decide (4 ≤ p.recSize) && decide (p.recSize ≤ 4096) && p.recSize % 4 == 0 && decide (0 < p.size)

/-- A STREAM_OPEN of session slot `k`: the status and, when OK, the stream's number (R571, R575, R577, R582). -/
def openStream (k : Nat) (p : StreamReq) (s : State) : Nat × Nat × State :=
  if s.pwr.recovery then (stRecoveryState, 0, s)
  else if p.kind = 3 && !(isOwner s k) then (stNotOwner, 0, s)
  else if rdFld s Reg.IMG_STATUS 1 0 = 1 then (stImgLoading, 0, s)
  else if p.kind = 0 ∨ 3 < p.kind ∨ (p.kind = 3 ∧ !(ringFieldsOk p)) then (stValueRange, 0, s)
  else if p.kind = 3 && !((rowOf p.wrReg).isSome && (rowOf p.rdReg).isSome) then (stBadAddr, 0, s)
  else if !(streamRoom s k p.kind) then (stRefusedFull, 0, s)
  else if ethReserved s < p.rate + sumN (s.net.streams.map (·.rate)) then (stNotAdmitted, 0, s)
  else
    let n := freeStream s
    let t : Stream := {
      num := n, holder := some k, ofOwner := isOwner s k, kind := p.kind, credit := p.credit % 65536, rate := p.rate,
      ringBase := p.base, ringRec := p.recSize, ringSize := p.size, wrReg := p.wrReg, rdReg := p.rdReg,
      nextIdx := if p.kind = 3 then rdN s p.rdReg else 0 }
    let s := { s with net := { s.net with streams := s.net.streams ++ [t] } }
    (stOk, n, showCredit (incWrap Reg.NET_CRED_GRANTED (p.credit % 65536) s))

/-- STREAM_CREDIT of session slot `k` (R578, R579); BAD_ADDR for a stream it does not hold. -/
def creditStream (k n c : Nat) (s : State) : Nat × State :=
  match streamOf s n with
  | some t =>
    if t.holder == some k then
      (stOk, showCredit (incWrap Reg.NET_CRED_GRANTED c (modStream n (fun t => { t with credit := t.credit + c }) s)))
    else (stBadAddr, s)
  | none => (stBadAddr, s)

/-- STREAM_CLOSE of session slot `k` (R579). -/
def closeStream (k n : Nat) (s : State) : Nat × State :=
  match streamOf s n with
  | some t => if t.holder == some k then (stOk, closeStreams (fun x => x.num == n) s) else (stBadAddr, s)
  | none => (stBadAddr, s)

/-! ### Records of RING streams -/

/-- The byte of a ring's records at which EPOCH stands: 8 in a stamp queue (R391), 4 in every other ring. -/
def epochOffset (wrReg : Nat) : Nat := if (List.range 512).any (fun c => Reg.TDC_CH_Q_WR c == wrReg) then 8 else 4

/-- The words of record `i` of a ring. -/
def ringRecord (s : State) (t : Stream) (i : Nat) : List Word :=
  bytesToWords (readBytesAt s (t.ringBase + t.ringRec * (i % t.ringSize)) t.ringRec)
where
  /-- The bytes at a memory address. -/
  readBytesAt (s : State) (a n : Nat) : List Byte := memBytes s a n

/-- The epoch of a ring's record (R59). -/
def recordEpoch (s : State) (t : Stream) (ws : List Word) : Word := nth (epochNow s) ws (epochOffset t.wrReg / 4)

/-- The index of the next record of a RING stream: not below the ring's read count. -/
def ringNext (s : State) (t : Stream) : Nat :=
  let d := sub32 (rdN s t.rdReg) t.nextIdx
  if d < 2147483648 then add32 t.nextIdx d else t.nextIdx

/-- The records that wait on a stream, with their epochs, the index of the first, and whether any were lost before it. -/
def waitingRecs (s : State) (t : Stream) : Nat × List Rec :=
  if t.kind = 3 then
    let i := ringNext s t
    let n := min (sub32 (rdN s t.wrReg) i) t.ringSize
    let n := if n < 2147483648 then min n (8896 / t.ringRec) else 0
    (i, (List.range n).map (fun k =>
      let ws := ringRecord s t (add32 i k)
      { epoch := recordEpoch s t ws, words := ws }))
  else (t.nextIdx, t.recs)

/-- The leading records of one epoch that fit a message of 8,960 bytes (R575); `room` counts words. -/
def oneMessage (e : Word) : Nat → List Rec → List Rec
  | _, [] => []
  | room, r :: rs => if r.epoch = e ∧ r.words.length ≤ room then r :: oneMessage e (room - r.words.length) rs else []

/-- Whether a record of words is a telemetry record (R95), and no eye report. -/
def isTelRecord (r : List Word) : Bool := fld (nth 0 r 0) 7 0 == 0x54

/-- Bit 3 of FLAGS in the first telemetry record after a discard (R94, R95). -/
def markDropped : List (List Word) → List (List Word)
  | [] => []
  | r :: rs => if isTelRecord r then r.set 3 (nth 0 r 3 ||| 8) :: rs else r :: markDropped rs

/-- STREAM_DATA_SEND: a stream with records and credit sends one message (R575, R578, R579). -/
def streamSend (n : Nat) (s : State) : State :=
  match streamOf s n with
  | none => s
  | some t =>
    match t.holder with
    | none => s
    | some k =>
      let (i, rs) := waitingRecs s t
      match rs with
      | [] => s
      | r :: _ =>
        if t.credit = 0 || !(sessOpen s k) then s
        else
          let out := oneMessage r.epoch 2224 rs
          let ws := out.map (·.words)
          let marks := t.kind == 1 && t.telDropped
          let body := OutBody.streamData n t.kind t.dropped i (if marks then markDropped ws else ws)
          let s := modStream n (fun t => { t with
            credit := t.credit - 1, recs := if t.kind = 3 then [] else t.recs.drop out.length,
            nextIdx := add32 i out.length, dropped := false, telDropped := t.telDropped && !(marks && ws.any isTelRecord) }) s
          sendMsg k r.epoch body (showCredit (incWrap Reg.NET_CRED_USED 1 s))

/-! ### Ownership -/

/-- The lease in reference periods (R572). -/
def leaseTime (s : State) : Nat := rdN s Reg.NET_LEASE_MS * 100000

/-- Milliseconds left on the lease, for DONE (R560). -/
def leaseLeft (s : State) : Nat := if s.net.owner.isSome then (s.net.leaseEnd - s.time) / 100000 else 0

/-- The stream of a STREAM_DATA message. -/
def dataStream (b : OutBody) : Option Nat := match b with | .streamData n _ _ _ _ => some n | _ => none

/-- The STREAM_DATA messages of the owner's streams that a session has not acknowledged (R580). -/
def unackedOf (s : State) (k : Nat) : List OutMsg :=
  ((sessOf s k).unacked ++ (sessOf s k).waiting).filter (fun m =>
    match dataStream m.body with
    | some n => (match streamOf s n with | some t => t.ofOwner | none => false)
    | none => false)

/-- An offer that ends without ACCEPT: the owner's HANDOVER is answered HANDOVER_FAILED (R573). -/
def lapseOffer (s : State) : State :=
  match s.net.offer, s.net.owner with
  | some o, some k =>
    let s := { s with net := { s.net with offer := none } }
    showOwner (respond k { reqSeq := o.reqSeq, status := stHandoverFailed, done := 0, data := [] } true s)
  | _, _ => { s with net := { s.net with offer := none } }

/-- Ownership becomes vacant (R62, R572, R574, R580, R585): an election window opens, and SYS_EXPERT_EN is cleared. -/
def vacate (s : State) : State :=
  match s.net.owner with
  | none => s
  | some k =>
    let s := lapseOffer s
    let s := setRegN Reg.SYS_EXPERT_EN 0 { s with net := { s.net with
      owner := none, lastOwner := some k, electing := true, cands := [],
      openCmds := s.net.openCmds.map (fun o => if o.reqSeq = 0 then o else { o with slot := 8, moved := true }),
      streams := s.net.streams.map (fun t => if t.ofOwner then { t with holder := none } else t) } }
    showOwner s

/-- Session slot `k` becomes the owner (R572 to R574, R580); `how` is HOW of SYS_OWNER. -/
def becomeOwner (k how : Nat) (s : State) : State :=
  let old := match s.net.owner with | some j => some j | none => s.net.lastOwner
  let moved := s.net.streams.filter (fun t => t.ofOwner)
  let again := s.net.orphans ++ (match old with
    | some j => if j = k then [] else unackedOf s j
    | none => [])
  let s := if moved.isEmpty then s else closeStreams (fun t => !t.ofOwner && t.holder == some k && t.kind != 3) s
  let s := incSat Reg.NET_CRED_XFER (sumN (moved.map (·.credit))) s
  let s := { s with net := { s.net with
    owner := some k, how := how, electing := false, cands := [], offer := none, lastOwner := none, orphans := [],
    leaseEnd := s.time + leaseTime s,
    streams := s.net.streams.map (fun t => if t.ofOwner || t.holder == some k then { t with ofOwner := true, holder := some k } else t),
    openCmds := s.net.openCmds.map (fun o => if o.reqSeq = 0 ∨ o.slot = k then o else { o with slot := k, moved := true }) } }
  let s := modSess k (fun x => { x with standing := false }) s
  let s := again.foldl (fun s m => sendMsg k m.epoch m.body s) s
  let results := s.net.results
  let s := results.foldl (fun s r => respond k r false s) { s with net := { s.net with results := [] } }
  showOwner (pushEvent 4 k (sessOf s k).id.toNat s)

/-- Whether a candidate `a` wins against `b` (R572): the higher priority, then the lower identity, then the lower slot. -/
def winsOver (s : State) (a b : Nat) : Bool :=
  let x := sessOf s a
  let y := sessOf s b
  if x.prio ≠ y.prio then decide (y.prio < x.prio)
  else if x.hostId ≠ y.hostId then decide (x.hostId < y.hostId)
  else decide (a < b)

/-- The candidates of an election: standing claims, and CLAIMs received during the window. -/
def candidates (s : State) : List Nat :=
  (List.range 8).filter (fun k => sessOpen s k && ((sessOf s k).standing || s.net.cands.any (fun c => c.1 == k)))

/-- Answers a CLAIM received during an election window (R560, R572). -/
def answerClaim (status : Nat) (s : State) (c : Nat × Nat) : State :=
  respond c.1 { reqSeq := c.2, status := status, done := leaseLeft s, data := [] } true s

/-- ELECTION_CLOSE: the window closes (R572). -/
def electionClose (s : State) : State :=
  if !s.net.electing then s
  else
    let claims := s.net.cands
    match (if s.sec.state == .retired then [] else candidates s) with
    | [] => showOwner { s with net := { s.net with electing := false, cands := [] } }
    | k :: ks =>
      let w := ks.foldl (fun b c => if winsOver s c b then c else b) k
      let s := becomeOwner w 2 s
      let s := claims.foldl (fun s c => if c.1 = w then s else modSess c.1 (fun x => { x with standing := true }) s) s
      showOwner (claims.foldl (fun s c => answerClaim (if c.1 = w then stOk else stClaimStanding) s c) s)

/-! ### Closing sessions -/

/-- A session closes (R568, R572, R585): an owner's session leaves its streams waiting and ownership vacant. -/
def closeSession (k : Nat) (s : State) : State :=
  let x := sessOf s k
  if x.phase == .free then s
  else if x.phase == .challenged then showSess k (modSess k (fun _ => {}) s)
  else
    let own := isOwner s k
    let left := if own || s.net.lastOwner == some k then unackedOf s k else []
    let s := if own then vacate s else s
    let s := closeStreams (fun t => t.holder == some k) s
    let s := { s with net := { s.net with
      cands := s.net.cands.filter (fun c => c.1 != k), orphans := s.net.orphans ++ left,
      lastOwner := if s.net.lastOwner == some k then none else s.net.lastOwner,
      offer := s.net.offer.map (fun o => if o.slot = k then { o with slot := 8 } else o) } }
    let s := modSess k (fun _ => {}) s
    showOwner (pushEvent 5 k x.id.toNat s)

/-- Every session closes (R568). -/
def closeAll (s : State) : State := (List.range 8).foldl (fun s k => closeSession k s) s

/-! ### Ports -/

/-- A port. -/
def portOf (s : State) (p : Nat) : Port := if p = 0 then s.net.port0 else s.net.port1

/-- The registers of a port. -/
def portStatusReg (p : Nat) : Nat := if p = 0 then Reg.NET_PORT_STATUS0 else Reg.NET_PORT_STATUS1
def portCfgReg (p : Nat) : Nat := if p = 0 then Reg.NET_PORT_CFG0 else Reg.NET_PORT_CFG1

/-- Changes a port and shows LINK, RATE and FEC_LOCK (R587). -/
def modPort (p : Nat) (f : Port → Port) (s : State) : State :=
  let x := f (portOf s p)
  let s := { s with net := if p = 0 then { s.net with port0 := x } else { s.net with port1 := x } }
  let a := portStatusReg p
  setBit a 31 (decide (x.linked ≠ 0)) (setFld a 25 24 x.linked (setBit a 16 (decide (x.linked ≠ 0)) s))

/-- The highest rate a port may try. -/
def maxRate (s : State) (p : Nat) : Nat := rdFld s (portCfgReg p) 25 24

/-- A port starts to link again from MAX_RATE (R554). -/
def restartPort (p : Nat) (s : State) : State := modPort p (fun x => { x with linked := 0, trying := maxRate s p }) s

/-- PORT_LINK_UP (R554); a fenced port does not link, nor does one whose transmit domain has no reference (R76). -/
def portUp (p : Nat) (s : State) : State :=
  let bare := s.tb.xoFailed && rdBit s Reg.TBF_STATUS 0
  if (portOf s p).linked = 0 && !(isFenced 0x11 p s) && !bare then modPort p (fun x => { x with linked := x.trying }) s else s

/-- PORT_RATE_TIMEOUT (R554): the next lower rate, and MAX_RATE again after the lowest. -/
def portTimeout (p : Nat) (s : State) : State :=
  if (portOf s p).linked = 0 then
    modPort p (fun x => { x with trying := if x.trying ≤ 1 then maxRate s p else x.trying - 1 }) s
  else s

/-- PORT_LINK_LOSS (R554, R587). -/
def portLoss (p : Nat) (s : State) : State :=
  if (portOf s p).linked = 0 then s
  else
    let a := portStatusReg p
    restartPort p (setFld a 7 0 (min 255 (rdFld s a 7 0 + 1)) s)

/-- ETH_FRAME_RX (R555, R556): a frame that is no KCT message is answered, or dropped and counted. -/
def ethFrame (p : Nat) (f : EthFrame) (s : State) : State :=
  match f with
  | .neighbourDiscovery => s
  | .arp => s
  | .echo =>
    let sec := s.time / 100000000
    modPort p (fun x =>
      let n := if x.second = sec then x.answered else 0
      { x with second := sec, answered := min 100 (n + 1) }) s
  | .pause => incSat Reg.NET_DROPPED 1 s
  | .fragment => incSat Reg.NET_DROPPED 1 s
  | .badChecksum => incSat Reg.NET_DROPPED 1 s
  | .badKct => incSat Reg.NET_DROPPED 1 s
  | .other => incSat Reg.NET_DROPPED 1 s

/-! ### The host table -/

/-- The selected entry of the host table. -/
def hostSel (s : State) : Nat := rdFld s Reg.NET_HOST_SEL 3 0

/-- An entry of the host table. -/
def hostEntry (s : State) (n : Nat) : HostEntry := tget (fun _ => {}) s.net.hosts n

/-- Sets an entry of the host table. -/
def setHostEntry (n : Nat) (e : HostEntry) (s : State) : State :=
  { s with net := { s.net with hosts := tset (fun _ => {}) s.net.hosts n e } }

/-- NET_HOST_CMD = WRITE (R587). -/
def hostWriteEntry (s : State) : State :=
  answer stOk (setHostEntry (hostSel s)
    { valid := rdBit s Reg.NET_HOST_PRIO 31, hash := rdRegs s (Reg.NET_HOST_HASH 0) 8, prio := rdFld s Reg.NET_HOST_PRIO 7 0 } s)

/-- NET_HOST_CMD = CLEAR. -/
def hostClearEntry (s : State) : State := answer stOk (setHostEntry (hostSel s) {} s)

/-- NET_HOST_CMD = READ. -/
def hostReadEntry (s : State) : State :=
  let e := hostEntry s (hostSel s)
  answer stOk (setRegs (Reg.NET_HOST_HASH 0) (padTo 8 0 e.hash) (setRegN Reg.NET_HOST_PRIO (2147483648 * b2n e.valid + e.prio) s))

/-- The words of an identity hash, byte 0 first, of a host identity number. -/
def idWords (h : Nat) : List Word := bytesToWords ((List.range 32).map (fun i => BitVec.ofNat 8 (h / 256 ^ (31 - i))))

/-- The entry of the host table that holds an identity (R566). -/
def hostFound (s : State) (h : Nat) : Option HostEntry :=
  ((List.range 16).map (hostEntry s)).find? (fun e => e.valid && e.hash == idWords h)

/-! ### Port configuration -/

/-- Whether a register belongs to the address or port configuration (R587). -/
def portOfCfg (a : Nat) : Option Nat :=
  if a = Reg.NET_PORT_CFG0 ∨ a = Reg.NET_IP4_0 ∨ (Reg.NET_IP6_0 0 ≤ a ∧ a ≤ Reg.NET_IP6_0 3) then some 0
  else if a = Reg.NET_PORT_CFG1 ∨ a = Reg.NET_IP4_1 ∨ (Reg.NET_IP6_1 0 ≤ a ∧ a ≤ Reg.NET_IP6_1 3) then some 1
  else none

/-- A write of a port's address or configuration (R554, R587): a change restarts the link. -/
def portCfgWrite (a : Nat) (v : Word) (s : State) : State :=
  match portOfCfg a with
  | none => answer stBadAddr s
  | some p =>
    let cfg := a == portCfgReg p
    let bad := cfg && (fld v 25 24 == 0 || (bit v 16 && (fld v 11 0 == 0 || decide (4094 < fld v 11 0))))
    refuseIf bad stValueRange (fun s =>
      let t := accept a v s
      if rd t a = rd s a then t else restartPort p t) s

end Sys2Proof.Machine
end

