-- ==== Sys2Proof/Machine/Security.lean ====
section
/-! DEFINITION. Security and debug states (R645 to R664, R680, R681): the fuses and their commands, attestation, debug levels and
tokens, halting cores and contexts, and the TAP instructions. -/

namespace Sys2Proof.Machine

open Sys2Proof

/-! ### Codes and views -/

/-- SECURITY of SYS_STATE. -/
def secCode (x : SecState) : Nat :=
  match x with
  | .blank => 0
  | .open_ => 1
  | .sealed => 2
  | .retired => 3

/-- A mask of the key slots that satisfy `p`. -/
def slotMask (s : State) (p : KeySlot → Bool) : Nat := sumN ((List.range 4).map (fun (k : Nat) => b2n (p (keySlot s k)) * 2 ^ k))

/-- Refreshes the registers that read the fuses (R680). -/
def showSec (s : State) : State :=
  let x := s.sec
  let busy := match x.cmd with | some p => p.cmd == 7 | none => false
  let s := setRegN Reg.SEC_STATUS (b2n busy * 16777216 + slotMask s (·.debug) * 65536 + slotMask s (·.revoked) * 4096 +
    slotMask s (·.enrolled) * 256 + b2n (!x.idKey.isEmpty) * 16 + secCode x.state) s
  let s := setRegN Reg.SEC_SVN (x.ucodeFloor * 65536 + x.fwFloor * 256 + x.imageFloor) s
  let s := (List.range 4).foldl (fun s k => setRegs (Reg.SEC_SLOT_HASH (8 * k)) (padTo 8 0 (keySlot s k).hash) s) s
  setRegs (Reg.SEC_IDKEY 0) x.idKey s

/-- Changes the fuses and refreshes their registers. -/
def modSec (f : Sec → Sec) (s : State) : State := showSec { s with sec := f s.sec }

/-- Changes a key slot. -/
def modSlot (k : Nat) (f : KeySlot → KeySlot) (s : State) : State :=
  modSec (fun x => { x with slots := tset (fun _ => {}) x.slots k (f (tget (fun _ => {}) x.slots k)) }) s

/-- Refreshes DBG_STATUS, keeping REASON and DENY (R681). -/
def showDebug (s : State) : State :=
  let d := s.dbg
  setReg Reg.DBG_STATUS (putFld (rd s Reg.DBG_STATUS) 15 0
    (d.perms * 256 + b2n d.extest * 64 + b2n d.token * 16 + d.level)) s

/-- Changes the debug session and refreshes DBG_STATUS. -/
def modDebug (f : Debug → Debug) (s : State) : State := showDebug { s with dbg := f s.dbg }

/-! ### The end of a debug session -/

/-- Cores and contexts that the debugger halted go on. -/
def releaseHalts (s : State) : State :=
  let s := ((List.range 64).filter (fun k => (coreOf s k).halted)).foldl (fun s k =>
    modCore k (fun c => { c with halted := false, stepping := false }) s) s
  ((List.range 64).filter (fun c => (ctxOf s c).halted || (ctxOf s c).halting)).foldl (fun s c => unhaltContext c s) s

/-- A debug session ends and the state returns to NONE (R661). -/
def endDebug (s : State) : State :=
  if s.dbg.level = 0 then s
  else
    let s := releaseHalts (modDebug (fun d => { d with level := 0, token := false, perms := 0, ends := none }) s)
    orReg Reg.DBG_EVENTS 2 s

/-! ### SEC_CMD -/

/-- Whether the host table holds a valid entry (R646). -/
def hostTableUsed (s : State) : Bool := (List.range 16).any (fun k => (tget (fun _ => {}) s.net.hosts k : HostEntry).valid)

/-- The slot that SEC_ARG names. -/
def argSlot (s : State) : Nat := rdFld s Reg.SEC_ARG 1 0

/-- Whether a command is permitted in the security state, and slot, in force (R646, R647, R649, R655). -/
def secPermitted (s : State) (cmd : Nat) : Bool :=
  let st := s.sec.state
  let x := keySlot s (argSlot s)
  match cmd with
  | 1 => st == .blank
  | 2 => st == .open_ && hostTableUsed s
  | 3 => st == .open_ || st == .sealed
  | 4 => st == .open_ && !x.enrolled && !x.revoked
  | 5 => st == .open_ || st == .sealed
  | 6 => st != .retired
  | _ => st != .blank

/-- The commands that SEC_CONFIRM guards (R647). -/
def needsConfirm (cmd : Nat) : Bool := cmd == 1 || cmd == 2 || cmd == 3 || cmd == 5

/-- Whether the power state permits a command (R647, R670). -/
def powerPermits (s : State) (cmd : Nat) : Bool :=
  !(detaching s) && (if cmd = 7 then inRun s || inHold s || s.pwr.state == .standby else inHold s)

/-- The floor of a kind (R651). -/
def floorOf (s : State) (kind : Nat) : Nat :=
  match kind with
  | 0 => s.sec.imageFloor
  | 1 => s.sec.fwFloor
  | _ => s.sec.ucodeFloor

/-- The SVN of the object of a kind in force (R651). -/
def svnInForce (s : State) (kind : Nat) : Nat :=
  match kind with
  | 0 => s.img.active.svn
  | 1 => s.sec.fwSvn
  | _ => s.sec.ucodeSvn

/-- Whether RAISE_SVN names a value above the floor that the object in force does not carry (R651). -/
def svnTooHigh (s : State) : Bool :=
  let kind := rdFld s Reg.SEC_ARG 17 16
  let v := rdFld s Reg.SEC_ARG 29 24
  decide (floorOf s kind < v) && decide (svnInForce s kind < v)

/-- A write of SEC_CMD by an issuer that may issue the command (R647). -/
def secCommand (cmd : Nat) (s : State) : State :=
  refuseIf (!(powerPermits s cmd)) stPowerState (refuseIf (!(secPermitted s cmd)) stSecState
    (refuseIf (needsConfirm cmd && rd s Reg.SEC_CONFIRM != rd s Reg.SYS_SERIAL_LO) stConfirmMismatch
    (refuseIf (cmd == 6 && svnTooHigh s) stValueRange (refuseIf s.sec.cmd.isSome stRefusedFull (fun s =>
      let p : SecPend := { cmd := cmd, arg := rd s Reg.SEC_ARG, hash := rdRegs s (Reg.SEC_ARG_HASH 0) 8 }
      answer stOk (setRegN Reg.SEC_RESULT 0 (modSec (fun x => { x with cmd := some p }) s))))))) s

/-- A host's write of SEC_CMD; any other value is answered BAD_ADDR (R680). -/
def secCmdWrite (v : Word) (s : State) : State :=
  let cmd := fld v 7 0
  refuseIf (cmd == 0 || decide (7 < cmd)) stBadAddr (secCommand cmd) s

/-! ### Attestation -/

/-- The masks and floors of a report. -/
def floorsWord (s : State) : Nat :=
  s.sec.imageFloor + 256 * s.sec.fwFloor + 65536 * s.sec.ucodeFloor + 16777216 * slotMask s (·.revoked)

/-- A 64-byte measurement. -/
def digestBytes (ws : List Word) : List Byte := wordsToBytes (padTo 16 0 ws)

/-- The attestation report (R655) with the signature `sig`. -/
def attestReport (s : State) (sig : List Byte) : List Byte :=
  leBytes 4 0x5441584B ++ leBytes 2 1 ++ leBytes 1 (secCode s.sec.state) ++ leBytes 1 s.dbg.level ++ leBytes 8 (rd64 s Reg.SYS_SERIAL_LO) ++
  leBytes 4 (epochNow s).toNat ++ leBytes 4 (rdN s Reg.SYS_FW_VER) ++ leBytes 4 (rdN s Reg.SEQ_UCODE_VER) ++ leBytes 4 (floorsWord s) ++
  leBytes 8 s.beat ++ List.replicate 24 0 ++
  digestBytes s.sec.mFw ++ digestBytes s.sec.mUcode ++ digestBytes s.sec.mImage ++ digestBytes s.sec.mCore ++
  wordsToBytes (rdRegs s (Reg.SEC_ATT_NONCE 0) 8) ++ wordsToBytes (padTo 8 0 s.sec.idHash) ++ padTo 4627 0 sig ++ List.replicate 13 0

/-! ### Results -/

/-- A C0 notice whose unit the spec does not name: its unit class is free. -/
def openNotice (s : State) : State :=
  let (u, s) := freeNat 16 s
  raise (mkFault 0 u 0 0x0F) s

/-- What retirement does (R585, R646): every debug session ends, the library turns read-only, the slots are revoked and the owner
is released. -/
def retireDevice (s : State) : State :=
  let s := (List.range 4).foldl (fun s k => modSlot k (fun x => { x with revoked := true }) s) (modSec (fun x => { x with state := .retired }) s)
  let s := if libRetired s then s else endWrite stLibRetired (orReg Reg.LIB_EVENTS 16 (setBit Reg.LIB_STATUS 1 true s))
  vacate (endDebug s)

/-- The fuses that a command burns (R646, R649, R651). -/
def burn (p : SecPend) (o : SecObs) (s : State) : State :=
  let slot := fld p.arg 1 0
  let v := fld p.arg 29 24
  match p.cmd with
  | 1 => modSec (fun x => { x with state := .open_, idKey := padTo 648 0 o.key, idHash := sha3_256 (wordsToBytes (padTo 648 0 o.key)) }) s
  | 2 =>
    let s := modSec (fun x => { x with state := .sealed }) s
    if s.dbg.token then s else endDebug s
  | 3 => retireDevice s
  | 4 => modSlot slot (fun x => { x with enrolled := true, image := bit p.arg 8, debug := bit p.arg 9, hash := p.hash }) s
  | 5 => modSlot slot (fun x => { x with revoked := true }) s
  | _ => match fld p.arg 17 16 with
    | 0 => modSec (fun x => { x with imageFloor := max x.imageFloor v }) s
    | 1 => modSec (fun x => { x with fwFloor := max x.fwFloor v }) s
    | _ => modSec (fun x => { x with ucodeFloor := max x.ucodeFloor v }) s

/-- Whether a command burns a fuse word at all (R651). -/
def burns (p : SecPend) (s : State) : Bool := p.cmd != 6 || decide (floorOf s (fld p.arg 17 16) < fld p.arg 29 24)

/-- SEC_CMD_RESULT: the command in progress completes and its result reaches SEC_RESULT (R647, R648, R655). -/
def secResult (o : SecObs) (s : State) : State :=
  match s.sec.cmd with
  | none => s
  | some p =>
    let s := modSec (fun x => { x with cmd := none }) s
    if p.cmd = 7 then
      setRegN Reg.SEC_RESULT 256 (setRegs (Reg.SEC_ATT 0) (bytesToWords (attestReport s o.sig)) s)
    else if burns p s && !o.burnOk then setRegN Reg.SEC_RESULT (256 + stFuseFailed) (openNotice s)
    else setRegN Reg.SEC_RESULT 256 (if burns p s then burn p o s else s)

/-! ### Debug tokens -/

/-- Word `i` of DBG_NONCE (R660): a free value. -/
def nonceWord (s : State) (i : Nat) : Word := wd (Config.freeValue (s.dbg.nonceIdx + i))

/-- Draws DBG_NONCE afresh. -/
def drawNonce (s : State) : State :=
  { s with dbg := { s.dbg with nonceIdx := s.freeIdx }, freeIdx := s.freeIdx + 8 }

/-- The number of `n` bytes at byte `a` of the token. -/
def tokenN (s : State) (a n : Nat) : Nat :=
  let w := rdRegs s (Reg.DBG_TOKEN (a / 4)) (n / 4 + 2)
  ofLeBytes (((wordsToBytes w).drop (a % 4)).take n)

/-- The words of a token from byte `a`, a multiple of 4. -/
def tokenWords (s : State) (a n : Nat) : List Word := rdRegs s (Reg.DBG_TOKEN (a / 4)) n

/-- Whether the key of a token is accepted (R650, R660). -/
def tokenKeyOk (s : State) (slot : Nat) (hash : List Word) : Bool :=
  if slot = 0xFF then
    hash == vendorHash s && !((List.range 4).any (fun k => slotLive (keySlot s k) && (keySlot s k).debug))
  else decide (slot < 4) && slotLive (keySlot s slot) && (keySlot s slot).debug && hash == (keySlot s slot).hash

/-- The reason of R660 for which the token fails for a level; 0 when it passes. -/
def tokenReason (s : State) (level : Nat) (o : TokenObs) : Nat :=
  let lev := tokenN s 6 1
  let life := tokenN s 0x48 4
  if !(tokenN s 0 4 == 0x5444584B && tokenN s 4 2 == 1 && (lev == 1 || lev == 2) && decide (tokenN s 7 1 < 8) &&
       tokenN s 0x4D 19 == 0 && tokenN s 0x1C93 13 == 0) then 1
  else if !(tokenKeyOk s (tokenN s 0x4C 1) (sha3_256 (wordsToBytes (tokenWords s 0x60 648)))) then 2
  else if !o.sigOk then 3
  else if tokenWords s 0x08 8 != padTo 8 0 s.sec.idHash then 4
  else if tokenWords s 0x28 8 != (List.range 8).map (nonceWord s) then 5
  else if life < 60 ∨ 86400 < life then 6
  else if lev < level then 7
  else 0

/-! ### Requests for a level -/

/-- A debug level is granted (R658): halts end with INTRUSIVE. -/
def grantDebug (level : Nat) (token : Bool) (s : State) : State :=
  let perms := if token then tokenN s 7 1 else 0
  let ends := if token then some (s.time + tokenN s 0x48 4 * 100000000) else none
  let s := modDebug (fun d => { d with level := level, token := token, perms := perms, ends := ends }) s
  let s := if level = 2 then s else releaseHalts s
  answer stOk (orReg Reg.DBG_EVENTS 1 s)

/-- A request in SEALED (R658 to R660). -/
def sealedRequest (level : Nat) (useToken : Bool) (o : TokenObs) (s : State) : State :=
  if !useToken then answer stTokenInvalid s
  else
    let why := tokenReason s level o
    let s := setFld Reg.DBG_STATUS 31 24 why (drawNonce s)
    if why = 0 then grantDebug level true s else answer stTokenInvalid s

/-- DBG_REQ (R658, R667): INTRUSIVE in RETIRED is refused in every power state. -/
def debugRequest (level : Nat) (useToken : Bool) (o : TokenObs) (s : State) : State :=
  if s.sec.state = .retired ∧ level = 2 then answer stSecState s
  else if s.pwr.state = .off ∨ s.pwr.state = .detached then answer stPowerState s
  else if rdBit s Reg.DBG_CTRL 0 then answer stDebugActive s
  else if level = 0 then answer stOk (endDebug s)
  else if level = 3 then answer stValueRange s
  else match s.sec.state with
    | .retired => grantDebug 1 false s
    | .sealed =>
      if level = 2 ∧ s.pwr.state = .standby then answer stPowerState s else sealedRequest level useToken o s
    | _ => grantDebug level false s

/-- A write of DBG_CTRL (R658, R661, R681). -/
def dbgCtrlWrite (v : Word) (s : State) : State :=
  let s := setRegN Reg.DBG_CTRL (b2n (bit v 0)) s
  let s := setBit Reg.DBG_STATUS 16 (bit v 0) s
  answer stOk (if bit v 1 then endDebug s else s)

/-! ### INTRUSIVE debug -/

/-- Whether INTRUSIVE debug permits an effect that needs bit `k` of PERMS in SEALED (R662). -/
def intrusive (s : State) (k : Nat) : Bool := s.dbg.level == 2 && (s.sec.state != .sealed || bitN s.dbg.perms k)

/-- Halting, single-stepping and releasing a core (R662). -/
def coreHalt (k : Nat) (act : HaltAct) (s : State) : State :=
  if !(intrusive s 1) then answer stDebugActive s
  else answer stOk (match act with
    | .halt => modCore k (fun c => { c with halted := true, stepping := false }) s
    | .step => modCore k (fun c => { c with stepping := c.halted }) s
    | .resume => modCore k (fun c => { c with halted := false, stepping := false }) s)

/-- DEBUG_HALT of a context (R218, R662): a step is aborted first, the trap becomes pending, and the context stops when the step has
ended. -/
def debugHalt (c : Nat) (s : State) : State :=
  if !(intrusive s 2) then answer stDebugActive s
  else
    let s := abortStep 1 s
    answer stOk (if (ctxOf s c).halted then s
      else if ctxInStep s c then postTrap 5 c (modCtx c (fun x => { x with halting := true }) s)
      else haltContext c s)

/-! ### TAP instructions -/

/-- EXTEST ends: every ball returns to its function and the unit rejoins the bus (R664). -/
def endExtest (s : State) : State :=
  if s.dbg.extest then
    let s := modDebug (fun d => { d with extest := false }) s
    if s.pwr.state = .detached ∨ aloneRole s then s else quadrilleListen s
  else s

/-- A TAP instruction is loaded (R663): BYPASS instead of one that is not permitted. -/
def loadTap (i : TapInstr) (ok : Bool) (s : State) : State :=
  if s.pwr.state = .off then s
  else
    let s := if i = .extest ∧ ok then s else endExtest s
    if ok then modDebug (fun d => { d with ir := i }) s
    else orReg Reg.DBG_EVENTS 4 (modDebug (fun d => { d with ir := .bypass }) s)

/-- Whether a SEALED unit's token carries BSCAN in HOLD or STANDBY (R663). -/
def scanToken (s : State) : Bool :=
  s.dbg.token && decide (1 ≤ s.dbg.level) && bitN s.dbg.perms 0 && (inHold s || s.pwr.state == .standby)

/-- Whether SAMPLE/PRELOAD is permitted (R663). -/
def samplePermitted (s : State) : Bool :=
  match s.sec.state with
  | .sealed => scanToken s
  | .retired => false
  | _ => decide (1 ≤ s.dbg.level)

/-- Whether EXTEST is permitted (R663). -/
def extestPermitted (s : State) : Bool :=
  match s.sec.state with
  | .sealed => scanToken s
  | .retired => false
  | _ => s.dbg.level == 2 && (inHold s || s.pwr.state == .standby)

/-- EXTEST is loaded: the unit departs the bus and drives the boundary chain (R664). -/
def loadExtest (s : State) : State :=
  if extestPermitted s then
    if s.dbg.extest then s
    else orReg Reg.DBG_EVENTS 16 (modDebug (fun d => { d with extest := true }) (depart (loadTap .extest true s)))
  else loadTap .extest false s

/-- TOKEN shifts bytes into DBG_TOKEN from its byte 0 on (R658, R663). -/
def loadToken (bs : List Byte) (s : State) : State :=
  let ok := s.sec.state != .retired && s.pwr.state != .detached
  let s := loadTap .token ok s
  if ok && s.pwr.state != .off then
    let bs := bs.take 7328
    let n := ceilDiv bs.length 4
    let old := wordsToBytes (rdRegs s (Reg.DBG_TOKEN 0) n)
    setRegs (Reg.DBG_TOKEN 0) (bytesToWords (bs ++ old.drop bs.length)) s
  else s

/-- TRST_N resets the TAP (R661): EXTEST ends, the session does not. -/
def tapReset (s : State) : State :=
  if s.pwr.state = .off then s else modDebug (fun d => { d with ir := .idcode }) (endExtest s)

/-! ### Meanings -/

/-- PROVISION. -/
def execProvision (q : Req) (s : State) : Host.Outcome State Fault Refusal := .next (guarded q Reg.SEC_CMD 1 (secCommand 1) s)

/-- SEAL. -/
def execSeal (q : Req) (s : State) : Host.Outcome State Fault Refusal := .next (guarded q Reg.SEC_CMD 2 (secCommand 2) s)

/-- RETIRE. -/
def execRetire (q : Req) (s : State) : Host.Outcome State Fault Refusal := .next (guarded q Reg.SEC_CMD 3 (secCommand 3) s)

/-- ENROLL. -/
def execEnroll (q : Req) (s : State) : Host.Outcome State Fault Refusal := .next (guarded q Reg.SEC_CMD 4 (secCommand 4) s)

/-- REVOKE. -/
def execRevoke (q : Req) (s : State) : Host.Outcome State Fault Refusal := .next (guarded q Reg.SEC_CMD 5 (secCommand 5) s)

/-- RAISE_SVN. -/
def execRaiseSvn (q : Req) (s : State) : Host.Outcome State Fault Refusal := .next (guarded q Reg.SEC_CMD 6 (secCommand 6) s)

/-- ATTEST. -/
def execAttest (q : Req) (s : State) : Host.Outcome State Fault Refusal := .next (guarded q Reg.SEC_CMD 7 (secCommand 7) s)

/-- SEC_CMD_RESULT. -/
def execSecCmdResult (obs : SecObs) (s : State) : Host.Outcome State Fault Refusal := .next (secResult obs s)

/-- DBG_REQ. -/
def execDbgReq (level : Fin 4) (useToken : Bool) (obs : TokenObs) (s : State) : Host.Outcome State Fault Refusal :=
  .next (debugRequest level.val useToken obs s)

/-- DBG_END: the owner writes DBG_CTRL with END = 1. -/
def execDbgEnd (q : Req) (deny : Bool) (s : State) : Host.Outcome State Fault Refusal :=
  .next (guarded q Reg.DBG_CTRL (wd (2 + b2n deny)) (dbgCtrlWrite (wd (2 + b2n deny))) s)

/-- DEBUG_LIFETIME_EXPIRY. -/
def execDebugLifetimeExpiry (s : State) : Host.Outcome State Fault Refusal :=
  .next (if s.dbg.ends.isSome then orReg Reg.DBG_EVENTS 8 (endDebug s) else s)

/-- CORE_HALT. -/
def execCoreHalt (k : Fin 64) (act : HaltAct) (s : State) : Host.Outcome State Fault Refusal := .next (coreHalt k.val act s)

/-- CONTEXT_DEBUG_HALT. -/
def execContextDebugHalt (c : Fin 64) (s : State) : Host.Outcome State Fault Refusal := .next (debugHalt c.val s)

/-- JTAG_BYPASS. -/
def execJtagBypass (s : State) : Host.Outcome State Fault Refusal := .next (loadTap .bypass true s)

/-- JTAG_IDCODE: the instruction returns DBG_IDCODE. -/
def execJtagIdcode (s : State) : Host.Outcome State Fault Refusal :=
  .next (if s.pwr.state = .off then s else answerData (rd s Reg.DBG_IDCODE) (loadTap .idcode true s))

/-- SAMPLE_PRELOAD. -/
def execSamplePreload (s : State) : Host.Outcome State Fault Refusal := .next (loadTap .sample (samplePermitted s) s)

/-- EXTEST. -/
def execExtest (s : State) : Host.Outcome State Fault Refusal := .next (loadExtest s)

/-- JTAG_TOKEN. -/
def execJtagToken (bytes : List Byte) (s : State) : Host.Outcome State Fault Refusal := .next (loadToken bytes s)

/-- TAP_RESET. -/
def execTapReset (s : State) : Host.Outcome State Fault Refusal := .next (tapReset s)

end Sys2Proof.Machine
end

