-- ==== Sys2Proof/Machine/Power.lean ====
section
/-! DEFINITION. Power states, start-up and detach (R432, R433, R581, R583, R643, R644, R653, R665 to R678): what a reset keeps, the
boot ROM, STANDBY and WAKE, the phases of a detach, recovery commands, and the power stage. -/

namespace Sys2Proof.Machine

open Sys2Proof

/-! ### What a reset keeps -/

/-- Registers whose contents outlive a reset: factory values, the straps, written addresses (R557), library wear (R485), and
skews and linearisation results (R271). -/
def keptRegs : List Nat :=
  [Reg.SYS_REV, Reg.SYS_SERIAL_LO, Reg.SYS_SERIAL_HI, Reg.NET_MAC0_LO, Reg.NET_MAC0_HI, Reg.NET_MAC1_LO, Reg.NET_MAC1_HI,
   Reg.NET_IP4_0, Reg.NET_IP4_1, Reg.QDR_STRAP, Reg.LIB_POOL_INIT, Reg.LIB_POOL_LEFT, Reg.LIB_RESCUE_LEFT, Reg.LIB_DIES_FAILED,
   Reg.LIB_WEAR_7D] ++
  (List.range 4).map Reg.NET_IP6_0 ++ (List.range 4).map Reg.NET_IP6_1 ++ (List.range 8).map Reg.SEC_VENDOR_HASH ++
  (List.range 16).flatMap (fun g =>
    (List.range 32).map (Reg.TST_SKEW g) ++ (List.range 32).map (Reg.TST_RESID g) ++ (List.range 32).map (Reg.TST_CAL_AGE g))

/-- Tables of a group that the system area holds (R271). -/
def keptTiming (t : Timing) : Timing :=
  { lin := t.lin, acc := t.acc, linSet := t.linSet, since := t.since, tcal := t.tcal, skewSet := t.skewSet, coef := t.coef,
    rejects := t.rejects, temps := t.temps }

/-- The library across a reset: objects stay, none is resident, the command in progress is lost. -/
def keptLib (l : Lib) : Lib :=
  { objs := l.objs.map (fun e => (e.1, e.2.map (fun o => { o with base := none }))),
    wear := l.wear, rebuilding := l.rebuilding, rewritten := l.rewritten, rows := l.rows, erases := l.erases, retired := l.retired,
    deadDies := l.deadDies, nextSet := l.nextSet, patrolAt := l.patrolAt }

/-- The state of the device before start-up: what a reset leaves of `s`. -/
def freshState (s : State) : State :=
  let t := State.reset
  let t := { t with
    pending := s.pending, time := s.time, freeIdx := s.freeIdx, ans := s.ans, lib := keptLib s.lib,
    sec := { s.sec with cmd := none, fwSvn := 0, ucodeSvn := 0, mFw := [], mUcode := [], mImage := [], mCore := [] },
    net := { t.net with hosts := s.net.hosts },
    img := { t.img with sysEpoch := s.img.sysEpoch },
    flt := { t.flt with graveKept := s.flt.graveKept, grave := s.flt.grave },
    pwr := { t.pwr with detachN := s.pwr.detachN, core := s.pwr.core, mgmt := s.pwr.mgmt, uvlo := s.pwr.uvlo, since := s.time } }
  let t := keptRegs.foldl (fun t a => setReg a (rd s a) t) t
  let t := (List.range 16).foldl (fun t g => showTrims g (showCalStale g (modTst g (fun _ => keptTiming (tstOf s g)) t))) t
  let t := (List.range 512).foldl (fun t c =>
    match (tdcCh s c).stored with
    | some b => showCal c (modTdc c (fun x => { x with table := b, stored := some b }) t)
    | none => t) t
  let t := takePool 0 (setBit Reg.LIB_STATUS 5 (!s.lib.rebuilding.isEmpty) (setBit Reg.LIB_STATUS 1 (libRetired s) t))
  let t := if s.flt.grave then setRegN Reg.FLT_ALERT 4 t
    else setRegs (Reg.FLT_GRAVE 0) s.flt.graveKept t
  showSec (drawNonce t)

/-! ### Straps -/

/-- What the strapped role sets (R70, R75, R96, R679). -/
def applyRole (s : State) : State :=
  let s := refPolicy (setRegN Reg.TBF_CTRL ((if aloneRole s then 2 else 0) + (if role s = 2 then 4 else 0)) s)
  setRegN Reg.PWR_CTRL (if aloneRole s then 0 else 3) s

/-- The straps are latched (R432, R433); an error makes the unit STANDALONE and raises a C2 fault. -/
def latchStraps (straps : Nat) (stable : Bool) (s : State) : State :=
  let odd := popcount 8 straps % 2 == 1
  let s := setRegN Reg.QDR_STRAP (b2n (!stable) * 512 + b2n (!odd) * 256 + straps % 256) s
  if odd && stable then s else raise (mkFaultD 2 0x14 0 0x0E (rdN s Reg.QDR_STRAP) 0) s

/-! ### The boot ROM -/

/-- The firmware object of slot `k`; slot 0 holds the firmware the module ships with until it is written. -/
def fwObj (s : State) (k : Nat) : LibObj := (objOf s (0xFFFFFF10 + k)).getD { typ := 6, length := 0, state := .sealed }

/-- Whether the firmware of slot `k` is valid (R653). -/
def fwValid (s : State) (k : Nat) (c : CryptoObs) : Bool :=
  let o := fwObj s k
  if o.written = 0 then k == 0 else o.state == .sealed && firmwareOk s o c

/-- VERSION and SVN of the firmware of slot `k`. -/
def fwVersion (s : State) (k : Nat) : Nat := if (fwObj s k).written = 0 then 1 else objN (fwObj s k) 8 4
def fwSvnOf (s : State) (k : Nat) : Nat := if (fwObj s k).written = 0 then 0 else objN (fwObj s k) 0x0C 4

/-- The firmware slot that the boot ROM runs (R653). -/
def pickFirmware (s : State) (o : BootObs) : Option Nat :=
  match fwValid s 0 o.fw0, fwValid s 1 o.fw1 with
  | true, true => some (if fwVersion s 0 < fwVersion s 1 then 1 else 0)
  | true, false => some 0
  | false, true => some 1
  | false, false => none

/-- RECOVERY (R581). -/
def enterRecovery (s : State) : State :=
  setRegN Reg.SYS_FW_VER 0 { s with pwr := { s.pwr with recovery := true }, sec := { s.sec with mFw := [], fwSvn := 0 } }

/-- The microcode object; the module ships with microcode of version 0x0001_0004. -/
def ucodeObj (s : State) : LibObj := (objOf s 0xFFFFFF20).getD { typ := 7, length := 0, state := .sealed }

/-- The digest of the firmware of slot `k` (R653). -/
def fwDigest (s : State) (k : Nat) : List Word :=
  let o := fwObj s k
  if o.written = 0 then shippedFw else signedDigest o (64 + objN o 0x10 4)

/-- Loads the microcode (R214, R215, R229); none when its check fails. -/
def loadMicrocode (c : CryptoObs) (s : State) : Option State :=
  let o := ucodeObj s
  if o.written = 0 then
    some (setRegN Reg.SEQ_UCODE_VER 0x10004 { s with sec := { s.sec with ucodeSvn := 0, mUcode := shippedUcode } })
  else if o.state == .sealed && microcodeOk s o c then
    let ws := bytesToWords (objBytes o 64 65536)
    let s := setRegs (Reg.SEQ_UCODE_HI 0) (ws.drop 8192) (setRegs (Reg.SEQ_UCODE_LO 0) (ws.take 8192) s)
    let s := setRegN Reg.SEQ_UCODE_VER (objN o 8 4) s
    some { s with sec := { s.sec with ucodeSvn := objN o 0x0C 4, mUcode := signedDigest o 65600 } }
  else none

/-- Selects and loads an image at power-on (R50, R51, R645). -/
def bootImage (o : BootObs) (s : State) : State :=
  if s.sec.state = .retired then s
  else
    let ra := checkSlot s 0 o.imgA true
    let rb := checkSlot s 1 o.imgB true
    match selectImage o.imgA o.imgB s with
    | (some (k, x), s) =>
      let s := switchTo k (x.image.getD {}) (x.sums.getD {}) o.coreRead s
      checkLoadDone { s with img := { s.img with load := .retraining true } }
    | (none, s) => imageNotice 1 rb.reason (imageNotice 0 ra.reason s)

/-- Start-up (R653, R665): firmware, microcode and image; the device ends in HOLD. -/
def startUp (o : BootObs) (s : State) : State :=
  let s := showXo (applyRole { s with pwr := { s.pwr with state := .hold, inReset := false } })
  let s := if s.pwr.uvlo then
      raise (mkFault 0 0x18 0 0x0D) (orReg Reg.PWR_EVENTS 1 { s with pwr := { s.pwr with uvlo := false } }) else s
  match pickFirmware s o with
  | none => enterRecovery s
  | some k =>
    let s := setRegN Reg.SYS_FW_VER (fwVersion s k) { s with
      pwr := { s.pwr with fwSlot := k },
      sec := { s.sec with fwSvn := fwSvnOf s k, mFw := fwDigest s k } }
    match loadMicrocode o.ucode s with
    | none => enterRecovery s
    | some s => bootImage o s

/-- A reset that the device or its host commands: the straps stay latched. -/
def commandReset (o : BootObs) (s : State) : State := startUp o (freshState s)

/-- RESET_N falls (R432, R568): the device enters reset. -/
def resetLow (s : State) : State :=
  if s.pwr.state = .off then s
  else
    let t := freshState s
    { t with ans := {}, pwr := { t.pwr with inReset := true } }

/-- RESET_N rises (R432, R665). -/
def resetRelease (straps : Nat) (stable : Bool) (o : BootObs) (s : State) : State :=
  if s.pwr.inReset && s.pwr.state != .off then startUp o (latchStraps straps stable s) else s

/-! ### OFF and the power stage -/

/-- VIN falls below the UVLO threshold (R616, R643): OFF, and the grave condition is left. -/
def vinUvlo (s : State) : State :=
  let t := freshState { s with flt := { s.flt with grave := false } }
  { t with ans := {}, pwr := { t.pwr with state := .off, core := false, mgmt := false, uvlo := true } }

/-- VIN rises above 5.8 V (R643, R665): the rails come up and RESET_N is still low. -/
def vinRise (s : State) : State :=
  if s.pwr.state = .off then
    { s with pwr := { s.pwr with state := .hold, inReset := true, core := true, mgmt := true, since := s.time } }
  else s

/-- A C4 fault of the power stage (R678). -/
def stageFault (s : State) : State :=
  if s.pwr.state = .off then s else raise (mkFault 4 0x18 0 0x0D) (railsOff s)

/-- VIN above 61.0 V for 1 ms (R678): every rail switches off, and with the management rail every session is lost. -/
def vinOvervoltage (s : State) : State :=
  if s.pwr.state = .off then s
  else
    let s := closeAll (stageFault s)
    { s with pwr := { s.pwr with mgmt := false } }

/-! ### STANDBY and WAKE -/

/-- PWR_CMD = STANDBY (R644, R667, R670). -/
def standbyCmd (s : State) : State :=
  refuseIf (!(inHold s) || detaching s) stPowerState (refuseIf (s.sec.state == .sealed && s.dbg.level == 2) stDebugActive
    (fun s => answer stOk { s with pwr := { s.pwr with state := .standby } })) s

/-- PWR_CMD = WAKE (R644). -/
def wakeCmd (s : State) : State :=
  answer stOk (if s.pwr.state = .standby then { s with pwr := { s.pwr with state := .hold } } else s)

/-! ### Detach -/

/-- The phase of a detach (R670). -/
def detachPhase (s : State) : Nat := rdFld s Reg.PWR_STATUS 10 8

/-- Enters a phase of a detach. -/
def setPhase (n : Nat) (s : State) : State := setFld Reg.PWR_STATUS 10 8 n s

/-- A detach request (R254, R670). -/
def requestDetach (s : State) : State :=
  if detachPhase s ≠ 0 ∨ s.pwr.state = .off ∨ s.pwr.inReset then s
  else
    let s := setPhase 1 (orReg Reg.PWR_EVENTS 32 s)
    if stageLate s then abortStep 1 s else s

/-- Sends what a stream can still send (R670); `n` bounds its messages. -/
def sendStream : Nat → Nat → State → State
  | 0, _, s => s
  | n + 1, k, s =>
    match streamOf s k with
    | some t => if t.credit = 0 ∨ (waitingRecs s t).2.isEmpty then s else sendStream n k (streamSend k s)
    | none => s

/-- The streams deliver their messages and close (R670, phase 4). -/
def drainStreams (s : State) : State :=
  let s := s.net.streams.foldl (fun s t => sendStream t.credit t.num s) s
  closeStreams (fun _ => true) s

/-- The lanes squelch (R668, R670). -/
def squelchLanes (s : State) : State :=
  (List.range 16).foldl (fun s g => [0, 1].foldl (fun s l =>
    let s := if laneState s g l = 4 then leaveActive g l 0x0F s else enterDetect g l s
    modLane g l (fun x => { x with squelched := true, out := {} }) s) s) s

/-- Entry to DETACHED (R612, R661, R668, R670). -/
def enterDetached (s : State) : State :=
  let s := endDebug (endExtest (closeAll s))
  setPhase 6 { s with pwr := { s.pwr with state := .detached } }

/-- DETACH_PHASE_ADVANCE: the ending condition of the phase holds and the next begins (R670, R674). A C4 leaves no
departure. -/
def advanceDetach (s : State) : State :=
  if s.flt.grave then s
  else match detachPhase s with
    | 1 =>
      if s.img.load != .idle then s
      else if s.pwr.state = .standby then setPhase 3 s
      else
        let s := setPhase 2 s
        if rdBit s Reg.PWR_CTRL 2 then abortStep 1 s else s
    | 2 => if stepRuns s then s else setPhase 3 s
    | 3 => if ledgerDrained s 4 && ledgerDrained s 5 && ledgerDrained s 6 then setPhase 4 s else s
    | 4 =>
      let s := drainStreams s
      if allDrained s && rdN s Reg.NET_CRED_OUTSTANDING == 0 then setPhase 5 (squelchLanes (depart s)) else s
    | 5 => if s.qdr.departing = 0 && (aloneRole s || busState s == 6) then enterDetached s else s
    | _ => s

/-- DETACH_TIMEOUT: phase 4 lasts too long (R671). -/
def detachTimeout (s : State) : State :=
  if detachPhase s = 4 then
    let s := (List.range 32).foldl (fun s c => if [1, 2, 3].contains (dmaState s c) then endRun c 1 0 s else s) s
    let s := match s.lib.run with
      | some r => if r.isRead then s else
          setBit Reg.LIB_STATUS 0 false { abandonUnits s with lib := { s.lib with run := none } }
      | none => s
    openNotice ((List.range 64).foldl (fun s l => flushList l s) s)
  else s

/-- DETACH_N held low for 10 ms (R670). -/
def detachNLow (s : State) : State := requestDetach { s with pwr := { s.pwr with detachN := false } }

/-- DETACH_N held high for 100 ms: a DETACHED unit starts again (R672). -/
def detachNHigh (o : BootObs) (s : State) : State :=
  let s := { s with pwr := { s.pwr with detachN := true } }
  if s.pwr.state = .detached then commandReset o s else s

/-! ### Recovery -/

/-- The system identifier of an INSTALL target (R583). -/
def installId (target : Nat) : Nat := if target = 2 then 0xFFFFFF20 else 0xFFFFFF10 + target

/-- SYS_RCMD = INSTALL (R583). -/
def beginInstall (target : Nat) (s : State) : State :=
  refuseIf (!s.pwr.recovery) stRecoveryState (refuseIf (decide (2 < target)) stValueRange (refuseIf s.pwr.install.isSome stRefusedFull
    (fun s => answer stOk (setRegN Reg.SYS_RRESULT 0
      { s with pwr := { s.pwr with install := some (target, rdN s Reg.SYS_RLEN) } })))) s

/-- INSTALL_DONE: the object in the recovery buffer is verified and written, or the library does not change (R583). -/
def installDone (c : CryptoObs) (s : State) : State :=
  match s.pwr.install with
  | none => s
  | some (target, n) =>
    let id := installId target
    let s := { s with pwr := { s.pwr with install := none } }
    let o : LibObj := { typ := if target = 2 then 7 else 6, length := n, written := n, state := .sealed,
                        data := tsetList memDefault [] 0 (memBytes s 0 n) }
    if codeOk s id o c then setRegN Reg.SYS_RRESULT 256 (setObj id (some o) s)
    else setRegN Reg.SYS_RRESULT (256 + stRcvInvalid) s

/-- SYS_RCMD = REBOOT (R583). -/
def reboot (o : BootObs) (s : State) : State :=
  refuseIf (!s.pwr.recovery) stRecoveryState (fun s => commandReset o (answer stOk s)) s

/-! ### Meanings -/

/-- RESET_N_LOW. -/
def execResetNLow (s : State) : Host.Outcome State Fault Refusal := .next (resetLow s)

/-- RESET_RELEASE. -/
def execResetRelease (straps : BitVec 8) (stable : Bool) (boot : BootObs) (s : State) : Host.Outcome State Fault Refusal :=
  .next (resetRelease straps.toNat stable boot s)

/-- VIN_RISE. -/
def execVinRise (s : State) : Host.Outcome State Fault Refusal := .next (vinRise s)

/-- VIN_UVLO. -/
def execVinUvlo (s : State) : Host.Outcome State Fault Refusal := .next (if s.pwr.state = .off then s else vinUvlo s)

/-- VIN_OVERVOLTAGE. -/
def execVinOvervoltage (s : State) : Host.Outcome State Fault Refusal := .next (vinOvervoltage s)

/-- CURRENT_LIMIT_HELD (R678, R679). -/
def execCurrentLimitHeld (s : State) : Host.Outcome State Fault Refusal :=
  .next (if s.pwr.state = .off then s else stageFault (orReg Reg.PWR_EVENTS 2 s))

/-- RAIL_OUT_OF_RANGE. -/
def execRailOutOfRange (s : State) : Host.Outcome State Fault Refusal := .next (stageFault s)

/-- SYS_RESET. -/
def execSysReset (q : Req) (boot : BootObs) (s : State) : Host.Outcome State Fault Refusal :=
  .next (guarded q Reg.SYS_CMD 1 (fun s => commandReset boot (answer stOk s)) s)

/-- SYS_DETACH. -/
def execSysDetach (q : Req) (s : State) : Host.Outcome State Fault Refusal :=
  .next (guarded q Reg.SYS_CMD 2 (fun s => answer stOk (requestDetach s)) s)

/-- INSTALL. -/
def execInstall (q : Req) (target : Fin 256) (s : State) : Host.Outcome State Fault Refusal :=
  .next (guarded q Reg.SYS_RCMD (wd (256 * target.val + 1)) (beginInstall target.val) s)

/-- INSTALL_DONE. -/
def execInstallDone (obs : CryptoObs) (s : State) : Host.Outcome State Fault Refusal := .next (installDone obs s)

/-- REBOOT. -/
def execReboot (q : Req) (boot : BootObs) (s : State) : Host.Outcome State Fault Refusal :=
  .next (guarded q Reg.SYS_RCMD 2 (reboot boot) s)

/-- STANDBY. -/
def execStandby (q : Req) (s : State) : Host.Outcome State Fault Refusal := .next (guarded q Reg.PWR_CMD 1 standbyCmd s)

/-- WAKE. -/
def execWake (q : Req) (s : State) : Host.Outcome State Fault Refusal := .next (guarded q Reg.PWR_CMD 2 wakeCmd s)

/-- PWR_DETACH. -/
def execPwrDetach (q : Req) (s : State) : Host.Outcome State Fault Refusal :=
  .next (guarded q Reg.PWR_CMD 3 (fun s => answer stOk (requestDetach s)) s)

/-- DETACH_N_LOW. -/
def execDetachNLow (s : State) : Host.Outcome State Fault Refusal := .next (detachNLow s)

/-- DETACH_PHASE_ADVANCE. -/
def execDetachPhaseAdvance (s : State) : Host.Outcome State Fault Refusal := .next (advanceDetach s)

/-- DETACH_TIMEOUT. -/
def execDetachTimeout (s : State) : Host.Outcome State Fault Refusal := .next (detachTimeout s)

/-- DETACH_N_HIGH_RESTART. -/
def execDetachNHighRestart (boot : BootObs) (s : State) : Host.Outcome State Fault Refusal := .next (detachNHigh boot s)

end Sys2Proof.Machine
end

