-- ==== Sys2Proof/Machine/RegRead.lean ====
section
/-! DEFINITION. Register reads (R14, R15, R17, R561): every register returns the value in effect. Registers that show state held
elsewhere are computed here; the rest return what is stored. Some reads have effects: latches (R96, R606, R637) and index
registers that count on (R288, R340, R409). -/

namespace Sys2Proof.Machine

open Sys2Proof

/-- The index of `a` in an array of `n` registers from `base` in steps of `stride`. -/
def arrayIdx (a base stride n : Nat) : Option Nat :=
  if base ≤ a ∧ (a - base) % stride = 0 ∧ (a - base) / stride < n then some ((a - base) / stride) else none

/-- Whole hours since an instant in reference periods, at most `most`. -/
def hoursSince (s : State) (t most : Nat) : Nat := min most ((s.time - t) / 360000000000)

/-! ### Computed registers, by block -/

/-- SYS registers (R586). -/
def viewSys (s : State) (a : Nat) : Option Nat :=
  if a = Reg.SYS_STATE then
    some (2147483648 * b2n s.pwr.recovery + 1073741824 * b2n (readyNow s) + 256 * s.dbg.level + 16 * secCode s.sec.state +
      powerCode s.pwr.state % 8)
  else if a = Reg.SYS_UPTIME then some (min max32 ((s.time - s.pwr.since) / 100000000))
  else none

/-- IMG registers (R64): SEQ of the image in each slot. -/
def viewImg (s : State) (a : Nat) : Option Nat :=
  if a = Reg.IMG_A_SEQ_LO then some (slotSeq s 0)
  else if a = Reg.IMG_A_SEQ_HI then some (slotSeq s 0 / 4294967296)
  else if a = Reg.IMG_B_SEQ_LO then some (slotSeq s 1)
  else if a = Reg.IMG_B_SEQ_HI then some (slotSeq s 1 / 4294967296)
  else none

/-- TBF registers (R96): the BEAT count, its upper half as latched by the lower. -/
def viewTbf (s : State) (a : Nat) : Option Nat :=
  if a = Reg.TBF_BEAT_COUNT_LO then some s.beat
  else if a = Reg.TBF_BEAT_COUNT_HI then some s.tb.beatLatch
  else none

/-- TST registers of group `g` (R293): ages, and the table window. -/
def viewTst (s : State) (g a : Nat) : Option Nat :=
  match arrayIdx a (Reg.TST_CAL_AGE g 0) 4 32 with
  | some k =>
    let t := tstOf s g
    let age := if tget (fun _ => false) t.linSet k then hoursSince s (tget (fun _ => 0) t.since k) 65535 else 0
    some ((rdN s a) / 65536 * 65536 + age)
  | none => if a = Reg.TST_XLIN_DATA g then some (tget (fun _ => 0) (tstOf s g).lin (linSel s g)) else none

/-- MEA registers (R340, R355): the coefficient window. -/
def viewMea (s : State) (a : Nat) : Option Nat := if a = Reg.MEA_XCOEF_DATA then some (coefDataValue s).toNat else none

/-- SRC registers (R381): the tone slot that SRC_NCO_SEL names. -/
def viewSrc (s : State) (a : Nat) : Option Nat :=
  let x := srcCh s (rdFld s Reg.SRC_NCO_SEL 8 0)
  let k := rdFld s Reg.SRC_NCO_SEL 18 16
  if a = Reg.SRC_NCO_FREQ_LO then some (nth 0 x.freq k)
  else if a = Reg.SRC_NCO_FREQ_HI then some (nth 0 x.freq k / 4294967296)
  else if a = Reg.SRC_NCO_PHASE then some (nth 0 x.phase k)
  else none

/-- TDC registers (R409, R412): the latest result of the selected channel, ages, and the bin window. -/
def viewTdc (s : State) (a : Nat) : Option Nat :=
  match arrayIdx a (Reg.TDC_RVIEW 0) 4 16 with
  | some i => some (nth 0 (tdcCh s (rdFld s Reg.TDC_RSEL 8 0)).view i).toNat
  | none =>
    match arrayIdx a (Reg.TDC_CH_CAL 0) 32 512 with
    | some c =>
      let t := shownTable (tdcCh s c)
      some (putBitsN (rdN s a) 29 16 (if t.accepted then hoursSince s t.since 16383 else 0))
    | none => if a = Reg.TDC_XBIN_DATA then some (binData s).toNat else none

/-- SEQ_UCODE_DIGEST (R229): the digest of the loaded microcode. -/
def viewSeq (s : State) (a : Nat) : Option Nat :=
  (arrayIdx a (Reg.SEQ_UCODE_DIGEST 0) 4 16).map (fun i => (nth 0 s.sec.mUcode i).toNat)

/-- QDR_STATUS: what is stored with STRAP_ERROR, OWNER_DIFFERS, ROLE and ADDR (R433, R443, R452). -/
def viewQdr (s : State) (a : Nat) : Option Nat :=
  if a = Reg.QDR_STATUS then
    let w := putBitsN (putBitsN (rdN s a) 14 13 (role s)) 12 8 (ownAddr s)
    let differs := busState s == 4 && ownTag s != rdFld s Reg.QDR_OWNER_TAG 7 0
    some (putBitsN (putBitsN w 24 24 (b2n (rdFld s Reg.QDR_STRAP 9 8 != 0))) 23 23 (b2n differs))
  else none

/-- CORES of list `l` in force: what is stored without the cores removed under R518; the high half with `hi`. -/
def coresInForce (s : State) (l : Nat) (hi : Bool) : Nat :=
  let v := rdN s (if hi then Reg.SCH_LIST_CORES_HI l else Reg.SCH_LIST_CORES_LO l)
  v - (v &&& rdN s (if hi then Reg.SCH_CORES_FENCED_HI else Reg.SCH_CORES_FENCED_LO))

/-- SCH registers (R521): the base of the selected flow, the selected list, and the CORES in force. -/
def viewSch (s : State) (a : Nat) : Option Nat :=
  let base := tget (fun _ => 0) s.sch.bases (rdFld s Reg.SCH_FSEL 9 0)
  let l := rdFld s Reg.SCH_XSEL 5 0
  if a = Reg.SCH_FBASE_LO then some base
  else if a = Reg.SCH_FBASE_HI then some (base / 4294967296 % 65536)
  else if a = Reg.SCH_XLIST_CFG then some (rdN s (Reg.SCH_LIST_CFG l))
  else if a = Reg.SCH_XLIST_CORES_LO then some (coresInForce s l false)
  else if a = Reg.SCH_XLIST_CORES_HI then some (coresInForce s l true)
  else
    match arrayIdx a (Reg.SCH_LIST_CORES_LO 0) 16 64 with
    | some k => some (coresInForce s k false)
    | none => (arrayIdx a (Reg.SCH_LIST_CORES_HI 0) 16 64).map (fun k => coresInForce s k true)

/-- DMA_STATUS with SAFE and PREEMPT_ARB (R527, R538, R551). -/
def viewDma (s : State) (a : Nat) : Option Nat :=
  if a = Reg.DMA_STATUS then
    some (putBitsN (putBitsN (rdN s a) 0 0 (b2n (safeService s))) 1 1 (b2n (preemptArb s)))
  else none

/-- PTP times that latch the rest of their value (R606). -/
def viewPtp (s : State) (a : Nat) : Option Nat :=
  if a = Reg.PTP_TOD_SEC_LO then some (secOf (tod s))
  else if a = Reg.PTP_D_SEC_LO 0 then some (secOf s.ptp.a.count)
  else if a = Reg.PTP_D_SEC_LO 1 then some (secOf s.ptp.b.count)
  else none

/-- FLT registers (R639). -/
def viewFlt (s : State) (a : Nat) : Option Nat :=
  if a = Reg.FLT_STATUS then
    some (2147483648 * b2n s.flt.grave + 1073741824 * b2n s.flt.halted + 65536 * s.flt.queue.length +
      256 * (match s.flt.handling with | some h => h.cls | none => 7) + s.flt.worst)
  else if a = Reg.FLT_GUARANTEE then
    some (2147483648 * b2n (inForce s) +
      sumN ((List.range 6).map (fun (k : Nat) => b2n (nth true (guaranteeConds s) k) * 2 ^ k)))
  else if a = Reg.FLT_SEQ then some s.flt.nextSeq
  else match arrayIdx a (Reg.FLT_HIST 0) 4 16 with
    | some i => some (nth 0 (nth [] s.flt.history (rdFld s Reg.FLT_HSEL 7 0)) i).toNat
    | none => none

/-- LGR registers (R640, R641). -/
def viewLgr (s : State) (a : Nat) : Option Nat :=
  if a = Reg.LGR_SUMMARY then some (mask16 (ledgerBalanced s))
  else if a = Reg.LGR_DRAINED then some (mask16 (ledgerDrained s))
  else if a = Reg.LGR_LINK_BAL then some (mask16 (linkBalanced s))
  else if a = Reg.LGR_PEER_JOINED then some s.qdr.joined
  else if a = Reg.LGR_PEER_DEPARTED then some s.qdr.gone
  else if a = Reg.LGR_PEER_WRITTEN_OFF then some s.qdr.writtenOff
  else if a = Reg.LGR_PEER_PRESENT then some (popcount 32 (rdN s Reg.QDR_PRESENT))
  else match arrayIdx a (Reg.LGR_LEFT 0) 16 16 with
    | some n => some (ledgerView s n).left
    | none => (arrayIdx a (Reg.LGR_STATUS 0) 16 16).map (ledgerStatus s)

/-- PWR registers (R679). -/
def viewPwr (s : State) (a : Nat) : Option Nat :=
  if a = Reg.PWR_STATUS then
    some (65536 * readyWait s + 4096 * b2n (galopBlocked s) + 256 * detachPhase s + 32 * b2n s.pwr.detachN +
      16 * b2n (readyNow s) + 8 * b2n s.pwr.core + powerCode s.pwr.state % 8)
  else if a = Reg.PWR_GALOP_S then some (galopTenths s)
  else none

/-- DBG registers (R660, R681). -/
def viewDbg (s : State) (a : Nat) : Option Nat :=
  if a = Reg.DBG_LEFT then
    some (match s.dbg.ends with | some t => ceilDiv (t - s.time) 100000000 | none => 0)
  else (arrayIdx a (Reg.DBG_NONCE 0) 4 8).map (fun i => (nonceWord s i).toNat)

/-- The computed value of a register, if it is one of these. -/
def viewOf (s : State) (a : Nat) : Option Nat :=
  let b := blockOf a
  if 0x30 ≤ b ∧ b < 0x40 then viewTst s (b - 0x30) a
  else match b with
    | 0x00 => viewSys s a
    | 0x01 => viewImg s a
    | 0x02 => viewTbf s a
    | 0x20 => viewSeq s a
    | 0x41 => viewMea s a
    | 0x42 => viewSrc s a
    | 0x43 => viewTdc s a
    | 0x46 => viewQdr s a
    | 0x52 => viewSch s a
    | 0x53 => viewDma s a
    | 0x61 => viewPtp s a
    | 0x62 => viewFlt s a
    | 0x63 => viewLgr s a
    | 0x64 => viewPwr s a
    | 0x66 => viewDbg s a
    | _ => none

/-- What a read of a register returns (R14, R17): the value in effect, its write-only fields as 0; a blank of an expert half
reads as 0. -/
def readView (s : State) (a : Nat) : Word :=
  match rowOf a with
  | none => 0
  | some r => (match viewOf s a with | some n => wd n | none => rd s a) &&& ~~~ wd r.maskWO

/-- What a read of a register does: latches and index registers. -/
def readEffect (a : Nat) (s : State) : State :=
  let b := blockOf a
  if a = Reg.TBF_BEAT_COUNT_LO then { s with tb := { s.tb with beatLatch := s.beat / 4294967296 } }
  else if a = Reg.MEA_XCOEF_DATA then nextCoef s
  else if a = Reg.TDC_XBIN_DATA then nextBin s
  else if 0x30 ≤ b ∧ b < 0x40 ∧ a = Reg.TST_XLIN_DATA (b - 0x30) then nextLin (b - 0x30) s
  else if b = 0x61 then
    match [0, 1, 2, 3].find? (fun which => ptpTimeAddr which == a) with
    | some which => (ptpReadTime which s).2
    | none => s
  else match arrayIdx a (Reg.LGR_LEFT 0) 16 16 with
    | some n => (ledgerRead n s).2
    | none => s

/-- A register read: its value, and the state after it. -/
def readReg (a : Nat) (s : State) : Word × State := (readView s a, readEffect a s)

/-- BEAT_COUNT_READ: a read of TBF_BEAT_COUNT_LO latches the upper half (R96). -/
def beatCountRead (s : State) : State :=
  let (w, s) := readReg Reg.TBF_BEAT_COUNT_LO s
  answerData w s

/-! ### Meanings -/

/-- BEAT_COUNT_READ. -/
def execBeatCountRead (q : Req) (s : State) : Host.Outcome State Fault Refusal :=
  .next (guardedRead q Reg.TBF_BEAT_COUNT_LO beatCountRead s)

end Sys2Proof.Machine
end

