-- ==== Sys2Proof/Machine/HostWrite.lean ====
section
/-! DEFINITION. Register writes (R14 to R19, R561): the ranges the register tables state, and for each register whose write does
more than set its fields, the operation it starts. -/

namespace Sys2Proof.Machine

open Sys2Proof

/-! ### Ranges -/

/-- Whether a value lies outside `lo` to `hi`. -/
def outside (lo hi x : Nat) : Bool := decide (x < lo) || decide (hi < x)

/-- Whether a value is no power of two from `lo` to `hi`. -/
def badPow2 (lo hi x : Nat) : Bool := !(isPow2 x) || outside lo hi x

/-- Registers whose value is a multiple of 4,096. -/
def pageBases : List Nat :=
  [Reg.SEQ_LOG_BASE_LO, Reg.CMP_RAW_BASE_LO 0, Reg.TDC_RES_BASE_LO, Reg.TDC_CH_Q_LO 0, Reg.ACQ_R_BASE_LO 0 0, Reg.DMA_CQ_BASE_LO,
   Reg.PTP_RX_BASE_LO, Reg.PTP_LQ_BASE_LO 0]

/-- Whether a value lies outside the range of a TBF, LNK, SEQ or TST register (R96, R131, R169, R227, R293), named by the first
address of its row. -/
def outOfRangeLow (b : Nat) (v : Word) : Bool :=
  let x := v.toNat
  if b = Reg.TBF_CTRL then fld v 1 0 == 3
  else if b = Reg.TBF_SLACK_WARN then outside 300 5000 x
  else if b = Reg.TBF_PAV_SCRUB_PERIOD then outside 60 3600 x
  else if b = Reg.TBF_PAV_EYE_PERIOD then outside 1 3600 x
  else if b = Reg.LNK_EYE_CFG 0 then outside 20 30 (fld v 4 0)
  else if b = Reg.LNK_CNT_CTRL 0 then outside 100 60000 (fld v 15 0)
  else if b = Reg.SEQ_STEP_DELAY then outside 200 1000000 x
  else if b = Reg.SEQ_LOG_SIZE then badPow2 1024 16777216 x
  else if b = Reg.TST_XLIMIT_LIN 0 then outside 10 200 (fld v 31 16) || outside 10 200 (fld v 15 0)
  else if b = Reg.TST_XLIMIT_SKEW 0 then outside 64 1920 (fld v 31 16) || outside 1 1024 (fld v 15 0)
  else if b = Reg.TST_XCAL_PERIOD 0 then outside 3600 2592000 x
  else false

/-- The same for the CMP, MEA, SRC, TDC and ACQ blocks (R317, R355, R381, R394, R395, R412, R451). -/
def outOfRangeMid (b : Nat) (v : Word) : Bool :=
  let x := v.toNat
  if b = Reg.CMP_LOG_BURST then outside 64 65536 x
  else if b = Reg.CMP_RAW_SIZE 0 then outside 1 16777216 x
  else if b = Reg.MEA_XCH_XFADE 0 then outside 16 4096 (fld v 12 0)
  else if b = Reg.MEA_XCH_SYNC 0 then decide (63 < fld v 7 0) && fld v 7 0 != 255
  else if b = Reg.SRC_CH_CTRL 0 then (decide (63 < fld v 15 8) && fld v 15 8 != 255) || decide (10 < fld v 7 4)
  else if b = Reg.SRC_CH_PL_LO 0 then x % 64 != 0
  else if b = Reg.SRC_CH_PL_COUNT 0 then outside 1 64 (fld v 6 0)
  else if b = Reg.TDC_RES_SIZE then badPow2 1024 1048576 x
  else if b = Reg.TDC_XCAL_EDGES then outside 22 28 (fld v 4 0)
  else if b = Reg.TDC_XLIMIT_DNL then outside 257 1024 (fld v 31 16) || outside 16 255 (fld v 15 0)
  else if b = Reg.TDC_XLIMIT_PREC then outside 100 5000 (fld v 31 16) || outside 100 2000 (fld v 15 0)
  else if b = Reg.TDC_XCAL_PERIOD then outside 3600 2592000 x
  else if b = Reg.TDC_CH_CTRL 0 then fld v 1 0 == 3 || fld v 11 10 == 3 || fld v 13 12 == 3
  else if b = Reg.TDC_CH_Q_HI 0 then outside 10 28 (fld v 31 24)
  else if b = Reg.ACQ_XTCOMP 0 then decide (100000 < x) && x != max32
  else if b = Reg.ACQ_BLOCK 0 then decide (fld v 23 0 < 2)
  else if b = Reg.ACQ_DET_CH 0 then bit v 15 && fld v 17 16 == 0
  else if b = Reg.ACQ_R_SIZE 0 0 then badPow2 1024 268435456 x
  else false

/-- The same for the MEM, LIB, SCH, DMA, SYS, NET, PTP, PWR, SEC and TEL blocks (R97, R490, R491, R521, R551, R586, R587, R606, R679,
R680). -/
def outOfRangeHigh (b : Nat) (v : Word) : Bool :=
  let x := v.toNat
  if b = Reg.MEM_XFENCE_THRESH then outside 1 256 x
  else if b = Reg.LIB_ARG_ADDR_LO then x % 64 != 0
  else if b = Reg.LIB_ARG_BYTES then x == 0
  else if b = Reg.LIB_XPATROL_PERIOD then outside 86400 2592000 x
  else if b = Reg.LIB_XREFRESH_THRESH then outside 8 72 x
  else if b = Reg.SCH_XPREEMPT_MAX then outside 1000 1000000 x
  else if b = Reg.DMA_CQ_SIZE then badPow2 1024 1048576 x
  else if b = Reg.DMA_XCH_PROG_LO 0 then x % 64 != 0
  else if b = Reg.DMA_XCH_PCOUNT 0 then outside 1 256 (fld v 8 0)
  else if b = Reg.SYS_RLEN then outside 64 268435456 x
  else if b = Reg.NET_LEASE_MS then outside 250 10000 x
  else if b = Reg.NET_ELECT_MS then outside 10 1000 x
  else if b = Reg.NET_SESS_IDLE then outside 1000 600000 x
  else if b = Reg.PTP_STEP_MAX then outside 1 1000000 x
  else if b = Reg.PTP_LATE_NS then decide (1000000 < x)
  else if b = Reg.PTP_RX_SIZE then badPow2 64 65536 x
  else if b = Reg.PTP_LQ_SIZE 0 then badPow2 16 65536 x
  else if b = Reg.PWR_STEP_DUR then decide (86400000 < x)
  else if b = Reg.PWR_DETACH_TIMEOUT then outside 1 3600 x
  else if b = Reg.PWR_XGALOP_W then outside 800 1450 x
  else if b = Reg.SEC_ARG then fld v 17 16 == 3
  else if b = Reg.TEL_CTRL then outside 1 1000 (fld v 15 0)
  else false

/-- Whether a written value lies outside the range its register table states; `a` is the register's address. -/
def outOfRange (a : Nat) (v : Word) : Bool :=
  match rowOf a with
  | none => false
  | some r => (pageBases.contains r.base && v.toNat % 4096 != 0) || outOfRangeLow r.base v || outOfRangeMid r.base v || outOfRangeHigh r.base v

/-- A write that sets fields only, within their ranges. -/
def plainWrite (a : Nat) (v : Word) (s : State) : State := refuseIf (outOfRange a v) stValueRange (accept a v) s

/-! ### Blocks -/

/-- SYS (R583, R586). -/
def writeSys (o : WriteObs) (a : Nat) (v : Word) (s : State) : State :=
  if a = Reg.SYS_CMD then
    match fld v 7 0 with
    | 1 => commandReset o.boot (answer stOk s)
    | 2 => answer stOk (requestDetach s)
    | _ => answer stBadAddr s
  else if a = Reg.SYS_RCMD then
    match fld v 7 0 with
    | 1 => beginInstall (fld v 15 8) s
    | 2 => reboot o.boot s
    | _ => refuseIf (!s.pwr.recovery) stRecoveryState (answer stValueRange) s
  else plainWrite a v s

/-- IMG (R64). -/
def writeImg (q : Req) (a : Nat) (v : Word) (s : State) : State :=
  if a = Reg.IMG_CMD then
    match fld v 7 0 with
    | 1 => beginVerify q (fld v 8 8) s
    | 2 => beginLoad q false (fld v 8 8) s
    | 3 => beginLoad q true 0 s
    | _ => answer stBadAddr s
  else plainWrite a v s

/-- TBF (R70, R96): a write of REF_SEL with BEAT qualified allows a manual return; SLACK_WARN follows its threshold. -/
def writeTbf (a : Nat) (v : Word) (s : State) : State :=
  if a = Reg.TBF_CTRL then
    refuseIf (outOfRange a v) stValueRange (fun s =>
      let held := !(atOnce s a)
      let s := accept a v s
      let s := if rdBit s Reg.TBF_STATUS 0 && rdBit s Reg.TBF_STATUS 1 then { s with tb := { s.tb with returnAllowed := true } } else s
      if held then s else refPolicy s) s
  else if a = Reg.TBF_SLACK_WARN then showSlackWarn (plainWrite a v s)
  else plainWrite a v s

/-- LNK of group `g` (R131, R169). -/
def writeLnk (g a : Nat) (v : Word) (s : State) : State :=
  if a = Reg.LNK_PHY_CMD g then phyCommand g v s
  else if a = Reg.LNK_PHY_XCTRL_A g then xctrlWrite g 0 v s
  else if a = Reg.LNK_PHY_XCTRL_B g then xctrlWrite g 1 v s
  else if a = Reg.LNK_TXFFE_MAN_A g then manualWrite g 0 v s
  else if a = Reg.LNK_TXFFE_MAN_B g then manualWrite g 1 v s
  else if a = Reg.LNK_BERT_CTRL g then bertWrite g v s
  else if a = Reg.LNK_FR_XCTRL g then frXctrl g v s
  else if a = Reg.LNK_FR_INJECT g then frameInject g v s
  else plainWrite a v s

/-- SEQ_STATUS.LOG_FULL follows the ring (R213, R227). -/
def showSeqFull (s : State) : State :=
  setBit Reg.SEQ_STATUS 9 (sub32 (rdN s Reg.SEQ_LOG_WR) (rdN s Reg.SEQ_LOG_RD) == rdN s Reg.SEQ_LOG_SIZE) s

/-- SEQ (R205, R209, R227). -/
def writeSeq (a : Nat) (v : Word) (s : State) : State :=
  if a = Reg.SEQ_STEP_CMD then
    match fld v 7 0 with
    | 1 => stepStart (bit v 8) s
    | 2 => answer stOk (abortStep 1 s)
    | _ => answer stBadAddr s
  else if a = Reg.SEQ_LOG_RD ∨ a = Reg.SEQ_LOG_SIZE then showSeqFull (plainWrite a v s)
  else plainWrite a v s

/-- TST_CMD (R272, R274): a COMMIT, then a READ. -/
def tstCommand (q : Req) (g : Nat) (v : Word) (s : State) : State :=
  let s := if bit v 1 then tstCommit q g s else answer stOk s
  if bit v 0 && s.ans.status == stOk then
    let kept := s.ans
    { tstRead g s with ans := kept }
  else s

/-- TST of group `g` (R278 to R293). -/
def writeTst (q : Req) (g a : Nat) (v : Word) (s : State) : State :=
  if a = Reg.TST_TSET g then tsetWrite g v s
  else if a = Reg.TST_PERIOD g then periodWrite g v s
  else if a = Reg.TST_CMD g then tstCommand q g v s
  else if a = Reg.TST_XCMD g then
    match fld v 7 0 with
    | 1 => calCommand g false (bit v 8) s
    | 2 => calCommand g true (bit v 8) s
    | 3 => writeRaw q g s
    | _ => answer stBadAddr s
  else if a = Reg.TST_XLIN_DATA g then linWrite g v s
  else match arrayIdx a (Reg.TST_MODE g 0) 4 4 with
    | some r => modeWrite g r v s
    | none => plainWrite a v s

/-- CMP (R310, R317). -/
def writeCmp (a : Nat) (v : Word) (s : State) : State :=
  if a = Reg.CMP_LOG_RD then logRdWrite v s
  else if a = Reg.CMP_LOG_BASE_LO then logConfigWrite 0 v s
  else if a = Reg.CMP_LOG_BASE_HI then logConfigWrite 1 v s
  else if a = Reg.CMP_LOG_SIZE then logConfigWrite 2 v s
  else if a = Reg.CMP_XINJECT then failInject v s
  else plainWrite a v s

/-- MEA (R332, R336 to R340, R355). -/
def writeMea (a : Nat) (v : Word) (s : State) : State :=
  let c := a % 0x1000 / 0x20 + (a % 0x10000 / 0x1000 - (if inExpertHalf a then 9 else 1)) * 128
  if a = Reg.MEA_XCOEF_DATA then coefDataWrite v s
  else if a = Reg.MEA_CH_TARGET c then targetWrite c v s
  else if a = Reg.MEA_XCH_CHAIN c then chainWrite c false v s
  else if a = Reg.MEA_XCH_RHO c then chainWrite c true v s
  else if (setRegsOf c).contains a then xchSetWrite c a v s
  else plainWrite a v s

/-- SRC (R372, R381): a tone register acts on the slot that SRC_NCO_SEL names. -/
def writeSrc (a : Nat) (v : Word) (s : State) : State :=
  if a = Reg.SRC_NCO_FREQ_LO then answer stOk { s with src := { s.src with freqLo := v.toNat } }
  else if a = Reg.SRC_NCO_FREQ_HI then freqWrite v s
  else if a = Reg.SRC_NCO_PHASE then
    let k := rdFld s Reg.SRC_NCO_SEL 18 16
    answer stOk (modSrc (rdFld s Reg.SRC_NCO_SEL 8 0)
      (fun x => { x with phaseSh := x.phaseSh.filter (fun e => e.1 != k) ++ [(k, fld v 15 0)] }) s)
  else plainWrite a v s

/-- TDC (R392, R400, R409, R412). -/
def writeTdc (a : Nat) (v : Word) (s : State) : State :=
  let c := (a % 0x10000 - 0x1000) / 0x20
  if a = Reg.TDC_CH_Q_RD c then qRdWrite c v s
  else if a = Reg.TDC_XCMD then
    match fld v 7 0 with
    | 1 => calCd (fld v 19 16) (bit v 8) s
    | _ => answer stBadAddr s
  else if a = Reg.TDC_XBIN_DATA then binWrite v s
  else if a = Reg.TDC_RES_RD ∨ a = Reg.TDC_RES_SIZE then
    let s := plainWrite a v s
    setBit Reg.TDC_STATUS 1 (resultsFull s) s
  else plainWrite a v s

/-- TRG (R416, R450). -/
def writeTrg (a : Nat) (v : Word) (s : State) : State :=
  let l := (a % 0x10000 - 0x1000) / 0x20
  if a = Reg.TRG_FIRE then answer stOk (postDirect (fld v 5 0) (16 * s.beat) s)
  else if a = Reg.TRG_LINE_SRC01 l then lineSrcWrite l false v s
  else if a = Reg.TRG_LINE_SRC23 l then lineSrcWrite l true v s
  else plainWrite a v s

/-- ACQ (R426, R451). -/
def writeAcq (a : Nat) (v : Word) (s : State) : State :=
  let u := (a % 0x10000 - 0x1000) / 0x100
  let r := (a % 0x100 - 0x40) / 0x20
  if a = Reg.ACQ_R_RD u r ∧ u < 32 then acqRdWrite u r v s else plainWrite a v s

/-- QDR (R452). -/
def writeQdr (a : Nat) (v : Word) (s : State) : State :=
  if a = Reg.QDR_CMD then answer stOk (if bit v 0 then quadrilleListen s else s) else plainWrite a v s

/-- MEM (R482, R490). -/
def writeMemBlock (a : Nat) (v : Word) (s : State) : State :=
  if a = Reg.MEM_OBJ_BASE_LO then objBaseWrite false v s
  else if a = Reg.MEM_OBJ_BASE_HI then objBaseWrite true v s
  else if a = Reg.MEM_XINJECT then memInject v s
  else plainWrite a v s

/-- LIB_CMD (R474 to R481). -/
def libWord (v : Word) (s : State) : State :=
  let busy := s.lib.run.isSome
  match fld v 7 0 with
  | 1 => refuseIf busy stRefusedFull libCreate s
  | 2 => refuseIf busy stRefusedFull libWrite s
  | 3 => refuseIf busy stRefusedFull libRead s
  | 4 => refuseIf busy stRefusedFull libDelete s
  | 5 => refuseIf busy stRefusedFull libStage s
  | 6 => refuseIf busy stRefusedFull libEvict s
  | 7 => refuseIf busy stRefusedFull libInfo s
  | 8 => libCancel s
  | _ => answer stBadAddr s

/-- LIB (R491). -/
def writeLib (a : Nat) (v : Word) (s : State) : State := if a = Reg.LIB_CMD then libWord v s else plainWrite a v s

/-- CAPACITY of the enabled lists but `l`. -/
def otherCapacity (s : State) (l : Nat) : Nat :=
  sumN (((List.range 64).filter (fun k => k != l && listOn s k)).map (listCap s))

/-- SCH_XLIST_CFG (R505, R521). -/
def xlistCfg (v : Word) (s : State) : State :=
  let l := rdFld s Reg.SCH_XSEL 5 0
  let on := bit v 8
  refuseIf (on && decide (4096 < otherCapacity s l + fld v 27 16 + 1)) stValueRange
    (fun s => answer stOk (setReg (Reg.SCH_LIST_CFG l) (v &&& 0x0FFF0307) s)) s

/-- SCH_XLIST_CORES_LO and SCH_XLIST_CORES_HI (R521). -/
def xlistCores (hi : Bool) (v : Word) (s : State) : State :=
  let l := rdFld s Reg.SCH_XSEL 5 0
  let other := rd s (if hi then Reg.SCH_LIST_CORES_LO l else Reg.SCH_LIST_CORES_HI l)
  refuseIf (v == 0 && other == 0) stValueRange
    (fun s => answer stOk (setReg (if hi then Reg.SCH_LIST_CORES_HI l else Reg.SCH_LIST_CORES_LO l) v s)) s

/-- SCH (R506, R513, R521). -/
def writeSch (a : Nat) (v : Word) (s : State) : State :=
  let f := (a % 0x10000 - 0x4000) / 0x10
  if a = Reg.SCH_SUB_GO then subGo s
  else if a = Reg.SCH_CMD then
    match fld v 7 0 with
    | 1 => answer stOk (flushList (fld v 13 8) s)
    | _ => answer stBadAddr s
  else if a = Reg.SCH_FLOW_RD f ∧ f < 1024 then flowRdWrite f v s
  else if a = Reg.SCH_XLIST_CFG then xlistCfg v s
  else if a = Reg.SCH_XLIST_CORES_LO then xlistCores false v s
  else if a = Reg.SCH_XLIST_CORES_HI then xlistCores true v s
  else plainWrite a v s

/-- DMA (R524, R541, R551). -/
def writeDma (a : Nat) (v : Word) (s : State) : State :=
  let c := (a % 0x10000 - 0x1000) / 0x40
  if a = Reg.DMA_CH_CMD c ∧ c < 32 then
    match fld v 7 0 with
    | 1 => dmaStart c s
    | 2 => dmaStop c s
    | _ => answer stBadAddr s
  else if a = Reg.DMA_CQ_RD then cqRdWrite v s
  else plainWrite a v s

/-- NET (R554, R566, R587). -/
def writeNet (a : Nat) (v : Word) (s : State) : State :=
  if a = Reg.NET_HOST_CMD then
    match fld v 7 0 with
    | 1 => hostWriteEntry s
    | 2 => hostClearEntry s
    | 3 => hostReadEntry s
    | _ => answer stBadAddr s
  else if (portOfCfg a).isSome then portCfgWrite a v s
  else plainWrite a v s

/-- A write of PTP_RX_RD (R606). -/
def rxRdWrite (v : Word) (s : State) : State :=
  refuseIf (decide (rdN s Reg.PTP_RX_SIZE < sub32 (rdN s Reg.PTP_RX_WR) v.toNat)) stValueRange (accept Reg.PTP_RX_RD v) s

/-- PTP (R591, R593, R596, R601, R606). -/
def writePtp (a : Nat) (v : Word) (s : State) : State :=
  let d := (a % 0x10000 - 0x100) / 0x40
  let p := (a % 0x10000 - 0x200) / 0x20
  if a = Reg.PTP_CTRL then ptpCtrlWrite v s
  else if a = Reg.PTP_SNAP_CMD then ptpSnap s
  else if a = Reg.PTP_RX_RD then rxRdWrite v s
  else if a = Reg.PTP_D_INC_HI d ∧ d < 2 then incCommit d v s
  else if a = Reg.PTP_D_CMD d ∧ d < 2 then
    match fld v 7 0 with
    | 1 => ptpStep d s
    | 2 => ptpSet d s
    | 3 => ptpInvalidate d s
    | _ => answer stBadAddr s
  else if a = Reg.PTP_LQ_WR p ∧ p < 2 then lqWrite p v s
  else plainWrite a v s

/-- FLT (R612, R639). -/
def writeFlt (a : Nat) (v : Word) (s : State) : State :=
  if a = Reg.FLT_ALERT then answer stOk (setReg Reg.FLT_ALERT (rd s Reg.FLT_ALERT &&& ~~~ (v &&& 3)) s)
  else if a = Reg.FLT_XINJECT then faultInject v s
  else plainWrite a v s

/-- PWR (R644, R670, R679): DETACH_ABORT set while a detach waits for the step aborts it. -/
def writePwr (a : Nat) (v : Word) (s : State) : State :=
  if a = Reg.PWR_CMD then
    match fld v 7 0 with
    | 1 => standbyCmd s
    | 2 => wakeCmd s
    | 3 => answer stOk (requestDetach s)
    | _ => answer stBadAddr s
  else if a = Reg.PWR_CTRL then
    let s := plainWrite a v s
    if bit v 2 && detachPhase s == 2 then answer stOk (abortStep 1 s) else s
  else plainWrite a v s

/-- SEC (R647, R680). -/
def writeSec (a : Nat) (v : Word) (s : State) : State := if a = Reg.SEC_CMD then secCmdWrite v s else plainWrite a v s

/-- DBG (R658, R661, R681). -/
def writeDbg (o : WriteObs) (a : Nat) (v : Word) (s : State) : State :=
  if a = Reg.DBG_CTRL then dbgCtrlWrite v s
  else if a = Reg.DBG_REQ then debugRequest (fld v 1 0) (bit v 8) o.token s
  else plainWrite a v s

/-! ### The whole -/

/-- A register write that met no refusal of R19: it acts as its block says, and is answered. -/
def regWrite (q : Req) (o : WriteObs) (a : Nat) (v : Word) (s : State) : State :=
  let b := blockOf a
  if 0x10 ≤ b ∧ b < 0x20 then writeLnk (b - 0x10) a v s
  else if 0x30 ≤ b ∧ b < 0x40 then writeTst q (b - 0x30) a v s
  else match b with
    | 0x00 => writeSys o a v s
    | 0x01 => writeImg q a v s
    | 0x02 => writeTbf a v s
    | 0x20 => writeSeq a v s
    | 0x40 => writeCmp a v s
    | 0x41 => writeMea a v s
    | 0x42 => writeSrc a v s
    | 0x43 => writeTdc a v s
    | 0x44 => writeTrg a v s
    | 0x45 => writeAcq a v s
    | 0x46 => writeQdr a v s
    | 0x50 => writeMemBlock a v s
    | 0x51 => writeLib a v s
    | 0x52 => writeSch a v s
    | 0x53 => writeDma a v s
    | 0x60 => writeNet a v s
    | 0x61 => writePtp a v s
    | 0x62 => writeFlt a v s
    | 0x64 => writePwr a v s
    | 0x65 => writeSec a v s
    | 0x66 => writeDbg o a v s
    | _ => plainWrite a v s

/-- The registers written through the debug access port only (R681). -/
def dapOnly (a : Nat) : Bool := a == Reg.DBG_REQ || (decide (Reg.DBG_TOKEN 0 ≤ a) && decide (a ≤ Reg.DBG_TOKEN 1831))

/-- A single-register write of a request (R18, R19, R561, R681). -/
def hostWrite (q : Req) (o : WriteObs) (a : Nat) (v : Word) (s : State) : State :=
  if (a % 4 ≠ 0 || dapOnly a) && q.authOk && sessOpen s q.slot.val then answer stBadAddr s
  else guarded q a v (regWrite q o a v) s

end Sys2Proof.Machine
end

