-- ==== Sys2Proof/Machine/Net.lean ====
section
/-! DEFINITION. KCT as it arrives (R558 to R588): the handshake, message numbering, acknowledgement, the requests of a session, the
lease and the election, and the ports. -/

namespace Sys2Proof.Machine

open Sys2Proof

/-! ### Arrival -/

/-- Whether the device runs KCT and a port is linked, so that a message on it arrives (R554, R568, R668). -/
def portListens (s : State) (p : Nat) : Bool :=
  s.pwr.state != .off && !s.pwr.inReset && s.pwr.mgmt && decide ((portOf s p).linked ≠ 0)

/-- A message that is dropped and counted (R556, R560, R567). -/
def dropMsg (s : State) : State := incSat Reg.NET_DROPPED 1 s

/-- The slot that a SESSION value names (R559). -/
def slotOfId (id : Word) : Nat := id.toNat % 8

/-! ### Acknowledgement -/

/-- The write count of each ring and the read count beside it: the registers that a RING stream names (R575). -/
def ringPairs : List (Nat × Nat) :=
  [(Reg.SEQ_LOG_WR, Reg.SEQ_LOG_RD), (Reg.CMP_LOG_WR, Reg.CMP_LOG_RD), (Reg.TDC_RES_WR, Reg.TDC_RES_RD),
   (Reg.DMA_CQ_WR, Reg.DMA_CQ_RD), (Reg.PTP_RX_WR, Reg.PTP_RX_RD)]

/-- The read count that goes with a write count, if the two belong to a ring. -/
def ringReadOf (wr : Nat) : Option Nat :=
  match ringPairs.find? (fun p => p.1 == wr) with
  | some p => some p.2
  | none =>
    match arrayIdx wr (Reg.TDC_CH_Q_WR 0) 0x20 512 with
    | some c => some (Reg.TDC_CH_Q_RD c)
    | none =>
      match arrayIdx wr (Reg.SCH_FLOW_WR 0) 0x10 1024 with
      | some f => some (Reg.SCH_FLOW_RD f)
      | none =>
        let u := (wr % 0x10000 - 0x1000) / 0x100
        let r := (wr % 0x100 - 0x40) / 0x20
        if wr = Reg.ACQ_R_WR u r ∧ u < 32 ∧ r < 4 then some (Reg.ACQ_R_RD u r) else none

/-- A write of a ring's read count on the owner's behalf (R576); the answer to the last request stays. -/
def ringRdWrite (a : Nat) (v : Word) (s : State) : State :=
  let kept := s.ans
  let b := blockOf a
  let s := if b = 0x20 then writeSeq a v s
    else if b = 0x40 then writeCmp a v s
    else if b = 0x43 then writeTdc a v s
    else if b = 0x45 then writeAcq a v s
    else if b = 0x52 then writeSch a v s
    else if b = 0x53 then writeDma a v s
    else writePtp a v s
  { s with ans := kept }

/-- A message of the device to session slot `k` is acknowledged: the read count of a RING stream follows its records (R576). A
stream that has passed to another session follows that one's acknowledgements (R580). -/
def ackedMsg (k : Nat) (m : OutMsg) (s : State) : State :=
  match m.body with
  | .streamData n kind _ first recs =>
    match streamOf s n with
    | some t =>
      if kind = 3 && (t.holder == some k || (t.holder.isNone && s.net.lastOwner == some k)) then
        ringRdWrite t.rdReg (wd (add32 first recs.length)) s
      else s
    | none => s
  | _ => s

/-- Messages acknowledged, oldest first. -/
def ackedAll (k : Nat) : List OutMsg → State → State
  | [], s => s
  | m :: ms, s => ackedAll k ms (ackedMsg k m s)

/-- ACK and WINDOW of a message of the peer (R569, R570, R576). -/
def takeAck (k ack window : Nat) (s : State) : State :=
  let x := sessOf s k
  let s := modSess k (fun x => { x with window := window, unacked := x.unacked.filter (fun m => decide (ack < m.seq)) }) s
  let s := ackedAll k (x.unacked.filter (fun m => decide (m.seq ≤ ack))) s
  sendWaiting k (sessOf s k).waiting.length s

/-! ### The handshake -/

/-- The lowest free session slot. -/
def freeSess (s : State) : Option Nat := (List.range 8).find? (fun k => (sessOf s k).phase == .free)

/-- Free words, least index first. -/
def freeWords : Nat → State → List Word × State
  | 0, s => ([], s)
  | n + 1, s =>
    let (w, s) := freeNat 32 s
    let (ws, s) := freeWords n s
    (wd w :: ws, s)

/-- The identity of a host: the SHA3-256 hash of its public key, its first byte the most significant (R566, R572). -/
def identityOf (hostPub : List Byte) : Nat := ofLeBytes (wordsToBytes (sha3_256 hostPub)).reverse

/-- SESSION_INIT (R563, R564): a slot begins a handshake, or an untagged REFUSED_FULL. -/
def sessionInit (hostPub : List Byte) (p : Nat) (s : State) : State :=
  if !(portListens s p) then s
  else match freeSess s with
    | none => answer stRefusedFull s
    | some k =>
      let (r, s) := freeNat 29 s
      let (nonce, s) := freeWords 8 s
      let s := modSess k (fun _ => { phase := .challenged, id := wd (8 * r + k), hostId := identityOf hostPub, port := p, rx := 1 }) s
      showSess k (sendMsg k (epochNow s) (.challenge nonce) (answer stOk s))

/-- Whether a host is admitted (R566, R581). -/
def hostAdmitted (s : State) (h : Nat) : Bool := s.pwr.recovery || s.sec.state != .sealed || (hostFound s h).isSome

/-- The priority of a host (R566). -/
def hostPrio (s : State) (h : Nat) : Nat := match hostFound s h with | some e => e.prio | none => 0

/-- SESSION_CONFIRM (R564, R566): the session opens, or its slot is free again. -/
def sessionConfirm (h : Hdr) (sigOk : Bool) (s : State) : State :=
  let k := slotOfId h.session
  let x := sessOf s k
  if !(portListens s h.port.val) then s
  else if x.phase != .challenged || x.id != h.session || !h.authOk || h.seq != 2 then dropMsg s
  else if !(sigOk && hostAdmitted s x.hostId) then answer stBadAuth (showSess k (modSess k (fun _ => {}) s))
  else
    let prio := hostPrio s x.hostId
    let s := takeAck k h.ack h.window (modSess k (fun x => { x with phase := .opened, prio := prio, port := h.port.val, rx := 2 }) s)
    let s := setRegN (Reg.NET_SESS_RX k) 0 (setRegN (Reg.NET_SESS_TX k) 0 s)
    let s := sendMsg k (epochNow s) (.sessionOpen stOk prio) (answer stOk s)
    showSess k (pushEvent 5 k x.id.toNat s)

/-- HANDSHAKE_TIMEOUT (R563). -/
def handshakeTimeout (k : Nat) (s : State) : State :=
  if (sessOf s k).phase == .challenged then closeSession k s else s

/-! ### Requests -/

/-- Whether a request names an epoch other than the one in force (R60). -/
def staleEpoch (s : State) (e : Word) : Bool := e != 0 && e != epochNow s

/-- A RESPONSE without data. -/
def plainResp (seq code done : Nat) : Resp := { reqSeq := seq, status := code, done := done, data := [] }

/-- READ_REG from `a` up: registers read, and whether an unmapped one stopped it (R561). -/
def readRun : Nat → Nat → State → List Word × Bool × State
  | 0, _, s => ([], false, s)
  | n + 1, a, s =>
    if mappedRead s a then
      let (w, s) := readReg a s
      let (ws, stop, s) := readRun n (a + 4) s
      (w :: ws, stop, s)
    else ([], true, s)

/-- READ_REG (R60, R561). -/
def readRegs (a n : Nat) (e : Word) (s : State) : Nat × List Word × State :=
  if a % 4 ≠ 0 ∨ n = 0 ∨ 1024 < n ∨ !(mappedRead s a) then (stBadAddr, [], s)
  else if staleEpoch s e then (stStaleEpoch, [], s)
  else
    let (ws, stop, s) := readRun n a s
    (if stop then stBadAddr else stOk, ws, s)

/-- What the writes of a WRITE_REG came to: registers completed, the code they stopped with, and whether one is still open with
what followed it. -/
structure WriteRun where
  done : Nat := 0
  code : Nat := stOk
  open_ : Bool := false
  after : Nat := 0
  deriving DecidableEq, Repr

/-- WRITE_REG: single writes in ascending order up to the first refusal (R561). A session that a write has closed gets no
further one. -/
def writeRun (q : Req) (o : WriteObs) : List Word → Nat → WriteRun → State → WriteRun × State
  | [], _, r, s => (r, s)
  | v :: vs, a, r, s =>
    if !(sessOpen s q.slot.val) then (r, s)
    else
      let s := hostWrite q o a v s
      if s.ans.deferred then writeRun q o vs (a + 4) { r with open_ := true } s
      else if s.ans.status = stOk then
        writeRun q o vs (a + 4) (if r.open_ then { r with after := r.after + 1 } else { r with done := r.done + 1 }) s
      else ({ r with code := s.ans.status }, s)

/-- The command that a message left open takes the message's number and counts (R273, R574). -/
def markOpen (k seq : Nat) (r : WriteRun) (s : State) : State :=
  match s.net.openCmds.reverse with
  | o :: os =>
    { s with net := { s.net with
      openCmds := ({ o with slot := k, reqSeq := seq, done := r.done, after := r.after, code := r.code } :: os).reverse } }
  | [] => s

/-- WRITE_REG (R561); its RESPONSE falls later when a command is left open. -/
def writeRegs (k seq : Nat) (e : Word) (o : WriteObs) (a : Nat) (vs : List Word) (s : State) : State :=
  if a % 4 ≠ 0 ∨ vs.length = 0 ∨ 1024 < vs.length then respond k (plainResp seq stBadAddr 0) true s
  else
    let id := (sessOf s k).id
    let (r, s) := writeRun { slot := Fin.ofNat 8 k, authOk := true, epoch := e } o vs a {} s
    if (sessOf s k).id != id || !(sessOpen s k) then s
    else if r.open_ then markOpen k seq r s
    else respond k (plainResp seq r.code r.done) true s

/-- Whether a memory request names an address range that KCT reaches (R453, R561, R582). -/
def memReqOk (s : State) (a n : Nat) : Bool :=
  a % 4 == 0 && n % 4 == 0 && decide (4 ≤ n) && decide (n ≤ 8192) &&
  (if s.pwr.recovery then decide (a + n ≤ 0x10000000) else rangeMapped s a n)

/-- READ_MEM (R60, R455, R462, R561). -/
def memRead (a n : Nat) (e : Word) (s : State) : Nat × List Word × State :=
  if !(memReqOk s a n) then (stBadAddr, [], s)
  else if staleEpoch s e then (stStaleEpoch, [], s)
  else
    let s := readHook a n s
    if rangePoisoned s a n then (stMemPoison, [], s) else (stOk, bytesToWords (readBytes s a n), s)

/-- The refusal that a memory write of an owner meets (R60, R367, R455, R494, R562, R615). -/
def memWriteRefusal (own : Bool) (a n : Nat) (e : Word) (s : State) : Option Nat :=
  if !(memReqOk s a n) then some stBadAddr
  else if !own then some stNotOwner
  else if staleEpoch s e then some stStaleEpoch
  else if touchesPlay s a n then some stWaveInPlay
  else if !s.pwr.recovery && (inProtected s a n || inItcm a || inTaskWindow a) then some stMemProtected
  else if s.flt.grave then some stFltGrave
  else none

/-- WRITE_MEM, checked whole and applied whole or refused (R562); a refusal under R367 is noted in SRC_EVENTS. -/
def memWrite (own : Bool) (a : Nat) (bs : List Byte) (e : Word) (s : State) : Nat × State :=
  match memWriteRefusal own a bs.length e s with
  | some code => (code, if code = stWaveInPlay then orReg Reg.SRC_EVENTS 8 s else s)
  | none => (stOk, setBytes a bs s)

/-! ### Ownership requests -/

/-- Whether a session's CLAIM of the present election waits for its answer. -/
def isCand (s : State) (k : Nat) : Bool := s.net.cands.any (fun c => c.1 == k)

/-- CLAIM of session slot `k` (R572, R585, R668). -/
def claimReq (k seq : Nat) (e : Word) (s : State) : State :=
  let say := fun (code : Nat) (s : State) => respond k (plainResp seq code (leaseLeft s)) true s
  if s.sec.state == .retired then say stNotOwner s
  else if staleEpoch s e then say stStaleEpoch s
  else if s.pwr.state == .detached then say stPowerState s
  else if s.net.electing then
    if isCand s k then say stClaimStanding s else { s with net := { s.net with cands := s.net.cands ++ [(k, seq)] } }
  else match s.net.owner with
    | none => say stOk (becomeOwner k 0 s)
    | some j =>
      if j = k then say stOk s
      else say stClaimStanding (showSess k (modSess k (fun x => { x with standing := true }) s))

/-- HEARTBEAT (R572, R585). -/
def heartbeatReq (k seq : Nat) (e : Word) (s : State) : State :=
  if !(isOwner s k) then respond k (plainResp seq stNotOwner (leaseLeft s)) true s
  else if staleEpoch s e then respond k (plainResp seq stStaleEpoch (leaseLeft s)) true s
  else
    let s := { s with net := { s.net with leaseEnd := s.time + leaseTime s } }
    respond k (plainResp seq stOk (leaseLeft s)) true s

/-- HANDOVER (R573). -/
def handoverReq (k seq : Nat) (e : Word) (successor : Word) (s : State) : State :=
  let j := slotOfId successor
  if !(isOwner s k) then respond k (plainResp seq stNotOwner 0) true s
  else if staleEpoch s e then respond k (plainResp seq stStaleEpoch 0) true s
  else if !(sessOpen s j) || (sessOf s j).id != successor || j == k then respond k (plainResp seq stHandoverFailed 0) true s
  else
    let s := respond k (plainResp seq stOk 0) true s
    let s := { s with net := { s.net with offer := some { slot := j, reqSeq := seq } } }
    showOwner (sendMsg j (epochNow s) (.offer (sessOf s k).id) s)

/-- ACCEPT (R573, R585). -/
def acceptReq (k seq : Nat) (e : Word) (s : State) : State :=
  if staleEpoch s e then respond k (plainResp seq stStaleEpoch 0) true s
  else match s.net.offer with
    | some o =>
      if o.slot = k then respond k (plainResp seq stOk 0) true (becomeOwner k 1 s)
      else respond k (plainResp seq stNotOffered 0) true s
    | none => respond k (plainResp seq stNotOffered 0) true s

/-- RELEASE (R572): of ownership, or of a standing claim. -/
def releaseReq (k seq : Nat) (e : Word) (s : State) : State :=
  let own := isOwner s k
  if !own && !((sessOf s k).standing || isCand s k) then respond k (plainResp seq stNotOwner 0) true s
  else if staleEpoch s e then respond k (plainResp seq stStaleEpoch 0) true s
  else if own then vacate (respond k (plainResp seq stOk 0) true s)
  else
    let s := (s.net.cands.filter (fun c => c.1 == k)).foldl (fun s c => answerClaim stClaimStanding s c) s
    let s := modSess k (fun x => { x with standing := false })
      { s with net := { s.net with cands := s.net.cands.filter (fun c => c.1 != k) } }
    showSess k (respond k (plainResp seq stOk 0) true s)

/-! ### Streams -/

/-- STREAM_OPEN (R571, R575, R577, R582): a RING names the count registers of a ring. -/
def streamOpenReq (k seq : Nat) (e : Word) (p : StreamReq) (s : State) : State :=
  if p.kind = 3 ∧ !s.pwr.recovery ∧ ringReadOf p.wrReg ≠ some p.rdReg then respond k (plainResp seq stBadAddr 0) true s
  else if staleEpoch s e && !(p.kind == 3 && !(isOwner s k)) then respond k (plainResp seq stStaleEpoch 0) true s
  else
    let (code, n, s) := openStream k p s
    respond k (plainResp seq code n) true s

/-- STREAM_CREDIT and STREAM_CLOSE, answered with their status (R560, R578, R579). -/
def streamReq (k seq : Nat) (e : Word) (f : State → Nat × State) (s : State) : State :=
  if staleEpoch s e then respond k (plainResp seq stStaleEpoch 0) true s
  else
    let (code, s) := f s
    respond k (plainResp seq code 0) true s

/-! ### Execution in SEQ order -/

/-- CLOSE of a host (R560, R568): it is answered OK as the session's last message, and the session closes. -/
def closeReq (k seq : Nat) (e : Word) (s : State) : State :=
  if staleEpoch s e then respond k (plainResp seq stStaleEpoch 0) true s
  else
    let r := plainResp seq stOk 0
    let s := respond k r true s
    closeSession k { s with net := { s.net with closes := tset (fun _ => none) s.net.closes k (some r) } }

/-- Executes request `seq` of session slot `k` (R560, R561, R571 to R579). -/
def runRequest (k seq : Nat) (e : Word) (m : Kct) (s : State) : State :=
  let s := incWrap (Reg.NET_SESS_RX k) 1 s
  match m with
  | .close => closeReq k seq e s
  | .readReg a n =>
    let (code, ws, s) := readRegs a n e s
    respond k { reqSeq := seq, status := code, done := ws.length, data := ws } true s
  | .writeReg o a vs => writeRegs k seq e o a vs s
  | .readMem a n =>
    let (code, ws, s) := memRead a n e s
    respond k { reqSeq := seq, status := code, done := 0, data := ws } true s
  | .writeMem a bs =>
    let (code, s) := memWrite (isOwner s k) a bs e s
    respond k (plainResp seq code 0) true s
  | .claim => claimReq k seq e s
  | .heartbeat => heartbeatReq k seq e s
  | .handover w => handoverReq k seq e w s
  | .accept => acceptReq k seq e s
  | .release => releaseReq k seq e s
  | .streamOpen p => streamOpenReq k seq e p s
  | .streamCredit n c => streamReq k seq e (creditStream k n c) s
  | .streamClose n => streamReq k seq e (closeStream k n) s

/-- Whether a commit of session slot `k` still waits for its answer, so that later requests wait too (R273). -/
def commitOpen (s : State) (k : Nat) : Bool :=
  s.net.openCmds.any (fun o => (match o.kind with | .commit _ => true | _ => false) && o.slot == k && o.reqSeq != 0 && !o.moved)

/-- Executes the requests of a session that are in order; `n` bounds their number (R569). -/
def drainSess (k : Nat) : Nat → State → State
  | 0, s => s
  | n + 1, s =>
    let x := sessOf s k
    if x.phase != .opened || commitOpen s k then s
    else match x.held.find? (fun r => r.1 == x.rx + 1) with
      | none => s
      | some r =>
        let s := modSess k (fun x => { x with rx := x.rx + 1, held := x.held.filter (fun h => h.1 != r.1) }) s
        drainSess k n (runRequest k r.1 r.2.1 r.2.2 s)

/-- Every session executes what it may. -/
def resume (s : State) : State := (List.range 8).foldl (fun s k => drainSess k (sessOf s k).held.length s) s

/-- The highest SEQ received in order: what the device acknowledges. -/
def inOrder (held : List (Nat × Word × Kct)) : Nat → Nat → Nat
  | 0, rx => rx
  | n + 1, rx => if held.any (fun r => r.1 == rx + 1) then inOrder held n (rx + 1) else rx

/-- A numbered request on an open session (R569). -/
def takeRequest (k : Nat) (h : Hdr) (m : Kct) (s : State) : State :=
  let x := sessOf s k
  if h.seq ≤ x.rx then
    match x.cache.find? (fun r => r.reqSeq == h.seq) with
    | some r => sendMsg k (epochNow s) (.response r) s
    | none => s
  else if inOrder x.held x.held.length x.rx + 64 < h.seq || x.held.any (fun r => r.1 == h.seq) then s
  else
    let s := modSess k (fun x => { x with held := x.held ++ [(h.seq, h.epoch, m)] }) s
    drainSess k (x.held.length + 1) s

/-- A message of a host on a session (R558, R567 to R570); `f` handles it on an open session when its TAG verifies. -/
def onSession (h : Hdr) (f : Nat → State → State) (s : State) : State :=
  let k := slotOfId h.session
  let x := sessOf s k
  if !(portListens s h.port.val) then s
  else if x.phase != .opened || x.id != h.session then dropMsg s
  else if !h.authOk then
    respond k (plainResp h.seq stBadAuth 0) false (incSat Reg.NET_BADAUTH 1 s)
  else
    let s := showSess k (modSess k (fun x => { x with port := h.port.val }) s)
    f k (takeAck k h.ack h.window s)

/-- A request of a session arrives. -/
def kctRequest (h : Hdr) (m : Kct) (s : State) : State := onSession h (fun k s => takeRequest k h m s) s

/-! ### Timers -/

/-- RETRANSMIT_TIMER: an unacknowledged message is sent again and counted (R570). -/
def retransmit (k seq : Nat) (s : State) : State :=
  let x := sessOf s k
  if x.unacked.any (fun m => m.seq == seq) then
    incSat Reg.NET_RETX 1 (modSess k (fun x => { x with
      unacked := x.unacked.map (fun m => if m.seq = seq then { m with resends := m.resends + 1 } else m) }) s)
  else s

/-! ### Meanings -/

/-- SESSION_INIT of a host identity on a port. -/
def execSessionInit (hostPub : List Byte) (port : Fin 2) (s : State) : Host.Outcome State Fault Refusal :=
  .next (sessionInit hostPub port.val s)

/-- SESSION_CONFIRM; `sigOk` says whether HOST_SIG verifies. -/
def execSessionConfirm (h : Hdr) (sigOk : Bool) (s : State) : Host.Outcome State Fault Refusal := .next (sessionConfirm h sigOk s)

/-- HANDSHAKE_TIMEOUT. -/
def execHandshakeTimeout (slot : Fin 8) (s : State) : Host.Outcome State Fault Refusal := .next (handshakeTimeout slot.val s)

/-- CLOSE of a host. -/
def execClose (h : Hdr) (s : State) : Host.Outcome State Fault Refusal := .next (kctRequest h .close s)

/-- ACK of a host. -/
def execAck (h : Hdr) (s : State) : Host.Outcome State Fault Refusal := .next (onSession h (fun k s => drainSess k 64 s) s)

/-- READ_REG. -/
def execReadReg (h : Hdr) (addr count : Nat) (s : State) : Host.Outcome State Fault Refusal := .next (kctRequest h (.readReg addr count) s)

/-- WRITE_REG. -/
def execWriteReg (h : Hdr) (addr : Nat) (values : List Word) (obs : WriteObs) (s : State) : Host.Outcome State Fault Refusal :=
  .next (kctRequest h (.writeReg obs addr values) s)

/-- READ_MEM. -/
def execReadMem (h : Hdr) (addr len : Nat) (s : State) : Host.Outcome State Fault Refusal := .next (kctRequest h (.readMem addr len) s)

/-- WRITE_MEM. -/
def execWriteMem (h : Hdr) (addr : Nat) (data : List Byte) (s : State) : Host.Outcome State Fault Refusal :=
  .next (kctRequest h (.writeMem addr data) s)

/-- CLAIM. -/
def execClaim (h : Hdr) (s : State) : Host.Outcome State Fault Refusal := .next (kctRequest h .claim s)

/-- HEARTBEAT. -/
def execHeartbeat (h : Hdr) (s : State) : Host.Outcome State Fault Refusal := .next (kctRequest h .heartbeat s)

/-- HANDOVER. -/
def execHandover (h : Hdr) (successor : Word) (s : State) : Host.Outcome State Fault Refusal := .next (kctRequest h (.handover successor) s)

/-- ACCEPT. -/
def execAccept (h : Hdr) (s : State) : Host.Outcome State Fault Refusal := .next (kctRequest h .accept s)

/-- RELEASE. -/
def execRelease (h : Hdr) (s : State) : Host.Outcome State Fault Refusal := .next (kctRequest h .release s)

/-- STREAM_OPEN. -/
def execStreamOpen (h : Hdr) (p : StreamReq) (s : State) : Host.Outcome State Fault Refusal := .next (kctRequest h (.streamOpen p) s)

/-- STREAM_CREDIT. -/
def execStreamCredit (h : Hdr) (stream credit : Nat) (s : State) : Host.Outcome State Fault Refusal :=
  .next (kctRequest h (.streamCredit stream credit) s)

/-- STREAM_CLOSE. -/
def execStreamClose (h : Hdr) (stream : Nat) (s : State) : Host.Outcome State Fault Refusal := .next (kctRequest h (.streamClose stream) s)

/-- STREAM_DATA_SEND. -/
def execStreamDataSend (stream : Nat) (s : State) : Host.Outcome State Fault Refusal := .next (streamSend stream s)

/-- RETRANSMIT_TIMER. -/
def execRetransmitTimer (slot : Fin 8) (seq : Nat) (s : State) : Host.Outcome State Fault Refusal := .next (retransmit slot.val seq s)

/-- SESSION_IDLE_TIMEOUT. -/
def execSessionIdleTimeout (slot : Fin 8) (s : State) : Host.Outcome State Fault Refusal :=
  .next (if sessOpen s slot.val then closeSession slot.val s else s)

/-- LEASE_EXPIRY (R572, R585). -/
def execLeaseExpiry (s : State) : Host.Outcome State Fault Refusal := .next (vacate s)

/-- ELECTION_CLOSE. -/
def execElectionClose (s : State) : Host.Outcome State Fault Refusal := .next (electionClose s)

/-- HANDOVER_LAPSE: 1.0 s passes without an ACCEPT (R573). -/
def execHandoverLapse (s : State) : Host.Outcome State Fault Refusal := .next (if s.net.offer.isSome then lapseOffer s else s)

/-- PORT_RATE_TIMEOUT. -/
def execPortRateTimeout (port : Fin 2) (s : State) : Host.Outcome State Fault Refusal :=
  .next (if s.pwr.mgmt && !s.pwr.inReset then portTimeout port.val s else s)

/-- PORT_LINK_LOSS. -/
def execPortLinkLoss (port : Fin 2) (s : State) : Host.Outcome State Fault Refusal := .next (portLoss port.val s)

/-- PORT_LINK_UP. -/
def execPortLinkUp (port : Fin 2) (s : State) : Host.Outcome State Fault Refusal :=
  .next (if s.pwr.mgmt && !s.pwr.inReset then portUp port.val s else s)

/-- ETH_FRAME_RX. -/
def execEthFrameRx (port : Fin 2) (f : EthFrame) (s : State) : Host.Outcome State Fault Refusal :=
  .next (if portListens s port.val then ethFrame port.val f s else s)

/-- PORT_CFG_WRITE. -/
def execPortCfgWrite (q : Req) (addr : Nat) (value : Word) (s : State) : Host.Outcome State Fault Refusal :=
  .next (guarded q addr value (portCfgWrite addr value) s)

/-- HOST_TABLE_WRITE. -/
def execHostTableWrite (q : Req) (s : State) : Host.Outcome State Fault Refusal :=
  .next (guarded q Reg.NET_HOST_CMD 1 hostWriteEntry s)

/-- HOST_TABLE_CLEAR. -/
def execHostTableClear (q : Req) (s : State) : Host.Outcome State Fault Refusal :=
  .next (guarded q Reg.NET_HOST_CMD 2 hostClearEntry s)

/-- HOST_TABLE_READ. -/
def execHostTableRead (q : Req) (s : State) : Host.Outcome State Fault Refusal :=
  .next (guarded q Reg.NET_HOST_CMD 3 hostReadEntry s)

end Sys2Proof.Machine
end

