-- ==== Sys2Proof/Machine/Events.lean ====
section
/-! DEFINITION. Accesses through the debug access port (R657 to R662), and the rows whose effect reaches a host request that waits:
register writes, the switch point of a load, and what the companion lanes bring. -/

namespace Sys2Proof.Machine

open Sys2Proof

/-! ### Debug access -/

/-- The registers that a debugger at OBSERVE reads in RETIRED: identity, attestation and telemetry (R668). -/
def retiredReadable (a : Nat) : Bool := [0x00, 0x65, 0x66, 0x67].contains (blockOf a)

/-- The refusals of a debugger's write: R19 without BAD_AUTH, NOT_OWNER and STALE_EPOCH, then FLT_GRAVE (R615, R662). -/
def dapRefusal (a : Nat) (v : Word) (s : State) : Option Nat :=
  if a % 4 ≠ 0 || !(mappedWrite s a) then some stBadAddr
  else if inExpertHalf a && !(expertOn s a) then some stExpertOff
  else if (match rowOf a with | some r => targetsLocked r v | none => false) && blockRuns s a then some stLocked
  else if s.flt.grave && a ≠ Reg.FLT_ALERT then some stFltGrave
  else none

/-- The writes that a debugger at OBSERVE may make (R647). -/
def attestWrite (a : Nat) (v : Word) : Bool :=
  (decide (Reg.SEC_ATT_NONCE 0 ≤ a) && decide (a ≤ Reg.SEC_ATT_NONCE 7)) || (a == Reg.SEC_CMD && fld v 7 0 == 7)

/-- A write that a debugger's level permits (R662). -/
def dapApply (a : Nat) (v : Word) (o : WriteObs) (s : State) : State :=
  match dapRefusal a v s with
  | some code => answer code s
  | none => regWrite { slot := 0, authOk := true, epoch := 0 } o a v s

/-- A debugger's register write (R647, R657 to R662, R681). -/
def dapWrite (a : Nat) (v : Word) (o : WriteObs) (s : State) : State :=
  if a = Reg.DBG_REQ then debugRequest (fld v 1 0) (bit v 8) o.token s
  else if dapOnly a then
    if a % 4 ≠ 0 then answer stBadAddr s
    else if s.sec.state == .retired || s.pwr.state == .detached then answer stSecState s
    else answer stOk (setReg a v s)
  else if s.dbg.level = 1 then (if attestWrite a v then dapApply a v o s else answer stDebugActive s)
  else if s.dbg.level = 2 then
    if a == Reg.SEC_CMD && fld v 7 0 != 7 && !(s.sec.state == .blank || s.sec.state == .open_) then answer stSecState s
    else dapApply a v o s
  else answer stDebugActive s

/-- A debugger's register read (R657, R668). -/
def dapRead (a : Nat) (s : State) : State :=
  if s.dbg.level = 0 then answer stDebugActive s
  else if a % 4 ≠ 0 || !(mappedRead s a) then answer stBadAddr s
  else if s.sec.state == .retired && !(retiredReadable a) then answer stSecState s
  else
    let (w, s) := readReg a s
    answerData w s

/-- A debugger's memory read (R657, R668). -/
def dapReadMem (a n : Nat) (s : State) : State :=
  if s.dbg.level = 0 then answer stDebugActive s
  else if s.sec.state == .retired then answer stSecState s
  else
    let (code, ws, s) := memRead a n 0 s
    { s with ans := { status := code, done := 0, data := ws } }

/-- A debugger's memory write, executed as the owner's (R662). -/
def dapWriteMem (a : Nat) (bs : List Byte) (s : State) : State :=
  if s.dbg.level ≠ 2 then answer stDebugActive s
  else
    let (code, s) := memWrite true a bs 0 s
    answer code s

/-- A register of a halted core, low half first (R515, R662). -/
def dapReadCore (k r : Nat) (s : State) : State :=
  if intrusive s 1 && (coreOf s k).halted then
    let v := if r = 32 then (coreOf s k).pc else if r = 0 then 0 else tget (fun _ => 0) (coreOf s k).x r
    { s with ans := { status := stOk, done := 2, data := [v.setWidth 32, (v >>> 32).setWidth 32] } }
  else answer stDebugActive s

/-- The TAP instruction DAP is loaded and one access is made (R657, R663). -/
def dapAccess (x : DapAccess) (s : State) : State :=
  if s.pwr.state = .off then s
  else
    let s := loadTap .dap true s
    match x with
    | .select => s
    | .readReg a => dapRead a s
    | .writeReg a v o => dapWrite a v o s
    | .readMem a n => dapReadMem a n s
    | .writeMem a bs => dapWriteMem a bs s
    | .readCore k r => dapReadCore k.val r.val s

/-! ### What a codeword brings -/

/-- Whether a codeword at the pins delivers pin results: a DATA frame that decodes, on an ACTIVE lane. -/
def bringsResults (s : State) (g l w : Nat) : Bool :=
  laneState s g l == 4 &&
  (match rsDecode ((receiveBits g l frameLen w s).1 % 2 ^ 4880) with
   | some (data, _) => (frameOfData data).typ == 1
   | none => false)

/-- The copies of the compare stage, the intake and the time-code conversion judge the results of a frame (R302, R351, R402). -/
def judgeCopies (g : Nat) (cmp intake tdc : Copies) (s : State) : State :=
  copiesRun 0x08 0 tdc (copiesRun 0x05 g intake (copiesRun 0x06 0 cmp s))

/-! ### Meanings -/

/-- REGISTER_WRITE. -/
def execRegisterWrite (q : Req) (addr : Nat) (value : Word) (obs : WriteObs) (s : State) : Host.Outcome State Fault Refusal :=
  .next (resume (hostWrite q obs addr value s))

/-- JTAG_DAP. -/
def execJtagDap (a : DapAccess) (s : State) : Host.Outcome State Fault Refusal := .next (resume (dapAccess a s))

/-- LOAD_SWITCH_POINT; the operands say whether the core image could be read from the library, at first or with parity reconstruction
(R481, R495). -/
def execLoadSwitchPoint (coreRead coreReread : Bool) (s : State) : Host.Outcome State Fault Refusal :=
  .next (resume (loadSwitch (coreRead || coreReread) s))

/-- TRAINING_FRAME_RX: the control, status and check words of a received frame, and what the receiver wants of the partner's taps. -/
def execTrainingFrameRx (g : Fin 16) (lane : LaneId) (control status : Word) (check : BitVec 16) (steer : Nat) (s : State) :
    Host.Outcome State Fault Refusal :=
  .next (trainingRx g.val (laneNum lane) control.toNat status.toNat check.toNat steer s)

/-- RX_READY_SET. -/
def execRxReadySet (g : Fin 16) (lane : LaneId) (errors dfeTap mainCursor : Nat) (s : State) : Host.Outcome State Fault Refusal :=
  .next (rxReady g.val (laneNum lane) errors dfeTap mainCursor s)

/-- LANE_DETECT_EXIT. -/
def execLaneDetectExit (g : Fin 16) (lane : LaneId) (inverted : Bool) (s : State) : Host.Outcome State Fault Refusal :=
  .next (detectExit g.val (laneNum lane) inverted s)

/-- LANE_EXCHANGE_ACCEPT; the operands are the arrivals of equal frames on both lanes in ps, from which the skew comes (R118). A load that
waits for its groups may be complete (R61). -/
def execLaneExchangeAccept (g : Fin 16) (lane : LaneId) (aPs bPs : Int) (s : State) : Host.Outcome State Fault Refusal :=
  .next (resume (checkLoadDone (exchangeAccept g.val (laneNum lane) (bPs - aPs) s)))

/-- LANE_STATE_TIMEOUT. -/
def execLaneStateTimeout (g : Fin 16) (lane : LaneId) (s : State) : Host.Outcome State Fault Refusal :=
  .next (stateTimeout g.val (laneNum lane) s)

/-- SQUELCH_END. -/
def execSquelchEnd (g : Fin 16) (lane : LaneId) (s : State) : Host.Outcome State Fault Refusal :=
  .next (squelchEnd g.val (laneNum lane) s)

/-- LANE_SIGNAL_LOST. -/
def execLaneSignalLost (g : Fin 16) (lane : LaneId) (s : State) : Host.Outcome State Fault Refusal :=
  .next (resume (signalLost g.val (laneNum lane) s))

/-- The word of LNK_PHY_CMD with RETRAIN or EYE bits from bit `k` up. -/
def phyWord (k : Nat) (a b : Bool) : Word := wd (2 ^ k * (b2n a + 2 * b2n b))

/-- RETRAIN. -/
def execRetrain (q : Req) (g : Fin 16) (laneA laneB : Bool) (s : State) : Host.Outcome State Fault Refusal :=
  .next (resume (guarded q (Reg.LNK_PHY_CMD g.val) (phyWord 0 laneA laneB) (phyCommand g.val (phyWord 0 laneA laneB)) s))

/-- EYE_SCAN_CMD. -/
def execEyeScanCmd (q : Req) (g : Fin 16) (laneA laneB : Bool) (s : State) : Host.Outcome State Fault Refusal :=
  .next (guarded q (Reg.LNK_PHY_CMD g.val) (phyWord 2 laneA laneB) (phyCommand g.val (phyWord 2 laneA laneB)) s)

/-- EYE_SCAN_PERIODIC: Pavane scans a lane while both lanes of the group are ACTIVE (R90, R126). -/
def execEyeScanPeriodic (g : Fin 16) (lane : LaneId) (s : State) : Host.Outcome State Fault Refusal :=
  .next (if laneActive s g.val 0 && laneActive s g.val 1 then startScan g.val (laneNum lane) s else s)

/-- EYE_SCAN_POINT_DONE. -/
def execEyeScanPointDone (g : Fin 16) (lane : LaneId) (open_ : Bool) (s : State) : Host.Outcome State Fault Refusal :=
  .next (eyePointIn g.val (laneNum lane) open_ s)

/-- EYE_RSP_TIMEOUT. -/
def execEyeRspTimeout (g : Fin 16) (lane : LaneId) (s : State) : Host.Outcome State Fault Refusal :=
  .next (eyeTimeout g.val (laneNum lane) s)

/-- PHY_XCTRL_WRITE. -/
def execPhyXctrlWrite (q : Req) (g : Fin 16) (lane : LaneId) (value : Word) (s : State) : Host.Outcome State Fault Refusal :=
  .next (resume (guarded q (xctrlOf g.val (laneNum lane)) value (xctrlWrite g.val (laneNum lane) value) s))

/-- TXFFE_MAN_WRITE. -/
def execTxffeManWrite (q : Req) (g : Fin 16) (lane : LaneId) (value : Word) (s : State) : Host.Outcome State Fault Refusal :=
  .next (resume (guarded q (txffeManOf g.val (laneNum lane)) value (manualWrite g.val (laneNum lane) value) s))

/-- BERT_CTRL_WRITE. -/
def execBertCtrlWrite (q : Req) (g : Fin 16) (value : Word) (s : State) : Host.Outcome State Fault Refusal :=
  .next (guarded q (Reg.LNK_BERT_CTRL g.val) value (bertWrite g.val value) s)

/-- INWARD_CODEWORD: 16 symbols where a marker is due and the 2,440 of a codeword, as they stand at the pins with the first the most
significant; `t4` is the instant the marker arrives. -/
def execInwardCodeword (g : Fin 16) (lane : LaneId) (marker : Word) (codeword : BitVec 4880) (t4 : Nat) (cmp intake tdc : Copies)
    (s : State) : Host.Outcome State Fault Refusal :=
  let w := marker.toNat * 2 ^ 4880 + codeword.toNat
  let r := inwardCodeword g.val (laneNum lane) w t4 s
  .next (resume (checkLoadDone (if bringsResults s g.val (laneNum lane) w then judgeCopies g.val cmp intake tdc r else r)))

/-- FILLER_WORD_RX. -/
def execFillerWordRx (g : Fin 16) (lane : LaneId) (word : Word) (s : State) : Host.Outcome State Fault Refusal :=
  .next (resume (fillerWord g.val (laneNum lane) word.toNat s))

end Sys2Proof.Machine
end

