-- ==== Sys2Proof/Machine/Dispatch.lean ====
section
/-! DEFINITION. The dispatch: one arm per command of the table, each a direct call of that command's meaning. -/

namespace Sys2Proof.Machine

open Sys2Proof

def exec (i : Instr) (s : State) : Host.Outcome State Fault Refusal :=
  match i with
  | .registerWrite q addr value obs => Sys2Proof.Machine.execRegisterWrite q addr value obs s
  | .resetRelease straps stable boot => Sys2Proof.Machine.execResetRelease straps stable boot s
  | .vinRise => Sys2Proof.Machine.execVinRise s
  | .vinUvlo => Sys2Proof.Machine.execVinUvlo s
  | .vinOvervoltage => Sys2Proof.Machine.execVinOvervoltage s
  | .currentLimitHeld => Sys2Proof.Machine.execCurrentLimitHeld s
  | .railOutOfRange => Sys2Proof.Machine.execRailOutOfRange s
  | .imgVerify q slot => Sys2Proof.Machine.execImgVerify q slot s
  | .imgLoad q slot => Sys2Proof.Machine.execImgLoad q slot s
  | .loadAuto q => Sys2Proof.Machine.execLoadAuto q s
  | .loadDrainMet obsA obsB => Sys2Proof.Machine.execLoadDrainMet obsA obsB s
  | .loadDrainTimeout => Sys2Proof.Machine.execLoadDrainTimeout s
  | .loadSwitchPoint coreRead coreReread => Sys2Proof.Machine.execLoadSwitchPoint coreRead coreReread s
  | .loadRetrainTimeout => Sys2Proof.Machine.execLoadRetrainTimeout s
  | .beatWindowEnd ppm gapOk => Sys2Proof.Machine.execBeatWindowEnd ppm gapOk s
  | .beatLoss => Sys2Proof.Machine.execBeatLoss s
  | .returnToBeat => Sys2Proof.Machine.execReturnToBeat s
  | .xoFailure => Sys2Proof.Machine.execXoFailure s
  | .slackWindowEnd obs => Sys2Proof.Machine.execSlackWindowEnd obs s
  | .beatCountRead q => Sys2Proof.Machine.execBeatCountRead q s
  | .pavanePeriodMiss job => Sys2Proof.Machine.execPavanePeriodMiss job s
  | .telemetrySample obs => Sys2Proof.Machine.execTelemetrySample obs s
  | .trainingFrameRx g lane control status check steer => Sys2Proof.Machine.execTrainingFrameRx g lane control status check steer s
  | .rxReadySet g lane errors dfeTap mainCursor => Sys2Proof.Machine.execRxReadySet g lane errors dfeTap mainCursor s
  | .laneDetectExit g lane inverted => Sys2Proof.Machine.execLaneDetectExit g lane inverted s
  | .laneExchangeAccept g lane aPs bPs => Sys2Proof.Machine.execLaneExchangeAccept g lane aPs bPs s
  | .laneStateTimeout g lane => Sys2Proof.Machine.execLaneStateTimeout g lane s
  | .squelchEnd g lane => Sys2Proof.Machine.execSquelchEnd g lane s
  | .laneSignalLost g lane => Sys2Proof.Machine.execLaneSignalLost g lane s
  | .retrain q g laneA laneB => Sys2Proof.Machine.execRetrain q g laneA laneB s
  | .eyeScanCmd q g laneA laneB => Sys2Proof.Machine.execEyeScanCmd q g laneA laneB s
  | .eyeScanPeriodic g lane => Sys2Proof.Machine.execEyeScanPeriodic g lane s
  | .eyeScanPointDone g lane open_ => Sys2Proof.Machine.execEyeScanPointDone g lane open_ s
  | .eyeRspTimeout g lane => Sys2Proof.Machine.execEyeRspTimeout g lane s
  | .phyXctrlWrite q g lane value => Sys2Proof.Machine.execPhyXctrlWrite q g lane value s
  | .txffeManWrite q g lane value => Sys2Proof.Machine.execTxffeManWrite q g lane value s
  | .bertCtrlWrite q g value => Sys2Proof.Machine.execBertCtrlWrite q g value s
  | .frameSend g t1 => Sys2Proof.Machine.execFrameSend g t1 s
  | .idleFrameTimer g t1 => Sys2Proof.Machine.execIdleFrameTimer g t1 s
  | .inwardCodeword g lane marker codeword t4 cmp intake tdc => Sys2Proof.Machine.execInwardCodeword g lane marker codeword t4 cmp intake tdc s
  | .fillerWordRx g lane word => Sys2Proof.Machine.execFillerWordRx g lane word s
  | .probePeriod g => Sys2Proof.Machine.execProbePeriod g s
  | .cntAlignTimeout g => Sys2Proof.Machine.execCntAlignTimeout g s
  | .frameInject q g value => Sys2Proof.Machine.execFrameInject q g value s
  | .frXctrlWrite q g value => Sys2Proof.Machine.execFrXctrlWrite q g value s
  | .stepStart q at_ => Sys2Proof.Machine.execStepStart q at_ s
  | .stepAbort q => Sys2Proof.Machine.execStepAbort q s
  | .stepListResident => Sys2Proof.Machine.execStepListResident s
  | .stepVectorZero => Sys2Proof.Machine.execStepVectorZero s
  | .stepEnd => Sys2Proof.Machine.execStepEnd s
  | .seqPlay c => Sys2Proof.Machine.execSeqPlay c s
  | .seqPlayn c => Sys2Proof.Machine.execSeqPlayn c s
  | .seqLoop c => Sys2Proof.Machine.execSeqLoop c s
  | .seqEndloop c => Sys2Proof.Machine.execSeqEndloop c s
  | .seqCall c => Sys2Proof.Machine.execSeqCall c s
  | .seqRet c => Sys2Proof.Machine.execSeqRet c s
  | .seqJump c => Sys2Proof.Machine.execSeqJump c s
  | .seqJumpc c => Sys2Proof.Machine.execSeqJumpc c s
  | .seqMatch c => Sys2Proof.Machine.execSeqMatch c s
  | .seqWaitt c => Sys2Proof.Machine.execSeqWaitt c s
  | .seqWaittime c => Sys2Proof.Machine.execSeqWaittime c s
  | .seqTset c => Sys2Proof.Machine.execSeqTset c s
  | .seqSignal c => Sys2Proof.Machine.execSeqSignal c s
  | .seqStage c => Sys2Proof.Machine.execSeqStage c s
  | .seqSitemask c => Sys2Proof.Machine.execSeqSitemask c s
  | .seqHold c => Sys2Proof.Machine.execSeqHold c s
  | .seqHalt c => Sys2Proof.Machine.execSeqHalt c s
  | .jumpEffect c => Sys2Proof.Machine.execJumpEffect c s
  | .matchLeave c => Sys2Proof.Machine.execMatchLeave c s
  | .waittRelease c => Sys2Proof.Machine.execWaittRelease c s
  | .waittTimeout c => Sys2Proof.Machine.execWaittTimeout c s
  | .waittimeEnd c => Sys2Proof.Machine.execWaittimeEnd c s
  | .residencyHoldEnd c => Sys2Proof.Machine.execResidencyHoldEnd c s
  | .microwordExecute c copies => Sys2Proof.Machine.execMicrowordExecute c copies s
  | .microTrap c => Sys2Proof.Machine.execMicroTrap c s
  | .contextFault c correctable => Sys2Proof.Machine.execContextFault c correctable s
  | .contextTakeoverDone c => Sys2Proof.Machine.execContextTakeoverDone c s
  | .tstCommit q g => Sys2Proof.Machine.execTstCommit q g s
  | .tstRead q g => Sys2Proof.Machine.execTstRead q g s
  | .writeRaw q g => Sys2Proof.Machine.execWriteRaw q g s
  | .calLin q g force => Sys2Proof.Machine.execCalLin q g force s
  | .calDeskew q g force => Sys2Proof.Machine.execCalDeskew q g force s
  | .scheduledLinCal g k => Sys2Proof.Machine.execScheduledLinCal g k s
  | .linCalComplete g k obs => Sys2Proof.Machine.execLinCalComplete g k obs s
  | .deskewComplete g k obs => Sys2Proof.Machine.execDeskewComplete g k obs s
  | .calAgeExpiry g k => Sys2Proof.Machine.execCalAgeExpiry g k s
  | .tsetWrite q g value => Sys2Proof.Machine.execTsetWrite q g value s
  | .periodWrite q g value => Sys2Proof.Machine.execPeriodWrite q g value s
  | .modeWrite q g r value => Sys2Proof.Machine.execModeWrite q g r value s
  | .linDataWrite q g value => Sys2Proof.Machine.execLinDataWrite q g value s
  | .linDataRead q g => Sys2Proof.Machine.execLinDataRead q g s
  | .cmpLogRdWrite q value => Sys2Proof.Machine.execCmpLogRdWrite q value s
  | .cmpLogConfigWrite q which value => Sys2Proof.Machine.execCmpLogConfigWrite q which value s
  | .failInject q value => Sys2Proof.Machine.execFailInject q value s
  | .measureOutput c residue copies => Sys2Proof.Machine.execMeasureOutput c residue copies s
  | .xchSetWrite q c which value => Sys2Proof.Machine.execXchSetWrite q c which value s
  | .coefDataWrite q value => Sys2Proof.Machine.execCoefDataWrite q value s
  | .coefDataRead q => Sys2Proof.Machine.execCoefDataRead q s
  | .chainWrite q c isRho value => Sys2Proof.Machine.execChainWrite q c isRho value s
  | .targetWrite q c value => Sys2Proof.Machine.execTargetWrite q c value s
  | .sourceVector c overload copies => Sys2Proof.Machine.execSourceVector c overload copies s
  | .playlistWaitRelease c => Sys2Proof.Machine.execPlaylistWaitRelease c s
  | .ncoFreqWrite q value => Sys2Proof.Machine.execNcoFreqWrite q value s
  | .tdcQRdWrite q c value => Sys2Proof.Machine.execTdcQRdWrite q c value s
  | .calCd q g force => Sys2Proof.Machine.execCalCd q g force s
  | .scheduledCdCal g k => Sys2Proof.Machine.execScheduledCdCal g k s
  | .cdCalComplete g k obs => Sys2Proof.Machine.execCdCalComplete g k obs s
  | .binDataWrite q value => Sys2Proof.Machine.execBinDataWrite q value s
  | .binDataRead q => Sys2Proof.Machine.execBinDataRead q s
  | .binTableStale c => Sys2Proof.Machine.execBinTableStale c s
  | .lineAct l t copies => Sys2Proof.Machine.execLineAct l t copies s
  | .trgFire q value => Sys2Proof.Machine.execTrgFire q value s
  | .lineSrcWrite q l hi value => Sys2Proof.Machine.execLineSrcWrite q l hi value s
  | .acqRRdWrite q a r value => Sys2Proof.Machine.execAcqRRdWrite q a r value s
  | .qtReceived k off cs => Sys2Proof.Machine.execQtReceived k off cs s
  | .qtAct k => Sys2Proof.Machine.execQtAct k s
  | .todFrame frame age => Sys2Proof.Machine.execTodFrame frame age s
  | .qdHeartbeat u word => Sys2Proof.Machine.execQdHeartbeat u word s
  | .peerAbsent u => Sys2Proof.Machine.execPeerAbsent u s
  | .faultBroadcastRx u seen => Sys2Proof.Machine.execFaultBroadcastRx u seen s
  | .hintsRx leader tag => Sys2Proof.Machine.execHintsRx leader tag s
  | .listenEnd delays => Sys2Proof.Machine.execListenEnd delays s
  | .leaderTimeout => Sys2Proof.Machine.execLeaderTimeout s
  | .claimBackoffEnd => Sys2Proof.Machine.execClaimBackoffEnd s
  | .qdCellMismatch q => Sys2Proof.Machine.execQdCellMismatch q s
  | .rejoin q => Sys2Proof.Machine.execRejoin q s
  | .hbmCorrectedError st addr => Sys2Proof.Machine.execHbmCorrectedError st addr s
  | .hbmUncorrectable st addr copied => Sys2Proof.Machine.execHbmUncorrectable st addr copied s
  | .pcFence st n => Sys2Proof.Machine.execPcFence st n s
  | .spareCopyComplete unread => Sys2Proof.Machine.execSpareCopyComplete unread s
  | .hbmTempRefresh st hot => Sys2Proof.Machine.execHbmTempRefresh st hot s
  | .memObjBaseWrite q hi value => Sys2Proof.Machine.execMemObjBaseWrite q hi value s
  | .memInject q value => Sys2Proof.Machine.execMemInject q value s
  | .libCreate q => Sys2Proof.Machine.execLibCreate q s
  | .libWrite q => Sys2Proof.Machine.execLibWrite q s
  | .libRead q => Sys2Proof.Machine.execLibRead q s
  | .libDelete q => Sys2Proof.Machine.execLibDelete q s
  | .libStage q => Sys2Proof.Machine.execLibStage q s
  | .libEvict q => Sys2Proof.Machine.execLibEvict q s
  | .libInfo q => Sys2Proof.Machine.execLibInfo q s
  | .libCancel q => Sys2Proof.Machine.execLibCancel q s
  | .writeUnitCommit => Sys2Proof.Machine.execWriteUnitCommit s
  | .libCmdComplete obs => Sys2Proof.Machine.execLibCmdComplete obs s
  | .stagingComplete => Sys2Proof.Machine.execStagingComplete s
  | .stageFailed id digest => Sys2Proof.Machine.execStageFailed id digest s
  | .patrolPass corrected => Sys2Proof.Machine.execPatrolPass corrected s
  | .blockRetire block => Sys2Proof.Machine.execBlockRetire block s
  | .dieFailure die set lost => Sys2Proof.Machine.execDieFailure die set lost s
  | .fenceRel k => Sys2Proof.Machine.execFenceRel k s
  | .fenceAcq k => Sys2Proof.Machine.execFenceAcq k s
  | .tnext k r => Sys2Proof.Machine.execTnext k r s
  | .tdone k r1 => Sys2Proof.Machine.execTdone k r1 s
  | .tsubmit k r r1 => Sys2Proof.Machine.execTsubmit k r r1 s
  | .tyield k => Sys2Proof.Machine.execTyield k s
  | .schSubGo q => Sys2Proof.Machine.execSchSubGo q s
  | .templateRetry => Sys2Proof.Machine.execTemplateRetry s
  | .dispatchPlacement copies => Sys2Proof.Machine.execDispatchPlacement copies s
  | .preemptLate k => Sys2Proof.Machine.execPreemptLate k s
  | .flush q l => Sys2Proof.Machine.execFlush q l s
  | .schFlowRdWrite q f value => Sys2Proof.Machine.execSchFlowRdWrite q f value s
  | .coreMismatch k => Sys2Proof.Machine.execCoreMismatch k s
  | .coreTakeoverDone k => Sys2Proof.Machine.execCoreTakeoverDone k s
  | .dmaStart q c => Sys2Proof.Machine.execDmaStart q c s
  | .dmaStop q c => Sys2Proof.Machine.execDmaStop q c s
  | .dmaMove c => Sys2Proof.Machine.execDmaMove c s
  | .dmaLoop c => Sys2Proof.Machine.execDmaLoop c s
  | .dmaWait c => Sys2Proof.Machine.execDmaWait c s
  | .dmaWaitPoll c => Sys2Proof.Machine.execDmaWaitPoll c s
  | .dmaWaitTimeout c => Sys2Proof.Machine.execDmaWaitTimeout c s
  | .dmaSignal c => Sys2Proof.Machine.execDmaSignal c s
  | .dmaEnd c => Sys2Proof.Machine.execDmaEnd c s
  | .dmaNop c => Sys2Proof.Machine.execDmaNop c s
  | .dmaBurstGrant spent copies => Sys2Proof.Machine.execDmaBurstGrant spent copies s
  | .dmaWriteAnswer c beat ok => Sys2Proof.Machine.execDmaWriteAnswer c beat ok s
  | .dmaReadError c => Sys2Proof.Machine.execDmaReadError c s
  | .dmaCompletionRecord c => Sys2Proof.Machine.execDmaCompletionRecord c s
  | .dmaCqRdWrite q value => Sys2Proof.Machine.execDmaCqRdWrite q value s
  | .dmaEngineFault c => Sys2Proof.Machine.execDmaEngineFault c s
  | .sessionInit hostPub port => Sys2Proof.Machine.execSessionInit hostPub port s
  | .sessionConfirm h sigOk => Sys2Proof.Machine.execSessionConfirm h sigOk s
  | .handshakeTimeout slot => Sys2Proof.Machine.execHandshakeTimeout slot s
  | .close h => Sys2Proof.Machine.execClose h s
  | .ack h => Sys2Proof.Machine.execAck h s
  | .readReg h addr count => Sys2Proof.Machine.execReadReg h addr count s
  | .writeReg h addr values obs => Sys2Proof.Machine.execWriteReg h addr values obs s
  | .readMem h addr len => Sys2Proof.Machine.execReadMem h addr len s
  | .writeMem h addr data => Sys2Proof.Machine.execWriteMem h addr data s
  | .claim h => Sys2Proof.Machine.execClaim h s
  | .heartbeat h => Sys2Proof.Machine.execHeartbeat h s
  | .handover h successor => Sys2Proof.Machine.execHandover h successor s
  | .accept h => Sys2Proof.Machine.execAccept h s
  | .release h => Sys2Proof.Machine.execRelease h s
  | .streamOpen h p => Sys2Proof.Machine.execStreamOpen h p s
  | .streamCredit h stream credit => Sys2Proof.Machine.execStreamCredit h stream credit s
  | .streamClose h stream => Sys2Proof.Machine.execStreamClose h stream s
  | .streamDataSend stream => Sys2Proof.Machine.execStreamDataSend stream s
  | .retransmitTimer slot seq => Sys2Proof.Machine.execRetransmitTimer slot seq s
  | .sessionIdleTimeout slot => Sys2Proof.Machine.execSessionIdleTimeout slot s
  | .leaseExpiry => Sys2Proof.Machine.execLeaseExpiry s
  | .electionClose => Sys2Proof.Machine.execElectionClose s
  | .handoverLapse => Sys2Proof.Machine.execHandoverLapse s
  | .portRateTimeout port => Sys2Proof.Machine.execPortRateTimeout port s
  | .portLinkLoss port => Sys2Proof.Machine.execPortLinkLoss port s
  | .ethFrameRx port f => Sys2Proof.Machine.execEthFrameRx port f s
  | .portCfgWrite q addr value => Sys2Proof.Machine.execPortCfgWrite q addr value s
  | .sysReset q boot => Sys2Proof.Machine.execSysReset q boot s
  | .sysDetach q => Sys2Proof.Machine.execSysDetach q s
  | .install q target => Sys2Proof.Machine.execInstall q target s
  | .reboot q boot => Sys2Proof.Machine.execReboot q boot s
  | .hostTableWrite q => Sys2Proof.Machine.execHostTableWrite q s
  | .hostTableClear q => Sys2Proof.Machine.execHostTableClear q s
  | .hostTableRead q => Sys2Proof.Machine.execHostTableRead q s
  | .incCommit q d value => Sys2Proof.Machine.execIncCommit q d value s
  | .ptpStep q d => Sys2Proof.Machine.execPtpStep q d s
  | .ptpSet q d => Sys2Proof.Machine.execPtpSet q d s
  | .ptpInvalidate q d => Sys2Proof.Machine.execPtpInvalidate q d s
  | .ptpCtrlWrite q value => Sys2Proof.Machine.execPtpCtrlWrite q value s
  | .slewEnd => Sys2Proof.Machine.execSlewEnd s
  | .ptpModeChange => Sys2Proof.Machine.execPtpModeChange s
  | .ptpRx port domain tagged frame => Sys2Proof.Machine.execPtpRx port domain tagged frame s
  | .ptpLqWrWrite q p value => Sys2Proof.Machine.execPtpLqWrWrite q p value s
  | .launchSend p => Sys2Proof.Machine.execLaunchSend p s
  | .ptpSnapCmd q => Sys2Proof.Machine.execPtpSnapCmd q s
  | .ptpTimeRead q which => Sys2Proof.Machine.execPtpTimeRead q which s
  | .faultReport cls unitClass unit cause detail0 detail1 => Sys2Proof.Machine.execFaultReport cls unitClass unit cause detail0 detail1 s
  | .wireFault unitClass unit => Sys2Proof.Machine.execWireFault unitClass unit s
  | .faultHandle => Sys2Proof.Machine.execFaultHandle s
  | .collectorSelfCheck agree passed => Sys2Proof.Machine.execCollectorSelfCheck agree passed s
  | .faultInject q value => Sys2Proof.Machine.execFaultInject q value s
  | .alertClear q value => Sys2Proof.Machine.execAlertClear q value s
  | .ledgerImbalance n left right out term => Sys2Proof.Machine.execLedgerImbalance n left right out term s
  | .ledgerDeadline n => Sys2Proof.Machine.execLedgerDeadline n s
  | .ledgerReadLatch q n => Sys2Proof.Machine.execLedgerReadLatch q n s
  | .standby q => Sys2Proof.Machine.execStandby q s
  | .wake q => Sys2Proof.Machine.execWake q s
  | .pwrDetach q => Sys2Proof.Machine.execPwrDetach q s
  | .detachNLow => Sys2Proof.Machine.execDetachNLow s
  | .detachPhaseAdvance => Sys2Proof.Machine.execDetachPhaseAdvance s
  | .detachTimeout => Sys2Proof.Machine.execDetachTimeout s
  | .detachNHighRestart boot => Sys2Proof.Machine.execDetachNHighRestart boot s
  | .galopOverrun => Sys2Proof.Machine.execGalopOverrun s
  | .provision q => Sys2Proof.Machine.execProvision q s
  | .sealDevice q => Sys2Proof.Machine.execSeal q s
  | .retire q => Sys2Proof.Machine.execRetire q s
  | .enroll q => Sys2Proof.Machine.execEnroll q s
  | .revoke q => Sys2Proof.Machine.execRevoke q s
  | .raiseSvn q => Sys2Proof.Machine.execRaiseSvn q s
  | .attest q => Sys2Proof.Machine.execAttest q s
  | .secCmdResult obs => Sys2Proof.Machine.execSecCmdResult obs s
  | .dbgReq level useToken obs => Sys2Proof.Machine.execDbgReq level useToken obs s
  | .dbgEnd q deny => Sys2Proof.Machine.execDbgEnd q deny s
  | .debugLifetimeExpiry => Sys2Proof.Machine.execDebugLifetimeExpiry s
  | .coreHalt k act => Sys2Proof.Machine.execCoreHalt k act s
  | .contextDebugHalt c => Sys2Proof.Machine.execContextDebugHalt c s
  | .jtagBypass => Sys2Proof.Machine.execJtagBypass s
  | .jtagIdcode => Sys2Proof.Machine.execJtagIdcode s
  | .samplePreload => Sys2Proof.Machine.execSamplePreload s
  | .extest => Sys2Proof.Machine.execExtest s
  | .jtagDap a => Sys2Proof.Machine.execJtagDap a s
  | .jtagToken bytes => Sys2Proof.Machine.execJtagToken bytes s
  | .tapReset => Sys2Proof.Machine.execTapReset s
  | .resetNLow => Sys2Proof.Machine.execResetNLow s
  | .portLinkUp port => Sys2Proof.Machine.execPortLinkUp port s
  | .quadrilleCycle => Sys2Proof.Machine.execQuadrilleCycle s
  | .beatEdgeLineSample l => Sys2Proof.Machine.execBeatEdgeLineSample l s
  | .verifyEnd obs => Sys2Proof.Machine.execVerifyEnd obs s
  | .loadCheckFailure => Sys2Proof.Machine.execLoadCheckFailure s
  | .stepAtPassed => Sys2Proof.Machine.execStepAtPassed s
  | .knownAnswerTestEnd unitClass unit failing => Sys2Proof.Machine.execKnownAnswerTestEnd unitClass unit failing s
  | .dieRebuildComplete set blocks => Sys2Proof.Machine.execDieRebuildComplete set blocks s
  | .wearBudgetHour => Sys2Proof.Machine.execWearBudgetHour s
  | .installDone obs => Sys2Proof.Machine.execInstallDone obs s

end Sys2Proof.Machine
end

