-- ==== Sys2Proof/Machine/Tick.lean ====
section
/-! DEFINITION. What one reference period brings when no command waits (notes/assumptions/1.md): the count of the time base (R66), the
domain counters, SIGNALs whose pin time has come (R199), XO_OK (R96), and the slew of network time (R590, R596), a change of time configuration that waits (R595), and the
requests of sessions that wait for nothing any more (R569). -/

namespace Sys2Proof.Machine

open Sys2Proof

/-- Losses of lanes whose frame period has passed are reported (R119, R122). -/
def lossesDue (s : State) : State := (List.range 16).foldl (fun s g => lossDue g s) s

/-- One reference period on a device whose rails are up. -/
def liveTick (s : State) : State :=
  let s := showXo (signalsDue (lossesDue (ptpTick { s with beat := s.beat + 1 })))
  resume (if rdBit s Reg.PTP_STATUS 7 then ptpEvaluate s else s)

/-- One reference period. -/
def tick (s : State) : State :=
  let s := { s with time := s.time + 1 }
  if s.pwr.state = .off then s else liveTick s

end Sys2Proof.Machine
end

