-- ==== Sys2Proof/Safety.lean ====
section
/-! DEFINITION. What a safe run is: no step of it faults or is refused; the invariant of the state that every step keeps; and the words in
which the statements speak of a host's accepted write. -/

namespace Sys2Proof

open Sys2Proof.Machine

/-- A step that answers a next state. -/
def Answers (s : State) : Prop := ∃ t, step s = .next t

/-- The canonical form of the register file: addresses rising, and no entry that holds its register's reset value. -/
def Registers.wf (s : State) : Bool := Tbl.wf regReset s.regs

/-- The security states in which a command that changes the state may stand accepted: PROVISION in BLANK, SEAL in OPEN, RETIRE in OPEN or
SEALED (R646, R647). -/
def secReady (st : SecState) (cmd : Nat) : Bool :=
  match cmd with
  | 1 => st == .blank
  | 2 => st == .open_
  | 3 => st == .open_ || st == .sealed
  | _ => true

/-- A security command in progress was permitted in the security state in force. -/
def Security.wf (x : Sec) : Bool := match x.cmd with | some p => secReady x.state p.cmd | none => true

/-- The invariant: registers and memory are in canonical form, and a security command in progress fits the security state. -/
def Inv (s : State) : Prop := Registers.wf s = true ∧ Memory.wf s.mem = true ∧ Security.wf s.sec = true

/-- The place of a security state on the way from BLANK to RETIRED (R645, R646). -/
def secRank : SecState → Nat
  | .blank => 0
  | .open_ => 1
  | .sealed => 2
  | .retired => 3

/-- A register write that meets no refusal of R19. -/
def Accepted (q : Req) (a : Nat) (v : Word) (s : State) : Prop := refusalOf q a v s = none

/-- A register read that meets no refusal: an open session whose TAG verifies, a mapped address, the epoch in force or none (R19, R60). -/
def ReadAccepted (q : Req) (a : Nat) (s : State) : Prop :=
  q.authOk = true ∧ sessOpen s q.slot.val = true ∧ mappedRead s a = true ∧ (q.epoch = 0 ∨ q.epoch = epochNow s)

/-- Whether a write of the register does more than set its fields by their classes: commands, windows and ranges that depend on state. -/
def hasOwnEffect (a : Nat) : Bool :=
  let b := blockOf a
  let g := b % 16
  if 0x10 ≤ b ∧ b < 0x20 then
    [Reg.LNK_PHY_CMD g, Reg.LNK_PHY_XCTRL_A g, Reg.LNK_PHY_XCTRL_B g, Reg.LNK_TXFFE_MAN_A g, Reg.LNK_TXFFE_MAN_B g, Reg.LNK_BERT_CTRL g,
      Reg.LNK_FR_XCTRL g, Reg.LNK_FR_INJECT g].contains a
  else if 0x30 ≤ b ∧ b < 0x40 then
    [Reg.TST_TSET g, Reg.TST_PERIOD g, Reg.TST_CMD g, Reg.TST_XCMD g, Reg.TST_XLIN_DATA g].contains a || (arrayIdx a (Reg.TST_MODE g 0) 4 4).isSome
  else match b with
    | 0x41 =>
      let c := a % 0x1000 / 0x20 + (a % 0x10000 / 0x1000 - (if inExpertHalf a then 9 else 1)) * 128
      [Reg.MEA_XCOEF_DATA, Reg.MEA_CH_TARGET c, Reg.MEA_XCH_CHAIN c, Reg.MEA_XCH_RHO c].contains a || (setRegsOf c).contains a
    | 0x43 => [Reg.TDC_CH_Q_RD ((a % 0x10000 - 0x1000) / 0x20), Reg.TDC_XCMD, Reg.TDC_XBIN_DATA, Reg.TDC_RES_RD, Reg.TDC_RES_SIZE].contains a
    | 0x44 =>
      let l := (a % 0x10000 - 0x1000) / 0x20
      [Reg.TRG_FIRE, Reg.TRG_LINE_SRC01 l, Reg.TRG_LINE_SRC23 l].contains a
    | 0x45 => a == Reg.ACQ_R_RD ((a % 0x10000 - 0x1000) / 0x100) ((a % 0x100 - 0x40) / 0x20)
    | 0x52 =>
      [Reg.SCH_SUB_GO, Reg.SCH_CMD, Reg.SCH_FLOW_RD ((a % 0x10000 - 0x4000) / 0x10), Reg.SCH_XLIST_CFG, Reg.SCH_XLIST_CORES_LO,
        Reg.SCH_XLIST_CORES_HI].contains a
    | 0x53 => [Reg.DMA_CH_CMD ((a % 0x10000 - 0x1000) / 0x40), Reg.DMA_CQ_RD].contains a
    | 0x60 => a == Reg.NET_HOST_CMD || (portOfCfg a).isSome
    | 0x61 =>
      let d := (a % 0x10000 - 0x100) / 0x40
      [Reg.PTP_CTRL, Reg.PTP_SNAP_CMD, Reg.PTP_RX_RD, Reg.PTP_D_INC_HI d, Reg.PTP_D_CMD d,
        Reg.PTP_LQ_WR ((a % 0x10000 - 0x200) / 0x20)].contains a
    | _ =>
      [Reg.SYS_CMD, Reg.SYS_RCMD, Reg.IMG_CMD, Reg.TBF_CTRL, Reg.TBF_SLACK_WARN, Reg.SEQ_STEP_CMD, Reg.SEQ_LOG_RD, Reg.SEQ_LOG_SIZE, Reg.CMP_LOG_RD,
        Reg.CMP_LOG_BASE_LO, Reg.CMP_LOG_BASE_HI, Reg.CMP_LOG_SIZE, Reg.CMP_XINJECT, Reg.SRC_NCO_FREQ_LO, Reg.SRC_NCO_FREQ_HI,
        Reg.SRC_NCO_PHASE, Reg.QDR_CMD, Reg.MEM_OBJ_BASE_LO, Reg.MEM_OBJ_BASE_HI, Reg.MEM_XINJECT, Reg.LIB_CMD, Reg.FLT_ALERT,
        Reg.FLT_XINJECT, Reg.PWR_CMD, Reg.PWR_CTRL, Reg.SEC_CMD, Reg.DBG_CTRL, Reg.DBG_REQ].contains a

/-- The request, register and value of a command that is a register write with a row of its own. -/
def Instr.asWrite (i : Instr) : Option (Req × Nat × Word) :=
  match i with
  | .imgVerify q slot => some (q, Reg.IMG_CMD, (imgWord 1 slot.val))
  | .imgLoad q slot => some (q, Reg.IMG_CMD, (imgWord 2 slot.val))
  | .loadAuto q => some (q, Reg.IMG_CMD, (imgWord 3 0))
  | .retrain q g laneA laneB => some (q, (Reg.LNK_PHY_CMD g.val), (phyWord 0 laneA laneB))
  | .eyeScanCmd q g laneA laneB => some (q, (Reg.LNK_PHY_CMD g.val), (phyWord 2 laneA laneB))
  | .phyXctrlWrite q g lane value => some (q, (xctrlOf g.val (laneNum lane)), value)
  | .txffeManWrite q g lane value => some (q, (txffeManOf g.val (laneNum lane)), value)
  | .bertCtrlWrite q g value => some (q, (Reg.LNK_BERT_CTRL g.val), value)
  | .frameInject q g value => some (q, (Reg.LNK_FR_INJECT g.val), value)
  | .frXctrlWrite q g value => some (q, (Reg.LNK_FR_XCTRL g.val), value)
  | .stepStart q at_ => some (q, Reg.SEQ_STEP_CMD, (startWord at_))
  | .stepAbort q => some (q, Reg.SEQ_STEP_CMD, 2)
  | .tstCommit q g => some (q, (Reg.TST_CMD g.val), 2)
  | .tstRead q g => some (q, (Reg.TST_CMD g.val), 1)
  | .writeRaw q g => some (q, (Reg.TST_XCMD g.val), 3)
  | .calLin q g force => some (q, (Reg.TST_XCMD g.val), (wd (256 * b2n force + 1)))
  | .calDeskew q g force => some (q, (Reg.TST_XCMD g.val), (wd (256 * b2n force + 2)))
  | .tsetWrite q g value => some (q, (Reg.TST_TSET g.val), value)
  | .periodWrite q g value => some (q, (Reg.TST_PERIOD g.val), value)
  | .modeWrite q g r value => some (q, (Reg.TST_MODE g.val r.val), value)
  | .linDataWrite q g value => some (q, (Reg.TST_XLIN_DATA g.val), value)
  | .cmpLogRdWrite q value => some (q, Reg.CMP_LOG_RD, value)
  | .cmpLogConfigWrite q which value => some (q, (logConfigAddr which), value)
  | .failInject q value => some (q, Reg.CMP_XINJECT, value)
  | .xchSetWrite q c which value => some (q, (setRegAddr c.val which), value)
  | .coefDataWrite q value => some (q, Reg.MEA_XCOEF_DATA, value)
  | .chainWrite q c isRho value => some (q, (if isRho then Reg.MEA_XCH_RHO c.val else Reg.MEA_XCH_CHAIN c.val), value)
  | .targetWrite q c value => some (q, (Reg.MEA_CH_TARGET c.val), value)
  | .ncoFreqWrite q value => some (q, Reg.SRC_NCO_FREQ_HI, value)
  | .tdcQRdWrite q c value => some (q, (Reg.TDC_CH_Q_RD c.val), value)
  | .calCd q g force => some (q, Reg.TDC_XCMD, (wd (65536 * g.val + 256 * b2n force + 1)))
  | .binDataWrite q value => some (q, Reg.TDC_XBIN_DATA, value)
  | .trgFire q value => some (q, Reg.TRG_FIRE, value)
  | .lineSrcWrite q l hi value => some (q, (lineSrcAddr l hi), value)
  | .acqRRdWrite q a r value => some (q, (Reg.ACQ_R_RD a.val r.val), value)
  | .rejoin q => some (q, Reg.QDR_CMD, 1)
  | .memObjBaseWrite q hi value => some (q, (if hi then Reg.MEM_OBJ_BASE_HI else Reg.MEM_OBJ_BASE_LO), value)
  | .memInject q value => some (q, Reg.MEM_XINJECT, value)
  | .libCreate q => some (q, Reg.LIB_CMD, 1)
  | .libWrite q => some (q, Reg.LIB_CMD, 2)
  | .libRead q => some (q, Reg.LIB_CMD, 3)
  | .libDelete q => some (q, Reg.LIB_CMD, 4)
  | .libStage q => some (q, Reg.LIB_CMD, 5)
  | .libEvict q => some (q, Reg.LIB_CMD, 6)
  | .libInfo q => some (q, Reg.LIB_CMD, 7)
  | .libCancel q => some (q, Reg.LIB_CMD, 8)
  | .schSubGo q => some (q, Reg.SCH_SUB_GO, 1)
  | .flush q l => some (q, Reg.SCH_CMD, (wd (256 * l.val + 1)))
  | .schFlowRdWrite q f value => some (q, (Reg.SCH_FLOW_RD f.val), value)
  | .dmaStart q c => some (q, (Reg.DMA_CH_CMD c.val), 1)
  | .dmaStop q c => some (q, (Reg.DMA_CH_CMD c.val), 2)
  | .dmaCqRdWrite q value => some (q, Reg.DMA_CQ_RD, value)
  | .portCfgWrite q addr value => some (q, addr, value)
  | .sysReset q _ => some (q, Reg.SYS_CMD, 1)
  | .sysDetach q => some (q, Reg.SYS_CMD, 2)
  | .install q target => some (q, Reg.SYS_RCMD, (wd (256 * target.val + 1)))
  | .reboot q _ => some (q, Reg.SYS_RCMD, 2)
  | .hostTableWrite q => some (q, Reg.NET_HOST_CMD, 1)
  | .hostTableClear q => some (q, Reg.NET_HOST_CMD, 2)
  | .hostTableRead q => some (q, Reg.NET_HOST_CMD, 3)
  | .incCommit q d value => some (q, (Reg.PTP_D_INC_HI d.val), value)
  | .ptpStep q d => some (q, (Reg.PTP_D_CMD d.val), 1)
  | .ptpSet q d => some (q, (Reg.PTP_D_CMD d.val), 2)
  | .ptpInvalidate q d => some (q, (Reg.PTP_D_CMD d.val), 3)
  | .ptpCtrlWrite q value => some (q, Reg.PTP_CTRL, value)
  | .ptpLqWrWrite q p value => some (q, (Reg.PTP_LQ_WR p.val), value)
  | .ptpSnapCmd q => some (q, Reg.PTP_SNAP_CMD, 1)
  | .faultInject q value => some (q, Reg.FLT_XINJECT, value)
  | .alertClear q value => some (q, Reg.FLT_ALERT, value)
  | .standby q => some (q, Reg.PWR_CMD, 1)
  | .wake q => some (q, Reg.PWR_CMD, 2)
  | .pwrDetach q => some (q, Reg.PWR_CMD, 3)
  | .provision q => some (q, Reg.SEC_CMD, 1)
  | .sealDevice q => some (q, Reg.SEC_CMD, 2)
  | .retire q => some (q, Reg.SEC_CMD, 3)
  | .enroll q => some (q, Reg.SEC_CMD, 4)
  | .revoke q => some (q, Reg.SEC_CMD, 5)
  | .raiseSvn q => some (q, Reg.SEC_CMD, 6)
  | .attest q => some (q, Reg.SEC_CMD, 7)
  | .dbgEnd q deny => some (q, Reg.DBG_CTRL, (wd (2 + b2n deny)))
  | _ => none

/-- The request and register of a command that is a register read with a row of its own. -/
def Instr.asRead (i : Instr) : Option (Req × Nat) :=
  match i with
  | .beatCountRead q => some (q, Reg.TBF_BEAT_COUNT_LO)
  | .linDataRead q g => some (q, (Reg.TST_XLIN_DATA g.val))
  | .coefDataRead q => some (q, Reg.MEA_XCOEF_DATA)
  | .binDataRead q => some (q, Reg.TDC_XBIN_DATA)
  | .ptpTimeRead q which => some (q, (ptpTimeAddr which.val))
  | .ledgerReadLatch q n => some (q, (Reg.LGR_LEFT n.val))
  | _ => none

/-- A scan of a lane may start: the lane carries traffic and scans in neither direction (R126, R127). -/
def scanMayStart (s : State) (g l : Nat) : Prop :=
  (laneState s g l = 4 ∨ (loopbackOf s g l ≠ 0 ∧ laneState s g l = 2)) ∧ (laneOf s g l).eyeIn.isNone = true ∧ (laneOf s g l).eyeOut.isNone = true

/-- Context `c` takes its next instruction, which is the word `w` with opcode `op`; one that emits vectors may emit its first (R184, R203,
R231). -/
def SeqReady (c op w : Nat) (s : State) : Prop :=
  takesInstr s c = true ∧ (ctxOf s c).pc < progCount s c ∧ progWord s c (ctxOf s c).pc = w ∧ wordValid w = true ∧ opcOf w = op ∧
    (emitting op = true → mayEmit s c = true)

/-- No session holds a request back (R569), so that nothing but the command itself happens. -/
def Quiet (s : State) : Prop := ∀ k, (sessOf s k).held = []

/-- The reports a collector holds: handled, pre-empted, queued, and left on their lines. -/
def Collector.reports (c : Collector) : List FaultRec := c.handling.toList ++ c.preempted ++ c.queue ++ c.held

/-- The collector holds a report of this class, unit class, unit and cause (R609, R618). -/
def Reported (cls uc unit cause : Nat) (s : State) : Prop :=
  ∃ f ∈ Collector.reports s.flt, f.cls = cls ∧ f.unitClass = uc ∧ f.unit = unit ∧ f.cause = cause

/-- The instruction commands of a context, one for each sequence instruction (R185). -/
def seqInstrs (c : Fin 64) : List Instr :=
  [.seqPlay c, .seqPlayn c, .seqLoop c, .seqEndloop c, .seqCall c, .seqRet c, .seqJump c, .seqJumpc c, .seqMatch c, .seqWaitt c, .seqWaittime c,
    .seqTset c, .seqSignal c, .seqStage c, .seqSitemask c, .seqHold c, .seqHalt c]

/-- Context `c` stands in ERROR with the program error `code` shown and reported (R210). -/
def ErrorShown (c code : Nat) (t : State) : Prop :=
  (ctxOf t c).state = .error ∧ rdFld t (Reg.SEQ_CTX_STATUS c) 3 0 = 7 ∧ rdFld t (Reg.SEQ_CTX_STATUS c) 31 24 = code ∧ Reported 0 0x20 c 0x0F t

/-- A context whose instruction in progress has ended goes on at the next address (R194 to R197). -/
def goesOn (x : Ctx) : Ctx :=
  { x with cur := none, pc := x.pc + 1, state := if x.state = .waiting ∨ x.state = .resHold then .running else x.state }

/-- What a reset leaves: no session, owner or waiting answer, no step, no memory contents and no shadow; fuses, the host table and the
counts kept in the system area stay, and the library's objects with them. -/
def Fresh (s t : State) : Prop :=
  (t.mem = [] ∧ t.net.sess = [] ∧ t.net.owner = none ∧ t.net.streams = [] ∧ t.net.openCmds = [] ∧ t.seq = State.reset.seq ∧
    t.links = State.reset.links ∧ t.sch = State.reset.sch ∧ t.dma = State.reset.dma ∧ t.shadowS = [] ∧ t.shadowF = [] ∧ t.img.loaded = false) ∧
  (t.img.sysEpoch = s.img.sysEpoch ∧ t.net.hosts = s.net.hosts ∧ t.sec.state = s.sec.state ∧ t.sec.slots = s.sec.slots ∧
    t.sec.imageFloor = s.sec.imageFloor ∧ t.sec.fwFloor = s.sec.fwFloor ∧ t.sec.ucodeFloor = s.sec.ucodeFloor ∧ t.sec.idKey = s.sec.idKey ∧
    t.lib.objs.map (·.1) = s.lib.objs.map (·.1) ∧ t.time = s.time ∧ t.pending = s.pending)

/-- Every register outside `l` reads as before. -/
def SameRegs (l : List Nat) (s t : State) : Prop := ∀ a, a ∉ l → rd t a = rd s a

/-- Every byte of memory reads as before. -/
def SameMem (s t : State) : Prop := ∀ a, memByte t a = memByte s a

/-- The parts of the state, one for each field of `State`. -/
inductive Part where
  | pending
  | time
  | beat
  | freeIdx
  | regs
  | shadowS
  | shadowF
  | mem
  | ans
  | net
  | flt
  | lgr
  | img
  | pwr
  | sec
  | dbg
  | tb
  | lanes
  | seq
  | links
  | tst
  | cmp
  | lib
  | trg
  | acq
  | mea
  | src
  | tdc
  | qdr
  | hbm
  | sch
  | ptp
  | dma
  deriving DecidableEq, Repr

/-- A part is the same in two states. -/
def Part.same (p : Part) (s t : State) : Prop :=
  match p with
  | .pending => t.pending = s.pending
  | .time => t.time = s.time
  | .beat => t.beat = s.beat
  | .freeIdx => t.freeIdx = s.freeIdx
  | .regs => t.regs = s.regs
  | .shadowS => t.shadowS = s.shadowS
  | .shadowF => t.shadowF = s.shadowF
  | .mem => t.mem = s.mem
  | .ans => t.ans = s.ans
  | .net => t.net = s.net
  | .flt => t.flt = s.flt
  | .lgr => t.lgr = s.lgr
  | .img => t.img = s.img
  | .pwr => t.pwr = s.pwr
  | .sec => t.sec = s.sec
  | .dbg => t.dbg = s.dbg
  | .tb => t.tb = s.tb
  | .lanes => t.lanes = s.lanes
  | .seq => t.seq = s.seq
  | .links => t.links = s.links
  | .tst => t.tst = s.tst
  | .cmp => t.cmp = s.cmp
  | .lib => t.lib = s.lib
  | .trg => t.trg = s.trg
  | .acq => t.acq = s.acq
  | .mea => t.mea = s.mea
  | .src => t.src = s.src
  | .tdc => t.tdc = s.tdc
  | .qdr => t.qdr = s.qdr
  | .hbm => t.hbm = s.hbm
  | .sch => t.sch = s.sch
  | .ptp => t.ptp = s.ptp
  | .dma => t.dma = s.dma

/-- Every part outside `l` is the same in two states. -/
structure Alters (l : List Part) (s t : State) : Prop where
  same : ∀ p, p ∉ l → p.same s t

/-- Of the contexts only `c` changes, and of the rest of the state only registers, reports, HBM bookkeeping and the library's lists. -/
def OnlyCtx (c : Nat) (s t : State) : Prop := (∀ d, d ≠ c → ctxOf t d = ctxOf s d) ∧ Alters [.regs, .flt, .hbm, .seq, .lib] s t

/-- Every part but the queue and the clock. -/
def anyPart : List Part :=
  [.beat, .freeIdx, .regs, .shadowS, .shadowF, .mem, .ans, .net, .flt, .lgr, .img, .pwr, .sec, .dbg, .tb, .lanes, .seq, .links, .tst, .cmp, .lib, .trg, .acq, .mea, .src, .tdc, .qdr, .hbm, .sch, .ptp, .dma]

/-- The parts of the state that a command may change. A request of a session, and a command after which requests that wait may go on
(R569), may change every part. -/
def Instr.mayAlter (i : Instr) : List Part :=
  match i with
  | .registerWrite _ _ _ _ => anyPart
  | .resetRelease _ _ _ => [.regs, .shadowS, .shadowF, .mem, .ans, .net, .flt, .lgr, .img, .pwr, .sec, .lanes, .seq, .links, .tst, .cmp, .trg, .mea, .tdc, .hbm, .sch]
  | .vinRise => [.pwr]
  | .vinUvlo => anyPart
  | .vinOvervoltage => [.regs, .mem, .ans, .net, .flt, .pwr, .lanes, .seq, .links, .tst, .cmp, .trg, .mea, .src, .tdc, .hbm]
  | .currentLimitHeld => [.regs, .mem, .ans, .net, .flt, .pwr, .lanes, .seq, .links, .tst, .cmp, .trg, .mea, .src, .tdc, .hbm]
  | .railOutOfRange => [.regs, .mem, .ans, .net, .flt, .pwr, .lanes, .seq, .links, .tst, .cmp, .trg, .mea, .src, .tdc, .hbm]
  | .imgVerify _ _ => [.ans, .net, .img]
  | .imgLoad _ _ => [.regs, .ans, .net, .img]
  | .loadAuto _ => [.regs, .ans, .net, .img]
  | .loadDrainMet _ _ => [.regs, .flt, .img]
  | .loadDrainTimeout => [.regs, .ans, .net, .img]
  | .loadSwitchPoint _ _ => anyPart
  | .loadRetrainTimeout => [.regs, .ans, .net, .flt, .img]
  | .beatWindowEnd _ _ => [.regs, .net, .flt, .tb, .links, .qdr]
  | .beatLoss => [.regs, .net, .flt, .tb, .links]
  | .returnToBeat => [.regs, .tb, .qdr]
  | .xoFailure => [.regs, .net, .flt, .tb]
  | .slackWindowEnd _ => [.regs, .flt, .tb]
  | .beatCountRead _ => [.regs, .ans, .tb]
  | .pavanePeriodMiss _ => [.regs, .flt]
  | .telemetrySample _ => [.freeIdx, .regs, .net, .flt, .tb]
  | .trainingFrameRx _ _ _ _ _ _ => [.regs, .lanes, .links]
  | .rxReadySet _ _ _ _ _ => [.lanes]
  | .laneDetectExit _ _ _ => [.regs, .lanes]
  | .laneExchangeAccept _ _ _ _ => anyPart
  | .laneStateTimeout _ _ => [.regs, .flt, .lanes]
  | .squelchEnd _ _ => [.lanes]
  | .laneSignalLost _ _ => anyPart
  | .retrain _ _ _ _ => anyPart
  | .eyeScanCmd _ _ _ _ => [.regs, .mem, .ans, .net, .flt, .lanes, .seq, .links, .tst, .cmp, .trg, .mea, .tdc, .hbm]
  | .eyeScanPeriodic _ _ => [.lanes]
  | .eyeScanPointDone _ _ _ => [.regs, .net, .flt, .lanes]
  | .eyeRspTimeout _ _ => [.lanes]
  | .phyXctrlWrite _ _ _ _ => anyPart
  | .txffeManWrite _ _ _ _ => anyPart
  | .bertCtrlWrite _ _ _ => [.freeIdx, .regs, .shadowS, .shadowF, .ans, .lanes]
  | .frameSend _ _ => [.freeIdx, .regs, .shadowF, .mem, .ans, .net, .flt, .pwr, .lanes, .seq, .links, .tst, .cmp, .trg, .mea, .src, .tdc, .hbm]
  | .idleFrameTimer _ _ => [.freeIdx, .regs, .shadowF, .mem, .ans, .net, .flt, .lanes, .seq, .links, .tst, .cmp, .trg, .mea, .src, .tdc, .hbm]
  | .inwardCodeword _ _ _ _ _ _ _ _ => anyPart
  | .fillerWordRx _ _ _ => anyPart
  | .probePeriod _ => [.links]
  | .cntAlignTimeout _ => [.regs, .flt, .links]
  | .frameInject _ _ _ => [.ans, .links]
  | .frXctrlWrite _ _ _ => [.regs, .shadowS, .shadowF, .ans]
  | .stepStart _ _ => [.regs, .shadowS, .shadowF, .mem, .ans, .flt, .pwr, .tb, .seq, .links, .tst, .cmp, .lib, .acq, .mea, .src, .tdc, .hbm]
  | .stepAbort _ => [.regs, .mem, .ans, .pwr, .seq, .links, .src, .hbm]
  | .stepListResident => [.regs, .mem, .ans, .flt, .pwr, .seq, .links, .lib, .src, .hbm]
  | .stepVectorZero => [.regs, .pwr, .seq, .trg, .mea]
  | .stepEnd => [.regs, .mem, .net, .pwr, .seq, .links, .acq, .src, .tdc, .hbm, .sch]
  | .seqPlay _ => [.regs, .mem, .flt, .pwr, .seq, .links, .lib, .src, .hbm]
  | .seqPlayn _ => [.regs, .mem, .flt, .pwr, .seq, .links, .lib, .src, .hbm]
  | .seqLoop _ => [.regs, .mem, .flt, .pwr, .seq, .links, .lib, .src, .hbm]
  | .seqEndloop _ => [.regs, .mem, .flt, .pwr, .seq, .links, .src, .hbm]
  | .seqCall _ => [.regs, .mem, .flt, .pwr, .seq, .links, .src, .hbm]
  | .seqRet _ => [.regs, .mem, .flt, .pwr, .seq, .links, .src, .hbm]
  | .seqJump _ => [.regs, .mem, .flt, .pwr, .seq, .links, .src, .hbm]
  | .seqJumpc _ => [.regs, .mem, .flt, .pwr, .seq, .links, .src, .hbm]
  | .seqMatch _ => [.regs, .mem, .flt, .pwr, .seq, .links, .lib, .src, .hbm]
  | .seqWaitt _ => [.regs, .mem, .flt, .pwr, .seq, .links, .src, .hbm]
  | .seqWaittime _ => [.regs, .mem, .flt, .pwr, .seq, .links, .src, .hbm]
  | .seqTset _ => [.regs, .mem, .flt, .pwr, .seq, .links, .src, .hbm]
  | .seqSignal _ => [.regs, .mem, .flt, .pwr, .seq, .links, .src, .hbm]
  | .seqStage _ => [.regs, .mem, .flt, .pwr, .seq, .links, .lib, .src, .hbm]
  | .seqSitemask _ => [.regs, .mem, .flt, .pwr, .seq, .links, .src, .hbm]
  | .seqHold _ => [.regs, .mem, .flt, .pwr, .seq, .links, .src, .hbm]
  | .seqHalt _ => [.regs, .mem, .flt, .pwr, .seq, .links, .src, .hbm]
  | .jumpEffect _ => [.regs, .mem, .seq, .hbm]
  | .matchLeave _ => [.regs, .mem, .seq, .hbm]
  | .waittRelease _ => [.regs, .mem, .seq, .hbm]
  | .waittTimeout _ => [.regs, .mem, .seq, .hbm]
  | .waittimeEnd _ => [.regs, .seq]
  | .residencyHoldEnd _ => [.regs, .mem, .seq, .hbm]
  | .microwordExecute _ _ => [.freeIdx, .regs, .mem, .flt, .pwr, .seq, .links, .lib, .src, .hbm]
  | .microTrap _ => [.regs, .seq]
  | .contextFault _ _ => [.regs, .flt, .img, .seq]
  | .contextTakeoverDone _ => [.regs, .mem, .seq, .hbm]
  | .tstCommit _ _ => [.regs, .ans, .net, .links, .tst]
  | .tstRead _ _ => [.regs, .ans]
  | .writeRaw _ _ => [.regs, .ans, .net, .links, .tst]
  | .calLin _ _ _ => [.regs, .ans, .links, .tst]
  | .calDeskew _ _ _ => [.regs, .ans, .links, .tst]
  | .scheduledLinCal _ _ => [.regs, .links, .tst]
  | .linCalComplete _ _ _ => [.regs, .flt, .links, .tst]
  | .deskewComplete _ _ _ => [.regs, .flt, .links, .tst]
  | .calAgeExpiry _ _ => [.regs, .flt]
  | .tsetWrite _ _ _ => [.shadowF, .ans, .links]
  | .periodWrite _ _ _ => [.regs, .shadowS, .shadowF, .ans]
  | .modeWrite _ _ _ _ => [.regs, .shadowS, .shadowF, .ans]
  | .linDataWrite _ _ _ => [.regs, .ans, .tst]
  | .linDataRead _ _ => [.regs, .ans]
  | .cmpLogRdWrite _ _ => [.regs, .shadowS, .shadowF, .ans]
  | .cmpLogConfigWrite _ _ _ => [.regs, .shadowS, .shadowF, .ans]
  | .failInject _ _ => [.ans, .cmp]
  | .measureOutput _ _ _ => [.regs, .mem, .flt, .trg, .acq, .mea, .hbm]
  | .xchSetWrite _ _ _ _ => [.regs, .shadowS, .shadowF, .ans]
  | .coefDataWrite _ _ => [.regs, .ans, .mea]
  | .coefDataRead _ => [.regs, .ans]
  | .chainWrite _ _ _ _ => [.regs, .shadowS, .shadowF, .ans]
  | .targetWrite _ _ _ => [.regs, .shadowS, .shadowF, .ans]
  | .sourceVector _ _ _ => [.freeIdx, .regs, .shadowF, .flt, .links, .trg, .mea, .src]
  | .playlistWaitRelease _ => [.regs, .src]
  | .ncoFreqWrite _ _ => [.ans, .src]
  | .tdcQRdWrite _ _ _ => [.regs, .shadowS, .shadowF, .ans]
  | .calCd _ _ _ => [.regs, .ans, .links, .tdc]
  | .scheduledCdCal _ _ => [.regs, .links, .tdc]
  | .cdCalComplete _ _ _ => [.regs, .flt, .links, .tdc]
  | .binDataWrite _ _ => [.regs, .ans, .tdc]
  | .binDataRead _ => [.regs, .ans]
  | .binTableStale _ => [.regs, .flt, .tdc]
  | .lineAct _ _ _ => [.regs, .flt, .seq, .trg, .acq, .mea, .src, .qdr, .dma]
  | .trgFire _ _ => [.ans, .trg]
  | .lineSrcWrite _ _ _ _ => [.regs, .shadowS, .shadowF, .ans]
  | .acqRRdWrite _ _ _ _ => [.regs, .ans]
  | .qtReceived _ _ _ => [.qdr]
  | .qtAct _ => [.trg, .qdr]
  | .todFrame _ _ => [.regs, .flt, .qdr]
  | .qdHeartbeat _ _ => [.regs, .flt, .trg, .qdr]
  | .peerAbsent _ => [.regs, .flt, .trg, .qdr]
  | .faultBroadcastRx _ _ => [.regs, .trg]
  | .hintsRx _ _ => [.regs]
  | .listenEnd _ => [.beat, .regs, .flt, .links, .qdr]
  | .leaderTimeout => [.regs, .qdr]
  | .claimBackoffEnd => [.regs, .qdr]
  | .qdCellMismatch _ => [.regs, .flt, .qdr]
  | .rejoin _ => [.regs, .ans, .qdr]
  | .hbmCorrectedError _ _ => [.regs, .flt]
  | .hbmUncorrectable _ _ _ => [.regs, .flt, .hbm]
  | .pcFence _ _ => [.regs, .flt, .hbm]
  | .spareCopyComplete _ => [.regs, .hbm]
  | .hbmTempRefresh _ _ => [.regs]
  | .memObjBaseWrite _ _ _ => [.regs, .shadowS, .shadowF, .ans, .lib]
  | .memInject _ _ => [.regs, .ans, .hbm]
  | .libCreate _ => [.regs, .ans, .net, .lib]
  | .libWrite _ => [.regs, .ans, .lib]
  | .libRead _ => [.regs, .ans, .lib]
  | .libDelete _ => [.regs, .ans, .net, .lib]
  | .libStage _ => [.regs, .ans, .net, .lib]
  | .libEvict _ => [.regs, .ans, .net, .lib]
  | .libInfo _ => [.regs, .ans, .net]
  | .libCancel _ => [.regs, .ans, .net, .lib]
  | .writeUnitCommit => [.regs, .flt, .lib, .hbm]
  | .libCmdComplete _ => [.regs, .mem, .net, .lib, .hbm]
  | .stagingComplete => [.regs, .mem, .net, .flt, .seq, .lib, .hbm]
  | .stageFailed _ _ => [.regs, .net, .flt, .lib]
  | .patrolPass _ => [.regs, .lib]
  | .blockRetire _ => [.regs, .flt, .lib]
  | .dieFailure _ _ _ => [.regs, .flt, .lib]
  | .fenceRel _ => [.mem, .sch]
  | .fenceAcq _ => [.sch]
  | .tnext _ _ => [.freeIdx, .regs, .mem, .hbm, .sch]
  | .tdone _ _ => [.freeIdx, .regs, .mem, .hbm, .sch]
  | .tsubmit _ _ _ => [.freeIdx, .regs, .sch]
  | .tyield _ => [.freeIdx, .sch]
  | .schSubGo _ => [.regs, .ans, .sch]
  | .templateRetry => [.regs, .sch]
  | .dispatchPlacement _ => [.regs, .mem, .flt, .hbm, .sch]
  | .preemptLate _ => [.regs, .flt, .sch]
  | .flush _ _ => [.regs, .mem, .ans, .hbm, .sch]
  | .schFlowRdWrite _ _ _ => [.regs, .shadowS, .shadowF, .mem, .ans, .hbm, .sch]
  | .coreMismatch _ => [.regs, .flt, .img, .sch]
  | .coreTakeoverDone _ => [.regs, .sch]
  | .dmaStart _ _ => [.regs, .ans, .dma]
  | .dmaStop _ _ => [.freeIdx, .regs, .mem, .ans, .dma]
  | .dmaMove _ => [.dma]
  | .dmaLoop _ => [.regs, .dma]
  | .dmaWait _ => [.regs, .dma]
  | .dmaWaitPoll _ => [.freeIdx, .regs, .mem, .flt, .hbm, .dma]
  | .dmaWaitTimeout _ => [.freeIdx, .regs, .mem, .dma]
  | .dmaSignal _ => [.freeIdx, .regs, .mem, .net, .hbm, .sch, .dma]
  | .dmaEnd _ => [.freeIdx, .regs, .mem, .dma]
  | .dmaNop _ => [.regs, .dma]
  | .dmaBurstGrant _ _ => [.freeIdx, .regs, .mem, .flt, .hbm, .dma]
  | .dmaWriteAnswer _ _ _ => [.freeIdx, .regs, .mem, .dma]
  | .dmaReadError _ => [.freeIdx, .regs, .mem, .dma]
  | .dmaCompletionRecord _ => [.regs, .mem, .hbm, .dma]
  | .dmaCqRdWrite _ _ => [.regs, .shadowS, .shadowF, .mem, .ans, .hbm, .dma]
  | .dmaEngineFault _ => [.regs, .flt, .dma]
  | .sessionInit _ _ => [.freeIdx, .regs, .ans, .net]
  | .sessionConfirm _ _ => [.freeIdx, .regs, .shadowS, .shadowF, .mem, .ans, .net, .flt, .pwr, .tb, .seq, .links, .tst, .cmp, .lib, .acq, .mea, .src, .tdc, .hbm, .sch, .ptp, .dma]
  | .handshakeTimeout _ => [.regs, .net]
  | .close _ => anyPart
  | .ack _ => anyPart
  | .readReg _ _ _ => anyPart
  | .writeReg _ _ _ _ => anyPart
  | .readMem _ _ _ => anyPart
  | .writeMem _ _ _ => anyPart
  | .claim _ => anyPart
  | .heartbeat _ => anyPart
  | .handover _ _ => anyPart
  | .accept _ => anyPart
  | .release _ => anyPart
  | .streamOpen _ _ => anyPart
  | .streamCredit _ _ _ => anyPart
  | .streamClose _ _ => anyPart
  | .streamDataSend _ => [.regs, .net]
  | .retransmitTimer _ _ => [.regs, .net]
  | .sessionIdleTimeout _ => [.regs, .net]
  | .leaseExpiry => [.regs, .net]
  | .electionClose => [.regs, .net]
  | .handoverLapse => [.regs, .net]
  | .portRateTimeout _ => [.regs, .net]
  | .portLinkLoss _ => [.regs, .net]
  | .ethFrameRx _ _ => [.regs, .net]
  | .portCfgWrite _ _ _ => [.regs, .shadowS, .shadowF, .ans, .net]
  | .sysReset _ _ => anyPart
  | .sysDetach _ => [.regs, .mem, .ans, .pwr, .seq, .links, .src, .hbm]
  | .install _ _ => [.regs, .ans, .pwr]
  | .reboot _ _ => anyPart
  | .hostTableWrite _ => [.ans, .net]
  | .hostTableClear _ => [.ans, .net]
  | .hostTableRead _ => [.regs, .ans]
  | .incCommit _ _ _ => [.regs, .shadowS, .shadowF, .ans, .ptp]
  | .ptpStep _ _ => [.regs, .ans, .flt, .ptp]
  | .ptpSet _ _ => [.regs, .ans, .flt, .ptp]
  | .ptpInvalidate _ _ => [.regs, .ans, .flt]
  | .ptpCtrlWrite _ _ => [.freeIdx, .regs, .shadowS, .shadowF, .ans, .flt, .ptp]
  | .slewEnd => [.freeIdx, .regs, .ptp]
  | .ptpModeChange => [.regs]
  | .ptpRx _ _ _ _ => [.freeIdx, .regs, .mem, .hbm]
  | .ptpLqWrWrite _ _ _ => [.regs, .shadowS, .shadowF, .ans]
  | .launchSend _ => [.freeIdx, .regs, .mem, .hbm]
  | .ptpSnapCmd _ => [.regs, .ans, .ptp]
  | .ptpTimeRead _ _ => [.regs, .ans]
  | .faultReport _ _ _ _ _ _ => [.regs, .flt]
  | .wireFault _ _ => [.regs, .mem, .ans, .net, .flt, .img, .lanes, .seq, .links, .tst, .cmp, .trg, .mea, .tdc, .qdr, .hbm, .sch, .dma]
  | .faultHandle => [.freeIdx, .regs, .mem, .ans, .net, .flt, .lgr, .img, .pwr, .lanes, .seq, .links, .tst, .cmp, .trg, .mea, .src, .tdc, .hbm]
  | .collectorSelfCheck _ _ => [.regs, .flt]
  | .faultInject _ _ => [.regs, .mem, .ans, .net, .flt, .img, .lanes, .seq, .links, .tst, .cmp, .trg, .mea, .tdc, .qdr, .hbm, .sch, .dma]
  | .alertClear _ _ => [.regs, .ans]
  | .ledgerImbalance _ _ _ _ _ => [.regs, .flt, .lgr]
  | .ledgerDeadline _ => [.regs, .flt, .lgr]
  | .ledgerReadLatch _ _ => [.regs, .ans]
  | .standby _ => [.ans, .pwr]
  | .wake _ => [.ans, .pwr]
  | .pwrDetach _ => [.regs, .mem, .ans, .pwr, .seq, .links, .src, .hbm]
  | .detachNLow => [.regs, .mem, .pwr, .seq, .links, .src, .hbm]
  | .detachPhaseAdvance => [.regs, .mem, .ans, .net, .flt, .pwr, .dbg, .lanes, .seq, .links, .tst, .cmp, .trg, .mea, .src, .tdc, .qdr, .hbm, .sch]
  | .detachTimeout => [.freeIdx, .regs, .mem, .flt, .lib, .hbm, .sch, .dma]
  | .detachNHighRestart _ => anyPart
  | .galopOverrun => [.regs, .flt, .pwr]
  | .provision _ => [.regs, .ans, .sec]
  | .sealDevice _ => [.regs, .ans, .sec]
  | .retire _ => [.regs, .ans, .sec]
  | .enroll _ => [.regs, .ans, .sec]
  | .revoke _ => [.regs, .ans, .sec]
  | .raiseSvn _ => [.regs, .ans, .sec]
  | .attest _ => [.regs, .ans, .sec]
  | .secCmdResult _ => [.freeIdx, .regs, .net, .flt, .sec, .dbg, .seq, .lib, .sch]
  | .dbgReq _ _ _ => [.freeIdx, .regs, .ans, .dbg, .seq, .sch]
  | .dbgEnd _ _ => [.regs, .ans, .dbg, .seq, .sch]
  | .debugLifetimeExpiry => [.regs, .dbg, .seq, .sch]
  | .coreHalt _ _ => [.ans, .sch]
  | .contextDebugHalt _ => [.regs, .mem, .ans, .pwr, .seq, .links, .src, .hbm]
  | .jtagBypass => [.regs, .dbg, .qdr]
  | .jtagIdcode => [.regs, .ans, .dbg, .qdr]
  | .samplePreload => [.regs, .dbg, .qdr]
  | .extest => [.regs, .dbg, .qdr]
  | .jtagDap _ => anyPart
  | .jtagToken _ => [.regs, .dbg, .qdr]
  | .tapReset => [.regs, .dbg, .qdr]
  | .resetNLow => anyPart
  | .portLinkUp _ => [.regs, .net]
  | .quadrilleCycle => [.regs, .qdr]
  | .beatEdgeLineSample _ => [.seq, .src]
  | .verifyEnd _ => [.regs, .ans, .net, .img]
  | .loadCheckFailure => [.regs, .ans, .net, .img]
  | .stepAtPassed => [.regs, .mem, .flt, .pwr, .seq, .src, .hbm]
  | .knownAnswerTestEnd _ _ _ => [.regs, .flt, .mea]
  | .dieRebuildComplete _ _ => [.regs, .flt, .lib]
  | .wearBudgetHour => [.regs, .lib]
  | .installDone _ => [.regs, .pwr, .lib]

end Sys2Proof
end

