-- ==== Sys2Proof/Certificates/Slice0/Obligations.lean ====
section
/-! DEFINITION. The statements for the provers: what the numbered rules of the spec say that each command does, one obligation for
several commands of one chapter; then what holds of every command. -/

open Sys2Proof Sys2Proof.Machine

/-! ### Every command -/

/-- The step of a device on which commands wait runs the first of them with the rest of the queue (assumption 1). -/
def Obligations.StepRunsTheFrontCommand : Prop :=
  ∀ (i : Instr) (rest : List Instr) (s : State),
    step { s with pending := i :: rest } = exec i { s with pending := rest }

/-- With no command waiting one reference period passes (the model's choice, assumption 1): with the rails up the BEAT count of R66
counts it; with the rails off only the model's clock does. While no session holds a request back and no SIGNAL is due, memory,
sessions, contexts and the last answer stay, and reports too unless the frame period after a lane's loss ends (R119), whose C1 is
then raised. A SIGNAL whose pin time has come (R199) puts its record on the owner's EVENT streams or sets its flag. -/
def Obligations.IdleStepIsOneReferencePeriod : Prop :=
  ∀ s : State, s.pending = [] →
    let lost (g l : Nat) : Prop := ∃ t0, (linkOf s g).lossNote = some (l, t0) ∧ t0 ≤ s.time + 1
    let passes (p : State → Prop) : Prop := ∃ t, step s = .next t ∧ t.time = s.time + 1 ∧ t.beat = s.beat + 1 ∧ t.pending = [] ∧ p t
    (s.pwr.state = .off → step s = .next { s with time := s.time + 1 }) ∧
    (s.pwr.state ≠ .off → Quiet s → (∀ e ∈ s.seq.due, s.beat + 1 < e.1) → passes (fun t =>
      t.mem = s.mem ∧ t.net = s.net ∧ t.seq = s.seq ∧ t.ans = s.ans ∧ ((∀ g < 16, ∀ l, ¬lost g l) → t.flt = s.flt) ∧
      (∀ g < 16, ∀ l, lost g l → Reported 1 0x10 (2 * g + l) 0x08 t ∧ (linkOf t g).lossNote = none))) ∧
    (s.pwr.state ≠ .off → Quiet s → ∀ b n v, b ≤ s.beat + 1 →
      (s.seq.due = [(b, .signal 2 n v)] → passes (fun t => t.seq = { s.seq with due := [] } ∧ t.mem = s.mem ∧ t.ans = s.ans ∧
        t.net.streams = s.net.streams.map (fun e =>
          if isOwnerEvent e then e.push (eventRecord 1 n v { s with beat := s.beat + 1 }) else e))) ∧
      (s.seq.due = [(b, .signal 3 n v)] → n < 64 → passes (fun t => t.seq = { s.seq with due := [] } ∧
        rd t (Reg.SCH_DFLAG n) = wd v ∧ (flagPending s n = true → t.mem = s.mem ∧ rdBit t Reg.SCH_EVENTS 1 = true))))

/-- Every register whose table gives a number for reset reads it after reset (R14 and the register tables); memory holds nothing,
no session is open, no command waits, and the device stands in HOLD. Where the tables give no number the model's own value
stands (assumption 2). -/
def Obligations.ResetLeavesTheTabledValues : Prop :=
  (∀ a r, rowOf a = some r → (∀ e ∈ resetRegs, e.1 ≠ a) → rd State.reset a = wd r.reset) ∧
  rd State.reset Reg.IMG_STATUS = 0 ∧ rd State.reset Reg.TBF_SLACK_WARN = 0x320 ∧ rd State.reset Reg.TBF_SLACK_MIN = 0x7FFF ∧
  rd State.reset Reg.TEL_CTRL = 0x64 ∧ (∀ g < 16, rd State.reset (Reg.LNK_FR_STATUS g) = 0x2000) ∧
  rd State.reset Reg.PWR_DETACH_TIMEOUT = 30 ∧ rd State.reset Reg.PWR_XGALOP_W = 1150 ∧ rd State.reset Reg.SYS_EXPERT_EN = 0 ∧
  State.reset.mem = [] ∧ State.reset.pending = [] ∧ State.reset.net.sess = [] ∧ State.reset.net.owner = none ∧
  State.reset.pwr.state = .hold ∧ State.reset.img.loaded = false

/-- The state after reset meets the invariant. -/
def Obligations.ResetMeetsTheInvariant : Prop := Inv State.reset

/-- Every step keeps the invariant: the register file and memory stay in canonical form, and a security command in progress stays
one that the security state in force permits (R646, R647). -/
def Obligations.EveryStepKeepsTheInvariant : Prop := ∀ s t : State, Inv s → step s = .next t → Inv t

/-- No command of the table stops the device: in every state, with any operands, it answers a next state, and so does every step. -/
def Obligations.EveryStepAnswersANextState : Prop := (∀ (i : Instr) (s : State), ∃ t, exec i s = .next t) ∧ ∀ s : State, Answers s

/-- A step takes one command off the queue and puts none on it, never turns the clock back, and never moves the security state back
on its way from BLANK over OPEN and SEALED to RETIRED (R645, R646). -/
def Obligations.SecurityStateNeverGoesBack : Prop :=
  ∀ s t : State, step s = .next t → t.pending = s.pending.tail ∧ s.time ≤ t.time ∧
    (Security.wf s.sec = true → secRank s.sec.state ≤ secRank t.sec.state)

/-- A command changes no part of the state outside those that `Instr.mayAlter` lists for it: queue and clock for every command, and
for each command the blocks, memory, sessions and fuses that its rules do not reach. -/
def Obligations.CommandsChangeOnlyTheirParts : Prop :=
  ∀ (i : Instr) (s t : State), exec i s = .next t → Alters i.mayAlter s t

/-- R19, with R11, R16 and R60: a register write is answered with the first refusal that applies, in the order BAD_AUTH, BAD_ADDR,
NOT_OWNER, STALE_EPOCH, EXPERT_OFF, LOCKED, and changes nothing. -/
def Obligations.RegisterWritesAreRefusedInOrder : Prop :=
  ∀ (q : Req) (a : Nat) (v : Word) (obs : WriteObs) (s : State), Quiet s →
    let refused (code : Nat) : Prop := exec (.registerWrite q a v obs) s = .next { s with ans := { status := code } }
    let auth := q.authOk = true ∧ sessOpen s q.slot.val = true
    let addr := a % 4 = 0 ∧ dapOnly a = false ∧ mappedWrite s a = true
    let owner := isOwner s q.slot.val = true
    let fresh := q.epoch = 0 ∨ q.epoch = epochNow s
    let expert := inExpertHalf a = true → expertOn s a = true
    let unlocked := ∀ r, rowOf a = some r → targetsLocked r v = true → blockRuns s a = false
    (¬auth → refused 0x06) ∧
    (auth → ¬addr → refused 0x05) ∧
    (auth → addr → ¬owner → refused 0x02) ∧
    (auth → addr → owner → ¬fresh → refused 0x09) ∧
    (auth → addr → owner → fresh → ¬expert → refused 0x03) ∧
    (auth → addr → owner → fresh → expert → ¬unlocked → refused 0x01)

/-- A command that is a register write with a row of its own meets the same refusals: it is answered with the code and changes
nothing (R18, R19; FLT_GRAVE of R615 after them, assumption 6). -/
def Obligations.CommandWritesRefusedChangeNothing : Prop :=
  ∀ (i : Instr) (q : Req) (a : Nat) (v : Word) (s : State) (code : Nat), i.asWrite = some (q, a, v) → Quiet s →
    refusalOf q a v s = some code → exec i s = .next { s with ans := { status := code } }

/-- R14, R15 and R16: an accepted write of a register that only holds fields sets its I and L fields, clears the W1C bits written 1,
leaves every other bit, holds F fields and the S fields that wait for a START in their shadows, and leaves every other
register; outside its range it is refused with VALUE_RANGE and changes nothing. -/
def Obligations.AcceptedWritesActByChangeClass : Prop :=
  ∀ (q : Req) (a : Nat) (v : Word) (obs : WriteObs) (s : State) (r : RegRow), Quiet s → a % 4 = 0 → dapOnly a = false →
    Accepted q a v s → hasOwnEffect a = false → rowOf a = some r →
    (outOfRange a v = true → exec (.registerWrite q a v obs) s = .next { s with ans := { status := 0x45 } }) ∧
    (outOfRange a v = false → ∃ t, exec (.registerWrite q a v obs) s = .next t ∧ t.ans = { status := 0 } ∧
      (∀ k < 32, bit (rd t a) k =
        if (r.maskI.testBit k || r.maskL.testBit k) && !r.maskWO.testBit k then bit v k
        else if r.maskS.testBit k && atOnce s a then bit v k
        else if r.maskC.testBit k then bit (rd s a) k && !bit v k else bit (rd s a) k) ∧
      SameRegs [a] s t ∧
      t.shadowF = (if r.maskF = 0 then s.shadowF else s.shadowF.filter (fun e => e.1 != a) ++ [(a, v)]) ∧
      t.shadowS = (if r.maskS = 0 then s.shadowS else s.shadowS.filter (fun e => e.1 != a) ++ if atOnce s a then [] else [(a, v)]) ∧
      Alters [.regs, .shadowS, .shadowF, .ans] s t)

/-- R14, R17 and R60: a read of a register with a row of its own that comes in an open session under the epoch in force is answered
with the value in effect and has only the effect of that read; any other is refused with BAD_AUTH, BAD_ADDR or STALE_EPOCH and
changes nothing. -/
def Obligations.RegisterReadsAnswerTheValueInEffect : Prop :=
  ∀ (i : Instr) (q : Req) (a : Nat) (s : State), i.asRead = some (q, a) →
    (ReadAccepted q a s →
      exec i s = .next { readEffect a s with ans := { status := 0, done := 1, data := [readView s a] } }) ∧
    (¬ReadAccepted q a s → ∃ code ∈ [0x06, 0x05, 0x09], exec i s = .next { s with ans := { status := code } })

/-! ### Chapter 1: the structure image -/

/-- R23, R53, R54, R57 and R645: an accepted load or VERIFY is refused with IMG_LOADING while a load or VERIFY is in progress; a load is refused
with NOT_IN_HOLD outside HOLD unless the fault collector has halted the device and no step runs, and with SEC_STATE in RETIRED; otherwise it begins
to drain with IMG_STATUS.STATE = LOADING, a VERIFY begins its checks, and the answer falls when it ends. R53, R55, R56, R57 and R64: the ends of the
checks. A VERIFY reports its slot's code, with the failing check and its reason, and IMG_CMD is accepted again; a load whose drain condition is not
met goes on draining, one whose condition is met is judged by the checks of its slot, or for LOAD_AUTO of the selection of R50; at the 2.0 s limit it
is answered IMG_BUSY, and after a failing check IMG_INVALID or NOT_ADMITTED, and the previous epoch and STATE stay. R58, R61 and R63: at the switch
point the checked image, cut to the spares that the device holds (R45), comes into force with the next epoch, which skips 0, in HOLD; the collector's
halt ends and the load is answered once every enabled group is ACTIVE with its timing sets written. When the retrain time passes, the load is
answered and each group that is not ACTIVE is named and reported as a C2 of the group. What the spec leaves open follows assumption 29. -/
def Obligations.LoadsAndVerifiesRun : Prop :=
  (∀ (q : Req) (slot : Fin 2) (s : State),
     let busy := s.img.load ≠ .idle ∨ s.img.verify.isSome = true
     let may := s.pwr.state = .hold ∨ (s.flt.halted = true ∧ stepRuns s = false)
     let begun (t : State) (auto : Bool) (k : Nat) : Prop :=
       t.ans = { deferred := true } ∧ isOpen .load t = true ∧ t.net.sess = s.net.sess ∧
         t.img = { s.img with load := .draining auto k } ∧ rdFld t Reg.IMG_STATUS 1 0 = 1 ∧ SameRegs [Reg.IMG_STATUS] s t
     (Accepted q Reg.IMG_CMD (imgWord 2 slot.val) s →
       (¬busy → may → s.sec.state ≠ .retired → ∃ t, exec (.imgLoad q slot) s = .next t ∧ begun t false slot.val) ∧
       (busy → exec (.imgLoad q slot) s = .next { s with ans := { status := 0x43 } }) ∧
       (¬busy → ¬may → exec (.imgLoad q slot) s = .next { s with ans := { status := 0x41 } }) ∧
       (¬busy → may → s.sec.state = .retired → exec (.imgLoad q slot) s = .next { s with ans := { status := 0x63 } })) ∧
     (Accepted q Reg.IMG_CMD (imgWord 3 0) s →
       (¬busy → may → s.sec.state ≠ .retired → ∃ t, exec (.loadAuto q) s = .next t ∧ begun t true 0) ∧
       (busy → exec (.loadAuto q) s = .next { s with ans := { status := 0x43 } }) ∧
       (¬busy → ¬may → exec (.loadAuto q) s = .next { s with ans := { status := 0x41 } }) ∧
       (¬busy → may → s.sec.state = .retired → exec (.loadAuto q) s = .next { s with ans := { status := 0x63 } })) ∧
     (Accepted q Reg.IMG_CMD (imgWord 1 slot.val) s →
       (¬busy → ∃ t, exec (.imgVerify q slot) s = .next t ∧ t.ans = { deferred := true } ∧ isOpen .verify t = true ∧
         t.net.sess = s.net.sess ∧ t.img = { s.img with verify := some slot.val } ∧ SameRegs [] s t) ∧
       (busy → exec (.imgVerify q slot) s = .next { s with ans := { status := 0x43 } }))) ∧
  (∀ (a b : CryptoObs) (s : State),
     let checks (k : Nat) := checkSlot s k (if k = 0 then a else b) true
     (∀ k < 2, s.img.verify = some k → ∃ t, exec (.verifyEnd a) s = .next t ∧ t.img = { s.img with verify := none } ∧
       rdFld t Reg.IMG_SLOT_STATE (2 * k + 1) (2 * k) = checkCode (checkSlot s k a true) ∧
       ((checkSlot s k a true).check ≠ 0 → rd t Reg.IMG_REASON =
         wd (65536 * (checkSlot s k a true).check + 256 * k + (checkSlot s k a true).reason)) ∧
       rd t Reg.IMG_EPOCH = rd s Reg.IMG_EPOCH) ∧
     (s.img.verify = none → exec (.verifyEnd a) s = .next s) ∧
     (∀ k < 2, s.img.load = .draining false k → drainMet s = true → ∃ t, exec (.loadDrainMet a b) s = .next t ∧
       rdFld t Reg.IMG_SLOT_STATE (2 * k + 1) (2 * k) = checkCode (checks k) ∧
       ((checks k).check = 0 → ∃ m x, t.img = { s.img with load := .passed false k m x }) ∧
       ((checks k).check ≠ 0 → t.img = { s.img with load := .failed false k (if (checks k).image.isSome then 0x08 else 0x42) })) ∧
     (∀ k, s.img.load = .draining true k → drainMet s = true → ∃ t, exec (.loadDrainMet a b) s = .next t ∧
       (selectOrder s a b = [] → ∃ code, t.img = { s.img with load := .failed true k code }) ∧
       ((∃ c ∈ selectOrder s a b, (checks c).check = 0) →
         ∃ c ∈ selectOrder s a b, (checks c).check = 0 ∧ ∃ m x, t.img = { s.img with load := .passed true c m x })) ∧
     (∀ auto k, s.img.load = .draining auto k →
       (drainMet s = false → exec (.loadDrainMet a b) s = .next s) ∧
       (∃ t, exec .loadDrainTimeout s = .next t ∧ t.img = { s.img with load := .idle } ∧
         rdFld t Reg.IMG_STATUS 1 0 = (if s.img.loaded then 2 else 0) ∧ rd t Reg.IMG_EPOCH = rd s Reg.IMG_EPOCH ∧
         (∀ o, s.net.openCmds.find? (fun o => o.kind == .load) = some o → o.reqSeq = 0 → t.ans = { status := 0x44 }))) ∧
     (∀ auto k code, s.img.load = .failed auto k code → ∃ t, exec .loadCheckFailure s = .next t ∧ t.img = { s.img with load := .idle } ∧
       rdFld t Reg.IMG_STATUS 1 0 = (if s.img.loaded then 2 else 0) ∧ rd t Reg.IMG_EPOCH = rd s Reg.IMG_EPOCH ∧
       (∀ o, s.net.openCmds.find? (fun o => o.kind == .load) = some o → o.reqSeq = 0 → t.ans = { status := code }))) ∧
  (∀ (coreRead coreReread : Bool) (s : State),
     (∀ auto k m x, s.img.load = .passed auto k m x → Quiet s → ∃ t, exec (.loadSwitchPoint coreRead coreReread) s = .next t ∧
       t.img.active = { m with spares := cutSpares s m.spares } ∧ t.img.loaded = true ∧
       t.img.sysEpoch = (if s.img.sysEpoch = 0xFFFFFFFF then 1 else s.img.sysEpoch + 1) ∧ t.flt.halted = false ∧ t.pwr.state = .hold ∧
       (t.img.load = .idle ∨ t.img.load = .retraining auto) ∧
       t.sec.mImage = m.digest ∧ t.sec.mCore = coreMeasure s m.sched (coreRead || coreReread)) ∧
     (∀ auto, s.img.load = .retraining auto → ∃ t, exec .loadRetrainTimeout s = .next t ∧ t.img.load = .idle ∧ rdFld t Reg.IMG_STATUS 1 0 = 2 ∧
       t.img.lateGroups = (List.range 16).filter (fun g => groupEnabled s g && !(groupActive s g)) ∧
       ∀ g < 16, groupEnabled s g = true → groupActive s g = false → Reported 2 0x1E g 0x07 t))


/-! ### Chapter 2: time base and telemetry -/

/-- R68 to R73 and R76: sixteen good windows in a row qualify BEAT and a window beyond 150 ppm (1,500 of the 0.1 ppm limit in the register's 0.001
ppm) loses it, unless the oscillator has failed; beyond 500 ppm on a qualified BEAT the oscillator is what failed; a loss clears the qualification, moves the time base to the crystal and is classed by power state; the return needs a qualified BEAT,
a power state that permits it and the policy of REF_SEL; an oscillator failure is C2 on BEAT and C3 on the crystal, where it also stops the ports.
What the spec leaves open follows assumption 37. -/
def Obligations.BeatIsQualifiedLostAndReturns : Prop :=
  ∀ (ppm : Int) (s : State),
    (ppm.natAbs ≤ 150000 → (s.pwr.detachN = true ∨ rdBit s Reg.TBF_STATUS 1 = true) →
      ∃ t, exec (.beatWindowEnd ppm true) s = .next t ∧ rd t Reg.TBF_BEAT_PPM = wd (twos 32 ppm) ∧
        t.tb.goodWindows = min (s.tb.goodWindows + 1) 16 ∧ rdBit t Reg.TBF_STATUS 2 = true ∧
        (15 ≤ s.tb.goodWindows → rdBit t Reg.TBF_STATUS 1 = true) ∧
        (s.tb.goodWindows < 15 → rdBit t Reg.TBF_STATUS 1 = rdBit s Reg.TBF_STATUS 1) ∧
        SameRegs [Reg.TBF_BEAT_PPM, Reg.TBF_STATUS, Reg.QDR_STATUS] s t) ∧
    (150000 < ppm.natAbs → s.tb.xoFailed = false → (rdBit s Reg.TBF_STATUS 1 = true ∧ ppm.natAbs ≤ 500000 ∨
        rdBit s Reg.TBF_STATUS 1 = false ∧ rdBit s Reg.TBF_STATUS 2 = true) → ∀ gapOk, ∃ t, exec (.beatWindowEnd ppm gapOk) s = .next t ∧ rd t Reg.TBF_BEAT_PPM = wd (twos 32 ppm) ∧
        rdBit t Reg.TBF_STATUS 1 = false ∧ rdBit t Reg.TBF_STATUS 0 = true ∧ t.tb.goodWindows = 0) ∧
    (500000 < ppm.natAbs → rdBit s Reg.TBF_STATUS 1 = true → ∀ gapOk, ∃ t, exec (.beatWindowEnd ppm gapOk) s = .next t ∧
      rdBit t Reg.TBF_STATUS 1 = true ∧ t.tb.xoFailed = true ∧
      (s.tb.xoFailed = false → rdBit t Reg.TBF_STATUS 3 = false ∧ Reported (if rdBit s Reg.TBF_STATUS 0 then 3 else 2) 0x17 0 0x09 t)) ∧
    (∃ t, exec .beatLoss s = .next t ∧ rdBit t Reg.TBF_STATUS 1 = false ∧ rdBit t Reg.TBF_STATUS 2 = false ∧
      rdBit t Reg.TBF_STATUS 0 = true ∧ rdBit t Reg.TBF_EVENTS 0 = true ∧ t.tb.goodWindows = 0 ∧
      (rdBit s Reg.TBF_STATUS 0 = false → rd t Reg.TBF_SWITCH_COUNT = rd s Reg.TBF_SWITCH_COUNT + 1) ∧
      Reported (if rdFld s Reg.TBF_CTRL 1 0 = 2 then 0 else if s.pwr.state = .run then 3
        else if s.pwr.state = .hold ∨ s.pwr.state = .standby then 1 else 0) 0x16 0 0x08 t) ∧
    (rdBit s Reg.TBF_STATUS 0 = true → rdBit s Reg.TBF_STATUS 1 = true →
      (s.pwr.state = .hold ∨ s.pwr.state = .standby ∨ s.pwr.state = .detached) →
      (rdFld s Reg.TBF_CTRL 1 0 = 0 ∨ rdFld s Reg.TBF_CTRL 1 0 = 1 ∧ s.tb.returnAllowed = true) →
      ∃ t, exec .returnToBeat s = .next t ∧ rdBit t Reg.TBF_STATUS 0 = false ∧ rdBit t Reg.TBF_EVENTS 2 = true ∧
        rd t Reg.TBF_SWITCH_COUNT = rd s Reg.TBF_SWITCH_COUNT + 1 ∧ (role s < 2 → busState t = 1) ∧
        SameRegs [Reg.TBF_STATUS, Reg.TBF_EVENTS, Reg.TBF_SWITCH_COUNT, Reg.QDR_STATUS] s t) ∧
    (s.pwr.state = .run ∨ rdBit s Reg.TBF_STATUS 1 = false → exec .returnToBeat s = .next s) ∧
    (∃ t, exec .xoFailure s = .next t ∧ t.tb.xoFailed = true ∧ rdBit t Reg.TBF_STATUS 3 = false ∧ rdBit t Reg.TBF_EVENTS 3 = true ∧
      (rdBit s Reg.TBF_STATUS 0 = false → Reported 2 0x17 0 0x09 t ∧ t.net = s.net) ∧
      (rdBit s Reg.TBF_STATUS 0 = true → Reported 3 0x17 0 0x09 t ∧ t.net.port0.linked = 0 ∧ t.net.port1.linked = 0 ∧
        rdBit t Reg.NET_PORT_STATUS0 16 = false ∧ rdBit t Reg.NET_PORT_STATUS1 16 = false) ∧
      SameRegs [Reg.TBF_STATUS, Reg.TBF_EVENTS, Reg.FLT_Q_OVERFLOW, Reg.NET_PORT_STATUS0, Reg.NET_PORT_STATUS1] s t)

/-- R83 to R86, R96 and R171: at the end of a window each monitor's slack stands in its register, for monitors 16 to 23 the lower of their own and
of the spare engine's (the 33rd value, 100 % where it is missing: the model's choice, assumption 37), the least of the step is kept, one below the threshold
is noticed once per monitor and step, and a slack of 0 or less halts as C3; a Pavane period missed is counted, saturating, and noticed; an accepted
read of the low half of the BEAT count answers it and latches the high half. R92 to R95 and R616: a telemetry sample counts TEL_SEQ, shows VIN and
input power, begins the record with its mark and length, names in TEL_SENSOR_EXCL the junction sensors that R93 excludes and reports each that is
new as C1; the hottest sensor that remains is in the record, and reaching 125 °C is C3 and exceeding 135 °C C4 of the thermal unit when it first
happens. What the spec leaves open follows assumption 37. -/
def Obligations.MonitorsAndTelemetryReport : Prop :=
  (∀ (obs : List SlackObs) (job : PavaneJob) (q : Req) (s : State),
     (∃ t, exec (.slackWindowEnd obs) s = .next t ∧ ∀ m < 32, ∀ o, obs[m]? = some o →
       let spare := match obs[32]? with | some x => slackOf x | none => 10000
       let slack := if 16 ≤ m ∧ m < 24 then min (slackOf o) spare else slackOf o
       rd t (Reg.TBF_SLACK m) = wd (twos 16 slack) ∧
       sext 16 (rdN t Reg.TBF_SLACK_MIN) ≤ slack ∧
       (slack < (rdN s Reg.TBF_SLACK_WARN : Int) → m ∉ s.tb.slackNoted →
         rdBit t Reg.TBF_EVENTS 4 = true ∧ rdBit t Reg.TBF_STATUS 4 = true ∧ m ∈ t.tb.slackNoted ∧ Reported 0 0x1D m 0x09 t) ∧
       (slack ≤ 0 → Reported 3 0x1D m 0x09 t)) ∧
     (∃ t, exec (.pavanePeriodMiss job) s = .next t ∧ rdN t Reg.TBF_PAV_LATE = min (rdN s Reg.TBF_PAV_LATE + 1) 0xFFFFFFFF ∧
       rdBit t Reg.TBF_EVENTS 5 = true ∧ Reported 0 (jobClass job) 0 0x07 t ∧
       SameRegs [Reg.TBF_PAV_LATE, Reg.TBF_EVENTS, Reg.FLT_Q_OVERFLOW] s t) ∧
     (ReadAccepted q Reg.TBF_BEAT_COUNT_LO s → exec (.beatCountRead q) s = .next { s with
       ans := { status := 0, done := 1, data := [wd s.beat] }, tb := { s.tb with beatLatch := s.beat / 4294967296 } })) ∧
  (∀ (obs : SensorObs) (s : State),
     let tj := padTo 16 0 obs.tj
     let out := excludedSensors tj
     let hot := hottest tj ((List.range 16).filter (fun n => !(out.contains n)))
     ∃ t, exec (.telemetrySample obs) s = .next t ∧ rd t Reg.TEL_SEQ = rd s Reg.TEL_SEQ + 1 ∧
       rd t Reg.PWR_VIN = wd obs.vin ∧ rd t Reg.PWR_PIN = wd obs.pin ∧ rd t (Reg.TEL_SNAP 0) = 0x00800054 ∧
       rd t (Reg.TEL_SNAP 1) = epochNow s ∧ t.tb.slackLow = none ∧
       (∀ n < 16, rdBit t Reg.TEL_SENSOR_EXCL n = out.contains n) ∧
       (∀ n ∈ out, rdBit s Reg.TEL_SENSOR_EXCL n = false → Reported 1 0x15 n 0x09 t) ∧
       (∀ x n, hot = some (x, n) →
         rdFld t (Reg.TEL_SNAP 7) 31 16 = twos 16 x ∧ rdFld t (Reg.TEL_SNAP 8) 15 0 = n ∧
         (tjMax s < 2000 → 2000 ≤ sext 16 (twos 16 x) → Reported 3 0x19 n 0x0C t) ∧
         (tjMax s ≤ 2160 → 2160 < sext 16 (twos 16 x) → Reported 4 0x19 n 0x0C t)))


/-! ### Chapter 3: companion lanes -/

/-- R101, R105 to R113, R115 and R123: how a lane comes up to LOCK. A lane in DETECT that finds signal and markers of the declared polarity, and may
train, enters TRAIN; a training frame whose check holds, or in a near loopback the lane's own, moves the transmitter as R105 answers its requests, within the limits of R103; the receiver is ready at 16
errors or fewer and asks for precoding when its first DFE tap is 0.35 of the main cursor or more; a timeout squelches the lane in DETECT with its
reason and gives up at the third failure in a row. What the spec leaves open follows assumptions 24 and 47. -/
def Obligations.LaneTrainsOrFallsBack : Prop :=
  ∀ (g : Fin 16) (lane : LaneId) (s : State),
    let l := laneNum lane
    let at_ (k : Nat) : Prop := laneState s g.val l = k
    let inv := rxInverted s g.val l
    (at_ 0 → laneMayTrain s g.val l = true → ∃ t, exec (.laneDetectExit g lane inv) s = .next t ∧ laneState t g.val l = 1 ∧
      rdBit t (laneStatus g.val l) 3 = true ∧ SameRegs [laneStatus g.val l, txffeOf g.val l] s t) ∧
    (at_ 0 → ∃ t, exec (.laneDetectExit g lane (!inv)) s = .next t ∧ laneState t g.val l = 0 ∧ t.lanes = s.lanes ∧
      rdBit t (Reg.LNK_PHY_EVENTS g.val) 7 = true) ∧
    (∀ (control status : Word) (check : BitVec 16) (steer : Nat),
      let near := nearLoop s g.val l
      let word := if near then (laneOf s g.val l).ctl.toNat else control.toNat
      let answers := if near then (laneOf s g.val l).stat.toNat else status.toNat
      let taken := near = true ∨ check.toNat = trainingCheck control.toNat status.toNat
      (at_ 1 → taken → ∃ t, exec (.trainingFrameRx g lane control status check steer) s = .next t ∧
      rd t (txffeOf g.val l) = tapWord (answerTaps (rdBit s (xctrlOf g.val l) 0) word (laneOf s g.val l).stat.toNat
        (tapsOf (rd s (txffeOf g.val l)))).1 ∧
      (tapsOk (tapsOf (rd s (txffeOf g.val l))) = true → tapsOk (tapsOf (rd t (txffeOf g.val l))) = true) ∧
      rdBit t (laneStatus g.val l) 5 = bitN answers 6 ∧
      (laneState t g.val l = if 3 ≤ (laneOf s g.val l).partnerReady ∧ (laneOf s g.val l).ready = true ∧ 15 ≤ (laneOf s g.val l).further
        then 2 else 1)) ∧
      (¬at_ 1 ∨ ¬taken → exec (.trainingFrameRx g lane control status check steer) s = .next (sendTraining g.val l s))) ∧
    (∀ errors dfe main, at_ 1 → errors ≤ 16 → (laneOf s g.val l).ready = false →
      ∃ t, exec (.rxReadySet g lane errors dfe main) s = .next t ∧ (laneOf t g.val l).ready = true ∧ bit (laneOf t g.val l).ctl 9 = true ∧
        (rdFld s (xctrlOf g.val l) 7 6 = 0 → bit (laneOf t g.val l).ctl 8 = decide (35 * main ≤ 100 * dfe)) ∧ t.regs = s.regs) ∧
    (∀ errors dfe main, ¬at_ 1 ∨ 16 < errors → exec (.rxReadySet g lane errors dfe main) s = .next s) ∧
    (∀ why, (at_ 1 ∧ why = 1 ∨ at_ 2 ∧ loopbackOf s g.val l = 0 ∧ why = 2 ∨ at_ 3 ∧ why = 3) →
      rdFld s (laneStatus g.val l) 31 24 < 255 → ∃ t, exec (.laneStateTimeout g lane) s = .next t ∧ laneState t g.val l = 0 ∧
        rdFld t (laneStatus g.val l) 23 16 = why ∧ (laneOf t g.val l).squelched = true ∧
        rdFld t (laneStatus g.val l) 31 24 = rdFld s (laneStatus g.val l) 31 24 + 1 ∧
        (2 ≤ rdFld s (laneStatus g.val l) 31 24 → rdBit t (laneStatus g.val l) 6 = true ∧
          (g.val ∉ s.img.lateGroups → Reported 2 0x10 (2 * g.val + l) 0x07 t))) ∧
    (at_ 0 ∨ at_ 4 ∨ at_ 2 ∧ loopbackOf s g.val l ≠ 0 → exec (.laneStateTimeout g lane) s = .next s) ∧
    (rdBit s (laneStatus g.val l) 6 = true → exec (.squelchEnd g lane) s = .next s) ∧
    (rdBit s (laneStatus g.val l) 6 = false → ∃ t, exec (.squelchEnd g lane) s = .next t ∧
      (laneOf t g.val l).squelched = false ∧ t.regs = s.regs ∧ Alters [.lanes] s t)

/-- R112, R113, R116, R117, R119, R120 and R122: a record received 4 times identical with ACK that passes the checks of the exchange makes the lane
ACTIVE and stands in LNK_CAP; one that fails them sends it back with the reason. Signal lost sends the lane to DETECT; a loss of ACTIVE is C1 of the
lane while its twin is ACTIVE (in RUN after one frame period, within which the loss of the twin makes it the group's), otherwise C2 of the group in
HOLD and C3 in a running step. What the spec leaves open follows assumptions 22 and 24. -/
def Obligations.LaneIsActiveOrLost : Prop :=
  ∀ (g : Fin 16) (lane : LaneId) (aPs bPs : Int) (s : State), Quiet s →
    let l := laneNum lane
    let record := (laneOf s g.val l).capRec
    let skew := bPs - aPs
    let received := laneState s g.val l = 3 ∧ 4 ≤ (laneOf s g.val l).capRun
    (received → exchangeReason s g.val l record skew = none →
      ∃ t, exec (.laneExchangeAccept g lane aPs bPs) s = .next t ∧ laneState t g.val l = 4 ∧
        rdRegs t (capOf g.val l 0) 8 = bytesToWords record ∧ rdFld t (laneStatus g.val l) 31 24 = 0 ∧
        rdBit t (Reg.LNK_PHY_EVENTS g.val) (1 + 2 * l) = true ∧
        (3 ≤ laneState s g.val (1 - l) → rd t (Reg.LNK_PHY_SKEW g.val) = wd (twos 32 skew))) ∧
    (∀ why, received → exchangeReason s g.val l record skew = some why →
      ∃ t, exec (.laneExchangeAccept g lane aPs bPs) s = .next t ∧ laneState t g.val l = 0 ∧
        rdFld t (laneStatus g.val l) 23 16 = why ∧ (laneOf t g.val l).squelched = true) ∧
    (laneState s g.val l = 0 → ∃ t, exec (.laneSignalLost g lane) s = .next t ∧ laneState t g.val l = 0 ∧
      rdBit t (laneStatus g.val l) 3 = false ∧ SameRegs [laneStatus g.val l] s t ∧ t.flt = s.flt) ∧
    (laneState s g.val l = 1 ∨ laneState s g.val l = 2 ∨ laneState s g.val l = 3 →
      ∃ t, exec (.laneSignalLost g lane) s = .next t ∧ laneState t g.val l = 0 ∧ rdFld t (laneStatus g.val l) 23 16 = 0x08 ∧ t.flt = s.flt) ∧
    (laneState s g.val l = 4 → ∃ t, exec (.laneSignalLost g lane) s = .next t ∧ laneState t g.val l = 0 ∧
      rdFld t (laneStatus g.val l) 23 16 = 0x08 ∧ rdBit t (laneStatus g.val l) 3 = false ∧
      rdBit t (Reg.LNK_PHY_EVENTS g.val) (2 * l) = true ∧
      (laneActive s g.val (1 - l) = true → s.pwr.state ≠ .run → Reported 1 0x10 (2 * g.val + l) 0x08 t) ∧
      (laneActive s g.val (1 - l) = true → s.pwr.state = .run → (linkOf t g.val).lossNote = some (l, s.time + framePeriods s g.val)) ∧
      (laneActive s g.val (1 - l) = false → s.pwr.state = .hold ∨ s.pwr.state = .standby → Reported 2 0x1E g.val 0x08 t) ∧
      (laneActive s g.val (1 - l) = false → s.pwr.state = .run → stageLate s = false → Reported 3 0x1E g.val 0x08 t) ∧
      (4 ≤ (recentDepartures s g.val l).length + 1 → rdBit t (laneStatus g.val l) 6 = true))

/-- R103, R119, R121, R124, R125 and R131: RETRAIN that would take the only ACTIVE lane of a group in the running step is refused with LANE_BUSY and
changes nothing; otherwise each lane named goes to DETECT with GAVE_UP and its count of failures cleared. LNK_PHY_XCTRL and manual taps outside
their limits are refused with VALUE_RANGE; accepted, they return the lane to DETECT, where a squelch and GAVE_UP stay. Enabling BERT clears its counters. What the spec leaves open
follows assumptions 24 and 47. -/
def Obligations.LaneCommandsAct : Prop :=
  ∀ (q : Req) (g : Fin 16) (a b : Bool) (lane : LaneId) (v : Word) (s : State), Quiet s →
    let l := laneNum lane
    let down (t : State) (l : Nat) : Prop := laneState t g.val l = 0 ∧ rdBit t (laneStatus g.val l) 6 = false ∧
      rdFld t (laneStatus g.val l) 31 24 = 0 ∧ (laneOf t g.val l).squelched = false
    let back (t : State) : Prop := laneState t g.val l = 0 ∧ rdBit t (laneStatus g.val l) 6 = rdBit s (laneStatus g.val l) 6 ∧
      (laneOf t g.val l).squelched = (laneOf s g.val l).squelched
    (Accepted q (Reg.LNK_PHY_CMD g.val) (phyWord 0 a b) s →
      (lanesBusy s g.val a b = true → a = true ∨ b = true → exec (.retrain q g a b) s = .next { s with ans := { status := 0x46 } }) ∧
      (lanesBusy s g.val a b = false → ∃ t, exec (.retrain q g a b) s = .next t ∧ t.ans = { status := 0 } ∧
        (a = true → down t 0) ∧ (b = true → down t 1))) ∧
    (Accepted q (xctrlOf g.val l) v s →
      (xctrlOk v = false → exec (.phyXctrlWrite q g lane v) s = .next { s with ans := { status := 0x45 } }) ∧
      (xctrlOk v = true → ∃ t, exec (.phyXctrlWrite q g lane v) s = .next t ∧ back t ∧ loopbackOf t g.val l = fld v 10 8 ∧
        rdFld t (xctrlOf g.val l) 7 2 = fld v 7 2)) ∧
    (Accepted q (txffeManOf g.val l) v s →
      (tapsOk (tapsOf v) = false → exec (.txffeManWrite q g lane v) s = .next { s with ans := { status := 0x45 } }) ∧
      (tapsOk (tapsOf v) = true → ∃ t, exec (.txffeManWrite q g lane v) s = .next t ∧ back t ∧ rdFld t (txffeManOf g.val l) 23 0 = fld v 23 0)) ∧
    (Accepted q (Reg.LNK_BERT_CTRL g.val) v s →
      (2 ≤ fld v 3 2 → exec (.bertCtrlWrite q g v) s = .next { s with ans := { status := 0x45 } }) ∧
      (fld v 3 2 < 2 → ∃ t, exec (.bertCtrlWrite q g v) s = .next t ∧ t.ans = { status := 0 } ∧ rdFld t (Reg.LNK_BERT_CTRL g.val) 3 0 = fld v 3 0 ∧
        (bit v 0 = true → rdBit s (Reg.LNK_BERT_CTRL g.val) 0 = false → rd t (Reg.LNK_BERT_ERR_A g.val) = 0 ∧ rd t (Reg.LNK_BERT_UNITS_A g.val) = 0) ∧
        (bit v 1 = true → rdBit s (Reg.LNK_BERT_CTRL g.val) 1 = false → rd t (Reg.LNK_BERT_ERR_B g.val) = 0 ∧ rd t (Reg.LNK_BERT_UNITS_B g.val) = 0) ∧
        SameRegs [Reg.LNK_BERT_CTRL g.val, Reg.LNK_BERT_ERR_A g.val, Reg.LNK_BERT_UNITS_A g.val, Reg.LNK_BERT_ERR_B g.val,
          Reg.LNK_BERT_UNITS_B g.val] s t))

/-- R90, R126 to R129 and R144: a scan command or Pavane's period starts a scan of a lane that may scan, with the number of samples of LNK_EYE_CFG;
a point moves the scan on, and the last one writes the report of its direction and notices an eye below the limit; a partner's scan that is not
answered ends without a report. What the spec leaves open follows assumptions 24 and 47. -/
def Obligations.EyeScansRunAndReport : Prop :=
  ∀ (q : Req) (g : Fin 16) (a b open_ : Bool) (lane : LaneId) (s : State),
    let l := laneNum lane
    let fresh : EyeScan := { samples := rdFld s (Reg.LNK_EYE_CFG g.val) 4 0 }
    (Accepted q (Reg.LNK_PHY_CMD g.val) (phyWord 2 a b) s → ∃ t, exec (.eyeScanCmd q g a b) s = .next t ∧ t.ans = { status := 0 } ∧
      t.regs = s.regs ∧ t.flt = s.flt ∧
      (a = true → scanMayStart s g.val 0 → (laneOf t g.val 0).eyeIn = some fresh) ∧
      (b = true → scanMayStart s g.val 1 → (laneOf t g.val 1).eyeIn = some fresh) ∧
      (a = false ∨ ¬scanMayStart s g.val 0 → laneOf t g.val 0 = laneOf s g.val 0) ∧
      (b = false ∨ ¬scanMayStart s g.val 1 → laneOf t g.val 1 = laneOf s g.val 1)) ∧
    (laneActive s g.val 0 = true → laneActive s g.val 1 = true → scanMayStart s g.val l →
      ∃ t, exec (.eyeScanPeriodic g lane) s = .next t ∧ (laneOf t g.val l).eyeIn = some fresh ∧ t.regs = s.regs) ∧
    (laneActive s g.val 0 = false ∨ laneActive s g.val 1 = false → exec (.eyeScanPeriodic g lane) s = .next s) ∧
    (∀ e, (laneOf s g.val l).eyeIn = some e → scanRuns s g.val l = true →
      ((eyePoint open_ e).2 = false → ∃ t, exec (.eyeScanPointDone g lane open_) s = .next t ∧ t.regs = s.regs ∧
        laneOf t g.val l = { laneOf s g.val l with eyeIn := some (eyePoint open_ e).1 }) ∧
      ((eyePoint open_ e).2 = true → ∃ t, exec (.eyeScanPointDone g lane open_) s = .next t ∧
        laneOf t g.val l = { laneOf s g.val l with eyeIn := none } ∧ rdFld t (eyeAddr g.val l 0) 15 0 = 0x45 ∧
        rdFld t (eyeAddr g.val l 0) 23 16 = 2 * g.val + l ∧ rd t (eyeAddr g.val l 0 + 4) = epochNow s ∧
        ((eyePoint open_ e).1.widths.any (fun w => decide (w < rdN s (Reg.LNK_EYE_LIMIT g.val) % 256)) = true →
          rdBit t (Reg.LNK_PHY_EVENTS g.val) 6 = true ∧ Reported 0 0x10 (2 * g.val + l) 0x09 t))) ∧
    ((laneOf s g.val l).eyeIn = none ∨ scanRuns s g.val l = false → exec (.eyeScanPointDone g lane open_) s = .next s) ∧
    (∀ e, (laneOf s g.val l).eyeOut = some e → e.sent = true → ∃ t, exec (.eyeRspTimeout g lane) s = .next t ∧
      laneOf t g.val l = { laneOf s g.val l with eyeOut := none, eyeStop := some e.samples } ∧ t.regs = s.regs) ∧
    ((∀ e, (laneOf s g.val l).eyeOut = some e → e.sent = false) → exec (.eyeRspTimeout g lane) s = .next s)

/-! ### Chapter 4: the link -/

/-- R116, R137, R145 to R147, R150, R154 and R204: a DATA frame that is ready, and whose segments are resident, leaves with the next FSEQ, counts as
sent and outstanding (as lost when its release point has passed) and advances the builder; where none is ready an IDLE frame leaves, or a CAP frame
when a lane is in EXCHANGE and nothing waits, also with the next FSEQ; between FIRST and LAST, or with no lane in LOCK, nothing leaves. R112, R116,
R123, R136, R137, R139 and R152: what a marker and a codeword at the pins of a lane do. Before LOCK, and in a near loopback, they do nothing. A lane
that holds alignment takes a marker with 29 of 32 bits right, one that does not the exact marker before a codeword that decodes, and else stays so.
A codeword that does not decode is counted, and the eighth among the last 64 loses alignment, which takes an ACTIVE lane to DETECT; one that decodes
counts its corrected symbols, 24 at most; the 64th good one in a row ends LOCK; in EXCHANGE the record of a CAP frame is kept; on an ACTIVE lane a
frame already delivered or held counts as a twin, one of an unknown type as a bad sequence, and the next IDLE frame in order is delivered. A load
that waits for its groups ends where the codeword makes the last of them whole (R61). What the spec leaves open follows assumptions 21 to 23 and 48. -/
def Obligations.FramesLeaveAndAreMerged : Prop :=
  (∀ (g : Fin 16) (t1 : Nat) (s : State),
     let seq := rdN s (Reg.LNK_FR_TXSEQ g.val)
     let link := linkOf s g.val
     let resident := ∀ st, s.seq.step = some st → ∀ c ∈ groupCtxs s st.ctxs g.val, missingAt s (ctxOf s c) link.built = none
     let loops := ∀ l < 2, nearLoop s g.val l = true → laneState s g.val l ≤ 2
     (dataReady s g.val = true → resident ∨ 0 < link.built → loops → ∃ t fr, exec (.frameSend g t1) s = .next t ∧
       (linkOf t g.val).lastOut = some fr ∧ fr.typ = 1 ∧ fr.fseq = seq ∧ fr.first = decide (link.built = 0) ∧ fr.payload.length = 64 ∧
       rdN t (Reg.LNK_FR_TXSEQ g.val) = (seq + 1) % 16777216 ∧ (linkOf t g.val).built = link.built + 1 ∧
       rd t (Reg.LNK_FR_SENT g.val) = rd s (Reg.LNK_FR_SENT g.val) + 1 ∧
       (seq ∉ link.missed → rdN t (Reg.LNK_FR_OUTSTANDING g.val) = rdN s (Reg.LNK_FR_OUTSTANDING g.val) + 1) ∧
       (seq ∈ link.missed → rd t (Reg.LNK_FR_LOST g.val) = rd s (Reg.LNK_FR_LOST g.val) + 1)) ∧
     (dataReady s g.val = false → exec (.frameSend g t1) s = exec (.idleFrameTimer g t1) s) ∧
     (carriesFrames s g.val = true → betweenFrames s g.val = false → loops → ∃ t fr, exec (.idleFrameTimer g t1) s = .next t ∧
       (linkOf t g.val).lastOut = some fr ∧ fr.fseq = seq ∧
       (fr.typ = 0 ∨ fr.typ = 2 ∧ (exchanging s g.val 0 = true ∨ exchanging s g.val 1 = true)) ∧
       (link.idleEntries ≠ [] → fr.typ = 0) ∧ (linkOf t g.val).inject = none ∧ rdN t (Reg.LNK_FR_TXSEQ g.val) = (seq + 1) % 16777216 ∧
       (s.shadowF = [] → (∀ l < 2, nearLoop s g.val l = false) → SameRegs [Reg.LNK_FR_TXSEQ g.val] s t)) ∧
     (carriesFrames s g.val = false ∨ betweenFrames s g.val = true → exec (.idleFrameTimer g t1) s = .next s)) ∧
  (∀ (g : Fin 16) (lane : LaneId) (marker : Word) (codeword : BitVec 4880) (t4 : Nat) (x y z : Copies) (s : State), Quiet s →
     let l := laneNum lane
     let bits := (receiveBits g.val l frameLen (marker.toNat * 2 ^ 4880 + codeword.toNat) s).1
     let aligned := rdBit s (Reg.LNK_FR_STATUS g.val) l = true
     let off := bitDiff (bits / 2 ^ 4880) frameMarker
     let lost := 8 ≤ (((true :: (laneOf s g.val l).recent).take 64).filter id).length
     let hears := 2 ≤ laneState s g.val l ∧ nearLoop s g.val l = false ∧ bertRuns s g.val l = false
     let run (u : State) : Prop := exec (.inwardCodeword g lane marker codeword t4 x y z) s = .next (checkLoadDone u)
     (laneState s g.val l < 2 ∨ nearLoop s g.val l = true → run s) ∧
     (hears → rsDecode (bits % 2 ^ 4880) = none → aligned → off ≤ 3 → ∃ u, run u ∧ rd u (uncorrOf g.val l) = rd s (uncorrOf g.val l) + 1 ∧
       (¬lost → SameRegs [uncorrOf g.val l] s u ∧ (laneOf u g.val l).goodRun = 0) ∧
       (lost → laneState s g.val l = 4 →
         laneState u g.val l = 0 ∧ rdFld u (laneStatus g.val l) 23 16 = 0x09 ∧ rdBit u (Reg.LNK_FR_EVENTS g.val) l = true)) ∧
     (hears → laneState s g.val l ≠ 4 → ¬aligned → 0 < off ∨ rsDecode (bits % 2 ^ 4880) = none → ∃ u, run u ∧ u.regs = s.regs ∧ u.links = s.links) ∧
     (∀ data n, rsDecode (bits % 2 ^ 4880) = some (data, n) → hears → off ≤ (if rdBit s (Reg.LNK_FR_STATUS g.val) l then 3 else 0) → n ≤ 24 ∧
       let fr := frameOfData data
       (laneState s g.val l = 2 → ∃ u, run u ∧ rdN u (corrOf g.val l) = min (rdN s (corrOf g.val l) + n) 0xFFFFFFFF ∧
         rdBit u (Reg.LNK_FR_STATUS g.val) l = true ∧ (laneOf u g.val l).goodRun = (laneOf s g.val l).goodRun + 1 ∧
         rd u (Reg.LNK_FR_BADSEQ g.val) = rd s (Reg.LNK_FR_BADSEQ g.val) + (if 3 ≤ fr.typ then 1 else 0) ∧
         laneState u g.val l = (if 63 ≤ (laneOf s g.val l).goodRun ∧ loopbackOf s g.val l = 0 then 3 else 2)) ∧
       (laneState s g.val l = 3 → fr.typ = 2 → recordIntact (entriesRecord fr.entries) = true → ∃ u, run u ∧
         (laneOf u g.val l).capRec = entriesRecord fr.entries ∧ laneState u g.val l = 3 ∧
         (laneOf u g.val l).capRun = (if recordAck (entriesRecord fr.entries) then
           (if (laneOf s g.val l).capRec = entriesRecord fr.entries then (laneOf s g.val l).capRun + 1 else 1) else 0)) ∧
       (laneState s g.val l = 4 → 3 ≤ fr.typ → ∃ u, run u ∧ rd u (Reg.LNK_FR_BADSEQ g.val) = rd s (Reg.LNK_FR_BADSEQ g.val) + 1 ∧
         laneState u g.val l = 4) ∧
       (laneState s g.val l = 4 → fr.typ = 0 → ∀ m, (linkOf s g.val).next = some m → inMerge s g.val l = true →
         8388608 ≤ seqDiff fr.fseq m → ∃ u, run u ∧ rd u (Reg.LNK_FR_TWIN g.val) = rd s (Reg.LNK_FR_TWIN g.val) + 1 ∧
           (linkOf u g.val).next = some m) ∧
       (laneState s g.val l = 4 → fr.typ = 0 → fr.entries = [0, 0, 0, 0] → (linkOf s g.val).next = some fr.fseq →
         (linkOf s g.val).buf = [] → inMerge s g.val l = true → ∃ u, run u ∧
           rdN u (Reg.LNK_FR_RXSEQ g.val) = (fr.fseq + 1) % 16777216 ∧ (linkOf u g.val).next = some ((fr.fseq + 1) % 16777216) ∧
           (linkOf u g.val).buf = [])))

/-- R123, R133, R139 to R141, R161 to R163 and R169: filler words at the pins that hold keep alignment, an unknown one counts as a bad sequence, and
the fourth word in a row that is neither filler nor marker loses alignment; a probe period asks for a probe of each ACTIVE lane of an aligned group; a
group not aligned in time is C2 and starts again; LNK_FR_INJECT arms a corruption, and LNK_FR_XCTRL is refused with VALUE_RANGE when it turns both
lanes off. What the spec leaves open follows assumptions 22 and 23. -/
def Obligations.FillersAlignmentAndFrameControls : Prop :=
  ∀ (q : Req) (g : Fin 16) (lane : LaneId) (word v : Word) (s : State),
    let l := laneNum lane
    let w := (receiveBits g.val l fillerLen word.toNat s).1
    let filler := bitDiff (bitsN w 31 16) 0x5AC3 ≤ 2
    let hears := 2 ≤ laneState s g.val l ∧ nearLoop s g.val l = false ∧ bertRuns s g.val l = false
    (Quiet s → laneState s g.val l < 2 ∨ nearLoop s g.val l = true → exec (.fillerWordRx g lane word) s = .next s) ∧
    (Quiet s → hears → filler → fillerCheck w = true → bitsN w 15 12 < 5 →
      ∃ t, exec (.fillerWordRx g lane word) s = .next t ∧ t.regs = s.regs ∧ (laneOf t g.val l).badWords = 0) ∧
    (Quiet s → hears → filler → (fillerCheck w = true ∧ 9 ≤ bitsN w 15 12 ∨
        fillerCheck w = false ∧ (laneOf s g.val l).badWords < 3) →
      ∃ t, exec (.fillerWordRx g lane word) s = .next t ∧ rd t (Reg.LNK_FR_BADSEQ g.val) = rd s (Reg.LNK_FR_BADSEQ g.val) + 1 ∧
        rdBit t (Reg.LNK_FR_EVENTS g.val) 7 = true ∧ laneState t g.val l = laneState s g.val l) ∧
    (Quiet s → hears → ¬filler → 3 < bitDiff w frameMarker →
      ∃ t, exec (.fillerWordRx g lane word) s = .next t ∧
        ((laneOf s g.val l).badWords < 3 → (laneOf t g.val l).badWords = (laneOf s g.val l).badWords + 1 ∧ t.regs = s.regs) ∧
        (3 ≤ (laneOf s g.val l).badWords → laneState s g.val l = 4 → rdBit s (Reg.LNK_FR_STATUS g.val) l = true → laneState t g.val l = 0)) ∧
    (rdBit s (Reg.LNK_FR_STATUS g.val) 4 = true →
      exec (.cntAlignTimeout g) s = .next s ∧
      ∃ t, exec (.probePeriod g) s = .next t ∧ t.regs = s.regs ∧
        linkOf t g.val = { linkOf s g.val with probeDue := [0, 1].filter (laneActive s g.val) }) ∧
    (rdBit s (Reg.LNK_FR_STATUS g.val) 4 = false → exec (.probePeriod g) s = .next s) ∧
    (groupActive s g.val = true → rdBit s (Reg.LNK_FR_STATUS g.val) 4 = false → ∃ t, exec (.cntAlignTimeout g) s = .next t ∧
      Reported 2 0x1E g.val 0x07 t ∧ (linkOf t g.val).adjusted = false ∧ (probeOf t g.val 0).run = 0 ∧ (probeOf t g.val 1).run = 0 ∧
      SameRegs [Reg.LNK_FR_STATUS g.val, Reg.FLT_Q_OVERFLOW] s t) ∧
    (groupActive s g.val = false → exec (.cntAlignTimeout g) s = .next s) ∧
    (Accepted q (Reg.LNK_FR_INJECT g.val) v s → ∃ t, exec (.frameInject q g v) s = .next t ∧ t.ans = { status := 0 } ∧
      linkOf t g.val = { linkOf s g.val with inject := some (fld v 7 0, fld v 8 8) } ∧ t.regs = s.regs) ∧
    (Accepted q (Reg.LNK_FR_XCTRL g.val) v s →
      (fld v 1 0 = 3 → exec (.frXctrlWrite q g v) s = .next { s with ans := { status := 0x45 } }) ∧
      (fld v 1 0 ≠ 3 → ∃ t, exec (.frXctrlWrite q g v) s = .next t ∧ t.ans = { status := 0 } ∧
        rdFld t (Reg.LNK_FR_XCTRL g.val) 1 0 = fld v 1 0 ∧ SameRegs [Reg.LNK_FR_XCTRL g.val] s t))

/-! ### Chapters 5 and 6: sequences, steps and microcode -/

/-- R184 and R210: an instruction command does nothing where the context takes no instruction or the word is another's; a word that is no
instruction, and an address past the last one, are program errors: the context stands in ERROR with the code shown and noticed. R185, R203 and R210:
LOOP whose objects are resident pushes its entry, and otherwise holds; ENDLOOP runs the body again or pops; CALL and RET use the call stack; JUMP
goes to its target; no other context changes, and the context's checkpoint is what it then is (R223). Overflow, underflow and a target past the program are program errors 0x02, 0x04, 0x03, 0x05 and 0x06.
What the spec leaves open follows assumption 26. -/
def Obligations.LoopsCallsAndJumpsRun : Prop :=
  (∀ (c : Fin 64) (i : Instr) (s : State), i ∈ seqInstrs c →
     (takesInstr s c.val = false → exec i s = .next s) ∧
     (takesInstr s c.val = true → progCount s c.val ≤ (ctxOf s c.val).pc → ∃ t, exec i s = .next t ∧ ErrorShown c.val 0x0A t) ∧
     (takesInstr s c.val = true → (ctxOf s c.val).pc < progCount s c.val → wordValid (progWord s c.val (ctxOf s c.val).pc) = false →
       ∃ t, exec i s = .next t ∧ ErrorShown c.val 0x01 t)) ∧
  (∀ (c : Fin 64) (w : Nat) (s : State),
     let x := ctxOf s c.val
     let n := progCount s c.val
     let b := (progBase s c.val).getD 0
     let lands (r : Host.Outcome State Fault Refusal) (y : Ctx) : Prop :=
       ∃ t, r = .next t ∧ ctxOf t c.val = { y with check := checkpointOf y } ∧ OnlyCtx c.val s t
     let errs (r : Host.Outcome State Fault Refusal) (code : Nat) : Prop := ∃ t, r = .next t ∧ ErrorShown c.val code t
     (SeqReady c.val 0x03 w s →
       (4 ≤ x.loops.length → errs (exec (.seqLoop c) s) 0x02) ∧
       (x.loops.length < 4 → residencyList s b (bitsN w 51 32) = none → errs (exec (.seqLoop c) s) 0x0B) ∧
       (∀ ids, x.loops.length < 4 → residencyList s b (bitsN w 51 32) = some ids → ids.all (isResident s) = true →
         lands (exec (.seqLoop c) s) { x with
           pc := x.pc + 1, pinned := x.pinned ++ ids, checkedLists := x.checkedLists ++ [bitsN w 51 32],
           loops := { body := x.pc + 1, left := bitsN w 31 0 - 1, endless := bitsN w 31 0 == 0 } :: x.loops }) ∧
       (∀ ids, x.loops.length < 4 → residencyList s b (bitsN w 51 32) = some ids → ids.all (isResident s) = false →
         ∃ t, exec (.seqLoop c) s = .next t ∧ (ctxOf t c.val).state = .resHold ∧ (ctxOf t c.val).pc = x.pc ∧
           (ctxOf t c.val).loops = x.loops ∧ ∀ i ∈ ids, isResident s i = false → ∃ r ∈ t.lib.queue, r.id = i)) ∧
     (SeqReady c.val 0x04 w s →
       (x.loops = [] → errs (exec (.seqEndloop c) s) 0x04) ∧
       (∀ e es, x.loops = e :: es →
         (e.endless = true → lands (exec (.seqEndloop c) s) { x with pc := e.body }) ∧
         (e.endless = false → 0 < e.left → lands (exec (.seqEndloop c) s) { x with pc := e.body, loops := { e with left := e.left - 1 } :: es }) ∧
         (e.endless = false → e.left = 0 → lands (exec (.seqEndloop c) s) { x with pc := x.pc + 1, loops := es }))) ∧
     (SeqReady c.val 0x05 w s →
       (8 ≤ x.calls.length → errs (exec (.seqCall c) s) 0x03) ∧
       (x.calls.length < 8 → n ≤ bitsN w 23 0 → errs (exec (.seqCall c) s) 0x06) ∧
       (x.calls.length < 8 → bitsN w 23 0 < n → lands (exec (.seqCall c) s) { x with pc := bitsN w 23 0, calls := (x.pc + 1) :: x.calls })) ∧
     (SeqReady c.val 0x06 w s →
       (x.calls = [] → errs (exec (.seqRet c) s) 0x05) ∧
       (∀ a as, x.calls = a :: as → lands (exec (.seqRet c) s) { x with pc := a, calls := as })) ∧
     (SeqReady c.val 0x07 w s →
       (n ≤ bitsN w 23 0 → errs (exec (.seqJump c) s) 0x06) ∧
       (bitsN w 23 0 < n → lands (exec (.seqJump c) s) { x with pc := bitsN w 23 0 })))

/-- R177, R185, R192, R194, R196, R197 and R210: PLAY, PLAYN and MATCH start their segment at the next vector, which is a segment start, and WAITT
and WAITTIME begin to emit hold vectors, all as far as the decision gate lets them; what the frame builders hold already after a takeover is not
issued again (R224). A count of 0 is program error 0x0D, and a segment that cannot be
played 0x08 or 0x0C. What the spec leaves open follows assumption 26. -/
def Obligations.VectorsAreEmitted : Prop :=
  ∀ (c : Fin 64) (w : Nat) (s : State),
    let x := ctxOf s c.val
    let seg := bitsN w 31 0
    let len := segLen s ((residentBase s seg).getD 0)
    let room := emitLimit s c.val - x.emitted
    let errs (r : Host.Outcome State Fault Refusal) (code : Nat) : Prop := ∃ t, r = .next t ∧ ErrorShown c.val code t
    let starts (t : State) : Prop := x.emitted < (ctxOf t c.val).emitted ∧ (x.held ≤ x.emitted →
      (x.emitted, seg) ∈ (ctxOf t c.val).segStarts ∧
      (ctxOf t c.val).runs[x.runs.length]? = some { first := x.emitted, len := min room len, kind := .seg seg 0, mask := x.mask } ∧
      (bitN w 57 = true → (x.emitted, StreamEvt.startTrigger (bitsN w 56 51)) ∈ (ctxOf t c.val).evts))
    (SeqReady c.val 0x01 w s →
      (segError s seg ≠ 0 → errs (exec (.seqPlay c) s) (segError s seg)) ∧
      (segError s seg = 0 → ∃ t, exec (.seqPlay c) s = .next t ∧ starts t ∧ (ctxOf t c.val).emitted = x.emitted + min room len ∧
        (len ≤ room → (ctxOf t c.val).pc = x.pc + 1 ∧ (ctxOf t c.val).cur = none) ∧ (room < len → (ctxOf t c.val).pc = x.pc))) ∧
    (SeqReady c.val 0x02 w s →
      (bitsN w 49 32 = 0 → errs (exec (.seqPlayn c) s) 0x0D) ∧
      (bitsN w 49 32 ≠ 0 → segError s seg ≠ 0 → errs (exec (.seqPlayn c) s) (segError s seg)) ∧
      (bitsN w 49 32 ≠ 0 → segError s seg = 0 → ∃ t, exec (.seqPlayn c) s = .next t ∧ starts t)) ∧
    (SeqReady c.val 0x09 w s →
      (bitsN w 49 32 = 0 → errs (exec (.seqMatch c) s) 0x0D) ∧
      (bitsN w 49 32 ≠ 0 → segError s seg ≠ 0 → errs (exec (.seqMatch c) s) (segError s seg)) ∧
      (bitsN w 49 32 ≠ 0 → segError s seg = 0 → ∃ t, exec (.seqMatch c) s = .next t ∧ starts t ∧ (ctxOf t c.val).pc = x.pc)) ∧
    (SeqReady c.val 0x0A w s → ∃ t, exec (.seqWaitt c) s = .next t ∧ (ctxOf t c.val).state = .waiting ∧ (ctxOf t c.val).pc = x.pc ∧
      (ctxOf t c.val).cur = some (.waitt (bitsN w 57 52) (bitsN w 39 0) (bitN w 51) x.emitted none) ∧
      (ctxOf t c.val).emitted = x.emitted + (if bitsN w 39 0 = 0 then room else min room (bitsN w 39 0))) ∧
    (SeqReady c.val 0x0B w s →
      (bitsN w 39 0 = 0 → errs (exec (.seqWaittime c) s) 0x0D) ∧
      (bitsN w 39 0 ≠ 0 → ∃ t, exec (.seqWaittime c) s = .next t ∧ (ctxOf t c.val).state = .waiting ∧ (ctxOf t c.val).pc = x.pc ∧
        (ctxOf t c.val).cur = some (.waittime x.emitted (bitsN w 39 0)) ∧
        (ctxOf t c.val).emitted = x.emitted + min room (bitsN w 39 0)))

/-- R187, R188, R198 to R201 and R208: the instructions without vectors. JUMPC arms its condition; TSET sets the timing set of the groups that the
context masters from the next frame boundary; SIGNAL waits for the next vector; STAGE requests what is not resident; SITEMASK changes one bank of
the compare mask within the site list; HOLD and HALT end the context's part. Their program errors are 0x06, 0x07, 0x09 and 0x0B. What the spec
leaves open follows assumption 26. -/
def Obligations.InstructionsWithoutVectors : Prop :=
  ∀ (c : Fin 64) (w : Nat) (s : State),
    let x := ctxOf s c.val
    let b := (progBase s c.val).getD 0
    let target := bitsN w 23 0
    let mayTarget := target < progCount s c.val ∧ opcOf (progWord s c.val target) ∈ [0x01, 0x02, 0x09]
    let errs (r : Host.Outcome State Fault Refusal) (code : Nat) : Prop := ∃ t, r = .next t ∧ ErrorShown c.val code t
    let at_ (t : State) (y : Ctx) : Prop := ctxOf t c.val = { y with check := checkpointOf y }
    (SeqReady c.val 0x08 w s →
      (¬mayTarget → errs (exec (.seqJumpc c) s) 0x06) ∧
      (mayTarget → (x.loops.length < bitsN w 45 43 ∨ x.calls.length < bitsN w 42 39) → errs (exec (.seqJumpc c) s) 0x07) ∧
      (mayTarget → bitsN w 45 43 ≤ x.loops.length → bitsN w 42 39 ≤ x.calls.length → ∃ t, exec (.seqJumpc c) s = .next t ∧
        at_ t { x with
          pc := x.pc + 1,
          arms := x.arms ++ [{
            pos := x.emitted, cond := bitsN w 57 54, arg := bitsN w 53 47, stay := bitN w 46, lpop := bitsN w 45 43,
            cpop := bitsN w 42 39, target := target }] } ∧ OnlyCtx c.val s t)) ∧
    (SeqReady c.val 0x0C w s →
      (masteredGroups s c.val = [] → errs (exec (.seqTset c) s) 0x09) ∧
      (masteredGroups s c.val ≠ [] → ∃ t, exec (.seqTset c) s = .next t ∧ at_ t { x with pc := x.pc + 1 } ∧
        ∀ g ∈ masteredGroups s c.val, (2 * x.emitted + 1, bitsN w 5 0) ∈ (linkOf t g).tsets)) ∧
    (SeqReady c.val 0x0D w s → ∃ t, exec (.seqSignal c) s = .next t ∧ OnlyCtx c.val s t ∧ at_ t { x with
      pc := x.pc + 1, signals := x.signals ++ [.signal (bitsN w 57 56) (bitsN w 55 50) (bitsN w 31 0)] }) ∧
    (SeqReady c.val 0x0E w s →
      (stageList s b (bitsN w 19 0) = none → errs (exec (.seqStage c) s) 0x0B) ∧
      (∀ ids, stageList s b (bitsN w 19 0) = some ids → ∃ t, exec (.seqStage c) s = .next t ∧ (ctxOf t c.val).pc = x.pc + 1 ∧
        ∀ i ∈ ids, isResident s i = false → (∃ r ∈ t.lib.queue, r.id = i) ∧ (bitsN w 19 0, ids) ∈ (ctxOf t c.val).stageReq)) ∧
    (SeqReady c.val 0x0F w s → ∃ t, exec (.seqSitemask c) s = .next t ∧ OnlyCtx c.val s t ∧ (ctxOf t c.val).pc = x.pc + 1 ∧
      ∀ k < (siteList s c.val).length, (ctxOf t c.val).mask.testBit k =
        if k / 32 ≠ bitsN w 57 56 then x.mask.testBit k
        else if bitsN w 33 32 = 0 then w.testBit (k % 32)
        else if bitsN w 33 32 = 1 then x.mask.testBit k || w.testBit (k % 32) else x.mask.testBit k && !w.testBit (k % 32)) ∧
    (SeqReady c.val 0x10 w s →
      (residencyList s b (bitsN w 19 0) = none → errs (exec (.seqHold c) s) 0x0B) ∧
      (residencyList s b (bitsN w 19 0) ≠ none → ∃ t, exec (.seqHold c) s = .next t ∧
        ctxOf t c.val = { x with pc := x.pc + 1, state := .holdWait, cur := none, endVec := x.emitted, holdRlist := bitsN w 19 0 })) ∧
    (SeqReady c.val 0x11 w s → ∃ t, exec (.seqHalt c) s = .next t ∧
      ctxOf t c.val = { x with state := .ended, cur := none, endVec := x.emitted })

/-- R189, R194 to R197, R242, R247, R249 and R250: how jumps, match loops, waits and residency holds end. A pending jump at its point of effect pops
what it names and continues at its target; a match loop leaves after a repetition that matched, or times out after the last, unless a jump acts on the
same vector; a wait ends 40 frames
after its line acted, at its timeout, or after its count; a held LOOP begins when its objects are resident, at the first frame not yet begun, where
the gate lets hold vectors fill the frame under way. What the spec leaves open follows
assumption 26. -/
def Obligations.JumpsAndWaitsEnd : Prop :=
  ∀ (c : Fin 64) (s : State),
    let x := ctxOf s c.val
    let at_ (t : State) (y : Ctx) : Prop := ctxOf t c.val = { y with check := checkpointOf y }
    let lands (r : Host.Outcome State Fault Refusal) (y : Ctx) : Prop := ∃ t, r = .next t ∧ at_ t y
    let jumps := boundaryDue s c.val x.emitted = true ∧ atStartPoint s c.val = true
    (∀ j, x.jump = some j → atEffect s c.val = true → ∃ t, exec (.jumpEffect c) s = .next t ∧
      at_ t { noteIgnored x with
        loops := x.loops.drop j.lpop, calls := x.calls.drop j.cpop, pc := j.target, cur := none,
        state := .running, jump := none, lastJump := some (j.frame, x.emitted / 64, j.target) } ∧
      rd t (Reg.SEQ_CTX_JTAKEN c.val) = rd s (Reg.SEQ_CTX_JTAKEN c.val) + 1) ∧
    (x.jump = none ∨ atEffect s c.val = false → exec (.jumpEffect c) s = .next s) ∧
    (∀ seg len maxrep line toHalt reps, x.cur = some (.matching seg len maxrep 0 line toHalt reps) → mayLeave s c.val = true →
      (∀ r, reps.find? (fun r => r.matched == some true) = some r →
        (64 * (r.last / 64 + 40) ≤ x.emitted → ¬jumps → lands (exec (.matchLeave c) s) (goesOn (noteIgnored x))) ∧
        (x.emitted < 64 * (r.last / 64 + 40) → exec (.matchLeave c) s = .next s)) ∧
      (∀ r, reps.getLast? = some r → maxrep ≤ reps.length → (∀ r ∈ reps, r.matched = some false) →
        64 * (r.last / 64 + 40) ≤ x.emitted → ¬jumps →
        ∃ t, exec (.matchLeave c) s = .next t ∧ rdBit t (Reg.SEQ_CTX_STATUS c.val) 13 = true ∧
          (toHalt = true → ctxOf t c.val = { x with state := .ended, cur := none, endVec := x.emitted }) ∧
          (toHalt = false → at_ t (goesOn (noteIgnored x)))) ∧
      (jumps → exec (.matchLeave c) s = .next s)) ∧
    (∀ line timeout toHalt start f, x.cur = some (.waitt line timeout toHalt start (some f)) → mayLeave s c.val = true →
      x.emitted = 64 * (f + 40) → (timeout = 0 ∨ x.emitted - start < timeout) → lands (exec (.waittRelease c) s) (goesOn x)) ∧
    (∀ line timeout toHalt start, x.cur = some (.waitt line timeout toHalt start none) → exec (.waittRelease c) s = .next s) ∧
    (∀ line timeout toHalt start acted, x.cur = some (.waitt line timeout toHalt start acted) → mayLeave s c.val = true →
      timeout ≠ 0 → x.emitted = start + timeout → ∃ t, exec (.waittTimeout c) s = .next t ∧
        rdBit t (Reg.SEQ_CTX_STATUS c.val) 14 = true ∧
        (toHalt = true → ctxOf t c.val = { x with state := .ended, cur := none, endVec := x.emitted }) ∧
        (toHalt = false → at_ t (goesOn x))) ∧
    (∀ start count, x.cur = some (.waittime start count) → ctxInStep s c.val = true → x.takeover = false → x.halted = false →
      (x.emitted = start + count → lands (exec (.waittimeEnd c) s) (goesOn x)) ∧
      (x.emitted ≠ start + count → exec (.waittimeEnd c) s = .next s)) ∧
    (∀ start n count ids, x.cur = some (.resHold start n count ids) → ctxInStep s c.val = true → x.takeover = false →
      x.halted = false → let passes := { body := x.pc + 1, left := count - 1, endless := count == 0 } :: x.loops
      (ids.all (isResident s) = true → x.stopAt = none →
        (x.emitted % 64 = 0 → lands (exec (.residencyHoldEnd c) s) (goesOn { x with loops := passes })) ∧
        (64 * ceilDiv x.emitted 64 ≤ emitLimit s c.val → ∃ t, exec (.residencyHoldEnd c) s = .next t ∧
          (ctxOf t c.val).emitted = 64 * ceilDiv x.emitted 64 ∧ (ctxOf t c.val).loops = passes ∧ (ctxOf t c.val).pc = x.pc + 1)) ∧
      (ids.all (isResident s) = false ∨ x.stopAt.isSome = true → exec (.residencyHoldEnd c) s = .next s))

/-- R205, R206, R209, R644 and R662: a START is refused by the first condition that bars it, with NOT_ADMITTED when its contexts, the blocks or the
envelope do not admit it, and then no step begins; an admitted one counts the step and either runs it with the contexts and groups that it names or,
when a list or a lane is missing, ends it. ABORT ends a step before its first frame at once, and otherwise at the next frame built. What the spec
leaves open follows assumption 25. -/
def Obligations.StepsStartAndAbort : Prop :=
  ∀ (q : Req) (at_ : Bool) (s : State),
    let cs := stepContexts s
    let gs := stepGroups s cs
    let u := applyS (includedIn s cs gs) s
    let p := powerEstimate u (gs.map (periodOf u))
    let admitted := stepWellFormed u cs gs = true ∧ blocksAdmit u cs gs = true ∧ admitReason u p = 0
    (Accepted q Reg.SEQ_STEP_CMD (startWord at_) s →
      (∀ code, startBarred s = some code → exec (.stepStart q at_) s = .next { s with ans := { status := code } }) ∧
      (startBarred s = none → ¬admitted → ∃ t, exec (.stepStart q at_) s = .next t ∧ t.ans = { status := 0x08 } ∧ t.seq = s.seq ∧
        t.pwr = s.pwr ∧ rdFld t Reg.PWR_ADMIT 31 24 = admitReason u p) ∧
      (startBarred s = none → admitted → ∃ t, exec (.stepStart q at_) s = .next t ∧ t.ans = { status := 0 } ∧
        rd t Reg.SEQ_STEP_COUNT = rd s Reg.SEQ_STEP_COUNT + 1 ∧ rd t Reg.TBF_SLACK_MIN = 0x7FFF ∧
        ((∃ st, t.seq.step = some st ∧ st.ctxs = cs ∧ st.groups = gs ∧ st.aborted = false ∧ t.pwr.state = .run ∧
            (∀ d, st.steptime = some d → at_ = false → d = (s.beat + rdN u Reg.SEQ_STEP_DELAY) % 2 ^ 48)) ∨
          t.seq.step = none ∧ t.pwr.state = .hold))) ∧
    (Accepted q Reg.SEQ_STEP_CMD 2 s →
      (s.seq.step = none → exec (.stepAbort q) s = .next { s with ans := { status := 0 } }) ∧
      (∀ st, s.seq.step = some st → st.aborted = false →
        ((∀ g ∈ st.groups, framesSent s g = 0) → ∃ t, exec (.stepAbort q) s = .next t ∧ t.ans = { status := 0 } ∧ t.seq.step = none ∧
          (s.pwr.state = .run → t.pwr.state = .hold) ∧ rdFld t Reg.SEQ_STATUS 2 0 = 0 ∧
          ∀ c ∈ st.ctxs, (ctxOf s c).state ≠ .error → (ctxOf t c).state = .idle) ∧
        (¬(∀ g ∈ st.groups, framesSent s g = 0) → ∃ t y, exec (.stepAbort q) s = .next t ∧ t.ans = { status := 0 } ∧
          t.seq.step = some y ∧ y.aborted = true ∧ y.endTicks.isSome = true ∧ rdFld t Reg.SEQ_STATUS 2 0 = 4 ∧
          t.pwr.state = s.pwr.state)))

/-- R207, R208, R253, R254, R341 and R643: when every list is resident the contexts run and STEPTIME is the count of AT, or SEQ_STEP_DELAY from now;
an AT count that cannot be met, or that passes during the hold, abandons the step with SEQ_STATUS.LATE and a notice, and a group that lost its last
lane in the hold ends it as not admitted. The first pin vector marks the
step; at its end no step runs and the device is in HOLD. What the spec leaves open follows assumption 25. -/
def Obligations.StepsRunAndEnd : Prop :=
  ∀ (s : State) (st : StepInfo), s.seq.step = some st →
    let late (r : Host.Outcome State Fault Refusal) : Prop := ∃ t, r = .next t ∧ t.seq.step = none ∧ rdBit t Reg.SEQ_STATUS 8 = true ∧
      (s.pwr.state = .run → t.pwr.state = .hold) ∧ Reported 0 0x20 (st.ctxs.headD 0) 0x0F t
    let ready := listsResident s st = true ∧ st.laneLost = false ∧ st.groups.all (groupActive s) = true ∧ ∀ c ∈ st.ctxs, stepObjects s st c ≠ none
    let d := s.beat + rdN s Reg.SEQ_STEP_DELAY
    let runs (at_ : Nat) : Prop := ∃ t, exec .stepListResident s = .next t ∧ t.seq.step = some { st with steptime := some at_ } ∧
      (at_ < 2 ^ 48 → rd64 t Reg.SEQ_STEPTIME_LO = at_) ∧ ∀ c ∈ st.ctxs, (ctxOf t c).state = .running
    (st.steptime = none → ready →
      (st.at_ = none → runs (d % 2 ^ 48)) ∧ (∀ a, st.at_ = some a → d ≤ a → runs a) ∧ (∀ a, st.at_ = some a → a < d → late (exec .stepListResident s))) ∧
    (st.steptime = none → listsResident s st = true → st.laneLost = true ∨ st.groups.all (groupActive s) = false →
      ∃ t, exec .stepListResident s = .next t ∧ t.seq.step = none ∧ t.ans = { status := 0x08 } ∧ (s.pwr.state = .run → t.pwr.state = .hold)) ∧
    (st.steptime = none → listsResident s st = false → ∃ t, exec .stepListResident s = .next t ∧ t.seq.step = some st ∧
      SameRegs [Reg.LIB_STG_PENDING] s t) ∧
    (st.steptime = none → st.at_.isSome = true → late (exec .stepAtPassed s)) ∧
    (st.steptime.isSome = true ∨ st.at_ = none → exec .stepAtPassed s = .next s) ∧
    (st.steptime.isSome = true → st.zeroed = false → ∃ t, exec .stepVectorZero s = .next t ∧
      t.seq.step = some { st with zeroed := true } ∧ (rdFld s Reg.SEQ_STATUS 2 0 = 1 → rdFld t Reg.SEQ_STATUS 2 0 = 2) ∧
      (s.pwr.galopStep = true → t.pwr.galopRuns.head? = some (s.time, none)) ∧ (s.pwr.galopStep = false → t.pwr = s.pwr)) ∧
    (st.steptime = none ∨ st.zeroed = true → exec .stepVectorZero s = .next s) ∧
    (∀ e, st.endTicks = some e → st.steptime.isSome = true → (∀ g ∈ st.groups, (linkOf s g).finished = true ∨ groupActive s g = false) →
      ∃ t, exec .stepEnd s = .next t ∧ t.seq.step = none ∧ rdFld t Reg.SEQ_STATUS 2 0 = 0 ∧
        (s.pwr.state = .run → t.pwr.state = .hold) ∧ t.pwr.galopStep = false ∧
        (st.aborted = true → ∀ c ∈ st.ctxs, (ctxOf s c).state ≠ .error → (ctxOf s c).state ≠ .fenced → (ctxOf t c).state = .idle)) ∧
    (st.endTicks = none → exec .stepEnd s = .next s)

/-- R172 and R216 to R225: a microword of a context of the step executes, after the pending trap that may be taken before it, and the next one follows:
an ALU operation with its result and flags, a branch to its target, ASEC with its section; a reserved one is program error 0x01. A micro-trap outside an atomic section saves the micro-state in the window and enters
its handler. An uncorrectable state-store error starts a takeover by a spare, or fences the context: C2, or C3 without spare in a step and where a
takeover has already been made; a takeover in a step resumes from the checkpoint, with what the frame builders hold already emitted. What the spec leaves
open follows assumptions 38 and 53. -/
def Obligations.MicrocodeTrapsAndTakeovers : Prop :=
  ∀ (c : Fin 64) (s : State),
    let u := microTrap c.val s
    let m := microOf u c.val
    let w := ctrlWord u m.mpc
    let op := bitsN w 29 26
    let a := uReg m (bitsN w 21 18)
    let b := if bitN w 17 then twos 64 (sext 17 w) else uReg m (bitsN w 16 13)
    let on := ctxInStep s c.val = true ∧ (ctxOf s c.val).takeover = false
    (¬on → ∀ y, exec (.microwordExecute c y) s = .next s) ∧
    (on → microReserved w = true → ∃ t, exec (.microwordExecute c .agree) s = .next t ∧ ErrorShown c.val 0x01 t) ∧
    (on → bitsN w 31 30 = 0 → op < 12 → ∃ t, exec (.microwordExecute c .agree) s = .next t ∧
      (microOf t c.val).mpc = (m.mpc + 1) % 16384 ∧ (microOf t c.val).asec = m.asec - 1 ∧ t.regs = u.regs ∧
      (∀ v, (alu op a b).value = some v → (microOf t c.val).z = (v == 0) ∧ (microOf t c.val).n = bitN v 63 ∧
        (op < 10 → uReg (microOf t c.val) (bitsN w 25 22) = v)) ∧
      (op = 0 → (microOf t c.val).c = decide (2 ^ 64 ≤ a + b)) ∧
      (∀ r, r ≠ bitsN w 25 22 → uReg (microOf t c.val) r = uReg m r)) ∧
    (on → bitsN w 31 30 = 2 → op < 8 → ∃ t, exec (.microwordExecute c .agree) s = .next t ∧ t.regs = u.regs ∧
      (microOf t c.val).mpc = (if branchTaken m op then bitsN w 13 0 else (m.mpc + 1) % 16384) ∧
      (bitN w 25 = true → uReg (microOf t c.val) 15 = (m.mpc + 1) % 16384)) ∧
    (on → bitsN w 31 30 = 3 → op = 7 → ∃ t, exec (.microwordExecute c .agree) s = .next t ∧ (microOf t c.val).asec = bitsN w 4 0 ∧
      (microOf t c.val).mpc = (m.mpc + 1) % 16384 ∧ t.regs = u.regs) ∧
    (∀ k, (microOf s c.val).asec = 0 → (microOf s c.val).inTrap = none → trapOrder.find? (fun k => (ctxOf s c.val).microTraps.contains k) = some k →
      ∃ t, exec (.microTrap c) s = .next t ∧ (microOf t c.val).inTrap = some k ∧
        (microOf t c.val).mpc = ctrlWord s (64 + k) % 16384 ∧ rd t (Reg.SEQ_MST_MPC c.val) = wd (microOf s c.val).mpc ∧
        rd t (Reg.SEQ_MST_TRAP_CAUSE c.val) = wd k ∧ rd t (Reg.SEQ_MST_TRAPS c.val) = rd s (Reg.SEQ_MST_TRAPS c.val) + 1 ∧
        rdBit t (Reg.SEQ_CTX_STATUS c.val) 15 = true) ∧
    ((microOf s c.val).asec ≠ 0 ∨ (microOf s c.val).inTrap.isSome = true ∨ (ctxOf s c.val).microTraps = [] → exec (.microTrap c) s = .next s) ∧
    (∃ t, exec (.contextFault c true) s = .next t ∧ t.seq = s.seq ∧ Reported 1 0x01 c.val 0x01 t) ∧
    ((ctxOf s c.val).state = .fenced → exec (.contextFault c false) s = .next s) ∧
    ((ctxOf s c.val).state ≠ .fenced → (ctxOf s c.val).takeover = false → (ctxOf s c.val).onSpare = false → s.img.active.spares.ctx ≠ 0 →
      ∃ t, exec (.contextFault c false) s = .next t ∧ (ctxOf t c.val).takeover = true ∧ t.seq.ctxSpares = s.seq.ctxSpares - 1 ∧
        t.flt.spareUsed = true ∧ Reported 2 0x01 c.val 0x02 t) ∧
    ((ctxOf s c.val).state ≠ .fenced → ((ctxOf s c.val).takeover = true ∨ (ctxOf s c.val).onSpare = true ∨ s.img.active.spares.ctx = 0) →
      ∃ t, exec (.contextFault c false) s = .next t ∧ (ctxOf t c.val).state = .fenced ∧ isFenced 0x01 c.val t = true ∧
        ((ctxOf s c.val).takeover = true ∨ (ctxOf s c.val).onSpare = true → Reported 3 0x01 c.val 0x0B t) ∧
        ((ctxOf s c.val).takeover = false → (ctxOf s c.val).onSpare = false →
          Reported (if stepRuns s then 3 else 2) 0x01 c.val 0x0A t)) ∧
    ((ctxOf s c.val).takeover = true → ∃ t, exec (.contextTakeoverDone c) s = .next t ∧ (ctxOf t c.val).takeover = false ∧
      (ctxOf t c.val).onSpare = true ∧
      (ctxInStep s c.val = true → ctxEnded (ctxOf s c.val) = false → (ctxOf s c.val).state ≠ .starting →
        (ctxOf t c.val).held = max (ctxOf s c.val).held (ctxOf s c.val).emitted)) ∧
    ((ctxOf s c.val).takeover = false → exec (.contextTakeoverDone c) s = .next s)

/-! ### Chapter 7: timing -/

/-- R258, R262, R269 and R272 to R275: COMMIT converts the sixteen entries of the selected channel and set to ticks and stores them, or refuses them
with ENTRY_INVALID, where TST_REASON names set, channel, slot and rule, and stores nothing; with a lane the answer waits for the companion. READ
shows the entries committed, RAW stores words of companion form that keep COARSE in the period and rules 3, 5 and 6. What the spec leaves open
follows assumption 39. -/
def Obligations.EntriesAreCommittedAndRead : Prop :=
  ∀ (q : Req) (g : Fin 16) (s : State),
    let set := selSet s g.val
    let k := selCh s g.val
    let n := periodOf s g.val
    let slots := (List.range 16).map (fun j => (rdFld s (Reg.TST_EV g.val j) 31 29, ticksOfPs (rdFld s (Reg.TST_EV g.val j) 26 0)))
    let ws := rdRegs s (Reg.TST_XRAW g.val 0) 16
    let rawSlots := ws.map (fun w => (fld w 31 29, fld w 28 12))
    let answered (t : State) : Prop := if groupActive s g.val then t.ans = { deferred := true } ∧ isOpen (.commit g.val) t = true
      else t.ans = { status := 0 }
    (Accepted q (Reg.TST_CMD g.val) 2 s →
      (∀ r j, firstBreak allRules n slots = some (r, j) → ∃ t, exec (.tstCommit q g) s = .next t ∧ t.ans = { status := 0x48 } ∧ t.tst = s.tst ∧
        rd t (Reg.TST_REASON g.val) = wd (set * 16777216 + k * 65536 + j * 256 + r) ∧ SameRegs [Reg.TST_REASON g.val] s t) ∧
      (firstBreak allRules n slots = none → ∃ t, exec (.tstCommit q g) s = .next t ∧ answered t ∧
        isRaw (tstOf t g.val) set k = false ∧ rdBit t (Reg.TST_STATUS g.val) 15 = true ∧
        (∀ j < 16, slotOfTst (tstOf t g.val) (slotKey set k j) =
          wd ((nth (0, 0) slots j).1 * 2 ^ 29 + if (nth (0, 0) slots j).1 = 0 then 0 else (nth (0, 0) slots j).2)) ∧
        (groupActive s g.val = true → (linkOf t g.val).mapQ.length = (linkOf s g.val).mapQ.length + 16))) ∧
    (Accepted q (Reg.TST_CMD g.val) 1 s → ∃ t, exec (.tstRead q g) s = .next t ∧ t.ans = { status := 0 } ∧ t.tst = s.tst ∧ ∀ j < 16,
      rd t (Reg.TST_RB g.val j) = slotOfTst (tstOf s g.val) (slotKey set k j) ∧
      rdFld t (Reg.TST_EV g.val j) 31 29 = fld (slotOfTst (tstOf s g.val) (slotKey set k j)) 31 29 ∧
      rdFld t (Reg.TST_EV g.val j) 26 0 = if isRaw (tstOf s g.val) set k then 0x07FFFFFF
        else psOfTicks (fld (slotOfTst (tstOf s g.val) (slotKey set k j)) 24 0)) ∧
    (Accepted q (Reg.TST_XCMD g.val) 3 s →
      ((∃ w ∈ ws, (2 * n - 1) / 256 < fld w 28 12) → ∃ t, exec (.writeRaw q g) s = .next t ∧ t.ans = { status := 0x48 } ∧ t.tst = s.tst) ∧
      ((∀ w ∈ ws, fld w 28 12 ≤ (2 * n - 1) / 256) → (∀ e < 4, entryBreak [3, 5, 6] n ((rawSlots.drop (4 * e)).take 4) = none) →
        ∃ t, exec (.writeRaw q g) s = .next t ∧ answered t ∧ isRaw (tstOf t g.val) set k = true ∧
          ∀ j < 16, tget (fun _ => 0) (tstOf t g.val).raw (slotKey set k j) = nth 0 ws j))

/-- R17, R276, R278, R280, R281 and R288: a set written by the host waits in its shadow, outside a step for the next outward frame and within one for
the first boundary that can still be announced, and TST_TSET reads the set in effect meanwhile; a
period is refused outside its range or where a committed entry would break, and else waits for the next START; modes are refused during a load, when
reserved, without an image or where the image does not permit them, and else wait for the next START; the table window edits an entry, marks the
table as not measured and counts its index on, and a read counts on too. What the spec leaves open follows assumption 39. -/
def Obligations.TimingRegistersAreChecked : Prop :=
  ∀ (q : Req) (g : Fin 16) (r : Fin 4) (v : Word) (s : State),
    let held (a : Nat) (t : State) : Prop := t.ans = { status := 0 } ∧ t.shadowS = s.shadowS.filter (fun e => e.1 != a) ++ [(a, v)] ∧
      SameRegs [] s t
    let badPeriod := v.toNat < 256 ∨ 16777215 < v.toNat ∨ v.toNat < minPeriod s g.val ∨ 2048 < v.toNat ∧ groupPermits s g.val 6 = true
    let img := rdFld s Reg.IMG_STATUS 1 0
    let codes := modeCodes r.val v
    let x := Reg.TST_XLIN_ADDR g.val
    (Accepted q (Reg.TST_TSET g.val) v s → ∃ t, exec (.tsetWrite q g v) s = .next t ∧ t.ans = { status := 0 } ∧
      t.regs = s.regs ∧ t.shadowF = s.shadowF.filter (fun e => e.1 != Reg.TST_TSET g.val) ++ [(Reg.TST_TSET g.val, v)] ∧
      (groupInStep s g.val = false ∨ (linkOf s g.val).finished = true → t.links = s.links) ∧
      (groupInStep s g.val = true → (linkOf s g.val).finished = false → ∃ f, (linkOf t g.val).tsetAt = some f ∧
        (128 * f, fld v 5 0) ∈ (linkOf t g.val).tsets ∧
        (linkOf s g.val).begun ≤ f ∧ ((linkOf s g.val).built ≠ 0 → (linkOf s g.val).built < f))) ∧
    (Accepted q (Reg.TST_PERIOD g.val) v s →
      (badPeriod → exec (.periodWrite q g v) s = .next { s with ans := { status := 0x45 } }) ∧
      (¬badPeriod → rangeBreak (tstOf s g.val) v.toNat ≠ none → ∃ t, exec (.periodWrite q g v) s = .next t ∧ t.ans = { status := 0x48 } ∧
        SameRegs [Reg.TST_REASON g.val] s t ∧ t.shadowS = s.shadowS) ∧
      (¬badPeriod → rangeBreak (tstOf s g.val) v.toNat = none → ∃ t, exec (.periodWrite q g v) s = .next t ∧ held (Reg.TST_PERIOD g.val) t)) ∧
    (Accepted q (Reg.TST_MODE g.val r.val) v s →
      let refused (code : Nat) : Prop := exec (.modeWrite q g r v) s = .next { s with ans := { status := code } }
      let permitted := ∀ e ∈ codes, bitN (chanRole s (32 * g.val + e.1)).permit e.2 = true
      (img = 1 → refused 0x43) ∧
      (img ≠ 1 → (∃ e ∈ codes, e.2 = 7) → refused 0x45) ∧
      (img = 0 → (∀ e ∈ codes, e.2 ≠ 7) → (∃ e ∈ codes, e.2 ≠ 0) → refused 0x08) ∧
      (img = 0 → (∀ e ∈ codes, e.2 = 0) → refused 0) ∧
      (2 ≤ img → (∀ e ∈ codes, e.2 ≠ 7) → ¬permitted → refused 0x08) ∧
      (2 ≤ img → (∀ e ∈ codes, e.2 ≠ 7) → permitted → ∃ t, exec (.modeWrite q g r v) s = .next t ∧ held (Reg.TST_MODE g.val r.val) t)) ∧
    (Accepted q (Reg.TST_XLIN_DATA g.val) v s → ∃ t, exec (.linDataWrite q g v) s = .next t ∧ t.ans = { status := 0 } ∧
      tget (fun _ => 0) (tstOf t g.val).lin (linSel s g.val) = fld v 9 0 ∧ rd t (Reg.TST_RESID g.val (rdFld s x 12 8)) = 0xFFFFFFFF ∧
      rdFld t x 7 0 = (rdFld s x 7 0 + 1) % 256 ∧ SameRegs [x, Reg.TST_RESID g.val (rdFld s x 12 8)] s t) ∧
    (ReadAccepted q (Reg.TST_XLIN_DATA g.val) s → ∃ t, exec (.linDataRead q g) s = .next t ∧
      t.ans = { status := 0, done := 1, data := [wd (tget (fun _ => 0) (tstOf s g.val).lin (linSel s g.val))] } ∧
      rdFld t x 7 0 = (rdFld s x 7 0 + 1) % 256 ∧ SameRegs [x] s t ∧ t.tst = s.tst)

/-- R91 and R282 to R288: a calibration of a group in the step or without a lane is refused with CAL_REFUSED; otherwise it runs on the channels of
TST_XCH, and Pavane's on one channel, in a step too where it is parked. A run that ends, which none does during a load, puts its tables or skews in force, or is discarded with its reason and a notice, the third in a row as
C1; a linearisation of 30 days is stale. What the spec leaves open follows assumption 39. -/
def Obligations.CalibrationsRunAndEnd : Prop :=
  ∀ (q : Req) (g : Fin 16) (k : Fin 32) (force : Bool) (lo : LinObs) (so : DeskewObs) (s : State),
    let why := linReason s g.val k.val force lo
    let whyS := deskewReason s g.val k.val force so
    let rejected (t : State) (b : Nat) : Prop := rdBit t (Reg.TST_CAL_EVENTS g.val) b = true ∧ Reported 0 0x1C g.val 0x0F t ∧
      (tget (fun _ => 0) (tstOf s g.val).rejects k.val = 2 → Reported 1 0x1C g.val 0x09 t) ∧
      (tstOf t g.val).lin = (tstOf s g.val).lin ∧ rd t (Reg.TST_SKEW g.val k.val) = rd s (Reg.TST_SKEW g.val k.val)
    let begun (deskew : Bool) (t : State) : Prop := t.ans = { status := 0 } ∧ SameRegs [Reg.TST_STATUS g.val] s t ∧
      ∀ i < 32, rdBit s (Reg.TST_XCH g.val) i = true → (i, deskew, force) ∈ (tstOf t g.val).calRun
    (Accepted q (Reg.TST_XCMD g.val) (wd (256 * b2n force + 1)) s →
      (calEligible s g.val = false → exec (.calLin q g force) s = .next { s with ans := { status := 0x49 } }) ∧
      (calEligible s g.val = true → ∃ t, exec (.calLin q g force) s = .next t ∧ begun false t)) ∧
    (Accepted q (Reg.TST_XCMD g.val) (wd (256 * b2n force + 2)) s →
      (calEligible s g.val = false → exec (.calDeskew q g force) s = .next { s with ans := { status := 0x49 } }) ∧
      (calEligible s g.val = true → ∃ t, exec (.calDeskew q g force) s = .next t ∧ begun true t)) ∧
    (mayCalibrate s g.val k.val = true → calSuspended s = false → ∃ t, exec (.scheduledLinCal g k) s = .next t ∧
      SameRegs [Reg.TST_STATUS g.val] s t ∧ (k.val, false, false) ∈ (tstOf t g.val).calRun) ∧
    (mayCalibrate s g.val k.val = false ∨ calSuspended s = true → exec (.scheduledLinCal g k) s = .next s) ∧
    (calSuspended s = true → exec (.linCalComplete g k lo) s = .next s ∧ exec (.deskewComplete g k so) s = .next s) ∧
    (calRunOf s g.val k.val false = some force → calSuspended s = false → ∃ t, exec (.linCalComplete g k lo) s = .next t ∧
      rd t (Reg.TST_CAL_LAST g.val) = wd (k.val * 65536 + 256 + why) ∧ calRunOf t g.val k.val false = none ∧
      (why ≠ 0 → rejected t 1) ∧
      (why = 0 → rdBit t (Reg.TST_CAL_EVENTS g.val) 0 = true ∧ rd t (Reg.TST_CAL_AGE g.val k.val) = 0 ∧
        tget (fun _ => false) (tstOf t g.val).linSet k.val = true ∧
        ∀ p < 2, p < lo.delays.length → ∀ r < 256, linOf (tstOf t g.val) p k.val r = nth 0 (buildLin (nth [] lo.delays p)) r)) ∧
    (calRunOf s g.val k.val false = none → exec (.linCalComplete g k lo) s = .next s) ∧
    (calRunOf s g.val k.val true = some force → calSuspended s = false → ∃ t, exec (.deskewComplete g k so) s = .next t ∧
      rd t (Reg.TST_CAL_LAST g.val) = wd (k.val * 65536 + 512 + whyS) ∧ calRunOf t g.val k.val true = none ∧
      (whyS ≠ 0 → rejected t 3) ∧
      (whyS = 0 → rdBit t (Reg.TST_CAL_EVENTS g.val) 2 = true ∧ tget (fun _ => false) (tstOf t g.val).skewSet k.val = true ∧
        rd t (Reg.TST_SKEW g.val k.val) = wd (65536 * twos 16 (skewsOf so).2 + twos 16 (skewsOf so).1))) ∧
    (calRunOf s g.val k.val true = none → exec (.deskewComplete g k so) s = .next s) ∧
    (let live := tget (fun _ => false) (tstOf s g.val).linSet k.val = true ∧ rdBit s (Reg.TST_CAL_AGE g.val k.val) 31 = false
     (live → ∃ t, exec (.calAgeExpiry g k) s = .next t ∧ rdBit t (Reg.TST_CAL_AGE g.val k.val) 31 = true ∧
       rdBit t (Reg.TST_STATUS g.val) 16 = true ∧ rdBit t (Reg.TST_CAL_EVENTS g.val) 4 = true ∧ Reported 0 0x1C g.val 0x0F t ∧
       SameRegs [Reg.TST_CAL_AGE g.val k.val, Reg.TST_STATUS g.val, Reg.TST_CAL_EVENTS g.val, Reg.FLT_Q_OVERFLOW] s t) ∧
     (¬live → exec (.calAgeExpiry g k) s = .next s))

/-! ### Chapters 8 and 9: compare and measure -/

/-- R310 and R317: CMP_LOG_RD is refused where the ring would hold more than its size and else frees records, with FULL kept up to date; a ring
register outside its range is refused and else empties the ring; CMP_XINJECT arms one forced mismatch or disarms any. What the spec leaves open
follows assumption 20. -/
def Obligations.FailLogRegistersAct : Prop :=
  ∀ (q : Req) (v : Word) (which : Fin 3) (s : State),
    let a := logConfigAddr which
    let ok := (which = 0 → v.toNat % 4096 = 0) ∧ (which = 2 → ∃ k, 10 ≤ k ∧ k ≤ 26 ∧ v.toNat = 2 ^ k)
    let shown (t : State) : Prop :=
      (rdBit t Reg.CMP_STATUS 1 = true ↔ sub32 (rdN t Reg.CMP_LOG_WR) (rdN t Reg.CMP_LOG_RD) = rdN t Reg.CMP_LOG_SIZE)
    (Accepted q Reg.CMP_LOG_RD v s →
      (rdN s Reg.CMP_LOG_SIZE < sub32 (rdN s Reg.CMP_LOG_WR) v.toNat →
        exec (.cmpLogRdWrite q v) s = .next { s with ans := { status := 0x45 } }) ∧
      (sub32 (rdN s Reg.CMP_LOG_WR) v.toNat ≤ rdN s Reg.CMP_LOG_SIZE → ∃ t, exec (.cmpLogRdWrite q v) s = .next t ∧
        t.ans = { status := 0 } ∧ rd t Reg.CMP_LOG_RD = v ∧ shown t ∧ SameRegs [Reg.CMP_LOG_RD, Reg.CMP_STATUS] s t)) ∧
    (Accepted q a v s →
      (¬ok → exec (.cmpLogConfigWrite q which v) s = .next { s with ans := { status := 0x45 } }) ∧
      (ok → ∃ t, exec (.cmpLogConfigWrite q which v) s = .next t ∧ t.ans = { status := 0 } ∧ (which ≠ 1 → rd t a = v) ∧
        (which = 1 → rdFld t a 15 0 = fld v 15 0) ∧ rd t Reg.CMP_LOG_RD = 0 ∧ rd t Reg.CMP_LOG_WR = 0 ∧ shown t ∧
        SameRegs [a, Reg.CMP_LOG_RD, Reg.CMP_LOG_WR, Reg.CMP_STATUS] s t)) ∧
    (Accepted q Reg.CMP_XINJECT v s → exec (.failInject q v) s = .next { s with
      ans := { status := 0 }, cmp := { s.cmp with inject := if bit v 15 then some (fld v 8 0) else none } })

/-- R336, R345 to R349, R422, R424 and R426: a measure chain whose inputs have arrived produces its next output with its flags, from the coefficient
sets in force at it; a RAW record of it stands
at the ring's write index; without inputs nothing happens. A residue error runs the datapath's known-answer test, and the two copies of the
reduction sections act by R431. What the spec leaves open follows assumptions 41 and 50. -/
def Obligations.MeasureOutputsAreProduced : Prop :=
  ∀ (c : Fin 512) (residue : Option (Fin 9)) (copies : Copies) (s : State),
    let x := meaCh s c.val
    let n := periodOf s (c.val / 32)
    let a := (chanRole s c.val).aq
    let j := rdN s (Reg.ACQ_R_WR a 0)
    let st := Reg.MEA_CH_STATE c.val
    (∀ r' rs, dropDone x.runs = r' :: rs → let r := (takeChange n x r').1
      outputReady x.cls x.h x.rho r r.out = true → (∀ k, r.limit = some k → r.out < k) →
      let o := outputOf s x n r
      let time := (divNearestEven ((outTicksNum x n r r.out * 78125 : Nat) : Int) (x.rho * 32)).toNat
      ∃ t, exec (.measureOutput c residue copies) s = .next t ∧ t.ans = s.ans ∧ t.seq = s.seq ∧
        (meaCh t c.val).runs = { r with out := r.out + 1, fade := if o.2.2 then none else r.fade } :: rs ∧
        (∀ d, d ≠ c.val → meaCh t d = meaCh s d) ∧ rdBit t st 14 = bitN o.2.1 0 ∧ rdBit t st 13 = bitN o.2.1 2 ∧
        (bitN o.2.1 3 = true → rdBit t st 15 = true ∧ rdBit t Reg.MEA_EVENTS 1 = true ∧
          rdN t Reg.MEA_GAP_COUNT = min (rdN s Reg.MEA_GAP_COUNT + 1) 0xFFFFFFFF) ∧
        (bitN o.2.1 1 = true → rdBit t Reg.MEA_EVENTS 0 = true ∧
          rdN t Reg.MEA_SAT_COUNT = min (rdN s Reg.MEA_SAT_COUNT + 1) 0xFFFFFFFF) ∧
        (a ≤ 31 → redOn s a 0 = true → (acqUnit s a).stopped.contains 0 = false → rd t (Reg.ACQ_R_WR a 0) = rd s (Reg.ACQ_R_WR a 0) + 1) ∧
        (a ≤ 31 → redOn s a 0 = true → (acqUnit s a).stopped.contains 0 = false →
          (∀ k, 1 ≤ k → k ≤ 3 → redOn s a k = false) → (acqUnit s a).blocks = [] →
          memBytes t (ringBase s a 0 + 64 + 16 * (j % rdN s (Reg.ACQ_R_SIZE a 0))) 16 =
            leBytes 8 time ++ leBytes 4 (256 * twos 24 o.1 + o.2.1) ++ leBytes 2 c.val ++ [0, 0]) ∧
        (31 < a → t.mem = s.mem) ∧
        (∀ d, residue = some d → (4, d.val) ∈ t.flt.tests) ∧
        (copies = .retried → onOneCopy 0x0A 0 s = false → Reported 1 0x0A 0 0x03 t) ∧
        (copies = .disagree → onOneCopy 0x0A 0 s = false → (0x0A, 0) ∈ t.flt.tests) ∧
        (copies ≠ .agree → onOneCopy 0x0A 0 s = true → Reported 3 0x0A 0 0x0B t) ∧
        (copies = .agree → residue = none → t.flt = s.flt)) ∧
    ((∀ r' rs, dropDone x.runs = r' :: rs → let r := (takeChange n x r').1
        outputReady x.cls x.h x.rho r r.out = false) →
      exec (.measureOutput c none .agree) s = .next s)

/-- R330, R336 to R340 and R355: a change of coefficient sets is refused for sets that cannot be selected, and within a step for a changed length,
during a fade, or beyond the allowance; else it waits for its boundary. Coefficients are written and read through the window, which counts its index
on, and not where the set is in use. An expert chain takes the place of the target, within their ranges. What the spec leaves open follows
assumption 41. -/
def Obligations.MeasureRegistersAreChecked : Prop :=
  ∀ (q : Req) (c : Fin 512) (which : Fin 3) (v : Word) (s : State),
    let a := setRegAddr c.val which
    let x := meaCh s c.val
    let inStep := x.cls ≠ 0 ∧ groupInStep s (c.val / 32) = true
    let lengths (u : State) := (hbSets u c.val x.h).map (hbTaps s)
    let recut := which ≠ 0 ∧ lengths s ≠ lengths (setReg a v s)
    let others := (measuring s).filter (fun d => d != c.val && (fadeRunning s d || fadeCommitted s d))
    let beyond := 32 ≤ others.length ∨ rdN s Reg.MEA_XF_ALLOW * 1000 < sumN (others.map (rateOf s)) + rateOf s c.val
    let half := rdBit s Reg.MEA_XCOEF_ADDR 23
    let k := rdFld s Reg.MEA_XCOEF_ADDR 21 16
    let i := rdFld s Reg.MEA_XCOEF_ADDR 9 0
    let userSet := if half then 4 ≤ k ∧ k < 32 else 8 ≤ k
    (Accepted q a v s →
      let refused (code : Nat) : Prop := exec (.xchSetWrite q c which v) s = .next { s with ans := { status := code } }
      let noted (code : Nat) : Prop := ∃ t, exec (.xchSetWrite q c which v) s = .next t ∧ t.ans = { status := code } ∧
        rdBit t Reg.MEA_EVENTS 3 = true ∧ SameRegs [Reg.MEA_EVENTS] s t ∧ t.shadowF = s.shadowF
      let good := setsSelectable c.val a v = true
      (¬good → refused 0x45) ∧
      (good → inStep → recut → refused 0x4C) ∧
      (good → inStep → ¬recut → fadeRunning s c.val = true → noted 0x4B) ∧
      (good → inStep → ¬recut → fadeRunning s c.val = false → beyond → noted 0x4A) ∧
      (good → ¬inStep ∨ ¬recut ∧ fadeRunning s c.val = false ∧ ¬beyond → ∃ t, exec (.xchSetWrite q c which v) s = .next t ∧
        t.ans = { status := 0 } ∧ t.shadowF = s.shadowF.filter (fun e => e.1 != a) ++ [(a, v)] ∧
        SameRegs [Reg.MEA_XF_COUNT, Reg.MEA_XF_USE, Reg.MEA_ENG_LOAD] s t ∧ t.mea = s.mea)) ∧
    (Accepted q Reg.MEA_XCOEF_DATA v s →
      let refused (code : Nat) : Prop := exec (.coefDataWrite q v) s = .next { s with ans := { status := code } }
      (¬userSet → refused 0x05) ∧
      (userSet → half = true → 8 < i → refused 0x45) ∧
      (userSet → (half = true → i ≤ 8) → setInUse s half k = true → refused 0x4D) ∧
      (userSet → (half = true → i ≤ 8) → setInUse s half k = false → ∃ t, exec (.coefDataWrite q v) s = .next t ∧ t.ans = { status := 0 } ∧
        (if half then hbCoef t k i = sext 20 v.toNat else rsCoef t k i = sext 18 v.toNat) ∧
        rdFld t Reg.MEA_XCOEF_ADDR 9 0 = (i + 1) % 1024 ∧ SameRegs [Reg.MEA_XCOEF_ADDR] s t ∧ t.mea.chans = s.mea.chans)) ∧
    (ReadAccepted q Reg.MEA_XCOEF_DATA s → ∃ t, exec (.coefDataRead q) s = .next t ∧
      t.ans = { status := 0, done := 1, data := [wd (twos 32 (if half then hbCoef s k i else rsCoef s k i))] } ∧
      rdFld t Reg.MEA_XCOEF_ADDR 9 0 = (i + 1) % 1024 ∧ SameRegs [Reg.MEA_XCOEF_ADDR] s t ∧ t.mea = s.mea) ∧
    (let ok := 3 ≤ fld v 2 0 ∧ fld v 2 0 ≤ 5 ∧ 4 ≤ fld v 28 16 ∧ fld v 28 16 ≤ 4096 ∧ fld v 11 8 ≤ 8
     Accepted q (Reg.MEA_XCH_CHAIN c.val) v s →
      (¬ok → exec (.chainWrite q c false v) s = .next { s with ans := { status := 0x45 } }) ∧
      (ok → ∃ t, exec (.chainWrite q c false v) s = .next t ∧ t.ans = { status := 0 } ∧ rd t (Reg.MEA_CH_TARGET c.val) = 0 ∧
        rdFld t (Reg.MEA_XCH_CHAIN c.val) 2 0 = fld v 2 0 ∧ rdFld t (Reg.MEA_XCH_CHAIN c.val) 11 8 = fld v 11 8 ∧
        rdFld t (Reg.MEA_XCH_CHAIN c.val) 28 16 = fld v 28 16 ∧
        SameRegs [Reg.MEA_CH_TARGET c.val, Reg.MEA_XCH_CHAIN c.val] s t)) ∧
    (let ok := 0x40000001 ≤ v.toNat ∧ v.toNat ≤ 0x80000000
     Accepted q (Reg.MEA_XCH_RHO c.val) v s →
      (¬ok → exec (.chainWrite q c true v) s = .next { s with ans := { status := 0x45 } }) ∧
      (ok → ∃ t, exec (.chainWrite q c true v) s = .next t ∧ t.ans = { status := 0 } ∧ rd t (Reg.MEA_CH_TARGET c.val) = 0 ∧
        rd t (Reg.MEA_XCH_RHO c.val) = v ∧ SameRegs [Reg.MEA_CH_TARGET c.val, Reg.MEA_XCH_RHO c.val] s t)) ∧
    (Accepted q (Reg.MEA_CH_TARGET c.val) v s →
      (200000000 < v.toNat → exec (.targetWrite q c v) s = .next { s with ans := { status := 0x45 } }) ∧
      (v.toNat ≤ 200000000 → ∃ t, exec (.targetWrite q c v) s = .next t ∧ t.ans = { status := 0 } ∧ rd t (Reg.MEA_CH_TARGET c.val) = v ∧
        SameRegs [Reg.MEA_CH_TARGET c.val] s t))

/-! ### Chapters 10 and 11: sources and time channels -/

/-- R357, R360, R361, R368, R369, R372 and R375: a source channel forms its next vector from its list and clamps it to the limit of its noise-
transfer function, every tone slot advances, and an overload is counted and reported; the level is left open. A wait ends at the first vector of
frame f + 40. A frequency write waits for its boundary or is refused above 2^42. What the spec leaves open follows assumptions 42 and 56. -/
def Obligations.SourceVectorsAreFormed : Prop :=
  ∀ (q : Req) (c : Fin 512) (overload : Bool) (copies : Copies) (v : Word) (s : State),
    let g := c.val / 32
    let x := srcCh s c.val
    let n := x.next
    let plays := isSource (modeOf s c.val) = true ∧ groupInStep s g = true ∧ waitEndsAt x n = false
    let u := if n % 64 = 0 then passBoundary g (n / 64) s else s
    let r := sourceValue c.val n (moveOrigin c.val u)
    let w := r.2.2
    let m := modInput (sext 24 (rdFld w (Reg.SRC_CH_OFFSET c.val) 23 0)) (sext 16 (rdFld w (Reg.SRC_CH_AMP c.val) 15 0)) r.1 r.2.1
    let lim : Int := if rdBit w (Reg.SRC_XNTF g) (c.val % 32) then 4613734 else 5452595
    let st := Reg.SRC_CH_STATUS c.val
    (plays → ∃ t, exec (.sourceVector c overload copies) s = .next t ∧ t.mem = s.mem ∧ t.ans = s.ans ∧ (srcCh t c.val).next = n + 1 ∧
      (srcCh t c.val).input = (if m < -lim then -lim else if lim < m then lim else m) ∧
      (∃ code < 4, (srcCh t c.val).levels = (srcCh w c.val).levels ++ [(n, code)]) ∧
      (∀ k < 8, nth 0 (srcCh t c.val).acc k = (nth 0 (srcCh w c.val).acc k + nth 0 (srcCh w c.val).freq k) % 2 ^ 48) ∧
      (m < -lim ∨ lim < m → rdBit t st 8 = true ∧ rdBit t Reg.SRC_EVENTS 0 = true ∧
        rdN t (Reg.SRC_CH_CLIP c.val) = min (rdN w (Reg.SRC_CH_CLIP c.val) + 1) 0xFFFFFFFF) ∧
      (overload = true → rdBit t st 9 = true ∧ rdBit t Reg.SRC_EVENTS 1 = true ∧ Reported 1 0x07 g 0x01 t ∧
        rdN t (Reg.SRC_CH_OVERLOAD c.val) = min (rdN w (Reg.SRC_CH_OVERLOAD c.val) + 1) 0xFFFFFFFF) ∧
      (copies = .retried → onOneCopy 0x07 g s = false → Reported 1 0x07 g 0x03 t) ∧
      (copies = .disagree → onOneCopy 0x07 g s = false → (0x07, g) ∈ t.flt.tests) ∧
      (copies ≠ .agree → onOneCopy 0x07 g s = true → Reported 3 0x07 g 0x0B t)) ∧
    (¬plays → exec (.sourceVector c overload copies) s = .next s) ∧
    (waitEndsAt x n = true → ∃ t, exec (.playlistWaitRelease c) s = .next t ∧ (srcCh t c.val).waitFrom = none ∧
      (srcCh t c.val).acted = none ∧ (srcCh t c.val).cur = x.cur ∧ rdFld t st 3 0 = 1 ∧
      (∀ e, x.cur = some e → rdFld t st 31 24 = e % 256) ∧ SameRegs [st] s t) ∧
    (waitEndsAt x n = false → exec (.playlistWaitRelease c) s = .next s) ∧
    (let f := s.src.freqLo + 4294967296 * fld v 15 0
     let d := rdFld s Reg.SRC_NCO_SEL 8 0
     let k := rdFld s Reg.SRC_NCO_SEL 18 16
     Accepted q Reg.SRC_NCO_FREQ_HI v s →
      (2 ^ 42 < f → exec (.ncoFreqWrite q v) s = .next { s with ans := { status := 0x45 } }) ∧
      (f ≤ 2 ^ 42 → ∃ t, exec (.ncoFreqWrite q v) s = .next t ∧ t.ans = { status := 0 } ∧ (srcCh t d).freq = (srcCh s d).freq ∧
        (srcCh t d).freqSh = (srcCh s d).freqSh.filter (fun e => e.1 != k) ++ [(k, f)] ∧ t.regs = s.regs))

/-- R91, R392 and R403 to R409: a read index is refused where the queue would exceed its ring; a calibration is refused for a group in the step or
without a lane and else runs on the channels of TDC_XCH, Pavane's on one, in a step too where it is parked; a run that ends, which none does during
a load (R91), gives a table for the next START or is discarded with its
reason, the third in a row as C1; the window edits one width, the last only where all add up to the whole; a table of 30 days is stale. What the
spec leaves open follows assumption 14. -/
def Obligations.BinTablesAreCalibrated : Prop :=
  ∀ (q : Req) (c : Fin 512) (g : Fin 16) (k : Fin 32) (force : Bool) (o : CdObs) (v : Word) (s : State),
    let ch := 32 * g.val + k.val
    let m := rdN s Reg.TDC_XCH
    let old := match cdRun s g.val with | some p => p.1 | none => 0
    let why (f : Bool) := cdReason s ch f o
    let b := rdFld s Reg.TDC_XBIN_ADDR 24 16
    let i := rdFld s Reg.TDC_XBIN_ADDR 7 0
    let tab (u : State) := shownTable (tdcCh u b)
    let edited : BinTab := { tab s with w := tset (fun _ => 78125) (tab s).w i (fld v 23 0) }
    let whole := sumN ((List.range 256).map (binWidth edited)) = 20000000
    (Accepted q (Reg.TDC_CH_Q_RD c.val) v s →
      (queueSize s c.val < sub32 (rdN s (Reg.TDC_CH_Q_WR c.val)) v.toNat →
        exec (.tdcQRdWrite q c v) s = .next { s with ans := { status := 0x45 } }) ∧
      (sub32 (rdN s (Reg.TDC_CH_Q_WR c.val)) v.toNat ≤ queueSize s c.val → ∃ t, exec (.tdcQRdWrite q c v) s = .next t ∧
        t.ans = { status := 0 } ∧ rd t (Reg.TDC_CH_Q_RD c.val) = v ∧ SameRegs [Reg.TDC_CH_Q_RD c.val] s t)) ∧
    (Accepted q Reg.TDC_XCMD (wd (65536 * g.val + 256 * b2n force + 1)) s →
      (calEligible s g.val = false → exec (.calCd q g force) s = .next { s with ans := { status := 0x49 } }) ∧
      (calEligible s g.val = true → m = 0 → exec (.calCd q g force) s = .next { s with ans := { status := 0 } }) ∧
      (calEligible s g.val = true → m ≠ 0 → ∃ t, exec (.calCd q g force) s = .next t ∧ t.ans = { status := 0 } ∧
        cdRun t g.val = some (m ||| old, force) ∧ (linkOf t g.val).mapQ = (linkOf s g.val).mapQ ++ [(0x8043, m ||| old)] ∧
        rdBit t Reg.TDC_STATUS 3 = true ∧ SameRegs [Reg.TDC_STATUS, Reg.TST_STATUS g.val] s t)) ∧
    (let may := mayCalibrate s g.val k.val = true ∧ bitN (chanRole s ch).permit 6 = true ∧ calSuspended s = false
     (may → ∃ t, exec (.scheduledCdCal g k) s = .next t ∧ cdRun t g.val = some (2 ^ k.val ||| old, false) ∧
       rdBit t Reg.TDC_STATUS 3 = true ∧ SameRegs [Reg.TDC_STATUS, Reg.TST_STATUS g.val] s t) ∧
     (¬may → exec (.scheduledCdCal g k) s = .next s)) ∧
    (∀ mask f, cdRun s g.val = some (mask, f) → bitN mask k.val = true → calSuspended s = false → ∃ t, exec (.cdCalComplete g k o) s = .next t ∧
      cdRun t g.val = (if mask = 2 ^ k.val then none else some (mask - 2 ^ k.val, f)) ∧
      rd t Reg.TDC_XCAL_LAST = wd (65536 * ch + why f) ∧
      (why f = 0 → rdBit t Reg.TDC_EVENTS 4 = true ∧ (tdcCh t ch).coming = true ∧ (tdcCh t ch).rejects = 0 ∧ t.flt = s.flt ∧
        ∃ y, (tdcCh t ch).stored = some y ∧ y.accepted = true ∧ y.stale = false ∧ y.forced = f ∧ y.temp = o.temp ∧ y.prec = o.prec ∧
          (∀ j < 256, binWidth y j = nth 0 (cdWidths o.codes (2 ^ rdFld s Reg.TDC_XCAL_EDGES 4 0)) j)) ∧
      (why f ≠ 0 → rdBit t Reg.TDC_EVENTS 5 = true ∧ Reported 0 0x08 0 0x0F t ∧ (tdcCh t ch).stored = (tdcCh s ch).stored ∧
        ((tdcCh s ch).rejects = 2 → Reported 1 0x08 0 0x09 t ∧ (tdcCh t ch).rejects = 0) ∧
        ((tdcCh s ch).rejects ≠ 2 → (tdcCh t ch).rejects = (tdcCh s ch).rejects + 1))) ∧
    (calSuspended s = true ∨ (∀ mask f, cdRun s g.val = some (mask, f) → bitN mask k.val = false) → exec (.cdCalComplete g k o) s = .next s) ∧
    (Accepted q Reg.TDC_XBIN_DATA v s →
      (i = 255 → ¬whole → exec (.binDataWrite q v) s = .next { s with ans := { status := 0x45 } }) ∧
      (i ≠ 255 ∨ whole → ∃ t, exec (.binDataWrite q v) s = .next t ∧ t.ans = { status := 0 } ∧
        (∀ j, binWidth (tab t) j = if j = i then fld v 23 0 else binWidth (tab s) j) ∧ (tab t).edited = true ∧ (tab t).accepted = false ∧
        rdFld t Reg.TDC_XBIN_ADDR 7 0 = (i + 1) % 256 ∧ SameRegs [Reg.TDC_XBIN_ADDR, Reg.TDC_CH_CAL b] s t)) ∧
    (ReadAccepted q Reg.TDC_XBIN_DATA s → ∃ t, exec (.binDataRead q) s = .next t ∧
      t.ans = { status := 0, done := 1, data := [wd (binWidth (tab s) i)] } ∧ rdFld t Reg.TDC_XBIN_ADDR 7 0 = (i + 1) % 256 ∧
      SameRegs [Reg.TDC_XBIN_ADDR] s t ∧ t.tdc = s.tdc) ∧
    ((tdcCh s c.val).table.accepted = true → ∃ t, exec (.binTableStale c) s = .next t ∧ (tdcCh t c.val).table.stale = true ∧
      rdBit t Reg.TDC_STATUS 2 = true ∧ rdBit t Reg.TDC_EVENTS 7 = true ∧
      ((tdcCh s c.val).staleNoted = false → Reported 0 0x08 0 0x0F t) ∧ ((tdcCh s c.val).staleNoted = true → t.flt = s.flt) ∧
      SameRegs [Reg.TDC_STATUS, Reg.TDC_EVENTS, Reg.TDC_CH_CAL c.val, Reg.FLT_Q_OVERFLOW] s t) ∧
    ((tdcCh s c.val).table.accepted = false → exec (.binTableStale c) s = .next s)

/-! ### Chapter 12: lines and the Quadrille bus -/

/-- R413 to R420, R436, R426 and R450: a line acts at an instant at which a direct event is scheduled or its matrix output rises, unless a holdoff
suppresses it; an act is counted, dated, asserted up to the BEAT edge and sent on the bus line that names it. A level is sampled by the contexts of
the step. A selector that may not stand on a line is refused, and a ring's read index never passes what is written. What the spec leaves open
follows assumption 43. -/
def Obligations.LinesActAndAreSampled : Prop :=
  ∀ (q : Req) (l : Fin 64) (hi : Bool) (a : Fin 32) (r : Fin 4) (n : Nat) (copies : Copies) (v : Word) (s : State),
    let due := (n, l.val) ∈ s.trg.direct ∨ matrixRise s l.val n = true
    let rest := s.trg.direct.filter (fun e => e != (n, l.val))
    let last := tget (fun _ => none) s.trg.last l.val
    let early := lineEdge s l.val = true ∧ ∃ p, last = some p ∧ n < p + 16 * rdFld s (Reg.TRG_LINE_CFG l.val) 31 16
    (¬due → exec (.lineAct l n .agree) s = .next s) ∧
    (due → last = some n → exec (.lineAct l n .agree) s = .next { s with trg := { s.trg with direct := rest } }) ∧
    (due → last ≠ some n → early → ∃ t, exec (.lineAct l n copies) s = .next t ∧ rdBit t Reg.TRG_EVENTS 0 = true ∧
      rd t (Reg.TRG_LINE_SUPP l.val) = rd s (Reg.TRG_LINE_SUPP l.val) + 1 ∧ t.trg = { s.trg with direct := rest } ∧ t.seq = s.seq ∧
      t.qdr = s.qdr ∧ SameRegs [Reg.TRG_EVENTS, Reg.TRG_LINE_SUPP l.val, Reg.FLT_Q_OVERFLOW] s t) ∧
    (due → last ≠ some n → ¬early → ∃ t, exec (.lineAct l n copies) s = .next t ∧ t.trg.direct = rest ∧
      rd t (Reg.TRG_LINE_CNT l.val) = rd s (Reg.TRG_LINE_CNT l.val) + 1 ∧
      rd t (Reg.TRG_LINE_LAST_LO l.val) = wd (n / 16) ∧
      rd t (Reg.TRG_LINE_LAST_HI l.val) = wd (n / 16 / 2 ^ 32 % 2 ^ 16 + 2 ^ 16 * (n % 16)) ∧
      tget (fun _ => none) t.trg.last l.val = some n ∧ { code := l.val, since := n, upto := some (edgeAt n) } ∈ t.trg.pulses ∧
      (∀ k < 32, onBus s = true → qtSender s k = ownAddr s → qtSrc s k = l.val →
        (∀ p, tget (fun _ => none) s.qdr.qtLast k = some p → p + 1 < n / 256) →
        (k, n / 256, n % 256 / 2) ∈ t.qdr.qtOut ∧ (k, 256 * (n / 256 + 4) + 2 * (n % 256 / 2)) ∈ t.qdr.qtAct) ∧
      (copies = .retried → onOneCopy 0x09 0 s = false → Reported 1 0x09 0 0x03 t) ∧
      (copies = .disagree → onOneCopy 0x09 0 s = false → (0x09, 0) ∈ t.flt.tests) ∧
      (copies ≠ .agree → onOneCopy 0x09 0 s = true → Reported 3 0x09 0 0x0B t)) ∧
    (lineLevel s l.val (16 * s.beat) = true → ∃ t, exec (.beatEdgeLineSample l) s = .next t ∧ t.regs = s.regs ∧ t.trg = s.trg ∧
      ∀ st d f, s.seq.step = some st → d ∈ st.ctxs → frameOfEdge s (ctxPeriod s d) (16 * s.beat) = some f → (f, l.val) ∈ (ctxOf t d).lineFrames) ∧
    (lineLevel s l.val (16 * s.beat) = false → exec (.beatEdgeLineSample l) s = .next s) ∧
    (Accepted q Reg.TRG_FIRE v s → exec (.trgFire q v) s = .next { s with
      ans := { status := 0 }, trg := { s.trg with direct := s.trg.direct ++ [(16 * s.beat, fld v 5 0)] } }) ∧
    (let x := lineSrcAddr l.val hi
     let may (code : Nat) : Prop := code = 0x3FF ∨ code < l.val ∨ 0x40 ≤ code ∧ code ≤ 0x160
     let ok := may (fld v 9 0) ∧ may (fld v 25 16)
     Accepted q x v s →
      (¬ok → exec (.lineSrcWrite q l hi v) s = .next { s with ans := { status := 0x45 } }) ∧
      (ok → stepRuns s = false → ∃ t, exec (.lineSrcWrite q l hi v) s = .next t ∧ t.ans = { status := 0 } ∧ rdFld t x 9 0 = fld v 9 0 ∧
        rdFld t x 25 16 = fld v 25 16 ∧ SameRegs [x] s t ∧ t.shadowS = s.shadowS) ∧
      (ok → stepRuns s = true → ∃ t, exec (.lineSrcWrite q l hi v) s = .next t ∧ t.ans = { status := 0 } ∧ SameRegs [] s t ∧
        t.shadowS = s.shadowS.filter (fun e => e.1 != x) ++ [(x, v)])) ∧
    (let x := Reg.ACQ_R_RD a.val r.val
     Accepted q x v s →
      (rdN s (Reg.ACQ_R_WR a.val r.val) < v.toNat → exec (.acqRRdWrite q a r v) s = .next { s with ans := { status := 0x45 } }) ∧
      (v.toNat ≤ rdN s (Reg.ACQ_R_WR a.val r.val) → ∃ t, exec (.acqRRdWrite q a r v) s = .next t ∧ t.ans = { status := 0 } ∧
        rdN t x = max (rdN s x) v.toNat ∧ SameRegs [x] s t))

/-- R437, R439 to R442 and R445: a trigger of the bus arrives 2 cycles after its flag word; a frame that fails its check is counted and makes a
claimant withdraw, a member compares each count and faults or rejoins, a claimant that hears its own frame leads; without a frame a unit waits or
claims, after its backoff again. REJOIN and a joining unit's delays follow R440 and R444. What the spec leaves open follows assumption 35. -/
def Obligations.BusTimeIsKept : Prop :=
  ∀ (q : Req) (k : Fin 32) (off : Fin 128) (cs age : Nat) (frame : BitVec 128) (delays : List (Nat × Nat)) (s : State),
    let u := qtSender s k.val
    let heard := onBus s = true ∧ u ≠ ownAddr s ∧ isPresent s u = true ∧ u ∉ s.qdr.excluded
    let f := frame.toNat
    let off_ := aloneRole s = true ∨ busState s = 0 ∨ busState s = 6
    let own := s.beat - age
    let listens (t : State) : Prop := busState t = 1 ∧ t.qdr.todRun = 0 ∧ rdBit t Reg.QDR_STATUS 21 = false ∧ t.qdr.driven = []
    let noted (t : State) : Prop := rdFld t Reg.QDR_STATUS 20 16 = todLeader f ∧ rdBit t Reg.QDR_STATUS 21 = true ∧
      rd t Reg.QDR_GEN = wd (todGen f) ∧ t.qdr.members = todMembers f
    let runs := aloneRole s = false ∧ todValid f = true
    (heard → exec (.qtReceived k off cs) s = .next { s with
      qdr := { s.qdr with qtAct := s.qdr.qtAct ++ [(k.val, 256 * (cs + 2) + 2 * off.val)] } }) ∧
    (¬heard → exec (.qtReceived k off cs) s = .next s) ∧
    (∀ e, s.qdr.qtAct.find? (fun e => e.1 == k.val) = some e → ∃ t, exec (.qtAct k) s = .next t ∧ t.regs = s.regs ∧
      t.qdr.qtAct = s.qdr.qtAct.erase e ∧ (aloneRole s = true → t.trg = s.trg) ∧
      (aloneRole s = false → { code := 0x100 + k.val, since := e.2, upto := some (edgeAt e.2) } ∈ t.trg.srcs)) ∧
    ((∀ e ∈ s.qdr.qtAct, e.1 ≠ k.val) → exec (.qtAct k) s = .next s) ∧
    (off_ → exec (.todFrame frame age) s = .next s) ∧
    (¬off_ → todValid f = false → ∃ t, exec (.todFrame frame age) s = .next t ∧ rdBit t Reg.QDR_EVENTS 5 = true ∧
      rdN t Reg.QDR_CRC_ERR = min (rdN s Reg.QDR_CRC_ERR + 1) 0xFFFFFFFF ∧ t.qdr.todRun = 0 ∧
      (busState s = 3 → listens t ∧ t.qdr.backoff = true) ∧ (busState s ≠ 3 → busState t = busState s)) ∧
    (runs → busState s = 5 → exec (.todFrame frame age) s = .next s) ∧
    (runs → busState s = 4 → own = todCount f → ∃ t, exec (.todFrame frame age) s = .next t ∧ busState t = 4 ∧ noted t ∧ t.flt = s.flt) ∧
    (runs → busState s = 4 → own ≠ todCount f → s.pwr.state = .run → ∃ t, exec (.todFrame frame age) s = .next t ∧ busState t = 4 ∧
      noted t ∧ Reported 3 0x16 0 0x08 t) ∧
    (runs → busState s = 4 → own ≠ todCount f → s.pwr.state ≠ .run → ∃ t, exec (.todFrame frame age) s = .next t ∧ listens t ∧
      Reported 1 0x16 0 0x08 t) ∧
    (runs → busState s = 1 ∨ busState s = 2 → ∃ t, exec (.todFrame frame age) s = .next t ∧ busState t = 1 ∧ noted t ∧
      t.qdr.todCount = todCount f ∧ t.qdr.todRun = (if s.qdr.todRun ≠ 0 ∧ todCount f = s.qdr.todCount + 64 then s.qdr.todRun + 1 else 1)) ∧
    (runs → busState s = 3 → todLeader f = ownAddr s → ∃ t, exec (.todFrame frame age) s = .next t ∧ busState t = 5 ∧
      rdFld t Reg.QDR_STATUS 20 16 = ownAddr s ∧ rd t Reg.QDR_GEN = wd ((rdN s Reg.QDR_GEN + 1) % 2048)) ∧
    (runs → busState s = 3 → todLeader f ≠ ownAddr s → ∃ t, exec (.todFrame frame age) s = .next t ∧ busState t = 1 ∧ noted t ∧
      t.qdr.todRun = 1 ∧ t.qdr.backoff = false) ∧
    (let joins := busState s = 1 ∧ s.qdr.backoff = false ∧ 4 ≤ s.qdr.todRun ∧ rdBit s Reg.QDR_STATUS 22 = false ∧
       rdBit s Reg.TBF_STATUS 1 = true ∧ rdBit s Reg.TBF_STATUS 0 = false ∧
       ∀ u < 32, bitN s.qdr.members u = true → u ≠ ownAddr s → ∃ d, (u, d) ∈ delays
     let d := (s.qdr.todCount : Int) - (s.qdr.todOwn : Int)
     (joins → ∃ t, exec (.listenEnd delays) s = .next t ∧ busState t = 4 ∧ (d = 0 → t.beat = s.beat) ∧
       (d ≠ 0 → t.beat = (((s.beat : Int) + d) % ((2 ^ 48 : Nat) : Int)).toNat ∧ rd t Reg.QDR_CNT_STEP = wd (twos 32 d) ∧
         rdBit t Reg.QDR_EVENTS 4 = true)) ∧
     (¬joins → exec (.listenEnd delays) s = .next s)) ∧
    (let waits := aloneRole s = false ∧ (busState s = 1 ∧ s.qdr.backoff = false ∨ busState s = 2 ∨ busState s = 4)
     (waits → ∃ t, exec .leaderTimeout s = .next t ∧ busState t = (if role s = 0 then 3 else 2) ∧ rdBit t Reg.QDR_STATUS 21 = false ∧
       t.qdr.todRun = 0 ∧ SameRegs [Reg.QDR_STATUS] s t) ∧
     (¬waits → exec .leaderTimeout s = .next s)) ∧
    (busState s = 1 → s.qdr.backoff = true → ∃ t, exec .claimBackoffEnd s = .next t ∧ busState t = 3 ∧ t.qdr = { s.qdr with backoff := false } ∧
      SameRegs [Reg.QDR_STATUS] s t) ∧
    (busState s ≠ 1 ∨ s.qdr.backoff = false → exec .claimBackoffEnd s = .next s) ∧
    (Accepted q Reg.QDR_CMD 1 s →
      (aloneRole s = true → exec (.rejoin q) s = .next { s with ans := { status := 0 } }) ∧
      (aloneRole s = false → ∃ t, exec (.rejoin q) s = .next t ∧ t.ans = { status := 0 } ∧ listens t ∧ SameRegs [Reg.QDR_STATUS] s t))

/-- R441 to R443, R446, R447 and R634: a valid heartbeat makes its unit present, one that departs makes it leave, three turns missed in a row write
it off; a fault bit and the leader's hints are shown; a cell that disagrees is fenced, the second is C3 in RUN. In each cycle a member or leader
drives its slots, its heartbeat in its own turn, and a departing unit leaves after two turns. What the spec leaves open follows assumption 35. -/
def Obligations.BusPeersComeAndGo : Prop :=
  ∀ (u : Fin 32) (w : BitVec 16) (seen : Bool) (leader : Fin 32) (tag : Byte) (d : Fin 4) (s : State),
    let off_ := aloneRole s = true ∨ busState s = 0 ∨ busState s = 6
    let p := peerOf s u.val
    let sound := beatValid u.val w.toNat = true
    let heard := ¬off_ ∧ u.val ≠ ownAddr s ∧ u.val ∉ s.qdr.excluded
    (off_ → exec (.qdHeartbeat u (some w)) s = .next s) ∧
    (heard → sound → bitN w.toNat 8 = false → ∃ t, exec (.qdHeartbeat u (some w)) s = .next t ∧
      peerOf t u.val = { missed := 0, role := bitsN w.toNat 10 9, ready := bitN w.toNat 7, power := bitsN w.toNat 6 4 } ∧
      isPresent t u.val = true ∧ (isPresent s u.val = true → t.regs = s.regs) ∧
      (isPresent s u.val = false → rdBit t Reg.QDR_EVENTS 1 = true ∧ t.qdr.joined = add32 s.qdr.joined 1)) ∧
    (heard → sound → bitN w.toNat 8 = true → isPresent s u.val = true → ∃ t, exec (.qdHeartbeat u (some w)) s = .next t ∧
      isPresent t u.val = false ∧ rdBit t Reg.QDR_EVENTS 2 = true ∧ t.qdr.gone = add32 s.qdr.gone 1 ∧ t.qdr.writtenOff = s.qdr.writtenOff) ∧
    (heard → ¬sound → ∃ t, exec (.qdHeartbeat u (some w)) s = .next t ∧ peerOf t u.val = { p with missed := p.missed + 1 } ∧ t.regs = s.regs) ∧
    (heard → ∃ t, exec (.qdHeartbeat u none) s = .next t ∧ peerOf t u.val = { p with missed := p.missed + 1 } ∧ t.regs = s.regs) ∧
    (¬off_ → u.val = ownAddr s → busState s = 1 → sound → ∃ t, exec (.qdHeartbeat u (some w)) s = .next t ∧
      rdBit t Reg.QDR_STATUS 22 = true ∧ (rdBit s Reg.QDR_STATUS 22 = false → Reported 2 0x14 u.val 0x0E t)) ∧
    (isPresent s u.val = true → 3 ≤ p.missed → ∃ t, exec (.peerAbsent u) s = .next t ∧ isPresent t u.val = false ∧
      rdBit t Reg.QDR_EVENTS 0 = true ∧ rdBit t Reg.LGR_PEER_WO_MASK u.val = true ∧ rdBit t Reg.LGR_EVENTS 1 = true ∧
      t.qdr.writtenOff = add32 s.qdr.writtenOff 1 ∧ t.qdr.gone = s.qdr.gone ∧ Reported 0 0x14 u.val 0x07 t ∧
      ∀ e ∈ t.qdr.qtAct, qtSender s e.1 ≠ u.val) ∧
    (isPresent s u.val = false ∨ p.missed < 3 → exec (.peerAbsent u) s = .next s) ∧
    (let hears := aloneRole s = false ∧ u.val ≠ ownAddr s ∧ u.val ∉ s.qdr.excluded ∧ onBus s = true
     let at_ := 256 * (s.beat / 16 + 2)
     (hears → seen = true → rdBit s Reg.QDR_PEER_FAULT u.val = false → ∃ t, exec (.faultBroadcastRx u seen) s = .next t ∧
       rdBit t Reg.QDR_PEER_FAULT u.val = true ∧ { code := 0x140 + u.val, since := at_, upto := none } ∈ t.trg.srcs ∧
       SameRegs [Reg.QDR_PEER_FAULT] s t) ∧
     (hears → seen = false → rdBit s Reg.QDR_PEER_FAULT u.val = true → ∃ t, exec (.faultBroadcastRx u seen) s = .next t ∧
       rdBit t Reg.QDR_PEER_FAULT u.val = false ∧ (∀ e ∈ t.trg.srcs, e.code = 0x140 + u.val → e.upto ≠ none) ∧
       SameRegs [Reg.QDR_PEER_FAULT] s t) ∧
     (¬hears ∨ seen = rdBit s Reg.QDR_PEER_FAULT u.val → exec (.faultBroadcastRx u seen) s = .next s)) ∧
    (busState s = 4 → leader.val = leaderNow s → ∃ t, exec (.hintsRx leader tag) s = .next t ∧
      rdFld t Reg.QDR_OWNER_TAG 7 0 = tag.toNat ∧ rdBit t Reg.QDR_STATUS 23 = (ownTag s != tag.toNat) ∧
      SameRegs [Reg.QDR_OWNER_TAG, Reg.QDR_STATUS] s t) ∧
    (busState s ≠ 4 ∨ leader.val ≠ leaderNow s → exec (.hintsRx leader tag) s = .next s) ∧
    (let out := busState s = 0 ∨ busState s = 6
     let second := rdBit s Reg.QDR_STATUS (25 + d.val) = true
     (out → exec (.qdCellMismatch d) s = .next s) ∧
     (¬out → ¬second → ∃ t, exec (.qdCellMismatch d) s = .next t ∧ Reported 2 0x14 d.val 0x03 t ∧ rdBit t Reg.QDR_EVENTS 6 = true ∧
       rdBit t Reg.QDR_STATUS (25 + d.val) = true ∧ onOneCopy 0x14 d.val t = true ∧ isFenced 0x14 d.val t = true ∧ busState t = busState s) ∧
     (¬out → second → s.pwr.state = .run → ∃ t, exec (.qdCellMismatch d) s = .next t ∧ Reported 3 0x14 d.val 0x0B t ∧ busState t = busState s) ∧
     (¬out → second → s.pwr.state ≠ .run → aloneRole s = false → ∃ t, exec (.qdCellMismatch d) s = .next t ∧ Reported 2 0x14 d.val 0x03 t ∧
       busState t = 1)) ∧
    (let c := s.beat / 16
     let turn := c % 32 = ownAddr s
     let drives := busState s = 3 ∨ busState s = 4 ∨ busState s = 5
     s.qdr.leadFrom = none →
      (¬drives → exec .quadrilleCycle s = .next { s with qdr := { s.qdr with driven := [] } }) ∧
      (drives → ¬turn ∨ s.qdr.departing ≠ 1 → ∃ t, exec .quadrilleCycle s = .next t ∧ busState t = busState s ∧ t.beat = s.beat ∧
        (turn → ∀ e ∈ slotWords 40 4 (ownBeat (decide (s.qdr.departing ≠ 0)) s), e ∈ t.qdr.driven) ∧
        (busState s = 4 → ¬turn → ∀ e ∈ t.qdr.driven, (∃ o ∈ s.qdr.qtOut, o.1 = e.1) ∨ 44 ≤ e.1 ∧ e.1 < 48) ∧
        (turn → s.qdr.departing = 2 → t.qdr.departing = 1) ∧
        (busState s ≠ 3 → ∀ e ∈ s.qdr.qtOut, e.2.1 + 2 = c → (e.1, 8 + e.2.2 / 16) ∈ t.qdr.driven)) ∧
      (drives → turn → s.qdr.departing = 1 → ∃ t, exec .quadrilleCycle s = .next t ∧ busState t = 6 ∧ rd t Reg.QDR_PRESENT = 0 ∧
        t.qdr.driven = [] ∧ t.qdr.departing = 0))

/-! ### Chapter 13: memory and library -/

/-- R461 and R462: a corrected error is counted and reported; an uncorrectable one of a granule that keeps its mirror is counted, one that does not
poisons its unit, and one that a running copy still needs is C3; the address is kept, and a pseudo-channel beyond its threshold is fenced. A
sensor's crossing sets the stack's refresh rate. Outside HBM there is no such error. What the spec leaves open follows assumption 16. -/
def Obligations.MemoryErrorsAreHandled : Prop :=
  ∀ (st : Fin 2) (a : Nat) (copied hot : Bool) (s : State),
    let k := stackOf s st.val a
    let set := granuleSet a
    let n := pcOfSet s k set
    let id := 32 * k + n
    let copying := copyRuns s (1 - k) = true ∧ spareFor s (1 - k) = some set ∧ copied = false
    let mirrored := keepsMirror s a = true
    let recent := ((tget (fun _ => []) s.hbm.errTimes id).filter (fun t => decide (s.time < t + 100000000))).length + 1
    (inHbm s a = false → exec (.hbmCorrectedError st a) s = .next s ∧ exec (.hbmUncorrectable st a copied) s = .next s) ∧
    (inHbm s a = true → ∃ t, exec (.hbmCorrectedError st a) s = .next t ∧
      rdN t Reg.MEM_CORR_COUNT = min (rdN s Reg.MEM_CORR_COUNT + 1) 0xFFFFFFFF ∧ rdBit t Reg.MEM_EVENTS 0 = true ∧
      Reported 1 0x0E id 0x01 t ∧ t.hbm = s.hbm ∧ SameRegs [Reg.MEM_CORR_COUNT, Reg.MEM_EVENTS, Reg.FLT_Q_OVERFLOW] s t) ∧
    (inHbm s a = true → ∃ t, exec (.hbmUncorrectable st a copied) s = .next t ∧ t.mem = s.mem ∧
      rd t Reg.MEM_LAST_ERR_LO = wd a ∧ rd t Reg.MEM_LAST_ERR_HI = wd (65536 * k + a / 2 ^ 32 % 65536) ∧
      (copying → Reported 3 0x0E id 0x02 t ∧ t.hbm.poison = s.hbm.poison) ∧
      (¬copying → mirrored → rdN t Reg.MEM_UNCORR_COUNT = min (rdN s Reg.MEM_UNCORR_COUNT + 1) 0xFFFFFFFF ∧
        rdBit t Reg.MEM_EVENTS 1 = true ∧ Reported 1 0x0E id 0x02 t ∧ t.hbm.poison = s.hbm.poison) ∧
      (¬copying → ¬mirrored → unitPoisoned s a = false → tget (fun _ => false) t.hbm.poison (a / 32) = true ∧
        rdN t Reg.MEM_POISON_COUNT = min (rdN s Reg.MEM_POISON_COUNT + 1) 0xFFFFFFFF ∧ rdBit t Reg.MEM_EVENTS 4 = true ∧
        rdBit t Reg.MEM_STATUS 8 = true ∧ Reported 1 0x0E id 0x02 t) ∧
      (¬copying → ¬mirrored → unitPoisoned s a = true → t.hbm.poison = s.hbm.poison ∧
        rd t Reg.MEM_POISON_COUNT = rd s Reg.MEM_POISON_COUNT) ∧
      (rdN s Reg.MEM_XFENCE_THRESH < recent → pcFenced t k n = true) ∧
      (recent ≤ rdN s Reg.MEM_XFENCE_THRESH → rd t (fencedReg k) = rd s (fencedReg k))) ∧
    (∃ t, exec (.hbmTempRefresh st hot) s = .next t ∧ rdBit t Reg.MEM_STATUS (1 + st.val) = hot ∧
      (hot = true → rdBit t Reg.MEM_EVENTS 5 = true) ∧ SameRegs [Reg.MEM_STATUS, Reg.MEM_EVENTS] s t)

/-- R463 to R468, R482 and R490: a pseudo-channel is fenced once, as C2, or as C3 within a step of UNMIRRORED memory; the spare takes its place and
a copy begins, or its set is lost and the capacity falls; a fault of the spare during its copy is C3; a PHY fences its whole stack. A copy that ends
says so. A new object base evicts every object or is refused outside its range, and an injection is armed or disarmed. What the spec leaves open,
the order of two stacks' copies among it, follows assumptions 16 and 56. -/
def Obligations.PseudoChannelsAreFenced : Prop :=
  ∀ (q : Req) (st : Fin 2) (n : Fin 32) (unread : List Nat) (hi : Bool) (v : Word) (s : State),
    let id := 32 * st.val + n.val
    let copying := copyRuns s st.val = true
    let others := s.hbm.copies.filter (fun e => e.1 != st.val)
    let ready := spareReady s st.val = true
    let used := rdBit s Reg.MEM_STATUS (3 + st.val) = true
    let cls := if unmirrored s = true ∧ stepRuns s = true then 3 else 2
    let lowered (t : State) : Prop := rdBit t Reg.MEM_STATUS (5 + st.val) = decide (lostSets t st.val ≠ 0) ∧
      rdN t (capReg st.val) = min (rdN s (capReg st.val)) (768000 - 24000 * lostSets t st.val)
    (pcFenced s st.val n.val = true → exec (.pcFence st (some n)) s = .next s) ∧
    (pcFenced s st.val n.val = false → ∃ t, exec (.pcFence st (some n)) s = .next t ∧ t.mem = s.mem ∧
      (∀ k < 32, pcFenced t st.val k = (pcFenced s st.val k || decide (k = n.val))) ∧ rdBit t Reg.MEM_EVENTS 2 = true ∧
      isFenced 0x0E id t = true ∧
      (copying → n.val = 31 → Reported 3 0x0E id 0x02 t ∧ t.hbm.copies = others ∧ rdBit t Reg.MEM_STATUS 7 = !others.isEmpty ∧ lowered t) ∧
      (¬(copying ∧ n.val = 31) → Reported cls 0x0E id 0x02 t) ∧
      (¬copying → n.val = 31 → ¬used → rdBit t Reg.MEM_STATUS (3 + st.val) = true ∧ t.flt.spareUsed = true) ∧
      (n.val ≠ 31 → ready → rdBit t Reg.MEM_STATUS 7 = true ∧ t.hbm.copies = s.hbm.copies ++ [(st.val, n.val)] ∧
        (s.hbm.copies = [] → rdFld t Reg.MEM_STATUS 20 16 = n.val ∧ rdFld t Reg.MEM_STATUS 21 21 = st.val) ∧ rdBit t Reg.MEM_STATUS (3 + st.val) = true ∧ spareFor t st.val = some n.val) ∧
      (n.val ≠ 31 → ¬ready → lowered t ∧ (unmirrored s = true → (st.val, n.val) ∈ t.hbm.lostSets ∧ rdBit t Reg.MEM_STATUS 8 = true))) ∧
    (∃ t, exec (.pcFence st none) s = .next t ∧ rd t (fencedReg st.val) = 0xFFFFFFFF ∧ rdBit t Reg.MEM_EVENTS 2 = true ∧
      rdBit t Reg.MEM_STATUS (3 + st.val) = true ∧ isFenced 0x0F st.val t = true ∧ lowered t ∧
      (copying → Reported 3 0x0F st.val 0x02 t ∧ t.hbm.copies = others ∧ rdBit t Reg.MEM_STATUS 7 = !others.isEmpty) ∧
      (¬copying → Reported cls 0x0F st.val 0x02 t) ∧
      (unmirrored s = true → ∀ k < 31, (st.val, k) ∈ t.hbm.lostSets)) ∧
    (rdBit s Reg.MEM_STATUS 7 = true → ∃ t, exec (.spareCopyComplete unread) s = .next t ∧ t.hbm.copies = s.hbm.copies.drop 1 ∧
      rdBit t Reg.MEM_STATUS 7 = !(s.hbm.copies.drop 1).isEmpty ∧ (s.hbm.copies.length ≤ 1 → rdFld t Reg.MEM_STATUS 21 16 = 0) ∧
      rdBit t Reg.MEM_EVENTS 3 = true ∧ (unmirrored s = false → t.hbm = { s.hbm with copies := s.hbm.copies.drop 1 }) ∧
      (unmirrored s = true → ∀ a ∈ unread, inHbm s a = true → tget (fun _ => false) t.hbm.poison (a / 32) = true)) ∧
    (rdBit s Reg.MEM_STATUS 7 = false → exec (.spareCopyComplete unread) s = .next s) ∧
    (let x := if hi then Reg.MEM_OBJ_BASE_HI else Reg.MEM_OBJ_BASE_LO
     let b := if hi then rdN s Reg.MEM_OBJ_BASE_LO + 4294967296 * fld v 15 0
       else v.toNat + 4294967296 * rdFld s Reg.MEM_OBJ_BASE_HI 15 0
     let ok := b % 2 ^ 30 = 0 ∧ 0x40000000 ≤ b ∧ b ≤ 0x858000000
     Accepted q x v s →
      (¬ok → exec (.memObjBaseWrite q hi v) s = .next { s with ans := { status := 0x45 } }) ∧
      (ok → ∃ t, exec (.memObjBaseWrite q hi v) s = .next t ∧ t.ans = { status := 0 } ∧ objBase t = b ∧
        (∀ i, objOf t i = (objOf s i).map (fun o => if i ∈ s.lib.objs.map (·.1) then { o with base := none } else o)) ∧
        rd t Reg.MEM_OBJ_SIZE = wd ((0x898000000 - b) / 2 ^ 20) ∧ SameRegs [x, Reg.MEM_OBJ_SIZE, Reg.MEM_OBJ_USED] s t)) ∧
    (let unit := 32 * fld v 28 0
     let armed := if unmirrored s && bit v 30 then window1 + unit else unit
     Accepted q Reg.MEM_XINJECT v s → ∃ t, exec (.memInject q v) s = .next t ∧ t.ans = { status := 0 } ∧ rd t Reg.MEM_XINJECT = v ∧
      SameRegs [Reg.MEM_XINJECT] s t ∧ t.hbm = { s.hbm with inject := if bit v 31 then some (armed, bit v 29) else none })

/-- R471 to R476, R478, R480, R487 and R488: each library command is refused by the first condition that bars it and changes nothing (a WRITE over
the wear budget shows it); CREATE, DELETE, EVICT, INFO and CANCEL are done at once and say so, WRITE and READ run on, and STAGE waits for its object
unless it is resident, or is refused, and noticed, while the object plays as a waveform. What the spec leaves open follows assumptions 13 and 15. -/
def Obligations.LibraryCommandsAreChecked : Prop :=
  ∀ (q : Req) (s : State),
    let id := argId s
    let n := argBytes s
    let a := argAddr s
    let off := argOff s
    let typ := rdFld s Reg.LIB_ARG_TYPE 7 0
    let gone := objOf s id = none
    let busy := s.lib.run ≠ none
    let reach := inHbm s a = true ∧ rangeMapped s a n = true
    let refused (r : Host.Outcome State Fault Refusal) (code : Nat) : Prop := r = .next { s with ans := { status := code } }
    let done (cmd : Nat) (t : State) : Prop := t.ans = { status := 0 } ∧ rd t Reg.LIB_CMD_RESULT = wd (2 ^ 24 * cmd + 256) ∧
      rdBit t Reg.LIB_EVENTS 5 = true
    let taken (cmd : Nat) (t : State) : Prop := t.ans = { status := 0 } ∧ rd t Reg.LIB_CMD_RESULT = wd (2 ^ 24 * cmd) ∧ t.mem = s.mem
    let others (t : State) : Prop := ∀ j, j ≠ id → objOf t j = objOf s j
    (∀ cmd i, (cmd, i) ∈ [(1, Instr.libCreate q), (2, .libWrite q), (3, .libRead q), (4, .libDelete q), (5, .libStage q), (6, .libEvict q),
        (7, .libInfo q)] → Accepted q Reg.LIB_CMD (wd cmd) s → busy → refused (exec i s) 0x04) ∧
    (Accepted q Reg.LIB_CMD 1 s → ¬busy →
      let bad := id = 0 ∨ typ ∉ [1, 2, 3, 4, 8, 9, 10] ∨ argLen s = 0
      let held := isSystemId id = true ∨ ¬gone
      (bad → refused (exec (.libCreate q) s) 0x45) ∧
      (¬bad → held → refused (exec (.libCreate q) s) 0x51) ∧
      (¬bad → ¬held → 2 ^ 41 < libUsed s + argLen s → refused (exec (.libCreate q) s) 0x54) ∧
      (¬bad → ¬held → libUsed s + argLen s ≤ 2 ^ 41 → libRetired s = true → refused (exec (.libCreate q) s) 0x07) ∧
      (¬bad → ¬held → libUsed s + argLen s ≤ 2 ^ 41 → libRetired s = false → ∃ t, exec (.libCreate q) s = .next t ∧ done 1 t ∧
        objOf t id = some { typ := typ, length := argLen s } ∧ rd t Reg.LIB_OBJECTS = rd s Reg.LIB_OBJECTS + 1 ∧ others t)) ∧
    (Accepted q Reg.LIB_CMD 2 s → ¬busy →
      let beyond := isSystemId id = false ∧ 11200000000000 < sumN s.lib.wear + n
      let units := min 128 (unitsLeft off n)
      (n = 0 → refused (exec (.libWrite q) s) 0x45) ∧
      (n ≠ 0 → ¬reach → refused (exec (.libWrite q) s) 0x05) ∧
      (n ≠ 0 → reach → ∀ code, writeRefusal s id off n = some code → refused (exec (.libWrite q) s) code) ∧
      (n ≠ 0 → reach → writeRefusal s id off n = none → libRetired s = true → refused (exec (.libWrite q) s) 0x07) ∧
      (n ≠ 0 → reach → writeRefusal s id off n = none → libRetired s = false → beyond → ∃ t, exec (.libWrite q) s = .next t ∧
        t.ans = { status := 0x08 } ∧ rdBit t Reg.LIB_STATUS 7 = true ∧ SameRegs [Reg.LIB_STATUS] s t ∧ t.lib = s.lib) ∧
      (n ≠ 0 → reach → writeRefusal s id off n = none → libRetired s = false → ¬beyond → ∃ t, exec (.libWrite q) s = .next t ∧ taken 2 t ∧
        t.lib.run = some { isRead := false, id := id, off := off, addr := a, bytes := n } ∧ rdBit t Reg.LIB_STATUS 0 = true ∧
        rd t Reg.LIB_INFLIGHT = wd units ∧ rd t Reg.LIB_ACCEPTED = rd s Reg.LIB_ACCEPTED + wd (units - rdN s Reg.LIB_INFLIGHT) ∧
        (∀ o, objOf s id = some o → isImageSlot id = true → off = 0 →
          objOf t id = some { o with state := .opened, written := 0, length := 67108864 }) ∧
        (isSystemId id = false → t.lib.objs = s.lib.objs ∧ sumN t.lib.wear = sumN s.lib.wear + n))) ∧
    (Accepted q Reg.LIB_CMD 3 s → ¬busy →
      (n = 0 → refused (exec (.libRead q) s) 0x45) ∧
      (n ≠ 0 → ¬reach → refused (exec (.libRead q) s) 0x05) ∧
      (n ≠ 0 → reach → gone → refused (exec (.libRead q) s) 0x52) ∧
      (∀ o, n ≠ 0 → reach → objOf s id = some o →
        (o.state = .lost ∨ o.written < off + n → refused (exec (.libRead q) s) 0x53) ∧
        (o.state ≠ .lost → off + n ≤ o.written → inProtected s a n = true → refused (exec (.libRead q) s) 0x4F) ∧
        (o.state ≠ .lost → off + n ≤ o.written → inProtected s a n = false → ∃ t, exec (.libRead q) s = .next t ∧ taken 3 t ∧
          t.lib = { s.lib with run := some { isRead := true, id := id, off := off, addr := a, bytes := n } } ∧
          rdBit t Reg.LIB_STATUS 0 = true))) ∧
    (Accepted q Reg.LIB_CMD 4 s → ¬busy →
      (isSystemId id = true → refused (exec (.libDelete q) s) 0x53) ∧
      (isSystemId id = false → gone → refused (exec (.libDelete q) s) 0x52) ∧
      (isSystemId id = false → ¬gone → isPinned s id = true → refused (exec (.libDelete q) s) 0x55) ∧
      (isSystemId id = false → ¬gone → isPinned s id = false → libRetired s = true → refused (exec (.libDelete q) s) 0x07) ∧
      (isSystemId id = false → ¬gone → isPinned s id = false → libRetired s = false → ∃ t, exec (.libDelete q) s = .next t ∧ done 4 t ∧
        objOf t id = none ∧ rd t Reg.LIB_OBJECTS = rd s Reg.LIB_OBJECTS - 1 ∧ others t)) ∧
    (Accepted q Reg.LIB_CMD 5 s → ¬busy →
      (isResident s id = true → ∃ t, exec (.libStage q) s = .next t ∧ done 5 t ∧ t.lib.queue = s.lib.queue ∧ t.lib.objs = s.lib.objs) ∧
      (isResident s id = false → id ∈ s.src.inPlay → ∃ t, exec (.libStage q) s = .next t ∧ t.ans = { status := 0x4E } ∧
        rdBit t Reg.SRC_EVENTS 3 = true ∧ SameRegs [Reg.SRC_EVENTS] s t ∧ t.lib = s.lib) ∧
      (isResident s id = false → id ∉ s.src.inPlay → ∃ t, exec (.libStage q) s = .next t ∧ taken 5 t ∧
        (∃ e ∈ t.lib.queue, e.id = id ∧ e.cmd = true) ∧ t.lib.objs = s.lib.objs ∧
        ((∀ e ∈ s.lib.queue, e.id ≠ id) → t.lib.queue = s.lib.queue ++ [{ id := id, cmd := true }]))) ∧
    (Accepted q Reg.LIB_CMD 6 s → ¬busy →
      (gone → refused (exec (.libEvict q) s) 0x52) ∧
      (¬gone → isPinned s id = true → refused (exec (.libEvict q) s) 0x55) ∧
      (¬gone → isPinned s id = false → ∃ t, exec (.libEvict q) s = .next t ∧ done 6 t ∧
        objOf t id = (objOf s id).map (fun o => { o with base := none }) ∧ others t)) ∧
    (Accepted q Reg.LIB_CMD 7 s → ¬busy → ∃ t, exec (.libInfo q) s = .next t ∧ done 7 t ∧ rdRegs t (Reg.LIB_INFO 0) 8 = infoWords s id ∧
      t.lib = s.lib) ∧
    (Accepted q Reg.LIB_CMD 8 s →
      (s.lib.run = none → ∃ t, exec (.libCancel q) s = .next t ∧ done 8 t ∧ t.lib = s.lib) ∧
      (∀ r, s.lib.run = some r → ∃ t, exec (.libCancel q) s = .next t ∧ done 8 t ∧ t.lib = { s.lib with run := none } ∧
        rdBit t Reg.LIB_STATUS 0 = false ∧ (r.isRead = false → rd t Reg.LIB_INFLIGHT = 0 ∧
          rd t Reg.LIB_ABANDONED = rd s Reg.LIB_ABANDONED + rd s Reg.LIB_INFLIGHT)))

/-- R469 to R488 and R654: a write unit stands in its object, or ends the WRITE where memory is poisoned; a command completes with its code; staging
makes the first object that can be served and verifies resident, waits while pinned objects leave no room, or fails with its reason. A patrol pass
moves no data out of its object. Blocks and dies that fail take the pool, and the last makes the library read-only; the wear budget moves on by the
hour. What the spec leaves open follows assumptions 13, 15 and 54. -/
def Obligations.LibraryWorkProceeds : Prop :=
  ∀ (c : CryptoObs) (id block corrected : Nat) (die : Fin 64) (set : Fin 4) (lost : List Nat) (blocks : Nat) (digest : Bool) (s : State),
    let ended (cmd code : Nat) (t : State) : Prop := rd t Reg.LIB_CMD_RESULT = wd (2 ^ 24 * cmd + 256 + code) ∧
      rdBit t Reg.LIB_EVENTS 5 = true ∧ t.lib.run = none ∧ rdBit t Reg.LIB_STATUS 0 = false
    (∀ r, s.lib.run = some r → r.isRead = false → r.ending = none → writePaused s = false → s.hbm.inject = none →
      let pos := r.off + r.done
      let n := min (245760 - pos % 245760) (r.bytes - r.done)
      let a := r.addr + r.done
      (rangePoisoned s a n = true → ∃ t, exec .writeUnitCommit s = .next t ∧ t.lib = { s.lib with run := some { r with ending := some 0x50 } } ∧
        rd t Reg.LIB_INFLIGHT = 0 ∧ rd t Reg.LIB_ABANDONED = rd s Reg.LIB_ABANDONED + rd s Reg.LIB_INFLIGHT) ∧
      (rangePoisoned s a n = false → ∀ o, objOf s (writeKey r.id) = some o → ∃ t, exec .writeUnitCommit s = .next t ∧
        (∃ o', objOf t (writeKey r.id) = some o' ∧ o'.written = pos + n ∧ objBytes o' pos n = memBytes s a n ∧
          (isSystemId r.id = false → r.done + n = r.bytes → o'.state = if pos + n = o.length then .sealed else o.state)) ∧
        rd t Reg.LIB_COMMITTED = rd s Reg.LIB_COMMITTED + 1 ∧ t.mem = s.mem ∧
        t.lib.run = some { r with done := r.done + n, ending := if r.done + n = r.bytes then some 0 else none })) ∧
    ((∀ r, s.lib.run = some r → r.isRead = true ∨ r.ending ≠ none ∨ writePaused s = true) → exec .writeUnitCommit s = .next s) ∧
    (s.lib.run = none → exec (.libCmdComplete c) s = .next s) ∧
    (∀ r, s.lib.run = some r → r.isRead = true →
      (∀ o, objOf s r.id = some o → o.state ≠ .lost → ∃ t, exec (.libCmdComplete c) s = .next t ∧ ended 3 0 t ∧
        memBytes t r.addr r.bytes = objBytes o r.off r.bytes ∧
        ∀ b, b < r.addr ∨ r.addr + r.bytes ≤ b → memByte t b = memByte s b) ∧
      (∀ o, objOf s r.id = some o → o.state = .lost → ∃ t, exec (.libCmdComplete c) s = .next t ∧ ended 3 0x53 t ∧ t.mem = s.mem) ∧
      (objOf s r.id = none → ∃ t, exec (.libCmdComplete c) s = .next t ∧ ended 3 0x52 t ∧ t.mem = s.mem)) ∧
    (∀ r, s.lib.run = some r → r.isRead = false → r.ending = none → exec (.libCmdComplete c) s = .next s) ∧
    (∀ r code, s.lib.run = some r → r.isRead = false → r.ending = some code →
      let shadow := if isCode r.id then objOf s (writeKey r.id) else none
      ((∀ o, shadow = some o → o.state ≠ .sealed) → ∃ t, exec (.libCmdComplete c) s = .next t ∧ ended 2 code t ∧ t.lib.objs = s.lib.objs) ∧
      (∀ o, shadow = some o → o.state = .sealed → ∃ t, exec (.libCmdComplete c) s = .next t ∧ objOf t (writeKey r.id) = none ∧
        (codeOk s r.id o c = true → ended 2 code t ∧ objOf t r.id = some { o with typ := if r.id = 0xFFFFFF20 then 7 else 6 }) ∧
        (codeOk s r.id o c = false → ended 2 0x5E t ∧ objOf t r.id = objOf s r.id))) ∧
    ((∀ r ∈ s.lib.queue, stageReason s r.id ≠ 0 ∨ verifies s r.id = false) → exec .stagingComplete s = .next s) ∧
    (∀ r o, (serviceOrder s).find? (fun e => stageReason s e.id == 0 && verifies s e.id) = some r → objOf s r.id = some o →
      let m := makeRoom o.length s.lib.lru s
      (∀ p, m.1 = some p → ∃ t, exec .stagingComplete s = .next t ∧
        objOf t r.id = (objOf m.2 r.id).map (fun x => { x with base := some p }) ∧ (∀ e ∈ t.lib.queue, e.id ≠ r.id) ∧
        rdBit t Reg.LIB_STATUS 6 = false) ∧
      (m.1 = none → ∃ t, exec .stagingComplete s = .next t ∧ rdBit t Reg.LIB_STATUS 6 = true ∧ t.lib.objs = s.lib.objs ∧
        t.lib.queue = s.lib.queue ∧ (s.lib.areaNoted = false → Reported 0 0x12 0 0x0F t) ∧ (s.lib.areaNoted = true → t.flt = s.flt))) ∧
    (let why := if stageReason s id = 0 ∧ hasDigest s id = true ∧ (digest = true ∨ verifies s id = false) then 3 else stageReason s id
     (∀ r, s.lib.queue.find? (fun e => e.id == id) = some r → why ≠ 0 → ∃ t, exec (.stageFailed id digest) s = .next t ∧
       t.lib = { s.lib with queue := s.lib.queue.filter (fun e => e.id != id) } ∧ rd t Reg.LIB_STG_FAIL_ID = wd id ∧
       rd t Reg.LIB_STG_FAIL_REASON = wd why ∧ rdBit t Reg.LIB_EVENTS 2 = true ∧ Reported 0 0x12 0 0x0F t ∧
       (r.cmd = true → rd t Reg.LIB_CMD_RESULT = wd (2 ^ 24 * 5 + 256 + 0x68)) ∧
       (r.cmd = false → rd t Reg.LIB_CMD_RESULT = rd s Reg.LIB_CMD_RESULT)) ∧
     ((∀ r ∈ s.lib.queue, r.id ≠ id) ∨ why = 0 → exec (.stageFailed id digest) s = .next s)) ∧
    (s.pwr.state = .off → exec (.patrolPass corrected) s = .next s) ∧
    (let rewrites := rdN s Reg.LIB_XREFRESH_THRESH < corrected ∧ rescueLasts s = true
     s.pwr.state ≠ .off → ∃ t, exec (.patrolPass corrected) s = .next t ∧
      t.lib.rewritten = s.lib.rewritten + (if rewrites then 1 else 0) ∧ t.lib.objs = s.lib.objs ∧
      t.lib.rows.map (·.units) = s.lib.rows.map (·.units) ∧
      rd t Reg.LIB_RESCUE_LEFT = (if rewrites ∧ libRetired s = true then wd (rdN s Reg.LIB_RESCUE_LEFT - 1) else rd s Reg.LIB_RESCUE_LEFT) ∧
      SameRegs [Reg.LIB_RESCUE_LEFT] s t) ∧
    (let left := rdN s Reg.LIB_POOL_LEFT
     ∃ t, exec (.blockRetire block) s = .next t ∧ rdBit t Reg.LIB_EVENTS 0 = true ∧
      (left ≠ 0 → rdN t Reg.LIB_POOL_LEFT = left - 1 ∧ Reported 1 0x12 0 0x02 t ∧ rdBit t Reg.LIB_STATUS 4 = decide (left = 1) ∧
        (100 * (left - 1) ≤ 25 * rdN s Reg.LIB_POOL_INIT → rdBit t Reg.LIB_STATUS 2 = true) ∧
        (100 * (left - 1) ≤ 5 * rdN s Reg.LIB_POOL_INIT → rdBit t Reg.LIB_STATUS 3 = true)) ∧
      (left = 0 → rdN t Reg.LIB_RESCUE_LEFT = rdN s Reg.LIB_RESCUE_LEFT - 1 ∧ libRetired t = true ∧
        (libRetired s = true → Reported 1 0x12 0 0x02 t) ∧
        (libRetired s = false → Reported 2 0x12 0 0x0A t ∧ rdBit t Reg.LIB_EVENTS 4 = true))) ∧
    (∃ t, exec (.dieFailure die set lost) s = .next t ∧ rd t Reg.LIB_DIES_FAILED = rd s Reg.LIB_DIES_FAILED + 1 ∧
      rdBit t Reg.LIB_EVENTS 1 = true ∧ rdBit t Reg.LIB_STATUS 5 = true ∧ Reported 2 0x13 die.val 0x02 t ∧ set.val ∈ t.lib.rebuilding ∧
      (set.val ∉ s.lib.rebuilding → t.lib.objs = s.lib.objs) ∧
      (set.val ∈ s.lib.rebuilding → (lost ≠ [] → rdBit t Reg.LIB_EVENTS 3 = true) ∧
        ∀ i, objOf t i = (objOf s i).map (fun o => if i ∈ lost then { o with state := .lost } else o))) ∧
    (set.val ∈ s.lib.rebuilding → ∃ t, exec (.dieRebuildComplete set blocks) s = .next t ∧
      t.lib.rebuilding = s.lib.rebuilding.filter (fun k => k != set.val) ∧ rdBit t Reg.LIB_STATUS 5 = !t.lib.rebuilding.isEmpty ∧
      rdN t Reg.LIB_POOL_LEFT = rdN s Reg.LIB_POOL_LEFT - blocks ∧ (rdN s Reg.LIB_POOL_LEFT ≤ blocks → libRetired t = true)) ∧
    (set.val ∉ s.lib.rebuilding → exec (.dieRebuildComplete set blocks) s = .next s) ∧
    (∃ t, exec .wearBudgetHour s = .next t ∧ t.lib = { s.lib with wear := (0 :: s.lib.wear).take 168 } ∧ rdBit t Reg.LIB_STATUS 7 = false ∧
      rd t Reg.LIB_WEAR_7D = wd (ceilDiv (sumN t.lib.wear) 1000000) ∧ SameRegs [Reg.LIB_STATUS, Reg.LIB_WEAR_7D] s t)

/-! ### Chapter 14: site cores and the dispatcher -/

/-- R496 to R500, R506 and R510 to R512: a core that runs executes FENCE.REL (its buffer and dirty lines reach memory, unless a store falls where R500
raises a store access fault), FENCE.ACQ (no line without a dirty byte stays), and in machine mode TNEXT, TDONE, TSUBMIT and TYIELD; in user mode these four raise the illegal-instruction exception. A host's descriptor is submitted as a core's
is; mtval of the exception is open. What the spec leaves open follows assumptions 18 and 55. -/
def Obligations.CoresRunTheirInstructions : Prop :=
  ∀ (q : Req) (k : Fin 64) (r r1 : Fin 32) (s : State),
    let c := coreOf s k.val
    let runs := coreRuns s k.val = true
    let step1 : Core := { c with pc := c.pc + 4, stepping := false }
    let cleared : Core := { step1 with preempt := false, trapTaken := false, lateCounted := false }
    let last (l : List (Nat × Byte)) (a : Nat) := (l.reverse.find? (fun e => e.1 == a)).map (·.2)
    let kept := c.clean.filter (fun e => c.dirty.any (fun d => d.1 / 64 == e.1 / 64))
    let w := taskWindow k.val
    let quietFlags := ∀ n < 64, flagPending s n = false
    let accepted (d : List Byte) (t : State) : Prop :=
      let i := freeSlot s 4096 0
      let l := flowList s (descFlow d)
      taskAt t i = some { desc := d, flow := descFlow d, list := l, seq := tget (fun _ => 0) s.sch.seqs (descFlow d), epoch := epochNow s } ∧
        readyList t l = readyList s l ++ [i] ∧ rd t Reg.SCH_SUBMITTED = rd s Reg.SCH_SUBMITTED + 1 ∧
        rd t Reg.SCH_OUTSTANDING = rd s Reg.SCH_OUTSTANDING + 1
    let turned (t : State) : Prop := rdN t Reg.SCH_REFUSED = min (rdN s Reg.SCH_REFUSED + 1) 0xFFFFFFFF ∧ rdBit t Reg.SCH_EVENTS 0 = true ∧
      t.sch.tasks = s.sch.tasks
    (¬runs → ∀ i ∈ [Instr.fenceRel k, .fenceAcq k, .tnext k r, .tdone k r1, .tsubmit k r r1, .tyield k], exec i s = .next s) ∧
    (runs → protectedStore s k.val = none → ∃ t, exec (.fenceRel k) s = .next t ∧ t.regs = s.regs ∧ (∃ x, coreOf t k.val = { step1 with buffer := [], dirty := [], clean := x }) ∧
      ∀ a, memByte t a = ((last c.dirty a).orElse (fun _ => last c.buffer a)).getD (memByte s a)) ∧
    (∀ a, runs → protectedStore s k.val = some a → ∃ t, exec (.fenceRel k) s = .next t ∧ t.regs = s.regs ∧ t.mem = s.mem ∧
      coreOf t k.val = { c with
        mepc := c.pc, mcause := 7, mtval := BitVec.ofNat 64 a, statusMpp := !c.user, user := false, statusMpie := c.statusMie,
        statusMie := false, pc := c.mtvec &&& ~~~3, stepping := false, buffer := c.buffer.filter (fun e => !(inProtected s e.1 1)),
        dirty := c.dirty.filter (fun e => !(inProtected s e.1 1)) }) ∧
    (runs → ∃ t, exec (.fenceAcq k) s = .next t ∧ t.regs = s.regs ∧ t.mem = s.mem ∧ coreOf t k.val = { step1 with clean := kept }) ∧
    (runs → c.user = true → ∀ i ∈ [Instr.tnext k r, .tdone k r1, .tsubmit k r r1, .tyield k], ∃ v t, exec i s = .next t ∧ t.regs = s.regs ∧
      t.mem = s.mem ∧ t.sch.tasks = s.sch.tasks ∧ coreOf t k.val = { c with
        mepc := c.pc, mcause := 2, mtval := v, statusMpp := false, user := false, statusMpie := c.statusMie, statusMie := false,
        pc := c.mtvec &&& ~~~3, stepping := false }) ∧
    (runs → c.user = false → inSlot s k.val = none → ∃ t, exec (.tnext k r) s = .next t ∧ t.regs = s.regs ∧ t.mem = s.mem ∧
      coreOf t k.val = { cleared with waiting := some r.val } ∧ t.sch.tasks = s.sch.tasks) ∧
    (∀ i tk, runs → c.user = false → inSlot s k.val = some (i, tk) → taskAt s i = some tk → ∃ t, exec (.tnext k r) s = .next t ∧
      taskAt t i = some { tk with place := .running k.val, started := s.sch.clock + 1 } ∧ (coreOf t k.val).waiting = none ∧
      (coreOf t k.val).clean = kept ∧ (coreOf t k.val).pc = c.pc + 4 ∧ (r.val ≠ 0 → coreX t k.val r.val = w) ∧
      memBytes t w 128 = padTo 64 0 tk.desc ++ leBytes 4 tk.seq ++ leBytes 2 tk.flow ++ leBytes 2 (b2n tk.resume + 2 * b2n tk.takenOver) ++
        leBytes 8 (saveArea i) ++ leBytes 4 tk.epoch.toNat ++ List.replicate 44 0) ∧
    (∀ i tk, runs → c.user = false → runningOn s k.val = some (i, tk) → ∃ u, exec (.tdone k r1) s = .next (releaseAll tk.flow u) ∧
      taskAt u i = some { tk with place := .finished, result := readBytes s (coreX s k.val r1.val) 16, ended := s.sch.clock + 1 } ∧
      coreOf u k.val = cleared ∧ u.mem = s.mem ∧ SameRegs [Reg.SCH_PREEMPTS] s u ∧
      (c.preempt = true → c.trapTaken = false → rdN u Reg.SCH_PREEMPTS = rdN s Reg.SCH_PREEMPTS - 1) ∧
      (c.preempt = false ∨ c.trapTaken = true → u.regs = s.regs)) ∧
    (runs → c.user = false → runningOn s k.val = none → ∀ i ∈ [Instr.tdone k r1, .tyield k], ∃ t, exec i s = .next t ∧ t.regs = s.regs ∧
      coreOf t k.val = step1 ∧ t.sch.tasks = s.sch.tasks) ∧
    (runs → c.user = false → quietFlags →
      let d := readBytes s (coreX s k.val r1.val) 64
      ∃ t, exec (.tsubmit k r r1) s = .next t ∧ t.mem = s.mem ∧ (r.val ≠ 0 → coreX t k.val r.val = submitStatus s d) ∧
        (coreOf t k.val).pc = c.pc + 4 ∧ (submitStatus s d = 0 → accepted d t) ∧ (submitStatus s d ≠ 0 → turned t)) ∧
    (∀ i tk, runs → c.user = false → runningOn s k.val = some (i, tk) → ∃ t, exec (.tyield k) s = .next t ∧ t.regs = s.regs ∧ t.mem = s.mem ∧
      taskAt t i = some { tk with place := .ready, resume := true, preempted := true } ∧ readyList t tk.list = i :: readyList s tk.list ∧
      coreOf t k.val = cleared) ∧
    (Accepted q Reg.SCH_SUB_GO 1 s → quietFlags →
      let d := hostDescriptor s
      ∃ t, exec (.schSubGo q) s = .next t ∧ t.ans = { status := submitStatus s d } ∧ t.mem = s.mem ∧
        (submitStatus s d = 0 → accepted d t) ∧ (submitStatus s d ≠ 0 → turned t))

/-- R507 to R513 and R516 to R520: a pending template is submitted again when a slot frees; an idle core steals what outranks the ready tasks,
else the dispatcher places the first ready task by the three cases; a core that does not yield is counted once; FLUSH cancels the tasks of a list that do not run; room in a flow's
ring releases its record. A core whose copies disagree goes to a spare, or is fenced. What the spec leaves open follows assumptions 18 and 56. -/
def Obligations.DispatcherPlacesAndReleases : Prop :=
  ∀ (q : Req) (k : Fin 64) (l : Fin 64) (f : Fin 1024) (copies : Copies) (v : Word) (s : State),
    let c := coreOf s k.val
    ((∀ n < 64, flagPending s n = false) → exec .templateRetry s = .next s) ∧
    (∀ n d, n < 64 → flagPending s n = true → (∀ m < 64, m ≠ n → flagPending s m = false) → templateOf s n = some d →
      let e := templateDesc s n d
      (submitStatus s e ≠ 0 → exec .templateRetry s = .next s) ∧
      (submitStatus s e = 0 → ∃ t, exec .templateRetry s = .next t ∧ flagPending t n = false ∧
        (∃ x, taskAt t (freeSlot s 4096 0) = some x ∧ x.desc = e ∧ x.flow = descFlow e ∧ x.fromFlag = true ∧ x.place = .ready) ∧
        rd t Reg.SCH_SUBMITTED = rd s Reg.SCH_SUBMITTED + 1)) ∧
    ((∀ e ∈ headsInOrder s, placement s e.1 e.2 = none) → stealSlot s = none → exec (.dispatchPlacement .agree) s = .next s) ∧
    (∀ t, stealSlot s = some t → exec (.dispatchPlacement .agree) s = .next t) ∧
    (∀ a i rest x j, stealSlot s = none → headsInOrder s = (a, i) :: rest → taskAt s i = some x → caseIdle s a = some j →
      ∃ t, exec (.dispatchPlacement copies) s = .next t ∧ i ∉ readyList t x.list ∧ tget (fun _ => 63) t.sch.last (listPrio s a) = a ∧
        ((coreOf s j).waiting = none → taskAt t i = some { x with place := .slot j } ∧ t.mem = s.mem) ∧
        (∀ b, (coreOf s j).waiting = some b → taskAt t i = some { x with place := .running j, started := s.sch.clock + 1 } ∧
          (coreOf t j).waiting = none) ∧
        (copies = .retried → onOneCopy 0x0D 0 s = false → Reported 1 0x0D 0 0x03 t) ∧
        (copies = .disagree → onOneCopy 0x0D 0 s = false → (0x0D, 0) ∈ t.flt.tests) ∧
        (copies ≠ .agree → onOneCopy 0x0D 0 s = true → Reported 3 0x0D 0 0x0B t)) ∧
    (∀ a i rest x j, stealSlot s = none → headsInOrder s = (a, i) :: rest → taskAt s i = some x → caseIdle s a = none →
      casePreempt s a (listPrio s a) = some j →
      (coreOf s j).waiting = none →
      let y := coreOf s j
      let traps := y.trapTaken = false ∧ y.mie.getLsbD 16 = true ∧ (y.user = true ∨ y.statusMie = true)
      ∃ t, exec (.dispatchPlacement .agree) s = .next t ∧ taskAt t i = some { x with place := .slot j } ∧ t.mem = s.mem ∧
        (y.preempt = false → rdN t Reg.SCH_PREEMPTS = min (rdN s Reg.SCH_PREEMPTS + 1) 0xFFFFFFFF) ∧ (y.preempt = true → t.regs = s.regs) ∧
        (¬traps → coreOf t j = { y with preempt := true }) ∧
        (traps → coreOf t j = { y with
          preempt := true, trapTaken := true, mepc := y.pc, mcause := BitVec.ofNat 64 (2 ^ 63 + 16), mtval := 0, statusMpp := !y.user,
          user := false, statusMpie := y.statusMie, statusMie := false, pc := y.mtvec &&& ~~~3 }) ∧
        (∀ n u, inSlot s j = some (n, u) → n ≠ i → (readyList t u.list).head? = some n)) ∧
    (∀ a i rest x j, stealSlot s = none → headsInOrder s = (a, i) :: rest → taskAt s i = some x → caseIdle s a = none →
      casePreempt s a (listPrio s a) = none →
      caseSlot s a (listPrio s a) = some j → (coreOf s j).waiting = none →
      ∃ t, exec (.dispatchPlacement .agree) s = .next t ∧ taskAt t i = some { x with place := .slot j } ∧ t.mem = s.mem ∧ t.regs = s.regs) ∧
    (let late := c.preempt = true ∧ c.lateCounted = false ∧ runningOn s k.val ≠ none
     (late → ∃ t, exec (.preemptLate k) s = .next t ∧ coreOf t k.val = { c with lateCounted := true } ∧ rdBit t Reg.SCH_EVENTS 2 = true ∧
       rdN t Reg.SCH_PREEMPT_LATE = min (rdN s Reg.SCH_PREEMPT_LATE + 1) 0xFFFFFFFF ∧ Reported 0 0x03 k.val 0x07 t ∧
       t.sch.tasks = s.sch.tasks) ∧
     (¬late → exec (.preemptLate k) s = .next s)) ∧
    (Accepted q Reg.SCH_CMD (wd (256 * l.val + 1)) s →
      let stays (x : Task) : Prop := x.list ≠ l.val ∨ x.place = .finished ∨ ∃ j, x.place = .running j
      ∃ t, exec (.flush q l) s = .next t ∧ t.ans = { status := 0 } ∧ readyList t l.val = [] ∧
        (∀ i x, taskAt s i = some x → ¬stays x → taskAt t i = none) ∧
        ((∀ e ∈ tasks s, stays e.2) → rd t Reg.SCH_CANCELLED = rd s Reg.SCH_CANCELLED ∧ t.sch.tasks = s.sch.tasks) ∧
        (∀ i x, tasks s = [(i, x)] → ¬stays x → rd t Reg.SCH_CANCELLED = rd s Reg.SCH_CANCELLED + 1 ∧
          rdN t Reg.SCH_OUTSTANDING = rdN s Reg.SCH_OUTSTANDING - 1)) ∧
    (let x := Reg.SCH_FLOW_RD f.val
     let wr := rdN s (Reg.SCH_FLOW_WR f.val)
     Accepted q x v s →
      (flowRing s f.val < sub32 wr v.toNat → exec (.schFlowRdWrite q f v) s = .next { s with ans := { status := 0x45 } }) ∧
      (sub32 wr v.toNat ≤ flowRing s f.val → releasable s f.val = [] → ∃ t, exec (.schFlowRdWrite q f v) s = .next t ∧
        t.ans = { status := 0 } ∧ rd t x = v ∧ rd t (Reg.SCH_FLOW_HELD f.val) = 0 ∧ SameRegs [x, Reg.SCH_FLOW_HELD f.val] s t ∧ t.sch = s.sch) ∧
      (∀ i tk, sub32 wr v.toNat < flowRing s f.val → (tasks s).filter (fun e => e.2.flow == f.val) = [(i, tk)] → tk.place = .finished →
        ∃ t, exec (.schFlowRdWrite q f v) s = .next t ∧ t.ans = { status := 0 } ∧ rd t x = v ∧ taskAt t i = none ∧
          rd t (Reg.SCH_FLOW_WR f.val) = rd s (Reg.SCH_FLOW_WR f.val) + 1 ∧ rd t Reg.SCH_RELEASED = rd s Reg.SCH_RELEASED + 1 ∧
          memBytes t (tget (fun _ => 0) s.sch.bases f.val + 32 * (wr % flowRing s f.val)) (outputRecord tk).length = outputRecord tk)) ∧
    (c.fenced = true → exec (.coreMismatch k) s = .next s) ∧
    (c.fenced = false → c.takeover = true ∨ c.onSpare = true → ∃ t, exec (.coreMismatch k) s = .next t ∧ (coreOf t k.val).fenced = true ∧
      Reported 3 0x03 k.val 0x0B t ∧ rdBit t Reg.SCH_EVENTS 3 = true) ∧
    (c.fenced = false → c.takeover = false → c.onSpare = false → coreSpares s ≠ 0 → ∃ t, exec (.coreMismatch k) s = .next t ∧
      coreOf t k.val = { c with takeover := true } ∧ coreSpares t = coreSpares s - 1 ∧ Reported 2 0x03 k.val 0x03 t ∧
      rdFld t Reg.SCH_STATUS 18 16 = rdFld s Reg.SCH_STATUS 18 16 - 1 ∧ rdBit t Reg.SCH_EVENTS 3 = true ∧ t.flt.spareUsed = true) ∧
    (c.fenced = false → c.takeover = false → c.onSpare = false → coreSpares s = 0 → ∃ t, exec (.coreMismatch k) s = .next t ∧
      (coreOf t k.val).fenced = true ∧ rdBit t Reg.SCH_EVENTS 3 = true ∧
      rdBit t (if k.val < 32 then Reg.SCH_CORES_FENCED_LO else Reg.SCH_CORES_FENCED_HI) (k.val % 32) = true ∧
      Reported (if runningOn s k.val ≠ none ∨ c.preempt = true then 3 else 2) 0x03 k.val 0x0A t) ∧
    (c.takeover = true → ∃ t, exec (.coreTakeoverDone k) s = .next t ∧ coreOf t k.val = { c with takeover := false, onSpare := true } ∧
      rdBit t Reg.SCH_EVENTS 6 = true ∧ SameRegs [Reg.SCH_EVENTS] s t ∧
      ∀ i x, runningOn s k.val = some (i, x) → taskAt s i = some x → taskAt t i = some { x with takenOver := true }) ∧
    (c.takeover = false → exec (.coreTakeoverDone k) s = .next s)

/-! ### Chapter 15: DMA -/

/-- R523 to R536, R539 and R546: START is refused on a free or a busy channel or for a bad simple descriptor, and else runs the program, or the
simple form where the program fails its checks; STOP ends a run. MOVE, LOOP, WAIT, SIGNAL, END and NOP act where they are the instruction in force; a SIGNAL whose write is barred ends its run.
What the spec leaves open follows assumption 19. -/
def Obligations.DmaProgramsRun : Prop :=
  ∀ (q : Req) (c : Fin 32) (s : State),
    let st := dmaState s c.val
    let want := rdBit s (Reg.DMA_XCH_MODE c.val) 0
    let why := programReason s c.val
    let simple := simpleReason s c.val
    let x := Reg.DMA_CH_STATUS c.val
    let begun (r : DmaRun) (t : State) : Prop := t.ans = { status := 0 } ∧ dmaRun t c.val = some r ∧ dmaState t c.val = 2 ∧
      rdFld t x 23 16 = 0 ∧ rdBit t x 6 = r.fallback ∧ rd t (Reg.DMA_CH_RUNS c.val) = rd s (Reg.DMA_CH_RUNS c.val) + 1 ∧
      rd t Reg.DMA_TOK_ISSUED = rd s Reg.DMA_TOK_ISSUED + 1 ∧ rd t Reg.DMA_TOK_ACTIVE = rd s Reg.DMA_TOK_ACTIVE + 1 ∧ t.mem = s.mem
    let fresh : DmaRun := { safe := safeService s, rehosted := rdBit s x 5, pattern := noPattern }
    let goesOnTo (r : DmaRun) (t : State) : Prop := dmaRun t c.val = some { r with pc := r.pc + 1, waiting := false } ∧
      dmaState t c.val = 2 ∧ rdFld t x 23 16 = (r.pc + 1) % 256
    let ended (r : DmaRun) (code : Nat) (t : State) : Prop :=
      let late := ∃ m b, r.move = some m ∧ b ∈ m.beats ∧ b.answer = none
      (late → dmaRun t c.val = some { r with ending := some (code, 0), waiting := false } ∧ t.regs = s.regs) ∧
      (¬late → dmaRun t c.val = some { r with ending := some (code, 0), waiting := false, move := none, recs := r.recs ++
          [{ status := code, final := true, moved := r.moved, good := r.good, addr := 0, pc := r.pc, epoch := epochNow s }] } ∧ (st ≠ 5 → dmaState t c.val = 4))
    let stands (r : DmaRun) := dmaRun s c.val = some r ∧ r.ending = none ∧ r.move = none ∧ r.recs.any (·.held) = false ∧ st = 2
    (Accepted q (Reg.DMA_CH_CMD c.val) 1 s →
      (st = 6 → exec (.dmaStart q c) s = .next { s with ans := { status := 0x59 } }) ∧
      (st ≠ 6 → st ≠ 0 → exec (.dmaStart q c) s = .next { s with ans := { status := 0x57 } }) ∧
      (st = 0 → want = true → why = 0 → ∃ t, exec (.dmaStart q c) s = .next t ∧ begun { fresh with prog := fetchProgram s c.val } t ∧
        rd t (Reg.DMA_CH_VREASON c.val) = 0) ∧
      (st = 0 → want = false ∨ why ≠ 0 → simple = 0 → ∃ t, exec (.dmaStart q c) s = .next t ∧
        begun { fresh with simple := true, fallback := want, vreason := if want then why else 0 } t ∧
        (want = true → rdBit t Reg.DMA_EVENTS 1 = true ∧ rd t (Reg.DMA_CH_VREASON c.val) = wd why)) ∧
      (st = 0 → want = false ∨ why ≠ 0 → simple ≠ 0 → ∃ t, exec (.dmaStart q c) s = .next t ∧ t.ans = { status := 0x58 } ∧
        rd t (Reg.DMA_CH_VREASON c.val) = wd simple ∧ SameRegs [Reg.DMA_CH_VREASON c.val] s t ∧ t.dma = s.dma)) ∧
    (Accepted q (Reg.DMA_CH_CMD c.val) 2 s →
      (st = 0 ∨ 4 ≤ st → exec (.dmaStop q c) s = .next { s with ans := { status := 0 } }) ∧
      (∀ r, 1 ≤ st → st ≤ 3 → dmaRun s c.val = some r → r.ending = none → ∃ t, exec (.dmaStop q c) s = .next t ∧ t.ans = { status := 0 } ∧
        ended r 1 t)) ∧
    (∀ r, stands r → r.simple = true → ∃ t, exec (.dmaMove c) s = .next t ∧ t.regs = s.regs ∧
      dmaRun t c.val = some { r with move := some (simpleMove s c.val) }) ∧
    (∀ r i, stands r → r.simple = false → r.prog[r.pc]? = some i → insOp i = 1 → ∃ t, exec (.dmaMove c) s = .next t ∧ t.regs = s.regs ∧
      dmaRun t c.val = some { r with move := some {
        len := insN i 4 4, src := insN i 8 8, dst := insN i 0x10 8, levels := r.pattern, swap := bitsN (insN i 1 1) 3 2,
        recd := bitN (insN i 1 1) 0 } }) ∧
    ((∀ r, ¬stands r) → exec (.dmaMove c) s = .next s) ∧
    (∀ r i, dmaRun s c.val = some r → insInForce s c.val = some i →
      (insOp i = 2 → ∃ t, exec (.dmaLoop c) s = .next t ∧ goesOnTo { r with pattern := loopPattern i } t ∧ SameRegs [x] s t) ∧
      (insOp i = 3 → ∃ t, exec (.dmaWait c) s = .next t ∧ dmaRun t c.val = some { r with waiting := true } ∧ dmaState t c.val = 3 ∧
        SameRegs [x] s t) ∧
      (insOp i = 4 →
        let n := insN i 2 1
        (insN i 1 1 = 0 → n < 64 → ∃ t, exec (.dmaSignal c) s = .next t ∧ goesOnTo r t ∧ rd t (Reg.SCH_DFLAG n) = wd (insN i 0x10 4) ∧
          t.mem = s.mem) ∧
        (let d := insN i 8 8
         let kept := inProtected s d 8 = true ∨ inItcm d = true ∨ inTaskWindow d = true
         let stops (code : Nat) (t : State) : Prop := t.mem = s.mem ∧ ∃ u, dmaRun t c.val = some u ∧ u.ending = some (code, d / 64 * 64)
         insN i 1 1 = 1 →
          (kept → ∃ t, exec (.dmaSignal c) s = .next t ∧ stops 6 t) ∧
          (¬kept → touchesPlay s d 8 = true → ∃ t, exec (.dmaSignal c) s = .next t ∧ stops 7 t ∧ rdBit t Reg.SRC_EVENTS 3 = true) ∧
          (¬kept → touchesPlay s d 8 = false → ∃ t, exec (.dmaSignal c) s = .next t ∧ goesOnTo r t ∧
            memBytes t d 8 = leBytes 8 (insN i 0x10 8) ∧ ∀ a, a < d ∨ d + 8 ≤ a → memByte t a = memByte s a)) ∧
        (2 ≤ insN i 1 1 → ∃ t, exec (.dmaSignal c) s = .next t ∧ goesOnTo r t ∧ SameRegs [x] s t ∧ t.mem = s.mem ∧
          t.net = (pushRec isOwnerEvent (eventRecord 2 n (insN i 0x10 4) s) s).net)) ∧
      (insOp i = 0x0F → ∃ t, exec (.dmaEnd c) s = .next t ∧ ended r 0 t) ∧
      (insOp i = 0 → ∃ t, exec (.dmaNop c) s = .next t ∧ goesOnTo r t ∧ SameRegs [x] s t)) ∧
    (∀ e ∈ [(2, Instr.dmaLoop c), (3, .dmaWait c), (4, .dmaSignal c), (0x0F, .dmaEnd c), (0, .dmaNop c)],
      (∀ i, insInForce s c.val = some i → insOp i ≠ e.1) → exec e.2 s = .next s)

/-- R532, R537 to R549: a poll ends a wait that holds, or the run on poison; a timeout ends it; a grant moves a beat unless its read or its write is
barred; answers make the good prefix, and an error or the last answer ends the move; records go to the ring or are held while it is full; an engine
that fails is replaced, or ends its run. What the spec leaves open follows assumption 19. -/
def Obligations.DmaRunsMoveAndEnd : Prop :=
  ∀ (q : Req) (c : Fin 32) (j : Nat) (ok : Bool) (spent : List Nat) (copies : Copies) (v : Word) (s : State),
    let st := dmaState s c.val
    let x := Reg.DMA_CH_STATUS c.val
    let ends (code addr : Nat) (t : State) : Prop := ∃ r, dmaRun t c.val = some r ∧ r.ending = some (code, addr) ∧ r.waiting = false
    let final (t : State) (p : DmaRec → Prop) : Prop := ∃ r k, dmaRun t c.val = some r ∧ r.recs.getLast? = some k ∧ k.final = true ∧
      r.move = none ∧ p k ∧ (st ≠ 5 → dmaState t c.val = 4)
    (∀ r i, dmaRun s c.val = some r → waitOf s c.val = some i → r.ending = none →
      (insN i 1 1 = 0 → s.hbm.inject = none → rangePoisoned s (insN i 8 8) 8 = true → ∃ t, exec (.dmaWaitPoll c) s = .next t ∧
        ends 4 (insN i 8 8 / 64 * 64) t) ∧
      (insN i 1 1 = 0 → s.hbm.inject = none → rangePoisoned s (insN i 8 8) 8 = false → waitHolds s i = true →
        ∃ t, exec (.dmaWaitPoll c) s = .next t ∧ dmaRun t c.val = some { r with pc := r.pc + 1, waiting := false } ∧ dmaState t c.val = 2 ∧
          SameRegs [x] s t) ∧
      (insN i 1 1 = 0 → s.hbm.inject = none → rangePoisoned s (insN i 8 8) 8 = false → waitHolds s i = false →
        exec (.dmaWaitPoll c) s = .next s) ∧
      (insN i 1 1 ≠ 0 → exec (.dmaWaitPoll c) s = .next s) ∧
      (insN i 4 4 ≠ 0 → ∃ t, exec (.dmaWaitTimeout c) s = .next t ∧ ends 2 (if insN i 1 1 = 1 then 0 else insN i 8 8) t) ∧
      (insN i 4 4 = 0 → exec (.dmaWaitTimeout c) s = .next s)) ∧
    (waitOf s c.val = none → exec (.dmaWaitPoll c) s = .next s ∧ exec (.dmaWaitTimeout c) s = .next s) ∧
    (pickChannel s spent = none → exec (.dmaBurstGrant spent .agree) s = .next s) ∧
    (∀ res r m, pickChannel s spent = some (c.val, res) → dmaRun s c.val = some r → r.move = some m → preemptArb s = true →
      s.hbm.inject = none →
      let src := (elemAddrs m).1 + if m.srcFixed then m.off % 64 else m.off
      let dst := (elemAddrs m).2 + if m.dstFixed then m.off % 64 else m.off
      let n := min (64 - dst % 64) (m.len - m.off)
      let kept := inProtected s dst n = true ∨ inItcm dst = true ∨ inTaskWindow dst = true
      ∃ t, exec (.dmaBurstGrant spent copies) s = .next t ∧
        (rangePoisoned s src n = true → ends 4 (src / 64 * 64) t) ∧
        (rangePoisoned s src n = false → kept → ends 6 (dst / 64 * 64) t ∧ SameMem s t) ∧
        (rangePoisoned s src n = false → ¬kept → touchesPlay s dst n = true → ends 7 (dst / 64 * 64) t ∧ rdBit t Reg.SRC_EVENTS 3 = true) ∧
        (rangePoisoned s src n = false → ¬kept → touchesPlay s dst n = false →
          dmaRun t c.val = some { r with move := some (moveOn m n { addr := dst, len := n }), moved := r.moved + n } ∧
          memBytes t dst n = swapBytes m.swap (readBytes s src n) ∧ ∀ a, a < dst ∨ dst + n ≤ a → memByte t a = memByte s a) ∧
        (copies = .retried → onOneCopy 0x0C 0 s = false → Reported 1 0x0C 0 0x03 t) ∧
        (copies = .disagree → onOneCopy 0x0C 0 s = false → (0x0C, 0) ∈ t.flt.tests) ∧
        (copies ≠ .agree → onOneCopy 0x0C 0 s = true → Reported 3 0x0C 0 0x0B t)) ∧
    (∀ r m b, dmaRun s c.val = some r → r.move = some m → m.beats[j]? = some b → b.answer = none → r.ending = none →
      let p := goodPrefix r.good (m.beats.set j { b with answer := some ok })
      let whole := moveIssued m = true ∧ p.2 = []
      let late := ∃ e ∈ p.2, e.answer = none
      (ok = true → ¬whole → ∃ t, exec (.dmaWriteAnswer c j ok) s = .next t ∧ t.regs = s.regs ∧ t.mem = s.mem ∧
        dmaRun t c.val = some { r with good := p.1, move := some { m with beats := p.2 } }) ∧
      (ok = true → whole → r.simple = true → ∃ t, exec (.dmaWriteAnswer c j ok) s = .next t ∧
        final t (fun k => k.status = 0 ∧ k.good = p.1 ∧ k.moved = r.moved)) ∧
      (ok = true → whole → r.simple = false → ∃ t, exec (.dmaWriteAnswer c j ok) s = .next t ∧ ∃ u, dmaRun t c.val = some u ∧
        u.pc = r.pc + 1 ∧ u.move = none ∧ u.pattern = noPattern ∧ u.good = p.1 ∧ u.recs.length = r.recs.length + b2n m.recd) ∧
      (ok = false → late → ∃ t, exec (.dmaWriteAnswer c j ok) s = .next t ∧ t.regs = s.regs ∧ t.mem = s.mem ∧
        dmaRun t c.val = some { r with good := p.1, move := some { m with beats := p.2 }, ending := some (5, 0) }) ∧
      (ok = false → ¬late → ∃ t, exec (.dmaWriteAnswer c j ok) s = .next t ∧ final t (fun k =>
        k.status = if moveIssued m = true ∧ (p.2.dropWhile (fun e => e.answer != some false)).length = 1 then 3 else 5))) ∧
    ((∀ r m b, dmaRun s c.val = some r → r.move = some m → m.beats[j]? = some b → b.answer ≠ none) →
      exec (.dmaWriteAnswer c j ok) s = .next s) ∧
    (∀ r m, dmaRun s c.val = some r → r.move = some m → r.ending = none → moveIssued m = false → ∃ t, exec (.dmaReadError c) s = .next t ∧
      ends 4 (((elemAddrs m).1 + if m.srcFixed then m.off % 64 else m.off) / 64 * 64) t) ∧
    (dmaRun s c.val = none → exec (.dmaReadError c) s = .next s) ∧
    (∀ r k ks, dmaRun s c.val = some r → r.recs = k :: ks →
      let wr := rdN s Reg.DMA_CQ_WR
      let base := rdN s Reg.DMA_CQ_BASE_LO + 4294967296 * rdFld s Reg.DMA_CQ_BASE_HI 15 0
      (cqFull s = true → ∃ t, exec (.dmaCompletionRecord c) s = .next t ∧ dmaRun t c.val = some { r with recs := { k with held := true } :: ks } ∧
        rdBit t Reg.DMA_STATUS 3 = true ∧ rdBit t Reg.DMA_EVENTS 3 = true ∧ (st ≠ 5 → dmaState t c.val = 4) ∧ t.mem = s.mem) ∧
      (cqFull s = false → ∃ t, exec (.dmaCompletionRecord c) s = .next t ∧ rd t Reg.DMA_CQ_WR = rd s Reg.DMA_CQ_WR + 1 ∧
        memBytes t (base + 32 * (wr % rdN s Reg.DMA_CQ_SIZE)) 32 = recBytes c.val r k ∧
        rd64 t (Reg.DMA_CH_MOVED_LO c.val) = k.moved % 2 ^ 64 ∧
        (k.final = false → dmaRun t c.val = some { r with recs := ks }) ∧
        (k.final = true → dmaRun t c.val = none ∧ rdFld t x 31 24 = k.status % 256 ∧ (st ≠ 5 → dmaState t c.val = 0) ∧
          rd t Reg.DMA_TOK_RETURNED = rd s Reg.DMA_TOK_RETURNED + 1 ∧ rdN t Reg.DMA_TOK_ACTIVE = rdN s Reg.DMA_TOK_ACTIVE - 1))) ∧
    ((∀ r, dmaRun s c.val = some r → r.recs = []) → exec (.dmaCompletionRecord c) s = .next s) ∧
    (Accepted q Reg.DMA_CQ_RD v s →
      (rdN s Reg.DMA_CQ_SIZE < sub32 (rdN s Reg.DMA_CQ_WR) v.toNat → exec (.dmaCqRdWrite q v) s = .next { s with ans := { status := 0x45 } }) ∧
      (sub32 (rdN s Reg.DMA_CQ_WR) v.toNat ≤ rdN s Reg.DMA_CQ_SIZE → ∃ t, exec (.dmaCqRdWrite q v) s = .next t ∧ t.ans = { status := 0 } ∧
        rd t Reg.DMA_CQ_RD = v ∧
        ((∀ d < 32, ∀ r, dmaRun s d = some r → r.recs.any (·.held) = false) → rdBit t Reg.DMA_STATUS 3 = cqFull t ∧
          SameRegs [Reg.DMA_CQ_RD, Reg.DMA_STATUS] s t ∧ t.dma = s.dma))) ∧
    (st = 5 ∨ st = 6 → exec (.dmaEngineFault c) s = .next s) ∧
    (let e := dmaHost s c.val
     (∀ n, st ≠ 5 → st ≠ 6 → (freeEngines s).getLast? = some n → ∃ t, exec (.dmaEngineFault c) s = .next t ∧ Reported 2 0x0B e 0x03 t ∧
       dmaHost t c.val = n ∧ rdBit t x 5 = true ∧ rdBit t Reg.DMA_EVENTS 2 = true ∧ isFenced 0x0B e t = true ∧ n ∈ t.dma.used ∧
       dmaRun t c.val = (dmaRun s c.val).map (fun r => { r with rehosted := true })) ∧
     (st ≠ 5 → st ≠ 6 → (freeEngines s).getLast? = none → ∃ t, exec (.dmaEngineFault c) s = .next t ∧ dmaState t c.val = 5 ∧
       Reported (if dmaReserved s c.val = true ∧ stepRuns s = true then 3 else 2) 0x0B e 0x0A t ∧ rdBit t Reg.DMA_EVENTS 6 = true ∧
       isFenced 0x0B e t = true ∧ (dmaRun s c.val = none → dmaRun t c.val = none) ∧
       (∀ r, dmaRun s c.val = some r → r.recs.any (·.final) = false → ∃ u k, dmaRun t c.val = some u ∧ u.recs = r.recs ++ [k] ∧
         k.status = 8 ∧ k.final = true)))

/-! ### Chapter 16: host link -/

/-- R563 to R570: SESSION_INIT gives a free slot a CHALLENGE, and SESSION_CONFIRM opens it, refuses it, or is dropped; a handshake times out, an
idle session closes. The identity of a host is the SHA3-256 hash of its public key. On an open session a message that verifies acknowledges, and a request next in order is executed with its number as the highest
received; one executed before is answered from the cache, one ahead waits, and one that does not verify is answered BAD_AUTH and counted. An accepted CLOSE is
answered OK, and the session closes. An unacknowledged message is sent again and counted. What the spec leaves open follows assumption 9. -/
def Obligations.SessionsOpenAndNumber : Prop :=
  ∀ (h : Hdr) (port : Fin 2) (hostPub : List Byte) (slot : Fin 8) (sigOk : Bool) (seq a n : Nat) (ws : List Word) (bs : List Byte) (w : Word)
      (o : WriteObs) (p : StreamReq) (s : State),
    let k := slotOfId h.session
    let x := sessOf s k
    let others (j : Nat) (t : State) : Prop := ∀ i, i ≠ j → sessOf t i = sessOf s i
    let counted (r : Nat) (t : State) : Prop := rdN t r = min (rdN s r + 1) 0xFFFFFFFF
    let dropped (i : Instr) : Prop := ∃ t, exec i s = .next t ∧ counted Reg.NET_DROPPED t ∧ SameRegs [Reg.NET_DROPPED] s t ∧ Alters [.regs] s t
    let closed (j : Nat) (t : State) : Prop := sessOf t j = {} ∧ others j t ∧ (∀ e ∈ t.net.streams, e.holder ≠ some j) ∧
      (s.net.owner ≠ some j → t.net.owner = s.net.owner) ∧
      (s.net.owner = some j → t.net.owner = none ∧ t.net.electing = true ∧ rd t Reg.SYS_EXPERT_EN = 0)
    let listens := portListens s h.port.val = true
    let here := x.phase = .opened ∧ x.id = h.session
    let plain := x.waiting = [] ∧ ∀ m ∈ x.unacked, dataStream m.body = none
    let taken := { x with
      port := h.port.val, window := h.window, unacked := x.unacked.filter (fun m => decide (h.ack < m.seq)) }
    let asked : List (Instr × Kct) := [(.close h, .close), (.readReg h a n, .readReg a n), (.writeReg h a ws o, .writeReg o a ws),
      (.readMem h a n, .readMem a n), (.writeMem h a bs, .writeMem a bs), (.claim h, .claim), (.heartbeat h, .heartbeat),
      (.handover h w, .handover w), (.accept h, .accept), (.release h, .release), (.streamOpen h p, .streamOpen p),
      (.streamCredit h a n, .streamCredit a n), (.streamClose h a, .streamClose a)]
    (portListens s port.val = false → exec (.sessionInit hostPub port) s = .next s) ∧
    (portListens s port.val = true → (∀ j < 8, (sessOf s j).phase ≠ .free) →
      exec (.sessionInit hostPub port) s = .next { s with ans := { status := 0x04 } }) ∧
    (∀ j < 8, portListens s port.val = true → (sessOf s j).phase = .free → (∀ i < j, (sessOf s i).phase ≠ .free) →
      ∃ t, exec (.sessionInit hostPub port) s = .next t ∧ t.ans = { status := 0 } ∧ (sessOf t j).phase = .challenged ∧
        slotOfId (sessOf t j).id = j ∧ (sessOf t j).hostId = identityOf hostPub ∧ (sessOf t j).port = port.val ∧ (sessOf t j).rx = 1 ∧
        (∃ m nonce, (sessOf t j).unacked = [m] ∧ m.seq = 1 ∧ m.body = .challenge nonce ∧ nonce.length = 8) ∧ others j t ∧
        rd t (Reg.NET_SESS_ID j) = (sessOf t j).id ∧
        SameRegs [Reg.NET_SESS_ID j, Reg.NET_SESS_STATE j, Reg.NET_SESS_TX j] s t ∧ Alters [.regs, .net, .ans, .freeIdx] s t) ∧
    (let offered := x.phase = .challenged ∧ x.id = h.session ∧ h.authOk = true ∧ h.seq = 2
     let admitted := sigOk = true ∧ hostAdmitted s x.hostId = true
     (¬listens → exec (.sessionConfirm h sigOk) s = .next s) ∧
     (listens → ¬offered → dropped (.sessionConfirm h sigOk)) ∧
     (listens → offered → ¬admitted → ∃ t, exec (.sessionConfirm h sigOk) s = .next t ∧ t.ans = { status := 0x06 } ∧ sessOf t k = {} ∧
       others k t ∧ SameRegs [Reg.NET_SESS_ID k, Reg.NET_SESS_STATE k] s t ∧ Alters [.regs, .net, .ans] s t) ∧
     (listens → offered → admitted → x.waiting = [] → (∀ m ∈ x.unacked, ∃ nonce, m.body = .challenge nonce) →
       ∃ t, exec (.sessionConfirm h sigOk) s = .next t ∧ t.ans = { status := 0 } ∧ (sessOf t k).phase = .opened ∧
         (sessOf t k).id = h.session ∧ (sessOf t k).prio = hostPrio s x.hostId ∧ (sessOf t k).port = h.port.val ∧ (sessOf t k).rx = 2 ∧
         (∃ m ∈ (sessOf t k).unacked ++ (sessOf t k).waiting, m.body = .sessionOpen 0 (hostPrio s x.hostId)) ∧ others k t ∧
         t.net.owner = s.net.owner ∧ rd t (Reg.NET_SESS_RX k) = 0 ∧
         SameRegs [Reg.NET_SESS_ID k, Reg.NET_SESS_STATE k, Reg.NET_SESS_RX k, Reg.NET_SESS_TX k] s t ∧ Alters [.regs, .net, .ans] s t)) ∧
    ((sessOf s slot.val).phase = .challenged → ∃ t, exec (.handshakeTimeout slot) s = .next t ∧ sessOf t slot.val = {} ∧ others slot.val t ∧
      SameRegs [Reg.NET_SESS_ID slot.val, Reg.NET_SESS_STATE slot.val] s t ∧ Alters [.regs, .net] s t) ∧
    ((sessOf s slot.val).phase ≠ .challenged → exec (.handshakeTimeout slot) s = .next s) ∧
    ((sessOf s slot.val).phase = .opened → ∃ t, exec (.sessionIdleTimeout slot) s = .next t ∧ closed slot.val t) ∧
    ((sessOf s slot.val).phase ≠ .opened → exec (.sessionIdleTimeout slot) s = .next s) ∧
    (listens → here → h.authOk = true → plain → x.held = [] → ∃ t, exec (.ack h) s = .next t ∧ sessOf t k = taken ∧ others k t ∧
      SameRegs [Reg.NET_SESS_ID k, Reg.NET_SESS_STATE k] s t ∧ Alters [.regs, .net] s t) ∧
    (∀ i, i ∈ Instr.ack h :: asked.map (·.1) →
      (¬listens → exec i s = .next s) ∧
      (listens → ¬here → dropped i) ∧
      (listens → here → h.authOk = false → ∃ t, exec i s = .next t ∧ counted Reg.NET_BADAUTH t ∧ (sessOf t k).rx = x.rx ∧
        others k t ∧ t.net = { s.net with sess := t.net.sess } ∧
        (∃ r ∈ (sessOf t k).unacked ++ (sessOf t k).waiting, r.body = .response { reqSeq := h.seq, status := 0x06, done := 0, data := [] }) ∧
        SameRegs [Reg.NET_BADAUTH, Reg.NET_SESS_TX k] s t ∧ Alters [.regs, .net] s t)) ∧
    (∀ i m, (i, m) ∈ asked →
      (listens → here → h.authOk = true → plain →
        (h.seq = x.rx + 1 → x.held = [] → commitOpen s k = false → ∃ u, exec i s = .next (runRequest k h.seq h.epoch m u) ∧
          sessOf u k = { taken with rx := h.seq } ∧ others k u ∧ u.net.owner = s.net.owner ∧
          SameRegs [Reg.NET_SESS_ID k, Reg.NET_SESS_STATE k] s u ∧ Alters [.regs, .net] s u) ∧
        (h.seq ≤ x.rx → ∃ t, exec i s = .next t ∧ (sessOf t k).rx = x.rx ∧ (sessOf t k).held = x.held ∧
          (∀ r, x.cache.find? (fun r => r.reqSeq == h.seq) = some r →
            ∃ m ∈ (sessOf t k).unacked ++ (sessOf t k).waiting, m.body = .response r) ∧
          SameRegs [Reg.NET_SESS_ID k, Reg.NET_SESS_STATE k, Reg.NET_SESS_TX k] s t ∧ Alters [.regs, .net] s t) ∧
        (x.rx + 1 < h.seq → x.held = [] → ∃ t, exec i s = .next t ∧
          sessOf t k = { taken with held := if h.seq ≤ x.rx + 64 then [(h.seq, h.epoch, m)] else [] } ∧ others k t ∧
          SameRegs [Reg.NET_SESS_ID k, Reg.NET_SESS_STATE k] s t ∧ Alters [.regs, .net] s t))) ∧
    ((h.epoch = 0 ∨ h.epoch = epochNow s) → listens → here → h.authOk = true → plain → h.seq = x.rx + 1 → x.held = [] →
      commitOpen s k = false → ∃ t, exec (.close h) s = .next t ∧ closed k t ∧
        tget (fun _ => none) t.net.closes k = some { reqSeq := h.seq, status := 0, done := 0, data := [] }) ∧
    (((sessOf s slot.val).unacked.any (fun m => m.seq == seq)) = true → ∃ t, exec (.retransmitTimer slot seq) s = .next t ∧
      counted Reg.NET_RETX t ∧ SameRegs [Reg.NET_RETX] s t ∧ others slot.val t ∧ Alters [.regs, .net] s t ∧
      (sessOf t slot.val).unacked =
        (sessOf s slot.val).unacked.map (fun m => if m.seq = seq then { m with resends := m.resends + 1 } else m)) ∧
    (((sessOf s slot.val).unacked.any (fun m => m.seq == seq)) = false → exec (.retransmitTimer slot seq) s = .next s)

/-- R60, R453 to R462, R561 and R562: what the requests of a session do when they are executed, and the RESPONSE each is answered with. READ_REG
reads registers from its address up as far as they are mapped, a READ_REG or WRITE_REG of one register meets the refusals of R19, and READ_MEM and
WRITE_MEM act whole or not at all; a write into a waveform in play is also noted in SRC_EVENTS. What the spec leaves open follows assumptions 10 and 11. -/
def Obligations.RegisterAndMemoryRequestsAct : Prop :=
  ∀ (h : Hdr) (a n : Nat) (ws : List Word) (v : Word) (bs : List Byte) (o : WriteObs) (s : State),
    let k := slotOfId h.session
    let x := sessOf s k
    let q : Req := { slot := Fin.ofNat 8 k, authOk := true, epoch := h.epoch }
    let ready := portListens s h.port.val = true ∧ x.phase = .opened ∧ x.id = h.session ∧ h.authOk = true ∧ h.seq = x.rx + 1 ∧
      x.held = [] ∧ x.waiting = [] ∧ (∀ m ∈ x.unacked, dataStream m.body = none) ∧ commitOpen s k = false
    let fresh := h.epoch = 0 ∨ h.epoch = epochNow s
    let own := [Reg.NET_SESS_ID k, Reg.NET_SESS_STATE k, Reg.NET_SESS_RX k, Reg.NET_SESS_TX k]
    let tells (code done : Nat) (data : List Word) (t : State) : Prop := ∃ m ∈ (sessOf t k).unacked ++ (sessOf t k).waiting,
      m.body = .response { reqSeq := h.seq, status := code, done := done, data := data }
    let refused (r : Host.Outcome State Fault Refusal) (code : Nat) : Prop :=
      ∃ t, r = .next t ∧ tells code 0 [] t ∧ SameRegs own s t ∧ Alters [.regs, .net, .ans] s t
    ready →
    (a % 4 ≠ 0 ∨ n = 0 ∨ 1024 < n ∨ mappedRead s a = false → refused (exec (.readReg h a n) s) 0x05) ∧
    (a % 4 = 0 → 1 ≤ n → n ≤ 1024 → mappedRead s a = true → ¬fresh → refused (exec (.readReg h a n) s) 0x09) ∧
    (a % 4 = 0 → 1 ≤ n → n ≤ 1024 → mappedRead s a = true → fresh → ∃ t data, exec (.readReg h a n) s = .next t ∧
      (tells 0 n data t ∧ data.length = n ∨ tells 0x05 data.length data t ∧ data.length < n)) ∧
    (a % 4 = 0 → mappedRead s a = true → fresh → ∃ u t, exec (.readReg h a 1) s = .next t ∧ SameRegs own s u ∧ Alters [.regs, .net] s u ∧
      tells 0 1 [readView u a] t ∧ SameRegs own (readEffect a u) t ∧ Alters [.regs, .net] (readEffect a u) t) ∧
    (a % 4 ≠ 0 ∨ ws = [] ∨ 1024 < ws.length → refused (exec (.writeReg h a ws o) s) 0x05) ∧
    (a % 4 = 0 → dapOnly a = true → refused (exec (.writeReg h a [v] o) s) 0x05) ∧
    (∀ code, a % 4 = 0 → dapOnly a = false → refusalOf q a v s = some code → refused (exec (.writeReg h a [v] o) s) code) ∧
    (∀ r, a % 4 = 0 → dapOnly a = false → Accepted q a v s → hasOwnEffect a = false → blockOf a ≠ 0x60 → rowOf a = some r →
      (outOfRange a v = true → refused (exec (.writeReg h a [v] o) s) 0x45) ∧
      (outOfRange a v = false → ∃ t, exec (.writeReg h a [v] o) s = .next t ∧ tells 0 1 [] t ∧
        (∀ b < 32, bit (rd t a) b =
          if (r.maskI.testBit b || r.maskL.testBit b) && !r.maskWO.testBit b then bit v b
          else if r.maskS.testBit b && atOnce s a then bit v b
          else if r.maskC.testBit b then bit (rd s a) b && !bit v b else bit (rd s a) b) ∧
        SameRegs (a :: own) s t ∧ Alters [.regs, .net, .ans, .shadowS, .shadowF] s t)) ∧
    (memReqOk s a n = false → refused (exec (.readMem h a n) s) 0x05) ∧
    (memReqOk s a n = true → ¬fresh → refused (exec (.readMem h a n) s) 0x09) ∧
    (memReqOk s a n = true → fresh → s.hbm.inject = none → rangePoisoned s a n = true → refused (exec (.readMem h a n) s) 0x50) ∧
    (memReqOk s a n = true → fresh → s.hbm.inject = none → rangePoisoned s a n = false → ∃ t, exec (.readMem h a n) s = .next t ∧
      tells 0 0 (bytesToWords (readBytes s a n)) t ∧ SameRegs own s t ∧ Alters [.regs, .net] s t) ∧
    (let reached := memReqOk s a bs.length = true
     let owner := s.net.owner = some k
     let playing := touchesPlay s a bs.length = true
     let kept := s.pwr.recovery = false ∧ (inProtected s a bs.length = true ∨ inItcm a = true ∨ inTaskWindow a = true)
     (¬reached → refused (exec (.writeMem h a bs) s) 0x05) ∧
     (reached → ¬owner → refused (exec (.writeMem h a bs) s) 0x02) ∧
     (reached → owner → ¬fresh → refused (exec (.writeMem h a bs) s) 0x09) ∧
     (reached → owner → fresh → playing → ∃ t, exec (.writeMem h a bs) s = .next t ∧ tells 0x4E 0 [] t ∧ rdBit t Reg.SRC_EVENTS 3 = true ∧
       SameRegs (Reg.SRC_EVENTS :: own) s t ∧ Alters [.regs, .net] s t) ∧
     (reached → owner → fresh → ¬playing → kept → refused (exec (.writeMem h a bs) s) 0x4F) ∧
     (reached → owner → fresh → ¬playing → ¬kept → s.flt.grave = true → refused (exec (.writeMem h a bs) s) 0x61) ∧
     (reached → owner → fresh → ¬playing → ¬kept → s.flt.grave = false → ∃ t, exec (.writeMem h a bs) s = .next t ∧ tells 0 0 [] t ∧
       memBytes t a bs.length = bs ∧ (∀ b, (b < a ∨ a + bs.length ≤ b) → memByte t b = memByte s b) ∧
       SameRegs (Reg.MEM_STATUS :: own) s t ∧ Alters [.regs, .net, .mem, .hbm] s t))

/-- R572 to R574, R580 and R585: a vacant ownership is taken at once, a held one leaves a standing claim, and during an election a CLAIM waits for
its end; a HEARTBEAT renews the lease; a HANDOVER is offered to an open session, whose ACCEPT takes ownership; RELEASE and the end of the lease
leave it vacant, open an election and clear SYS_EXPERT_EN; the election's winner is the candidate of highest priority, then lowest identity, then
lowest slot; an offer lapses with HANDOVER_FAILED. What the spec leaves open follows assumptions 10 and 11. -/
def Obligations.OwnershipMoves : Prop :=
  ∀ (h : Hdr) (w : Word) (s : State),
    let k := slotOfId h.session
    let x := sessOf s k
    let j := slotOfId w
    let ready := portListens s h.port.val = true ∧ x.phase = .opened ∧ x.id = h.session ∧ h.authOk = true ∧ h.seq = x.rx + 1 ∧
      x.held = [] ∧ x.waiting = [] ∧ (∀ m ∈ x.unacked, dataStream m.body = none) ∧ commitOpen s k = false
    let fresh := h.epoch = 0 ∨ h.epoch = epochNow s
    let lease := rdN s Reg.NET_LEASE_MS
    let left := leaseLeft s
    let waits (i code done req : Nat) (t : State) : Prop := ∃ m ∈ (sessOf t i).unacked ++ (sessOf t i).waiting,
      m.body = .response { reqSeq := req, status := code, done := done, data := [] }
    let tells (r : Host.Outcome State Fault Refusal) (code done : Nat) (p : State → Prop) : Prop :=
      ∃ t, r = .next t ∧ waits k code done h.seq t ∧ p t
    let same (t : State) : Prop := t.net.owner = s.net.owner ∧ t.net.offer = s.net.offer ∧ t.net.cands = s.net.cands ∧
      t.net.electing = s.net.electing ∧ t.net.leaseEnd = s.net.leaseEnd ∧ t.net.streams = s.net.streams ∧ Alters [.regs, .net] s t
    let vacant (t : State) : Prop := t.net.owner = none ∧ t.net.electing = true ∧ t.net.offer = none ∧ rd t Reg.SYS_EXPERT_EN = 0 ∧
      (∀ e ∈ t.net.streams, e.ofOwner = true → e.holder = none) ∧ Alters [.regs, .net] s t
    let owns (i how : Nat) (t : State) : Prop := t.net.owner = some i ∧ t.net.how = how ∧ t.net.electing = false ∧ t.net.offer = none ∧
      t.net.leaseEnd = s.time + lease * 100000 ∧ (∀ e ∈ t.net.streams, e.ofOwner = true → e.holder = some i) ∧ Alters [.regs, .net] s t
    let owner := s.net.owner = some k
    let retired := s.sec.state = .retired
    (ready →
      (retired → tells (exec (.claim h) s) 0x02 left same) ∧
      (¬retired → ¬fresh → tells (exec (.claim h) s) 0x09 left same) ∧
      (¬retired → fresh → s.pwr.state = .detached → tells (exec (.claim h) s) 0x62 left same) ∧
      (¬retired → fresh → s.pwr.state ≠ .detached →
        (s.net.electing = true → isCand s k = true → tells (exec (.claim h) s) 0x5A left same) ∧
        (s.net.electing = true → isCand s k = false → ∃ t, exec (.claim h) s = .next t ∧ t.net.cands = s.net.cands ++ [(k, h.seq)] ∧
          t.net.owner = s.net.owner ∧ t.net.electing = true ∧ Alters [.regs, .net] s t) ∧
        (s.net.electing = false → s.net.owner = none → tells (exec (.claim h) s) 0 lease (owns k 0)) ∧
        (s.net.electing = false → owner → tells (exec (.claim h) s) 0 left same) ∧
        (∀ i, s.net.electing = false → s.net.owner = some i → i ≠ k → tells (exec (.claim h) s) 0x5A left (fun t => same t ∧
          (sessOf t k).standing = true))) ∧
      (¬owner → tells (exec (.heartbeat h) s) 0x02 left same) ∧
      (owner → ¬fresh → tells (exec (.heartbeat h) s) 0x09 left same) ∧
      (owner → fresh → tells (exec (.heartbeat h) s) 0 lease (fun t => t.net.owner = s.net.owner ∧ t.net.leaseEnd = s.time + lease * 100000 ∧
        t.net.offer = s.net.offer ∧ Alters [.regs, .net] s t)) ∧
      (let able := (sessOf s j).phase = .opened ∧ (sessOf s j).id = w ∧ j ≠ k
       (¬owner → tells (exec (.handover h w) s) 0x02 0 same) ∧
       (owner → ¬fresh → tells (exec (.handover h w) s) 0x09 0 same) ∧
       (owner → fresh → ¬able → tells (exec (.handover h w) s) 0x5B 0 same) ∧
       (owner → fresh → able → tells (exec (.handover h w) s) 0 0 (fun t => t.net.offer = some { slot := j, reqSeq := h.seq } ∧
         t.net.owner = s.net.owner ∧ (∃ m ∈ (sessOf t j).unacked ++ (sessOf t j).waiting, m.body = .offer h.session) ∧
         Alters [.regs, .net] s t))) ∧
      (¬fresh → tells (exec (.accept h) s) 0x09 0 same) ∧
      (fresh → (∀ o, s.net.offer = some o → o.slot ≠ k) → tells (exec (.accept h) s) 0x5C 0 same) ∧
      (∀ o, fresh → s.net.offer = some o → o.slot = k → tells (exec (.accept h) s) 0 0 (owns k 1)) ∧
      (let claims := x.standing = true ∨ isCand s k = true
       (¬owner → ¬claims → tells (exec (.release h) s) 0x02 0 same) ∧
       (owner ∨ claims → ¬fresh → tells (exec (.release h) s) 0x09 0 same) ∧
       (owner → fresh → tells (exec (.release h) s) 0 0 vacant) ∧
       (¬owner → claims → fresh → tells (exec (.release h) s) 0 0 (fun t => (sessOf t k).standing = false ∧ (∀ c ∈ t.net.cands, c.1 ≠ k) ∧
         t.net.owner = s.net.owner ∧ t.net.electing = s.net.electing ∧ Alters [.regs, .net] s t)))) ∧
    (s.net.owner = none → exec .leaseExpiry s = .next s) ∧
    (∀ i, s.net.owner = some i → ∃ t, exec .leaseExpiry s = .next t ∧ vacant t) ∧
    (s.net.electing = false → exec .electionClose s = .next s) ∧
    (s.net.electing = true → (retired ∨ candidates s = []) → ∃ t, exec .electionClose s = .next t ∧ t.net.owner = s.net.owner ∧
      t.net.electing = false ∧ t.net.cands = [] ∧ t.net.sess = s.net.sess ∧ Alters [.regs, .net] s t) ∧
    (s.net.electing = true → ¬retired → candidates s ≠ [] → ∃ t i, exec .electionClose s = .next t ∧ i ∈ candidates s ∧
      (∀ c ∈ candidates s, c ≠ i → winsOver s i c = true) ∧ owns i 2 t ∧ t.net.cands = [] ∧
      (∀ c ∈ s.net.cands, (sessOf s c.1).phase = .opened → waits c.1 (if c.1 = i then 0 else 0x5A) lease c.2 t)) ∧
    (s.net.offer = none → exec .handoverLapse s = .next s) ∧
    (∀ o, s.net.offer = some o → ∃ t, exec .handoverLapse s = .next t ∧ t.net.offer = none ∧ t.net.owner = s.net.owner ∧ t.net.cands = s.net.cands ∧
      (∀ i, s.net.owner = some i → (sessOf s i).phase = .opened → waits i 0x5B 0 o.reqSeq t) ∧ Alters [.regs, .net] s t)

/-- R95, R577 to R580: a STREAM_OPEN is refused by the first limit it breaks, or opens the lowest free stream number with its credit; credit is
granted and withdrawn in the ledger; a stream with records, credit and an open session sends one message, and otherwise none; the first
telemetry record after a discard is marked. What the spec leaves
open follows assumption 12. -/
def Obligations.StreamsMoveCreditAndRecords : Prop :=
  ∀ (h : Hdr) (p : StreamReq) (n c : Nat) (s : State),
    let k := slotOfId h.session
    let x := sessOf s k
    let ready := portListens s h.port.val = true ∧ x.phase = .opened ∧ x.id = h.session ∧ h.authOk = true ∧ h.seq = x.rx + 1 ∧
      x.held = [] ∧ x.waiting = [] ∧ (∀ m ∈ x.unacked, dataStream m.body = none) ∧ commitOpen s k = false
    let fresh := h.epoch = 0 ∨ h.epoch = epochNow s
    let own := [Reg.NET_SESS_ID k, Reg.NET_SESS_STATE k, Reg.NET_SESS_RX k, Reg.NET_SESS_TX k]
    let owner := s.net.owner = some k
    let ring := p.kind = 3
    let tells (code done : Nat) (t : State) : Prop := ∃ m ∈ (sessOf t k).unacked ++ (sessOf t k).waiting,
      m.body = .response { reqSeq := h.seq, status := code, done := done, data := [] }
    let refused (r : Host.Outcome State Fault Refusal) (code : Nat) : Prop :=
      ∃ t, r = .next t ∧ tells code 0 t ∧ t.net.streams = s.net.streams ∧ SameRegs own s t ∧ Alters [.regs, .net] s t
    let total (t : State) : Word := wd (sumN (t.net.streams.map (·.credit)))
    let named := ringReadOf p.wrReg = some p.rdReg ∧ (rowOf p.wrReg).isSome = true ∧ (rowOf p.rdReg).isSome = true
    let inRange := 1 ≤ p.kind ∧ p.kind ≤ 3 ∧ (ring → 4 ≤ p.recSize ∧ p.recSize ≤ 4096 ∧ p.recSize % 4 = 0 ∧ 0 < p.size)
    let room := s.net.streams.length < 64 ∧
      (s.net.streams.filter (fun e => e.holder == some k && e.kind == p.kind)).length < (if ring then 14 else 1)
    let rate := p.rate + sumN (s.net.streams.map (·.rate)) ≤ ethReserved s
    let normal := s.pwr.recovery = false
    let loaded := rdFld s Reg.IMG_STATUS 1 0 ≠ 1
    let mine (e : Stream) : Prop := streamOf s n = some e ∧ e.holder = some k
    (ready →
      (ring → normal → ringReadOf p.wrReg ≠ some p.rdReg → refused (exec (.streamOpen h p) s) 0x05) ∧
      (¬ring → ¬fresh → refused (exec (.streamOpen h p) s) 0x09) ∧
      (ring → named → owner → ¬fresh → refused (exec (.streamOpen h p) s) 0x09) ∧
      (¬ring → fresh → ¬normal → refused (exec (.streamOpen h p) s) 0x5D) ∧
      (ring → named → normal → ¬owner → refused (exec (.streamOpen h p) s) 0x02) ∧
      ((ring → named ∧ owner) → fresh → normal →
        (¬loaded → refused (exec (.streamOpen h p) s) 0x43) ∧
        (loaded → ¬inRange → refused (exec (.streamOpen h p) s) 0x45) ∧
        (loaded → inRange → ¬room → refused (exec (.streamOpen h p) s) 0x04) ∧
        (loaded → inRange → room → ¬rate → refused (exec (.streamOpen h p) s) 0x08) ∧
        (loaded → inRange → room → rate → ∃ t e, exec (.streamOpen h p) s = .next t ∧ tells 0 e.num t ∧ t.net.streams = s.net.streams ++ [e] ∧
          e.num = freeStream s ∧ e.holder = some k ∧ (e.ofOwner = true ↔ owner) ∧ e.kind = p.kind ∧ e.credit = p.credit % 65536 ∧
          e.rate = p.rate ∧ e.recs = [] ∧ (ring → e.ringBase = p.base ∧ e.ringRec = p.recSize ∧ e.ringSize = p.size ∧
            e.wrReg = p.wrReg ∧ e.rdReg = p.rdReg) ∧
          rd t Reg.NET_CRED_GRANTED = rd s Reg.NET_CRED_GRANTED + wd (p.credit % 65536) ∧ rd t Reg.NET_CRED_OUTSTANDING = total t ∧
          SameRegs (Reg.NET_CRED_GRANTED :: Reg.NET_CRED_OUTSTANDING :: own) s t ∧ Alters [.regs, .net] s t)) ∧
      (¬fresh → refused (exec (.streamCredit h n c) s) 0x09 ∧ refused (exec (.streamClose h n) s) 0x09) ∧
      (fresh → (¬∃ e, mine e) → refused (exec (.streamCredit h n c) s) 0x05 ∧ refused (exec (.streamClose h n) s) 0x05) ∧
      (∀ e, fresh → mine e → ∃ t, exec (.streamCredit h n c) s = .next t ∧ tells 0 0 t ∧
        t.net.streams = s.net.streams.map (fun e => if e.num = n then { e with credit := e.credit + c } else e) ∧
        rd t Reg.NET_CRED_GRANTED = rd s Reg.NET_CRED_GRANTED + wd c ∧ rd t Reg.NET_CRED_OUTSTANDING = total t ∧
        SameRegs (Reg.NET_CRED_GRANTED :: Reg.NET_CRED_OUTSTANDING :: own) s t ∧ Alters [.regs, .net] s t) ∧
      (∀ e, fresh → mine e → ∃ t, exec (.streamClose h n) s = .next t ∧ tells 0 0 t ∧
        t.net.streams = s.net.streams.filter (fun e => e.num != n) ∧
        rd t Reg.NET_CRED_WITHDRAWN =
          rd s Reg.NET_CRED_WITHDRAWN + wd (sumN ((s.net.streams.filter (fun e => e.num == n)).map (·.credit))) ∧
        rd t Reg.NET_CRED_OUTSTANDING = total t ∧ SameRegs (Reg.NET_CRED_WITHDRAWN :: Reg.NET_CRED_OUTSTANDING :: own) s t ∧
        Alters [.regs, .net] s t)) ∧
    ((∀ e i, streamOf s n = some e → e.holder = some i → (waitingRecs s e).2 = [] ∨ e.credit = 0 ∨ (sessOf s i).phase ≠ .opened) →
      exec (.streamDataSend n) s = .next s) ∧
    (∀ e i r rs, streamOf s n = some e → e.holder = some i → (waitingRecs s e).2 = r :: rs → 0 < e.credit → (sessOf s i).phase = .opened →
      let out := oneMessage r.epoch 2224 (r :: rs)
      let words := out.map (·.words)
      let marks := e.kind == 1 && e.telDropped
      ∃ t, exec (.streamDataSend n) s = .next t ∧
        (∃ m ∈ (sessOf t i).unacked ++ (sessOf t i).waiting, m.epoch = r.epoch ∧ ∃ data, data.length = out.length ∧
          (∀ m < out.length, nth [] data m =
            (let r := nth [] words m
             if marks && isTelRecord r && !(words.take m).any isTelRecord then r.set 3 (nth 0 r 3 ||| 8) else r)) ∧
          m.body = .streamData n e.kind e.dropped (waitingRecs s e).1 data) ∧
        t.net.streams = s.net.streams.map (fun e => if e.num = n then
          { e with credit := e.credit - 1, recs := if e.kind = 3 then [] else e.recs.drop out.length, dropped := false,
                   telDropped := e.telDropped && !(marks && words.any isTelRecord),
                   nextIdx := add32 (waitingRecs s e).1 out.length } else e) ∧
        rd t Reg.NET_CRED_USED = rd s Reg.NET_CRED_USED + 1 ∧ rd t Reg.NET_CRED_OUTSTANDING = total t ∧
        SameRegs [Reg.NET_CRED_USED, Reg.NET_CRED_OUTSTANDING, Reg.NET_SESS_TX i] s t ∧ Alters [.regs, .net] s t)

/-- R554 to R556, R566 and R587: a port that does not link tries the next lower rate; one that links stays there until the link is lost, which is
counted, and none links without a reference; a frame that is no KCT message is answered or dropped and counted; a changed configuration restarts the link; the host table is written,
cleared and read entry by entry. What the spec leaves open follows assumption 9. -/
def Obligations.PortsAndHostTableAct : Prop :=
  ∀ (q : Req) (port : Fin 2) (f : EthFrame) (a : Nat) (v : Word) (s : State),
    let p := port.val
    let x := portOf s p
    let other (t : State) : Prop := portOf t (1 - p) = portOf s (1 - p)
    let status := portStatusReg p
    let awake := s.pwr.mgmt = true ∧ s.pwr.inReset = false
    let up := x.linked ≠ 0
    let listens := portListens s p = true
    let bare := s.tb.xoFailed = true ∧ rdBit s Reg.TBF_STATUS 0 = true
    (¬awake ∨ up → exec (.portRateTimeout port) s = .next s) ∧
    (awake → ¬up → ∃ t, exec (.portRateTimeout port) s = .next t ∧
      portOf t p = { x with trying := if x.trying ≤ 1 then maxRate s p else x.trying - 1 } ∧ other t ∧ rdBit t status 31 = false ∧
      SameRegs [status] s t ∧ Alters [.regs, .net] s t) ∧
    (¬awake ∨ up ∨ isFenced 0x11 p s = true ∨ bare → exec (.portLinkUp port) s = .next s) ∧
    (awake → ¬up → isFenced 0x11 p s = false → ¬bare → ∃ t, exec (.portLinkUp port) s = .next t ∧ portOf t p = { x with linked := x.trying } ∧
      other t ∧ rdBit t status 31 = decide (x.trying ≠ 0) ∧ (x.trying ≤ 3 → rdFld t status 25 24 = x.trying) ∧ SameRegs [status] s t ∧
      Alters [.regs, .net] s t) ∧
    (¬up → exec (.portLinkLoss port) s = .next s) ∧
    (up → ∃ t, exec (.portLinkLoss port) s = .next t ∧ portOf t p = { x with linked := 0, trying := maxRate s p } ∧ other t ∧
      rdBit t status 31 = false ∧ rdFld t status 7 0 = min 255 (rdFld s status 7 0 + 1) ∧ SameRegs [status] s t ∧ Alters [.regs, .net] s t) ∧
    (¬listens ∨ f = .neighbourDiscovery ∨ f = .arp → exec (.ethFrameRx port f) s = .next s) ∧
    (listens → f = .echo →
      let sec := s.time / 100000000
      ∃ t, exec (.ethFrameRx port f) s = .next t ∧ other t ∧ SameRegs [status] s t ∧ Alters [.regs, .net] s t ∧
        portOf t p = { x with second := sec, answered := min 100 ((if x.second = sec then x.answered else 0) + 1) }) ∧
    (listens → f ∉ [.neighbourDiscovery, .arp, .echo] → ∃ t, exec (.ethFrameRx port f) s = .next t ∧
      rdN t Reg.NET_DROPPED = min (rdN s Reg.NET_DROPPED + 1) 0xFFFFFFFF ∧ SameRegs [Reg.NET_DROPPED] s t ∧ Alters [.regs] s t) ∧
    (Accepted q a v s →
      let bad := a = portCfgReg p ∧ (fld v 25 24 = 0 ∨ bit v 16 = true ∧ (fld v 11 0 = 0 ∨ 4094 < fld v 11 0))
      (portOfCfg a = none → exec (.portCfgWrite q a v) s = .next { s with ans := { status := 0x05 } }) ∧
      (portOfCfg a = some p → bad → exec (.portCfgWrite q a v) s = .next { s with ans := { status := 0x45 } }) ∧
      (∀ r, portOfCfg a = some p → ¬bad → rowOf a = some r → ∃ t, exec (.portCfgWrite q a v) s = .next t ∧ t.ans = { status := 0 } ∧ other t ∧
        (∀ b < 32, bit (rd t a) b = if r.maskI.testBit b then bit v b else bit (rd s a) b) ∧
        (rd t a = rd s a → t.net = s.net) ∧
        (rd t a ≠ rd s a → portOf t p = { x with linked := 0, trying := maxRate t p }) ∧
        SameRegs [a, status] s t ∧ Alters [.regs, .net, .ans] s t)) ∧
    (let n := rdFld s Reg.NET_HOST_SEL 3 0
     let hash := rdRegs s (Reg.NET_HOST_HASH 0) 8
     let others (t : State) : Prop := ∀ j, j ≠ n → hostEntry t j = hostEntry s j
     let e := hostEntry s n
     (Accepted q Reg.NET_HOST_CMD 1 s → ∃ t, exec (.hostTableWrite q) s = .next t ∧ t.ans = { status := 0 } ∧
       hostEntry t n = { valid := rdBit s Reg.NET_HOST_PRIO 31, hash := hash, prio := rdFld s Reg.NET_HOST_PRIO 7 0 } ∧ others t ∧
       t.regs = s.regs ∧ Alters [.net, .ans] s t) ∧
     (Accepted q Reg.NET_HOST_CMD 2 s → ∃ t, exec (.hostTableClear q) s = .next t ∧ t.ans = { status := 0 } ∧ hostEntry t n = {} ∧ others t ∧
       t.regs = s.regs ∧ Alters [.net, .ans] s t) ∧
     (Accepted q Reg.NET_HOST_CMD 3 s → ∃ t, exec (.hostTableRead q) s = .next t ∧ t.ans = { status := 0 } ∧ t.net = s.net ∧
       rdRegs t (Reg.NET_HOST_HASH 0) 8 = padTo 8 0 e.hash ∧ rd t Reg.NET_HOST_PRIO = wd (2 ^ 31 * b2n e.valid + e.prio) ∧
       SameRegs (Reg.NET_HOST_PRIO :: (List.range 8).map Reg.NET_HOST_HASH) s t ∧ Alters [.regs, .ans] s t))

/-! ### Chapter 17: network time -/

/-- R590 to R597 and R606: an increment is committed within its range; STEP and SET wait for the next reference period and INVALIDATE clears VALID,
unless SINGLE bars the step, which answers TIME_STEP_REFUSED with its event and notice; a change of SEL keeps TOD continuous; the end of a slew
clears SOFFSET; a change of configuration that waits takes effect where it may; a snapshot and a read of a low time register latch the rest. What
the spec leaves open follows assumption 17. -/
def Obligations.TimeOfDayIsSetAndRead : Prop :=
  ∀ (q : Req) (d : Fin 2) (which : Fin 4) (v : Word) (s : State),
    let n := rdN s (Reg.PTP_D_INC_LO d.val) + 2 ^ 32 * fld v 7 0
    let x := domainOf s d.val
    let other (t : State) : Prop := domainOf t (1 - d.val) = domainOf s (1 - d.val) ∧ t.ptp.soff = s.ptp.soff
    let single := ptpSingle s = true
    let refused (r : Host.Outcome State Fault Refusal) : Prop := ∃ t, r = .next t ∧ t.ans = { status := 0x5F } ∧ rdBit t Reg.PTP_EVENTS 0 = true ∧
      Reported 0 0x11 0 0x0F t ∧ t.ptp = s.ptp ∧ SameRegs [Reg.PTP_EVENTS, Reg.FLT_Q_OVERFLOW] s t ∧ Alters [.regs, .flt, .ans] s t
    let arg : Nat → Nat := fun k => rdN s (if k = 0 then Reg.PTP_D_ARG0 d.val else if k = 1 then Reg.PTP_D_ARG1 d.val else Reg.PTP_D_ARG2 d.val)
    let offset : Int := sext 64 (arg 0 + 2 ^ 32 * arg 1)
    let target : Nat := (arg 0 + 2 ^ 32 * fld (rd s (Reg.PTP_D_ARG1 d.val)) 15 0) * secUnits + arg 2 * 2 ^ 32
    (Accepted q (Reg.PTP_D_INC_HI d.val) v s →
      let inRange := 999000 * 2 ^ 32 ≤ 100000 * n ∧ 100000 * n ≤ 1001000 * 2 ^ 32
      (¬inRange → exec (.incCommit q d v) s = .next { s with ans := { status := 0x45 } }) ∧
      (inRange → ∃ t, exec (.incCommit q d v) s = .next t ∧ t.ans = { status := 0 } ∧ domainOf t d.val = { x with inc := n } ∧ other t ∧
        rdFld t (Reg.PTP_D_INC_HI d.val) 7 0 = fld v 7 0 ∧ SameRegs [Reg.PTP_D_INC_HI d.val] s t ∧ Alters [.regs, .ptp, .ans] s t)) ∧
    (Accepted q (Reg.PTP_D_CMD d.val) 1 s →
      let barred := single ∧ rdN s Reg.PTP_STEP_MAX < offset.natAbs
      (barred → refused (exec (.ptpStep q d) s)) ∧
      (¬barred → ∃ t, exec (.ptpStep q d) s = .next t ∧ t.ans = { status := 0 } ∧ domainOf t d.val = { x with pend := some (.step offset) } ∧
        other t ∧ t.regs = s.regs ∧ Alters [.ptp, .ans] s t)) ∧
    (Accepted q (Reg.PTP_D_CMD d.val) 2 s →
      let valid := domainValid s d.val = true
      let barred := single ∧ valid ∧ rdN s Reg.PTP_STEP_MAX * 2 ^ 32 < ((target : Int) - (x.count : Int)).natAbs
      (999999999 < arg 2 → exec (.ptpSet q d) s = .next { s with ans := { status := 0x45 } }) ∧
      (arg 2 ≤ 999999999 → barred → refused (exec (.ptpSet q d) s)) ∧
      (arg 2 ≤ 999999999 → ¬barred → ∃ t, exec (.ptpSet q d) s = .next t ∧ t.ans = { status := 0 } ∧
        domainOf t d.val = { x with pend := some (.set target) } ∧ other t ∧ t.regs = s.regs ∧ Alters [.ptp, .ans] s t)) ∧
    (Accepted q (Reg.PTP_D_CMD d.val) 3 s →
      (single → refused (exec (.ptpInvalidate q d) s)) ∧
      (¬single → ∃ t, exec (.ptpInvalidate q d) s = .next t ∧ t.ans = { status := 0 } ∧ rdBit t Reg.PTP_STATUS (4 + d.val) = false ∧
        (∀ b, b ≠ 4 + d.val → rdBit t Reg.PTP_STATUS b = rdBit s Reg.PTP_STATUS b) ∧ SameRegs [Reg.PTP_STATUS] s t ∧
        Alters [.regs, .ans] s t)) ∧
    (Accepted q Reg.PTP_CTRL v s →
      let written (t : State) : Prop := ∀ b < 32, bit (rd t Reg.PTP_CTRL) b =
        if (b < 2 ∨ 8 ≤ b ∧ b < 24) then bit v b else bit (rd s Reg.PTP_CTRL) b
      (fld v 0 0 = ptpSel s → ∃ t, exec (.ptpCtrlWrite q v) s = .next t ∧ t.ans = { status := 0 } ∧ written t ∧
        SameRegs [Reg.PTP_CTRL] s t ∧ Alters [.regs, .ans] s t) ∧
      (fld v 0 0 ≠ ptpSel s → single → refused (exec (.ptpCtrlWrite q v) s)) ∧
      (fld v 0 0 ≠ ptpSel s → ¬single → ∃ t, exec (.ptpCtrlWrite q v) s = .next t ∧ t.ans = { status := 0 } ∧ written t ∧
        ptpSel t = fld v 0 0 ∧ todFine t = todFine s ∧ t.ptp.a = s.ptp.a ∧ t.ptp.b = s.ptp.b ∧ rdBit t Reg.PTP_EVENTS 4 = true ∧
        rdBit t Reg.PTP_STATUS 8 = decide (t.ptp.soff ≠ 0) ∧
        SameRegs [Reg.PTP_CTRL, Reg.PTP_STATUS, Reg.PTP_EVENTS, Reg.PTP_SOFFSET] s t ∧ Alters [.regs, .ptp, .ans, .freeIdx] s t)) ∧
    (s.ptp.soff = 0 → exec .slewEnd s = .next s) ∧
    (s.ptp.soff ≠ 0 → ∃ t, exec .slewEnd s = .next t ∧ t.ptp = { s.ptp with soff := 0 } ∧ rdBit t Reg.PTP_STATUS 8 = false ∧
      rd t Reg.PTP_SOFFSET = 0 ∧ SameRegs [Reg.PTP_STATUS, Reg.PTP_SOFFSET] s t ∧ Alters [.regs, .ptp] s t) ∧
    (rdBit s Reg.PTP_STATUS 7 = false → exec .ptpModeChange s = .next s) ∧
    (rdBit s Reg.PTP_STATUS 7 = true → ∃ t, exec .ptpModeChange s = .next t ∧ SameRegs [Reg.PTP_STATUS, Reg.PTP_EVENTS] s t ∧
      Alters [.regs] s t ∧
      (wantSingle s = ptpSingle s → rdBit t Reg.PTP_STATUS 7 = false ∧ ptpSingle t = ptpSingle s) ∧
      (wantSingle s ≠ ptpSingle s → modeMayChange s = true →
        rdBit t Reg.PTP_STATUS 7 = false ∧ ptpSingle t = wantSingle s ∧ rdBit t Reg.PTP_EVENTS 3 = true) ∧
      (wantSingle s ≠ ptpSingle s → modeMayChange s = false → rdBit t Reg.PTP_STATUS 7 = true ∧ ptpSingle t = ptpSingle s)) ∧
    (Accepted q Reg.PTP_SNAP_CMD 1 s → ∃ t, exec (.ptpSnapCmd q) s = .next t ∧ t.ans = { status := 0 } ∧
      t.ptp = { s.ptp with snapBeat := s.beat } ∧ rd t Reg.PTP_SNAP_BEAT_LO = wd s.beat ∧ rd t Reg.PTP_SNAP_TOD_SEC = wd (secOf (tod s)) ∧
      rd t Reg.PTP_SNAP_TOD_NS = wd (nsOf (tod s)) ∧ rd t Reg.PTP_SNAP_A_NS = wd (nsOf s.ptp.a.count) ∧
      rd t Reg.PTP_SNAP_B_NS = wd (nsOf s.ptp.b.count) ∧
      SameRegs [Reg.PTP_SNAP_BEAT_LO, Reg.PTP_SNAP_TOD_SEC, Reg.PTP_SNAP_TOD_NS, Reg.PTP_SNAP_A_NS, Reg.PTP_SNAP_B_NS] s t ∧
      Alters [.regs, .ptp, .ans] s t) ∧
    (ReadAccepted q (ptpTimeAddr which.val) s → ∃ t w, exec (.ptpTimeRead q which) s = .next t ∧
      t.ans = { status := 0, done := 1, data := [w] } ∧ Alters [.regs, .ans] s t ∧
      (let latched (n sec ns hi : Nat) : Prop := w = wd (secOf n) ∧ rd t hi = wd (secOf n / 2 ^ 32) ∧ rd t ns = wd (nsOf n) ∧
         sec = ptpTimeAddr which.val ∧ SameRegs [ns, hi] s t
       (which = 0 → latched (tod s) Reg.PTP_TOD_SEC_LO Reg.PTP_TOD_NS Reg.PTP_TOD_SEC_HI) ∧
       (which = 1 → latched s.ptp.a.count (Reg.PTP_D_SEC_LO 0) (Reg.PTP_D_NS 0) (Reg.PTP_D_SEC_HI 0)) ∧
       (which = 2 → latched s.ptp.b.count (Reg.PTP_D_SEC_LO 1) (Reg.PTP_D_NS 1) (Reg.PTP_D_SEC_HI 1)) ∧
       (which = 3 → w = rd s Reg.PTP_SNAP_BEAT_LO ∧ rd t Reg.PTP_SNAP_BEAT_HI = wd (s.ptp.snapBeat / 2 ^ 32) ∧
         SameRegs [Reg.PTP_SNAP_BEAT_HI] s t)))

/-- R599 to R605: a PTP message is stamped into the receive ring's next record, dropped and counted when the ring is full, and dropped outside
RX_EN; a write of PTP_LQ_WR posts no more than a queue holds; the descriptor at the head is completed with what became of it, and only its write-
back changes. The stamps themselves are free values within their error (assumption 17). What the spec leaves open follows assumption 17. -/
def Obligations.TimedMessagesComeAndGo : Prop :=
  ∀ (q : Req) (p : Fin 2) (domain : Byte) (tagged : Bool) (frame : List Byte) (v : Word) (s : State),
    let linked := portLinked s p.val = true
    let counted (r : Nat) (t : State) : Prop := rdN t r = min (rdN s r + 1) 0xFFFFFFFF
    let taken := rdBit s Reg.PTP_CTRL 1 = true ∧ s.pwr.recovery = false
    let size := rdN s Reg.PTP_RX_SIZE
    let wr := rdN s Reg.PTP_RX_WR
    let full := size ≤ sub32 wr (rdN s Reg.PTP_RX_RD)
    let at_ := rdN s Reg.PTP_RX_BASE_LO + 2 ^ 32 * rdFld s Reg.PTP_RX_BASE_HI 15 0 + 256 * (wr % size)
    (¬linked → exec (.ptpRx p domain tagged frame) s = .next s) ∧
    (linked → ¬taken → ∃ t, exec (.ptpRx p domain tagged frame) s = .next t ∧ counted Reg.NET_DROPPED t ∧ SameRegs [Reg.NET_DROPPED] s t ∧ Alters [.regs] s t) ∧
    (linked → taken → full → ∃ t, exec (.ptpRx p domain tagged frame) s = .next t ∧ counted Reg.PTP_RX_DROPPED t ∧ rdBit t Reg.PTP_EVENTS 1 = true ∧
      SameRegs [Reg.PTP_RX_DROPPED, Reg.PTP_EVENTS] s t ∧ Alters [.regs] s t) ∧
    (linked → taken → ¬full → ∃ t, exec (.ptpRx p domain tagged frame) s = .next t ∧ rd t Reg.PTP_RX_WR = rd s Reg.PTP_RX_WR + 1 ∧
      memN t at_ 1 = 0x50 ∧ memN t (at_ + 1) 1 = p.val ∧ memN t (at_ + 2) 2 = frame.length % 65536 ∧
      memN t (at_ + 4) 4 = (epochNow s).toNat ∧ memBytes t (at_ + 48) 208 = padTo 208 0 frame ∧
      (∀ a, (a < at_ ∨ at_ + 256 ≤ a) → memByte t a = memByte s a) ∧ SameRegs [Reg.PTP_RX_WR, Reg.MEM_STATUS] s t ∧
      Alters [.regs, .mem, .hbm, .freeIdx] s t) ∧
    (Accepted q (Reg.PTP_LQ_WR p.val) v s →
      let beyond := rdN s (Reg.PTP_LQ_SIZE p.val) < sub32 v.toNat (rdN s (Reg.PTP_LQ_RD p.val))
      (beyond → exec (.ptpLqWrWrite q p v) s = .next { s with ans := { status := 0x45 } }) ∧
      (¬beyond → ∃ t, exec (.ptpLqWrWrite q p v) s = .next t ∧ t.ans = { status := 0 } ∧ rd t (Reg.PTP_LQ_WR p.val) = v ∧
        SameRegs [Reg.PTP_LQ_WR p.val] s t ∧ Alters [.regs, .ans] s t)) ∧
    (let empty := rdN s (Reg.PTP_LQ_WR p.val) = rdN s (Reg.PTP_LQ_RD p.val)
     let addr := rdN s (Reg.PTP_LQ_BASE_LO p.val) + 2 ^ 32 * rdFld s (Reg.PTP_LQ_BASE_HI p.val) 15 0 +
       64 * (rdN s (Reg.PTP_LQ_RD p.val) % rdN s (Reg.PTP_LQ_SIZE p.val))
     let flags := memN s (addr + 0x0A) 1
     let gone := ¬linked ∨ s.pwr.state = .detached
     let formed := lqValid s flags (memN s (addr + 8) 2) (memN s addr 8 % 2 ^ 48) = true
     let late := bitN flags 0 = true ∧ timeOfBytes (memBytes s (addr + 0x10) 12) + rdN s Reg.PTP_LATE_NS * 2 ^ 32 < tod s
     let drop := bitN flags 1 = true
     let ended (code : Nat) (sent : Bool) (p' : State → Prop) : Prop := ∃ t, exec (.launchSend p) s = .next t ∧
       memN t (addr + 0x0B) 1 = code ∧ memN t (addr + 0x0C) 4 = (epochNow s).toNat ∧
       rd t (Reg.PTP_LQ_RD p.val) = rd s (Reg.PTP_LQ_RD p.val) + 1 ∧ p' t ∧
       (∀ a, ¬(addr + 0x0B ≤ a ∧ a < addr + 0x10) → ¬(sent = true ∧ addr + 0x20 ≤ a ∧ a < addr + 0x3C) → memByte t a = memByte s a) ∧
       SameRegs [Reg.PTP_LQ_RD p.val, Reg.PTP_LQ_LATE p.val, Reg.PTP_EVENTS, Reg.MEM_STATUS] s t ∧
       Alters [.regs, .mem, .hbm, .freeIdx] s t
     let judged (t : State) : Prop := counted (Reg.PTP_LQ_LATE p.val) t ∧ rdBit t Reg.PTP_EVENTS 2 = true
     let quiet (t : State) : Prop := rd t Reg.PTP_EVENTS = rd s Reg.PTP_EVENTS ∧ rd t (Reg.PTP_LQ_LATE p.val) = rd s (Reg.PTP_LQ_LATE p.val)
     (empty → exec (.launchSend p) s = .next s) ∧
     (¬empty → gone → ended 5 false quiet) ∧
     (¬empty → ¬gone → ¬formed → ended 4 false (fun t => rdBit t Reg.PTP_EVENTS 5 = true)) ∧
     (¬empty → ¬gone → formed → late → drop → ended 3 false judged) ∧
     (¬empty → ¬gone → formed → late → ¬drop → ended 2 true judged) ∧
     (¬empty → ¬gone → formed → ¬late → ended 1 true quiet))

/-! ### Chapter 18: faults and ledgers -/

/-- R302, R349, R609 to R623, R638 and R639: a report takes its epoch and BEAT count and is handled, pre-empts, or waits; a record handled is
counted, kept and delivered, and the next is taken; C3 halts the device and C4 makes it grave. A line held invalid, an injected C2 and a failed
known-answer test fence their unit, or the copy that failed; a unit that is fenced or stands on one copy escalates. FLT_ALERT is cleared but for
GRAVE. What the spec leaves open follows assumption 27. -/
def Obligations.FaultsAreReportedAndHandled : Prop :=
  ∀ (q : Req) (cls : Fin 5) (uc unit cause : Nat) (d0 d1 : BitVec 64) (agree passed : Bool) (failing : Fin 2) (v : Word) (s : State),
    let counted (r : Nat) (t : State) : Prop := rdN t r = min (rdN s r + 1) 0xFFFFFFFF
    let c := s.flt
    let raised (r : Host.Outcome State Fault Refusal) (k u n b : Nat) : Prop :=
      ∃ t, r = .next t ∧ Reported k u n b t ∧ SameRegs [Reg.FLT_Q_OVERFLOW] s t ∧
      Alters [.regs, .flt] s t
    let copied (u : Nat) : Prop := u ∈ [0x02, 0x05, 0x06, 0x07, 0x08, 0x09, 0x0A, 0x0C, 0x0D]
    let plain (u : Nat) : Prop := ¬copied u ∧ u ∉ [0x01, 0x03, 0x04, 0x0B, 0x0E, 0x0F, 0x10, 0x11, 0x12, 0x14]
    let fences (u n b : Nat) (t : State) : Prop :=
      (isFenced u n s = true → ∃ b', Reported 3 u n b' t) ∧
      (isFenced u n s = false →
        (plain u → Reported 2 u n b t ∧ isFenced u n t = true) ∧
        (copied u → onOneCopy u n s = true → ∃ b', Reported 3 u n b' t) ∧
        (copied u → onOneCopy u n s = false → Reported 2 u n b t ∧ isFenced u n t = true ∧ onOneCopy u n t = true) ∧
        (u = 0x0B → channelOn s n = none → Reported 2 u n b t ∧ isFenced u n t = true) ∧
        (u = 0x10 → (laneOf t (n / 2) (n % 2)).squelched = true) ∧
        (u = 0x11 → n < 2 → Reported 2 u n b t ∧ isFenced u n t = true ∧ (portOf t n).linked = 0))
    let n16 := fun (x : Nat) => x % 65536
    raised (exec (.faultReport cls uc unit cause d0 d1) s) cls.val (n16 uc) (n16 unit) (n16 cause) ∧
    (c.held = [] → ∃ t, exec (.faultReport cls uc unit cause d0 d1) s = .next t ∧ ∀ r : FaultRec,
      r = { mkFaultD cls.val (n16 uc) (n16 unit) (n16 cause) d0.toNat d1.toNat with
        epoch := epochNow s, beat := s.beat,
        covered := (cls.val == 1 || cls.val == 2) && protectedClass (n16 uc) && inForce s } →
      (c.handling = none → t.flt.handling = some { r with seq := c.nextSeq } ∧ t.flt.nextSeq = add32 c.nextSeq 1) ∧
      (∀ h, c.handling = some h → h.cls < cls.val → t.flt.handling = some { r with seq := c.nextSeq, parent := h.seq } ∧
        t.flt.preempted = h :: c.preempted) ∧
      (∀ h, c.handling = some h → cls.val ≤ h.cls → c.queue.length < 64 → t.flt.handling = some h ∧
        t.flt.queue = c.queue ++ [{ r with seq := c.nextSeq, nested := true, parent := h.seq }]) ∧
      (∀ h, c.handling = some h → cls.val ≤ h.cls → 64 ≤ c.queue.length → t.flt.handling = some h ∧ counted Reg.FLT_Q_OVERFLOW t ∧
        t.flt.held = [{ r with queueWait := true, nested := true, parent := h.seq }])) ∧
    (graveLine uc = true → ∃ t, exec (.wireFault uc unit) s = .next t ∧ counted Reg.FLT_WIRE t ∧ Reported 4 uc unit 0x05 t ∧
      SameRegs [Reg.FLT_WIRE, Reg.FLT_Q_OVERFLOW] s t ∧ Alters [.regs, .flt] s t) ∧
    (graveLine uc = false → ∃ t, exec (.wireFault uc unit) s = .next t ∧ fences uc unit 0x05 t ∧
      (plain uc → counted Reg.FLT_WIRE t ∧ SameRegs [Reg.FLT_WIRE, Reg.FLT_Q_OVERFLOW] s t)) ∧
    (c.handling = none → exec .faultHandle s = .next s) ∧
    (∀ r, c.handling = some r → ∃ t, exec .faultHandle s = .next t ∧
      (4 ≤ r.cls → t.flt.grave = true ∧ (r.unitClass ≠ 0x18 → rdBit t Reg.FLT_ALERT 2 = true) ∧ (r.unitClass = 0x18 → t.pwr.core = false)) ∧
      (r.cls = 3 → t.flt.halted = true ∧ rdBit t Reg.FLT_ALERT 1 = true) ∧
      (r.cls ≤ 2 → r.takeover = false → (r.latched = false ∨ rdBit s Reg.TBF_STATUS 0 = false ∨ s.tb.xoFailed = false) →
        let ws := bytesToWords (recordBytes { r with takeoverNs := 0 } 0)
        counted (Reg.FLT_COUNT_C r.cls) t ∧ (r.covered = true → counted Reg.FLT_COVERED t) ∧
        (r.cls = 2 → r.covered = false → rdBit t Reg.FLT_ALERT 0 = true) ∧ t.flt.worst = max c.worst r.cls ∧
        t.flt.history = (ws :: c.history).take 256 ∧ rdRegs t (Reg.FLT_LAST 0) 16 = ws ∧
        (c.preempted = [] → c.queue = [] → t.flt.handling = none) ∧
        (∀ p ps, c.preempted = p :: ps → c.queue = [] → t.flt.handling = some p ∧ t.flt.preempted = ps) ∧
        (c.preempted = [] → c.queue ≠ [] → ∃ x ∈ c.queue, t.flt.handling = some x ∧ ∀ y ∈ c.queue, y.cls ≤ x.cls) ∧
        SameRegs (Reg.FLT_COUNT_C r.cls :: Reg.FLT_COVERED :: Reg.FLT_ALERT :: (List.range 16).map Reg.FLT_LAST) s t ∧
        Alters [.regs, .flt, .net] s t)) ∧
    (agree = true → passed = true → exec (.collectorSelfCheck agree passed) s = .next s) ∧
    (agree = false → raised (exec (.collectorSelfCheck agree passed) s) 4 0x1A 0 0x03) ∧
    (agree = true → passed = false → raised (exec (.collectorSelfCheck agree passed) s) 4 0x1A 0 0x0E) ∧
    (Accepted q Reg.FLT_XINJECT v s →
      let k := fld v 26 24
      let u := fld v 23 16
      let n := fld v 15 0
      let bad := 2 < k ∨ unitCount u ≤ n
      (bad → exec (.faultInject q v) s = .next { s with ans := { status := 0x45 } }) ∧
      (¬bad → ∃ t, exec (.faultInject q v) s = .next t ∧ t.ans = { status := 0 } ∧
        (k < 2 → Reported k u n 0x0F t ∧ SameRegs [Reg.FLT_Q_OVERFLOW] s t ∧ Alters [.regs, .flt, .ans] s t) ∧
        (k = 2 → fences u n 0x0F t))) ∧
    (Accepted q Reg.FLT_ALERT v s → ∃ t, exec (.alertClear q v) s = .next t ∧ t.ans = { status := 0 } ∧
      rd t Reg.FLT_ALERT = rd s Reg.FLT_ALERT &&& ~~~ (v &&& 3) ∧ SameRegs [Reg.FLT_ALERT] s t ∧ Alters [.regs, .ans] s t) ∧
    (let failed := unit + 0x100 * failing.val
     let spare := s.img.active.spares.dp ≠ 0 ∧ s.mea.spareUsed = false ∧ unit ≠ 8
     let isSpare := unit = 8 ∧ s.mea.spareUsed = false
     ((uc, unit) ∉ c.tests → ∀ f, exec (.knownAnswerTestEnd uc unit f) s = .next s) ∧
     ((uc, unit) ∈ c.tests → raised (exec (.knownAnswerTestEnd uc unit none) s) 1 uc unit 0x03 ∧
       ∃ t, exec (.knownAnswerTestEnd uc unit (some failing)) s = .next t ∧ t.flt.tests = c.tests.erase (uc, unit) ∧
         (uc ≠ 0x04 → onOneCopy uc unit s = true → Reported 3 uc unit 0x0B t) ∧
         (uc ≠ 0x04 → onOneCopy uc unit s = false → Reported 2 uc failed 0x04 t ∧ onOneCopy uc unit t = true ∧ isFenced uc failed t = true) ∧
         (uc = 0x04 → isFenced 0x04 unit t = true ∧ (unit < 9 → rdBit t Reg.MEA_EVENTS (4 + unit) = true) ∧
           (spare ∨ isSpare → Reported 2 0x04 unit 0x04 t ∧ t.mea.spareUsed = true) ∧
           (¬spare → ¬isSpare → stepRuns s = true → Reported 3 0x04 unit 0x0A t) ∧
           (¬spare → ¬isSpare → stepRuns s = false → Reported 2 0x04 unit 0x0A t ∧
             rd t Reg.MEA_ENG_CAP = wd (rdN s Reg.MEA_ENG_CAP - 800000)))))

/-- R631, R632 and R637: a ledger found out of balance, past its bound, or with a term left at its deadline is frozen as it reads, a C3 fault with
cause 0x06; a read of LGR_LEFT latches the other side and the term in transit. What the spec leaves open follows assumption 28. -/
def Obligations.LedgersFreezeAndLatch : Prop :=
  ∀ (q : Req) (n : Fin 16) (left right out term : Word) (s : State),
    let whole := frozenView s n.val = none
    let broken := n.val < 9 ∧ whole ∧ (left ≠ right ∨ ledgerBound n.val ≠ 0 ∧ ledgerBound n.val < term.toNat)
    let frozen (r : Host.Outcome State Fault Refusal) (x : LedgerView) : Prop := ∃ t, r = .next t ∧ frozenView t n.val = some x ∧
      (∀ j, j ≠ n.val → frozenView t j = frozenView s j) ∧ Reported 3 0x1B n.val 0x06 t ∧ rdBit t Reg.LGR_EVENTS 0 = true ∧
      SameRegs [Reg.LGR_EVENTS, Reg.FLT_Q_OVERFLOW] s t ∧ Alters [.regs, .lgr, .flt] s t
    let late := deadlineRuns s n.val = true ∧ whole ∧ (liveView s n.val).out ≠ 0
    (broken → frozen (exec (.ledgerImbalance n left right out term) s) { left := left.toNat, right := right.toNat, out := out.toNat }) ∧
    (¬broken → exec (.ledgerImbalance n left right out term) s = .next s) ∧
    (late → frozen (exec (.ledgerDeadline n) s) (ledgerView s n.val)) ∧
    (¬late → exec (.ledgerDeadline n) s = .next s) ∧
    (ReadAccepted q (Reg.LGR_LEFT n.val) s → ∃ t, exec (.ledgerReadLatch q n) s = .next t ∧
      t.ans = { status := 0, done := 1, data := [wd (ledgerView s n.val).left] } ∧
      rd t (Reg.LGR_RIGHT n.val) = wd (ledgerView s n.val).right ∧ rd t (Reg.LGR_OUT n.val) = wd (ledgerView s n.val).out ∧
      SameRegs [Reg.LGR_RIGHT n.val, Reg.LGR_OUT n.val] s t ∧ Alters [.regs, .ans] s t)

/-! ### Chapter 19: power, security and debug -/

/-- R432, R433, R581 to R583, R643, R644, R653, R665, R677 and R678: a reset closes every session and keeps fuses, host table and library; start-up
runs the firmware that is valid, or enters RECOVERY. VIN, current and rail faults switch rails off and are grave; STANDBY and WAKE move between HOLD
and STANDBY; INSTALL and REBOOT work in RECOVERY only; a Galop step that overruns is counted once. What the spec leaves open follows assumptions 33
and 34. -/
def Obligations.PowerStatesChange : Prop :=
  ∀ (q : Req) (straps : BitVec 8) (stable : Bool) (boot : BootObs) (target : Fin 256) (obs : CryptoObs) (s : State),
    let off := s.pwr.state = .off
    let recovering := s.pwr.recovery = true
    let started (rec : Bool) (t : State) : Prop := t.pwr.state = .hold ∧ t.pwr.inReset = false ∧ t.sec.state = s.sec.state ∧
      (pickFirmware s boot = none → t.pwr.recovery = true ∧ rd t Reg.SYS_FW_VER = 0) ∧
      (∀ k, pickFirmware s boot = some k → (ucodeObj s).written = 0 → t.pwr.recovery = rec ∧ t.pwr.fwSlot = k)
    let restarted (r : Host.Outcome State Fault Refusal) : Prop := ∃ t, r = .next t ∧ started false t ∧ t.ans = { status := 0 } ∧ t.net.sess = [] ∧
      t.net.owner = none ∧ t.net.streams = [] ∧ t.net.hosts = s.net.hosts ∧ (pickFirmware s boot = none → Fresh s t)
    let kept (t : State) : Prop := ∀ a, a ∈ [Reg.SYS_SERIAL_LO, Reg.SYS_SERIAL_HI, Reg.NET_MAC0_LO, Reg.NET_MAC1_HI, Reg.NET_IP4_0,
      Reg.NET_IP4_1, Reg.NET_IP6_0 0, Reg.QDR_STRAP] → rd t a = rd s a
    let refused (r : Host.Outcome State Fault Refusal) (code : Nat) : Prop := r = .next { s with ans := { status := code } }
    let stageFaults (r : Host.Outcome State Fault Refusal) (p : State → Prop) : Prop :=
      (off → r = .next s) ∧ (¬off → ∃ t, r = .next t ∧ Reported 4 0x18 0 0x0D t ∧ t.pwr.core = false ∧ p t)
    (off → exec .resetNLow s = .next s ∧ exec .vinUvlo s = .next s) ∧
    (¬off → ∃ t, exec .resetNLow s = .next t ∧ Fresh s t ∧ t.pwr.inReset = true ∧ t.ans = {} ∧ kept t) ∧
    (¬off → ∃ t, exec .vinUvlo s = .next t ∧ Fresh s t ∧ t.pwr.state = .off ∧ t.pwr.core = false ∧ t.pwr.mgmt = false ∧
      t.pwr.uvlo = true ∧ t.flt.grave = false ∧ kept t) ∧
    (off → exec .vinRise s = .next { s with
      pwr := { s.pwr with state := .hold, inReset := true, core := true, mgmt := true, since := s.time } }) ∧
    (¬off → exec .vinRise s = .next s) ∧
    (off ∨ s.pwr.inReset = false → exec (.resetRelease straps stable boot) s = .next s) ∧
    (¬off → s.pwr.inReset = true →
      let odd := popcount 8 straps.toNat % 2 = 1
      ∃ t, exec (.resetRelease straps stable boot) s = .next t ∧ started s.pwr.recovery t ∧
        (¬odd ∨ stable = false → Reported 2 0x14 0 0x0E t) ∧
        (pickFirmware s boot = none → rdFld t Reg.QDR_STRAP 7 0 = straps.toNat ∧ rdBit t Reg.QDR_STRAP 8 = decide (¬odd) ∧
          rdBit t Reg.QDR_STRAP 9 = !stable)) ∧
    stageFaults (exec .railOutOfRange s) (fun _ => True) ∧
    stageFaults (exec .currentLimitHeld s) (fun t => s.seq.step = none → s.net.openCmds = [] → rdBit t Reg.PWR_EVENTS 1 = true) ∧
    stageFaults (exec .vinOvervoltage s) (fun t => t.pwr.mgmt = false ∧ ∀ k < 8, (sessOf t k).phase = .free) ∧
    (Accepted q Reg.SYS_CMD 1 s → restarted (exec (.sysReset q boot) s)) ∧
    (Accepted q Reg.SYS_RCMD 2 s →
      (¬recovering → refused (exec (.reboot q boot) s) 0x5D) ∧ (recovering → restarted (exec (.reboot q boot) s))) ∧
    (Accepted q Reg.SYS_RCMD (wd (256 * target.val + 1)) s →
      (¬recovering → refused (exec (.install q target) s) 0x5D) ∧
      (recovering → 2 < target.val → refused (exec (.install q target) s) 0x45) ∧
      (recovering → target.val ≤ 2 → s.pwr.install ≠ none → refused (exec (.install q target) s) 0x04) ∧
      (recovering → target.val ≤ 2 → s.pwr.install = none → ∃ t, exec (.install q target) s = .next t ∧ t.ans = { status := 0 } ∧
        t.pwr = { s.pwr with install := some (target.val, rdN s Reg.SYS_RLEN) } ∧ rd t Reg.SYS_RRESULT = 0 ∧
        SameRegs [Reg.SYS_RRESULT] s t ∧ Alters [.regs, .pwr, .ans] s t)) ∧
    (s.pwr.install = none → exec (.installDone obs) s = .next s) ∧
    (∀ k n, s.pwr.install = some (k, n) →
      let id := if k = 2 then 0xFFFFFF20 else 0xFFFFFF10 + k
      let o : LibObj := { typ := if k = 2 then 7 else 6, length := n, written := n, state := .sealed,
                          data := tsetList memDefault [] 0 (memBytes s 0 n) }
      ∃ t, exec (.installDone obs) s = .next t ∧ t.pwr = { s.pwr with install := none } ∧ SameRegs [Reg.SYS_RRESULT] s t ∧
        Alters [.regs, .pwr, .lib] s t ∧ (∀ j, j ≠ id → objOf t j = objOf s j) ∧
        (codeOk s id o obs = true → objOf t id = some o ∧ rd t Reg.SYS_RRESULT = 0x100) ∧
        (codeOk s id o obs = false → t.lib = s.lib ∧ rd t Reg.SYS_RRESULT = 0x15E)) ∧
    (Accepted q Reg.PWR_CMD 1 s →
      let held := s.pwr.state = .hold ∧ detachPhase s = 0
      let intruded := s.sec.state = .sealed ∧ s.dbg.level = 2
      (¬held → refused (exec (.standby q) s) 0x62) ∧
      (held → intruded → refused (exec (.standby q) s) 0x64) ∧
      (held → ¬intruded → exec (.standby q) s = .next { s with ans := { status := 0 }, pwr := { s.pwr with state := .standby } })) ∧
    (Accepted q Reg.PWR_CMD 2 s → exec (.wake q) s = .next { s with
      ans := { status := 0 }, pwr := { s.pwr with state := if s.pwr.state = .standby then .hold else s.pwr.state } }) ∧
    (let overruns := s.pwr.galopStep = true ∧ s.seq.step ≠ none ∧ s.pwr.overrun = false
     (¬overruns → exec .galopOverrun s = .next s) ∧
     (overruns → ∃ t, exec .galopOverrun s = .next t ∧ rdN t Reg.PWR_OVERRUN = min (rdN s Reg.PWR_OVERRUN + 1) 0xFFFFFFFF ∧
       rdBit t Reg.PWR_EVENTS 3 = true ∧ Reported 0 0x18 0 0x0F t ∧ t.pwr = { s.pwr with overrun := true } ∧
       SameRegs [Reg.PWR_OVERRUN, Reg.PWR_EVENTS, Reg.FLT_Q_OVERFLOW] s t ∧ Alters [.regs, .flt, .pwr] s t))

/-- R254, R668 and R670 to R672: a detach request begins phase 1, once; each phase ends when its condition holds, phase 4 with the streams closed
and the lanes squelched, phase 5 in DETACHED with every session closed and the debug session ended; a phase 4 that lasts too long ends DMA runs and
a library write, with a notice; DETACH_N high starts a DETACHED unit again. The fault unit of that notice is free (assumption 34). What the spec
leaves open follows assumption 34. -/
def Obligations.DetachProceedsInPhases : Prop :=
  ∀ (q : Req) (boot : BootObs) (s : State),
    let phase := detachPhase s
    let idle := phase = 0 ∧ s.pwr.state ≠ .off ∧ s.pwr.inReset = false
    let aborted (t : State) : Prop := t.seq.step = none ∨ ∃ st, t.seq.step = some st ∧ st.aborted = true
    let asked (r : Host.Outcome State Fault Refusal) (b : State) : Prop :=
      (¬idle → r = .next b) ∧
      (idle → stageLate s = false → ∃ t, r = .next t ∧ detachPhase t = 1 ∧ rdBit t Reg.PWR_EVENTS 5 = true ∧
        SameRegs [Reg.PWR_STATUS, Reg.PWR_EVENTS] s t ∧ Alters [.regs] b t) ∧
      (idle → stageLate s = true → ∃ t, r = .next t ∧ t.ans = b.ans ∧ aborted t)
    let moves (n : Nat) (p : State → Prop) : Prop := ∃ t, exec .detachPhaseAdvance s = .next t ∧ detachPhase t = n ∧ p t
    let only (t : State) : Prop := SameRegs [Reg.PWR_STATUS] s t ∧ Alters [.regs] s t
    let waits := exec .detachPhaseAdvance s = .next s
    let alive := s.flt.grave = false
    let dry := ledgerDrained s 4 = true ∧ ledgerDrained s 5 = true ∧ ledgerDrained s 6 = true
    let gone := s.qdr.departing = 0 ∧ (aloneRole s = true ∨ busState s = 6)
    (Accepted q Reg.SYS_CMD 2 s → asked (exec (.sysDetach q) s) { s with ans := { status := 0 } }) ∧
    (Accepted q Reg.PWR_CMD 3 s → asked (exec (.pwrDetach q) s) { s with ans := { status := 0 } }) ∧
    asked (exec .detachNLow s) { s with pwr := { s.pwr with detachN := false } } ∧
    (¬alive ∨ phase = 0 ∨ 6 ≤ phase → waits) ∧
    (alive → phase = 1 → s.img.load ≠ .idle → waits) ∧
    (alive → phase = 1 → s.img.load = .idle → s.pwr.state = .standby → moves 3 only) ∧
    (alive → phase = 1 → s.img.load = .idle → s.pwr.state ≠ .standby →
      (rdBit s Reg.PWR_CTRL 2 = false → moves 2 only) ∧
      (rdBit s Reg.PWR_CTRL 2 = true → ∃ t, exec .detachPhaseAdvance s = .next t ∧ aborted t)) ∧
    (alive → phase = 2 → (stepRuns s = true → waits) ∧ (stepRuns s = false → moves 3 only)) ∧
    (alive → phase = 3 → (¬dry → waits) ∧ (dry → moves 4 only)) ∧
    (alive → phase = 4 → (∀ e ∈ s.net.streams, ∀ k, e.holder = some k → k < 8) →
      (allDrained s = false → moves 4 (fun t => t.net.streams = [])) ∧
      (allDrained s = true → moves 5 (fun t => t.net.streams = [] ∧ ∀ g < 16, ∀ l < 2, (laneOf t g l).squelched = true))) ∧
    (alive → phase = 5 → (¬gone → waits) ∧
      (gone → moves 6 (fun t => t.pwr.state = .detached ∧ t.dbg.level = 0 ∧ t.dbg.extest = false ∧ ∀ k < 8, (sessOf t k).phase = .free))) ∧
    (phase ≠ 4 → exec .detachTimeout s = .next s) ∧
    (phase = 4 → ∃ t, exec .detachTimeout s = .next t ∧ (∃ uc, Reported 0 uc 0 0x0F t) ∧
      (∀ c < 32, dmaState s c ∈ [1, 2, 3] → ∀ r, dmaRun s c = some r → ∃ r', dmaRun t c = some r' ∧ r'.ending ≠ none) ∧
      (∀ r, s.lib.run = some r → r.isRead = false → t.lib.run = none)) ∧
    (s.pwr.state ≠ .detached → exec (.detachNHighRestart boot) s = .next { s with pwr := { s.pwr with detachN := true } }) ∧
    (s.pwr.state = .detached → ∃ t, exec (.detachNHighRestart boot) s = .next t ∧ t.pwr.state = .hold ∧ t.pwr.detachN = true ∧
      t.net.sess = [] ∧ t.net.owner = none ∧ t.sec.state = s.sec.state ∧
      (pickFirmware s boot = none → t.pwr.recovery = true ∧ Fresh s t))

/-- R585, R645 to R655 and R658: a security command is refused by the first condition that bars it, or is under way with its arguments; its result
burns the fuses it names, reports FUSE_FAILED and a notice when the burn fails, or gives the attestation report. Retirement revokes every slot,
turns the library read-only and releases the owner. What the spec leaves open follows assumption 30. -/
def Obligations.SecurityCommandsBurnAndReport : Prop :=
  ∀ (q : Req) (obs : SecObs) (s : State),
    let st := s.sec.state
    let slot := keySlot s (rdFld s Reg.SEC_ARG 1 0)
    let permitted : Nat → Prop := fun cmd => match cmd with
      | 1 => st = .blank
      | 2 => st = .open_ ∧ hostTableUsed s = true
      | 3 => st = .open_ ∨ st = .sealed
      | 4 => st = .open_ ∧ slot.enrolled = false ∧ slot.revoked = false
      | 5 => st = .open_ ∨ st = .sealed
      | 6 => st ≠ .retired
      | _ => st ≠ .blank
    let powered : Nat → Prop := fun cmd => detachPhase s = 0 ∧
      (s.pwr.state = .hold ∨ cmd = 7 ∧ (s.pwr.state = .run ∨ s.pwr.state = .standby))
    let confirmed : Nat → Prop := fun cmd => cmd ∈ [1, 2, 3, 5] → rd s Reg.SEC_CONFIRM = rd s Reg.SYS_SERIAL_LO
    let inRange : Nat → Prop := fun cmd => cmd = 6 → svnTooHigh s = false
    let asked (cmd : Nat) (r : Host.Outcome State Fault Refusal) : Prop := Accepted q Reg.SEC_CMD (wd cmd) s →
      let refused (code : Nat) : Prop := r = .next { s with ans := { status := code } }
      (¬powered cmd → refused 0x62) ∧
      (powered cmd → ¬permitted cmd → refused 0x63) ∧
      (powered cmd → permitted cmd → ¬confirmed cmd → refused 0x67) ∧
      (powered cmd → permitted cmd → confirmed cmd → ¬inRange cmd → refused 0x45) ∧
      (powered cmd → permitted cmd → confirmed cmd → inRange cmd → s.sec.cmd ≠ none → refused 0x04) ∧
      (powered cmd → permitted cmd → confirmed cmd → inRange cmd → s.sec.cmd = none → ∃ t, r = .next t ∧ t.ans = { status := 0 } ∧
        t.sec = { s.sec with cmd := some { cmd := cmd, arg := rd s Reg.SEC_ARG, hash := rdRegs s (Reg.SEC_ARG_HASH 0) 8 } } ∧
        rd t Reg.SEC_RESULT = 0 ∧ rdBit t Reg.SEC_STATUS 24 = decide (cmd = 7) ∧ Alters [.regs, .sec, .ans] s t)
    asked 1 (exec (.provision q) s) ∧ asked 2 (exec (.sealDevice q) s) ∧ asked 3 (exec (.retire q) s) ∧ asked 4 (exec (.enroll q) s) ∧
    asked 5 (exec (.revoke q) s) ∧ asked 6 (exec (.raiseSvn q) s) ∧ asked 7 (exec (.attest q) s) ∧
    (s.sec.cmd = none → exec (.secCmdResult obs) s = .next s) ∧
    (∀ p, s.sec.cmd = some p → ∃ t, exec (.secCmdResult obs) s = .next t ∧ t.sec.cmd = none ∧
      (let n := fld p.arg 1 0
       let kind := fld p.arg 17 16
       let v := fld p.arg 29 24
       let idle := p.cmd = 6 ∧ v ≤ floorOf s kind
       let failed := p.cmd ≠ 7 ∧ ¬idle ∧ obs.burnOk = false
       let burnt := p.cmd ≠ 7 ∧ ¬idle ∧ obs.burnOk = true
       let others (t : State) : Prop := ∀ j, j ≠ n → keySlot t j = keySlot s j
       (p.cmd = 7 → t.sec = { s.sec with cmd := none } ∧ rd t Reg.SEC_RESULT = 0x100) ∧
       (p.cmd ≠ 7 → idle → t.sec = { s.sec with cmd := none } ∧ rd t Reg.SEC_RESULT = 0x100) ∧
       (failed → t.sec = { s.sec with cmd := none } ∧ rd t Reg.SEC_RESULT = 0x166 ∧ ∃ uc, Reported 0 uc 0 0x0F t) ∧
       (burnt → rd t Reg.SEC_RESULT = 0x100) ∧
       (burnt → p.cmd = 1 → t.sec.state = .open_ ∧ t.sec.idKey = padTo 648 0 obs.key ∧ t.sec.idHash = sha3_256 (wordsToBytes (padTo 648 0 obs.key))) ∧
       (burnt → p.cmd = 2 → t.sec = { s.sec with cmd := none, state := .sealed } ∧ (s.dbg.token = false → t.dbg.level = 0)) ∧
       (burnt → p.cmd = 3 → t.sec.state = .retired ∧ (∀ k < 4, (keySlot t k).revoked = true) ∧ t.dbg.level = 0 ∧ t.net.owner = none ∧
         libRetired t = true) ∧
       (burnt → p.cmd = 4 → t.sec.state = s.sec.state ∧ others t ∧ keySlot t n = { keySlot s n with
         enrolled := true, image := bit p.arg 8, debug := bit p.arg 9, hash := p.hash }) ∧
       (burnt → p.cmd = 5 → t.sec.state = s.sec.state ∧ others t ∧ keySlot t n = { keySlot s n with revoked := true }) ∧
       (burnt → p.cmd = 6 → t.sec = { s.sec with
         cmd := none,
         imageFloor := if kind = 0 then max s.sec.imageFloor v else s.sec.imageFloor,
         fwFloor := if kind = 1 then max s.sec.fwFloor v else s.sec.fwFloor,
         ucodeFloor := if 2 ≤ kind then max s.sec.ucodeFloor v else s.sec.ucodeFloor })))

/-- R657 to R664, R667 and R668: a debug level is granted or refused by the security state, with a token in SEALED; a session ends by DBG_CTRL, at
its lifetime and by request, and its halts with it. INTRUSIVE halts cores and contexts. A TAP instruction that is not permitted is BYPASS; EXTEST
departs the bus; a DAP access acts at its level. What the spec leaves open follows assumptions 31 and 32. -/
def Obligations.DebugSessionsAndTapAct : Prop :=
  ∀ (q : Req) (level : Fin 4) (useToken deny : Bool) (tok : TokenObs) (k c : Fin 64) (act : HaltAct) (a : Nat) (n : Nat) (v : Word)
      (bytes : List Byte) (x : DapAccess) (s : State),
    let st := s.sec.state
    let off := s.pwr.state = .off
    let refused (r : Host.Outcome State Fault Refusal) (code : Nat) : Prop := r = .next { s with ans := { status := code } }
    let ended (t : State) : Prop := t.dbg.level = 0 ∧ (0 < s.dbg.level → t.dbg.token = false ∧ t.dbg.perms = 0 ∧ t.dbg.ends = none) ∧
      t.sec = s.sec
    let granted (token : Bool) (t : State) : Prop := t.ans = { status := 0 } ∧ t.dbg.level = level.val ∧ t.dbg.token = token ∧
      t.sec = s.sec ∧ (token = false → t.dbg.perms = 0 ∧ t.dbg.ends = none)
    let powered := ¬off ∧ s.pwr.state ≠ .detached
    let free := rdBit s Reg.DBG_CTRL 0 = false
    let rises := level.val = 1 ∨ level.val = 2
    let tap (r : Host.Outcome State Fault Refusal) (ir : TapInstr) (p : State → Prop) : Prop :=
      (off → r = .next s) ∧ (¬off → ∃ t, r = .next t ∧ t.dbg.ir = ir ∧ t.dbg.level = s.dbg.level ∧ t.sec = s.sec ∧ p t)
    let tooDeep := level.val = 2 ∧ st = .retired
    (tooDeep → refused (exec (.dbgReq level useToken tok) s) 0x63) ∧
    (¬tooDeep → ¬powered → refused (exec (.dbgReq level useToken tok) s) 0x62) ∧
    (¬tooDeep → powered → ¬free → refused (exec (.dbgReq level useToken tok) s) 0x64) ∧
    (powered → free → level.val = 0 → ∃ t, exec (.dbgReq level useToken tok) s = .next t ∧ t.ans = { status := 0 } ∧ ended t) ∧
    (powered → free → level.val = 3 → refused (exec (.dbgReq level useToken tok) s) 0x45) ∧
    (powered → free → rises → (st = .blank ∨ st = .open_ ∨ st = .retired ∧ level.val = 1) → ∃ t, exec (.dbgReq level useToken tok) s = .next t ∧ granted false t) ∧
    (powered → free → level.val = 2 → st = .sealed → s.pwr.state = .standby → refused (exec (.dbgReq level useToken tok) s) 0x62) ∧
    (powered → free → rises → st = .sealed → ¬(level.val = 2 ∧ s.pwr.state = .standby) →
      (useToken = false → refused (exec (.dbgReq level useToken tok) s) 0x65) ∧
      (useToken = true → tokenReason s level.val tok = 0 → ∃ t, exec (.dbgReq level useToken tok) s = .next t ∧ granted true t) ∧
      (useToken = true → tokenReason s level.val tok ≠ 0 → ∃ t, exec (.dbgReq level useToken tok) s = .next t ∧ t.ans = { status := 0x65 } ∧
        rdFld t Reg.DBG_STATUS 31 24 = tokenReason s level.val tok % 256 ∧ t.dbg = { s.dbg with nonceIdx := s.freeIdx } ∧ t.sec = s.sec)) ∧
    (Accepted q Reg.DBG_CTRL (wd (2 + b2n deny)) s → ∃ t, exec (.dbgEnd q deny) s = .next t ∧ t.ans = { status := 0 } ∧ ended t ∧
      rd t Reg.DBG_CTRL = wd (b2n deny) ∧ rdBit t Reg.DBG_STATUS 16 = deny) ∧
    (s.dbg.ends = none → exec .debugLifetimeExpiry s = .next s) ∧
    (s.dbg.ends ≠ none → ∃ t, exec .debugLifetimeExpiry s = .next t ∧ ended t ∧ rdBit t Reg.DBG_EVENTS 3 = true) ∧
    (intrusive s 1 = false → refused (exec (.coreHalt k act) s) 0x64) ∧
    (intrusive s 1 = true → ∃ t, exec (.coreHalt k act) s = .next t ∧ t.ans = { status := 0 } ∧ Alters [.sch, .ans] s t ∧
      (∀ j, j ≠ k.val → coreOf t j = coreOf s j) ∧
      coreOf t k.val = (match act with
        | .halt => { coreOf s k.val with halted := true, stepping := false }
        | .step => { coreOf s k.val with stepping := (coreOf s k.val).halted }
        | .resume => { coreOf s k.val with halted := false, stepping := false })) ∧
    (intrusive s 2 = false → refused (exec (.contextDebugHalt c) s) 0x64) ∧
    (intrusive s 2 = true → ∃ t, exec (.contextDebugHalt c) s = .next t ∧ t.ans = { status := 0 } ∧
      (s.seq.step = none → (ctxOf t c.val).halted = true) ∧
      (∀ r, s.seq.step = some r → r.aborted = true → r.ctxs.contains c.val = true → (ctxOf s c.val).halted = false →
        (ctxOf t c.val).halting = true ∧ 5 ∈ (ctxOf t c.val).microTraps)) ∧
    tap (exec .jtagBypass s) .bypass (fun _ => True) ∧
    tap (exec .jtagIdcode s) .idcode (fun t => t.ans = { status := 0, done := 1, data := [rd s Reg.DBG_IDCODE] }) ∧
    tap (exec .tapReset s) .idcode (fun t => t.dbg.extest = false) ∧
    tap (exec .samplePreload s) (if samplePermitted s = true then .sample else .bypass)
      (fun t => samplePermitted s = false → rdBit t Reg.DBG_EVENTS 2 = true) ∧
    (extestPermitted s = false → tap (exec .extest s) .bypass (fun t => t.dbg.extest = false ∧ rdBit t Reg.DBG_EVENTS 2 = true)) ∧
    (extestPermitted s = true → s.dbg.extest = true → exec .extest s = .next s) ∧
    (extestPermitted s = true → s.dbg.extest = false → ∃ t, exec .extest s = .next t ∧ t.dbg = { s.dbg with ir := .extest, extest := true } ∧
      rdBit t Reg.DBG_EVENTS 4 = true ∧
      (aloneRole s = false → busState t = 6 ∨ t.qdr.departing = 2)) ∧
    (let open_ := st ≠ .retired ∧ s.pwr.state ≠ .detached
     (¬open_ → tap (exec (.jtagToken bytes) s) .bypass (fun t => rdBit t Reg.DBG_EVENTS 2 = true)) ∧
     (open_ → tap (exec (.jtagToken bytes) s) .token (fun t => bytes.length ≤ 7328 →
       (wordsToBytes (rdRegs t (Reg.DBG_TOKEN 0) (ceilDiv bytes.length 4))).take bytes.length = bytes))) ∧
    (off → Quiet s → exec (.jtagDap x) s = .next s) ∧
    (Quiet s → s.dbg.extest = false → ¬off →
      (∃ t, exec (.jtagDap .select) s = .next t ∧ t.dbg = { s.dbg with ir := .dap } ∧ t.ans = s.ans ∧ SameRegs [Reg.DBG_STATUS] s t) ∧
      (let refusedAt (x : DapAccess) (code : Nat) : Prop := ∃ t, exec (.jtagDap x) s = .next t ∧ t.ans = { status := code } ∧
         SameRegs [Reg.DBG_STATUS] s t ∧ Alters [.regs, .dbg, .ans] s t
       let closed := s.dbg.level = 0
       let mapped := a % 4 = 0 ∧ mappedRead s a = true
       let core (r : Fin 33) : DapAccess := .readCore k r
       let halted := intrusive s 1 = true ∧ (coreOf s k.val).halted = true
       (closed → refusedAt (.readReg a) 0x64 ∧ refusedAt (.readMem a n) 0x64) ∧
       (¬closed → ¬mapped → refusedAt (.readReg a) 0x05) ∧
       (¬closed → mapped → st = .retired → retiredReadable a = false → refusedAt (.readReg a) 0x63) ∧
       (¬closed → mapped → (st ≠ .retired ∨ retiredReadable a = true) → ∃ t u, exec (.jtagDap (.readReg a)) s = .next t ∧
         SameRegs [Reg.DBG_STATUS] s u ∧ Alters [.regs, .dbg] s u ∧ t.ans = { status := 0, done := 1, data := [readView u a] }) ∧
       (¬closed → st = .retired → refusedAt (.readMem a n) 0x63) ∧
       (s.dbg.level ≠ 2 → refusedAt (.writeMem a bytes) 0x64) ∧
       (∀ r, ¬halted → refusedAt (core r) 0x64) ∧
       (∀ r, halted → ∃ (t : State) (w : BitVec 64), exec (.jtagDap (core r)) s = .next t ∧ t.ans = { status := 0, done := 2, data := [w.setWidth 32, (w >>> 32).setWidth 32] } ∧
         w = (if r.val = 32 then (coreOf s k.val).pc else if r.val = 0 then 0 else tget (fun _ => (0 : BitVec 64)) (coreOf s k.val).x r.val)) ∧
       (∀ o, s.dbg.level ≤ 1 → dapOnly a = false → attestWrite a v = false → refusedAt (.writeReg a v o) 0x64)))
end

