-- ==== Sys2Proof/Laws/Bits.lean ====
section
/-! SUPPORT. Bit fields: a field that was put reads as what was put, and every field apart from it reads as before. -/

namespace Sys2Proof.Machine

/-- A field of no bits. -/
theorem bitsN_empty (v hi lo : Nat) (h : hi < lo) : bitsN v hi lo = 0 := by
  unfold bitsN
  rw [show hi + 1 - lo = 0 by omega]
  simp [Nat.mod_one]

/-- A field of the low `k` bits. -/
theorem bitsN_mod (v hi lo k : Nat) (h : hi < k) : bitsN (v % 2 ^ k) hi lo = bitsN v hi lo := by
  by_cases hl : lo ≤ hi
  · unfold bitsN
    obtain ⟨n, hn⟩ : ∃ n, hi + 1 = lo + n := ⟨hi + 1 - lo, by omega⟩
    obtain ⟨m, rfl⟩ : ∃ m, k = lo + n + m := ⟨k - (lo + n), by omega⟩
    rw [show hi + 1 - lo = n by omega, Nat.add_assoc, Nat.pow_add, Nat.mod_mul_right_div_self, Nat.pow_add, Nat.mod_mul_right_mod]
  · rw [bitsN_empty _ _ _ (by omega), bitsN_empty _ _ _ (by omega)]

/-- A field is a part of what lies from a lower bit on. -/
theorem bitsN_div (v hi lo k : Nat) (h : k ≤ lo) (hk : k ≤ hi) : bitsN v hi lo = bitsN (v / 2 ^ k) (hi - k) (lo - k) := by
  unfold bitsN
  rw [Nat.div_div_eq_div_mul, ← Nat.pow_add]
  congr 2
  · congr 1; omega
  · omega

/-- A put field, written by its parts. -/
theorem putBitsN_eq (v hi lo x : Nat) : putBitsN v hi lo x =
    v / 2 ^ lo / 2 ^ (hi + 1 - lo) * 2 ^ (hi + 1 - lo) * 2 ^ lo + x % 2 ^ (hi + 1 - lo) * 2 ^ lo + v % 2 ^ lo := by
  unfold putBitsN bitsN
  generalize 2 ^ lo = p
  generalize 2 ^ (hi + 1 - lo) = n
  have e1 : p * (v / p) + v % p = v := Nat.div_add_mod v p
  have e2 : n * (v / p / n) + v / p % n = v / p := Nat.div_add_mod (v / p) n
  generalize v % p = r at *
  generalize v / p % n = f at *
  generalize v / p / n = q at *
  generalize v / p = u at *
  subst e1
  subst e2
  have : p * (n * q + f) = q * n * p + f * p := by rw [Nat.mul_add]; congr 1 <;> ac_rfl
  omega

/-- A put field reads as what was put. -/
theorem bitsN_put_self (v hi lo x : Nat) : bitsN (putBitsN v hi lo x) hi lo = x % 2 ^ (hi + 1 - lo) := by
  rw [putBitsN_eq]
  unfold bitsN
  have hp : 0 < 2 ^ lo := Nat.two_pow_pos lo
  have hn : 0 < 2 ^ (hi + 1 - lo) := Nat.two_pow_pos _
  generalize 2 ^ (hi + 1 - lo) = n at *
  rw [← Nat.add_mul, Nat.mul_comm _ (2 ^ lo), Nat.mul_add_div hp, Nat.div_eq_of_lt (Nat.mod_lt _ hp), Nat.add_zero,
    Nat.mul_comm _ n, Nat.mul_add_mod, Nat.mod_mod]

/-- A field below a put field reads as before. -/
theorem bitsN_put_low (v hi lo x hi' lo' : Nat) (h : hi' < lo) : bitsN (putBitsN v hi lo x) hi' lo' = bitsN v hi' lo' := by
  rw [← bitsN_mod (putBitsN v hi lo x) hi' lo' lo h, ← bitsN_mod v hi' lo' lo h, putBitsN_eq]
  congr 1
  rw [← Nat.add_mul, Nat.mul_comm _ (2 ^ lo), Nat.mul_add_mod, Nat.mod_mod]

/-- A field above a put field reads as before. -/
theorem bitsN_put_high (v hi lo x hi' lo' : Nat) (hl : lo ≤ hi + 1) (h : hi < lo') : bitsN (putBitsN v hi lo x) hi' lo' = bitsN v hi' lo' := by
  by_cases hh : hi' < lo'
  · rw [bitsN_empty _ _ _ hh, bitsN_empty _ _ _ hh]
  rw [bitsN_div _ hi' lo' (hi + 1) h (by omega), bitsN_div v hi' lo' (hi + 1) h (by omega), putBitsN_eq]
  congr 1
  obtain ⟨n, hn⟩ : ∃ n, hi + 1 = lo + n := ⟨hi + 1 - lo, by omega⟩
  rw [show hi + 1 - lo = n by omega, hn, Nat.pow_add, ← Nat.div_div_eq_div_mul, ← Nat.div_div_eq_div_mul, ← Nat.add_mul]
  have hp : 0 < 2 ^ lo := Nat.two_pow_pos lo
  have hq : 0 < 2 ^ n := Nat.two_pow_pos n
  rw [Nat.mul_comm _ (2 ^ lo), Nat.mul_add_div hp, Nat.div_eq_of_lt (Nat.mod_lt _ hp), Nat.add_zero, Nat.mul_comm _ (2 ^ n),
    Nat.mul_add_div hq, Nat.div_eq_of_lt (Nat.mod_lt _ hq), Nat.add_zero]

/-- A field of a word made from a number. -/
theorem fld_wd (n hi lo : Nat) (h : hi < 32) : fld (wd n) hi lo = bitsN n hi lo := by
  unfold fld wd
  rw [BitVec.toNat_ofNat]
  exact bitsN_mod n hi lo 32 h

theorem fld_put_self (w : Word) (hi lo x : Nat) (h : hi < 32) : fld (putFld w hi lo x) hi lo = x % 2 ^ (hi + 1 - lo) := by
  unfold putFld
  rw [fld_wd _ _ _ h, bitsN_put_self]

theorem fld_put_low (w : Word) (hi lo x hi' lo' : Nat) (h : hi' < lo) (h' : hi' < 32) : fld (putFld w hi lo x) hi' lo' = fld w hi' lo' := by
  unfold putFld
  rw [fld_wd _ _ _ h', bitsN_put_low _ _ _ _ _ _ h]
  rfl

theorem fld_put_high (w : Word) (hi lo x hi' lo' : Nat) (hl : lo ≤ hi + 1) (h : hi < lo') (h' : hi' < 32) :
    fld (putFld w hi lo x) hi' lo' = fld w hi' lo' := by
  unfold putFld
  rw [fld_wd _ _ _ h', bitsN_put_high _ _ _ _ _ _ hl h]
  rfl

/-- A bit is a field of one bit. -/
theorem bit_eq_fld (w : Word) (k : Nat) : bit w k = decide (fld w k k = 1) := by
  unfold bit bitN fld bitsN
  rw [show k + 1 - k = 1 by omega]
  simp only [Nat.pow_one]
  rfl

theorem bit_put_self (w : Word) (k : Nat) (b : Bool) (h : k < 32) : bit (putFld w k k (b2n b)) k = b := by
  rw [bit_eq_fld, fld_put_self _ _ _ _ h]
  cases b <;> simp [b2n]

theorem bit_put_other (w : Word) (hi lo x k : Nat) (hl : lo ≤ hi + 1) (h : k < lo ∨ hi < k) (hk : k < 32) :
    bit (putFld w hi lo x) k = bit w k := by
  rw [bit_eq_fld, bit_eq_fld]
  rcases h with h | h
  · rw [fld_put_low _ _ _ _ _ _ h hk]
  · rw [fld_put_high _ _ _ _ _ _ hl h hk]

@[simp] theorem wd_toNat (w : Word) : wd w.toNat = w := by unfold wd; simp

theorem wd_lt (n : Nat) (h : n < 4294967296) : (wd n).toNat = n := by
  unfold wd
  rw [BitVec.toNat_ofNat]
  exact Nat.mod_eq_of_lt h

end Sys2Proof.Machine
end

