-- ==== Sys2Proof/Laws/State.lean ====
section
/-! SUPPORT. What each update of the state leaves as it was, field by field, so that no proof unfolds a record update. -/

namespace Sys2Proof.Machine

open Sys2Proof

/-! ### setReg -/

@[simp] theorem setReg_pending (a : Nat) (w : Word) (s : State) : (setReg a w s).pending = s.pending := (rfl)
@[simp] theorem setReg_time (a : Nat) (w : Word) (s : State) : (setReg a w s).time = s.time := (rfl)
@[simp] theorem setReg_beat (a : Nat) (w : Word) (s : State) : (setReg a w s).beat = s.beat := (rfl)
@[simp] theorem setReg_freeIdx (a : Nat) (w : Word) (s : State) : (setReg a w s).freeIdx = s.freeIdx := (rfl)
@[simp] theorem setReg_shadowS (a : Nat) (w : Word) (s : State) : (setReg a w s).shadowS = s.shadowS := (rfl)
@[simp] theorem setReg_shadowF (a : Nat) (w : Word) (s : State) : (setReg a w s).shadowF = s.shadowF := (rfl)
@[simp] theorem setReg_mem (a : Nat) (w : Word) (s : State) : (setReg a w s).mem = s.mem := (rfl)
@[simp] theorem setReg_ans (a : Nat) (w : Word) (s : State) : (setReg a w s).ans = s.ans := (rfl)
@[simp] theorem setReg_net (a : Nat) (w : Word) (s : State) : (setReg a w s).net = s.net := (rfl)
@[simp] theorem setReg_flt (a : Nat) (w : Word) (s : State) : (setReg a w s).flt = s.flt := (rfl)
@[simp] theorem setReg_lgr (a : Nat) (w : Word) (s : State) : (setReg a w s).lgr = s.lgr := (rfl)
@[simp] theorem setReg_img (a : Nat) (w : Word) (s : State) : (setReg a w s).img = s.img := (rfl)
@[simp] theorem setReg_pwr (a : Nat) (w : Word) (s : State) : (setReg a w s).pwr = s.pwr := (rfl)
@[simp] theorem setReg_sec (a : Nat) (w : Word) (s : State) : (setReg a w s).sec = s.sec := (rfl)
@[simp] theorem setReg_dbg (a : Nat) (w : Word) (s : State) : (setReg a w s).dbg = s.dbg := (rfl)
@[simp] theorem setReg_tb (a : Nat) (w : Word) (s : State) : (setReg a w s).tb = s.tb := (rfl)
@[simp] theorem setReg_lanes (a : Nat) (w : Word) (s : State) : (setReg a w s).lanes = s.lanes := (rfl)
@[simp] theorem setReg_seq (a : Nat) (w : Word) (s : State) : (setReg a w s).seq = s.seq := (rfl)
@[simp] theorem setReg_links (a : Nat) (w : Word) (s : State) : (setReg a w s).links = s.links := (rfl)
@[simp] theorem setReg_tst (a : Nat) (w : Word) (s : State) : (setReg a w s).tst = s.tst := (rfl)
@[simp] theorem setReg_cmp (a : Nat) (w : Word) (s : State) : (setReg a w s).cmp = s.cmp := (rfl)
@[simp] theorem setReg_lib (a : Nat) (w : Word) (s : State) : (setReg a w s).lib = s.lib := (rfl)
@[simp] theorem setReg_trg (a : Nat) (w : Word) (s : State) : (setReg a w s).trg = s.trg := (rfl)
@[simp] theorem setReg_acq (a : Nat) (w : Word) (s : State) : (setReg a w s).acq = s.acq := (rfl)
@[simp] theorem setReg_mea (a : Nat) (w : Word) (s : State) : (setReg a w s).mea = s.mea := (rfl)
@[simp] theorem setReg_src (a : Nat) (w : Word) (s : State) : (setReg a w s).src = s.src := (rfl)
@[simp] theorem setReg_tdc (a : Nat) (w : Word) (s : State) : (setReg a w s).tdc = s.tdc := (rfl)
@[simp] theorem setReg_qdr (a : Nat) (w : Word) (s : State) : (setReg a w s).qdr = s.qdr := (rfl)
@[simp] theorem setReg_hbm (a : Nat) (w : Word) (s : State) : (setReg a w s).hbm = s.hbm := (rfl)
@[simp] theorem setReg_sch (a : Nat) (w : Word) (s : State) : (setReg a w s).sch = s.sch := (rfl)
@[simp] theorem setReg_ptp (a : Nat) (w : Word) (s : State) : (setReg a w s).ptp = s.ptp := (rfl)
@[simp] theorem setReg_dma (a : Nat) (w : Word) (s : State) : (setReg a w s).dma = s.dma := (rfl)

/-! ### setRegN -/

@[simp] theorem setRegN_pending (a n : Nat) (s : State) : (setRegN a n s).pending = s.pending := (rfl)
@[simp] theorem setRegN_time (a n : Nat) (s : State) : (setRegN a n s).time = s.time := (rfl)
@[simp] theorem setRegN_beat (a n : Nat) (s : State) : (setRegN a n s).beat = s.beat := (rfl)
@[simp] theorem setRegN_freeIdx (a n : Nat) (s : State) : (setRegN a n s).freeIdx = s.freeIdx := (rfl)
@[simp] theorem setRegN_shadowS (a n : Nat) (s : State) : (setRegN a n s).shadowS = s.shadowS := (rfl)
@[simp] theorem setRegN_shadowF (a n : Nat) (s : State) : (setRegN a n s).shadowF = s.shadowF := (rfl)
@[simp] theorem setRegN_mem (a n : Nat) (s : State) : (setRegN a n s).mem = s.mem := (rfl)
@[simp] theorem setRegN_ans (a n : Nat) (s : State) : (setRegN a n s).ans = s.ans := (rfl)
@[simp] theorem setRegN_net (a n : Nat) (s : State) : (setRegN a n s).net = s.net := (rfl)
@[simp] theorem setRegN_flt (a n : Nat) (s : State) : (setRegN a n s).flt = s.flt := (rfl)
@[simp] theorem setRegN_lgr (a n : Nat) (s : State) : (setRegN a n s).lgr = s.lgr := (rfl)
@[simp] theorem setRegN_img (a n : Nat) (s : State) : (setRegN a n s).img = s.img := (rfl)
@[simp] theorem setRegN_pwr (a n : Nat) (s : State) : (setRegN a n s).pwr = s.pwr := (rfl)
@[simp] theorem setRegN_sec (a n : Nat) (s : State) : (setRegN a n s).sec = s.sec := (rfl)
@[simp] theorem setRegN_dbg (a n : Nat) (s : State) : (setRegN a n s).dbg = s.dbg := (rfl)
@[simp] theorem setRegN_tb (a n : Nat) (s : State) : (setRegN a n s).tb = s.tb := (rfl)
@[simp] theorem setRegN_lanes (a n : Nat) (s : State) : (setRegN a n s).lanes = s.lanes := (rfl)
@[simp] theorem setRegN_seq (a n : Nat) (s : State) : (setRegN a n s).seq = s.seq := (rfl)
@[simp] theorem setRegN_links (a n : Nat) (s : State) : (setRegN a n s).links = s.links := (rfl)
@[simp] theorem setRegN_tst (a n : Nat) (s : State) : (setRegN a n s).tst = s.tst := (rfl)
@[simp] theorem setRegN_cmp (a n : Nat) (s : State) : (setRegN a n s).cmp = s.cmp := (rfl)
@[simp] theorem setRegN_lib (a n : Nat) (s : State) : (setRegN a n s).lib = s.lib := (rfl)
@[simp] theorem setRegN_trg (a n : Nat) (s : State) : (setRegN a n s).trg = s.trg := (rfl)
@[simp] theorem setRegN_acq (a n : Nat) (s : State) : (setRegN a n s).acq = s.acq := (rfl)
@[simp] theorem setRegN_mea (a n : Nat) (s : State) : (setRegN a n s).mea = s.mea := (rfl)
@[simp] theorem setRegN_src (a n : Nat) (s : State) : (setRegN a n s).src = s.src := (rfl)
@[simp] theorem setRegN_tdc (a n : Nat) (s : State) : (setRegN a n s).tdc = s.tdc := (rfl)
@[simp] theorem setRegN_qdr (a n : Nat) (s : State) : (setRegN a n s).qdr = s.qdr := (rfl)
@[simp] theorem setRegN_hbm (a n : Nat) (s : State) : (setRegN a n s).hbm = s.hbm := (rfl)
@[simp] theorem setRegN_sch (a n : Nat) (s : State) : (setRegN a n s).sch = s.sch := (rfl)
@[simp] theorem setRegN_ptp (a n : Nat) (s : State) : (setRegN a n s).ptp = s.ptp := (rfl)
@[simp] theorem setRegN_dma (a n : Nat) (s : State) : (setRegN a n s).dma = s.dma := (rfl)

/-! ### setFld -/

@[simp] theorem setFld_pending (a hi lo x : Nat) (s : State) : (setFld a hi lo x s).pending = s.pending := (rfl)
@[simp] theorem setFld_time (a hi lo x : Nat) (s : State) : (setFld a hi lo x s).time = s.time := (rfl)
@[simp] theorem setFld_beat (a hi lo x : Nat) (s : State) : (setFld a hi lo x s).beat = s.beat := (rfl)
@[simp] theorem setFld_freeIdx (a hi lo x : Nat) (s : State) : (setFld a hi lo x s).freeIdx = s.freeIdx := (rfl)
@[simp] theorem setFld_shadowS (a hi lo x : Nat) (s : State) : (setFld a hi lo x s).shadowS = s.shadowS := (rfl)
@[simp] theorem setFld_shadowF (a hi lo x : Nat) (s : State) : (setFld a hi lo x s).shadowF = s.shadowF := (rfl)
@[simp] theorem setFld_mem (a hi lo x : Nat) (s : State) : (setFld a hi lo x s).mem = s.mem := (rfl)
@[simp] theorem setFld_ans (a hi lo x : Nat) (s : State) : (setFld a hi lo x s).ans = s.ans := (rfl)
@[simp] theorem setFld_net (a hi lo x : Nat) (s : State) : (setFld a hi lo x s).net = s.net := (rfl)
@[simp] theorem setFld_flt (a hi lo x : Nat) (s : State) : (setFld a hi lo x s).flt = s.flt := (rfl)
@[simp] theorem setFld_lgr (a hi lo x : Nat) (s : State) : (setFld a hi lo x s).lgr = s.lgr := (rfl)
@[simp] theorem setFld_img (a hi lo x : Nat) (s : State) : (setFld a hi lo x s).img = s.img := (rfl)
@[simp] theorem setFld_pwr (a hi lo x : Nat) (s : State) : (setFld a hi lo x s).pwr = s.pwr := (rfl)
@[simp] theorem setFld_sec (a hi lo x : Nat) (s : State) : (setFld a hi lo x s).sec = s.sec := (rfl)
@[simp] theorem setFld_dbg (a hi lo x : Nat) (s : State) : (setFld a hi lo x s).dbg = s.dbg := (rfl)
@[simp] theorem setFld_tb (a hi lo x : Nat) (s : State) : (setFld a hi lo x s).tb = s.tb := (rfl)
@[simp] theorem setFld_lanes (a hi lo x : Nat) (s : State) : (setFld a hi lo x s).lanes = s.lanes := (rfl)
@[simp] theorem setFld_seq (a hi lo x : Nat) (s : State) : (setFld a hi lo x s).seq = s.seq := (rfl)
@[simp] theorem setFld_links (a hi lo x : Nat) (s : State) : (setFld a hi lo x s).links = s.links := (rfl)
@[simp] theorem setFld_tst (a hi lo x : Nat) (s : State) : (setFld a hi lo x s).tst = s.tst := (rfl)
@[simp] theorem setFld_cmp (a hi lo x : Nat) (s : State) : (setFld a hi lo x s).cmp = s.cmp := (rfl)
@[simp] theorem setFld_lib (a hi lo x : Nat) (s : State) : (setFld a hi lo x s).lib = s.lib := (rfl)
@[simp] theorem setFld_trg (a hi lo x : Nat) (s : State) : (setFld a hi lo x s).trg = s.trg := (rfl)
@[simp] theorem setFld_acq (a hi lo x : Nat) (s : State) : (setFld a hi lo x s).acq = s.acq := (rfl)
@[simp] theorem setFld_mea (a hi lo x : Nat) (s : State) : (setFld a hi lo x s).mea = s.mea := (rfl)
@[simp] theorem setFld_src (a hi lo x : Nat) (s : State) : (setFld a hi lo x s).src = s.src := (rfl)
@[simp] theorem setFld_tdc (a hi lo x : Nat) (s : State) : (setFld a hi lo x s).tdc = s.tdc := (rfl)
@[simp] theorem setFld_qdr (a hi lo x : Nat) (s : State) : (setFld a hi lo x s).qdr = s.qdr := (rfl)
@[simp] theorem setFld_hbm (a hi lo x : Nat) (s : State) : (setFld a hi lo x s).hbm = s.hbm := (rfl)
@[simp] theorem setFld_sch (a hi lo x : Nat) (s : State) : (setFld a hi lo x s).sch = s.sch := (rfl)
@[simp] theorem setFld_ptp (a hi lo x : Nat) (s : State) : (setFld a hi lo x s).ptp = s.ptp := (rfl)
@[simp] theorem setFld_dma (a hi lo x : Nat) (s : State) : (setFld a hi lo x s).dma = s.dma := (rfl)

/-! ### setBit -/

@[simp] theorem setBit_pending (a k : Nat) (b : Bool) (s : State) : (setBit a k b s).pending = s.pending := (rfl)
@[simp] theorem setBit_time (a k : Nat) (b : Bool) (s : State) : (setBit a k b s).time = s.time := (rfl)
@[simp] theorem setBit_beat (a k : Nat) (b : Bool) (s : State) : (setBit a k b s).beat = s.beat := (rfl)
@[simp] theorem setBit_freeIdx (a k : Nat) (b : Bool) (s : State) : (setBit a k b s).freeIdx = s.freeIdx := (rfl)
@[simp] theorem setBit_shadowS (a k : Nat) (b : Bool) (s : State) : (setBit a k b s).shadowS = s.shadowS := (rfl)
@[simp] theorem setBit_shadowF (a k : Nat) (b : Bool) (s : State) : (setBit a k b s).shadowF = s.shadowF := (rfl)
@[simp] theorem setBit_mem (a k : Nat) (b : Bool) (s : State) : (setBit a k b s).mem = s.mem := (rfl)
@[simp] theorem setBit_ans (a k : Nat) (b : Bool) (s : State) : (setBit a k b s).ans = s.ans := (rfl)
@[simp] theorem setBit_net (a k : Nat) (b : Bool) (s : State) : (setBit a k b s).net = s.net := (rfl)
@[simp] theorem setBit_flt (a k : Nat) (b : Bool) (s : State) : (setBit a k b s).flt = s.flt := (rfl)
@[simp] theorem setBit_lgr (a k : Nat) (b : Bool) (s : State) : (setBit a k b s).lgr = s.lgr := (rfl)
@[simp] theorem setBit_img (a k : Nat) (b : Bool) (s : State) : (setBit a k b s).img = s.img := (rfl)
@[simp] theorem setBit_pwr (a k : Nat) (b : Bool) (s : State) : (setBit a k b s).pwr = s.pwr := (rfl)
@[simp] theorem setBit_sec (a k : Nat) (b : Bool) (s : State) : (setBit a k b s).sec = s.sec := (rfl)
@[simp] theorem setBit_dbg (a k : Nat) (b : Bool) (s : State) : (setBit a k b s).dbg = s.dbg := (rfl)
@[simp] theorem setBit_tb (a k : Nat) (b : Bool) (s : State) : (setBit a k b s).tb = s.tb := (rfl)
@[simp] theorem setBit_lanes (a k : Nat) (b : Bool) (s : State) : (setBit a k b s).lanes = s.lanes := (rfl)
@[simp] theorem setBit_seq (a k : Nat) (b : Bool) (s : State) : (setBit a k b s).seq = s.seq := (rfl)
@[simp] theorem setBit_links (a k : Nat) (b : Bool) (s : State) : (setBit a k b s).links = s.links := (rfl)
@[simp] theorem setBit_tst (a k : Nat) (b : Bool) (s : State) : (setBit a k b s).tst = s.tst := (rfl)
@[simp] theorem setBit_cmp (a k : Nat) (b : Bool) (s : State) : (setBit a k b s).cmp = s.cmp := (rfl)
@[simp] theorem setBit_lib (a k : Nat) (b : Bool) (s : State) : (setBit a k b s).lib = s.lib := (rfl)
@[simp] theorem setBit_trg (a k : Nat) (b : Bool) (s : State) : (setBit a k b s).trg = s.trg := (rfl)
@[simp] theorem setBit_acq (a k : Nat) (b : Bool) (s : State) : (setBit a k b s).acq = s.acq := (rfl)
@[simp] theorem setBit_mea (a k : Nat) (b : Bool) (s : State) : (setBit a k b s).mea = s.mea := (rfl)
@[simp] theorem setBit_src (a k : Nat) (b : Bool) (s : State) : (setBit a k b s).src = s.src := (rfl)
@[simp] theorem setBit_tdc (a k : Nat) (b : Bool) (s : State) : (setBit a k b s).tdc = s.tdc := (rfl)
@[simp] theorem setBit_qdr (a k : Nat) (b : Bool) (s : State) : (setBit a k b s).qdr = s.qdr := (rfl)
@[simp] theorem setBit_hbm (a k : Nat) (b : Bool) (s : State) : (setBit a k b s).hbm = s.hbm := (rfl)
@[simp] theorem setBit_sch (a k : Nat) (b : Bool) (s : State) : (setBit a k b s).sch = s.sch := (rfl)
@[simp] theorem setBit_ptp (a k : Nat) (b : Bool) (s : State) : (setBit a k b s).ptp = s.ptp := (rfl)
@[simp] theorem setBit_dma (a k : Nat) (b : Bool) (s : State) : (setBit a k b s).dma = s.dma := (rfl)

/-! ### orReg -/

@[simp] theorem orReg_pending (a mask : Nat) (s : State) : (orReg a mask s).pending = s.pending := (rfl)
@[simp] theorem orReg_time (a mask : Nat) (s : State) : (orReg a mask s).time = s.time := (rfl)
@[simp] theorem orReg_beat (a mask : Nat) (s : State) : (orReg a mask s).beat = s.beat := (rfl)
@[simp] theorem orReg_freeIdx (a mask : Nat) (s : State) : (orReg a mask s).freeIdx = s.freeIdx := (rfl)
@[simp] theorem orReg_shadowS (a mask : Nat) (s : State) : (orReg a mask s).shadowS = s.shadowS := (rfl)
@[simp] theorem orReg_shadowF (a mask : Nat) (s : State) : (orReg a mask s).shadowF = s.shadowF := (rfl)
@[simp] theorem orReg_mem (a mask : Nat) (s : State) : (orReg a mask s).mem = s.mem := (rfl)
@[simp] theorem orReg_ans (a mask : Nat) (s : State) : (orReg a mask s).ans = s.ans := (rfl)
@[simp] theorem orReg_net (a mask : Nat) (s : State) : (orReg a mask s).net = s.net := (rfl)
@[simp] theorem orReg_flt (a mask : Nat) (s : State) : (orReg a mask s).flt = s.flt := (rfl)
@[simp] theorem orReg_lgr (a mask : Nat) (s : State) : (orReg a mask s).lgr = s.lgr := (rfl)
@[simp] theorem orReg_img (a mask : Nat) (s : State) : (orReg a mask s).img = s.img := (rfl)
@[simp] theorem orReg_pwr (a mask : Nat) (s : State) : (orReg a mask s).pwr = s.pwr := (rfl)
@[simp] theorem orReg_sec (a mask : Nat) (s : State) : (orReg a mask s).sec = s.sec := (rfl)
@[simp] theorem orReg_dbg (a mask : Nat) (s : State) : (orReg a mask s).dbg = s.dbg := (rfl)
@[simp] theorem orReg_tb (a mask : Nat) (s : State) : (orReg a mask s).tb = s.tb := (rfl)
@[simp] theorem orReg_lanes (a mask : Nat) (s : State) : (orReg a mask s).lanes = s.lanes := (rfl)
@[simp] theorem orReg_seq (a mask : Nat) (s : State) : (orReg a mask s).seq = s.seq := (rfl)
@[simp] theorem orReg_links (a mask : Nat) (s : State) : (orReg a mask s).links = s.links := (rfl)
@[simp] theorem orReg_tst (a mask : Nat) (s : State) : (orReg a mask s).tst = s.tst := (rfl)
@[simp] theorem orReg_cmp (a mask : Nat) (s : State) : (orReg a mask s).cmp = s.cmp := (rfl)
@[simp] theorem orReg_lib (a mask : Nat) (s : State) : (orReg a mask s).lib = s.lib := (rfl)
@[simp] theorem orReg_trg (a mask : Nat) (s : State) : (orReg a mask s).trg = s.trg := (rfl)
@[simp] theorem orReg_acq (a mask : Nat) (s : State) : (orReg a mask s).acq = s.acq := (rfl)
@[simp] theorem orReg_mea (a mask : Nat) (s : State) : (orReg a mask s).mea = s.mea := (rfl)
@[simp] theorem orReg_src (a mask : Nat) (s : State) : (orReg a mask s).src = s.src := (rfl)
@[simp] theorem orReg_tdc (a mask : Nat) (s : State) : (orReg a mask s).tdc = s.tdc := (rfl)
@[simp] theorem orReg_qdr (a mask : Nat) (s : State) : (orReg a mask s).qdr = s.qdr := (rfl)
@[simp] theorem orReg_hbm (a mask : Nat) (s : State) : (orReg a mask s).hbm = s.hbm := (rfl)
@[simp] theorem orReg_sch (a mask : Nat) (s : State) : (orReg a mask s).sch = s.sch := (rfl)
@[simp] theorem orReg_ptp (a mask : Nat) (s : State) : (orReg a mask s).ptp = s.ptp := (rfl)
@[simp] theorem orReg_dma (a mask : Nat) (s : State) : (orReg a mask s).dma = s.dma := (rfl)

/-! ### incWrap -/

@[simp] theorem incWrap_pending (a k : Nat) (s : State) : (incWrap a k s).pending = s.pending := (rfl)
@[simp] theorem incWrap_time (a k : Nat) (s : State) : (incWrap a k s).time = s.time := (rfl)
@[simp] theorem incWrap_beat (a k : Nat) (s : State) : (incWrap a k s).beat = s.beat := (rfl)
@[simp] theorem incWrap_freeIdx (a k : Nat) (s : State) : (incWrap a k s).freeIdx = s.freeIdx := (rfl)
@[simp] theorem incWrap_shadowS (a k : Nat) (s : State) : (incWrap a k s).shadowS = s.shadowS := (rfl)
@[simp] theorem incWrap_shadowF (a k : Nat) (s : State) : (incWrap a k s).shadowF = s.shadowF := (rfl)
@[simp] theorem incWrap_mem (a k : Nat) (s : State) : (incWrap a k s).mem = s.mem := (rfl)
@[simp] theorem incWrap_ans (a k : Nat) (s : State) : (incWrap a k s).ans = s.ans := (rfl)
@[simp] theorem incWrap_net (a k : Nat) (s : State) : (incWrap a k s).net = s.net := (rfl)
@[simp] theorem incWrap_flt (a k : Nat) (s : State) : (incWrap a k s).flt = s.flt := (rfl)
@[simp] theorem incWrap_lgr (a k : Nat) (s : State) : (incWrap a k s).lgr = s.lgr := (rfl)
@[simp] theorem incWrap_img (a k : Nat) (s : State) : (incWrap a k s).img = s.img := (rfl)
@[simp] theorem incWrap_pwr (a k : Nat) (s : State) : (incWrap a k s).pwr = s.pwr := (rfl)
@[simp] theorem incWrap_sec (a k : Nat) (s : State) : (incWrap a k s).sec = s.sec := (rfl)
@[simp] theorem incWrap_dbg (a k : Nat) (s : State) : (incWrap a k s).dbg = s.dbg := (rfl)
@[simp] theorem incWrap_tb (a k : Nat) (s : State) : (incWrap a k s).tb = s.tb := (rfl)
@[simp] theorem incWrap_lanes (a k : Nat) (s : State) : (incWrap a k s).lanes = s.lanes := (rfl)
@[simp] theorem incWrap_seq (a k : Nat) (s : State) : (incWrap a k s).seq = s.seq := (rfl)
@[simp] theorem incWrap_links (a k : Nat) (s : State) : (incWrap a k s).links = s.links := (rfl)
@[simp] theorem incWrap_tst (a k : Nat) (s : State) : (incWrap a k s).tst = s.tst := (rfl)
@[simp] theorem incWrap_cmp (a k : Nat) (s : State) : (incWrap a k s).cmp = s.cmp := (rfl)
@[simp] theorem incWrap_lib (a k : Nat) (s : State) : (incWrap a k s).lib = s.lib := (rfl)
@[simp] theorem incWrap_trg (a k : Nat) (s : State) : (incWrap a k s).trg = s.trg := (rfl)
@[simp] theorem incWrap_acq (a k : Nat) (s : State) : (incWrap a k s).acq = s.acq := (rfl)
@[simp] theorem incWrap_mea (a k : Nat) (s : State) : (incWrap a k s).mea = s.mea := (rfl)
@[simp] theorem incWrap_src (a k : Nat) (s : State) : (incWrap a k s).src = s.src := (rfl)
@[simp] theorem incWrap_tdc (a k : Nat) (s : State) : (incWrap a k s).tdc = s.tdc := (rfl)
@[simp] theorem incWrap_qdr (a k : Nat) (s : State) : (incWrap a k s).qdr = s.qdr := (rfl)
@[simp] theorem incWrap_hbm (a k : Nat) (s : State) : (incWrap a k s).hbm = s.hbm := (rfl)
@[simp] theorem incWrap_sch (a k : Nat) (s : State) : (incWrap a k s).sch = s.sch := (rfl)
@[simp] theorem incWrap_ptp (a k : Nat) (s : State) : (incWrap a k s).ptp = s.ptp := (rfl)
@[simp] theorem incWrap_dma (a k : Nat) (s : State) : (incWrap a k s).dma = s.dma := (rfl)

/-! ### incSat -/

@[simp] theorem incSat_pending (a k : Nat) (s : State) : (incSat a k s).pending = s.pending := (rfl)
@[simp] theorem incSat_time (a k : Nat) (s : State) : (incSat a k s).time = s.time := (rfl)
@[simp] theorem incSat_beat (a k : Nat) (s : State) : (incSat a k s).beat = s.beat := (rfl)
@[simp] theorem incSat_freeIdx (a k : Nat) (s : State) : (incSat a k s).freeIdx = s.freeIdx := (rfl)
@[simp] theorem incSat_shadowS (a k : Nat) (s : State) : (incSat a k s).shadowS = s.shadowS := (rfl)
@[simp] theorem incSat_shadowF (a k : Nat) (s : State) : (incSat a k s).shadowF = s.shadowF := (rfl)
@[simp] theorem incSat_mem (a k : Nat) (s : State) : (incSat a k s).mem = s.mem := (rfl)
@[simp] theorem incSat_ans (a k : Nat) (s : State) : (incSat a k s).ans = s.ans := (rfl)
@[simp] theorem incSat_net (a k : Nat) (s : State) : (incSat a k s).net = s.net := (rfl)
@[simp] theorem incSat_flt (a k : Nat) (s : State) : (incSat a k s).flt = s.flt := (rfl)
@[simp] theorem incSat_lgr (a k : Nat) (s : State) : (incSat a k s).lgr = s.lgr := (rfl)
@[simp] theorem incSat_img (a k : Nat) (s : State) : (incSat a k s).img = s.img := (rfl)
@[simp] theorem incSat_pwr (a k : Nat) (s : State) : (incSat a k s).pwr = s.pwr := (rfl)
@[simp] theorem incSat_sec (a k : Nat) (s : State) : (incSat a k s).sec = s.sec := (rfl)
@[simp] theorem incSat_dbg (a k : Nat) (s : State) : (incSat a k s).dbg = s.dbg := (rfl)
@[simp] theorem incSat_tb (a k : Nat) (s : State) : (incSat a k s).tb = s.tb := (rfl)
@[simp] theorem incSat_lanes (a k : Nat) (s : State) : (incSat a k s).lanes = s.lanes := (rfl)
@[simp] theorem incSat_seq (a k : Nat) (s : State) : (incSat a k s).seq = s.seq := (rfl)
@[simp] theorem incSat_links (a k : Nat) (s : State) : (incSat a k s).links = s.links := (rfl)
@[simp] theorem incSat_tst (a k : Nat) (s : State) : (incSat a k s).tst = s.tst := (rfl)
@[simp] theorem incSat_cmp (a k : Nat) (s : State) : (incSat a k s).cmp = s.cmp := (rfl)
@[simp] theorem incSat_lib (a k : Nat) (s : State) : (incSat a k s).lib = s.lib := (rfl)
@[simp] theorem incSat_trg (a k : Nat) (s : State) : (incSat a k s).trg = s.trg := (rfl)
@[simp] theorem incSat_acq (a k : Nat) (s : State) : (incSat a k s).acq = s.acq := (rfl)
@[simp] theorem incSat_mea (a k : Nat) (s : State) : (incSat a k s).mea = s.mea := (rfl)
@[simp] theorem incSat_src (a k : Nat) (s : State) : (incSat a k s).src = s.src := (rfl)
@[simp] theorem incSat_tdc (a k : Nat) (s : State) : (incSat a k s).tdc = s.tdc := (rfl)
@[simp] theorem incSat_qdr (a k : Nat) (s : State) : (incSat a k s).qdr = s.qdr := (rfl)
@[simp] theorem incSat_hbm (a k : Nat) (s : State) : (incSat a k s).hbm = s.hbm := (rfl)
@[simp] theorem incSat_sch (a k : Nat) (s : State) : (incSat a k s).sch = s.sch := (rfl)
@[simp] theorem incSat_ptp (a k : Nat) (s : State) : (incSat a k s).ptp = s.ptp := (rfl)
@[simp] theorem incSat_dma (a k : Nat) (s : State) : (incSat a k s).dma = s.dma := (rfl)

/-! ### set64 -/

@[simp] theorem set64_pending (a n : Nat) (s : State) : (set64 a n s).pending = s.pending := (rfl)
@[simp] theorem set64_time (a n : Nat) (s : State) : (set64 a n s).time = s.time := (rfl)
@[simp] theorem set64_beat (a n : Nat) (s : State) : (set64 a n s).beat = s.beat := (rfl)
@[simp] theorem set64_freeIdx (a n : Nat) (s : State) : (set64 a n s).freeIdx = s.freeIdx := (rfl)
@[simp] theorem set64_shadowS (a n : Nat) (s : State) : (set64 a n s).shadowS = s.shadowS := (rfl)
@[simp] theorem set64_shadowF (a n : Nat) (s : State) : (set64 a n s).shadowF = s.shadowF := (rfl)
@[simp] theorem set64_mem (a n : Nat) (s : State) : (set64 a n s).mem = s.mem := (rfl)
@[simp] theorem set64_ans (a n : Nat) (s : State) : (set64 a n s).ans = s.ans := (rfl)
@[simp] theorem set64_net (a n : Nat) (s : State) : (set64 a n s).net = s.net := (rfl)
@[simp] theorem set64_flt (a n : Nat) (s : State) : (set64 a n s).flt = s.flt := (rfl)
@[simp] theorem set64_lgr (a n : Nat) (s : State) : (set64 a n s).lgr = s.lgr := (rfl)
@[simp] theorem set64_img (a n : Nat) (s : State) : (set64 a n s).img = s.img := (rfl)
@[simp] theorem set64_pwr (a n : Nat) (s : State) : (set64 a n s).pwr = s.pwr := (rfl)
@[simp] theorem set64_sec (a n : Nat) (s : State) : (set64 a n s).sec = s.sec := (rfl)
@[simp] theorem set64_dbg (a n : Nat) (s : State) : (set64 a n s).dbg = s.dbg := (rfl)
@[simp] theorem set64_tb (a n : Nat) (s : State) : (set64 a n s).tb = s.tb := (rfl)
@[simp] theorem set64_lanes (a n : Nat) (s : State) : (set64 a n s).lanes = s.lanes := (rfl)
@[simp] theorem set64_seq (a n : Nat) (s : State) : (set64 a n s).seq = s.seq := (rfl)
@[simp] theorem set64_links (a n : Nat) (s : State) : (set64 a n s).links = s.links := (rfl)
@[simp] theorem set64_tst (a n : Nat) (s : State) : (set64 a n s).tst = s.tst := (rfl)
@[simp] theorem set64_cmp (a n : Nat) (s : State) : (set64 a n s).cmp = s.cmp := (rfl)
@[simp] theorem set64_lib (a n : Nat) (s : State) : (set64 a n s).lib = s.lib := (rfl)
@[simp] theorem set64_trg (a n : Nat) (s : State) : (set64 a n s).trg = s.trg := (rfl)
@[simp] theorem set64_acq (a n : Nat) (s : State) : (set64 a n s).acq = s.acq := (rfl)
@[simp] theorem set64_mea (a n : Nat) (s : State) : (set64 a n s).mea = s.mea := (rfl)
@[simp] theorem set64_src (a n : Nat) (s : State) : (set64 a n s).src = s.src := (rfl)
@[simp] theorem set64_tdc (a n : Nat) (s : State) : (set64 a n s).tdc = s.tdc := (rfl)
@[simp] theorem set64_qdr (a n : Nat) (s : State) : (set64 a n s).qdr = s.qdr := (rfl)
@[simp] theorem set64_hbm (a n : Nat) (s : State) : (set64 a n s).hbm = s.hbm := (rfl)
@[simp] theorem set64_sch (a n : Nat) (s : State) : (set64 a n s).sch = s.sch := (rfl)
@[simp] theorem set64_ptp (a n : Nat) (s : State) : (set64 a n s).ptp = s.ptp := (rfl)
@[simp] theorem set64_dma (a n : Nat) (s : State) : (set64 a n s).dma = s.dma := (rfl)

/-! ### setByte -/

@[simp] theorem setByte_pending (a : Nat) (b : Byte) (s : State) : (setByte a b s).pending = s.pending := (rfl)
@[simp] theorem setByte_time (a : Nat) (b : Byte) (s : State) : (setByte a b s).time = s.time := (rfl)
@[simp] theorem setByte_beat (a : Nat) (b : Byte) (s : State) : (setByte a b s).beat = s.beat := (rfl)
@[simp] theorem setByte_freeIdx (a : Nat) (b : Byte) (s : State) : (setByte a b s).freeIdx = s.freeIdx := (rfl)
@[simp] theorem setByte_regs (a : Nat) (b : Byte) (s : State) : (setByte a b s).regs = s.regs := (rfl)
@[simp] theorem setByte_shadowS (a : Nat) (b : Byte) (s : State) : (setByte a b s).shadowS = s.shadowS := (rfl)
@[simp] theorem setByte_shadowF (a : Nat) (b : Byte) (s : State) : (setByte a b s).shadowF = s.shadowF := (rfl)
@[simp] theorem setByte_ans (a : Nat) (b : Byte) (s : State) : (setByte a b s).ans = s.ans := (rfl)
@[simp] theorem setByte_net (a : Nat) (b : Byte) (s : State) : (setByte a b s).net = s.net := (rfl)
@[simp] theorem setByte_flt (a : Nat) (b : Byte) (s : State) : (setByte a b s).flt = s.flt := (rfl)
@[simp] theorem setByte_lgr (a : Nat) (b : Byte) (s : State) : (setByte a b s).lgr = s.lgr := (rfl)
@[simp] theorem setByte_img (a : Nat) (b : Byte) (s : State) : (setByte a b s).img = s.img := (rfl)
@[simp] theorem setByte_pwr (a : Nat) (b : Byte) (s : State) : (setByte a b s).pwr = s.pwr := (rfl)
@[simp] theorem setByte_sec (a : Nat) (b : Byte) (s : State) : (setByte a b s).sec = s.sec := (rfl)
@[simp] theorem setByte_dbg (a : Nat) (b : Byte) (s : State) : (setByte a b s).dbg = s.dbg := (rfl)
@[simp] theorem setByte_tb (a : Nat) (b : Byte) (s : State) : (setByte a b s).tb = s.tb := (rfl)
@[simp] theorem setByte_lanes (a : Nat) (b : Byte) (s : State) : (setByte a b s).lanes = s.lanes := (rfl)
@[simp] theorem setByte_seq (a : Nat) (b : Byte) (s : State) : (setByte a b s).seq = s.seq := (rfl)
@[simp] theorem setByte_links (a : Nat) (b : Byte) (s : State) : (setByte a b s).links = s.links := (rfl)
@[simp] theorem setByte_tst (a : Nat) (b : Byte) (s : State) : (setByte a b s).tst = s.tst := (rfl)
@[simp] theorem setByte_cmp (a : Nat) (b : Byte) (s : State) : (setByte a b s).cmp = s.cmp := (rfl)
@[simp] theorem setByte_lib (a : Nat) (b : Byte) (s : State) : (setByte a b s).lib = s.lib := (rfl)
@[simp] theorem setByte_trg (a : Nat) (b : Byte) (s : State) : (setByte a b s).trg = s.trg := (rfl)
@[simp] theorem setByte_acq (a : Nat) (b : Byte) (s : State) : (setByte a b s).acq = s.acq := (rfl)
@[simp] theorem setByte_mea (a : Nat) (b : Byte) (s : State) : (setByte a b s).mea = s.mea := (rfl)
@[simp] theorem setByte_src (a : Nat) (b : Byte) (s : State) : (setByte a b s).src = s.src := (rfl)
@[simp] theorem setByte_tdc (a : Nat) (b : Byte) (s : State) : (setByte a b s).tdc = s.tdc := (rfl)
@[simp] theorem setByte_qdr (a : Nat) (b : Byte) (s : State) : (setByte a b s).qdr = s.qdr := (rfl)
@[simp] theorem setByte_hbm (a : Nat) (b : Byte) (s : State) : (setByte a b s).hbm = s.hbm := (rfl)
@[simp] theorem setByte_sch (a : Nat) (b : Byte) (s : State) : (setByte a b s).sch = s.sch := (rfl)
@[simp] theorem setByte_ptp (a : Nat) (b : Byte) (s : State) : (setByte a b s).ptp = s.ptp := (rfl)
@[simp] theorem setByte_dma (a : Nat) (b : Byte) (s : State) : (setByte a b s).dma = s.dma := (rfl)

/-! ### setBytes -/

@[simp] theorem setBytes_pending (a : Nat) (bs : List Byte) (s : State) : (setBytes a bs s).pending = s.pending := by unfold setBytes clearPoison; split <;> rfl
@[simp] theorem setBytes_time (a : Nat) (bs : List Byte) (s : State) : (setBytes a bs s).time = s.time := by unfold setBytes clearPoison; split <;> rfl
@[simp] theorem setBytes_beat (a : Nat) (bs : List Byte) (s : State) : (setBytes a bs s).beat = s.beat := by unfold setBytes clearPoison; split <;> rfl
@[simp] theorem setBytes_freeIdx (a : Nat) (bs : List Byte) (s : State) : (setBytes a bs s).freeIdx = s.freeIdx := by unfold setBytes clearPoison; split <;> rfl
@[simp] theorem setBytes_shadowS (a : Nat) (bs : List Byte) (s : State) : (setBytes a bs s).shadowS = s.shadowS := by unfold setBytes clearPoison; split <;> rfl
@[simp] theorem setBytes_shadowF (a : Nat) (bs : List Byte) (s : State) : (setBytes a bs s).shadowF = s.shadowF := by unfold setBytes clearPoison; split <;> rfl
@[simp] theorem setBytes_ans (a : Nat) (bs : List Byte) (s : State) : (setBytes a bs s).ans = s.ans := by unfold setBytes clearPoison; split <;> rfl
@[simp] theorem setBytes_net (a : Nat) (bs : List Byte) (s : State) : (setBytes a bs s).net = s.net := by unfold setBytes clearPoison; split <;> rfl
@[simp] theorem setBytes_flt (a : Nat) (bs : List Byte) (s : State) : (setBytes a bs s).flt = s.flt := by unfold setBytes clearPoison; split <;> rfl
@[simp] theorem setBytes_lgr (a : Nat) (bs : List Byte) (s : State) : (setBytes a bs s).lgr = s.lgr := by unfold setBytes clearPoison; split <;> rfl
@[simp] theorem setBytes_img (a : Nat) (bs : List Byte) (s : State) : (setBytes a bs s).img = s.img := by unfold setBytes clearPoison; split <;> rfl
@[simp] theorem setBytes_pwr (a : Nat) (bs : List Byte) (s : State) : (setBytes a bs s).pwr = s.pwr := by unfold setBytes clearPoison; split <;> rfl
@[simp] theorem setBytes_sec (a : Nat) (bs : List Byte) (s : State) : (setBytes a bs s).sec = s.sec := by unfold setBytes clearPoison; split <;> rfl
@[simp] theorem setBytes_dbg (a : Nat) (bs : List Byte) (s : State) : (setBytes a bs s).dbg = s.dbg := by unfold setBytes clearPoison; split <;> rfl
@[simp] theorem setBytes_tb (a : Nat) (bs : List Byte) (s : State) : (setBytes a bs s).tb = s.tb := by unfold setBytes clearPoison; split <;> rfl
@[simp] theorem setBytes_lanes (a : Nat) (bs : List Byte) (s : State) : (setBytes a bs s).lanes = s.lanes := by unfold setBytes clearPoison; split <;> rfl
@[simp] theorem setBytes_seq (a : Nat) (bs : List Byte) (s : State) : (setBytes a bs s).seq = s.seq := by unfold setBytes clearPoison; split <;> rfl
@[simp] theorem setBytes_links (a : Nat) (bs : List Byte) (s : State) : (setBytes a bs s).links = s.links := by unfold setBytes clearPoison; split <;> rfl
@[simp] theorem setBytes_tst (a : Nat) (bs : List Byte) (s : State) : (setBytes a bs s).tst = s.tst := by unfold setBytes clearPoison; split <;> rfl
@[simp] theorem setBytes_cmp (a : Nat) (bs : List Byte) (s : State) : (setBytes a bs s).cmp = s.cmp := by unfold setBytes clearPoison; split <;> rfl
@[simp] theorem setBytes_lib (a : Nat) (bs : List Byte) (s : State) : (setBytes a bs s).lib = s.lib := by unfold setBytes clearPoison; split <;> rfl
@[simp] theorem setBytes_trg (a : Nat) (bs : List Byte) (s : State) : (setBytes a bs s).trg = s.trg := by unfold setBytes clearPoison; split <;> rfl
@[simp] theorem setBytes_acq (a : Nat) (bs : List Byte) (s : State) : (setBytes a bs s).acq = s.acq := by unfold setBytes clearPoison; split <;> rfl
@[simp] theorem setBytes_mea (a : Nat) (bs : List Byte) (s : State) : (setBytes a bs s).mea = s.mea := by unfold setBytes clearPoison; split <;> rfl
@[simp] theorem setBytes_src (a : Nat) (bs : List Byte) (s : State) : (setBytes a bs s).src = s.src := by unfold setBytes clearPoison; split <;> rfl
@[simp] theorem setBytes_tdc (a : Nat) (bs : List Byte) (s : State) : (setBytes a bs s).tdc = s.tdc := by unfold setBytes clearPoison; split <;> rfl
@[simp] theorem setBytes_qdr (a : Nat) (bs : List Byte) (s : State) : (setBytes a bs s).qdr = s.qdr := by unfold setBytes clearPoison; split <;> rfl
@[simp] theorem setBytes_sch (a : Nat) (bs : List Byte) (s : State) : (setBytes a bs s).sch = s.sch := by unfold setBytes clearPoison; split <;> rfl
@[simp] theorem setBytes_ptp (a : Nat) (bs : List Byte) (s : State) : (setBytes a bs s).ptp = s.ptp := by unfold setBytes clearPoison; split <;> rfl
@[simp] theorem setBytes_dma (a : Nat) (bs : List Byte) (s : State) : (setBytes a bs s).dma = s.dma := by unfold setBytes clearPoison; split <;> rfl

/-! ### answer -/

@[simp] theorem answer_pending (code : Nat) (s : State) : (answer code s).pending = s.pending := (rfl)
@[simp] theorem answer_time (code : Nat) (s : State) : (answer code s).time = s.time := (rfl)
@[simp] theorem answer_beat (code : Nat) (s : State) : (answer code s).beat = s.beat := (rfl)
@[simp] theorem answer_freeIdx (code : Nat) (s : State) : (answer code s).freeIdx = s.freeIdx := (rfl)
@[simp] theorem answer_regs (code : Nat) (s : State) : (answer code s).regs = s.regs := (rfl)
@[simp] theorem answer_shadowS (code : Nat) (s : State) : (answer code s).shadowS = s.shadowS := (rfl)
@[simp] theorem answer_shadowF (code : Nat) (s : State) : (answer code s).shadowF = s.shadowF := (rfl)
@[simp] theorem answer_mem (code : Nat) (s : State) : (answer code s).mem = s.mem := (rfl)
@[simp] theorem answer_net (code : Nat) (s : State) : (answer code s).net = s.net := (rfl)
@[simp] theorem answer_flt (code : Nat) (s : State) : (answer code s).flt = s.flt := (rfl)
@[simp] theorem answer_lgr (code : Nat) (s : State) : (answer code s).lgr = s.lgr := (rfl)
@[simp] theorem answer_img (code : Nat) (s : State) : (answer code s).img = s.img := (rfl)
@[simp] theorem answer_pwr (code : Nat) (s : State) : (answer code s).pwr = s.pwr := (rfl)
@[simp] theorem answer_sec (code : Nat) (s : State) : (answer code s).sec = s.sec := (rfl)
@[simp] theorem answer_dbg (code : Nat) (s : State) : (answer code s).dbg = s.dbg := (rfl)
@[simp] theorem answer_tb (code : Nat) (s : State) : (answer code s).tb = s.tb := (rfl)
@[simp] theorem answer_lanes (code : Nat) (s : State) : (answer code s).lanes = s.lanes := (rfl)
@[simp] theorem answer_seq (code : Nat) (s : State) : (answer code s).seq = s.seq := (rfl)
@[simp] theorem answer_links (code : Nat) (s : State) : (answer code s).links = s.links := (rfl)
@[simp] theorem answer_tst (code : Nat) (s : State) : (answer code s).tst = s.tst := (rfl)
@[simp] theorem answer_cmp (code : Nat) (s : State) : (answer code s).cmp = s.cmp := (rfl)
@[simp] theorem answer_lib (code : Nat) (s : State) : (answer code s).lib = s.lib := (rfl)
@[simp] theorem answer_trg (code : Nat) (s : State) : (answer code s).trg = s.trg := (rfl)
@[simp] theorem answer_acq (code : Nat) (s : State) : (answer code s).acq = s.acq := (rfl)
@[simp] theorem answer_mea (code : Nat) (s : State) : (answer code s).mea = s.mea := (rfl)
@[simp] theorem answer_src (code : Nat) (s : State) : (answer code s).src = s.src := (rfl)
@[simp] theorem answer_tdc (code : Nat) (s : State) : (answer code s).tdc = s.tdc := (rfl)
@[simp] theorem answer_qdr (code : Nat) (s : State) : (answer code s).qdr = s.qdr := (rfl)
@[simp] theorem answer_hbm (code : Nat) (s : State) : (answer code s).hbm = s.hbm := (rfl)
@[simp] theorem answer_sch (code : Nat) (s : State) : (answer code s).sch = s.sch := (rfl)
@[simp] theorem answer_ptp (code : Nat) (s : State) : (answer code s).ptp = s.ptp := (rfl)
@[simp] theorem answer_dma (code : Nat) (s : State) : (answer code s).dma = s.dma := (rfl)

/-! ### deferAnswer -/

@[simp] theorem deferAnswer_pending (k : OpenKind) (slot : Nat) (s : State) : (deferAnswer k slot s).pending = s.pending := (rfl)
@[simp] theorem deferAnswer_time (k : OpenKind) (slot : Nat) (s : State) : (deferAnswer k slot s).time = s.time := (rfl)
@[simp] theorem deferAnswer_beat (k : OpenKind) (slot : Nat) (s : State) : (deferAnswer k slot s).beat = s.beat := (rfl)
@[simp] theorem deferAnswer_freeIdx (k : OpenKind) (slot : Nat) (s : State) : (deferAnswer k slot s).freeIdx = s.freeIdx := (rfl)
@[simp] theorem deferAnswer_regs (k : OpenKind) (slot : Nat) (s : State) : (deferAnswer k slot s).regs = s.regs := (rfl)
@[simp] theorem deferAnswer_shadowS (k : OpenKind) (slot : Nat) (s : State) : (deferAnswer k slot s).shadowS = s.shadowS := (rfl)
@[simp] theorem deferAnswer_shadowF (k : OpenKind) (slot : Nat) (s : State) : (deferAnswer k slot s).shadowF = s.shadowF := (rfl)
@[simp] theorem deferAnswer_mem (k : OpenKind) (slot : Nat) (s : State) : (deferAnswer k slot s).mem = s.mem := (rfl)
@[simp] theorem deferAnswer_flt (k : OpenKind) (slot : Nat) (s : State) : (deferAnswer k slot s).flt = s.flt := (rfl)
@[simp] theorem deferAnswer_lgr (k : OpenKind) (slot : Nat) (s : State) : (deferAnswer k slot s).lgr = s.lgr := (rfl)
@[simp] theorem deferAnswer_img (k : OpenKind) (slot : Nat) (s : State) : (deferAnswer k slot s).img = s.img := (rfl)
@[simp] theorem deferAnswer_pwr (k : OpenKind) (slot : Nat) (s : State) : (deferAnswer k slot s).pwr = s.pwr := (rfl)
@[simp] theorem deferAnswer_sec (k : OpenKind) (slot : Nat) (s : State) : (deferAnswer k slot s).sec = s.sec := (rfl)
@[simp] theorem deferAnswer_dbg (k : OpenKind) (slot : Nat) (s : State) : (deferAnswer k slot s).dbg = s.dbg := (rfl)
@[simp] theorem deferAnswer_tb (k : OpenKind) (slot : Nat) (s : State) : (deferAnswer k slot s).tb = s.tb := (rfl)
@[simp] theorem deferAnswer_lanes (k : OpenKind) (slot : Nat) (s : State) : (deferAnswer k slot s).lanes = s.lanes := (rfl)
@[simp] theorem deferAnswer_seq (k : OpenKind) (slot : Nat) (s : State) : (deferAnswer k slot s).seq = s.seq := (rfl)
@[simp] theorem deferAnswer_links (k : OpenKind) (slot : Nat) (s : State) : (deferAnswer k slot s).links = s.links := (rfl)
@[simp] theorem deferAnswer_tst (k : OpenKind) (slot : Nat) (s : State) : (deferAnswer k slot s).tst = s.tst := (rfl)
@[simp] theorem deferAnswer_cmp (k : OpenKind) (slot : Nat) (s : State) : (deferAnswer k slot s).cmp = s.cmp := (rfl)
@[simp] theorem deferAnswer_lib (k : OpenKind) (slot : Nat) (s : State) : (deferAnswer k slot s).lib = s.lib := (rfl)
@[simp] theorem deferAnswer_trg (k : OpenKind) (slot : Nat) (s : State) : (deferAnswer k slot s).trg = s.trg := (rfl)
@[simp] theorem deferAnswer_acq (k : OpenKind) (slot : Nat) (s : State) : (deferAnswer k slot s).acq = s.acq := (rfl)
@[simp] theorem deferAnswer_mea (k : OpenKind) (slot : Nat) (s : State) : (deferAnswer k slot s).mea = s.mea := (rfl)
@[simp] theorem deferAnswer_src (k : OpenKind) (slot : Nat) (s : State) : (deferAnswer k slot s).src = s.src := (rfl)
@[simp] theorem deferAnswer_tdc (k : OpenKind) (slot : Nat) (s : State) : (deferAnswer k slot s).tdc = s.tdc := (rfl)
@[simp] theorem deferAnswer_qdr (k : OpenKind) (slot : Nat) (s : State) : (deferAnswer k slot s).qdr = s.qdr := (rfl)
@[simp] theorem deferAnswer_hbm (k : OpenKind) (slot : Nat) (s : State) : (deferAnswer k slot s).hbm = s.hbm := (rfl)
@[simp] theorem deferAnswer_sch (k : OpenKind) (slot : Nat) (s : State) : (deferAnswer k slot s).sch = s.sch := (rfl)
@[simp] theorem deferAnswer_ptp (k : OpenKind) (slot : Nat) (s : State) : (deferAnswer k slot s).ptp = s.ptp := (rfl)
@[simp] theorem deferAnswer_dma (k : OpenKind) (slot : Nat) (s : State) : (deferAnswer k slot s).dma = s.dma := (rfl)

/-! ### setObj -/

@[simp] theorem setObj_pending (id : Nat) (o : Option LibObj) (s : State) : (setObj id o s).pending = s.pending := (rfl)
@[simp] theorem setObj_time (id : Nat) (o : Option LibObj) (s : State) : (setObj id o s).time = s.time := (rfl)
@[simp] theorem setObj_beat (id : Nat) (o : Option LibObj) (s : State) : (setObj id o s).beat = s.beat := (rfl)
@[simp] theorem setObj_freeIdx (id : Nat) (o : Option LibObj) (s : State) : (setObj id o s).freeIdx = s.freeIdx := (rfl)
@[simp] theorem setObj_regs (id : Nat) (o : Option LibObj) (s : State) : (setObj id o s).regs = s.regs := (rfl)
@[simp] theorem setObj_shadowS (id : Nat) (o : Option LibObj) (s : State) : (setObj id o s).shadowS = s.shadowS := (rfl)
@[simp] theorem setObj_shadowF (id : Nat) (o : Option LibObj) (s : State) : (setObj id o s).shadowF = s.shadowF := (rfl)
@[simp] theorem setObj_mem (id : Nat) (o : Option LibObj) (s : State) : (setObj id o s).mem = s.mem := (rfl)
@[simp] theorem setObj_ans (id : Nat) (o : Option LibObj) (s : State) : (setObj id o s).ans = s.ans := (rfl)
@[simp] theorem setObj_net (id : Nat) (o : Option LibObj) (s : State) : (setObj id o s).net = s.net := (rfl)
@[simp] theorem setObj_flt (id : Nat) (o : Option LibObj) (s : State) : (setObj id o s).flt = s.flt := (rfl)
@[simp] theorem setObj_lgr (id : Nat) (o : Option LibObj) (s : State) : (setObj id o s).lgr = s.lgr := (rfl)
@[simp] theorem setObj_img (id : Nat) (o : Option LibObj) (s : State) : (setObj id o s).img = s.img := (rfl)
@[simp] theorem setObj_pwr (id : Nat) (o : Option LibObj) (s : State) : (setObj id o s).pwr = s.pwr := (rfl)
@[simp] theorem setObj_sec (id : Nat) (o : Option LibObj) (s : State) : (setObj id o s).sec = s.sec := (rfl)
@[simp] theorem setObj_dbg (id : Nat) (o : Option LibObj) (s : State) : (setObj id o s).dbg = s.dbg := (rfl)
@[simp] theorem setObj_tb (id : Nat) (o : Option LibObj) (s : State) : (setObj id o s).tb = s.tb := (rfl)
@[simp] theorem setObj_lanes (id : Nat) (o : Option LibObj) (s : State) : (setObj id o s).lanes = s.lanes := (rfl)
@[simp] theorem setObj_seq (id : Nat) (o : Option LibObj) (s : State) : (setObj id o s).seq = s.seq := (rfl)
@[simp] theorem setObj_links (id : Nat) (o : Option LibObj) (s : State) : (setObj id o s).links = s.links := (rfl)
@[simp] theorem setObj_tst (id : Nat) (o : Option LibObj) (s : State) : (setObj id o s).tst = s.tst := (rfl)
@[simp] theorem setObj_cmp (id : Nat) (o : Option LibObj) (s : State) : (setObj id o s).cmp = s.cmp := (rfl)
@[simp] theorem setObj_trg (id : Nat) (o : Option LibObj) (s : State) : (setObj id o s).trg = s.trg := (rfl)
@[simp] theorem setObj_acq (id : Nat) (o : Option LibObj) (s : State) : (setObj id o s).acq = s.acq := (rfl)
@[simp] theorem setObj_mea (id : Nat) (o : Option LibObj) (s : State) : (setObj id o s).mea = s.mea := (rfl)
@[simp] theorem setObj_src (id : Nat) (o : Option LibObj) (s : State) : (setObj id o s).src = s.src := (rfl)
@[simp] theorem setObj_tdc (id : Nat) (o : Option LibObj) (s : State) : (setObj id o s).tdc = s.tdc := (rfl)
@[simp] theorem setObj_qdr (id : Nat) (o : Option LibObj) (s : State) : (setObj id o s).qdr = s.qdr := (rfl)
@[simp] theorem setObj_hbm (id : Nat) (o : Option LibObj) (s : State) : (setObj id o s).hbm = s.hbm := (rfl)
@[simp] theorem setObj_sch (id : Nat) (o : Option LibObj) (s : State) : (setObj id o s).sch = s.sch := (rfl)
@[simp] theorem setObj_ptp (id : Nat) (o : Option LibObj) (s : State) : (setObj id o s).ptp = s.ptp := (rfl)
@[simp] theorem setObj_dma (id : Nat) (o : Option LibObj) (s : State) : (setObj id o s).dma = s.dma := (rfl)

/-! ### modObj -/

@[simp] theorem modObj_pending (id : Nat) (f : LibObj → LibObj) (s : State) : (modObj id f s).pending = s.pending := by unfold modObj; split <;> rfl
@[simp] theorem modObj_time (id : Nat) (f : LibObj → LibObj) (s : State) : (modObj id f s).time = s.time := by unfold modObj; split <;> rfl
@[simp] theorem modObj_beat (id : Nat) (f : LibObj → LibObj) (s : State) : (modObj id f s).beat = s.beat := by unfold modObj; split <;> rfl
@[simp] theorem modObj_freeIdx (id : Nat) (f : LibObj → LibObj) (s : State) : (modObj id f s).freeIdx = s.freeIdx := by unfold modObj; split <;> rfl
@[simp] theorem modObj_regs (id : Nat) (f : LibObj → LibObj) (s : State) : (modObj id f s).regs = s.regs := by unfold modObj; split <;> rfl
@[simp] theorem modObj_shadowS (id : Nat) (f : LibObj → LibObj) (s : State) : (modObj id f s).shadowS = s.shadowS := by unfold modObj; split <;> rfl
@[simp] theorem modObj_shadowF (id : Nat) (f : LibObj → LibObj) (s : State) : (modObj id f s).shadowF = s.shadowF := by unfold modObj; split <;> rfl
@[simp] theorem modObj_mem (id : Nat) (f : LibObj → LibObj) (s : State) : (modObj id f s).mem = s.mem := by unfold modObj; split <;> rfl
@[simp] theorem modObj_ans (id : Nat) (f : LibObj → LibObj) (s : State) : (modObj id f s).ans = s.ans := by unfold modObj; split <;> rfl
@[simp] theorem modObj_net (id : Nat) (f : LibObj → LibObj) (s : State) : (modObj id f s).net = s.net := by unfold modObj; split <;> rfl
@[simp] theorem modObj_flt (id : Nat) (f : LibObj → LibObj) (s : State) : (modObj id f s).flt = s.flt := by unfold modObj; split <;> rfl
@[simp] theorem modObj_lgr (id : Nat) (f : LibObj → LibObj) (s : State) : (modObj id f s).lgr = s.lgr := by unfold modObj; split <;> rfl
@[simp] theorem modObj_img (id : Nat) (f : LibObj → LibObj) (s : State) : (modObj id f s).img = s.img := by unfold modObj; split <;> rfl
@[simp] theorem modObj_pwr (id : Nat) (f : LibObj → LibObj) (s : State) : (modObj id f s).pwr = s.pwr := by unfold modObj; split <;> rfl
@[simp] theorem modObj_sec (id : Nat) (f : LibObj → LibObj) (s : State) : (modObj id f s).sec = s.sec := by unfold modObj; split <;> rfl
@[simp] theorem modObj_dbg (id : Nat) (f : LibObj → LibObj) (s : State) : (modObj id f s).dbg = s.dbg := by unfold modObj; split <;> rfl
@[simp] theorem modObj_tb (id : Nat) (f : LibObj → LibObj) (s : State) : (modObj id f s).tb = s.tb := by unfold modObj; split <;> rfl
@[simp] theorem modObj_lanes (id : Nat) (f : LibObj → LibObj) (s : State) : (modObj id f s).lanes = s.lanes := by unfold modObj; split <;> rfl
@[simp] theorem modObj_seq (id : Nat) (f : LibObj → LibObj) (s : State) : (modObj id f s).seq = s.seq := by unfold modObj; split <;> rfl
@[simp] theorem modObj_links (id : Nat) (f : LibObj → LibObj) (s : State) : (modObj id f s).links = s.links := by unfold modObj; split <;> rfl
@[simp] theorem modObj_tst (id : Nat) (f : LibObj → LibObj) (s : State) : (modObj id f s).tst = s.tst := by unfold modObj; split <;> rfl
@[simp] theorem modObj_cmp (id : Nat) (f : LibObj → LibObj) (s : State) : (modObj id f s).cmp = s.cmp := by unfold modObj; split <;> rfl
@[simp] theorem modObj_trg (id : Nat) (f : LibObj → LibObj) (s : State) : (modObj id f s).trg = s.trg := by unfold modObj; split <;> rfl
@[simp] theorem modObj_acq (id : Nat) (f : LibObj → LibObj) (s : State) : (modObj id f s).acq = s.acq := by unfold modObj; split <;> rfl
@[simp] theorem modObj_mea (id : Nat) (f : LibObj → LibObj) (s : State) : (modObj id f s).mea = s.mea := by unfold modObj; split <;> rfl
@[simp] theorem modObj_src (id : Nat) (f : LibObj → LibObj) (s : State) : (modObj id f s).src = s.src := by unfold modObj; split <;> rfl
@[simp] theorem modObj_tdc (id : Nat) (f : LibObj → LibObj) (s : State) : (modObj id f s).tdc = s.tdc := by unfold modObj; split <;> rfl
@[simp] theorem modObj_qdr (id : Nat) (f : LibObj → LibObj) (s : State) : (modObj id f s).qdr = s.qdr := by unfold modObj; split <;> rfl
@[simp] theorem modObj_hbm (id : Nat) (f : LibObj → LibObj) (s : State) : (modObj id f s).hbm = s.hbm := by unfold modObj; split <;> rfl
@[simp] theorem modObj_sch (id : Nat) (f : LibObj → LibObj) (s : State) : (modObj id f s).sch = s.sch := by unfold modObj; split <;> rfl
@[simp] theorem modObj_ptp (id : Nat) (f : LibObj → LibObj) (s : State) : (modObj id f s).ptp = s.ptp := by unfold modObj; split <;> rfl
@[simp] theorem modObj_dma (id : Nat) (f : LibObj → LibObj) (s : State) : (modObj id f s).dma = s.dma := by unfold modObj; split <;> rfl

/-- A fault changes the collector and registers only. -/
theorem raise_shape (f : FaultRec) (s : State) : ∃ c r, raise f s = { s with flt := c, regs := r } := by
  unfold raise
  split
  · exact ⟨_, s.regs, rfl⟩
  · extract_lets cov f' o t
    cases o
    · exact ⟨_, s.regs, rfl⟩
    · exact ⟨_, _, rfl⟩

/-! ### raise -/

@[simp] theorem raise_pending (f : FaultRec) (s : State) : (raise f s).pending = s.pending := by obtain ⟨c, r, h⟩ := raise_shape f s; rw [h]
@[simp] theorem raise_time (f : FaultRec) (s : State) : (raise f s).time = s.time := by obtain ⟨c, r, h⟩ := raise_shape f s; rw [h]
@[simp] theorem raise_beat (f : FaultRec) (s : State) : (raise f s).beat = s.beat := by obtain ⟨c, r, h⟩ := raise_shape f s; rw [h]
@[simp] theorem raise_freeIdx (f : FaultRec) (s : State) : (raise f s).freeIdx = s.freeIdx := by obtain ⟨c, r, h⟩ := raise_shape f s; rw [h]
@[simp] theorem raise_shadowS (f : FaultRec) (s : State) : (raise f s).shadowS = s.shadowS := by obtain ⟨c, r, h⟩ := raise_shape f s; rw [h]
@[simp] theorem raise_shadowF (f : FaultRec) (s : State) : (raise f s).shadowF = s.shadowF := by obtain ⟨c, r, h⟩ := raise_shape f s; rw [h]
@[simp] theorem raise_mem (f : FaultRec) (s : State) : (raise f s).mem = s.mem := by obtain ⟨c, r, h⟩ := raise_shape f s; rw [h]
@[simp] theorem raise_ans (f : FaultRec) (s : State) : (raise f s).ans = s.ans := by obtain ⟨c, r, h⟩ := raise_shape f s; rw [h]
@[simp] theorem raise_net (f : FaultRec) (s : State) : (raise f s).net = s.net := by obtain ⟨c, r, h⟩ := raise_shape f s; rw [h]
@[simp] theorem raise_lgr (f : FaultRec) (s : State) : (raise f s).lgr = s.lgr := by obtain ⟨c, r, h⟩ := raise_shape f s; rw [h]
@[simp] theorem raise_img (f : FaultRec) (s : State) : (raise f s).img = s.img := by obtain ⟨c, r, h⟩ := raise_shape f s; rw [h]
@[simp] theorem raise_pwr (f : FaultRec) (s : State) : (raise f s).pwr = s.pwr := by obtain ⟨c, r, h⟩ := raise_shape f s; rw [h]
@[simp] theorem raise_sec (f : FaultRec) (s : State) : (raise f s).sec = s.sec := by obtain ⟨c, r, h⟩ := raise_shape f s; rw [h]
@[simp] theorem raise_dbg (f : FaultRec) (s : State) : (raise f s).dbg = s.dbg := by obtain ⟨c, r, h⟩ := raise_shape f s; rw [h]
@[simp] theorem raise_tb (f : FaultRec) (s : State) : (raise f s).tb = s.tb := by obtain ⟨c, r, h⟩ := raise_shape f s; rw [h]
@[simp] theorem raise_lanes (f : FaultRec) (s : State) : (raise f s).lanes = s.lanes := by obtain ⟨c, r, h⟩ := raise_shape f s; rw [h]
@[simp] theorem raise_seq (f : FaultRec) (s : State) : (raise f s).seq = s.seq := by obtain ⟨c, r, h⟩ := raise_shape f s; rw [h]
@[simp] theorem raise_links (f : FaultRec) (s : State) : (raise f s).links = s.links := by obtain ⟨c, r, h⟩ := raise_shape f s; rw [h]
@[simp] theorem raise_tst (f : FaultRec) (s : State) : (raise f s).tst = s.tst := by obtain ⟨c, r, h⟩ := raise_shape f s; rw [h]
@[simp] theorem raise_cmp (f : FaultRec) (s : State) : (raise f s).cmp = s.cmp := by obtain ⟨c, r, h⟩ := raise_shape f s; rw [h]
@[simp] theorem raise_lib (f : FaultRec) (s : State) : (raise f s).lib = s.lib := by obtain ⟨c, r, h⟩ := raise_shape f s; rw [h]
@[simp] theorem raise_trg (f : FaultRec) (s : State) : (raise f s).trg = s.trg := by obtain ⟨c, r, h⟩ := raise_shape f s; rw [h]
@[simp] theorem raise_acq (f : FaultRec) (s : State) : (raise f s).acq = s.acq := by obtain ⟨c, r, h⟩ := raise_shape f s; rw [h]
@[simp] theorem raise_mea (f : FaultRec) (s : State) : (raise f s).mea = s.mea := by obtain ⟨c, r, h⟩ := raise_shape f s; rw [h]
@[simp] theorem raise_src (f : FaultRec) (s : State) : (raise f s).src = s.src := by obtain ⟨c, r, h⟩ := raise_shape f s; rw [h]
@[simp] theorem raise_tdc (f : FaultRec) (s : State) : (raise f s).tdc = s.tdc := by obtain ⟨c, r, h⟩ := raise_shape f s; rw [h]
@[simp] theorem raise_qdr (f : FaultRec) (s : State) : (raise f s).qdr = s.qdr := by obtain ⟨c, r, h⟩ := raise_shape f s; rw [h]
@[simp] theorem raise_hbm (f : FaultRec) (s : State) : (raise f s).hbm = s.hbm := by obtain ⟨c, r, h⟩ := raise_shape f s; rw [h]
@[simp] theorem raise_sch (f : FaultRec) (s : State) : (raise f s).sch = s.sch := by obtain ⟨c, r, h⟩ := raise_shape f s; rw [h]
@[simp] theorem raise_ptp (f : FaultRec) (s : State) : (raise f s).ptp = s.ptp := by obtain ⟨c, r, h⟩ := raise_shape f s; rw [h]
@[simp] theorem raise_dma (f : FaultRec) (s : State) : (raise f s).dma = s.dma := by obtain ⟨c, r, h⟩ := raise_shape f s; rw [h]

/-! ### pushRec -/

@[simp] theorem pushRec_pending (p : Stream → Bool) (r : Rec) (s : State) : (pushRec p r s).pending = s.pending := (rfl)
@[simp] theorem pushRec_time (p : Stream → Bool) (r : Rec) (s : State) : (pushRec p r s).time = s.time := (rfl)
@[simp] theorem pushRec_beat (p : Stream → Bool) (r : Rec) (s : State) : (pushRec p r s).beat = s.beat := (rfl)
@[simp] theorem pushRec_freeIdx (p : Stream → Bool) (r : Rec) (s : State) : (pushRec p r s).freeIdx = s.freeIdx := (rfl)
@[simp] theorem pushRec_regs (p : Stream → Bool) (r : Rec) (s : State) : (pushRec p r s).regs = s.regs := (rfl)
@[simp] theorem pushRec_shadowS (p : Stream → Bool) (r : Rec) (s : State) : (pushRec p r s).shadowS = s.shadowS := (rfl)
@[simp] theorem pushRec_shadowF (p : Stream → Bool) (r : Rec) (s : State) : (pushRec p r s).shadowF = s.shadowF := (rfl)
@[simp] theorem pushRec_mem (p : Stream → Bool) (r : Rec) (s : State) : (pushRec p r s).mem = s.mem := (rfl)
@[simp] theorem pushRec_ans (p : Stream → Bool) (r : Rec) (s : State) : (pushRec p r s).ans = s.ans := (rfl)
@[simp] theorem pushRec_flt (p : Stream → Bool) (r : Rec) (s : State) : (pushRec p r s).flt = s.flt := (rfl)
@[simp] theorem pushRec_lgr (p : Stream → Bool) (r : Rec) (s : State) : (pushRec p r s).lgr = s.lgr := (rfl)
@[simp] theorem pushRec_img (p : Stream → Bool) (r : Rec) (s : State) : (pushRec p r s).img = s.img := (rfl)
@[simp] theorem pushRec_pwr (p : Stream → Bool) (r : Rec) (s : State) : (pushRec p r s).pwr = s.pwr := (rfl)
@[simp] theorem pushRec_sec (p : Stream → Bool) (r : Rec) (s : State) : (pushRec p r s).sec = s.sec := (rfl)
@[simp] theorem pushRec_dbg (p : Stream → Bool) (r : Rec) (s : State) : (pushRec p r s).dbg = s.dbg := (rfl)
@[simp] theorem pushRec_tb (p : Stream → Bool) (r : Rec) (s : State) : (pushRec p r s).tb = s.tb := (rfl)
@[simp] theorem pushRec_lanes (p : Stream → Bool) (r : Rec) (s : State) : (pushRec p r s).lanes = s.lanes := (rfl)
@[simp] theorem pushRec_seq (p : Stream → Bool) (r : Rec) (s : State) : (pushRec p r s).seq = s.seq := (rfl)
@[simp] theorem pushRec_links (p : Stream → Bool) (r : Rec) (s : State) : (pushRec p r s).links = s.links := (rfl)
@[simp] theorem pushRec_tst (p : Stream → Bool) (r : Rec) (s : State) : (pushRec p r s).tst = s.tst := (rfl)
@[simp] theorem pushRec_cmp (p : Stream → Bool) (r : Rec) (s : State) : (pushRec p r s).cmp = s.cmp := (rfl)
@[simp] theorem pushRec_lib (p : Stream → Bool) (r : Rec) (s : State) : (pushRec p r s).lib = s.lib := (rfl)
@[simp] theorem pushRec_trg (p : Stream → Bool) (r : Rec) (s : State) : (pushRec p r s).trg = s.trg := (rfl)
@[simp] theorem pushRec_acq (p : Stream → Bool) (r : Rec) (s : State) : (pushRec p r s).acq = s.acq := (rfl)
@[simp] theorem pushRec_mea (p : Stream → Bool) (r : Rec) (s : State) : (pushRec p r s).mea = s.mea := (rfl)
@[simp] theorem pushRec_src (p : Stream → Bool) (r : Rec) (s : State) : (pushRec p r s).src = s.src := (rfl)
@[simp] theorem pushRec_tdc (p : Stream → Bool) (r : Rec) (s : State) : (pushRec p r s).tdc = s.tdc := (rfl)
@[simp] theorem pushRec_qdr (p : Stream → Bool) (r : Rec) (s : State) : (pushRec p r s).qdr = s.qdr := (rfl)
@[simp] theorem pushRec_hbm (p : Stream → Bool) (r : Rec) (s : State) : (pushRec p r s).hbm = s.hbm := (rfl)
@[simp] theorem pushRec_sch (p : Stream → Bool) (r : Rec) (s : State) : (pushRec p r s).sch = s.sch := (rfl)
@[simp] theorem pushRec_ptp (p : Stream → Bool) (r : Rec) (s : State) : (pushRec p r s).ptp = s.ptp := (rfl)
@[simp] theorem pushRec_dma (p : Stream → Bool) (r : Rec) (s : State) : (pushRec p r s).dma = s.dma := (rfl)

/-! ### pushEvent -/

@[simp] theorem pushEvent_pending (source num value : Nat) (s : State) : (pushEvent source num value s).pending = s.pending := (rfl)
@[simp] theorem pushEvent_time (source num value : Nat) (s : State) : (pushEvent source num value s).time = s.time := (rfl)
@[simp] theorem pushEvent_beat (source num value : Nat) (s : State) : (pushEvent source num value s).beat = s.beat := (rfl)
@[simp] theorem pushEvent_freeIdx (source num value : Nat) (s : State) : (pushEvent source num value s).freeIdx = s.freeIdx := (rfl)
@[simp] theorem pushEvent_regs (source num value : Nat) (s : State) : (pushEvent source num value s).regs = s.regs := (rfl)
@[simp] theorem pushEvent_shadowS (source num value : Nat) (s : State) : (pushEvent source num value s).shadowS = s.shadowS := (rfl)
@[simp] theorem pushEvent_shadowF (source num value : Nat) (s : State) : (pushEvent source num value s).shadowF = s.shadowF := (rfl)
@[simp] theorem pushEvent_mem (source num value : Nat) (s : State) : (pushEvent source num value s).mem = s.mem := (rfl)
@[simp] theorem pushEvent_ans (source num value : Nat) (s : State) : (pushEvent source num value s).ans = s.ans := (rfl)
@[simp] theorem pushEvent_flt (source num value : Nat) (s : State) : (pushEvent source num value s).flt = s.flt := (rfl)
@[simp] theorem pushEvent_lgr (source num value : Nat) (s : State) : (pushEvent source num value s).lgr = s.lgr := (rfl)
@[simp] theorem pushEvent_img (source num value : Nat) (s : State) : (pushEvent source num value s).img = s.img := (rfl)
@[simp] theorem pushEvent_pwr (source num value : Nat) (s : State) : (pushEvent source num value s).pwr = s.pwr := (rfl)
@[simp] theorem pushEvent_sec (source num value : Nat) (s : State) : (pushEvent source num value s).sec = s.sec := (rfl)
@[simp] theorem pushEvent_dbg (source num value : Nat) (s : State) : (pushEvent source num value s).dbg = s.dbg := (rfl)
@[simp] theorem pushEvent_tb (source num value : Nat) (s : State) : (pushEvent source num value s).tb = s.tb := (rfl)
@[simp] theorem pushEvent_lanes (source num value : Nat) (s : State) : (pushEvent source num value s).lanes = s.lanes := (rfl)
@[simp] theorem pushEvent_seq (source num value : Nat) (s : State) : (pushEvent source num value s).seq = s.seq := (rfl)
@[simp] theorem pushEvent_links (source num value : Nat) (s : State) : (pushEvent source num value s).links = s.links := (rfl)
@[simp] theorem pushEvent_tst (source num value : Nat) (s : State) : (pushEvent source num value s).tst = s.tst := (rfl)
@[simp] theorem pushEvent_cmp (source num value : Nat) (s : State) : (pushEvent source num value s).cmp = s.cmp := (rfl)
@[simp] theorem pushEvent_lib (source num value : Nat) (s : State) : (pushEvent source num value s).lib = s.lib := (rfl)
@[simp] theorem pushEvent_trg (source num value : Nat) (s : State) : (pushEvent source num value s).trg = s.trg := (rfl)
@[simp] theorem pushEvent_acq (source num value : Nat) (s : State) : (pushEvent source num value s).acq = s.acq := (rfl)
@[simp] theorem pushEvent_mea (source num value : Nat) (s : State) : (pushEvent source num value s).mea = s.mea := (rfl)
@[simp] theorem pushEvent_src (source num value : Nat) (s : State) : (pushEvent source num value s).src = s.src := (rfl)
@[simp] theorem pushEvent_tdc (source num value : Nat) (s : State) : (pushEvent source num value s).tdc = s.tdc := (rfl)
@[simp] theorem pushEvent_qdr (source num value : Nat) (s : State) : (pushEvent source num value s).qdr = s.qdr := (rfl)
@[simp] theorem pushEvent_hbm (source num value : Nat) (s : State) : (pushEvent source num value s).hbm = s.hbm := (rfl)
@[simp] theorem pushEvent_sch (source num value : Nat) (s : State) : (pushEvent source num value s).sch = s.sch := (rfl)
@[simp] theorem pushEvent_ptp (source num value : Nat) (s : State) : (pushEvent source num value s).ptp = s.ptp := (rfl)
@[simp] theorem pushEvent_dma (source num value : Nat) (s : State) : (pushEvent source num value s).dma = s.dma := (rfl)

/-! ### markOneCopy -/

@[simp] theorem markOneCopy_pending (uc unit : Nat) (s : State) : (markOneCopy uc unit s).pending = s.pending := (rfl)
@[simp] theorem markOneCopy_time (uc unit : Nat) (s : State) : (markOneCopy uc unit s).time = s.time := (rfl)
@[simp] theorem markOneCopy_beat (uc unit : Nat) (s : State) : (markOneCopy uc unit s).beat = s.beat := (rfl)
@[simp] theorem markOneCopy_freeIdx (uc unit : Nat) (s : State) : (markOneCopy uc unit s).freeIdx = s.freeIdx := (rfl)
@[simp] theorem markOneCopy_regs (uc unit : Nat) (s : State) : (markOneCopy uc unit s).regs = s.regs := (rfl)
@[simp] theorem markOneCopy_shadowS (uc unit : Nat) (s : State) : (markOneCopy uc unit s).shadowS = s.shadowS := (rfl)
@[simp] theorem markOneCopy_shadowF (uc unit : Nat) (s : State) : (markOneCopy uc unit s).shadowF = s.shadowF := (rfl)
@[simp] theorem markOneCopy_mem (uc unit : Nat) (s : State) : (markOneCopy uc unit s).mem = s.mem := (rfl)
@[simp] theorem markOneCopy_ans (uc unit : Nat) (s : State) : (markOneCopy uc unit s).ans = s.ans := (rfl)
@[simp] theorem markOneCopy_net (uc unit : Nat) (s : State) : (markOneCopy uc unit s).net = s.net := (rfl)
@[simp] theorem markOneCopy_lgr (uc unit : Nat) (s : State) : (markOneCopy uc unit s).lgr = s.lgr := (rfl)
@[simp] theorem markOneCopy_img (uc unit : Nat) (s : State) : (markOneCopy uc unit s).img = s.img := (rfl)
@[simp] theorem markOneCopy_pwr (uc unit : Nat) (s : State) : (markOneCopy uc unit s).pwr = s.pwr := (rfl)
@[simp] theorem markOneCopy_sec (uc unit : Nat) (s : State) : (markOneCopy uc unit s).sec = s.sec := (rfl)
@[simp] theorem markOneCopy_dbg (uc unit : Nat) (s : State) : (markOneCopy uc unit s).dbg = s.dbg := (rfl)
@[simp] theorem markOneCopy_tb (uc unit : Nat) (s : State) : (markOneCopy uc unit s).tb = s.tb := (rfl)
@[simp] theorem markOneCopy_lanes (uc unit : Nat) (s : State) : (markOneCopy uc unit s).lanes = s.lanes := (rfl)
@[simp] theorem markOneCopy_seq (uc unit : Nat) (s : State) : (markOneCopy uc unit s).seq = s.seq := (rfl)
@[simp] theorem markOneCopy_links (uc unit : Nat) (s : State) : (markOneCopy uc unit s).links = s.links := (rfl)
@[simp] theorem markOneCopy_tst (uc unit : Nat) (s : State) : (markOneCopy uc unit s).tst = s.tst := (rfl)
@[simp] theorem markOneCopy_cmp (uc unit : Nat) (s : State) : (markOneCopy uc unit s).cmp = s.cmp := (rfl)
@[simp] theorem markOneCopy_lib (uc unit : Nat) (s : State) : (markOneCopy uc unit s).lib = s.lib := (rfl)
@[simp] theorem markOneCopy_trg (uc unit : Nat) (s : State) : (markOneCopy uc unit s).trg = s.trg := (rfl)
@[simp] theorem markOneCopy_acq (uc unit : Nat) (s : State) : (markOneCopy uc unit s).acq = s.acq := (rfl)
@[simp] theorem markOneCopy_mea (uc unit : Nat) (s : State) : (markOneCopy uc unit s).mea = s.mea := (rfl)
@[simp] theorem markOneCopy_src (uc unit : Nat) (s : State) : (markOneCopy uc unit s).src = s.src := (rfl)
@[simp] theorem markOneCopy_tdc (uc unit : Nat) (s : State) : (markOneCopy uc unit s).tdc = s.tdc := (rfl)
@[simp] theorem markOneCopy_qdr (uc unit : Nat) (s : State) : (markOneCopy uc unit s).qdr = s.qdr := (rfl)
@[simp] theorem markOneCopy_hbm (uc unit : Nat) (s : State) : (markOneCopy uc unit s).hbm = s.hbm := (rfl)
@[simp] theorem markOneCopy_sch (uc unit : Nat) (s : State) : (markOneCopy uc unit s).sch = s.sch := (rfl)
@[simp] theorem markOneCopy_ptp (uc unit : Nat) (s : State) : (markOneCopy uc unit s).ptp = s.ptp := (rfl)
@[simp] theorem markOneCopy_dma (uc unit : Nat) (s : State) : (markOneCopy uc unit s).dma = s.dma := (rfl)

/-! ### useSpare -/

@[simp] theorem useSpare_pending (s : State) : (useSpare s).pending = s.pending := (rfl)
@[simp] theorem useSpare_time (s : State) : (useSpare s).time = s.time := (rfl)
@[simp] theorem useSpare_beat (s : State) : (useSpare s).beat = s.beat := (rfl)
@[simp] theorem useSpare_freeIdx (s : State) : (useSpare s).freeIdx = s.freeIdx := (rfl)
@[simp] theorem useSpare_regs (s : State) : (useSpare s).regs = s.regs := (rfl)
@[simp] theorem useSpare_shadowS (s : State) : (useSpare s).shadowS = s.shadowS := (rfl)
@[simp] theorem useSpare_shadowF (s : State) : (useSpare s).shadowF = s.shadowF := (rfl)
@[simp] theorem useSpare_mem (s : State) : (useSpare s).mem = s.mem := (rfl)
@[simp] theorem useSpare_ans (s : State) : (useSpare s).ans = s.ans := (rfl)
@[simp] theorem useSpare_net (s : State) : (useSpare s).net = s.net := (rfl)
@[simp] theorem useSpare_lgr (s : State) : (useSpare s).lgr = s.lgr := (rfl)
@[simp] theorem useSpare_img (s : State) : (useSpare s).img = s.img := (rfl)
@[simp] theorem useSpare_pwr (s : State) : (useSpare s).pwr = s.pwr := (rfl)
@[simp] theorem useSpare_sec (s : State) : (useSpare s).sec = s.sec := (rfl)
@[simp] theorem useSpare_dbg (s : State) : (useSpare s).dbg = s.dbg := (rfl)
@[simp] theorem useSpare_tb (s : State) : (useSpare s).tb = s.tb := (rfl)
@[simp] theorem useSpare_lanes (s : State) : (useSpare s).lanes = s.lanes := (rfl)
@[simp] theorem useSpare_seq (s : State) : (useSpare s).seq = s.seq := (rfl)
@[simp] theorem useSpare_links (s : State) : (useSpare s).links = s.links := (rfl)
@[simp] theorem useSpare_tst (s : State) : (useSpare s).tst = s.tst := (rfl)
@[simp] theorem useSpare_cmp (s : State) : (useSpare s).cmp = s.cmp := (rfl)
@[simp] theorem useSpare_lib (s : State) : (useSpare s).lib = s.lib := (rfl)
@[simp] theorem useSpare_trg (s : State) : (useSpare s).trg = s.trg := (rfl)
@[simp] theorem useSpare_acq (s : State) : (useSpare s).acq = s.acq := (rfl)
@[simp] theorem useSpare_mea (s : State) : (useSpare s).mea = s.mea := (rfl)
@[simp] theorem useSpare_src (s : State) : (useSpare s).src = s.src := (rfl)
@[simp] theorem useSpare_tdc (s : State) : (useSpare s).tdc = s.tdc := (rfl)
@[simp] theorem useSpare_qdr (s : State) : (useSpare s).qdr = s.qdr := (rfl)
@[simp] theorem useSpare_hbm (s : State) : (useSpare s).hbm = s.hbm := (rfl)
@[simp] theorem useSpare_sch (s : State) : (useSpare s).sch = s.sch := (rfl)
@[simp] theorem useSpare_ptp (s : State) : (useSpare s).ptp = s.ptp := (rfl)
@[simp] theorem useSpare_dma (s : State) : (useSpare s).dma = s.dma := (rfl)

/-! ### fenceUnit -/

@[simp] theorem fenceUnit_pending (uc unit : Nat) (s : State) : (fenceUnit uc unit s).pending = s.pending := (rfl)
@[simp] theorem fenceUnit_time (uc unit : Nat) (s : State) : (fenceUnit uc unit s).time = s.time := (rfl)
@[simp] theorem fenceUnit_beat (uc unit : Nat) (s : State) : (fenceUnit uc unit s).beat = s.beat := (rfl)
@[simp] theorem fenceUnit_freeIdx (uc unit : Nat) (s : State) : (fenceUnit uc unit s).freeIdx = s.freeIdx := (rfl)
@[simp] theorem fenceUnit_regs (uc unit : Nat) (s : State) : (fenceUnit uc unit s).regs = s.regs := (rfl)
@[simp] theorem fenceUnit_shadowS (uc unit : Nat) (s : State) : (fenceUnit uc unit s).shadowS = s.shadowS := (rfl)
@[simp] theorem fenceUnit_shadowF (uc unit : Nat) (s : State) : (fenceUnit uc unit s).shadowF = s.shadowF := (rfl)
@[simp] theorem fenceUnit_mem (uc unit : Nat) (s : State) : (fenceUnit uc unit s).mem = s.mem := (rfl)
@[simp] theorem fenceUnit_ans (uc unit : Nat) (s : State) : (fenceUnit uc unit s).ans = s.ans := (rfl)
@[simp] theorem fenceUnit_net (uc unit : Nat) (s : State) : (fenceUnit uc unit s).net = s.net := (rfl)
@[simp] theorem fenceUnit_lgr (uc unit : Nat) (s : State) : (fenceUnit uc unit s).lgr = s.lgr := (rfl)
@[simp] theorem fenceUnit_img (uc unit : Nat) (s : State) : (fenceUnit uc unit s).img = s.img := (rfl)
@[simp] theorem fenceUnit_pwr (uc unit : Nat) (s : State) : (fenceUnit uc unit s).pwr = s.pwr := (rfl)
@[simp] theorem fenceUnit_sec (uc unit : Nat) (s : State) : (fenceUnit uc unit s).sec = s.sec := (rfl)
@[simp] theorem fenceUnit_dbg (uc unit : Nat) (s : State) : (fenceUnit uc unit s).dbg = s.dbg := (rfl)
@[simp] theorem fenceUnit_tb (uc unit : Nat) (s : State) : (fenceUnit uc unit s).tb = s.tb := (rfl)
@[simp] theorem fenceUnit_lanes (uc unit : Nat) (s : State) : (fenceUnit uc unit s).lanes = s.lanes := (rfl)
@[simp] theorem fenceUnit_seq (uc unit : Nat) (s : State) : (fenceUnit uc unit s).seq = s.seq := (rfl)
@[simp] theorem fenceUnit_links (uc unit : Nat) (s : State) : (fenceUnit uc unit s).links = s.links := (rfl)
@[simp] theorem fenceUnit_tst (uc unit : Nat) (s : State) : (fenceUnit uc unit s).tst = s.tst := (rfl)
@[simp] theorem fenceUnit_cmp (uc unit : Nat) (s : State) : (fenceUnit uc unit s).cmp = s.cmp := (rfl)
@[simp] theorem fenceUnit_lib (uc unit : Nat) (s : State) : (fenceUnit uc unit s).lib = s.lib := (rfl)
@[simp] theorem fenceUnit_trg (uc unit : Nat) (s : State) : (fenceUnit uc unit s).trg = s.trg := (rfl)
@[simp] theorem fenceUnit_acq (uc unit : Nat) (s : State) : (fenceUnit uc unit s).acq = s.acq := (rfl)
@[simp] theorem fenceUnit_mea (uc unit : Nat) (s : State) : (fenceUnit uc unit s).mea = s.mea := (rfl)
@[simp] theorem fenceUnit_src (uc unit : Nat) (s : State) : (fenceUnit uc unit s).src = s.src := (rfl)
@[simp] theorem fenceUnit_tdc (uc unit : Nat) (s : State) : (fenceUnit uc unit s).tdc = s.tdc := (rfl)
@[simp] theorem fenceUnit_qdr (uc unit : Nat) (s : State) : (fenceUnit uc unit s).qdr = s.qdr := (rfl)
@[simp] theorem fenceUnit_hbm (uc unit : Nat) (s : State) : (fenceUnit uc unit s).hbm = s.hbm := (rfl)
@[simp] theorem fenceUnit_sch (uc unit : Nat) (s : State) : (fenceUnit uc unit s).sch = s.sch := (rfl)
@[simp] theorem fenceUnit_ptp (uc unit : Nat) (s : State) : (fenceUnit uc unit s).ptp = s.ptp := (rfl)
@[simp] theorem fenceUnit_dma (uc unit : Nat) (s : State) : (fenceUnit uc unit s).dma = s.dma := (rfl)

/-! ### setCtx -/

@[simp] theorem setCtx_pending (c : Nat) (x : Ctx) (s : State) : (setCtx c x s).pending = s.pending := (rfl)
@[simp] theorem setCtx_time (c : Nat) (x : Ctx) (s : State) : (setCtx c x s).time = s.time := (rfl)
@[simp] theorem setCtx_beat (c : Nat) (x : Ctx) (s : State) : (setCtx c x s).beat = s.beat := (rfl)
@[simp] theorem setCtx_freeIdx (c : Nat) (x : Ctx) (s : State) : (setCtx c x s).freeIdx = s.freeIdx := (rfl)
@[simp] theorem setCtx_shadowS (c : Nat) (x : Ctx) (s : State) : (setCtx c x s).shadowS = s.shadowS := (rfl)
@[simp] theorem setCtx_shadowF (c : Nat) (x : Ctx) (s : State) : (setCtx c x s).shadowF = s.shadowF := (rfl)
@[simp] theorem setCtx_mem (c : Nat) (x : Ctx) (s : State) : (setCtx c x s).mem = s.mem := (rfl)
@[simp] theorem setCtx_ans (c : Nat) (x : Ctx) (s : State) : (setCtx c x s).ans = s.ans := (rfl)
@[simp] theorem setCtx_net (c : Nat) (x : Ctx) (s : State) : (setCtx c x s).net = s.net := (rfl)
@[simp] theorem setCtx_flt (c : Nat) (x : Ctx) (s : State) : (setCtx c x s).flt = s.flt := (rfl)
@[simp] theorem setCtx_lgr (c : Nat) (x : Ctx) (s : State) : (setCtx c x s).lgr = s.lgr := (rfl)
@[simp] theorem setCtx_img (c : Nat) (x : Ctx) (s : State) : (setCtx c x s).img = s.img := (rfl)
@[simp] theorem setCtx_pwr (c : Nat) (x : Ctx) (s : State) : (setCtx c x s).pwr = s.pwr := (rfl)
@[simp] theorem setCtx_sec (c : Nat) (x : Ctx) (s : State) : (setCtx c x s).sec = s.sec := (rfl)
@[simp] theorem setCtx_dbg (c : Nat) (x : Ctx) (s : State) : (setCtx c x s).dbg = s.dbg := (rfl)
@[simp] theorem setCtx_tb (c : Nat) (x : Ctx) (s : State) : (setCtx c x s).tb = s.tb := (rfl)
@[simp] theorem setCtx_lanes (c : Nat) (x : Ctx) (s : State) : (setCtx c x s).lanes = s.lanes := (rfl)
@[simp] theorem setCtx_links (c : Nat) (x : Ctx) (s : State) : (setCtx c x s).links = s.links := (rfl)
@[simp] theorem setCtx_tst (c : Nat) (x : Ctx) (s : State) : (setCtx c x s).tst = s.tst := (rfl)
@[simp] theorem setCtx_cmp (c : Nat) (x : Ctx) (s : State) : (setCtx c x s).cmp = s.cmp := (rfl)
@[simp] theorem setCtx_lib (c : Nat) (x : Ctx) (s : State) : (setCtx c x s).lib = s.lib := (rfl)
@[simp] theorem setCtx_trg (c : Nat) (x : Ctx) (s : State) : (setCtx c x s).trg = s.trg := (rfl)
@[simp] theorem setCtx_acq (c : Nat) (x : Ctx) (s : State) : (setCtx c x s).acq = s.acq := (rfl)
@[simp] theorem setCtx_mea (c : Nat) (x : Ctx) (s : State) : (setCtx c x s).mea = s.mea := (rfl)
@[simp] theorem setCtx_src (c : Nat) (x : Ctx) (s : State) : (setCtx c x s).src = s.src := (rfl)
@[simp] theorem setCtx_tdc (c : Nat) (x : Ctx) (s : State) : (setCtx c x s).tdc = s.tdc := (rfl)
@[simp] theorem setCtx_qdr (c : Nat) (x : Ctx) (s : State) : (setCtx c x s).qdr = s.qdr := (rfl)
@[simp] theorem setCtx_hbm (c : Nat) (x : Ctx) (s : State) : (setCtx c x s).hbm = s.hbm := (rfl)
@[simp] theorem setCtx_sch (c : Nat) (x : Ctx) (s : State) : (setCtx c x s).sch = s.sch := (rfl)
@[simp] theorem setCtx_ptp (c : Nat) (x : Ctx) (s : State) : (setCtx c x s).ptp = s.ptp := (rfl)
@[simp] theorem setCtx_dma (c : Nat) (x : Ctx) (s : State) : (setCtx c x s).dma = s.dma := (rfl)

/-! ### modCtx -/

@[simp] theorem modCtx_pending (c : Nat) (f : Ctx → Ctx) (s : State) : (modCtx c f s).pending = s.pending := (rfl)
@[simp] theorem modCtx_time (c : Nat) (f : Ctx → Ctx) (s : State) : (modCtx c f s).time = s.time := (rfl)
@[simp] theorem modCtx_beat (c : Nat) (f : Ctx → Ctx) (s : State) : (modCtx c f s).beat = s.beat := (rfl)
@[simp] theorem modCtx_freeIdx (c : Nat) (f : Ctx → Ctx) (s : State) : (modCtx c f s).freeIdx = s.freeIdx := (rfl)
@[simp] theorem modCtx_shadowS (c : Nat) (f : Ctx → Ctx) (s : State) : (modCtx c f s).shadowS = s.shadowS := (rfl)
@[simp] theorem modCtx_shadowF (c : Nat) (f : Ctx → Ctx) (s : State) : (modCtx c f s).shadowF = s.shadowF := (rfl)
@[simp] theorem modCtx_mem (c : Nat) (f : Ctx → Ctx) (s : State) : (modCtx c f s).mem = s.mem := (rfl)
@[simp] theorem modCtx_ans (c : Nat) (f : Ctx → Ctx) (s : State) : (modCtx c f s).ans = s.ans := (rfl)
@[simp] theorem modCtx_net (c : Nat) (f : Ctx → Ctx) (s : State) : (modCtx c f s).net = s.net := (rfl)
@[simp] theorem modCtx_flt (c : Nat) (f : Ctx → Ctx) (s : State) : (modCtx c f s).flt = s.flt := (rfl)
@[simp] theorem modCtx_lgr (c : Nat) (f : Ctx → Ctx) (s : State) : (modCtx c f s).lgr = s.lgr := (rfl)
@[simp] theorem modCtx_img (c : Nat) (f : Ctx → Ctx) (s : State) : (modCtx c f s).img = s.img := (rfl)
@[simp] theorem modCtx_pwr (c : Nat) (f : Ctx → Ctx) (s : State) : (modCtx c f s).pwr = s.pwr := (rfl)
@[simp] theorem modCtx_sec (c : Nat) (f : Ctx → Ctx) (s : State) : (modCtx c f s).sec = s.sec := (rfl)
@[simp] theorem modCtx_dbg (c : Nat) (f : Ctx → Ctx) (s : State) : (modCtx c f s).dbg = s.dbg := (rfl)
@[simp] theorem modCtx_tb (c : Nat) (f : Ctx → Ctx) (s : State) : (modCtx c f s).tb = s.tb := (rfl)
@[simp] theorem modCtx_lanes (c : Nat) (f : Ctx → Ctx) (s : State) : (modCtx c f s).lanes = s.lanes := (rfl)
@[simp] theorem modCtx_links (c : Nat) (f : Ctx → Ctx) (s : State) : (modCtx c f s).links = s.links := (rfl)
@[simp] theorem modCtx_tst (c : Nat) (f : Ctx → Ctx) (s : State) : (modCtx c f s).tst = s.tst := (rfl)
@[simp] theorem modCtx_cmp (c : Nat) (f : Ctx → Ctx) (s : State) : (modCtx c f s).cmp = s.cmp := (rfl)
@[simp] theorem modCtx_lib (c : Nat) (f : Ctx → Ctx) (s : State) : (modCtx c f s).lib = s.lib := (rfl)
@[simp] theorem modCtx_trg (c : Nat) (f : Ctx → Ctx) (s : State) : (modCtx c f s).trg = s.trg := (rfl)
@[simp] theorem modCtx_acq (c : Nat) (f : Ctx → Ctx) (s : State) : (modCtx c f s).acq = s.acq := (rfl)
@[simp] theorem modCtx_mea (c : Nat) (f : Ctx → Ctx) (s : State) : (modCtx c f s).mea = s.mea := (rfl)
@[simp] theorem modCtx_src (c : Nat) (f : Ctx → Ctx) (s : State) : (modCtx c f s).src = s.src := (rfl)
@[simp] theorem modCtx_tdc (c : Nat) (f : Ctx → Ctx) (s : State) : (modCtx c f s).tdc = s.tdc := (rfl)
@[simp] theorem modCtx_qdr (c : Nat) (f : Ctx → Ctx) (s : State) : (modCtx c f s).qdr = s.qdr := (rfl)
@[simp] theorem modCtx_hbm (c : Nat) (f : Ctx → Ctx) (s : State) : (modCtx c f s).hbm = s.hbm := (rfl)
@[simp] theorem modCtx_sch (c : Nat) (f : Ctx → Ctx) (s : State) : (modCtx c f s).sch = s.sch := (rfl)
@[simp] theorem modCtx_ptp (c : Nat) (f : Ctx → Ctx) (s : State) : (modCtx c f s).ptp = s.ptp := (rfl)
@[simp] theorem modCtx_dma (c : Nat) (f : Ctx → Ctx) (s : State) : (modCtx c f s).dma = s.dma := (rfl)

/-! ### modLink -/

@[simp] theorem modLink_pending (g : Nat) (f : Link → Link) (s : State) : (modLink g f s).pending = s.pending := (rfl)
@[simp] theorem modLink_time (g : Nat) (f : Link → Link) (s : State) : (modLink g f s).time = s.time := (rfl)
@[simp] theorem modLink_beat (g : Nat) (f : Link → Link) (s : State) : (modLink g f s).beat = s.beat := (rfl)
@[simp] theorem modLink_freeIdx (g : Nat) (f : Link → Link) (s : State) : (modLink g f s).freeIdx = s.freeIdx := (rfl)
@[simp] theorem modLink_regs (g : Nat) (f : Link → Link) (s : State) : (modLink g f s).regs = s.regs := (rfl)
@[simp] theorem modLink_shadowS (g : Nat) (f : Link → Link) (s : State) : (modLink g f s).shadowS = s.shadowS := (rfl)
@[simp] theorem modLink_shadowF (g : Nat) (f : Link → Link) (s : State) : (modLink g f s).shadowF = s.shadowF := (rfl)
@[simp] theorem modLink_mem (g : Nat) (f : Link → Link) (s : State) : (modLink g f s).mem = s.mem := (rfl)
@[simp] theorem modLink_ans (g : Nat) (f : Link → Link) (s : State) : (modLink g f s).ans = s.ans := (rfl)
@[simp] theorem modLink_net (g : Nat) (f : Link → Link) (s : State) : (modLink g f s).net = s.net := (rfl)
@[simp] theorem modLink_flt (g : Nat) (f : Link → Link) (s : State) : (modLink g f s).flt = s.flt := (rfl)
@[simp] theorem modLink_lgr (g : Nat) (f : Link → Link) (s : State) : (modLink g f s).lgr = s.lgr := (rfl)
@[simp] theorem modLink_img (g : Nat) (f : Link → Link) (s : State) : (modLink g f s).img = s.img := (rfl)
@[simp] theorem modLink_pwr (g : Nat) (f : Link → Link) (s : State) : (modLink g f s).pwr = s.pwr := (rfl)
@[simp] theorem modLink_sec (g : Nat) (f : Link → Link) (s : State) : (modLink g f s).sec = s.sec := (rfl)
@[simp] theorem modLink_dbg (g : Nat) (f : Link → Link) (s : State) : (modLink g f s).dbg = s.dbg := (rfl)
@[simp] theorem modLink_tb (g : Nat) (f : Link → Link) (s : State) : (modLink g f s).tb = s.tb := (rfl)
@[simp] theorem modLink_lanes (g : Nat) (f : Link → Link) (s : State) : (modLink g f s).lanes = s.lanes := (rfl)
@[simp] theorem modLink_seq (g : Nat) (f : Link → Link) (s : State) : (modLink g f s).seq = s.seq := (rfl)
@[simp] theorem modLink_tst (g : Nat) (f : Link → Link) (s : State) : (modLink g f s).tst = s.tst := (rfl)
@[simp] theorem modLink_cmp (g : Nat) (f : Link → Link) (s : State) : (modLink g f s).cmp = s.cmp := (rfl)
@[simp] theorem modLink_lib (g : Nat) (f : Link → Link) (s : State) : (modLink g f s).lib = s.lib := (rfl)
@[simp] theorem modLink_trg (g : Nat) (f : Link → Link) (s : State) : (modLink g f s).trg = s.trg := (rfl)
@[simp] theorem modLink_acq (g : Nat) (f : Link → Link) (s : State) : (modLink g f s).acq = s.acq := (rfl)
@[simp] theorem modLink_mea (g : Nat) (f : Link → Link) (s : State) : (modLink g f s).mea = s.mea := (rfl)
@[simp] theorem modLink_src (g : Nat) (f : Link → Link) (s : State) : (modLink g f s).src = s.src := (rfl)
@[simp] theorem modLink_tdc (g : Nat) (f : Link → Link) (s : State) : (modLink g f s).tdc = s.tdc := (rfl)
@[simp] theorem modLink_qdr (g : Nat) (f : Link → Link) (s : State) : (modLink g f s).qdr = s.qdr := (rfl)
@[simp] theorem modLink_hbm (g : Nat) (f : Link → Link) (s : State) : (modLink g f s).hbm = s.hbm := (rfl)
@[simp] theorem modLink_sch (g : Nat) (f : Link → Link) (s : State) : (modLink g f s).sch = s.sch := (rfl)
@[simp] theorem modLink_ptp (g : Nat) (f : Link → Link) (s : State) : (modLink g f s).ptp = s.ptp := (rfl)
@[simp] theorem modLink_dma (g : Nat) (f : Link → Link) (s : State) : (modLink g f s).dma = s.dma := (rfl)

/-! ### shadowSet -/

@[simp] theorem shadowSet_pending (a : Nat) (v : Word) (s : State) : (shadowSet a v s).pending = s.pending := (rfl)
@[simp] theorem shadowSet_time (a : Nat) (v : Word) (s : State) : (shadowSet a v s).time = s.time := (rfl)
@[simp] theorem shadowSet_beat (a : Nat) (v : Word) (s : State) : (shadowSet a v s).beat = s.beat := (rfl)
@[simp] theorem shadowSet_freeIdx (a : Nat) (v : Word) (s : State) : (shadowSet a v s).freeIdx = s.freeIdx := (rfl)
@[simp] theorem shadowSet_regs (a : Nat) (v : Word) (s : State) : (shadowSet a v s).regs = s.regs := (rfl)
@[simp] theorem shadowSet_shadowF (a : Nat) (v : Word) (s : State) : (shadowSet a v s).shadowF = s.shadowF := (rfl)
@[simp] theorem shadowSet_mem (a : Nat) (v : Word) (s : State) : (shadowSet a v s).mem = s.mem := (rfl)
@[simp] theorem shadowSet_ans (a : Nat) (v : Word) (s : State) : (shadowSet a v s).ans = s.ans := (rfl)
@[simp] theorem shadowSet_net (a : Nat) (v : Word) (s : State) : (shadowSet a v s).net = s.net := (rfl)
@[simp] theorem shadowSet_flt (a : Nat) (v : Word) (s : State) : (shadowSet a v s).flt = s.flt := (rfl)
@[simp] theorem shadowSet_lgr (a : Nat) (v : Word) (s : State) : (shadowSet a v s).lgr = s.lgr := (rfl)
@[simp] theorem shadowSet_img (a : Nat) (v : Word) (s : State) : (shadowSet a v s).img = s.img := (rfl)
@[simp] theorem shadowSet_pwr (a : Nat) (v : Word) (s : State) : (shadowSet a v s).pwr = s.pwr := (rfl)
@[simp] theorem shadowSet_sec (a : Nat) (v : Word) (s : State) : (shadowSet a v s).sec = s.sec := (rfl)
@[simp] theorem shadowSet_dbg (a : Nat) (v : Word) (s : State) : (shadowSet a v s).dbg = s.dbg := (rfl)
@[simp] theorem shadowSet_tb (a : Nat) (v : Word) (s : State) : (shadowSet a v s).tb = s.tb := (rfl)
@[simp] theorem shadowSet_lanes (a : Nat) (v : Word) (s : State) : (shadowSet a v s).lanes = s.lanes := (rfl)
@[simp] theorem shadowSet_seq (a : Nat) (v : Word) (s : State) : (shadowSet a v s).seq = s.seq := (rfl)
@[simp] theorem shadowSet_links (a : Nat) (v : Word) (s : State) : (shadowSet a v s).links = s.links := (rfl)
@[simp] theorem shadowSet_tst (a : Nat) (v : Word) (s : State) : (shadowSet a v s).tst = s.tst := (rfl)
@[simp] theorem shadowSet_cmp (a : Nat) (v : Word) (s : State) : (shadowSet a v s).cmp = s.cmp := (rfl)
@[simp] theorem shadowSet_lib (a : Nat) (v : Word) (s : State) : (shadowSet a v s).lib = s.lib := (rfl)
@[simp] theorem shadowSet_trg (a : Nat) (v : Word) (s : State) : (shadowSet a v s).trg = s.trg := (rfl)
@[simp] theorem shadowSet_acq (a : Nat) (v : Word) (s : State) : (shadowSet a v s).acq = s.acq := (rfl)
@[simp] theorem shadowSet_mea (a : Nat) (v : Word) (s : State) : (shadowSet a v s).mea = s.mea := (rfl)
@[simp] theorem shadowSet_src (a : Nat) (v : Word) (s : State) : (shadowSet a v s).src = s.src := (rfl)
@[simp] theorem shadowSet_tdc (a : Nat) (v : Word) (s : State) : (shadowSet a v s).tdc = s.tdc := (rfl)
@[simp] theorem shadowSet_qdr (a : Nat) (v : Word) (s : State) : (shadowSet a v s).qdr = s.qdr := (rfl)
@[simp] theorem shadowSet_hbm (a : Nat) (v : Word) (s : State) : (shadowSet a v s).hbm = s.hbm := (rfl)
@[simp] theorem shadowSet_sch (a : Nat) (v : Word) (s : State) : (shadowSet a v s).sch = s.sch := (rfl)
@[simp] theorem shadowSet_ptp (a : Nat) (v : Word) (s : State) : (shadowSet a v s).ptp = s.ptp := (rfl)
@[simp] theorem shadowSet_dma (a : Nat) (v : Word) (s : State) : (shadowSet a v s).dma = s.dma := (rfl)

/-! ### shadowFset -/

@[simp] theorem shadowFset_pending (a : Nat) (v : Word) (s : State) : (shadowFset a v s).pending = s.pending := (rfl)
@[simp] theorem shadowFset_time (a : Nat) (v : Word) (s : State) : (shadowFset a v s).time = s.time := (rfl)
@[simp] theorem shadowFset_beat (a : Nat) (v : Word) (s : State) : (shadowFset a v s).beat = s.beat := (rfl)
@[simp] theorem shadowFset_freeIdx (a : Nat) (v : Word) (s : State) : (shadowFset a v s).freeIdx = s.freeIdx := (rfl)
@[simp] theorem shadowFset_regs (a : Nat) (v : Word) (s : State) : (shadowFset a v s).regs = s.regs := (rfl)
@[simp] theorem shadowFset_shadowS (a : Nat) (v : Word) (s : State) : (shadowFset a v s).shadowS = s.shadowS := (rfl)
@[simp] theorem shadowFset_mem (a : Nat) (v : Word) (s : State) : (shadowFset a v s).mem = s.mem := (rfl)
@[simp] theorem shadowFset_ans (a : Nat) (v : Word) (s : State) : (shadowFset a v s).ans = s.ans := (rfl)
@[simp] theorem shadowFset_net (a : Nat) (v : Word) (s : State) : (shadowFset a v s).net = s.net := (rfl)
@[simp] theorem shadowFset_flt (a : Nat) (v : Word) (s : State) : (shadowFset a v s).flt = s.flt := (rfl)
@[simp] theorem shadowFset_lgr (a : Nat) (v : Word) (s : State) : (shadowFset a v s).lgr = s.lgr := (rfl)
@[simp] theorem shadowFset_img (a : Nat) (v : Word) (s : State) : (shadowFset a v s).img = s.img := (rfl)
@[simp] theorem shadowFset_pwr (a : Nat) (v : Word) (s : State) : (shadowFset a v s).pwr = s.pwr := (rfl)
@[simp] theorem shadowFset_sec (a : Nat) (v : Word) (s : State) : (shadowFset a v s).sec = s.sec := (rfl)
@[simp] theorem shadowFset_dbg (a : Nat) (v : Word) (s : State) : (shadowFset a v s).dbg = s.dbg := (rfl)
@[simp] theorem shadowFset_tb (a : Nat) (v : Word) (s : State) : (shadowFset a v s).tb = s.tb := (rfl)
@[simp] theorem shadowFset_lanes (a : Nat) (v : Word) (s : State) : (shadowFset a v s).lanes = s.lanes := (rfl)
@[simp] theorem shadowFset_seq (a : Nat) (v : Word) (s : State) : (shadowFset a v s).seq = s.seq := (rfl)
@[simp] theorem shadowFset_links (a : Nat) (v : Word) (s : State) : (shadowFset a v s).links = s.links := (rfl)
@[simp] theorem shadowFset_tst (a : Nat) (v : Word) (s : State) : (shadowFset a v s).tst = s.tst := (rfl)
@[simp] theorem shadowFset_cmp (a : Nat) (v : Word) (s : State) : (shadowFset a v s).cmp = s.cmp := (rfl)
@[simp] theorem shadowFset_lib (a : Nat) (v : Word) (s : State) : (shadowFset a v s).lib = s.lib := (rfl)
@[simp] theorem shadowFset_trg (a : Nat) (v : Word) (s : State) : (shadowFset a v s).trg = s.trg := (rfl)
@[simp] theorem shadowFset_acq (a : Nat) (v : Word) (s : State) : (shadowFset a v s).acq = s.acq := (rfl)
@[simp] theorem shadowFset_mea (a : Nat) (v : Word) (s : State) : (shadowFset a v s).mea = s.mea := (rfl)
@[simp] theorem shadowFset_src (a : Nat) (v : Word) (s : State) : (shadowFset a v s).src = s.src := (rfl)
@[simp] theorem shadowFset_tdc (a : Nat) (v : Word) (s : State) : (shadowFset a v s).tdc = s.tdc := (rfl)
@[simp] theorem shadowFset_qdr (a : Nat) (v : Word) (s : State) : (shadowFset a v s).qdr = s.qdr := (rfl)
@[simp] theorem shadowFset_hbm (a : Nat) (v : Word) (s : State) : (shadowFset a v s).hbm = s.hbm := (rfl)
@[simp] theorem shadowFset_sch (a : Nat) (v : Word) (s : State) : (shadowFset a v s).sch = s.sch := (rfl)
@[simp] theorem shadowFset_ptp (a : Nat) (v : Word) (s : State) : (shadowFset a v s).ptp = s.ptp := (rfl)
@[simp] theorem shadowFset_dma (a : Nat) (v : Word) (s : State) : (shadowFset a v s).dma = s.dma := (rfl)

/-! ### answerData -/

@[simp] theorem answerData_pending (w : Word) (s : State) : (answerData w s).pending = s.pending := (rfl)
@[simp] theorem answerData_time (w : Word) (s : State) : (answerData w s).time = s.time := (rfl)
@[simp] theorem answerData_beat (w : Word) (s : State) : (answerData w s).beat = s.beat := (rfl)
@[simp] theorem answerData_freeIdx (w : Word) (s : State) : (answerData w s).freeIdx = s.freeIdx := (rfl)
@[simp] theorem answerData_regs (w : Word) (s : State) : (answerData w s).regs = s.regs := (rfl)
@[simp] theorem answerData_shadowS (w : Word) (s : State) : (answerData w s).shadowS = s.shadowS := (rfl)
@[simp] theorem answerData_shadowF (w : Word) (s : State) : (answerData w s).shadowF = s.shadowF := (rfl)
@[simp] theorem answerData_mem (w : Word) (s : State) : (answerData w s).mem = s.mem := (rfl)
@[simp] theorem answerData_net (w : Word) (s : State) : (answerData w s).net = s.net := (rfl)
@[simp] theorem answerData_flt (w : Word) (s : State) : (answerData w s).flt = s.flt := (rfl)
@[simp] theorem answerData_lgr (w : Word) (s : State) : (answerData w s).lgr = s.lgr := (rfl)
@[simp] theorem answerData_img (w : Word) (s : State) : (answerData w s).img = s.img := (rfl)
@[simp] theorem answerData_pwr (w : Word) (s : State) : (answerData w s).pwr = s.pwr := (rfl)
@[simp] theorem answerData_sec (w : Word) (s : State) : (answerData w s).sec = s.sec := (rfl)
@[simp] theorem answerData_dbg (w : Word) (s : State) : (answerData w s).dbg = s.dbg := (rfl)
@[simp] theorem answerData_tb (w : Word) (s : State) : (answerData w s).tb = s.tb := (rfl)
@[simp] theorem answerData_lanes (w : Word) (s : State) : (answerData w s).lanes = s.lanes := (rfl)
@[simp] theorem answerData_seq (w : Word) (s : State) : (answerData w s).seq = s.seq := (rfl)
@[simp] theorem answerData_links (w : Word) (s : State) : (answerData w s).links = s.links := (rfl)
@[simp] theorem answerData_tst (w : Word) (s : State) : (answerData w s).tst = s.tst := (rfl)
@[simp] theorem answerData_cmp (w : Word) (s : State) : (answerData w s).cmp = s.cmp := (rfl)
@[simp] theorem answerData_lib (w : Word) (s : State) : (answerData w s).lib = s.lib := (rfl)
@[simp] theorem answerData_trg (w : Word) (s : State) : (answerData w s).trg = s.trg := (rfl)
@[simp] theorem answerData_acq (w : Word) (s : State) : (answerData w s).acq = s.acq := (rfl)
@[simp] theorem answerData_mea (w : Word) (s : State) : (answerData w s).mea = s.mea := (rfl)
@[simp] theorem answerData_src (w : Word) (s : State) : (answerData w s).src = s.src := (rfl)
@[simp] theorem answerData_tdc (w : Word) (s : State) : (answerData w s).tdc = s.tdc := (rfl)
@[simp] theorem answerData_qdr (w : Word) (s : State) : (answerData w s).qdr = s.qdr := (rfl)
@[simp] theorem answerData_hbm (w : Word) (s : State) : (answerData w s).hbm = s.hbm := (rfl)
@[simp] theorem answerData_sch (w : Word) (s : State) : (answerData w s).sch = s.sch := (rfl)
@[simp] theorem answerData_ptp (w : Word) (s : State) : (answerData w s).ptp = s.ptp := (rfl)
@[simp] theorem answerData_dma (w : Word) (s : State) : (answerData w s).dma = s.dma := (rfl)

/-! ### modSess -/

@[simp] theorem modSess_pending (k : Nat) (f : Session → Session) (s : State) : (modSess k f s).pending = s.pending := (rfl)
@[simp] theorem modSess_time (k : Nat) (f : Session → Session) (s : State) : (modSess k f s).time = s.time := (rfl)
@[simp] theorem modSess_beat (k : Nat) (f : Session → Session) (s : State) : (modSess k f s).beat = s.beat := (rfl)
@[simp] theorem modSess_freeIdx (k : Nat) (f : Session → Session) (s : State) : (modSess k f s).freeIdx = s.freeIdx := (rfl)
@[simp] theorem modSess_regs (k : Nat) (f : Session → Session) (s : State) : (modSess k f s).regs = s.regs := (rfl)
@[simp] theorem modSess_shadowS (k : Nat) (f : Session → Session) (s : State) : (modSess k f s).shadowS = s.shadowS := (rfl)
@[simp] theorem modSess_shadowF (k : Nat) (f : Session → Session) (s : State) : (modSess k f s).shadowF = s.shadowF := (rfl)
@[simp] theorem modSess_mem (k : Nat) (f : Session → Session) (s : State) : (modSess k f s).mem = s.mem := (rfl)
@[simp] theorem modSess_ans (k : Nat) (f : Session → Session) (s : State) : (modSess k f s).ans = s.ans := (rfl)
@[simp] theorem modSess_flt (k : Nat) (f : Session → Session) (s : State) : (modSess k f s).flt = s.flt := (rfl)
@[simp] theorem modSess_lgr (k : Nat) (f : Session → Session) (s : State) : (modSess k f s).lgr = s.lgr := (rfl)
@[simp] theorem modSess_img (k : Nat) (f : Session → Session) (s : State) : (modSess k f s).img = s.img := (rfl)
@[simp] theorem modSess_pwr (k : Nat) (f : Session → Session) (s : State) : (modSess k f s).pwr = s.pwr := (rfl)
@[simp] theorem modSess_sec (k : Nat) (f : Session → Session) (s : State) : (modSess k f s).sec = s.sec := (rfl)
@[simp] theorem modSess_dbg (k : Nat) (f : Session → Session) (s : State) : (modSess k f s).dbg = s.dbg := (rfl)
@[simp] theorem modSess_tb (k : Nat) (f : Session → Session) (s : State) : (modSess k f s).tb = s.tb := (rfl)
@[simp] theorem modSess_lanes (k : Nat) (f : Session → Session) (s : State) : (modSess k f s).lanes = s.lanes := (rfl)
@[simp] theorem modSess_seq (k : Nat) (f : Session → Session) (s : State) : (modSess k f s).seq = s.seq := (rfl)
@[simp] theorem modSess_links (k : Nat) (f : Session → Session) (s : State) : (modSess k f s).links = s.links := (rfl)
@[simp] theorem modSess_tst (k : Nat) (f : Session → Session) (s : State) : (modSess k f s).tst = s.tst := (rfl)
@[simp] theorem modSess_cmp (k : Nat) (f : Session → Session) (s : State) : (modSess k f s).cmp = s.cmp := (rfl)
@[simp] theorem modSess_lib (k : Nat) (f : Session → Session) (s : State) : (modSess k f s).lib = s.lib := (rfl)
@[simp] theorem modSess_trg (k : Nat) (f : Session → Session) (s : State) : (modSess k f s).trg = s.trg := (rfl)
@[simp] theorem modSess_acq (k : Nat) (f : Session → Session) (s : State) : (modSess k f s).acq = s.acq := (rfl)
@[simp] theorem modSess_mea (k : Nat) (f : Session → Session) (s : State) : (modSess k f s).mea = s.mea := (rfl)
@[simp] theorem modSess_src (k : Nat) (f : Session → Session) (s : State) : (modSess k f s).src = s.src := (rfl)
@[simp] theorem modSess_tdc (k : Nat) (f : Session → Session) (s : State) : (modSess k f s).tdc = s.tdc := (rfl)
@[simp] theorem modSess_qdr (k : Nat) (f : Session → Session) (s : State) : (modSess k f s).qdr = s.qdr := (rfl)
@[simp] theorem modSess_hbm (k : Nat) (f : Session → Session) (s : State) : (modSess k f s).hbm = s.hbm := (rfl)
@[simp] theorem modSess_sch (k : Nat) (f : Session → Session) (s : State) : (modSess k f s).sch = s.sch := (rfl)
@[simp] theorem modSess_ptp (k : Nat) (f : Session → Session) (s : State) : (modSess k f s).ptp = s.ptp := (rfl)
@[simp] theorem modSess_dma (k : Nat) (f : Session → Session) (s : State) : (modSess k f s).dma = s.dma := (rfl)

/-! ### modStream -/

@[simp] theorem modStream_pending (n : Nat) (f : Stream → Stream) (s : State) : (modStream n f s).pending = s.pending := (rfl)
@[simp] theorem modStream_time (n : Nat) (f : Stream → Stream) (s : State) : (modStream n f s).time = s.time := (rfl)
@[simp] theorem modStream_beat (n : Nat) (f : Stream → Stream) (s : State) : (modStream n f s).beat = s.beat := (rfl)
@[simp] theorem modStream_freeIdx (n : Nat) (f : Stream → Stream) (s : State) : (modStream n f s).freeIdx = s.freeIdx := (rfl)
@[simp] theorem modStream_shadowS (n : Nat) (f : Stream → Stream) (s : State) : (modStream n f s).shadowS = s.shadowS := (rfl)
@[simp] theorem modStream_shadowF (n : Nat) (f : Stream → Stream) (s : State) : (modStream n f s).shadowF = s.shadowF := (rfl)
@[simp] theorem modStream_mem (n : Nat) (f : Stream → Stream) (s : State) : (modStream n f s).mem = s.mem := (rfl)
@[simp] theorem modStream_ans (n : Nat) (f : Stream → Stream) (s : State) : (modStream n f s).ans = s.ans := (rfl)
@[simp] theorem modStream_flt (n : Nat) (f : Stream → Stream) (s : State) : (modStream n f s).flt = s.flt := (rfl)
@[simp] theorem modStream_lgr (n : Nat) (f : Stream → Stream) (s : State) : (modStream n f s).lgr = s.lgr := (rfl)
@[simp] theorem modStream_img (n : Nat) (f : Stream → Stream) (s : State) : (modStream n f s).img = s.img := (rfl)
@[simp] theorem modStream_pwr (n : Nat) (f : Stream → Stream) (s : State) : (modStream n f s).pwr = s.pwr := (rfl)
@[simp] theorem modStream_sec (n : Nat) (f : Stream → Stream) (s : State) : (modStream n f s).sec = s.sec := (rfl)
@[simp] theorem modStream_dbg (n : Nat) (f : Stream → Stream) (s : State) : (modStream n f s).dbg = s.dbg := (rfl)
@[simp] theorem modStream_tb (n : Nat) (f : Stream → Stream) (s : State) : (modStream n f s).tb = s.tb := (rfl)
@[simp] theorem modStream_lanes (n : Nat) (f : Stream → Stream) (s : State) : (modStream n f s).lanes = s.lanes := (rfl)
@[simp] theorem modStream_seq (n : Nat) (f : Stream → Stream) (s : State) : (modStream n f s).seq = s.seq := (rfl)
@[simp] theorem modStream_links (n : Nat) (f : Stream → Stream) (s : State) : (modStream n f s).links = s.links := (rfl)
@[simp] theorem modStream_tst (n : Nat) (f : Stream → Stream) (s : State) : (modStream n f s).tst = s.tst := (rfl)
@[simp] theorem modStream_cmp (n : Nat) (f : Stream → Stream) (s : State) : (modStream n f s).cmp = s.cmp := (rfl)
@[simp] theorem modStream_lib (n : Nat) (f : Stream → Stream) (s : State) : (modStream n f s).lib = s.lib := (rfl)
@[simp] theorem modStream_trg (n : Nat) (f : Stream → Stream) (s : State) : (modStream n f s).trg = s.trg := (rfl)
@[simp] theorem modStream_acq (n : Nat) (f : Stream → Stream) (s : State) : (modStream n f s).acq = s.acq := (rfl)
@[simp] theorem modStream_mea (n : Nat) (f : Stream → Stream) (s : State) : (modStream n f s).mea = s.mea := (rfl)
@[simp] theorem modStream_src (n : Nat) (f : Stream → Stream) (s : State) : (modStream n f s).src = s.src := (rfl)
@[simp] theorem modStream_tdc (n : Nat) (f : Stream → Stream) (s : State) : (modStream n f s).tdc = s.tdc := (rfl)
@[simp] theorem modStream_qdr (n : Nat) (f : Stream → Stream) (s : State) : (modStream n f s).qdr = s.qdr := (rfl)
@[simp] theorem modStream_hbm (n : Nat) (f : Stream → Stream) (s : State) : (modStream n f s).hbm = s.hbm := (rfl)
@[simp] theorem modStream_sch (n : Nat) (f : Stream → Stream) (s : State) : (modStream n f s).sch = s.sch := (rfl)
@[simp] theorem modStream_ptp (n : Nat) (f : Stream → Stream) (s : State) : (modStream n f s).ptp = s.ptp := (rfl)
@[simp] theorem modStream_dma (n : Nat) (f : Stream → Stream) (s : State) : (modStream n f s).dma = s.dma := (rfl)

/-! ### modPort -/

@[simp] theorem modPort_pending (p : Nat) (f : Port → Port) (s : State) : (modPort p f s).pending = s.pending := by simp [modPort]
@[simp] theorem modPort_time (p : Nat) (f : Port → Port) (s : State) : (modPort p f s).time = s.time := by simp [modPort]
@[simp] theorem modPort_beat (p : Nat) (f : Port → Port) (s : State) : (modPort p f s).beat = s.beat := by simp [modPort]
@[simp] theorem modPort_freeIdx (p : Nat) (f : Port → Port) (s : State) : (modPort p f s).freeIdx = s.freeIdx := by simp [modPort]
@[simp] theorem modPort_shadowS (p : Nat) (f : Port → Port) (s : State) : (modPort p f s).shadowS = s.shadowS := by simp [modPort]
@[simp] theorem modPort_shadowF (p : Nat) (f : Port → Port) (s : State) : (modPort p f s).shadowF = s.shadowF := by simp [modPort]
@[simp] theorem modPort_mem (p : Nat) (f : Port → Port) (s : State) : (modPort p f s).mem = s.mem := by simp [modPort]
@[simp] theorem modPort_ans (p : Nat) (f : Port → Port) (s : State) : (modPort p f s).ans = s.ans := by simp [modPort]
@[simp] theorem modPort_flt (p : Nat) (f : Port → Port) (s : State) : (modPort p f s).flt = s.flt := by simp [modPort]
@[simp] theorem modPort_lgr (p : Nat) (f : Port → Port) (s : State) : (modPort p f s).lgr = s.lgr := by simp [modPort]
@[simp] theorem modPort_img (p : Nat) (f : Port → Port) (s : State) : (modPort p f s).img = s.img := by simp [modPort]
@[simp] theorem modPort_pwr (p : Nat) (f : Port → Port) (s : State) : (modPort p f s).pwr = s.pwr := by simp [modPort]
@[simp] theorem modPort_sec (p : Nat) (f : Port → Port) (s : State) : (modPort p f s).sec = s.sec := by simp [modPort]
@[simp] theorem modPort_dbg (p : Nat) (f : Port → Port) (s : State) : (modPort p f s).dbg = s.dbg := by simp [modPort]
@[simp] theorem modPort_tb (p : Nat) (f : Port → Port) (s : State) : (modPort p f s).tb = s.tb := by simp [modPort]
@[simp] theorem modPort_lanes (p : Nat) (f : Port → Port) (s : State) : (modPort p f s).lanes = s.lanes := by simp [modPort]
@[simp] theorem modPort_seq (p : Nat) (f : Port → Port) (s : State) : (modPort p f s).seq = s.seq := by simp [modPort]
@[simp] theorem modPort_links (p : Nat) (f : Port → Port) (s : State) : (modPort p f s).links = s.links := by simp [modPort]
@[simp] theorem modPort_tst (p : Nat) (f : Port → Port) (s : State) : (modPort p f s).tst = s.tst := by simp [modPort]
@[simp] theorem modPort_cmp (p : Nat) (f : Port → Port) (s : State) : (modPort p f s).cmp = s.cmp := by simp [modPort]
@[simp] theorem modPort_lib (p : Nat) (f : Port → Port) (s : State) : (modPort p f s).lib = s.lib := by simp [modPort]
@[simp] theorem modPort_trg (p : Nat) (f : Port → Port) (s : State) : (modPort p f s).trg = s.trg := by simp [modPort]
@[simp] theorem modPort_acq (p : Nat) (f : Port → Port) (s : State) : (modPort p f s).acq = s.acq := by simp [modPort]
@[simp] theorem modPort_mea (p : Nat) (f : Port → Port) (s : State) : (modPort p f s).mea = s.mea := by simp [modPort]
@[simp] theorem modPort_src (p : Nat) (f : Port → Port) (s : State) : (modPort p f s).src = s.src := by simp [modPort]
@[simp] theorem modPort_tdc (p : Nat) (f : Port → Port) (s : State) : (modPort p f s).tdc = s.tdc := by simp [modPort]
@[simp] theorem modPort_qdr (p : Nat) (f : Port → Port) (s : State) : (modPort p f s).qdr = s.qdr := by simp [modPort]
@[simp] theorem modPort_hbm (p : Nat) (f : Port → Port) (s : State) : (modPort p f s).hbm = s.hbm := by simp [modPort]
@[simp] theorem modPort_sch (p : Nat) (f : Port → Port) (s : State) : (modPort p f s).sch = s.sch := by simp [modPort]
@[simp] theorem modPort_ptp (p : Nat) (f : Port → Port) (s : State) : (modPort p f s).ptp = s.ptp := by simp [modPort]
@[simp] theorem modPort_dma (p : Nat) (f : Port → Port) (s : State) : (modPort p f s).dma = s.dma := by simp [modPort]

/-! ### setHostEntry -/

@[simp] theorem setHostEntry_pending (n : Nat) (e : HostEntry) (s : State) : (setHostEntry n e s).pending = s.pending := (rfl)
@[simp] theorem setHostEntry_time (n : Nat) (e : HostEntry) (s : State) : (setHostEntry n e s).time = s.time := (rfl)
@[simp] theorem setHostEntry_beat (n : Nat) (e : HostEntry) (s : State) : (setHostEntry n e s).beat = s.beat := (rfl)
@[simp] theorem setHostEntry_freeIdx (n : Nat) (e : HostEntry) (s : State) : (setHostEntry n e s).freeIdx = s.freeIdx := (rfl)
@[simp] theorem setHostEntry_regs (n : Nat) (e : HostEntry) (s : State) : (setHostEntry n e s).regs = s.regs := (rfl)
@[simp] theorem setHostEntry_shadowS (n : Nat) (e : HostEntry) (s : State) : (setHostEntry n e s).shadowS = s.shadowS := (rfl)
@[simp] theorem setHostEntry_shadowF (n : Nat) (e : HostEntry) (s : State) : (setHostEntry n e s).shadowF = s.shadowF := (rfl)
@[simp] theorem setHostEntry_mem (n : Nat) (e : HostEntry) (s : State) : (setHostEntry n e s).mem = s.mem := (rfl)
@[simp] theorem setHostEntry_ans (n : Nat) (e : HostEntry) (s : State) : (setHostEntry n e s).ans = s.ans := (rfl)
@[simp] theorem setHostEntry_flt (n : Nat) (e : HostEntry) (s : State) : (setHostEntry n e s).flt = s.flt := (rfl)
@[simp] theorem setHostEntry_lgr (n : Nat) (e : HostEntry) (s : State) : (setHostEntry n e s).lgr = s.lgr := (rfl)
@[simp] theorem setHostEntry_img (n : Nat) (e : HostEntry) (s : State) : (setHostEntry n e s).img = s.img := (rfl)
@[simp] theorem setHostEntry_pwr (n : Nat) (e : HostEntry) (s : State) : (setHostEntry n e s).pwr = s.pwr := (rfl)
@[simp] theorem setHostEntry_sec (n : Nat) (e : HostEntry) (s : State) : (setHostEntry n e s).sec = s.sec := (rfl)
@[simp] theorem setHostEntry_dbg (n : Nat) (e : HostEntry) (s : State) : (setHostEntry n e s).dbg = s.dbg := (rfl)
@[simp] theorem setHostEntry_tb (n : Nat) (e : HostEntry) (s : State) : (setHostEntry n e s).tb = s.tb := (rfl)
@[simp] theorem setHostEntry_lanes (n : Nat) (e : HostEntry) (s : State) : (setHostEntry n e s).lanes = s.lanes := (rfl)
@[simp] theorem setHostEntry_seq (n : Nat) (e : HostEntry) (s : State) : (setHostEntry n e s).seq = s.seq := (rfl)
@[simp] theorem setHostEntry_links (n : Nat) (e : HostEntry) (s : State) : (setHostEntry n e s).links = s.links := (rfl)
@[simp] theorem setHostEntry_tst (n : Nat) (e : HostEntry) (s : State) : (setHostEntry n e s).tst = s.tst := (rfl)
@[simp] theorem setHostEntry_cmp (n : Nat) (e : HostEntry) (s : State) : (setHostEntry n e s).cmp = s.cmp := (rfl)
@[simp] theorem setHostEntry_lib (n : Nat) (e : HostEntry) (s : State) : (setHostEntry n e s).lib = s.lib := (rfl)
@[simp] theorem setHostEntry_trg (n : Nat) (e : HostEntry) (s : State) : (setHostEntry n e s).trg = s.trg := (rfl)
@[simp] theorem setHostEntry_acq (n : Nat) (e : HostEntry) (s : State) : (setHostEntry n e s).acq = s.acq := (rfl)
@[simp] theorem setHostEntry_mea (n : Nat) (e : HostEntry) (s : State) : (setHostEntry n e s).mea = s.mea := (rfl)
@[simp] theorem setHostEntry_src (n : Nat) (e : HostEntry) (s : State) : (setHostEntry n e s).src = s.src := (rfl)
@[simp] theorem setHostEntry_tdc (n : Nat) (e : HostEntry) (s : State) : (setHostEntry n e s).tdc = s.tdc := (rfl)
@[simp] theorem setHostEntry_qdr (n : Nat) (e : HostEntry) (s : State) : (setHostEntry n e s).qdr = s.qdr := (rfl)
@[simp] theorem setHostEntry_hbm (n : Nat) (e : HostEntry) (s : State) : (setHostEntry n e s).hbm = s.hbm := (rfl)
@[simp] theorem setHostEntry_sch (n : Nat) (e : HostEntry) (s : State) : (setHostEntry n e s).sch = s.sch := (rfl)
@[simp] theorem setHostEntry_ptp (n : Nat) (e : HostEntry) (s : State) : (setHostEntry n e s).ptp = s.ptp := (rfl)
@[simp] theorem setHostEntry_dma (n : Nat) (e : HostEntry) (s : State) : (setHostEntry n e s).dma = s.dma := (rfl)

/-! ### modLane -/

@[simp] theorem modLane_pending (g l : Nat) (f : Lane → Lane) (s : State) : (modLane g l f s).pending = s.pending := (rfl)
@[simp] theorem modLane_time (g l : Nat) (f : Lane → Lane) (s : State) : (modLane g l f s).time = s.time := (rfl)
@[simp] theorem modLane_beat (g l : Nat) (f : Lane → Lane) (s : State) : (modLane g l f s).beat = s.beat := (rfl)
@[simp] theorem modLane_freeIdx (g l : Nat) (f : Lane → Lane) (s : State) : (modLane g l f s).freeIdx = s.freeIdx := (rfl)
@[simp] theorem modLane_regs (g l : Nat) (f : Lane → Lane) (s : State) : (modLane g l f s).regs = s.regs := (rfl)
@[simp] theorem modLane_shadowS (g l : Nat) (f : Lane → Lane) (s : State) : (modLane g l f s).shadowS = s.shadowS := (rfl)
@[simp] theorem modLane_shadowF (g l : Nat) (f : Lane → Lane) (s : State) : (modLane g l f s).shadowF = s.shadowF := (rfl)
@[simp] theorem modLane_mem (g l : Nat) (f : Lane → Lane) (s : State) : (modLane g l f s).mem = s.mem := (rfl)
@[simp] theorem modLane_ans (g l : Nat) (f : Lane → Lane) (s : State) : (modLane g l f s).ans = s.ans := (rfl)
@[simp] theorem modLane_net (g l : Nat) (f : Lane → Lane) (s : State) : (modLane g l f s).net = s.net := (rfl)
@[simp] theorem modLane_flt (g l : Nat) (f : Lane → Lane) (s : State) : (modLane g l f s).flt = s.flt := (rfl)
@[simp] theorem modLane_lgr (g l : Nat) (f : Lane → Lane) (s : State) : (modLane g l f s).lgr = s.lgr := (rfl)
@[simp] theorem modLane_img (g l : Nat) (f : Lane → Lane) (s : State) : (modLane g l f s).img = s.img := (rfl)
@[simp] theorem modLane_pwr (g l : Nat) (f : Lane → Lane) (s : State) : (modLane g l f s).pwr = s.pwr := (rfl)
@[simp] theorem modLane_sec (g l : Nat) (f : Lane → Lane) (s : State) : (modLane g l f s).sec = s.sec := (rfl)
@[simp] theorem modLane_dbg (g l : Nat) (f : Lane → Lane) (s : State) : (modLane g l f s).dbg = s.dbg := (rfl)
@[simp] theorem modLane_tb (g l : Nat) (f : Lane → Lane) (s : State) : (modLane g l f s).tb = s.tb := (rfl)
@[simp] theorem modLane_seq (g l : Nat) (f : Lane → Lane) (s : State) : (modLane g l f s).seq = s.seq := (rfl)
@[simp] theorem modLane_links (g l : Nat) (f : Lane → Lane) (s : State) : (modLane g l f s).links = s.links := (rfl)
@[simp] theorem modLane_tst (g l : Nat) (f : Lane → Lane) (s : State) : (modLane g l f s).tst = s.tst := (rfl)
@[simp] theorem modLane_cmp (g l : Nat) (f : Lane → Lane) (s : State) : (modLane g l f s).cmp = s.cmp := (rfl)
@[simp] theorem modLane_lib (g l : Nat) (f : Lane → Lane) (s : State) : (modLane g l f s).lib = s.lib := (rfl)
@[simp] theorem modLane_trg (g l : Nat) (f : Lane → Lane) (s : State) : (modLane g l f s).trg = s.trg := (rfl)
@[simp] theorem modLane_acq (g l : Nat) (f : Lane → Lane) (s : State) : (modLane g l f s).acq = s.acq := (rfl)
@[simp] theorem modLane_mea (g l : Nat) (f : Lane → Lane) (s : State) : (modLane g l f s).mea = s.mea := (rfl)
@[simp] theorem modLane_src (g l : Nat) (f : Lane → Lane) (s : State) : (modLane g l f s).src = s.src := (rfl)
@[simp] theorem modLane_tdc (g l : Nat) (f : Lane → Lane) (s : State) : (modLane g l f s).tdc = s.tdc := (rfl)
@[simp] theorem modLane_qdr (g l : Nat) (f : Lane → Lane) (s : State) : (modLane g l f s).qdr = s.qdr := (rfl)
@[simp] theorem modLane_hbm (g l : Nat) (f : Lane → Lane) (s : State) : (modLane g l f s).hbm = s.hbm := (rfl)
@[simp] theorem modLane_sch (g l : Nat) (f : Lane → Lane) (s : State) : (modLane g l f s).sch = s.sch := (rfl)
@[simp] theorem modLane_ptp (g l : Nat) (f : Lane → Lane) (s : State) : (modLane g l f s).ptp = s.ptp := (rfl)
@[simp] theorem modLane_dma (g l : Nat) (f : Lane → Lane) (s : State) : (modLane g l f s).dma = s.dma := (rfl)

/-! ### modMicro -/

@[simp] theorem modMicro_pending (c : Nat) (f : Micro → Micro) (s : State) : (modMicro c f s).pending = s.pending := (rfl)
@[simp] theorem modMicro_time (c : Nat) (f : Micro → Micro) (s : State) : (modMicro c f s).time = s.time := (rfl)
@[simp] theorem modMicro_beat (c : Nat) (f : Micro → Micro) (s : State) : (modMicro c f s).beat = s.beat := (rfl)
@[simp] theorem modMicro_freeIdx (c : Nat) (f : Micro → Micro) (s : State) : (modMicro c f s).freeIdx = s.freeIdx := (rfl)
@[simp] theorem modMicro_regs (c : Nat) (f : Micro → Micro) (s : State) : (modMicro c f s).regs = s.regs := (rfl)
@[simp] theorem modMicro_shadowS (c : Nat) (f : Micro → Micro) (s : State) : (modMicro c f s).shadowS = s.shadowS := (rfl)
@[simp] theorem modMicro_shadowF (c : Nat) (f : Micro → Micro) (s : State) : (modMicro c f s).shadowF = s.shadowF := (rfl)
@[simp] theorem modMicro_mem (c : Nat) (f : Micro → Micro) (s : State) : (modMicro c f s).mem = s.mem := (rfl)
@[simp] theorem modMicro_ans (c : Nat) (f : Micro → Micro) (s : State) : (modMicro c f s).ans = s.ans := (rfl)
@[simp] theorem modMicro_net (c : Nat) (f : Micro → Micro) (s : State) : (modMicro c f s).net = s.net := (rfl)
@[simp] theorem modMicro_flt (c : Nat) (f : Micro → Micro) (s : State) : (modMicro c f s).flt = s.flt := (rfl)
@[simp] theorem modMicro_lgr (c : Nat) (f : Micro → Micro) (s : State) : (modMicro c f s).lgr = s.lgr := (rfl)
@[simp] theorem modMicro_img (c : Nat) (f : Micro → Micro) (s : State) : (modMicro c f s).img = s.img := (rfl)
@[simp] theorem modMicro_pwr (c : Nat) (f : Micro → Micro) (s : State) : (modMicro c f s).pwr = s.pwr := (rfl)
@[simp] theorem modMicro_sec (c : Nat) (f : Micro → Micro) (s : State) : (modMicro c f s).sec = s.sec := (rfl)
@[simp] theorem modMicro_dbg (c : Nat) (f : Micro → Micro) (s : State) : (modMicro c f s).dbg = s.dbg := (rfl)
@[simp] theorem modMicro_tb (c : Nat) (f : Micro → Micro) (s : State) : (modMicro c f s).tb = s.tb := (rfl)
@[simp] theorem modMicro_lanes (c : Nat) (f : Micro → Micro) (s : State) : (modMicro c f s).lanes = s.lanes := (rfl)
@[simp] theorem modMicro_links (c : Nat) (f : Micro → Micro) (s : State) : (modMicro c f s).links = s.links := (rfl)
@[simp] theorem modMicro_tst (c : Nat) (f : Micro → Micro) (s : State) : (modMicro c f s).tst = s.tst := (rfl)
@[simp] theorem modMicro_cmp (c : Nat) (f : Micro → Micro) (s : State) : (modMicro c f s).cmp = s.cmp := (rfl)
@[simp] theorem modMicro_lib (c : Nat) (f : Micro → Micro) (s : State) : (modMicro c f s).lib = s.lib := (rfl)
@[simp] theorem modMicro_trg (c : Nat) (f : Micro → Micro) (s : State) : (modMicro c f s).trg = s.trg := (rfl)
@[simp] theorem modMicro_acq (c : Nat) (f : Micro → Micro) (s : State) : (modMicro c f s).acq = s.acq := (rfl)
@[simp] theorem modMicro_mea (c : Nat) (f : Micro → Micro) (s : State) : (modMicro c f s).mea = s.mea := (rfl)
@[simp] theorem modMicro_src (c : Nat) (f : Micro → Micro) (s : State) : (modMicro c f s).src = s.src := (rfl)
@[simp] theorem modMicro_tdc (c : Nat) (f : Micro → Micro) (s : State) : (modMicro c f s).tdc = s.tdc := (rfl)
@[simp] theorem modMicro_qdr (c : Nat) (f : Micro → Micro) (s : State) : (modMicro c f s).qdr = s.qdr := (rfl)
@[simp] theorem modMicro_hbm (c : Nat) (f : Micro → Micro) (s : State) : (modMicro c f s).hbm = s.hbm := (rfl)
@[simp] theorem modMicro_sch (c : Nat) (f : Micro → Micro) (s : State) : (modMicro c f s).sch = s.sch := (rfl)
@[simp] theorem modMicro_ptp (c : Nat) (f : Micro → Micro) (s : State) : (modMicro c f s).ptp = s.ptp := (rfl)
@[simp] theorem modMicro_dma (c : Nat) (f : Micro → Micro) (s : State) : (modMicro c f s).dma = s.dma := (rfl)

/-! ### modTst -/

@[simp] theorem modTst_pending (g : Nat) (f : Timing → Timing) (s : State) : (modTst g f s).pending = s.pending := (rfl)
@[simp] theorem modTst_time (g : Nat) (f : Timing → Timing) (s : State) : (modTst g f s).time = s.time := (rfl)
@[simp] theorem modTst_beat (g : Nat) (f : Timing → Timing) (s : State) : (modTst g f s).beat = s.beat := (rfl)
@[simp] theorem modTst_freeIdx (g : Nat) (f : Timing → Timing) (s : State) : (modTst g f s).freeIdx = s.freeIdx := (rfl)
@[simp] theorem modTst_regs (g : Nat) (f : Timing → Timing) (s : State) : (modTst g f s).regs = s.regs := (rfl)
@[simp] theorem modTst_shadowS (g : Nat) (f : Timing → Timing) (s : State) : (modTst g f s).shadowS = s.shadowS := (rfl)
@[simp] theorem modTst_shadowF (g : Nat) (f : Timing → Timing) (s : State) : (modTst g f s).shadowF = s.shadowF := (rfl)
@[simp] theorem modTst_mem (g : Nat) (f : Timing → Timing) (s : State) : (modTst g f s).mem = s.mem := (rfl)
@[simp] theorem modTst_ans (g : Nat) (f : Timing → Timing) (s : State) : (modTst g f s).ans = s.ans := (rfl)
@[simp] theorem modTst_net (g : Nat) (f : Timing → Timing) (s : State) : (modTst g f s).net = s.net := (rfl)
@[simp] theorem modTst_flt (g : Nat) (f : Timing → Timing) (s : State) : (modTst g f s).flt = s.flt := (rfl)
@[simp] theorem modTst_lgr (g : Nat) (f : Timing → Timing) (s : State) : (modTst g f s).lgr = s.lgr := (rfl)
@[simp] theorem modTst_img (g : Nat) (f : Timing → Timing) (s : State) : (modTst g f s).img = s.img := (rfl)
@[simp] theorem modTst_pwr (g : Nat) (f : Timing → Timing) (s : State) : (modTst g f s).pwr = s.pwr := (rfl)
@[simp] theorem modTst_sec (g : Nat) (f : Timing → Timing) (s : State) : (modTst g f s).sec = s.sec := (rfl)
@[simp] theorem modTst_dbg (g : Nat) (f : Timing → Timing) (s : State) : (modTst g f s).dbg = s.dbg := (rfl)
@[simp] theorem modTst_tb (g : Nat) (f : Timing → Timing) (s : State) : (modTst g f s).tb = s.tb := (rfl)
@[simp] theorem modTst_lanes (g : Nat) (f : Timing → Timing) (s : State) : (modTst g f s).lanes = s.lanes := (rfl)
@[simp] theorem modTst_seq (g : Nat) (f : Timing → Timing) (s : State) : (modTst g f s).seq = s.seq := (rfl)
@[simp] theorem modTst_links (g : Nat) (f : Timing → Timing) (s : State) : (modTst g f s).links = s.links := (rfl)
@[simp] theorem modTst_cmp (g : Nat) (f : Timing → Timing) (s : State) : (modTst g f s).cmp = s.cmp := (rfl)
@[simp] theorem modTst_lib (g : Nat) (f : Timing → Timing) (s : State) : (modTst g f s).lib = s.lib := (rfl)
@[simp] theorem modTst_trg (g : Nat) (f : Timing → Timing) (s : State) : (modTst g f s).trg = s.trg := (rfl)
@[simp] theorem modTst_acq (g : Nat) (f : Timing → Timing) (s : State) : (modTst g f s).acq = s.acq := (rfl)
@[simp] theorem modTst_mea (g : Nat) (f : Timing → Timing) (s : State) : (modTst g f s).mea = s.mea := (rfl)
@[simp] theorem modTst_src (g : Nat) (f : Timing → Timing) (s : State) : (modTst g f s).src = s.src := (rfl)
@[simp] theorem modTst_tdc (g : Nat) (f : Timing → Timing) (s : State) : (modTst g f s).tdc = s.tdc := (rfl)
@[simp] theorem modTst_qdr (g : Nat) (f : Timing → Timing) (s : State) : (modTst g f s).qdr = s.qdr := (rfl)
@[simp] theorem modTst_hbm (g : Nat) (f : Timing → Timing) (s : State) : (modTst g f s).hbm = s.hbm := (rfl)
@[simp] theorem modTst_sch (g : Nat) (f : Timing → Timing) (s : State) : (modTst g f s).sch = s.sch := (rfl)
@[simp] theorem modTst_ptp (g : Nat) (f : Timing → Timing) (s : State) : (modTst g f s).ptp = s.ptp := (rfl)
@[simp] theorem modTst_dma (g : Nat) (f : Timing → Timing) (s : State) : (modTst g f s).dma = s.dma := (rfl)

/-! ### modTdc -/

@[simp] theorem modTdc_pending (c : Nat) (f : TdcCh → TdcCh) (s : State) : (modTdc c f s).pending = s.pending := (rfl)
@[simp] theorem modTdc_time (c : Nat) (f : TdcCh → TdcCh) (s : State) : (modTdc c f s).time = s.time := (rfl)
@[simp] theorem modTdc_beat (c : Nat) (f : TdcCh → TdcCh) (s : State) : (modTdc c f s).beat = s.beat := (rfl)
@[simp] theorem modTdc_freeIdx (c : Nat) (f : TdcCh → TdcCh) (s : State) : (modTdc c f s).freeIdx = s.freeIdx := (rfl)
@[simp] theorem modTdc_regs (c : Nat) (f : TdcCh → TdcCh) (s : State) : (modTdc c f s).regs = s.regs := (rfl)
@[simp] theorem modTdc_shadowS (c : Nat) (f : TdcCh → TdcCh) (s : State) : (modTdc c f s).shadowS = s.shadowS := (rfl)
@[simp] theorem modTdc_shadowF (c : Nat) (f : TdcCh → TdcCh) (s : State) : (modTdc c f s).shadowF = s.shadowF := (rfl)
@[simp] theorem modTdc_mem (c : Nat) (f : TdcCh → TdcCh) (s : State) : (modTdc c f s).mem = s.mem := (rfl)
@[simp] theorem modTdc_ans (c : Nat) (f : TdcCh → TdcCh) (s : State) : (modTdc c f s).ans = s.ans := (rfl)
@[simp] theorem modTdc_net (c : Nat) (f : TdcCh → TdcCh) (s : State) : (modTdc c f s).net = s.net := (rfl)
@[simp] theorem modTdc_flt (c : Nat) (f : TdcCh → TdcCh) (s : State) : (modTdc c f s).flt = s.flt := (rfl)
@[simp] theorem modTdc_lgr (c : Nat) (f : TdcCh → TdcCh) (s : State) : (modTdc c f s).lgr = s.lgr := (rfl)
@[simp] theorem modTdc_img (c : Nat) (f : TdcCh → TdcCh) (s : State) : (modTdc c f s).img = s.img := (rfl)
@[simp] theorem modTdc_pwr (c : Nat) (f : TdcCh → TdcCh) (s : State) : (modTdc c f s).pwr = s.pwr := (rfl)
@[simp] theorem modTdc_sec (c : Nat) (f : TdcCh → TdcCh) (s : State) : (modTdc c f s).sec = s.sec := (rfl)
@[simp] theorem modTdc_dbg (c : Nat) (f : TdcCh → TdcCh) (s : State) : (modTdc c f s).dbg = s.dbg := (rfl)
@[simp] theorem modTdc_tb (c : Nat) (f : TdcCh → TdcCh) (s : State) : (modTdc c f s).tb = s.tb := (rfl)
@[simp] theorem modTdc_lanes (c : Nat) (f : TdcCh → TdcCh) (s : State) : (modTdc c f s).lanes = s.lanes := (rfl)
@[simp] theorem modTdc_seq (c : Nat) (f : TdcCh → TdcCh) (s : State) : (modTdc c f s).seq = s.seq := (rfl)
@[simp] theorem modTdc_links (c : Nat) (f : TdcCh → TdcCh) (s : State) : (modTdc c f s).links = s.links := (rfl)
@[simp] theorem modTdc_tst (c : Nat) (f : TdcCh → TdcCh) (s : State) : (modTdc c f s).tst = s.tst := (rfl)
@[simp] theorem modTdc_cmp (c : Nat) (f : TdcCh → TdcCh) (s : State) : (modTdc c f s).cmp = s.cmp := (rfl)
@[simp] theorem modTdc_lib (c : Nat) (f : TdcCh → TdcCh) (s : State) : (modTdc c f s).lib = s.lib := (rfl)
@[simp] theorem modTdc_trg (c : Nat) (f : TdcCh → TdcCh) (s : State) : (modTdc c f s).trg = s.trg := (rfl)
@[simp] theorem modTdc_acq (c : Nat) (f : TdcCh → TdcCh) (s : State) : (modTdc c f s).acq = s.acq := (rfl)
@[simp] theorem modTdc_mea (c : Nat) (f : TdcCh → TdcCh) (s : State) : (modTdc c f s).mea = s.mea := (rfl)
@[simp] theorem modTdc_src (c : Nat) (f : TdcCh → TdcCh) (s : State) : (modTdc c f s).src = s.src := (rfl)
@[simp] theorem modTdc_qdr (c : Nat) (f : TdcCh → TdcCh) (s : State) : (modTdc c f s).qdr = s.qdr := (rfl)
@[simp] theorem modTdc_hbm (c : Nat) (f : TdcCh → TdcCh) (s : State) : (modTdc c f s).hbm = s.hbm := (rfl)
@[simp] theorem modTdc_sch (c : Nat) (f : TdcCh → TdcCh) (s : State) : (modTdc c f s).sch = s.sch := (rfl)
@[simp] theorem modTdc_ptp (c : Nat) (f : TdcCh → TdcCh) (s : State) : (modTdc c f s).ptp = s.ptp := (rfl)
@[simp] theorem modTdc_dma (c : Nat) (f : TdcCh → TdcCh) (s : State) : (modTdc c f s).dma = s.dma := (rfl)

/-! ### modMea -/

@[simp] theorem modMea_pending (c : Nat) (f : MeaCh → MeaCh) (s : State) : (modMea c f s).pending = s.pending := (rfl)
@[simp] theorem modMea_time (c : Nat) (f : MeaCh → MeaCh) (s : State) : (modMea c f s).time = s.time := (rfl)
@[simp] theorem modMea_beat (c : Nat) (f : MeaCh → MeaCh) (s : State) : (modMea c f s).beat = s.beat := (rfl)
@[simp] theorem modMea_freeIdx (c : Nat) (f : MeaCh → MeaCh) (s : State) : (modMea c f s).freeIdx = s.freeIdx := (rfl)
@[simp] theorem modMea_regs (c : Nat) (f : MeaCh → MeaCh) (s : State) : (modMea c f s).regs = s.regs := (rfl)
@[simp] theorem modMea_shadowS (c : Nat) (f : MeaCh → MeaCh) (s : State) : (modMea c f s).shadowS = s.shadowS := (rfl)
@[simp] theorem modMea_shadowF (c : Nat) (f : MeaCh → MeaCh) (s : State) : (modMea c f s).shadowF = s.shadowF := (rfl)
@[simp] theorem modMea_mem (c : Nat) (f : MeaCh → MeaCh) (s : State) : (modMea c f s).mem = s.mem := (rfl)
@[simp] theorem modMea_ans (c : Nat) (f : MeaCh → MeaCh) (s : State) : (modMea c f s).ans = s.ans := (rfl)
@[simp] theorem modMea_net (c : Nat) (f : MeaCh → MeaCh) (s : State) : (modMea c f s).net = s.net := (rfl)
@[simp] theorem modMea_flt (c : Nat) (f : MeaCh → MeaCh) (s : State) : (modMea c f s).flt = s.flt := (rfl)
@[simp] theorem modMea_lgr (c : Nat) (f : MeaCh → MeaCh) (s : State) : (modMea c f s).lgr = s.lgr := (rfl)
@[simp] theorem modMea_img (c : Nat) (f : MeaCh → MeaCh) (s : State) : (modMea c f s).img = s.img := (rfl)
@[simp] theorem modMea_pwr (c : Nat) (f : MeaCh → MeaCh) (s : State) : (modMea c f s).pwr = s.pwr := (rfl)
@[simp] theorem modMea_sec (c : Nat) (f : MeaCh → MeaCh) (s : State) : (modMea c f s).sec = s.sec := (rfl)
@[simp] theorem modMea_dbg (c : Nat) (f : MeaCh → MeaCh) (s : State) : (modMea c f s).dbg = s.dbg := (rfl)
@[simp] theorem modMea_tb (c : Nat) (f : MeaCh → MeaCh) (s : State) : (modMea c f s).tb = s.tb := (rfl)
@[simp] theorem modMea_lanes (c : Nat) (f : MeaCh → MeaCh) (s : State) : (modMea c f s).lanes = s.lanes := (rfl)
@[simp] theorem modMea_seq (c : Nat) (f : MeaCh → MeaCh) (s : State) : (modMea c f s).seq = s.seq := (rfl)
@[simp] theorem modMea_links (c : Nat) (f : MeaCh → MeaCh) (s : State) : (modMea c f s).links = s.links := (rfl)
@[simp] theorem modMea_tst (c : Nat) (f : MeaCh → MeaCh) (s : State) : (modMea c f s).tst = s.tst := (rfl)
@[simp] theorem modMea_cmp (c : Nat) (f : MeaCh → MeaCh) (s : State) : (modMea c f s).cmp = s.cmp := (rfl)
@[simp] theorem modMea_lib (c : Nat) (f : MeaCh → MeaCh) (s : State) : (modMea c f s).lib = s.lib := (rfl)
@[simp] theorem modMea_trg (c : Nat) (f : MeaCh → MeaCh) (s : State) : (modMea c f s).trg = s.trg := (rfl)
@[simp] theorem modMea_acq (c : Nat) (f : MeaCh → MeaCh) (s : State) : (modMea c f s).acq = s.acq := (rfl)
@[simp] theorem modMea_src (c : Nat) (f : MeaCh → MeaCh) (s : State) : (modMea c f s).src = s.src := (rfl)
@[simp] theorem modMea_tdc (c : Nat) (f : MeaCh → MeaCh) (s : State) : (modMea c f s).tdc = s.tdc := (rfl)
@[simp] theorem modMea_qdr (c : Nat) (f : MeaCh → MeaCh) (s : State) : (modMea c f s).qdr = s.qdr := (rfl)
@[simp] theorem modMea_hbm (c : Nat) (f : MeaCh → MeaCh) (s : State) : (modMea c f s).hbm = s.hbm := (rfl)
@[simp] theorem modMea_sch (c : Nat) (f : MeaCh → MeaCh) (s : State) : (modMea c f s).sch = s.sch := (rfl)
@[simp] theorem modMea_ptp (c : Nat) (f : MeaCh → MeaCh) (s : State) : (modMea c f s).ptp = s.ptp := (rfl)
@[simp] theorem modMea_dma (c : Nat) (f : MeaCh → MeaCh) (s : State) : (modMea c f s).dma = s.dma := (rfl)

/-! ### modSrc -/

@[simp] theorem modSrc_pending (c : Nat) (f : SrcCh → SrcCh) (s : State) : (modSrc c f s).pending = s.pending := (rfl)
@[simp] theorem modSrc_time (c : Nat) (f : SrcCh → SrcCh) (s : State) : (modSrc c f s).time = s.time := (rfl)
@[simp] theorem modSrc_beat (c : Nat) (f : SrcCh → SrcCh) (s : State) : (modSrc c f s).beat = s.beat := (rfl)
@[simp] theorem modSrc_freeIdx (c : Nat) (f : SrcCh → SrcCh) (s : State) : (modSrc c f s).freeIdx = s.freeIdx := (rfl)
@[simp] theorem modSrc_regs (c : Nat) (f : SrcCh → SrcCh) (s : State) : (modSrc c f s).regs = s.regs := (rfl)
@[simp] theorem modSrc_shadowS (c : Nat) (f : SrcCh → SrcCh) (s : State) : (modSrc c f s).shadowS = s.shadowS := (rfl)
@[simp] theorem modSrc_shadowF (c : Nat) (f : SrcCh → SrcCh) (s : State) : (modSrc c f s).shadowF = s.shadowF := (rfl)
@[simp] theorem modSrc_mem (c : Nat) (f : SrcCh → SrcCh) (s : State) : (modSrc c f s).mem = s.mem := (rfl)
@[simp] theorem modSrc_ans (c : Nat) (f : SrcCh → SrcCh) (s : State) : (modSrc c f s).ans = s.ans := (rfl)
@[simp] theorem modSrc_net (c : Nat) (f : SrcCh → SrcCh) (s : State) : (modSrc c f s).net = s.net := (rfl)
@[simp] theorem modSrc_flt (c : Nat) (f : SrcCh → SrcCh) (s : State) : (modSrc c f s).flt = s.flt := (rfl)
@[simp] theorem modSrc_lgr (c : Nat) (f : SrcCh → SrcCh) (s : State) : (modSrc c f s).lgr = s.lgr := (rfl)
@[simp] theorem modSrc_img (c : Nat) (f : SrcCh → SrcCh) (s : State) : (modSrc c f s).img = s.img := (rfl)
@[simp] theorem modSrc_pwr (c : Nat) (f : SrcCh → SrcCh) (s : State) : (modSrc c f s).pwr = s.pwr := (rfl)
@[simp] theorem modSrc_sec (c : Nat) (f : SrcCh → SrcCh) (s : State) : (modSrc c f s).sec = s.sec := (rfl)
@[simp] theorem modSrc_dbg (c : Nat) (f : SrcCh → SrcCh) (s : State) : (modSrc c f s).dbg = s.dbg := (rfl)
@[simp] theorem modSrc_tb (c : Nat) (f : SrcCh → SrcCh) (s : State) : (modSrc c f s).tb = s.tb := (rfl)
@[simp] theorem modSrc_lanes (c : Nat) (f : SrcCh → SrcCh) (s : State) : (modSrc c f s).lanes = s.lanes := (rfl)
@[simp] theorem modSrc_seq (c : Nat) (f : SrcCh → SrcCh) (s : State) : (modSrc c f s).seq = s.seq := (rfl)
@[simp] theorem modSrc_links (c : Nat) (f : SrcCh → SrcCh) (s : State) : (modSrc c f s).links = s.links := (rfl)
@[simp] theorem modSrc_tst (c : Nat) (f : SrcCh → SrcCh) (s : State) : (modSrc c f s).tst = s.tst := (rfl)
@[simp] theorem modSrc_cmp (c : Nat) (f : SrcCh → SrcCh) (s : State) : (modSrc c f s).cmp = s.cmp := (rfl)
@[simp] theorem modSrc_lib (c : Nat) (f : SrcCh → SrcCh) (s : State) : (modSrc c f s).lib = s.lib := (rfl)
@[simp] theorem modSrc_trg (c : Nat) (f : SrcCh → SrcCh) (s : State) : (modSrc c f s).trg = s.trg := (rfl)
@[simp] theorem modSrc_acq (c : Nat) (f : SrcCh → SrcCh) (s : State) : (modSrc c f s).acq = s.acq := (rfl)
@[simp] theorem modSrc_mea (c : Nat) (f : SrcCh → SrcCh) (s : State) : (modSrc c f s).mea = s.mea := (rfl)
@[simp] theorem modSrc_tdc (c : Nat) (f : SrcCh → SrcCh) (s : State) : (modSrc c f s).tdc = s.tdc := (rfl)
@[simp] theorem modSrc_qdr (c : Nat) (f : SrcCh → SrcCh) (s : State) : (modSrc c f s).qdr = s.qdr := (rfl)
@[simp] theorem modSrc_hbm (c : Nat) (f : SrcCh → SrcCh) (s : State) : (modSrc c f s).hbm = s.hbm := (rfl)
@[simp] theorem modSrc_sch (c : Nat) (f : SrcCh → SrcCh) (s : State) : (modSrc c f s).sch = s.sch := (rfl)
@[simp] theorem modSrc_ptp (c : Nat) (f : SrcCh → SrcCh) (s : State) : (modSrc c f s).ptp = s.ptp := (rfl)
@[simp] theorem modSrc_dma (c : Nat) (f : SrcCh → SrcCh) (s : State) : (modSrc c f s).dma = s.dma := (rfl)

/-! ### modAcq -/

@[simp] theorem modAcq_pending (a : Nat) (f : AcqUnit → AcqUnit) (s : State) : (modAcq a f s).pending = s.pending := (rfl)
@[simp] theorem modAcq_time (a : Nat) (f : AcqUnit → AcqUnit) (s : State) : (modAcq a f s).time = s.time := (rfl)
@[simp] theorem modAcq_beat (a : Nat) (f : AcqUnit → AcqUnit) (s : State) : (modAcq a f s).beat = s.beat := (rfl)
@[simp] theorem modAcq_freeIdx (a : Nat) (f : AcqUnit → AcqUnit) (s : State) : (modAcq a f s).freeIdx = s.freeIdx := (rfl)
@[simp] theorem modAcq_regs (a : Nat) (f : AcqUnit → AcqUnit) (s : State) : (modAcq a f s).regs = s.regs := (rfl)
@[simp] theorem modAcq_shadowS (a : Nat) (f : AcqUnit → AcqUnit) (s : State) : (modAcq a f s).shadowS = s.shadowS := (rfl)
@[simp] theorem modAcq_shadowF (a : Nat) (f : AcqUnit → AcqUnit) (s : State) : (modAcq a f s).shadowF = s.shadowF := (rfl)
@[simp] theorem modAcq_mem (a : Nat) (f : AcqUnit → AcqUnit) (s : State) : (modAcq a f s).mem = s.mem := (rfl)
@[simp] theorem modAcq_ans (a : Nat) (f : AcqUnit → AcqUnit) (s : State) : (modAcq a f s).ans = s.ans := (rfl)
@[simp] theorem modAcq_net (a : Nat) (f : AcqUnit → AcqUnit) (s : State) : (modAcq a f s).net = s.net := (rfl)
@[simp] theorem modAcq_flt (a : Nat) (f : AcqUnit → AcqUnit) (s : State) : (modAcq a f s).flt = s.flt := (rfl)
@[simp] theorem modAcq_lgr (a : Nat) (f : AcqUnit → AcqUnit) (s : State) : (modAcq a f s).lgr = s.lgr := (rfl)
@[simp] theorem modAcq_img (a : Nat) (f : AcqUnit → AcqUnit) (s : State) : (modAcq a f s).img = s.img := (rfl)
@[simp] theorem modAcq_pwr (a : Nat) (f : AcqUnit → AcqUnit) (s : State) : (modAcq a f s).pwr = s.pwr := (rfl)
@[simp] theorem modAcq_sec (a : Nat) (f : AcqUnit → AcqUnit) (s : State) : (modAcq a f s).sec = s.sec := (rfl)
@[simp] theorem modAcq_dbg (a : Nat) (f : AcqUnit → AcqUnit) (s : State) : (modAcq a f s).dbg = s.dbg := (rfl)
@[simp] theorem modAcq_tb (a : Nat) (f : AcqUnit → AcqUnit) (s : State) : (modAcq a f s).tb = s.tb := (rfl)
@[simp] theorem modAcq_lanes (a : Nat) (f : AcqUnit → AcqUnit) (s : State) : (modAcq a f s).lanes = s.lanes := (rfl)
@[simp] theorem modAcq_seq (a : Nat) (f : AcqUnit → AcqUnit) (s : State) : (modAcq a f s).seq = s.seq := (rfl)
@[simp] theorem modAcq_links (a : Nat) (f : AcqUnit → AcqUnit) (s : State) : (modAcq a f s).links = s.links := (rfl)
@[simp] theorem modAcq_tst (a : Nat) (f : AcqUnit → AcqUnit) (s : State) : (modAcq a f s).tst = s.tst := (rfl)
@[simp] theorem modAcq_cmp (a : Nat) (f : AcqUnit → AcqUnit) (s : State) : (modAcq a f s).cmp = s.cmp := (rfl)
@[simp] theorem modAcq_lib (a : Nat) (f : AcqUnit → AcqUnit) (s : State) : (modAcq a f s).lib = s.lib := (rfl)
@[simp] theorem modAcq_trg (a : Nat) (f : AcqUnit → AcqUnit) (s : State) : (modAcq a f s).trg = s.trg := (rfl)
@[simp] theorem modAcq_mea (a : Nat) (f : AcqUnit → AcqUnit) (s : State) : (modAcq a f s).mea = s.mea := (rfl)
@[simp] theorem modAcq_src (a : Nat) (f : AcqUnit → AcqUnit) (s : State) : (modAcq a f s).src = s.src := (rfl)
@[simp] theorem modAcq_tdc (a : Nat) (f : AcqUnit → AcqUnit) (s : State) : (modAcq a f s).tdc = s.tdc := (rfl)
@[simp] theorem modAcq_qdr (a : Nat) (f : AcqUnit → AcqUnit) (s : State) : (modAcq a f s).qdr = s.qdr := (rfl)
@[simp] theorem modAcq_hbm (a : Nat) (f : AcqUnit → AcqUnit) (s : State) : (modAcq a f s).hbm = s.hbm := (rfl)
@[simp] theorem modAcq_sch (a : Nat) (f : AcqUnit → AcqUnit) (s : State) : (modAcq a f s).sch = s.sch := (rfl)
@[simp] theorem modAcq_ptp (a : Nat) (f : AcqUnit → AcqUnit) (s : State) : (modAcq a f s).ptp = s.ptp := (rfl)
@[simp] theorem modAcq_dma (a : Nat) (f : AcqUnit → AcqUnit) (s : State) : (modAcq a f s).dma = s.dma := (rfl)

/-! ### modDomain -/

@[simp] theorem modDomain_pending (d : Nat) (f : Domain → Domain) (s : State) : (modDomain d f s).pending = s.pending := by unfold modDomain; split <;> rfl
@[simp] theorem modDomain_time (d : Nat) (f : Domain → Domain) (s : State) : (modDomain d f s).time = s.time := by unfold modDomain; split <;> rfl
@[simp] theorem modDomain_beat (d : Nat) (f : Domain → Domain) (s : State) : (modDomain d f s).beat = s.beat := by unfold modDomain; split <;> rfl
@[simp] theorem modDomain_freeIdx (d : Nat) (f : Domain → Domain) (s : State) : (modDomain d f s).freeIdx = s.freeIdx := by unfold modDomain; split <;> rfl
@[simp] theorem modDomain_regs (d : Nat) (f : Domain → Domain) (s : State) : (modDomain d f s).regs = s.regs := by unfold modDomain; split <;> rfl
@[simp] theorem modDomain_shadowS (d : Nat) (f : Domain → Domain) (s : State) : (modDomain d f s).shadowS = s.shadowS := by unfold modDomain; split <;> rfl
@[simp] theorem modDomain_shadowF (d : Nat) (f : Domain → Domain) (s : State) : (modDomain d f s).shadowF = s.shadowF := by unfold modDomain; split <;> rfl
@[simp] theorem modDomain_mem (d : Nat) (f : Domain → Domain) (s : State) : (modDomain d f s).mem = s.mem := by unfold modDomain; split <;> rfl
@[simp] theorem modDomain_ans (d : Nat) (f : Domain → Domain) (s : State) : (modDomain d f s).ans = s.ans := by unfold modDomain; split <;> rfl
@[simp] theorem modDomain_net (d : Nat) (f : Domain → Domain) (s : State) : (modDomain d f s).net = s.net := by unfold modDomain; split <;> rfl
@[simp] theorem modDomain_flt (d : Nat) (f : Domain → Domain) (s : State) : (modDomain d f s).flt = s.flt := by unfold modDomain; split <;> rfl
@[simp] theorem modDomain_lgr (d : Nat) (f : Domain → Domain) (s : State) : (modDomain d f s).lgr = s.lgr := by unfold modDomain; split <;> rfl
@[simp] theorem modDomain_img (d : Nat) (f : Domain → Domain) (s : State) : (modDomain d f s).img = s.img := by unfold modDomain; split <;> rfl
@[simp] theorem modDomain_pwr (d : Nat) (f : Domain → Domain) (s : State) : (modDomain d f s).pwr = s.pwr := by unfold modDomain; split <;> rfl
@[simp] theorem modDomain_sec (d : Nat) (f : Domain → Domain) (s : State) : (modDomain d f s).sec = s.sec := by unfold modDomain; split <;> rfl
@[simp] theorem modDomain_dbg (d : Nat) (f : Domain → Domain) (s : State) : (modDomain d f s).dbg = s.dbg := by unfold modDomain; split <;> rfl
@[simp] theorem modDomain_tb (d : Nat) (f : Domain → Domain) (s : State) : (modDomain d f s).tb = s.tb := by unfold modDomain; split <;> rfl
@[simp] theorem modDomain_lanes (d : Nat) (f : Domain → Domain) (s : State) : (modDomain d f s).lanes = s.lanes := by unfold modDomain; split <;> rfl
@[simp] theorem modDomain_seq (d : Nat) (f : Domain → Domain) (s : State) : (modDomain d f s).seq = s.seq := by unfold modDomain; split <;> rfl
@[simp] theorem modDomain_links (d : Nat) (f : Domain → Domain) (s : State) : (modDomain d f s).links = s.links := by unfold modDomain; split <;> rfl
@[simp] theorem modDomain_tst (d : Nat) (f : Domain → Domain) (s : State) : (modDomain d f s).tst = s.tst := by unfold modDomain; split <;> rfl
@[simp] theorem modDomain_cmp (d : Nat) (f : Domain → Domain) (s : State) : (modDomain d f s).cmp = s.cmp := by unfold modDomain; split <;> rfl
@[simp] theorem modDomain_lib (d : Nat) (f : Domain → Domain) (s : State) : (modDomain d f s).lib = s.lib := by unfold modDomain; split <;> rfl
@[simp] theorem modDomain_trg (d : Nat) (f : Domain → Domain) (s : State) : (modDomain d f s).trg = s.trg := by unfold modDomain; split <;> rfl
@[simp] theorem modDomain_acq (d : Nat) (f : Domain → Domain) (s : State) : (modDomain d f s).acq = s.acq := by unfold modDomain; split <;> rfl
@[simp] theorem modDomain_mea (d : Nat) (f : Domain → Domain) (s : State) : (modDomain d f s).mea = s.mea := by unfold modDomain; split <;> rfl
@[simp] theorem modDomain_src (d : Nat) (f : Domain → Domain) (s : State) : (modDomain d f s).src = s.src := by unfold modDomain; split <;> rfl
@[simp] theorem modDomain_tdc (d : Nat) (f : Domain → Domain) (s : State) : (modDomain d f s).tdc = s.tdc := by unfold modDomain; split <;> rfl
@[simp] theorem modDomain_qdr (d : Nat) (f : Domain → Domain) (s : State) : (modDomain d f s).qdr = s.qdr := by unfold modDomain; split <;> rfl
@[simp] theorem modDomain_hbm (d : Nat) (f : Domain → Domain) (s : State) : (modDomain d f s).hbm = s.hbm := by unfold modDomain; split <;> rfl
@[simp] theorem modDomain_sch (d : Nat) (f : Domain → Domain) (s : State) : (modDomain d f s).sch = s.sch := by unfold modDomain; split <;> rfl
@[simp] theorem modDomain_dma (d : Nat) (f : Domain → Domain) (s : State) : (modDomain d f s).dma = s.dma := by unfold modDomain; split <;> rfl

/-! ### modPeer -/

@[simp] theorem modPeer_pending (u : Nat) (f : Peer → Peer) (s : State) : (modPeer u f s).pending = s.pending := (rfl)
@[simp] theorem modPeer_time (u : Nat) (f : Peer → Peer) (s : State) : (modPeer u f s).time = s.time := (rfl)
@[simp] theorem modPeer_beat (u : Nat) (f : Peer → Peer) (s : State) : (modPeer u f s).beat = s.beat := (rfl)
@[simp] theorem modPeer_freeIdx (u : Nat) (f : Peer → Peer) (s : State) : (modPeer u f s).freeIdx = s.freeIdx := (rfl)
@[simp] theorem modPeer_regs (u : Nat) (f : Peer → Peer) (s : State) : (modPeer u f s).regs = s.regs := (rfl)
@[simp] theorem modPeer_shadowS (u : Nat) (f : Peer → Peer) (s : State) : (modPeer u f s).shadowS = s.shadowS := (rfl)
@[simp] theorem modPeer_shadowF (u : Nat) (f : Peer → Peer) (s : State) : (modPeer u f s).shadowF = s.shadowF := (rfl)
@[simp] theorem modPeer_mem (u : Nat) (f : Peer → Peer) (s : State) : (modPeer u f s).mem = s.mem := (rfl)
@[simp] theorem modPeer_ans (u : Nat) (f : Peer → Peer) (s : State) : (modPeer u f s).ans = s.ans := (rfl)
@[simp] theorem modPeer_net (u : Nat) (f : Peer → Peer) (s : State) : (modPeer u f s).net = s.net := (rfl)
@[simp] theorem modPeer_flt (u : Nat) (f : Peer → Peer) (s : State) : (modPeer u f s).flt = s.flt := (rfl)
@[simp] theorem modPeer_lgr (u : Nat) (f : Peer → Peer) (s : State) : (modPeer u f s).lgr = s.lgr := (rfl)
@[simp] theorem modPeer_img (u : Nat) (f : Peer → Peer) (s : State) : (modPeer u f s).img = s.img := (rfl)
@[simp] theorem modPeer_pwr (u : Nat) (f : Peer → Peer) (s : State) : (modPeer u f s).pwr = s.pwr := (rfl)
@[simp] theorem modPeer_sec (u : Nat) (f : Peer → Peer) (s : State) : (modPeer u f s).sec = s.sec := (rfl)
@[simp] theorem modPeer_dbg (u : Nat) (f : Peer → Peer) (s : State) : (modPeer u f s).dbg = s.dbg := (rfl)
@[simp] theorem modPeer_tb (u : Nat) (f : Peer → Peer) (s : State) : (modPeer u f s).tb = s.tb := (rfl)
@[simp] theorem modPeer_lanes (u : Nat) (f : Peer → Peer) (s : State) : (modPeer u f s).lanes = s.lanes := (rfl)
@[simp] theorem modPeer_seq (u : Nat) (f : Peer → Peer) (s : State) : (modPeer u f s).seq = s.seq := (rfl)
@[simp] theorem modPeer_links (u : Nat) (f : Peer → Peer) (s : State) : (modPeer u f s).links = s.links := (rfl)
@[simp] theorem modPeer_tst (u : Nat) (f : Peer → Peer) (s : State) : (modPeer u f s).tst = s.tst := (rfl)
@[simp] theorem modPeer_cmp (u : Nat) (f : Peer → Peer) (s : State) : (modPeer u f s).cmp = s.cmp := (rfl)
@[simp] theorem modPeer_lib (u : Nat) (f : Peer → Peer) (s : State) : (modPeer u f s).lib = s.lib := (rfl)
@[simp] theorem modPeer_trg (u : Nat) (f : Peer → Peer) (s : State) : (modPeer u f s).trg = s.trg := (rfl)
@[simp] theorem modPeer_acq (u : Nat) (f : Peer → Peer) (s : State) : (modPeer u f s).acq = s.acq := (rfl)
@[simp] theorem modPeer_mea (u : Nat) (f : Peer → Peer) (s : State) : (modPeer u f s).mea = s.mea := (rfl)
@[simp] theorem modPeer_src (u : Nat) (f : Peer → Peer) (s : State) : (modPeer u f s).src = s.src := (rfl)
@[simp] theorem modPeer_tdc (u : Nat) (f : Peer → Peer) (s : State) : (modPeer u f s).tdc = s.tdc := (rfl)
@[simp] theorem modPeer_hbm (u : Nat) (f : Peer → Peer) (s : State) : (modPeer u f s).hbm = s.hbm := (rfl)
@[simp] theorem modPeer_sch (u : Nat) (f : Peer → Peer) (s : State) : (modPeer u f s).sch = s.sch := (rfl)
@[simp] theorem modPeer_ptp (u : Nat) (f : Peer → Peer) (s : State) : (modPeer u f s).ptp = s.ptp := (rfl)
@[simp] theorem modPeer_dma (u : Nat) (f : Peer → Peer) (s : State) : (modPeer u f s).dma = s.dma := (rfl)

/-! ### setTask -/

@[simp] theorem setTask_pending (i : Nat) (t : Option Task) (s : State) : (setTask i t s).pending = s.pending := (rfl)
@[simp] theorem setTask_time (i : Nat) (t : Option Task) (s : State) : (setTask i t s).time = s.time := (rfl)
@[simp] theorem setTask_beat (i : Nat) (t : Option Task) (s : State) : (setTask i t s).beat = s.beat := (rfl)
@[simp] theorem setTask_freeIdx (i : Nat) (t : Option Task) (s : State) : (setTask i t s).freeIdx = s.freeIdx := (rfl)
@[simp] theorem setTask_regs (i : Nat) (t : Option Task) (s : State) : (setTask i t s).regs = s.regs := (rfl)
@[simp] theorem setTask_shadowS (i : Nat) (t : Option Task) (s : State) : (setTask i t s).shadowS = s.shadowS := (rfl)
@[simp] theorem setTask_shadowF (i : Nat) (t : Option Task) (s : State) : (setTask i t s).shadowF = s.shadowF := (rfl)
@[simp] theorem setTask_mem (i : Nat) (t : Option Task) (s : State) : (setTask i t s).mem = s.mem := (rfl)
@[simp] theorem setTask_ans (i : Nat) (t : Option Task) (s : State) : (setTask i t s).ans = s.ans := (rfl)
@[simp] theorem setTask_net (i : Nat) (t : Option Task) (s : State) : (setTask i t s).net = s.net := (rfl)
@[simp] theorem setTask_flt (i : Nat) (t : Option Task) (s : State) : (setTask i t s).flt = s.flt := (rfl)
@[simp] theorem setTask_lgr (i : Nat) (t : Option Task) (s : State) : (setTask i t s).lgr = s.lgr := (rfl)
@[simp] theorem setTask_img (i : Nat) (t : Option Task) (s : State) : (setTask i t s).img = s.img := (rfl)
@[simp] theorem setTask_pwr (i : Nat) (t : Option Task) (s : State) : (setTask i t s).pwr = s.pwr := (rfl)
@[simp] theorem setTask_sec (i : Nat) (t : Option Task) (s : State) : (setTask i t s).sec = s.sec := (rfl)
@[simp] theorem setTask_dbg (i : Nat) (t : Option Task) (s : State) : (setTask i t s).dbg = s.dbg := (rfl)
@[simp] theorem setTask_tb (i : Nat) (t : Option Task) (s : State) : (setTask i t s).tb = s.tb := (rfl)
@[simp] theorem setTask_lanes (i : Nat) (t : Option Task) (s : State) : (setTask i t s).lanes = s.lanes := (rfl)
@[simp] theorem setTask_seq (i : Nat) (t : Option Task) (s : State) : (setTask i t s).seq = s.seq := (rfl)
@[simp] theorem setTask_links (i : Nat) (t : Option Task) (s : State) : (setTask i t s).links = s.links := (rfl)
@[simp] theorem setTask_tst (i : Nat) (t : Option Task) (s : State) : (setTask i t s).tst = s.tst := (rfl)
@[simp] theorem setTask_cmp (i : Nat) (t : Option Task) (s : State) : (setTask i t s).cmp = s.cmp := (rfl)
@[simp] theorem setTask_lib (i : Nat) (t : Option Task) (s : State) : (setTask i t s).lib = s.lib := (rfl)
@[simp] theorem setTask_trg (i : Nat) (t : Option Task) (s : State) : (setTask i t s).trg = s.trg := (rfl)
@[simp] theorem setTask_acq (i : Nat) (t : Option Task) (s : State) : (setTask i t s).acq = s.acq := (rfl)
@[simp] theorem setTask_mea (i : Nat) (t : Option Task) (s : State) : (setTask i t s).mea = s.mea := (rfl)
@[simp] theorem setTask_src (i : Nat) (t : Option Task) (s : State) : (setTask i t s).src = s.src := (rfl)
@[simp] theorem setTask_tdc (i : Nat) (t : Option Task) (s : State) : (setTask i t s).tdc = s.tdc := (rfl)
@[simp] theorem setTask_qdr (i : Nat) (t : Option Task) (s : State) : (setTask i t s).qdr = s.qdr := (rfl)
@[simp] theorem setTask_hbm (i : Nat) (t : Option Task) (s : State) : (setTask i t s).hbm = s.hbm := (rfl)
@[simp] theorem setTask_ptp (i : Nat) (t : Option Task) (s : State) : (setTask i t s).ptp = s.ptp := (rfl)
@[simp] theorem setTask_dma (i : Nat) (t : Option Task) (s : State) : (setTask i t s).dma = s.dma := (rfl)

/-! ### modTask -/

@[simp] theorem modTask_pending (i : Nat) (f : Task → Task) (s : State) : (modTask i f s).pending = s.pending := by unfold modTask; split <;> simp
@[simp] theorem modTask_time (i : Nat) (f : Task → Task) (s : State) : (modTask i f s).time = s.time := by unfold modTask; split <;> simp
@[simp] theorem modTask_beat (i : Nat) (f : Task → Task) (s : State) : (modTask i f s).beat = s.beat := by unfold modTask; split <;> simp
@[simp] theorem modTask_freeIdx (i : Nat) (f : Task → Task) (s : State) : (modTask i f s).freeIdx = s.freeIdx := by unfold modTask; split <;> simp
@[simp] theorem modTask_regs (i : Nat) (f : Task → Task) (s : State) : (modTask i f s).regs = s.regs := by unfold modTask; split <;> simp
@[simp] theorem modTask_shadowS (i : Nat) (f : Task → Task) (s : State) : (modTask i f s).shadowS = s.shadowS := by unfold modTask; split <;> simp
@[simp] theorem modTask_shadowF (i : Nat) (f : Task → Task) (s : State) : (modTask i f s).shadowF = s.shadowF := by unfold modTask; split <;> simp
@[simp] theorem modTask_mem (i : Nat) (f : Task → Task) (s : State) : (modTask i f s).mem = s.mem := by unfold modTask; split <;> simp
@[simp] theorem modTask_ans (i : Nat) (f : Task → Task) (s : State) : (modTask i f s).ans = s.ans := by unfold modTask; split <;> simp
@[simp] theorem modTask_net (i : Nat) (f : Task → Task) (s : State) : (modTask i f s).net = s.net := by unfold modTask; split <;> simp
@[simp] theorem modTask_flt (i : Nat) (f : Task → Task) (s : State) : (modTask i f s).flt = s.flt := by unfold modTask; split <;> simp
@[simp] theorem modTask_lgr (i : Nat) (f : Task → Task) (s : State) : (modTask i f s).lgr = s.lgr := by unfold modTask; split <;> simp
@[simp] theorem modTask_img (i : Nat) (f : Task → Task) (s : State) : (modTask i f s).img = s.img := by unfold modTask; split <;> simp
@[simp] theorem modTask_pwr (i : Nat) (f : Task → Task) (s : State) : (modTask i f s).pwr = s.pwr := by unfold modTask; split <;> simp
@[simp] theorem modTask_sec (i : Nat) (f : Task → Task) (s : State) : (modTask i f s).sec = s.sec := by unfold modTask; split <;> simp
@[simp] theorem modTask_dbg (i : Nat) (f : Task → Task) (s : State) : (modTask i f s).dbg = s.dbg := by unfold modTask; split <;> simp
@[simp] theorem modTask_tb (i : Nat) (f : Task → Task) (s : State) : (modTask i f s).tb = s.tb := by unfold modTask; split <;> simp
@[simp] theorem modTask_lanes (i : Nat) (f : Task → Task) (s : State) : (modTask i f s).lanes = s.lanes := by unfold modTask; split <;> simp
@[simp] theorem modTask_seq (i : Nat) (f : Task → Task) (s : State) : (modTask i f s).seq = s.seq := by unfold modTask; split <;> simp
@[simp] theorem modTask_links (i : Nat) (f : Task → Task) (s : State) : (modTask i f s).links = s.links := by unfold modTask; split <;> simp
@[simp] theorem modTask_tst (i : Nat) (f : Task → Task) (s : State) : (modTask i f s).tst = s.tst := by unfold modTask; split <;> simp
@[simp] theorem modTask_cmp (i : Nat) (f : Task → Task) (s : State) : (modTask i f s).cmp = s.cmp := by unfold modTask; split <;> simp
@[simp] theorem modTask_lib (i : Nat) (f : Task → Task) (s : State) : (modTask i f s).lib = s.lib := by unfold modTask; split <;> simp
@[simp] theorem modTask_trg (i : Nat) (f : Task → Task) (s : State) : (modTask i f s).trg = s.trg := by unfold modTask; split <;> simp
@[simp] theorem modTask_acq (i : Nat) (f : Task → Task) (s : State) : (modTask i f s).acq = s.acq := by unfold modTask; split <;> simp
@[simp] theorem modTask_mea (i : Nat) (f : Task → Task) (s : State) : (modTask i f s).mea = s.mea := by unfold modTask; split <;> simp
@[simp] theorem modTask_src (i : Nat) (f : Task → Task) (s : State) : (modTask i f s).src = s.src := by unfold modTask; split <;> simp
@[simp] theorem modTask_tdc (i : Nat) (f : Task → Task) (s : State) : (modTask i f s).tdc = s.tdc := by unfold modTask; split <;> simp
@[simp] theorem modTask_qdr (i : Nat) (f : Task → Task) (s : State) : (modTask i f s).qdr = s.qdr := by unfold modTask; split <;> simp
@[simp] theorem modTask_hbm (i : Nat) (f : Task → Task) (s : State) : (modTask i f s).hbm = s.hbm := by unfold modTask; split <;> simp
@[simp] theorem modTask_ptp (i : Nat) (f : Task → Task) (s : State) : (modTask i f s).ptp = s.ptp := by unfold modTask; split <;> simp
@[simp] theorem modTask_dma (i : Nat) (f : Task → Task) (s : State) : (modTask i f s).dma = s.dma := by unfold modTask; split <;> simp

/-! ### modCore -/

@[simp] theorem modCore_pending (k : Nat) (f : Core → Core) (s : State) : (modCore k f s).pending = s.pending := (rfl)
@[simp] theorem modCore_time (k : Nat) (f : Core → Core) (s : State) : (modCore k f s).time = s.time := (rfl)
@[simp] theorem modCore_beat (k : Nat) (f : Core → Core) (s : State) : (modCore k f s).beat = s.beat := (rfl)
@[simp] theorem modCore_freeIdx (k : Nat) (f : Core → Core) (s : State) : (modCore k f s).freeIdx = s.freeIdx := (rfl)
@[simp] theorem modCore_regs (k : Nat) (f : Core → Core) (s : State) : (modCore k f s).regs = s.regs := (rfl)
@[simp] theorem modCore_shadowS (k : Nat) (f : Core → Core) (s : State) : (modCore k f s).shadowS = s.shadowS := (rfl)
@[simp] theorem modCore_shadowF (k : Nat) (f : Core → Core) (s : State) : (modCore k f s).shadowF = s.shadowF := (rfl)
@[simp] theorem modCore_mem (k : Nat) (f : Core → Core) (s : State) : (modCore k f s).mem = s.mem := (rfl)
@[simp] theorem modCore_ans (k : Nat) (f : Core → Core) (s : State) : (modCore k f s).ans = s.ans := (rfl)
@[simp] theorem modCore_net (k : Nat) (f : Core → Core) (s : State) : (modCore k f s).net = s.net := (rfl)
@[simp] theorem modCore_flt (k : Nat) (f : Core → Core) (s : State) : (modCore k f s).flt = s.flt := (rfl)
@[simp] theorem modCore_lgr (k : Nat) (f : Core → Core) (s : State) : (modCore k f s).lgr = s.lgr := (rfl)
@[simp] theorem modCore_img (k : Nat) (f : Core → Core) (s : State) : (modCore k f s).img = s.img := (rfl)
@[simp] theorem modCore_pwr (k : Nat) (f : Core → Core) (s : State) : (modCore k f s).pwr = s.pwr := (rfl)
@[simp] theorem modCore_sec (k : Nat) (f : Core → Core) (s : State) : (modCore k f s).sec = s.sec := (rfl)
@[simp] theorem modCore_dbg (k : Nat) (f : Core → Core) (s : State) : (modCore k f s).dbg = s.dbg := (rfl)
@[simp] theorem modCore_tb (k : Nat) (f : Core → Core) (s : State) : (modCore k f s).tb = s.tb := (rfl)
@[simp] theorem modCore_lanes (k : Nat) (f : Core → Core) (s : State) : (modCore k f s).lanes = s.lanes := (rfl)
@[simp] theorem modCore_seq (k : Nat) (f : Core → Core) (s : State) : (modCore k f s).seq = s.seq := (rfl)
@[simp] theorem modCore_links (k : Nat) (f : Core → Core) (s : State) : (modCore k f s).links = s.links := (rfl)
@[simp] theorem modCore_tst (k : Nat) (f : Core → Core) (s : State) : (modCore k f s).tst = s.tst := (rfl)
@[simp] theorem modCore_cmp (k : Nat) (f : Core → Core) (s : State) : (modCore k f s).cmp = s.cmp := (rfl)
@[simp] theorem modCore_lib (k : Nat) (f : Core → Core) (s : State) : (modCore k f s).lib = s.lib := (rfl)
@[simp] theorem modCore_trg (k : Nat) (f : Core → Core) (s : State) : (modCore k f s).trg = s.trg := (rfl)
@[simp] theorem modCore_acq (k : Nat) (f : Core → Core) (s : State) : (modCore k f s).acq = s.acq := (rfl)
@[simp] theorem modCore_mea (k : Nat) (f : Core → Core) (s : State) : (modCore k f s).mea = s.mea := (rfl)
@[simp] theorem modCore_src (k : Nat) (f : Core → Core) (s : State) : (modCore k f s).src = s.src := (rfl)
@[simp] theorem modCore_tdc (k : Nat) (f : Core → Core) (s : State) : (modCore k f s).tdc = s.tdc := (rfl)
@[simp] theorem modCore_qdr (k : Nat) (f : Core → Core) (s : State) : (modCore k f s).qdr = s.qdr := (rfl)
@[simp] theorem modCore_hbm (k : Nat) (f : Core → Core) (s : State) : (modCore k f s).hbm = s.hbm := (rfl)
@[simp] theorem modCore_ptp (k : Nat) (f : Core → Core) (s : State) : (modCore k f s).ptp = s.ptp := (rfl)
@[simp] theorem modCore_dma (k : Nat) (f : Core → Core) (s : State) : (modCore k f s).dma = s.dma := (rfl)

/-! ### setReady -/

@[simp] theorem setReady_pending (l : Nat) (ts : List Nat) (s : State) : (setReady l ts s).pending = s.pending := (rfl)
@[simp] theorem setReady_time (l : Nat) (ts : List Nat) (s : State) : (setReady l ts s).time = s.time := (rfl)
@[simp] theorem setReady_beat (l : Nat) (ts : List Nat) (s : State) : (setReady l ts s).beat = s.beat := (rfl)
@[simp] theorem setReady_freeIdx (l : Nat) (ts : List Nat) (s : State) : (setReady l ts s).freeIdx = s.freeIdx := (rfl)
@[simp] theorem setReady_regs (l : Nat) (ts : List Nat) (s : State) : (setReady l ts s).regs = s.regs := (rfl)
@[simp] theorem setReady_shadowS (l : Nat) (ts : List Nat) (s : State) : (setReady l ts s).shadowS = s.shadowS := (rfl)
@[simp] theorem setReady_shadowF (l : Nat) (ts : List Nat) (s : State) : (setReady l ts s).shadowF = s.shadowF := (rfl)
@[simp] theorem setReady_mem (l : Nat) (ts : List Nat) (s : State) : (setReady l ts s).mem = s.mem := (rfl)
@[simp] theorem setReady_ans (l : Nat) (ts : List Nat) (s : State) : (setReady l ts s).ans = s.ans := (rfl)
@[simp] theorem setReady_net (l : Nat) (ts : List Nat) (s : State) : (setReady l ts s).net = s.net := (rfl)
@[simp] theorem setReady_flt (l : Nat) (ts : List Nat) (s : State) : (setReady l ts s).flt = s.flt := (rfl)
@[simp] theorem setReady_lgr (l : Nat) (ts : List Nat) (s : State) : (setReady l ts s).lgr = s.lgr := (rfl)
@[simp] theorem setReady_img (l : Nat) (ts : List Nat) (s : State) : (setReady l ts s).img = s.img := (rfl)
@[simp] theorem setReady_pwr (l : Nat) (ts : List Nat) (s : State) : (setReady l ts s).pwr = s.pwr := (rfl)
@[simp] theorem setReady_sec (l : Nat) (ts : List Nat) (s : State) : (setReady l ts s).sec = s.sec := (rfl)
@[simp] theorem setReady_dbg (l : Nat) (ts : List Nat) (s : State) : (setReady l ts s).dbg = s.dbg := (rfl)
@[simp] theorem setReady_tb (l : Nat) (ts : List Nat) (s : State) : (setReady l ts s).tb = s.tb := (rfl)
@[simp] theorem setReady_lanes (l : Nat) (ts : List Nat) (s : State) : (setReady l ts s).lanes = s.lanes := (rfl)
@[simp] theorem setReady_seq (l : Nat) (ts : List Nat) (s : State) : (setReady l ts s).seq = s.seq := (rfl)
@[simp] theorem setReady_links (l : Nat) (ts : List Nat) (s : State) : (setReady l ts s).links = s.links := (rfl)
@[simp] theorem setReady_tst (l : Nat) (ts : List Nat) (s : State) : (setReady l ts s).tst = s.tst := (rfl)
@[simp] theorem setReady_cmp (l : Nat) (ts : List Nat) (s : State) : (setReady l ts s).cmp = s.cmp := (rfl)
@[simp] theorem setReady_lib (l : Nat) (ts : List Nat) (s : State) : (setReady l ts s).lib = s.lib := (rfl)
@[simp] theorem setReady_trg (l : Nat) (ts : List Nat) (s : State) : (setReady l ts s).trg = s.trg := (rfl)
@[simp] theorem setReady_acq (l : Nat) (ts : List Nat) (s : State) : (setReady l ts s).acq = s.acq := (rfl)
@[simp] theorem setReady_mea (l : Nat) (ts : List Nat) (s : State) : (setReady l ts s).mea = s.mea := (rfl)
@[simp] theorem setReady_src (l : Nat) (ts : List Nat) (s : State) : (setReady l ts s).src = s.src := (rfl)
@[simp] theorem setReady_tdc (l : Nat) (ts : List Nat) (s : State) : (setReady l ts s).tdc = s.tdc := (rfl)
@[simp] theorem setReady_qdr (l : Nat) (ts : List Nat) (s : State) : (setReady l ts s).qdr = s.qdr := (rfl)
@[simp] theorem setReady_hbm (l : Nat) (ts : List Nat) (s : State) : (setReady l ts s).hbm = s.hbm := (rfl)
@[simp] theorem setReady_ptp (l : Nat) (ts : List Nat) (s : State) : (setReady l ts s).ptp = s.ptp := (rfl)
@[simp] theorem setReady_dma (l : Nat) (ts : List Nat) (s : State) : (setReady l ts s).dma = s.dma := (rfl)

/-! ### setDmaRun -/

@[simp] theorem setDmaRun_pending (c : Nat) (r : Option DmaRun) (s : State) : (setDmaRun c r s).pending = s.pending := (rfl)
@[simp] theorem setDmaRun_time (c : Nat) (r : Option DmaRun) (s : State) : (setDmaRun c r s).time = s.time := (rfl)
@[simp] theorem setDmaRun_beat (c : Nat) (r : Option DmaRun) (s : State) : (setDmaRun c r s).beat = s.beat := (rfl)
@[simp] theorem setDmaRun_freeIdx (c : Nat) (r : Option DmaRun) (s : State) : (setDmaRun c r s).freeIdx = s.freeIdx := (rfl)
@[simp] theorem setDmaRun_regs (c : Nat) (r : Option DmaRun) (s : State) : (setDmaRun c r s).regs = s.regs := (rfl)
@[simp] theorem setDmaRun_shadowS (c : Nat) (r : Option DmaRun) (s : State) : (setDmaRun c r s).shadowS = s.shadowS := (rfl)
@[simp] theorem setDmaRun_shadowF (c : Nat) (r : Option DmaRun) (s : State) : (setDmaRun c r s).shadowF = s.shadowF := (rfl)
@[simp] theorem setDmaRun_mem (c : Nat) (r : Option DmaRun) (s : State) : (setDmaRun c r s).mem = s.mem := (rfl)
@[simp] theorem setDmaRun_ans (c : Nat) (r : Option DmaRun) (s : State) : (setDmaRun c r s).ans = s.ans := (rfl)
@[simp] theorem setDmaRun_net (c : Nat) (r : Option DmaRun) (s : State) : (setDmaRun c r s).net = s.net := (rfl)
@[simp] theorem setDmaRun_flt (c : Nat) (r : Option DmaRun) (s : State) : (setDmaRun c r s).flt = s.flt := (rfl)
@[simp] theorem setDmaRun_lgr (c : Nat) (r : Option DmaRun) (s : State) : (setDmaRun c r s).lgr = s.lgr := (rfl)
@[simp] theorem setDmaRun_img (c : Nat) (r : Option DmaRun) (s : State) : (setDmaRun c r s).img = s.img := (rfl)
@[simp] theorem setDmaRun_pwr (c : Nat) (r : Option DmaRun) (s : State) : (setDmaRun c r s).pwr = s.pwr := (rfl)
@[simp] theorem setDmaRun_sec (c : Nat) (r : Option DmaRun) (s : State) : (setDmaRun c r s).sec = s.sec := (rfl)
@[simp] theorem setDmaRun_dbg (c : Nat) (r : Option DmaRun) (s : State) : (setDmaRun c r s).dbg = s.dbg := (rfl)
@[simp] theorem setDmaRun_tb (c : Nat) (r : Option DmaRun) (s : State) : (setDmaRun c r s).tb = s.tb := (rfl)
@[simp] theorem setDmaRun_lanes (c : Nat) (r : Option DmaRun) (s : State) : (setDmaRun c r s).lanes = s.lanes := (rfl)
@[simp] theorem setDmaRun_seq (c : Nat) (r : Option DmaRun) (s : State) : (setDmaRun c r s).seq = s.seq := (rfl)
@[simp] theorem setDmaRun_links (c : Nat) (r : Option DmaRun) (s : State) : (setDmaRun c r s).links = s.links := (rfl)
@[simp] theorem setDmaRun_tst (c : Nat) (r : Option DmaRun) (s : State) : (setDmaRun c r s).tst = s.tst := (rfl)
@[simp] theorem setDmaRun_cmp (c : Nat) (r : Option DmaRun) (s : State) : (setDmaRun c r s).cmp = s.cmp := (rfl)
@[simp] theorem setDmaRun_lib (c : Nat) (r : Option DmaRun) (s : State) : (setDmaRun c r s).lib = s.lib := (rfl)
@[simp] theorem setDmaRun_trg (c : Nat) (r : Option DmaRun) (s : State) : (setDmaRun c r s).trg = s.trg := (rfl)
@[simp] theorem setDmaRun_acq (c : Nat) (r : Option DmaRun) (s : State) : (setDmaRun c r s).acq = s.acq := (rfl)
@[simp] theorem setDmaRun_mea (c : Nat) (r : Option DmaRun) (s : State) : (setDmaRun c r s).mea = s.mea := (rfl)
@[simp] theorem setDmaRun_src (c : Nat) (r : Option DmaRun) (s : State) : (setDmaRun c r s).src = s.src := (rfl)
@[simp] theorem setDmaRun_tdc (c : Nat) (r : Option DmaRun) (s : State) : (setDmaRun c r s).tdc = s.tdc := (rfl)
@[simp] theorem setDmaRun_qdr (c : Nat) (r : Option DmaRun) (s : State) : (setDmaRun c r s).qdr = s.qdr := (rfl)
@[simp] theorem setDmaRun_hbm (c : Nat) (r : Option DmaRun) (s : State) : (setDmaRun c r s).hbm = s.hbm := (rfl)
@[simp] theorem setDmaRun_sch (c : Nat) (r : Option DmaRun) (s : State) : (setDmaRun c r s).sch = s.sch := (rfl)
@[simp] theorem setDmaRun_ptp (c : Nat) (r : Option DmaRun) (s : State) : (setDmaRun c r s).ptp = s.ptp := (rfl)

/-! ### putDmaRun -/

@[simp] theorem putDmaRun_pending (c : Nat) (r : DmaRun) (s : State) : (putDmaRun c r s).pending = s.pending := by simp [putDmaRun]
@[simp] theorem putDmaRun_time (c : Nat) (r : DmaRun) (s : State) : (putDmaRun c r s).time = s.time := by simp [putDmaRun]
@[simp] theorem putDmaRun_beat (c : Nat) (r : DmaRun) (s : State) : (putDmaRun c r s).beat = s.beat := by simp [putDmaRun]
@[simp] theorem putDmaRun_freeIdx (c : Nat) (r : DmaRun) (s : State) : (putDmaRun c r s).freeIdx = s.freeIdx := by simp [putDmaRun]
@[simp] theorem putDmaRun_shadowS (c : Nat) (r : DmaRun) (s : State) : (putDmaRun c r s).shadowS = s.shadowS := by simp [putDmaRun]
@[simp] theorem putDmaRun_shadowF (c : Nat) (r : DmaRun) (s : State) : (putDmaRun c r s).shadowF = s.shadowF := by simp [putDmaRun]
@[simp] theorem putDmaRun_mem (c : Nat) (r : DmaRun) (s : State) : (putDmaRun c r s).mem = s.mem := by simp [putDmaRun]
@[simp] theorem putDmaRun_ans (c : Nat) (r : DmaRun) (s : State) : (putDmaRun c r s).ans = s.ans := by simp [putDmaRun]
@[simp] theorem putDmaRun_net (c : Nat) (r : DmaRun) (s : State) : (putDmaRun c r s).net = s.net := by simp [putDmaRun]
@[simp] theorem putDmaRun_flt (c : Nat) (r : DmaRun) (s : State) : (putDmaRun c r s).flt = s.flt := by simp [putDmaRun]
@[simp] theorem putDmaRun_lgr (c : Nat) (r : DmaRun) (s : State) : (putDmaRun c r s).lgr = s.lgr := by simp [putDmaRun]
@[simp] theorem putDmaRun_img (c : Nat) (r : DmaRun) (s : State) : (putDmaRun c r s).img = s.img := by simp [putDmaRun]
@[simp] theorem putDmaRun_pwr (c : Nat) (r : DmaRun) (s : State) : (putDmaRun c r s).pwr = s.pwr := by simp [putDmaRun]
@[simp] theorem putDmaRun_sec (c : Nat) (r : DmaRun) (s : State) : (putDmaRun c r s).sec = s.sec := by simp [putDmaRun]
@[simp] theorem putDmaRun_dbg (c : Nat) (r : DmaRun) (s : State) : (putDmaRun c r s).dbg = s.dbg := by simp [putDmaRun]
@[simp] theorem putDmaRun_tb (c : Nat) (r : DmaRun) (s : State) : (putDmaRun c r s).tb = s.tb := by simp [putDmaRun]
@[simp] theorem putDmaRun_lanes (c : Nat) (r : DmaRun) (s : State) : (putDmaRun c r s).lanes = s.lanes := by simp [putDmaRun]
@[simp] theorem putDmaRun_seq (c : Nat) (r : DmaRun) (s : State) : (putDmaRun c r s).seq = s.seq := by simp [putDmaRun]
@[simp] theorem putDmaRun_links (c : Nat) (r : DmaRun) (s : State) : (putDmaRun c r s).links = s.links := by simp [putDmaRun]
@[simp] theorem putDmaRun_tst (c : Nat) (r : DmaRun) (s : State) : (putDmaRun c r s).tst = s.tst := by simp [putDmaRun]
@[simp] theorem putDmaRun_cmp (c : Nat) (r : DmaRun) (s : State) : (putDmaRun c r s).cmp = s.cmp := by simp [putDmaRun]
@[simp] theorem putDmaRun_lib (c : Nat) (r : DmaRun) (s : State) : (putDmaRun c r s).lib = s.lib := by simp [putDmaRun]
@[simp] theorem putDmaRun_trg (c : Nat) (r : DmaRun) (s : State) : (putDmaRun c r s).trg = s.trg := by simp [putDmaRun]
@[simp] theorem putDmaRun_acq (c : Nat) (r : DmaRun) (s : State) : (putDmaRun c r s).acq = s.acq := by simp [putDmaRun]
@[simp] theorem putDmaRun_mea (c : Nat) (r : DmaRun) (s : State) : (putDmaRun c r s).mea = s.mea := by simp [putDmaRun]
@[simp] theorem putDmaRun_src (c : Nat) (r : DmaRun) (s : State) : (putDmaRun c r s).src = s.src := by simp [putDmaRun]
@[simp] theorem putDmaRun_tdc (c : Nat) (r : DmaRun) (s : State) : (putDmaRun c r s).tdc = s.tdc := by simp [putDmaRun]
@[simp] theorem putDmaRun_qdr (c : Nat) (r : DmaRun) (s : State) : (putDmaRun c r s).qdr = s.qdr := by simp [putDmaRun]
@[simp] theorem putDmaRun_hbm (c : Nat) (r : DmaRun) (s : State) : (putDmaRun c r s).hbm = s.hbm := by simp [putDmaRun]
@[simp] theorem putDmaRun_sch (c : Nat) (r : DmaRun) (s : State) : (putDmaRun c r s).sch = s.sch := by simp [putDmaRun]
@[simp] theorem putDmaRun_ptp (c : Nat) (r : DmaRun) (s : State) : (putDmaRun c r s).ptp = s.ptp := by simp [putDmaRun]

end Sys2Proof.Machine
end

