-- ==== Sys2Proof/Laws/Tbl.lean ====
section
/-! SUPPORT. What a sparse table reads after a write, and that every write keeps the canonical form. -/

namespace Sys2Proof.Machine

variable {α : Type}

/-! ### Reading -/

theorem tfind_terase_self (t : Tbl α) (k : Nat) : tfind (terase t k) k = none := by
  induction t with
  | nil => rfl
  | cons e r ih =>
    obtain ⟨j, v⟩ := e
    by_cases h : j = k <;> simp [terase, tfind, h, ih]

theorem tfind_terase_other (t : Tbl α) (k j : Nat) (h : j ≠ k) : tfind (terase t k) j = tfind t j := by
  induction t with
  | nil => rfl
  | cons e r ih =>
    obtain ⟨i, v⟩ := e
    by_cases hi : i = k
    · subst hi
      have hne : i ≠ j := fun e => h e.symm
      simp [terase, tfind, ih, hne]
    · simp only [terase, hi, if_false, tfind]
      split
      · rfl
      · exact ih

theorem tfind_tinsert_self (t : Tbl α) (k : Nat) (v : α) (h : tfind t k = none) : tfind (tinsert t k v) k = some v := by
  induction t with
  | nil => simp [tinsert, tfind]
  | cons e r ih =>
    obtain ⟨i, w⟩ := e
    have hi : i ≠ k := by intro e; simp [tfind, e] at h
    have hr : tfind r k = none := by simpa [tfind, hi] using h
    by_cases hk : k < i
    · simp [tinsert, tfind, hk]
    · simp [tinsert, tfind, hk, hi, ih hr]

theorem tfind_tinsert_other (t : Tbl α) (k j : Nat) (v : α) (h : j ≠ k) : tfind (tinsert t k v) j = tfind t j := by
  have hk : k ≠ j := fun e => h e.symm
  induction t with
  | nil => simp [tinsert, tfind, hk]
  | cons e r ih =>
    obtain ⟨i, w⟩ := e
    by_cases hi : k < i
    · simp [tinsert, tfind, hi, hk]
    · simp only [tinsert, hi, if_false, tfind]
      split
      · rfl
      · exact ih

/-- A read of the key written gives the value written. -/
@[simp] theorem tget_tset_self [DecidableEq α] (d : Nat → α) (t : Tbl α) (k : Nat) (v : α) : tget d (tset d t k v) k = v := by
  by_cases h : v = d k
  · simp [tget, tset, h, tfind_terase_self]
  · simp [tget, tset, h, tfind_tinsert_self _ _ _ (tfind_terase_self t k)]

/-- A write leaves every other key alone. -/
theorem tget_tset_other [DecidableEq α] (d : Nat → α) (t : Tbl α) (k j : Nat) (v : α) (h : j ≠ k) :
    tget d (tset d t k v) j = tget d t j := by
  by_cases hv : v = d k
  · simp [tget, tset, hv, tfind_terase_other t k j h]
  · simp [tget, tset, hv, tfind_tinsert_other _ k j v h, tfind_terase_other t k j h]

/-- Reading after a write, in one equation. -/
theorem tget_tset [DecidableEq α] (d : Nat → α) (t : Tbl α) (k j : Nat) (v : α) :
    tget d (tset d t k v) j = if j = k then v else tget d t j := by
  by_cases h : j = k
  · subst h; simp
  · simp [h, tget_tset_other d t k j v h]

/-- A run of writes leaves every key outside it alone. -/
theorem tget_tsetList_other [DecidableEq α] (d : Nat → α) (vs : List α) (t : Tbl α) (k j : Nat)
    (h : j < k ∨ k + vs.length ≤ j) : tget d (tsetList d t k vs) j = tget d t j := by
  induction vs generalizing t k with
  | nil => rfl
  | cons v vs ih =>
    simp only [List.length_cons] at h
    rw [tsetList, ih _ _ (by omega), tget_tset_other d t k j v (by omega)]

/-! ### The canonical form -/

/-- Every key of a table is above a bound. -/
theorem keysRise_cons (j : Nat) (v : α) (r : Tbl α) :
    keysRise ((j, v) :: r) = true ↔ (∀ e ∈ r, j < e.1) ∧ keysRise r = true := by
  induction r generalizing j v with
  | nil => simp [keysRise]
  | cons e r ih =>
    obtain ⟨k, w⟩ := e
    have hk := ih k w
    constructor
    · intro h
      simp only [keysRise, Bool.and_eq_true, decide_eq_true_eq] at h
      have hr : keysRise ((k, w) :: r) = true := by simp only [keysRise, Bool.and_eq_true]; exact h.2
      refine ⟨?_, hr⟩
      intro e he
      rcases List.mem_cons.mp he with rfl | he
      · exact h.1
      · exact Nat.lt_trans h.1 ((hk.mp hr).1 e he)
    · intro h
      have h1 : j < k := h.1 (k, w) (List.mem_cons_self ..)
      have h2 := h.2
      simp only [keysRise, Bool.and_eq_true, decide_eq_true_eq] at h2 ⊢
      exact ⟨h1, h2⟩

theorem mem_terase {t : Tbl α} {k : Nat} {e : Nat × α} (h : e ∈ terase t k) : e ∈ t ∧ e.1 ≠ k := by
  induction t with
  | nil => simp [terase] at h
  | cons f r ih =>
    obtain ⟨i, w⟩ := f
    by_cases hi : i = k
    · simp only [terase, hi, if_true] at h
      exact ⟨List.mem_cons_of_mem _ (ih h).1, (ih h).2⟩
    · simp only [terase, hi, if_false] at h
      rcases List.mem_cons.mp h with rfl | h
      · exact ⟨List.mem_cons_self .., hi⟩
      · exact ⟨List.mem_cons_of_mem _ (ih h).1, (ih h).2⟩

theorem keysRise_terase (t : Tbl α) (k : Nat) (h : keysRise t = true) : keysRise (terase t k) = true := by
  induction t with
  | nil => rfl
  | cons f r ih =>
    obtain ⟨i, w⟩ := f
    rw [keysRise_cons] at h
    by_cases hi : i = k
    · simp only [terase, hi, if_true]; exact ih h.2
    · simp only [terase, hi, if_false]
      rw [keysRise_cons]
      exact ⟨fun e he => h.1 e (mem_terase he).1, ih h.2⟩

theorem mem_tinsert {t : Tbl α} {k : Nat} {v : α} {e : Nat × α} (h : e ∈ tinsert t k v) : e = (k, v) ∨ e ∈ t := by
  induction t with
  | nil => simp [tinsert] at h; exact .inl h
  | cons f r ih =>
    obtain ⟨i, w⟩ := f
    by_cases hi : k < i
    · simp only [tinsert, hi, if_true] at h
      exact List.mem_cons.mp h
    · simp only [tinsert, hi, if_false] at h
      rcases List.mem_cons.mp h with rfl | h
      · exact .inr (List.mem_cons_self ..)
      · rcases ih h with rfl | h
        · exact .inl rfl
        · exact .inr (List.mem_cons_of_mem _ h)

theorem keysRise_tinsert (t : Tbl α) (k : Nat) (v : α) (h : keysRise t = true) (hk : ∀ e ∈ t, e.1 ≠ k) :
    keysRise (tinsert t k v) = true := by
  induction t with
  | nil => rfl
  | cons f r ih =>
    obtain ⟨i, w⟩ := f
    rw [keysRise_cons] at h
    by_cases hi : k < i
    · simp only [tinsert, hi, if_true]
      rw [keysRise_cons, keysRise_cons]
      refine ⟨?_, h⟩
      intro e he
      rcases List.mem_cons.mp he with rfl | he
      · exact hi
      · exact Nat.lt_trans hi (h.1 e he)
    · simp only [tinsert, hi, if_false]
      rw [keysRise_cons]
      have hne : i ≠ k := hk (i, w) (List.mem_cons_self ..)
      refine ⟨?_, ih h.2 (fun e he => hk e (List.mem_cons_of_mem _ he))⟩
      intro e he
      rcases mem_tinsert he with rfl | he
      · show i < k; omega
      · exact h.1 e he

/-- A write keeps the canonical form. -/
theorem wf_tset [DecidableEq α] (d : Nat → α) (t : Tbl α) (k : Nat) (v : α) (h : Tbl.wf d t = true) :
    Tbl.wf d (tset d t k v) = true := by
  simp only [Tbl.wf, Bool.and_eq_true, List.all_eq_true, decide_eq_true_eq] at h ⊢
  have hr := keysRise_terase t k h.1
  by_cases hv : v = d k
  · simp only [tset, hv, if_true]
    exact ⟨hr, fun e he => h.2 e (mem_terase he).1⟩
  · simp only [tset, hv, if_false]
    refine ⟨keysRise_tinsert _ k v hr (fun e he => (mem_terase he).2), ?_⟩
    intro e he
    rcases mem_tinsert he with rfl | he
    · exact hv
    · exact h.2 e (mem_terase he).1

/-- A run of writes keeps the canonical form. -/
theorem wf_tsetList [DecidableEq α] (d : Nat → α) (vs : List α) (t : Tbl α) (k : Nat) (h : Tbl.wf d t = true) :
    Tbl.wf d (tsetList d t k vs) = true := by
  induction vs generalizing t k with
  | nil => exact h
  | cons v vs ih => exact ih _ _ (wf_tset d t k v h)

end Sys2Proof.Machine
end

