-- ==== Sys2Proof/Laws/Regs.lean ====
section
/-! SUPPORT. What a register, and a byte of memory, reads as after each update: the register written reads what was written, every other
register and every update of something else leaves it. -/

namespace Sys2Proof.Machine

open Sys2Proof

/-- A register reads what the register file holds. -/
theorem rd_congr {s t : State} (h : t.regs = s.regs) (a : Nat) : rd t a = rd s a := by unfold rd; rw [h]

theorem memByte_congr {s t : State} (h : t.mem = s.mem) (a : Nat) : memByte t a = memByte s a := by unfold memByte; rw [h]

@[simp] theorem rd_setReg_self (a : Nat) (w : Word) (s : State) : rd (setReg a w s) a = w := tget_tset_self _ _ _ _

theorem rd_setReg_other (a : Nat) (w : Word) (s : State) (b : Nat) (h : b ≠ a) : rd (setReg a w s) b = rd s b := tget_tset_other _ _ _ _ _ h

theorem rd_setReg (a : Nat) (w : Word) (s : State) (b : Nat) : rd (setReg a w s) b = if b = a then w else rd s b := by
  split
  · next h => rw [h]; exact rd_setReg_self _ _ _
  · next h => exact rd_setReg_other _ _ _ _ h

@[simp] theorem rd_setRegN_self (a n : Nat) (s : State) : rd (setRegN a n s) a = wd n := rd_setReg_self _ _ _
theorem rd_setRegN_other (a n : Nat) (s : State) (j : Nat) (h : j ≠ a) : rd (setRegN a n s) j = rd s j := rd_setReg_other _ _ _ _ h
theorem rd_setRegN (a n : Nat) (s : State) (j : Nat) : rd (setRegN a n s) j = if j = a then wd n else rd s j := rd_setReg _ _ _ _

@[simp] theorem rd_setFld_self (a hi lo x : Nat) (s : State) : rd (setFld a hi lo x s) a = putFld (rd s a) hi lo x := rd_setReg_self _ _ _
theorem rd_setFld_other (a hi lo x : Nat) (s : State) (j : Nat) (h : j ≠ a) : rd (setFld a hi lo x s) j = rd s j := rd_setReg_other _ _ _ _ h
theorem rd_setFld (a hi lo x : Nat) (s : State) (j : Nat) : rd (setFld a hi lo x s) j = if j = a then putFld (rd s a) hi lo x else rd s j := rd_setReg _ _ _ _

@[simp] theorem rd_setBit_self (a k : Nat) (b : Bool) (s : State) : rd (setBit a k b s) a = putFld (rd s a) k k (b2n b) := rd_setReg_self _ _ _
theorem rd_setBit_other (a k : Nat) (b : Bool) (s : State) (j : Nat) (h : j ≠ a) : rd (setBit a k b s) j = rd s j := rd_setReg_other _ _ _ _ h
theorem rd_setBit (a k : Nat) (b : Bool) (s : State) (j : Nat) : rd (setBit a k b s) j = if j = a then putFld (rd s a) k k (b2n b) else rd s j := rd_setReg _ _ _ _

@[simp] theorem rd_orReg_self (a mask : Nat) (s : State) : rd (orReg a mask s) a = rd s a ||| wd mask := rd_setReg_self _ _ _
theorem rd_orReg_other (a mask : Nat) (s : State) (j : Nat) (h : j ≠ a) : rd (orReg a mask s) j = rd s j := rd_setReg_other _ _ _ _ h
theorem rd_orReg (a mask : Nat) (s : State) (j : Nat) : rd (orReg a mask s) j = if j = a then rd s a ||| wd mask else rd s j := rd_setReg _ _ _ _

@[simp] theorem rd_incWrap_self (a k : Nat) (s : State) : rd (incWrap a k s) a = wd (add32 (rdN s a) k) := rd_setReg_self _ _ _
theorem rd_incWrap_other (a k : Nat) (s : State) (j : Nat) (h : j ≠ a) : rd (incWrap a k s) j = rd s j := rd_setReg_other _ _ _ _ h
theorem rd_incWrap (a k : Nat) (s : State) (j : Nat) : rd (incWrap a k s) j = if j = a then wd (add32 (rdN s a) k) else rd s j := rd_setReg _ _ _ _

@[simp] theorem rd_incSat_self (a k : Nat) (s : State) : rd (incSat a k s) a = wd (satAdd (rdN s a) k) := rd_setReg_self _ _ _
theorem rd_incSat_other (a k : Nat) (s : State) (j : Nat) (h : j ≠ a) : rd (incSat a k s) j = rd s j := rd_setReg_other _ _ _ _ h
theorem rd_incSat (a k : Nat) (s : State) (j : Nat) : rd (incSat a k s) j = if j = a then wd (satAdd (rdN s a) k) else rd s j := rd_setReg _ _ _ _

theorem rd_set64_other (a n : Nat) (s : State) (j : Nat) (h : j ≠ a) (h' : j ≠ a + 4) : rd (set64 a n s) j = rd s j := by
  unfold set64
  rw [rd_setRegN_other _ _ _ _ h', rd_setRegN_other _ _ _ _ h]

theorem rd_setRegs_other : ∀ (ws : List Word) (a : Nat) (s : State) (j : Nat), (∀ i, i < ws.length → j ≠ a + 4 * i) → rd (setRegs a ws s) j = rd s j
  | [], _, _, _, _ => rfl
  | w :: ws, a, s, j, h => by
    unfold setRegs
    rw [rd_setRegs_other ws (a + 4) _ j (fun i hi => by have := h (i + 1) (by simp; omega); omega)]
    exact rd_setReg_other _ _ _ _ (by have := h 0 (by simp); omega)

/-- Word `i` of a run of registers that was set. -/
theorem rd_setRegs_self : ∀ (ws : List Word) (a : Nat) (s : State) (i : Nat), i < ws.length → rd (setRegs a ws s) (a + 4 * i) = nth 0 ws i
  | [], _, _, _, h => by simp at h
  | w :: ws, a, s, 0, _ => by
    unfold setRegs
    rw [rd_setRegs_other ws (a + 4) _ _ (fun i _ => by omega)]
    simp [nth]
  | w :: ws, a, s, i + 1, h => by
    unfold setRegs
    rw [show a + 4 * (i + 1) = a + 4 + 4 * i by omega, rd_setRegs_self ws (a + 4) _ i (by simpa using h)]
    simp [nth]

theorem rd_raise (f : FaultRec) (s : State) (a : Nat) (h : a ≠ Reg.FLT_Q_OVERFLOW) : rd (raise f s) a = rd s a := by
  unfold raise
  split
  · rfl
  · extract_lets cov f' o t
    cases o
    · rfl
    · exact rd_setRegN_other _ _ _ _ h

@[simp] theorem rd_setBytes_clean (a : Nat) (bs : List Byte) (s : State) (h : s.hbm.poison = [] ∧ s.hbm.lostSets = []) (j : Nat) :
    rd (setBytes a bs s) j = rd s j := by
  unfold setBytes clearPoison
  simp [h.1, h.2, rd]

theorem rd_setBytes (a : Nat) (bs : List Byte) (s : State) (j : Nat) (h : j ≠ Reg.MEM_STATUS) : rd (setBytes a bs s) j = rd s j := by
  unfold setBytes clearPoison
  split
  · rfl
  · exact rd_setReg_other _ _ _ _ h

@[simp] theorem rd_setByte (a : Nat) (b : Byte) (s : State) (j : Nat) : rd (setByte a b s) j = rd s j := rd_congr (setByte_regs _ _ _) j
@[simp] theorem rd_answer (code : Nat) (s : State) (j : Nat) : rd (answer code s) j = rd s j := rd_congr (answer_regs _ _) j
@[simp] theorem rd_deferAnswer (k : OpenKind) (slot : Nat) (s : State) (j : Nat) : rd (deferAnswer k slot s) j = rd s j := rd_congr (deferAnswer_regs _ _ _) j
@[simp] theorem rd_setObj (id : Nat) (o : Option LibObj) (s : State) (j : Nat) : rd (setObj id o s) j = rd s j := rd_congr (setObj_regs _ _ _) j
@[simp] theorem rd_modObj (id : Nat) (f : LibObj → LibObj) (s : State) (j : Nat) : rd (modObj id f s) j = rd s j := rd_congr (modObj_regs _ _ _) j
@[simp] theorem rd_pushRec (p : Stream → Bool) (r : Rec) (s : State) (j : Nat) : rd (pushRec p r s) j = rd s j := rd_congr (pushRec_regs _ _ _) j
@[simp] theorem rd_pushEvent (source num value : Nat) (s : State) (j : Nat) : rd (pushEvent source num value s) j = rd s j := rd_congr (pushEvent_regs _ _ _ _) j
@[simp] theorem rd_markOneCopy (uc unit : Nat) (s : State) (j : Nat) : rd (markOneCopy uc unit s) j = rd s j := rd_congr (markOneCopy_regs _ _ _) j
@[simp] theorem rd_useSpare (s : State) (j : Nat) : rd (useSpare s) j = rd s j := rd_congr (useSpare_regs _) j
@[simp] theorem rd_fenceUnit (uc unit : Nat) (s : State) (j : Nat) : rd (fenceUnit uc unit s) j = rd s j := rd_congr (fenceUnit_regs _ _ _) j
@[simp] theorem rd_modLink (g : Nat) (f : Link → Link) (s : State) (j : Nat) : rd (modLink g f s) j = rd s j := rd_congr (modLink_regs _ _ _) j
@[simp] theorem rd_shadowSet (a : Nat) (v : Word) (s : State) (j : Nat) : rd (shadowSet a v s) j = rd s j := rd_congr (shadowSet_regs _ _ _) j
@[simp] theorem rd_shadowFset (a : Nat) (v : Word) (s : State) (j : Nat) : rd (shadowFset a v s) j = rd s j := rd_congr (shadowFset_regs _ _ _) j
@[simp] theorem rd_answerData (w : Word) (s : State) (j : Nat) : rd (answerData w s) j = rd s j := rd_congr (answerData_regs _ _) j
@[simp] theorem rd_modSess (k : Nat) (f : Session → Session) (s : State) (j : Nat) : rd (modSess k f s) j = rd s j := rd_congr (modSess_regs _ _ _) j
@[simp] theorem rd_setHostEntry (n : Nat) (e : HostEntry) (s : State) (j : Nat) : rd (setHostEntry n e s) j = rd s j := rd_congr (setHostEntry_regs _ _ _) j
@[simp] theorem rd_modLane (g l : Nat) (f : Lane → Lane) (s : State) (j : Nat) : rd (modLane g l f s) j = rd s j := rd_congr (modLane_regs _ _ _ _) j
@[simp] theorem rd_modMicro (c : Nat) (f : Micro → Micro) (s : State) (j : Nat) : rd (modMicro c f s) j = rd s j := rd_congr (modMicro_regs _ _ _) j
@[simp] theorem rd_modTst (g : Nat) (f : Timing → Timing) (s : State) (j : Nat) : rd (modTst g f s) j = rd s j := rd_congr (modTst_regs _ _ _) j
@[simp] theorem rd_modTdc (c : Nat) (f : TdcCh → TdcCh) (s : State) (j : Nat) : rd (modTdc c f s) j = rd s j := rd_congr (modTdc_regs _ _ _) j
@[simp] theorem rd_modMea (c : Nat) (f : MeaCh → MeaCh) (s : State) (j : Nat) : rd (modMea c f s) j = rd s j := rd_congr (modMea_regs _ _ _) j
@[simp] theorem rd_modSrc (c : Nat) (f : SrcCh → SrcCh) (s : State) (j : Nat) : rd (modSrc c f s) j = rd s j := rd_congr (modSrc_regs _ _ _) j
@[simp] theorem rd_modAcq (a : Nat) (f : AcqUnit → AcqUnit) (s : State) (j : Nat) : rd (modAcq a f s) j = rd s j := rd_congr (modAcq_regs _ _ _) j
@[simp] theorem rd_modDomain (d : Nat) (f : Domain → Domain) (s : State) (j : Nat) : rd (modDomain d f s) j = rd s j := rd_congr (modDomain_regs _ _ _) j
@[simp] theorem rd_modPeer (u : Nat) (f : Peer → Peer) (s : State) (j : Nat) : rd (modPeer u f s) j = rd s j := rd_congr (modPeer_regs _ _ _) j
@[simp] theorem rd_setTask (i : Nat) (t : Option Task) (s : State) (j : Nat) : rd (setTask i t s) j = rd s j := rd_congr (setTask_regs _ _ _) j
@[simp] theorem rd_modTask (i : Nat) (f : Task → Task) (s : State) (j : Nat) : rd (modTask i f s) j = rd s j := rd_congr (modTask_regs _ _ _) j
@[simp] theorem rd_modCore (k : Nat) (f : Core → Core) (s : State) (j : Nat) : rd (modCore k f s) j = rd s j := rd_congr (modCore_regs _ _ _) j
@[simp] theorem rd_setReady (l : Nat) (ts : List Nat) (s : State) (j : Nat) : rd (setReady l ts s) j = rd s j := rd_congr (setReady_regs _ _ _) j
@[simp] theorem rd_setDmaRun (c : Nat) (r : Option DmaRun) (s : State) (j : Nat) : rd (setDmaRun c r s) j = rd s j := rd_congr (setDmaRun_regs _ _ _) j

/-! ### Memory -/

@[simp] theorem memByte_setByte_self (a : Nat) (b : Byte) (s : State) : memByte (setByte a b s) a = b := tget_tset_self _ _ _ _

theorem memByte_setByte_other (a : Nat) (b : Byte) (s : State) (j : Nat) (h : j ≠ a) : memByte (setByte a b s) j = memByte s j :=
  tget_tset_other _ _ _ _ _ h

theorem setBytes_mem (a : Nat) (bs : List Byte) (s : State) : (setBytes a bs s).mem = tsetList memDefault s.mem a bs := by
  unfold setBytes clearPoison
  split <;> rfl

/-- A store leaves every byte outside the stored ones. -/
theorem memByte_setBytes_other (a : Nat) (bs : List Byte) (s : State) (j : Nat) (h : j < a ∨ a + bs.length ≤ j) :
    memByte (setBytes a bs s) j = memByte s j := by
  unfold memByte
  rw [setBytes_mem]
  exact tget_tsetList_other _ _ _ _ _ h

end Sys2Proof.Machine
end

