-- ==== Sys2Proof/Laws/Fields.lean ====
section
/-! SUPPORT. What a field, a bit and a number of a register read as after the register, or another, was written. -/

namespace Sys2Proof.Laws

open Sys2Proof Sys2Proof.Machine

theorem rdBit_setBit_self (a k : Nat) (b : Bool) (s : State) (h : k < 32) : rdBit (setBit a k b s) a k = b := by
  unfold rdBit setBit
  rw [rd_setFld_self]
  exact bit_put_self _ _ _ h

theorem rdBit_setBit_bit (a k : Nat) (b : Bool) (s : State) (j : Nat) (hj : j < 32) (e : j ≠ k) : rdBit (setBit a k b s) a j = rdBit s a j := by
  unfold rdBit setBit
  rw [rd_setFld_self]
  exact bit_put_other _ _ _ _ _ (by omega) (by omega) hj

theorem rdBit_setFld_bit (a hi lo x : Nat) (s : State) (j : Nat) (hl : lo ≤ hi + 1) (hj : j < 32) (e : j < lo ∨ hi < j) :
    rdBit (setFld a hi lo x s) a j = rdBit s a j := by
  unfold rdBit
  rw [rd_setFld_self]
  exact bit_put_other _ _ _ _ _ hl e hj

theorem rdFld_setFld_self (a hi lo x : Nat) (s : State) (h : hi < 32) : rdFld (setFld a hi lo x s) a hi lo = x % 2 ^ (hi + 1 - lo) := by
  unfold rdFld
  rw [rd_setFld_self, fld_put_self _ _ _ _ h]

theorem rdFld_setFld_low (a hi lo x : Nat) (s : State) (hi' lo' : Nat) (h : hi' < lo) (h' : hi' < 32) :
    rdFld (setFld a hi lo x s) a hi' lo' = rdFld s a hi' lo' := by
  unfold rdFld
  rw [rd_setFld_self, fld_put_low _ _ _ _ _ _ h h']

theorem rdFld_setFld_high (a hi lo x : Nat) (s : State) (hi' lo' : Nat) (hl : lo ≤ hi + 1) (h : hi < lo') (h' : hi' < 32) :
    rdFld (setFld a hi lo x s) a hi' lo' = rdFld s a hi' lo' := by
  unfold rdFld
  rw [rd_setFld_self, fld_put_high _ _ _ _ _ _ hl h h']

theorem bitN_eq_testBit (n k : Nat) : bitN n k = n.testBit k := by
  unfold bitN
  rw [Nat.testBit_eq_decide_div_mod_eq]
  rfl

theorem bit_or (w m : Word) (k : Nat) : bit (w ||| m) k = (bit w k || bit m k) := by
  unfold bit
  rw [bitN_eq_testBit, bitN_eq_testBit, bitN_eq_testBit, BitVec.toNat_or]
  exact Nat.testBit_or ..

theorem bit_wd (n k : Nat) (h : k < 32) : bit (wd n) k = n.testBit k := by
  unfold bit wd
  rw [bitN_eq_testBit, BitVec.toNat_ofNat, Nat.testBit_mod_two_pow]
  simp [h]

/-- A sticky bit written by a mask that holds it reads 1. -/
theorem rdBit_orReg_self (a mask k : Nat) (s : State) (h : k < 32) (hm : mask.testBit k = true) : rdBit (orReg a mask s) a k = true := by
  unfold rdBit
  rw [rd_orReg_self, bit_or _ _ _, bit_wd _ _ h, hm, Bool.or_true]

/-- A sticky bit stays. -/
theorem rdBit_orReg_keep (a mask k : Nat) (s : State) (hm : rdBit s a k = true) : rdBit (orReg a mask s) a k = true := by
  unfold rdBit at hm ⊢
  rw [rd_orReg_self, bit_or _ _ _, hm, Bool.true_or]

theorem rdN_setRegN_self (a n : Nat) (s : State) : rdN (setRegN a n s) a = n % 4294967296 := by
  unfold rdN
  rw [rd_setRegN_self]
  rfl

theorem rdN_lt (s : State) (a : Nat) : rdN s a < 4294967296 := (rd s a).isLt

/-- A counter that wraps. -/
theorem rdN_incWrap_self (a k : Nat) (s : State) : rdN (incWrap a k s) a = (rdN s a + k) % 4294967296 := by
  unfold rdN
  rw [rd_incWrap_self]
  unfold add32 wd
  rw [BitVec.toNat_ofNat]
  exact Nat.mod_mod _ _

/-- A counter that saturates. -/
theorem rdN_incSat_self (a k : Nat) (s : State) : rdN (incSat a k s) a = min (rdN s a + k) 4294967295 := by
  unfold rdN
  rw [rd_incSat_self]
  unfold satAdd wd max32
  rw [BitVec.toNat_ofNat]
  unfold rdN
  omega

theorem rdN_congr {s t : State} {a : Nat} (h : rd t a = rd s a) : rdN t a = rdN s a := congrArg BitVec.toNat h
theorem rdFld_congr {s t : State} {a : Nat} (h : rd t a = rd s a) (hi lo : Nat) : rdFld t a hi lo = rdFld s a hi lo := by unfold rdFld; rw [h]
theorem rdBit_congr {s t : State} {a : Nat} (h : rd t a = rd s a) (k : Nat) : rdBit t a k = rdBit s a k := by unfold rdBit; rw [h]

end Sys2Proof.Laws
end

