-- ==== Sys2Proof/Laws/Keccak.lean ====
section
/-! SUPPORT. A SHA3-256 digest has eight words. -/

namespace Sys2Proof.Laws

open Sys2Proof Sys2Proof.Machine

theorem keccakRound_length (a : List Nat) (rc : Nat) : (keccakRound a rc).length = 25 := rfl

theorem keccakF_length (a : List Nat) : (keccakF a).length = 25 := keccakRound_length _ _

theorem absorb_length (rate n : Nat) (a ls : List Nat) (h : a.length = 25) : (absorb rate n a ls).length = 25 := by
  induction n generalizing a ls with
  | zero => exact h
  | succ n ih => exact ih _ _ (keccakF_length _)

theorem sha3_256_length (m : List Byte) : (sha3_256 m).length = 8 := by
  rw [sha3_256, sha3, List.length_take, List.length_flatMap]
  simp [List.map_const', absorb_length 17 _ _ _ (List.length_replicate (n := 25) (a := 0)), -List.reduceReplicate]

end Sys2Proof.Laws
end

