-- ==== Sys2Proof/Laws/Moves.lean ====
section
/-! SUPPORT. The relation between the state before and after an operation: which parts of the state may differ, and what no operation
breaks (the invariant, the order of security states, the queue, the clock); with its laws for the primitive updates. One lemma per
operation states it (Laws/Moves<Chapter>.lean). -/

namespace Sys2Proof

open Sys2Proof.Machine

theorem Alters.refl {M : List Part} (s : State) : Alters M s s := ⟨fun p _ => by cases p <;> rfl⟩

theorem Alters.trans {M : List Part} {s t u : State} (h : Alters M s t) (k : Alters M t u) : Alters M s u := by
  refine ⟨fun p hp => ?_⟩
  have a := h.same p hp
  have b := k.same p hp
  cases p <;> exact Eq.trans b a

theorem Alters.mono {M N : List Part} {s t : State} (h : Alters M s t) (k : ∀ p ∈ M, p ∈ N) : Alters N s t :=
  ⟨fun p hp => h.same p (fun x => hp (k p x))⟩

end Sys2Proof

namespace Sys2Proof.Laws

open Sys2Proof Sys2Proof.Machine

/-- What no operation breaks. -/
structure Keeps (s t : State) : Prop where
  regs : Registers.wf s = true → Registers.wf t = true
  mem : Memory.wf s.mem = true → Memory.wf t.mem = true
  sec : Security.wf s.sec = true → Security.wf t.sec = true ∧ secRank s.sec.state ≤ secRank t.sec.state
  pending : t.pending = s.pending
  time : s.time ≤ t.time

theorem Keeps.refl (s : State) : Keeps s s := ⟨id, id, fun h => ⟨h, Nat.le_refl _⟩, rfl, Nat.le_refl _⟩

theorem Keeps.trans {s t u : State} (h : Keeps s t) (k : Keeps t u) : Keeps s u :=
  ⟨fun x => k.regs (h.regs x), fun x => k.mem (h.mem x),
   fun x => ⟨(k.sec (h.sec x).1).1, Nat.le_trans (h.sec x).2 (k.sec (h.sec x).1).2⟩,
   k.pending.trans h.pending, Nat.le_trans h.time k.time⟩

theorem Keeps.inv {s t : State} (h : Keeps s t) (i : Inv s) : Inv t :=
  ⟨h.regs i.1, h.mem i.2.1, (h.sec i.2.2).1⟩

/-- An update of the other fields. -/
theorem Keeps.other {s0 s : State} (h : Keeps s0 s) {beat freeIdx shadowS shadowF ans net flt lgr img pwr dbg tb lanes seq links tst cmp lib trg
    acq mea src tdc qdr hbm sch ptp dma} :
    Keeps s0 (State.mk s.pending s.time beat freeIdx s.regs shadowS shadowF s.mem ans net flt lgr img pwr s.sec dbg tb lanes seq links tst cmp
      lib trg acq mea src tdc qdr hbm sch ptp dma) :=
  h.trans ⟨id, id, fun x => ⟨x, Nat.le_refl _⟩, rfl, Nat.le_refl _⟩

/-- Only the parts of `M` differ, and nothing is broken. -/
structure Moves (M : List Part) (s t : State) : Prop where
  alters : Alters M s t
  keeps : Keeps s t

/-- Every part of `N` is one of `M`. -/
abbrev inMask (N M : List Part) : Bool := N.all (fun p => M.contains p)

theorem mem_of_inMask {N M : List Part} (h : inMask N M = true) : ∀ p ∈ N, p ∈ M := by
  intro p hp
  have := List.all_eq_true.mp h p hp
  simpa using this

theorem inMask_trans {A B C : List Part} (h : inMask A B = true) (k : inMask B C = true) : inMask A C = true :=
  List.all_eq_true.mpr (fun p hp => by simpa using mem_of_inMask k p (mem_of_inMask h p hp))

theorem Moves.refl (M : List Part) (s : State) : Moves M s s := ⟨Alters.refl s, Keeps.refl s⟩

theorem Moves.trans {M : List Part} {s t u : State} (h : Moves M s t) (k : Moves M t u) : Moves M s u :=
  ⟨h.alters.trans k.alters, h.keeps.trans k.keeps⟩

theorem Moves.mono {M N : List Part} {s t : State} (h : Moves N s t) (k : inMask N M = true) : Moves M s t :=
  ⟨h.alters.mono (mem_of_inMask k), h.keeps⟩

/-- An operation that moves fewer parts, after what was reached. -/
theorem Moves.via {M N : List Part} {s t u : State} (k : Moves N t u) (w : inMask N M = true) (h : Moves M s t) : Moves M s u :=
  h.trans (k.mono w)

/-- An update of fields of a state that was reached, other than registers, memory, security, the queue and the clock. -/
theorem Moves.update {M : List Part} {s0 s : State} {v_beat v_freeIdx v_shadowS v_shadowF v_ans v_net v_flt v_lgr v_img v_pwr v_dbg v_tb v_lanes v_seq v_links v_tst v_cmp v_lib v_trg v_acq v_mea v_src v_tdc v_qdr v_hbm v_sch v_ptp v_dma}
    (h_beat : v_beat = s.beat ∨ Part.beat ∈ M)
    (h_freeIdx : v_freeIdx = s.freeIdx ∨ Part.freeIdx ∈ M)
    (h_shadowS : v_shadowS = s.shadowS ∨ Part.shadowS ∈ M)
    (h_shadowF : v_shadowF = s.shadowF ∨ Part.shadowF ∈ M)
    (h_ans : v_ans = s.ans ∨ Part.ans ∈ M)
    (h_net : v_net = s.net ∨ Part.net ∈ M)
    (h_flt : v_flt = s.flt ∨ Part.flt ∈ M)
    (h_lgr : v_lgr = s.lgr ∨ Part.lgr ∈ M)
    (h_img : v_img = s.img ∨ Part.img ∈ M)
    (h_pwr : v_pwr = s.pwr ∨ Part.pwr ∈ M)
    (h_dbg : v_dbg = s.dbg ∨ Part.dbg ∈ M)
    (h_tb : v_tb = s.tb ∨ Part.tb ∈ M)
    (h_lanes : v_lanes = s.lanes ∨ Part.lanes ∈ M)
    (h_seq : v_seq = s.seq ∨ Part.seq ∈ M)
    (h_links : v_links = s.links ∨ Part.links ∈ M)
    (h_tst : v_tst = s.tst ∨ Part.tst ∈ M)
    (h_cmp : v_cmp = s.cmp ∨ Part.cmp ∈ M)
    (h_lib : v_lib = s.lib ∨ Part.lib ∈ M)
    (h_trg : v_trg = s.trg ∨ Part.trg ∈ M)
    (h_acq : v_acq = s.acq ∨ Part.acq ∈ M)
    (h_mea : v_mea = s.mea ∨ Part.mea ∈ M)
    (h_src : v_src = s.src ∨ Part.src ∈ M)
    (h_tdc : v_tdc = s.tdc ∨ Part.tdc ∈ M)
    (h_qdr : v_qdr = s.qdr ∨ Part.qdr ∈ M)
    (h_hbm : v_hbm = s.hbm ∨ Part.hbm ∈ M)
    (h_sch : v_sch = s.sch ∨ Part.sch ∈ M)
    (h_ptp : v_ptp = s.ptp ∨ Part.ptp ∈ M)
    (h_dma : v_dma = s.dma ∨ Part.dma ∈ M)
    (h : Moves M s0 s) : Moves M s0 (State.mk s.pending s.time v_beat v_freeIdx s.regs v_shadowS v_shadowF s.mem v_ans v_net v_flt v_lgr v_img v_pwr s.sec v_dbg v_tb v_lanes v_seq v_links v_tst v_cmp v_lib v_trg v_acq v_mea v_src v_tdc v_qdr v_hbm v_sch v_ptp v_dma) := by
  refine ⟨h.alters.trans ⟨fun p hp => ?_⟩, Keeps.other h.keeps⟩
  cases p
  case pending => rfl
  case time => rfl
  case beat => exact h_beat.resolve_right hp
  case freeIdx => exact h_freeIdx.resolve_right hp
  case regs => rfl
  case shadowS => exact h_shadowS.resolve_right hp
  case shadowF => exact h_shadowF.resolve_right hp
  case mem => rfl
  case ans => exact h_ans.resolve_right hp
  case net => exact h_net.resolve_right hp
  case flt => exact h_flt.resolve_right hp
  case lgr => exact h_lgr.resolve_right hp
  case img => exact h_img.resolve_right hp
  case pwr => exact h_pwr.resolve_right hp
  case sec => rfl
  case dbg => exact h_dbg.resolve_right hp
  case tb => exact h_tb.resolve_right hp
  case lanes => exact h_lanes.resolve_right hp
  case seq => exact h_seq.resolve_right hp
  case links => exact h_links.resolve_right hp
  case tst => exact h_tst.resolve_right hp
  case cmp => exact h_cmp.resolve_right hp
  case lib => exact h_lib.resolve_right hp
  case trg => exact h_trg.resolve_right hp
  case acq => exact h_acq.resolve_right hp
  case mea => exact h_mea.resolve_right hp
  case src => exact h_src.resolve_right hp
  case tdc => exact h_tdc.resolve_right hp
  case qdr => exact h_qdr.resolve_right hp
  case hbm => exact h_hbm.resolve_right hp
  case sch => exact h_sch.resolve_right hp
  case ptp => exact h_ptp.resolve_right hp
  case dma => exact h_dma.resolve_right hp

/-- A change of the fuses that the invariant permits. -/
theorem Moves.sec {M : List Part} {s0 s : State} (x : Sec) (hm : Part.sec ∈ M)
    (hf : Security.wf s0.sec = true → Security.wf s.sec = true → Security.wf x = true ∧ secRank s.sec.state ≤ secRank x.state)
    (h : Moves M s0 s) : Moves M s0 { s with sec := x } := by
  refine ⟨h.alters.trans ⟨fun p hp => by cases p <;> first | rfl | exact absurd hm hp⟩, h.keeps.regs, h.keeps.mem, fun w => ?_, h.keeps.pending,
    h.keeps.time⟩
  obtain ⟨h1, h2⟩ := h.keeps.sec w
  obtain ⟨h3, h4⟩ := hf w h1
  exact ⟨h3, Nat.le_trans h2 h4⟩

/-- A change of the security fields that keeps the state and, unless it is over, the command. -/
theorem Moves.secSame {M : List Part} {s0 s : State} (x : Sec) (hm : Part.sec ∈ M) (hs : x.state = s.sec.state)
    (hc : x.cmd = s.sec.cmd ∨ x.cmd = none) (h : Moves M s0 s) : Moves M s0 { s with sec := x } := by
  refine Moves.sec x hm (fun _ w => ⟨?_, Nat.le_of_eq (by rw [hs])⟩) h
  rcases hc with hc | hc
  · simpa [Security.wf, hs, hc] using w
  · simp [Security.wf, hc]

theorem setReg_moves (a : Nat) (x : Word) {M : List Part} {s0 s : State} (hw : inMask [.regs] M = true) (h0 : Moves M s0 s) :
    Moves M s0 (setReg a x s) :=
  Moves.via (N := [.regs]) (t := s) ⟨⟨fun p hp => by cases p <;> first | rfl | exact absurd (by decide) hp⟩,
    ⟨fun x => wf_tset _ _ _ _ x, id, fun x => ⟨x, Nat.le_refl _⟩, rfl, Nat.le_refl _⟩⟩ hw h0

theorem setByte_moves (a : Nat) (b : Byte) {M : List Part} {s0 s : State} (hw : inMask [.mem] M = true) (h0 : Moves M s0 s) :
    Moves M s0 (setByte a b s) :=
  Moves.via (N := [.mem]) (t := s) ⟨⟨fun p hp => by cases p <;> first | rfl | exact absurd (by decide) hp⟩,
    ⟨id, fun x => wf_tset _ _ _ _ x, fun x => ⟨x, Nat.le_refl _⟩, rfl, Nat.le_refl _⟩⟩ hw h0

theorem storeBytes_moves (a : Nat) (bs : List Byte) {M : List Part} {s0 s : State} (hw : inMask [.mem] M = true) (h0 : Moves M s0 s) :
    Moves M s0 { s with mem := tsetList memDefault s.mem a bs } :=
  Moves.via (N := [.mem]) (t := s) ⟨⟨fun p hp => by cases p <;> first | rfl | exact absurd (by decide) hp⟩,
    ⟨id, fun x => wf_tsetList _ _ _ _ x, fun x => ⟨x, Nat.le_refl _⟩, rfl, Nat.le_refl _⟩⟩ hw h0

/-- What an operation that also answers a value leaves, where the pair is named. -/
theorem Moves.of2 {M : List Part} {s t : State} {α : Type} {p : α × State} {a : α} (h : p = (a, t)) (k : Moves M s p.2) : Moves M s t := by
  rw [h] at k
  exact k

theorem Moves.of3 {M : List Part} {s t : State} {α β : Type} {p : α × β × State} {a : α} {b : β} (h : p = (a, b, t)) (k : Moves M s p.2.2) :
    Moves M s t := by
  rw [h] at k
  exact k

/-- A fold of operations that each keep the relation. -/
theorem Moves.foldl {M : List Part} {s0 : State} {α : Type} {f : State → α → State} (hf : ∀ s x, Moves M s0 s → Moves M s0 (f s x)) :
    ∀ (l : List α) {s : State}, Moves M s0 s → Moves M s0 (l.foldl f s)
  | [], _, h => h
  | x :: l, s, h => Moves.foldl hf l (hf s x h)

end Sys2Proof.Laws
end

