-- ==== Sys2Proof/Laws/MovesOps.lean ====
section
/-! SUPPORT. What the operations of Machine/Ops.lean may change of the state, and that they keep what no operation breaks. -/

namespace Sys2Proof.Laws

open Sys2Proof Sys2Proof.Machine



theorem setRegN_moves (a n : Nat) {M : List Part} {s0 s : State} (hw : inMask [.regs] M = true) (h0 : Moves M s0 s) : Moves M s0 (setRegN a n s) := by
  refine Moves.via (N := [.regs]) ?_ hw h0
  clear hw h0
  have hK := Moves.refl [.regs] s
  unfold setRegN
  iterate 60 all_goals first
    | with_reducible assumption
    | ((with_reducible apply setReg_moves (hw := ?w)); case w => rfl)
    | intro _
    | dsimp only
    | split

theorem setFld_moves (a hi lo x : Nat) {M : List Part} {s0 s : State} (hw : inMask [.regs] M = true) (h0 : Moves M s0 s) : Moves M s0 (setFld a hi lo x s) := by
  refine Moves.via (N := [.regs]) ?_ hw h0
  clear hw h0
  have hK := Moves.refl [.regs] s
  unfold setFld
  iterate 60 all_goals first
    | with_reducible assumption
    | ((with_reducible apply setReg_moves (hw := ?w)); case w => rfl)
    | intro _
    | dsimp only
    | split

theorem setBit_moves (a k : Nat) (b : Bool) {M : List Part} {s0 s : State} (hw : inMask [.regs] M = true) (h0 : Moves M s0 s) : Moves M s0 (setBit a k b s) := by
  refine Moves.via (N := [.regs]) ?_ hw h0
  clear hw h0
  have hK := Moves.refl [.regs] s
  unfold setBit
  iterate 60 all_goals first
    | with_reducible assumption
    | ((with_reducible apply setFld_moves (hw := ?w)); case w => rfl)
    | intro _
    | dsimp only
    | split

theorem orReg_moves (a mask : Nat) {M : List Part} {s0 s : State} (hw : inMask [.regs] M = true) (h0 : Moves M s0 s) : Moves M s0 (orReg a mask s) := by
  refine Moves.via (N := [.regs]) ?_ hw h0
  clear hw h0
  have hK := Moves.refl [.regs] s
  unfold orReg
  iterate 60 all_goals first
    | with_reducible assumption
    | ((with_reducible apply setReg_moves (hw := ?w)); case w => rfl)
    | intro _
    | dsimp only
    | split

theorem incWrap_moves (a k : Nat) {M : List Part} {s0 s : State} (hw : inMask [.regs] M = true) (h0 : Moves M s0 s) : Moves M s0 (incWrap a k s) := by
  refine Moves.via (N := [.regs]) ?_ hw h0
  clear hw h0
  have hK := Moves.refl [.regs] s
  unfold incWrap
  iterate 60 all_goals first
    | with_reducible assumption
    | ((with_reducible apply setRegN_moves (hw := ?w)); case w => rfl)
    | intro _
    | dsimp only
    | split

theorem incSat_moves (a k : Nat) {M : List Part} {s0 s : State} (hw : inMask [.regs] M = true) (h0 : Moves M s0 s) : Moves M s0 (incSat a k s) := by
  refine Moves.via (N := [.regs]) ?_ hw h0
  clear hw h0
  have hK := Moves.refl [.regs] s
  unfold incSat
  iterate 60 all_goals first
    | with_reducible assumption
    | ((with_reducible apply setRegN_moves (hw := ?w)); case w => rfl)
    | intro _
    | dsimp only
    | split

theorem set64_moves (a n : Nat) {M : List Part} {s0 s : State} (hw : inMask [.regs] M = true) (h0 : Moves M s0 s) : Moves M s0 (set64 a n s) := by
  refine Moves.via (N := [.regs]) ?_ hw h0
  clear hw h0
  have hK := Moves.refl [.regs] s
  unfold set64
  iterate 60 all_goals first
    | with_reducible assumption
    | ((with_reducible apply setRegN_moves (hw := ?w)); case w => rfl)
    | intro _
    | dsimp only
    | split

theorem setRegs_moves (a : Nat) (x0 : List Word) {M : List Part} {s0 s : State} (hw : inMask [.regs] M = true) (h0 : Moves M s0 s) : Moves M s0 (setRegs a x0 s) := by
  refine Moves.via (N := [.regs]) ?_ hw h0
  clear hw h0
  induction x0 generalizing a s with
  | nil =>
    have hK := Moves.refl [.regs] s
    unfold setRegs
    iterate 60 all_goals first
      | with_reducible assumption
      | ((with_reducible apply setReg_moves (hw := ?w)); case w => rfl)
      | intro _
      | dsimp only
      | split
  | cons x xs ih =>
    have hK := Moves.refl [.regs] s
    unfold setRegs
    iterate 60 all_goals first
      | with_reducible assumption
      | ((with_reducible apply setReg_moves (hw := ?w)); case w => rfl)
      | with_reducible refine Moves.trans ?_ (ih ..)
      | intro _
      | dsimp only
      | split



theorem clearPoison_moves (a n : Nat) {M : List Part} {s0 s : State} (hw : inMask [.regs, .hbm] M = true) (h0 : Moves M s0 s) : Moves M s0 (clearPoison a n s) := by
  refine Moves.via (N := [.regs, .hbm]) ?_ hw h0
  clear hw h0
  have hK := Moves.refl [.regs, .hbm] s
  unfold clearPoison
  iterate 60 all_goals first
    | with_reducible assumption
    | ((with_reducible apply setBit_moves (hw := ?w)); case w => rfl)
    | with_reducible apply Moves.foldl
    | intro _
    | dsimp only
    | split
    | ((with_reducible apply Moves.update) <;> first | (with_reducible exact Or.inl rfl) | exact Or.inr (by decide) | skip)

theorem setBytes_moves (a : Nat) (bs : List Byte) {M : List Part} {s0 s : State} (hw : inMask [.regs, .mem, .hbm] M = true) (h0 : Moves M s0 s) :
    Moves M s0 (setBytes a bs s) :=
  Moves.via (N := [.regs, .mem, .hbm]) (t := s) (clearPoison_moves _ _ rfl (storeBytes_moves a bs rfl (Moves.refl _ s))) hw h0

theorem setMemN_moves (a n v : Nat) {M : List Part} {s0 s : State} (hw : inMask [.regs, .mem, .hbm] M = true) (h0 : Moves M s0 s) : Moves M s0 (setMemN a n v s) := by
  refine Moves.via (N := [.regs, .mem, .hbm]) ?_ hw h0
  clear hw h0
  have hK := Moves.refl [.regs, .mem, .hbm] s
  unfold setMemN
  iterate 60 all_goals first
    | with_reducible assumption
    | ((with_reducible apply setBytes_moves (hw := ?w)); case w => rfl)
    | intro _
    | dsimp only
    | split

theorem setMemWords_moves (a : Nat) (ws : List Word) {M : List Part} {s0 s : State} (hw : inMask [.regs, .mem, .hbm] M = true) (h0 : Moves M s0 s) : Moves M s0 (setMemWords a ws s) := by
  refine Moves.via (N := [.regs, .mem, .hbm]) ?_ hw h0
  clear hw h0
  have hK := Moves.refl [.regs, .mem, .hbm] s
  unfold setMemWords
  iterate 60 all_goals first
    | with_reducible assumption
    | ((with_reducible apply setBytes_moves (hw := ?w)); case w => rfl)
    | intro _
    | dsimp only
    | split

theorem freeNat_moves (n : Nat) {M : List Part} {s0 s : State} (hw : inMask [.freeIdx] M = true) (h0 : Moves M s0 s) : Moves M s0 (freeNat n s).2 := by
  refine Moves.via (N := [.freeIdx]) ?_ hw h0
  clear hw h0
  have hK := Moves.refl [.freeIdx] s
  unfold freeNat
  iterate 60 all_goals first
    | with_reducible assumption
    | intro _
    | dsimp only
    | split
    | ((with_reducible apply Moves.update) <;> first | (with_reducible exact Or.inl rfl) | exact Or.inr (by decide) | skip)
theorem freeNat_movesE {n : Nat} {w0} {M : List Part} {s0 s s' : State} (hE : freeNat n s = (w0, s')) (hw : inMask [.freeIdx] M = true) (h0 : Moves M s0 s) : Moves M s0 s' := by
  have k := freeNat_moves (hw := hw) (h0 := h0) (n := n)
  rw [hE] at k
  exact k

theorem setObj_moves (id : Nat) (o : Option LibObj) {M : List Part} {s0 s : State} (hw : inMask [.lib] M = true) (h0 : Moves M s0 s) : Moves M s0 (setObj id o s) := by
  refine Moves.via (N := [.lib]) ?_ hw h0
  clear hw h0
  have hK := Moves.refl [.lib] s
  unfold setObj
  iterate 60 all_goals first
    | with_reducible assumption
    | intro _
    | dsimp only
    | split
    | ((with_reducible apply Moves.update) <;> first | (with_reducible exact Or.inl rfl) | exact Or.inr (by decide) | skip)

theorem modObj_moves (id : Nat) (f : LibObj → LibObj) {M : List Part} {s0 s : State} (hw : inMask [.lib] M = true) (h0 : Moves M s0 s) : Moves M s0 (modObj id f s) := by
  refine Moves.via (N := [.lib]) ?_ hw h0
  clear hw h0
  have hK := Moves.refl [.lib] s
  unfold modObj
  iterate 60 all_goals first
    | with_reducible assumption
    | ((with_reducible apply setObj_moves (hw := ?w)); case w => rfl)
    | intro _
    | dsimp only
    | split

theorem answer_moves (code : Nat) {M : List Part} {s0 s : State} (hw : inMask [.ans] M = true) (h0 : Moves M s0 s) : Moves M s0 (answer code s) := by
  refine Moves.via (N := [.ans]) ?_ hw h0
  clear hw h0
  have hK := Moves.refl [.ans] s
  unfold answer
  iterate 60 all_goals first
    | with_reducible assumption
    | intro _
    | dsimp only
    | split
    | ((with_reducible apply Moves.update) <;> first | (with_reducible exact Or.inl rfl) | exact Or.inr (by decide) | skip)

theorem deferAnswer_moves (k : OpenKind) (slot : Nat) {M : List Part} {s0 s : State} (hw : inMask [.ans, .net] M = true) (h0 : Moves M s0 s) : Moves M s0 (deferAnswer k slot s) := by
  refine Moves.via (N := [.ans, .net]) ?_ hw h0
  clear hw h0
  have hK := Moves.refl [.ans, .net] s
  unfold deferAnswer
  iterate 60 all_goals first
    | with_reducible assumption
    | intro _
    | dsimp only
    | split
    | ((with_reducible apply Moves.update) <;> first | (with_reducible exact Or.inl rfl) | exact Or.inr (by decide) | skip)

theorem pushRec_moves (p : Stream → Bool) (r : Rec) {M : List Part} {s0 s : State} (hw : inMask [.net] M = true) (h0 : Moves M s0 s) : Moves M s0 (pushRec p r s) := by
  refine Moves.via (N := [.net]) ?_ hw h0
  clear hw h0
  have hK := Moves.refl [.net] s
  unfold pushRec
  iterate 60 all_goals first
    | with_reducible assumption
    | intro _
    | dsimp only
    | split
    | ((with_reducible apply Moves.update) <;> first | (with_reducible exact Or.inl rfl) | exact Or.inr (by decide) | skip)

theorem pushEvent_moves (source num value : Nat) {M : List Part} {s0 s : State} (hw : inMask [.net] M = true) (h0 : Moves M s0 s) : Moves M s0 (pushEvent source num value s) := by
  refine Moves.via (N := [.net]) ?_ hw h0
  clear hw h0
  have hK := Moves.refl [.net] s
  unfold pushEvent
  iterate 60 all_goals first
    | with_reducible assumption
    | ((with_reducible apply pushRec_moves (hw := ?w)); case w => rfl)
    | intro _
    | dsimp only
    | split

theorem raise_moves (f : FaultRec) {M : List Part} {s0 s : State} (hw : inMask [.regs, .flt] M = true) (h0 : Moves M s0 s) : Moves M s0 (raise f s) := by
  refine Moves.via (N := [.regs, .flt]) ?_ hw h0
  clear hw h0
  have hK := Moves.refl [.regs, .flt] s
  unfold raise
  iterate 60 all_goals first
    | with_reducible assumption
    | ((with_reducible apply incSat_moves (hw := ?w)); case w => rfl)
    | intro _
    | dsimp only
    | split
    | ((with_reducible apply Moves.update) <;> first | (with_reducible exact Or.inl rfl) | exact Or.inr (by decide) | skip)

theorem raiseAll_moves (fs : List FaultRec) {M : List Part} {s0 s : State} (hw : inMask [.regs, .flt] M = true) (h0 : Moves M s0 s) : Moves M s0 (raiseAll fs s) := by
  refine Moves.via (N := [.regs, .flt]) ?_ hw h0
  clear hw h0
  have hK := Moves.refl [.regs, .flt] s
  unfold raiseAll
  iterate 60 all_goals first
    | with_reducible assumption
    | ((with_reducible apply raise_moves (hw := ?w)); case w => rfl)
    | with_reducible apply Moves.foldl
    | intro _
    | dsimp only
    | split

theorem imageNotice_moves (slot detail : Nat) {M : List Part} {s0 s : State} (hw : inMask [.regs, .flt] M = true) (h0 : Moves M s0 s) : Moves M s0 (imageNotice slot detail s) := by
  refine Moves.via (N := [.regs, .flt]) ?_ hw h0
  clear hw h0
  have hK := Moves.refl [.regs, .flt] s
  unfold imageNotice
  iterate 60 all_goals first
    | with_reducible assumption
    | ((with_reducible apply raise_moves (hw := ?w)); case w => rfl)
    | intro _
    | dsimp only
    | split

theorem markOneCopy_moves (uc unit : Nat) {M : List Part} {s0 s : State} (hw : inMask [.flt] M = true) (h0 : Moves M s0 s) : Moves M s0 (markOneCopy uc unit s) := by
  refine Moves.via (N := [.flt]) ?_ hw h0
  clear hw h0
  have hK := Moves.refl [.flt] s
  unfold markOneCopy
  iterate 60 all_goals first
    | with_reducible assumption
    | intro _
    | dsimp only
    | split
    | ((with_reducible apply Moves.update) <;> first | (with_reducible exact Or.inl rfl) | exact Or.inr (by decide) | skip)

theorem useSpare_moves {M : List Part} {s0 s : State} (hw : inMask [.flt] M = true) (h0 : Moves M s0 s) : Moves M s0 (useSpare s) := by
  refine Moves.via (N := [.flt]) ?_ hw h0
  clear hw h0
  have hK := Moves.refl [.flt] s
  unfold useSpare
  iterate 60 all_goals first
    | with_reducible assumption
    | intro _
    | dsimp only
    | split
    | ((with_reducible apply Moves.update) <;> first | (with_reducible exact Or.inl rfl) | exact Or.inr (by decide) | skip)

theorem fenceUnit_moves (uc unit : Nat) {M : List Part} {s0 s : State} (hw : inMask [.flt] M = true) (h0 : Moves M s0 s) : Moves M s0 (fenceUnit uc unit s) := by
  refine Moves.via (N := [.flt]) ?_ hw h0
  clear hw h0
  have hK := Moves.refl [.flt] s
  unfold fenceUnit
  iterate 60 all_goals first
    | with_reducible assumption
    | intro _
    | dsimp only
    | split
    | ((with_reducible apply Moves.update) <;> first | (with_reducible exact Or.inl rfl) | exact Or.inr (by decide) | skip)

theorem copiesRun_moves (uc unit : Nat) (c : Copies) {M : List Part} {s0 s : State} (hw : inMask [.regs, .flt] M = true) (h0 : Moves M s0 s) : Moves M s0 (copiesRun uc unit c s) := by
  refine Moves.via (N := [.regs, .flt]) ?_ hw h0
  clear hw h0
  have hK := Moves.refl [.regs, .flt] s
  unfold copiesRun
  iterate 60 all_goals first
    | with_reducible assumption
    | ((with_reducible apply raise_moves (hw := ?w)); case w => rfl)
    | intro _
    | dsimp only
    | split
    | ((with_reducible apply Moves.update) <;> first | (with_reducible exact Or.inl rfl) | exact Or.inr (by decide) | skip)

end Sys2Proof.Laws
end

