-- ==== Sys2Proof/Laws/MovesTimeBase.lean ====
section
/-! SUPPORT. What the operations of Machine/TimeBase.lean may change of the state, and that they keep what no operation breaks. -/

namespace Sys2Proof.Laws

open Sys2Proof Sys2Proof.Machine

theorem showLead_moves (g : Nat) {M : List Part} {s0 s : State} (hw : inMask [.regs] M = true) (h0 : Moves M s0 s) : Moves M s0 (showLead g s) := by
  refine Moves.via (N := [.regs]) ?_ hw h0
  clear hw h0
  have hK := Moves.refl [.regs] s
  unfold showLead
  iterate 60 all_goals first
    | with_reducible assumption
    | ((with_reducible apply setFld_moves (hw := ?w)); case w => rfl)
    | intro _
    | dsimp only
    | split

theorem writeOffGroup_moves (g : Nat) {M : List Part} {s0 s : State} (hw : inMask [.regs, .links] M = true) (h0 : Moves M s0 s) : Moves M s0 (writeOffGroup g s) := by
  refine Moves.via (N := [.regs, .links]) ?_ hw h0
  clear hw h0
  have hK := Moves.refl [.regs, .links] s
  unfold writeOffGroup
  iterate 60 all_goals first
    | with_reducible assumption
    | ((with_reducible apply incWrap_moves (hw := ?w)); case w => rfl)
    | ((with_reducible apply showLead_moves (hw := ?w)); case w => rfl)
    | ((with_reducible apply setRegN_moves (hw := ?w)); case w => rfl)
    | intro _
    | dsimp only
    | split
    | ((with_reducible apply Moves.update) <;> first | (with_reducible exact Or.inl rfl) | exact Or.inr (by decide) | skip)

theorem writeOffStep_moves {M : List Part} {s0 s : State} (hw : inMask [.regs, .links] M = true) (h0 : Moves M s0 s) : Moves M s0 (writeOffStep s) := by
  refine Moves.via (N := [.regs, .links]) ?_ hw h0
  clear hw h0
  have hK := Moves.refl [.regs, .links] s
  unfold writeOffStep
  iterate 60 all_goals first
    | with_reducible assumption
    | ((with_reducible apply writeOffGroup_moves (hw := ?w)); case w => rfl)
    | with_reducible apply Moves.foldl
    | intro _
    | dsimp only
    | split

theorem setBusState_moves (code : Nat) {M : List Part} {s0 s : State} (hw : inMask [.regs] M = true) (h0 : Moves M s0 s) : Moves M s0 (setBusState code s) := by
  refine Moves.via (N := [.regs]) ?_ hw h0
  clear hw h0
  have hK := Moves.refl [.regs] s
  unfold setBusState
  iterate 60 all_goals first
    | with_reducible assumption
    | ((with_reducible apply setFld_moves (hw := ?w)); case w => rfl)
    | intro _
    | dsimp only
    | split

theorem showXo_moves {M : List Part} {s0 s : State} (hw : inMask [.regs] M = true) (h0 : Moves M s0 s) : Moves M s0 (showXo s) := by
  refine Moves.via (N := [.regs]) ?_ hw h0
  clear hw h0
  have hK := Moves.refl [.regs] s
  unfold showXo
  iterate 60 all_goals first
    | with_reducible assumption
    | ((with_reducible apply setBit_moves (hw := ?w)); case w => rfl)
    | intro _
    | dsimp only
    | split

theorem quadrilleListen_moves {M : List Part} {s0 s : State} (hw : inMask [.regs, .qdr] M = true) (h0 : Moves M s0 s) : Moves M s0 (quadrilleListen s) := by
  refine Moves.via (N := [.regs, .qdr]) ?_ hw h0
  clear hw h0
  have hK := Moves.refl [.regs, .qdr] s
  unfold quadrilleListen
  iterate 60 all_goals first
    | with_reducible assumption
    | ((with_reducible apply setBusState_moves (hw := ?w)); case w => rfl)
    | ((with_reducible apply setBit_moves (hw := ?w)); case w => rfl)
    | intro _
    | dsimp only
    | split
    | ((with_reducible apply Moves.update) <;> first | (with_reducible exact Or.inl rfl) | exact Or.inr (by decide) | skip)

theorem joinBus_moves {M : List Part} {s0 s : State} (hw : inMask [.regs, .qdr] M = true) (h0 : Moves M s0 s) : Moves M s0 (joinBus s) := by
  refine Moves.via (N := [.regs, .qdr]) ?_ hw h0
  clear hw h0
  have hK := Moves.refl [.regs, .qdr] s
  unfold joinBus
  iterate 60 all_goals first
    | with_reducible assumption
    | ((with_reducible apply quadrilleListen_moves (hw := ?w)); case w => rfl)
    | intro _
    | dsimp only
    | split

theorem refToXo_moves {M : List Part} {s0 s : State} (hw : inMask [.regs] M = true) (h0 : Moves M s0 s) : Moves M s0 (refToXo s) := by
  refine Moves.via (N := [.regs]) ?_ hw h0
  clear hw h0
  have hK := Moves.refl [.regs] s
  unfold refToXo
  iterate 60 all_goals first
    | with_reducible assumption
    | ((with_reducible apply incWrap_moves (hw := ?w)); case w => rfl)
    | ((with_reducible apply orReg_moves (hw := ?w)); case w => rfl)
    | ((with_reducible apply setBit_moves (hw := ?w)); case w => rfl)
    | intro _
    | dsimp only
    | split

theorem refPolicy_moves {M : List Part} {s0 s : State} (hw : inMask [.regs] M = true) (h0 : Moves M s0 s) : Moves M s0 (refPolicy s) := by
  refine Moves.via (N := [.regs]) ?_ hw h0
  clear hw h0
  have hK := Moves.refl [.regs] s
  unfold refPolicy
  iterate 60 all_goals first
    | with_reducible assumption
    | ((with_reducible apply refToXo_moves (hw := ?w)); case w => rfl)
    | ((with_reducible apply setBit_moves (hw := ?w)); case w => rfl)
    | intro _
    | dsimp only
    | split

theorem dropPorts_moves {M : List Part} {s0 s : State} (hw : inMask [.regs, .net] M = true) (h0 : Moves M s0 s) : Moves M s0 (dropPorts s) := by
  refine Moves.via (N := [.regs, .net]) ?_ hw h0
  clear hw h0
  have hK := Moves.refl [.regs, .net] s
  unfold dropPorts
  iterate 60 all_goals first
    | with_reducible assumption
    | ((with_reducible apply setBit_moves (hw := ?w)); case w => rfl)
    | ((with_reducible apply setFld_moves (hw := ?w)); case w => rfl)
    | with_reducible apply Moves.foldl
    | intro _
    | dsimp only
    | split
    | ((with_reducible apply Moves.update) <;> first | (with_reducible exact Or.inl rfl) | exact Or.inr (by decide) | skip)

theorem xoLost_moves {M : List Part} {s0 s : State} (hw : inMask [.regs, .net, .flt] M = true) (h0 : Moves M s0 s) : Moves M s0 (xoLost s) := by
  refine Moves.via (N := [.regs, .net, .flt]) ?_ hw h0
  clear hw h0
  have hK := Moves.refl [.regs, .net, .flt] s
  unfold xoLost
  iterate 60 all_goals first
    | with_reducible assumption
    | ((with_reducible apply dropPorts_moves (hw := ?w)); case w => rfl)
    | ((with_reducible apply raise_moves (hw := ?w)); case w => rfl)
    | intro _
    | dsimp only
    | split

theorem beatLost_moves (present : Bool) {M : List Part} {s0 s : State} (hw : inMask [.regs, .net, .flt, .tb, .links] M = true) (h0 : Moves M s0 s) : Moves M s0 (beatLost present s) := by
  refine Moves.via (N := [.regs, .net, .flt, .tb, .links]) ?_ hw h0
  clear hw h0
  have hK := Moves.refl [.regs, .net, .flt, .tb, .links] s
  unfold beatLost
  iterate 60 all_goals first
    | with_reducible assumption
    | ((with_reducible apply setBit_moves (hw := ?w)); case w => rfl)
    | ((with_reducible apply orReg_moves (hw := ?w)); case w => rfl)
    | ((with_reducible apply writeOffStep_moves (hw := ?w)); case w => rfl)
    | ((with_reducible apply raise_moves (hw := ?w)); case w => rfl)
    | ((with_reducible apply refToXo_moves (hw := ?w)); case w => rfl)
    | ((with_reducible apply xoLost_moves (hw := ?w)); case w => rfl)
    | intro _
    | dsimp only
    | split
    | ((with_reducible apply Moves.update) <;> first | (with_reducible exact Or.inl rfl) | exact Or.inr (by decide) | skip)

theorem xoFailure_moves {M : List Part} {s0 s : State} (hw : inMask [.regs, .net, .flt, .tb] M = true) (h0 : Moves M s0 s) : Moves M s0 (xoFailure s) := by
  refine Moves.via (N := [.regs, .net, .flt, .tb]) ?_ hw h0
  clear hw h0
  have hK := Moves.refl [.regs, .net, .flt, .tb] s
  unfold xoFailure
  iterate 60 all_goals first
    | with_reducible assumption
    | ((with_reducible apply orReg_moves (hw := ?w)); case w => rfl)
    | ((with_reducible apply setBit_moves (hw := ?w)); case w => rfl)
    | ((with_reducible apply xoLost_moves (hw := ?w)); case w => rfl)
    | ((with_reducible apply raise_moves (hw := ?w)); case w => rfl)
    | intro _
    | dsimp only
    | split
    | ((with_reducible apply Moves.update) <;> first | (with_reducible exact Or.inl rfl) | exact Or.inr (by decide) | skip)

theorem restartWindows_moves {M : List Part} {s0 s : State} (hw : inMask [.tb] M = true) (h0 : Moves M s0 s) : Moves M s0 (restartWindows s) := by
  refine Moves.via (N := [.tb]) ?_ hw h0
  clear hw h0
  have hK := Moves.refl [.tb] s
  unfold restartWindows
  iterate 60 all_goals first
    | with_reducible assumption
    | intro _
    | dsimp only
    | split
    | ((with_reducible apply Moves.update) <;> first | (with_reducible exact Or.inl rfl) | exact Or.inr (by decide) | skip)

theorem goodWindow_moves {M : List Part} {s0 s : State} (hw : inMask [.regs, .tb, .qdr] M = true) (h0 : Moves M s0 s) : Moves M s0 (goodWindow s) := by
  refine Moves.via (N := [.regs, .tb, .qdr]) ?_ hw h0
  clear hw h0
  have hK := Moves.refl [.regs, .tb, .qdr] s
  unfold goodWindow
  iterate 60 all_goals first
    | with_reducible assumption
    | ((with_reducible apply joinBus_moves (hw := ?w)); case w => rfl)
    | ((with_reducible apply setBit_moves (hw := ?w)); case w => rfl)
    | intro _
    | dsimp only
    | split
    | ((with_reducible apply Moves.update) <;> first | (with_reducible exact Or.inl rfl) | exact Or.inr (by decide) | skip)

theorem beatWindowEnd_moves (ppm : Int) (gapOk : Bool) {M : List Part} {s0 s : State} (hw : inMask [.regs, .net, .flt, .tb, .links, .qdr] M = true) (h0 : Moves M s0 s) : Moves M s0 (beatWindowEnd ppm gapOk s) := by
  refine Moves.via (N := [.regs, .net, .flt, .tb, .links, .qdr]) ?_ hw h0
  clear hw h0
  have hK := Moves.refl [.regs, .net, .flt, .tb, .links, .qdr] s
  unfold beatWindowEnd
  iterate 60 all_goals first
    | with_reducible assumption
    | ((with_reducible apply showXo_moves (hw := ?w)); case w => rfl)
    | ((with_reducible apply setRegN_moves (hw := ?w)); case w => rfl)
    | ((with_reducible apply setBit_moves (hw := ?w)); case w => rfl)
    | ((with_reducible apply goodWindow_moves (hw := ?w)); case w => rfl)
    | ((with_reducible apply restartWindows_moves (hw := ?w)); case w => rfl)
    | ((with_reducible apply xoFailure_moves (hw := ?w)); case w => rfl)
    | ((with_reducible apply beatLost_moves (hw := ?w)); case w => rfl)
    | intro _
    | dsimp only
    | split

theorem returnToBeat_moves {M : List Part} {s0 s : State} (hw : inMask [.regs, .tb, .qdr] M = true) (h0 : Moves M s0 s) : Moves M s0 (returnToBeat s) := by
  refine Moves.via (N := [.regs, .tb, .qdr]) ?_ hw h0
  clear hw h0
  have hK := Moves.refl [.regs, .tb, .qdr] s
  unfold returnToBeat
  iterate 60 all_goals first
    | with_reducible assumption
    | ((with_reducible apply setBit_moves (hw := ?w)); case w => rfl)
    | ((with_reducible apply incWrap_moves (hw := ?w)); case w => rfl)
    | ((with_reducible apply orReg_moves (hw := ?w)); case w => rfl)
    | ((with_reducible apply quadrilleListen_moves (hw := ?w)); case w => rfl)
    | intro _
    | dsimp only
    | split
    | ((with_reducible apply Moves.update) <;> first | (with_reducible exact Or.inl rfl) | exact Or.inr (by decide) | skip)

theorem slackMonitor_moves (m : Nat) (slack : Int) {M : List Part} {s0 s : State} (hw : inMask [.regs, .flt, .tb] M = true) (h0 : Moves M s0 s) : Moves M s0 (slackMonitor m slack s) := by
  refine Moves.via (N := [.regs, .flt, .tb]) ?_ hw h0
  clear hw h0
  have hK := Moves.refl [.regs, .flt, .tb] s
  unfold slackMonitor
  iterate 60 all_goals first
    | with_reducible assumption
    | ((with_reducible apply setRegN_moves (hw := ?w)); case w => rfl)
    | ((with_reducible apply orReg_moves (hw := ?w)); case w => rfl)
    | ((with_reducible apply raise_moves (hw := ?w)); case w => rfl)
    | intro _
    | dsimp only
    | split
    | ((with_reducible apply Moves.update) <;> first | (with_reducible exact Or.inl rfl) | exact Or.inr (by decide) | skip)

theorem slackMonitors_moves (m : Nat) (spare : Int) (x0 : List SlackObs) {M : List Part} {s0 s : State} (hw : inMask [.regs, .flt, .tb] M = true) (h0 : Moves M s0 s) : Moves M s0 (slackMonitors m spare x0 s) := by
  refine Moves.via (N := [.regs, .flt, .tb]) ?_ hw h0
  clear hw h0
  induction x0 generalizing m spare s with
  | nil =>
    have hK := Moves.refl [.regs, .flt, .tb] s
    unfold slackMonitors
    iterate 60 all_goals first
      | with_reducible assumption
      | ((with_reducible apply slackMonitor_moves (hw := ?w)); case w => rfl)
      | intro _
      | dsimp only
      | split
  | cons x xs ih =>
    have hK := Moves.refl [.regs, .flt, .tb] s
    unfold slackMonitors
    iterate 60 all_goals first
      | with_reducible assumption
      | ((with_reducible apply slackMonitor_moves (hw := ?w)); case w => rfl)
      | with_reducible refine Moves.trans ?_ (ih ..)
      | intro _
      | dsimp only
      | split

theorem showSlackWarn_moves {M : List Part} {s0 s : State} (hw : inMask [.regs] M = true) (h0 : Moves M s0 s) : Moves M s0 (showSlackWarn s) := by
  refine Moves.via (N := [.regs]) ?_ hw h0
  clear hw h0
  have hK := Moves.refl [.regs] s
  unfold showSlackWarn
  iterate 60 all_goals first
    | with_reducible assumption
    | ((with_reducible apply setBit_moves (hw := ?w)); case w => rfl)
    | intro _
    | dsimp only
    | split

theorem slackWindowEnd_moves (obs : List SlackObs) {M : List Part} {s0 s : State} (hw : inMask [.regs, .flt, .tb] M = true) (h0 : Moves M s0 s) : Moves M s0 (slackWindowEnd obs s) := by
  refine Moves.via (N := [.regs, .flt, .tb]) ?_ hw h0
  clear hw h0
  have hK := Moves.refl [.regs, .flt, .tb] s
  unfold slackWindowEnd
  iterate 60 all_goals first
    | with_reducible assumption
    | ((with_reducible apply slackMonitors_moves (hw := ?w)); case w => rfl)
    | ((with_reducible apply showSlackWarn_moves (hw := ?w)); case w => rfl)
    | intro _
    | dsimp only
    | split
    | ((with_reducible apply Moves.update) <;> first | (with_reducible exact Or.inl rfl) | exact Or.inr (by decide) | skip)

theorem pavanePeriodMiss_moves (job : PavaneJob) {M : List Part} {s0 s : State} (hw : inMask [.regs, .flt] M = true) (h0 : Moves M s0 s) : Moves M s0 (pavanePeriodMiss job s) := by
  refine Moves.via (N := [.regs, .flt]) ?_ hw h0
  clear hw h0
  have hK := Moves.refl [.regs, .flt] s
  unfold pavanePeriodMiss
  iterate 60 all_goals first
    | with_reducible assumption
    | ((with_reducible apply raise_moves (hw := ?w)); case w => rfl)
    | ((with_reducible apply orReg_moves (hw := ?w)); case w => rfl)
    | ((with_reducible apply incSat_moves (hw := ?w)); case w => rfl)
    | intro _
    | dsimp only
    | split

theorem execBeatWindowEnd_moves (ppm : Int) (gapOk : Bool) {s s' : State} (h : execBeatWindowEnd ppm gapOk s = .next s') : Moves [.regs, .net, .flt, .tb, .links, .qdr] s s' := by
  unfold execBeatWindowEnd at h
  have hK := Moves.refl [.regs, .net, .flt, .tb, .links, .qdr] s
  all_goals injection h with h
  all_goals subst h
  iterate 60 all_goals first
    | with_reducible assumption
    | ((with_reducible apply beatWindowEnd_moves (hw := ?w)); case w => rfl)
    | intro _
    | dsimp only
    | split

theorem execBeatLoss_moves {s s' : State} (h : execBeatLoss s = .next s') : Moves [.regs, .net, .flt, .tb, .links] s s' := by
  unfold execBeatLoss at h
  have hK := Moves.refl [.regs, .net, .flt, .tb, .links] s
  all_goals injection h with h
  all_goals subst h
  iterate 60 all_goals first
    | with_reducible assumption
    | ((with_reducible apply beatLost_moves (hw := ?w)); case w => rfl)
    | intro _
    | dsimp only
    | split

theorem execReturnToBeat_moves {s s' : State} (h : execReturnToBeat s = .next s') : Moves [.regs, .tb, .qdr] s s' := by
  unfold execReturnToBeat at h
  have hK := Moves.refl [.regs, .tb, .qdr] s
  all_goals injection h with h
  all_goals subst h
  iterate 60 all_goals first
    | with_reducible assumption
    | ((with_reducible apply returnToBeat_moves (hw := ?w)); case w => rfl)
    | intro _
    | dsimp only
    | split

theorem execXoFailure_moves {s s' : State} (h : execXoFailure s = .next s') : Moves [.regs, .net, .flt, .tb] s s' := by
  unfold execXoFailure at h
  have hK := Moves.refl [.regs, .net, .flt, .tb] s
  all_goals injection h with h
  all_goals subst h
  iterate 60 all_goals first
    | with_reducible assumption
    | ((with_reducible apply xoFailure_moves (hw := ?w)); case w => rfl)
    | intro _
    | dsimp only
    | split

theorem execSlackWindowEnd_moves (obs : List SlackObs) {s s' : State} (h : execSlackWindowEnd obs s = .next s') : Moves [.regs, .flt, .tb] s s' := by
  unfold execSlackWindowEnd at h
  have hK := Moves.refl [.regs, .flt, .tb] s
  all_goals injection h with h
  all_goals subst h
  iterate 60 all_goals first
    | with_reducible assumption
    | ((with_reducible apply slackWindowEnd_moves (hw := ?w)); case w => rfl)
    | intro _
    | dsimp only
    | split

theorem execPavanePeriodMiss_moves (job : PavaneJob) {s s' : State} (h : execPavanePeriodMiss job s = .next s') : Moves [.regs, .flt] s s' := by
  unfold execPavanePeriodMiss at h
  have hK := Moves.refl [.regs, .flt] s
  all_goals injection h with h
  all_goals subst h
  iterate 60 all_goals first
    | with_reducible assumption
    | ((with_reducible apply pavanePeriodMiss_moves (hw := ?w)); case w => rfl)
    | intro _
    | dsimp only
    | split

end Sys2Proof.Laws
end

