-- ==== Sys2Proof/Laws/MovesSeqOps.lean ====
section
/-! SUPPORT. What the operations of Machine/SeqOps.lean may change of the state, and that they keep what no operation breaks. -/

namespace Sys2Proof.Laws

open Sys2Proof Sys2Proof.Machine

theorem setCtx_moves (c : Nat) (x : Ctx) {M : List Part} {s0 s : State} (hw : inMask [.seq] M = true) (h0 : Moves M s0 s) : Moves M s0 (setCtx c x s) := by
  refine Moves.via (N := [.seq]) ?_ hw h0
  clear hw h0
  have hK := Moves.refl [.seq] s
  unfold setCtx
  iterate 60 all_goals first
    | with_reducible assumption
    | intro _
    | dsimp only
    | split
    | ((with_reducible apply Moves.update) <;> first | (with_reducible exact Or.inl rfl) | exact Or.inr (by decide) | skip)

theorem modCtx_moves (c : Nat) (f : Ctx → Ctx) {M : List Part} {s0 s : State} (hw : inMask [.seq] M = true) (h0 : Moves M s0 s) : Moves M s0 (modCtx c f s) := by
  refine Moves.via (N := [.seq]) ?_ hw h0
  clear hw h0
  have hK := Moves.refl [.seq] s
  unfold modCtx
  iterate 60 all_goals first
    | with_reducible assumption
    | ((with_reducible apply setCtx_moves (hw := ?w)); case w => rfl)
    | intro _
    | dsimp only
    | split

theorem modLink_moves (g : Nat) (f : Link → Link) {M : List Part} {s0 s : State} (hw : inMask [.links] M = true) (h0 : Moves M s0 s) : Moves M s0 (modLink g f s) := by
  refine Moves.via (N := [.links]) ?_ hw h0
  clear hw h0
  have hK := Moves.refl [.links] s
  unfold modLink
  iterate 60 all_goals first
    | with_reducible assumption
    | intro _
    | dsimp only
    | split
    | ((with_reducible apply Moves.update) <;> first | (with_reducible exact Or.inl rfl) | exact Or.inr (by decide) | skip)

theorem queueMap_moves (g addr val : Nat) {M : List Part} {s0 s : State} (hw : inMask [.links] M = true) (h0 : Moves M s0 s) : Moves M s0 (queueMap g addr val s) := by
  refine Moves.via (N := [.links]) ?_ hw h0
  clear hw h0
  have hK := Moves.refl [.links] s
  unfold queueMap
  iterate 60 all_goals first
    | with_reducible assumption
    | ((with_reducible apply modLink_moves (hw := ?w)); case w => rfl)
    | intro _
    | dsimp only
    | split

theorem queueMaps_moves (g : Nat) (ws : List (Nat × Nat)) {M : List Part} {s0 s : State} (hw : inMask [.regs, .links] M = true) (h0 : Moves M s0 s) : Moves M s0 (queueMaps g ws s) := by
  refine Moves.via (N := [.regs, .links]) ?_ hw h0
  clear hw h0
  have hK := Moves.refl [.regs, .links] s
  unfold queueMaps
  iterate 60 all_goals first
    | with_reducible assumption
    | ((with_reducible apply setBit_moves (hw := ?w)); case w => rfl)
    | ((with_reducible apply modLink_moves (hw := ?w)); case w => rfl)
    | intro _
    | dsimp only
    | split

theorem setInStream_moves (d set g : Nat) {M : List Part} {s0 s : State} (hw : inMask [.links] M = true) (h0 : Moves M s0 s) : Moves M s0 (setInStream d set g s) := by
  refine Moves.via (N := [.links]) ?_ hw h0
  clear hw h0
  have hK := Moves.refl [.links] s
  unfold setInStream
  iterate 60 all_goals first
    | with_reducible assumption
    | ((with_reducible apply modLink_moves (hw := ?w)); case w => rfl)
    | intro _
    | dsimp only
    | split

theorem showLoops_moves (c k : Nat) (x0 : List LoopEntry) {M : List Part} {s0 s : State} (hw : inMask [.regs] M = true) (h0 : Moves M s0 s) : Moves M s0 (showLoops c k x0 s) := by
  refine Moves.via (N := [.regs]) ?_ hw h0
  clear hw h0
  induction x0 generalizing c k s with
  | nil =>
    have hK := Moves.refl [.regs] s
    unfold showLoops
    iterate 60 all_goals first
      | with_reducible assumption
      | ((with_reducible apply setRegN_moves (hw := ?w)); case w => rfl)
      | intro _
      | dsimp only
      | split
  | cons x xs ih =>
    have hK := Moves.refl [.regs] s
    unfold showLoops
    iterate 60 all_goals first
      | with_reducible assumption
      | ((with_reducible apply setRegN_moves (hw := ?w)); case w => rfl)
      | with_reducible refine Moves.trans ?_ (ih ..)
      | intro _
      | dsimp only
      | split

theorem showCalls_moves (c k : Nat) (x0 : List Nat) {M : List Part} {s0 s : State} (hw : inMask [.regs] M = true) (h0 : Moves M s0 s) : Moves M s0 (showCalls c k x0 s) := by
  refine Moves.via (N := [.regs]) ?_ hw h0
  clear hw h0
  induction x0 generalizing c k s with
  | nil =>
    have hK := Moves.refl [.regs] s
    unfold showCalls
    iterate 60 all_goals first
      | with_reducible assumption
      | ((with_reducible apply setRegN_moves (hw := ?w)); case w => rfl)
      | intro _
      | dsimp only
      | split
  | cons x xs ih =>
    have hK := Moves.refl [.regs] s
    unfold showCalls
    iterate 60 all_goals first
      | with_reducible assumption
      | ((with_reducible apply setRegN_moves (hw := ?w)); case w => rfl)
      | with_reducible refine Moves.trans ?_ (ih ..)
      | intro _
      | dsimp only
      | split

theorem showMask_moves (c m : Nat) {M : List Part} {s0 s : State} (hw : inMask [.regs] M = true) (h0 : Moves M s0 s) : Moves M s0 (showMask c m s) := by
  refine Moves.via (N := [.regs]) ?_ hw h0
  clear hw h0
  have hK := Moves.refl [.regs] s
  unfold showMask
  iterate 60 all_goals first
    | with_reducible assumption
    | ((with_reducible apply setRegs_moves (hw := ?w)); case w => rfl)
    | intro _
    | dsimp only
    | split

theorem showCtx_moves (c : Nat) {M : List Part} {s0 s : State} (hw : inMask [.regs] M = true) (h0 : Moves M s0 s) : Moves M s0 (showCtx c s) := by
  refine Moves.via (N := [.regs]) ?_ hw h0
  clear hw h0
  have hK := Moves.refl [.regs] s
  unfold showCtx
  iterate 60 all_goals first
    | with_reducible assumption
    | ((with_reducible apply setFld_moves (hw := ?w)); case w => rfl)
    | ((with_reducible apply setBit_moves (hw := ?w)); case w => rfl)
    | ((with_reducible apply setRegN_moves (hw := ?w)); case w => rfl)
    | ((with_reducible apply set64_moves (hw := ?w)); case w => rfl)
    | ((with_reducible apply showMask_moves (hw := ?w)); case w => rfl)
    | ((with_reducible apply showCalls_moves (hw := ?w)); case w => rfl)
    | ((with_reducible apply showLoops_moves (hw := ?w)); case w => rfl)
    | intro _
    | dsimp only
    | split

theorem seqLog_moves (t c pc vector arg0 arg1 : Nat) (cut : Bool) {M : List Part} {s0 s : State} (hw : inMask [.regs, .mem, .seq, .hbm] M = true) (h0 : Moves M s0 s) : Moves M s0 (seqLog t c pc vector arg0 arg1 cut s) := by
  refine Moves.via (N := [.regs, .mem, .seq, .hbm]) ?_ hw h0
  clear hw h0
  have hK := Moves.refl [.regs, .mem, .seq, .hbm] s
  unfold seqLog
  iterate 60 all_goals first
    | with_reducible assumption
    | ((with_reducible apply incWrap_moves (hw := ?w)); case w => rfl)
    | ((with_reducible apply setMemWords_moves (hw := ?w)); case w => rfl)
    | ((with_reducible apply setRegN_moves (hw := ?w)); case w => rfl)
    | ((with_reducible apply setBit_moves (hw := ?w)); case w => rfl)
    | intro _
    | dsimp only
    | split
    | ((with_reducible apply Moves.update) <;> first | (with_reducible exact Or.inl rfl) | exact Or.inr (by decide) | skip)

theorem postTrap_moves (cause c : Nat) {M : List Part} {s0 s : State} (hw : inMask [.seq] M = true) (h0 : Moves M s0 s) : Moves M s0 (postTrap cause c s) := by
  refine Moves.via (N := [.seq]) ?_ hw h0
  clear hw h0
  have hK := Moves.refl [.seq] s
  unfold postTrap
  iterate 60 all_goals first
    | with_reducible assumption
    | ((with_reducible apply modCtx_moves (hw := ?w)); case w => rfl)
    | intro _
    | dsimp only
    | split

theorem stageDone_moves (c : Nat) {M : List Part} {s0 s : State} (hw : inMask [.regs, .mem, .seq, .hbm] M = true) (h0 : Moves M s0 s) : Moves M s0 (stageDone c s) := by
  refine Moves.via (N := [.regs, .mem, .seq, .hbm]) ?_ hw h0
  clear hw h0
  have hK := Moves.refl [.regs, .mem, .seq, .hbm] s
  unfold stageDone
  iterate 60 all_goals first
    | with_reducible assumption
    | ((with_reducible apply seqLog_moves (hw := ?w)); case w => rfl)
    | ((with_reducible apply postTrap_moves (hw := ?w)); case w => rfl)
    | ((with_reducible apply modCtx_moves (hw := ?w)); case w => rfl)
    | with_reducible apply Moves.foldl
    | intro _
    | dsimp only
    | split

theorem stageDoneAll_moves {M : List Part} {s0 s : State} (hw : inMask [.regs, .mem, .seq, .hbm] M = true) (h0 : Moves M s0 s) : Moves M s0 (stageDoneAll s) := by
  refine Moves.via (N := [.regs, .mem, .seq, .hbm]) ?_ hw h0
  clear hw h0
  have hK := Moves.refl [.regs, .mem, .seq, .hbm] s
  unfold stageDoneAll
  iterate 60 all_goals first
    | with_reducible assumption
    | ((with_reducible apply stageDone_moves (hw := ?w)); case w => rfl)
    | with_reducible apply Moves.foldl
    | intro _
    | dsimp only
    | split

theorem expireJump_moves (t c : Nat) {M : List Part} {s0 s : State} (hw : inMask [.regs, .mem, .seq, .hbm] M = true) (h0 : Moves M s0 s) : Moves M s0 (expireJump t c s) := by
  refine Moves.via (N := [.regs, .mem, .seq, .hbm]) ?_ hw h0
  clear hw h0
  have hK := Moves.refl [.regs, .mem, .seq, .hbm] s
  unfold expireJump
  iterate 60 all_goals first
    | with_reducible assumption
    | ((with_reducible apply modCtx_moves (hw := ?w)); case w => rfl)
    | ((with_reducible apply seqLog_moves (hw := ?w)); case w => rfl)
    | intro _
    | dsimp only
    | split

theorem stopContext_moves (t c : Nat) {M : List Part} {s0 s : State} (hw : inMask [.regs, .mem, .seq, .hbm] M = true) (h0 : Moves M s0 s) : Moves M s0 (stopContext t s c) := by
  refine Moves.via (N := [.regs, .mem, .seq, .hbm]) ?_ hw h0
  clear hw h0
  have hK := Moves.refl [.regs, .mem, .seq, .hbm] s
  unfold stopContext
  iterate 60 all_goals first
    | with_reducible assumption
    | ((with_reducible apply showCtx_moves (hw := ?w)); case w => rfl)
    | ((with_reducible apply modCtx_moves (hw := ?w)); case w => rfl)
    | ((with_reducible apply expireJump_moves (hw := ?w)); case w => rfl)
    | intro _
    | dsimp only
    | split

theorem stopSets_moves (t g : Nat) {M : List Part} {s0 s : State} (hw : inMask [.links] M = true) (h0 : Moves M s0 s) : Moves M s0 (stopSets t s g) := by
  refine Moves.via (N := [.links]) ?_ hw h0
  clear hw h0
  have hK := Moves.refl [.links] s
  unfold stopSets
  iterate 60 all_goals first
    | with_reducible assumption
    | ((with_reducible apply modLink_moves (hw := ?w)); case w => rfl)
    | intro _
    | dsimp only
    | split

theorem clearStep_moves (st : StepInfo) {M : List Part} {s0 s : State} (hw : inMask [.regs, .pwr, .seq, .src] M = true) (h0 : Moves M s0 s) : Moves M s0 (clearStep st s) := by
  refine Moves.via (N := [.regs, .pwr, .seq, .src]) ?_ hw h0
  clear hw h0
  have hK := Moves.refl [.regs, .pwr, .seq, .src] s
  unfold clearStep
  iterate 60 all_goals first
    | with_reducible assumption
    | ((with_reducible apply modCtx_moves (hw := ?w)); case w => rfl)
    | ((with_reducible apply setBit_moves (hw := ?w)); case w => rfl)
    | ((with_reducible apply setFld_moves (hw := ?w)); case w => rfl)
    | ((with_reducible apply setRegN_moves (hw := ?w)); case w => rfl)
    | with_reducible apply Moves.foldl
    | intro _
    | dsimp only
    | split
    | ((with_reducible apply Moves.update) <;> first | (with_reducible exact Or.inl rfl) | exact Or.inr (by decide) | skip)

theorem abortStep_moves (arg : Nat) {M : List Part} {s0 s : State} (hw : inMask [.regs, .mem, .pwr, .seq, .links, .src, .hbm] M = true) (h0 : Moves M s0 s) : Moves M s0 (abortStep arg s) := by
  refine Moves.via (N := [.regs, .mem, .pwr, .seq, .links, .src, .hbm]) ?_ hw h0
  clear hw h0
  have hK := Moves.refl [.regs, .mem, .pwr, .seq, .links, .src, .hbm] s
  unfold abortStep
  iterate 60 all_goals first
    | with_reducible assumption
    | ((with_reducible apply showCtx_moves (hw := ?w)); case w => rfl)
    | ((with_reducible apply modCtx_moves (hw := ?w)); case w => rfl)
    | ((with_reducible apply seqLog_moves (hw := ?w)); case w => rfl)
    | ((with_reducible apply clearStep_moves (hw := ?w)); case w => rfl)
    | ((with_reducible apply stopSets_moves (hw := ?w)); case w => rfl)
    | ((with_reducible apply stopContext_moves (hw := ?w)); case w => rfl)
    | ((with_reducible apply setFld_moves (hw := ?w)); case w => rfl)
    | ((with_reducible apply postTrap_moves (hw := ?w)); case w => rfl)
    | with_reducible apply Moves.foldl
    | intro _
    | dsimp only
    | split
    | ((with_reducible apply Moves.update) <;> first | (with_reducible exact Or.inl rfl) | exact Or.inr (by decide) | skip)

theorem programError_moves (c code : Nat) {M : List Part} {s0 s : State} (hw : inMask [.regs, .mem, .flt, .pwr, .seq, .links, .src, .hbm] M = true) (h0 : Moves M s0 s) : Moves M s0 (programError c code s) := by
  refine Moves.via (N := [.regs, .mem, .flt, .pwr, .seq, .links, .src, .hbm]) ?_ hw h0
  clear hw h0
  have hK := Moves.refl [.regs, .mem, .flt, .pwr, .seq, .links, .src, .hbm] s
  unfold programError
  iterate 60 all_goals first
    | with_reducible assumption
    | ((with_reducible apply seqLog_moves (hw := ?w)); case w => rfl)
    | ((with_reducible apply setFld_moves (hw := ?w)); case w => rfl)
    | ((with_reducible apply modCtx_moves (hw := ?w)); case w => rfl)
    | ((with_reducible apply raise_moves (hw := ?w)); case w => rfl)
    | ((with_reducible apply showCtx_moves (hw := ?w)); case w => rfl)
    | ((with_reducible apply abortStep_moves (hw := ?w)); case w => rfl)
    | intro _
    | dsimp only
    | split

theorem emitRun_moves (c n : Nat) (k : RunKind) {M : List Part} {s0 s : State} (hw : inMask [.seq] M = true) (h0 : Moves M s0 s) : Moves M s0 (emitRun c n k s) := by
  refine Moves.via (N := [.seq]) ?_ hw h0
  clear hw h0
  have hK := Moves.refl [.seq] s
  unfold emitRun
  iterate 60 all_goals first
    | with_reducible assumption
    | ((with_reducible apply modCtx_moves (hw := ?w)); case w => rfl)
    | intro _
    | dsimp only
    | split

theorem segStart_moves (c seg rep : Nat) (line : Option Nat) {M : List Part} {s0 s : State} (hw : inMask [.regs, .mem, .seq, .hbm] M = true) (h0 : Moves M s0 s) : Moves M s0 (segStart c seg rep line s) := by
  refine Moves.via (N := [.regs, .mem, .seq, .hbm]) ?_ hw h0
  clear hw h0
  have hK := Moves.refl [.regs, .mem, .seq, .hbm] s
  unfold segStart
  iterate 60 all_goals first
    | with_reducible assumption
    | ((with_reducible apply setRegN_moves (hw := ?w)); case w => rfl)
    | ((with_reducible apply modCtx_moves (hw := ?w)); case w => rfl)
    | ((with_reducible apply seqLog_moves (hw := ?w)); case w => rfl)
    | intro _
    | dsimp only
    | split

theorem writeCheckpoint_moves (c : Nat) {M : List Part} {s0 s : State} (hw : inMask [.seq] M = true) (h0 : Moves M s0 s) : Moves M s0 (writeCheckpoint c s) := by
  refine Moves.via (N := [.seq]) ?_ hw h0
  clear hw h0
  have hK := Moves.refl [.seq] s
  unfold writeCheckpoint
  iterate 60 all_goals first
    | with_reducible assumption
    | ((with_reducible apply modCtx_moves (hw := ?w)); case w => rfl)
    | intro _
    | dsimp only
    | split

theorem nextInstr_moves (c : Nat) {M : List Part} {s0 s : State} (hw : inMask [.seq] M = true) (h0 : Moves M s0 s) : Moves M s0 (nextInstr c s) := by
  refine Moves.via (N := [.seq]) ?_ hw h0
  clear hw h0
  have hK := Moves.refl [.seq] s
  unfold nextInstr
  iterate 60 all_goals first
    | with_reducible assumption
    | ((with_reducible apply writeCheckpoint_moves (hw := ?w)); case w => rfl)
    | ((with_reducible apply modCtx_moves (hw := ?w)); case w => rfl)
    | intro _
    | dsimp only
    | split

theorem emitRounds_moves (c x0 : Nat) {M : List Part} {s0 s : State} (hw : inMask [.regs, .mem, .seq, .hbm] M = true) (h0 : Moves M s0 s) : Moves M s0 (emitRounds c x0 s) := by
  refine Moves.via (N := [.regs, .mem, .seq, .hbm]) ?_ hw h0
  clear hw h0
  induction x0 generalizing c s with
  | zero =>
    have hK := Moves.refl [.regs, .mem, .seq, .hbm] s
    unfold emitRounds
    iterate 60 all_goals first
      | with_reducible assumption
      | ((with_reducible apply segStart_moves (hw := ?w)); case w => rfl)
      | ((with_reducible apply emitRun_moves (hw := ?w)); case w => rfl)
      | ((with_reducible apply modCtx_moves (hw := ?w)); case w => rfl)
      | ((with_reducible apply nextInstr_moves (hw := ?w)); case w => rfl)
      | intro _
      | dsimp only
      | split
  | succ n ih =>
    have hK := Moves.refl [.regs, .mem, .seq, .hbm] s
    unfold emitRounds
    iterate 60 all_goals first
      | with_reducible assumption
      | ((with_reducible apply segStart_moves (hw := ?w)); case w => rfl)
      | ((with_reducible apply emitRun_moves (hw := ?w)); case w => rfl)
      | ((with_reducible apply modCtx_moves (hw := ?w)); case w => rfl)
      | ((with_reducible apply nextInstr_moves (hw := ?w)); case w => rfl)
      | with_reducible refine Moves.trans ?_ (ih ..)
      | intro _
      | dsimp only
      | split

theorem holdTo_moves (c n : Nat) {M : List Part} {s0 s : State} (hw : inMask [.regs, .seq] M = true) (h0 : Moves M s0 s) : Moves M s0 (holdTo c n s) := by
  refine Moves.via (N := [.regs, .seq]) ?_ hw h0
  clear hw h0
  have hK := Moves.refl [.regs, .seq] s
  unfold holdTo
  iterate 60 all_goals first
    | with_reducible assumption
    | ((with_reducible apply showCtx_moves (hw := ?w)); case w => rfl)
    | ((with_reducible apply emitRun_moves (hw := ?w)); case w => rfl)
    | intro _
    | dsimp only
    | split

theorem holdFrame_moves (c f : Nat) {M : List Part} {s0 s : State} (hw : inMask [.regs, .seq] M = true) (h0 : Moves M s0 s) : Moves M s0 (holdFrame c f s) := by
  refine Moves.via (N := [.regs, .seq]) ?_ hw h0
  clear hw h0
  have hK := Moves.refl [.regs, .seq] s
  unfold holdFrame
  iterate 60 all_goals first
    | with_reducible assumption
    | ((with_reducible apply holdTo_moves (hw := ?w)); case w => rfl)
    | intro _
    | dsimp only
    | split

theorem emitAll_moves (c : Nat) {M : List Part} {s0 s : State} (hw : inMask [.regs, .mem, .seq, .hbm] M = true) (h0 : Moves M s0 s) : Moves M s0 (emitAll c s) := by
  refine Moves.via (N := [.regs, .mem, .seq, .hbm]) ?_ hw h0
  clear hw h0
  have hK := Moves.refl [.regs, .mem, .seq, .hbm] s
  unfold emitAll
  iterate 60 all_goals first
    | with_reducible assumption
    | ((with_reducible apply showCtx_moves (hw := ?w)); case w => rfl)
    | ((with_reducible apply emitRounds_moves (hw := ?w)); case w => rfl)
    | intro _
    | dsimp only
    | split

theorem endContext_moves (c : Nat) (st : CtxState) {M : List Part} {s0 s : State} (hw : inMask [.seq] M = true) (h0 : Moves M s0 s) : Moves M s0 (endContext c st s) := by
  refine Moves.via (N := [.seq]) ?_ hw h0
  clear hw h0
  have hK := Moves.refl [.seq] s
  unfold endContext
  iterate 60 all_goals first
    | with_reducible assumption
    | ((with_reducible apply modCtx_moves (hw := ?w)); case w => rfl)
    | intro _
    | dsimp only
    | split

theorem settleEnd_moves {M : List Part} {s0 s : State} (hw : inMask [.seq] M = true) (h0 : Moves M s0 s) : Moves M s0 (settleEnd s) := by
  refine Moves.via (N := [.seq]) ?_ hw h0
  clear hw h0
  have hK := Moves.refl [.seq] s
  unfold settleEnd
  iterate 60 all_goals first
    | with_reducible assumption
    | intro _
    | dsimp only
    | split
    | ((with_reducible apply Moves.update) <;> first | (with_reducible exact Or.inl rfl) | exact Or.inr (by decide) | skip)

theorem makeRequest_moves (c cond : Nat) (j : JumpReq) {M : List Part} {s0 s : State} (hw : inMask [.regs, .mem, .seq, .hbm] M = true) (h0 : Moves M s0 s) : Moves M s0 (makeRequest c cond j s) := by
  refine Moves.via (N := [.regs, .mem, .seq, .hbm]) ?_ hw h0
  clear hw h0
  have hK := Moves.refl [.regs, .mem, .seq, .hbm] s
  unfold makeRequest
  iterate 60 all_goals first
    | with_reducible assumption
    | ((with_reducible apply incWrap_moves (hw := ?w)); case w => rfl)
    | ((with_reducible apply seqLog_moves (hw := ?w)); case w => rfl)
    | ((with_reducible apply modCtx_moves (hw := ?w)); case w => rfl)
    | intro _
    | dsimp only
    | split

theorem jumpRequest_moves (c f i : Nat) (a : Arm) {M : List Part} {s0 s : State} (hw : inMask [.regs, .mem, .seq, .hbm] M = true) (h0 : Moves M s0 s) : Moves M s0 (jumpRequest c f i a s) := by
  refine Moves.via (N := [.regs, .mem, .seq, .hbm]) ?_ hw h0
  clear hw h0
  have hK := Moves.refl [.regs, .mem, .seq, .hbm] s
  unfold jumpRequest
  iterate 60 all_goals first
    | with_reducible assumption
    | ((with_reducible apply modCtx_moves (hw := ?w)); case w => rfl)
    | ((with_reducible apply postTrap_moves (hw := ?w)); case w => rfl)
    | ((with_reducible apply makeRequest_moves (hw := ?w)); case w => rfl)
    | intro _
    | dsimp only
    | split

theorem resolveFrame_moves (c f : Nat) (valid : Bool) {M : List Part} {s0 s : State} (hw : inMask [.regs, .mem, .seq, .hbm] M = true) (h0 : Moves M s0 s) : Moves M s0 (resolveFrame c f valid s) := by
  refine Moves.via (N := [.regs, .mem, .seq, .hbm]) ?_ hw h0
  clear hw h0
  have hK := Moves.refl [.regs, .mem, .seq, .hbm] s
  unfold resolveFrame
  iterate 60 all_goals first
    | with_reducible assumption
    | ((with_reducible apply setCtx_moves (hw := ?w)); case w => rfl)
    | ((with_reducible apply postTrap_moves (hw := ?w)); case w => rfl)
    | ((with_reducible apply jumpRequest_moves (hw := ?w)); case w => rfl)
    | ((with_reducible apply emitAll_moves (hw := ?w)); case w => rfl)
    | intro _
    | dsimp only
    | split

end Sys2Proof.Laws
end

