-- ==== Sys2Proof/Laws/MovesHostOps.lean ====
section
/-! SUPPORT. What the operations of Machine/HostOps.lean may change of the state, and that they keep what no operation breaks. -/

namespace Sys2Proof.Laws

open Sys2Proof Sys2Proof.Machine

theorem guarded_moves {M : List Part} {q : Req} {a : Nat} {v : Word} {k : State → State} {s0 s : State} (hw : inMask [.ans] M = true)
    (hk : ∀ t, Moves M s0 t → Moves M s0 (k t)) (h0 : Moves M s0 s) : Moves M s0 (guarded q a v k s) := by
  unfold guarded
  split
  · exact answer_moves (hw := hw) (h0 := h0) ..
  · exact hk _ h0

theorem refuseIf_moves {M : List Part} {bad : Bool} {code : Nat} {k : State → State} {s0 s : State} (hw : inMask [.ans] M = true)
    (hk : ∀ t, Moves M s0 t → Moves M s0 (k t)) (h0 : Moves M s0 s) : Moves M s0 (refuseIf bad code k s) := by
  unfold refuseIf
  split
  · exact answer_moves (hw := hw) (h0 := h0) ..
  · exact hk _ h0

theorem guardedRead_moves {M : List Part} {q : Req} {a : Nat} {k : State → State} {s0 s : State} (hw : inMask [.ans] M = true)
    (hk : ∀ t, Moves M s0 t → Moves M s0 (k t)) (h0 : Moves M s0 s) : Moves M s0 (guardedRead q a k s) := by
  unfold guardedRead
  iterate 4
    all_goals try split
    all_goals try exact answer_moves (hw := hw) (h0 := h0) ..
  exact hk _ h0

theorem answerData_moves (w : Word) {M : List Part} {s0 s : State} (hw : inMask [.ans] M = true) (h0 : Moves M s0 s) : Moves M s0 (answerData w s) := by
  refine Moves.via (N := [.ans]) ?_ hw h0
  clear hw h0
  have hK := Moves.refl [.ans] s
  unfold answerData
  iterate 60 all_goals first
    | with_reducible assumption
    | intro _
    | dsimp only
    | split
    | ((with_reducible apply Moves.update) <;> first | (with_reducible exact Or.inl rfl) | exact Or.inr (by decide) | skip)

theorem shadowSet_moves (a : Nat) (v : Word) {M : List Part} {s0 s : State} (hw : inMask [.shadowS] M = true) (h0 : Moves M s0 s) : Moves M s0 (shadowSet a v s) := by
  refine Moves.via (N := [.shadowS]) ?_ hw h0
  clear hw h0
  have hK := Moves.refl [.shadowS] s
  unfold shadowSet
  iterate 60 all_goals first
    | with_reducible assumption
    | intro _
    | dsimp only
    | split
    | ((with_reducible apply Moves.update) <;> first | (with_reducible exact Or.inl rfl) | exact Or.inr (by decide) | skip)

theorem shadowFset_moves (a : Nat) (v : Word) {M : List Part} {s0 s : State} (hw : inMask [.shadowF] M = true) (h0 : Moves M s0 s) : Moves M s0 (shadowFset a v s) := by
  refine Moves.via (N := [.shadowF]) ?_ hw h0
  clear hw h0
  have hK := Moves.refl [.shadowF] s
  unfold shadowFset
  iterate 60 all_goals first
    | with_reducible assumption
    | intro _
    | dsimp only
    | split
    | ((with_reducible apply Moves.update) <;> first | (with_reducible exact Or.inl rfl) | exact Or.inr (by decide) | skip)

theorem applyShadows_moves (m : Nat → Word) (x0 : List (Nat × Word)) {M : List Part} {s0 s : State} (hw : inMask [.regs] M = true) (h0 : Moves M s0 s) : Moves M s0 (applyShadows m x0 s) := by
  refine Moves.via (N := [.regs]) ?_ hw h0
  clear hw h0
  induction x0 generalizing m s with
  | nil =>
    have hK := Moves.refl [.regs] s
    unfold applyShadows
    iterate 60 all_goals first
      | with_reducible assumption
      | ((with_reducible apply setReg_moves (hw := ?w)); case w => rfl)
      | intro _
      | dsimp only
      | split
  | cons x xs ih =>
    have hK := Moves.refl [.regs] s
    unfold applyShadows
    iterate 60 all_goals first
      | with_reducible assumption
      | ((with_reducible apply setReg_moves (hw := ?w)); case w => rfl)
      | with_reducible refine Moves.trans ?_ (ih ..)
      | intro _
      | dsimp only
      | split

theorem applyS_moves (p : Nat → Bool) {M : List Part} {s0 s : State} (hw : inMask [.regs, .shadowS] M = true) (h0 : Moves M s0 s) : Moves M s0 (applyS p s) := by
  refine Moves.via (N := [.regs, .shadowS]) ?_ hw h0
  clear hw h0
  have hK := Moves.refl [.regs, .shadowS] s
  unfold applyS
  iterate 60 all_goals first
    | with_reducible assumption
    | ((with_reducible apply applyShadows_moves (hw := ?w)); case w => rfl)
    | intro _
    | dsimp only
    | split
    | ((with_reducible apply Moves.update) <;> first | (with_reducible exact Or.inl rfl) | exact Or.inr (by decide) | skip)

theorem writeByClass_moves (a : Nat) (v : Word) {M : List Part} {s0 s : State} (hw : inMask [.regs, .shadowS, .shadowF] M = true) (h0 : Moves M s0 s) : Moves M s0 (writeByClass a v s) := by
  refine Moves.via (N := [.regs, .shadowS, .shadowF]) ?_ hw h0
  clear hw h0
  have hK := Moves.refl [.regs, .shadowS, .shadowF] s
  unfold writeByClass
  iterate 60 all_goals first
    | with_reducible assumption
    | ((with_reducible apply setReg_moves (hw := ?w)); case w => rfl)
    | ((with_reducible apply shadowFset_moves (hw := ?w)); case w => rfl)
    | ((with_reducible apply shadowSet_moves (hw := ?w)); case w => rfl)
    | intro _
    | dsimp only
    | split
    | ((with_reducible apply Moves.update) <;> first | (with_reducible exact Or.inl rfl) | exact Or.inr (by decide) | skip)

theorem accept_moves (a : Nat) (v : Word) {M : List Part} {s0 s : State} (hw : inMask [.regs, .shadowS, .shadowF, .ans] M = true) (h0 : Moves M s0 s) : Moves M s0 (accept a v s) := by
  refine Moves.via (N := [.regs, .shadowS, .shadowF, .ans]) ?_ hw h0
  clear hw h0
  have hK := Moves.refl [.regs, .shadowS, .shadowF, .ans] s
  unfold accept
  iterate 60 all_goals first
    | with_reducible assumption
    | ((with_reducible apply answer_moves (hw := ?w)); case w => rfl)
    | ((with_reducible apply writeByClass_moves (hw := ?w)); case w => rfl)
    | intro _
    | dsimp only
    | split

end Sys2Proof.Laws
end

