-- ==== Sys2Proof/Laws/MovesTrigger.lean ====
section
/-! SUPPORT. What the operations of Machine/Trigger.lean may change of the state, and that they keep what no operation breaks. -/

namespace Sys2Proof.Laws

open Sys2Proof Sys2Proof.Machine

theorem postDirect_moves (line t : Nat) {M : List Part} {s0 s : State} (hw : inMask [.trg] M = true) (h0 : Moves M s0 s) : Moves M s0 (postDirect line t s) := by
  refine Moves.via (N := [.trg]) ?_ hw h0
  clear hw h0
  have hK := Moves.refl [.trg] s
  unfold postDirect
  iterate 60 all_goals first
    | with_reducible assumption
    | intro _
    | dsimp only
    | split
    | ((with_reducible apply Moves.update) <;> first | (with_reducible exact Or.inl rfl) | exact Or.inr (by decide) | skip)

theorem assertSrc_moves (code since : Nat) (upto : Option Nat) {M : List Part} {s0 s : State} (hw : inMask [.trg] M = true) (h0 : Moves M s0 s) : Moves M s0 (assertSrc code since upto s) := by
  refine Moves.via (N := [.trg]) ?_ hw h0
  clear hw h0
  have hK := Moves.refl [.trg] s
  unfold assertSrc
  iterate 60 all_goals first
    | with_reducible assumption
    | intro _
    | dsimp only
    | split
    | ((with_reducible apply Moves.update) <;> first | (with_reducible exact Or.inl rfl) | exact Or.inr (by decide) | skip)

theorem assertEvent_moves (code t : Nat) {M : List Part} {s0 s : State} (hw : inMask [.trg] M = true) (h0 : Moves M s0 s) : Moves M s0 (assertEvent code t s) := by
  refine Moves.via (N := [.trg]) ?_ hw h0
  clear hw h0
  have hK := Moves.refl [.trg] s
  unfold assertEvent
  iterate 60 all_goals first
    | with_reducible assumption
    | ((with_reducible apply assertSrc_moves (hw := ?w)); case w => rfl)
    | intro _
    | dsimp only
    | split

theorem releaseSrc_moves (code t : Nat) {M : List Part} {s0 s : State} (hw : inMask [.trg] M = true) (h0 : Moves M s0 s) : Moves M s0 (releaseSrc code t s) := by
  refine Moves.via (N := [.trg]) ?_ hw h0
  clear hw h0
  have hK := Moves.refl [.trg] s
  unfold releaseSrc
  iterate 60 all_goals first
    | with_reducible assumption
    | intro _
    | dsimp only
    | split
    | ((with_reducible apply Moves.update) <;> first | (with_reducible exact Or.inl rfl) | exact Or.inr (by decide) | skip)

theorem loadRoute_moves (l x0 : Nat) (x1 : List Byte) {M : List Part} {s0 s : State} (hw : inMask [.regs] M = true) (h0 : Moves M s0 s) : Moves M s0 (loadRoute l x0 x1 s) := by
  refine Moves.via (N := [.regs]) ?_ hw h0
  clear hw h0
  induction x0 generalizing l x1 s with
  | zero =>
    have hK := Moves.refl [.regs] s
    unfold loadRoute
    iterate 60 all_goals first
      | with_reducible assumption
      | ((with_reducible apply setRegs_moves (hw := ?w)); case w => rfl)
      | ((with_reducible apply orReg_moves (hw := ?w)); case w => rfl)
      | intro _
      | dsimp only
      | split
  | succ n ih =>
    have hK := Moves.refl [.regs] s
    unfold loadRoute
    iterate 60 all_goals first
      | with_reducible assumption
      | ((with_reducible apply setRegs_moves (hw := ?w)); case w => rfl)
      | ((with_reducible apply orReg_moves (hw := ?w)); case w => rfl)
      | with_reducible refine Moves.trans ?_ (ih ..)
      | intro _
      | dsimp only
      | split

theorem applyRoute_moves (bs : List Byte) {M : List Part} {s0 s : State} (hw : inMask [.regs, .flt] M = true) (h0 : Moves M s0 s) : Moves M s0 (applyRoute bs s) := by
  refine Moves.via (N := [.regs, .flt]) ?_ hw h0
  clear hw h0
  have hK := Moves.refl [.regs, .flt] s
  unfold applyRoute
  iterate 60 all_goals first
    | with_reducible assumption
    | ((with_reducible apply loadRoute_moves (hw := ?w)); case w => rfl)
    | ((with_reducible apply imageNotice_moves (hw := ?w)); case w => rfl)
    | intro _
    | dsimp only
    | split

theorem execTrgFire_moves (q : Req) (value : Word) {s s' : State} (h : execTrgFire q value s = .next s') : Moves [.ans, .trg] s s' := by
  unfold execTrgFire at h
  have hK := Moves.refl [.ans, .trg] s
  all_goals injection h with h
  all_goals subst h
  iterate 60 all_goals first
    | with_reducible assumption
    | ((with_reducible apply guarded_moves (hw := ?w)); case w => rfl)
    | ((with_reducible apply answer_moves (hw := ?w)); case w => rfl)
    | ((with_reducible apply postDirect_moves (hw := ?w)); case w => rfl)
    | intro _
    | dsimp only
    | split

theorem lineSrcWrite_moves (l : Nat) (hi : Bool) (value : Word) {M : List Part} {s0 s : State} (hw : inMask [.regs, .shadowS, .shadowF, .ans] M = true) (h0 : Moves M s0 s) : Moves M s0 (lineSrcWrite l hi value s) := by
  refine Moves.via (N := [.regs, .shadowS, .shadowF, .ans]) ?_ hw h0
  clear hw h0
  have hK := Moves.refl [.regs, .shadowS, .shadowF, .ans] s
  unfold lineSrcWrite
  iterate 60 all_goals first
    | with_reducible assumption
    | ((with_reducible apply refuseIf_moves (hw := ?w)); case w => rfl)
    | ((with_reducible apply accept_moves (hw := ?w)); case w => rfl)
    | intro _
    | dsimp only
    | split

theorem execLineSrcWrite_moves (q : Req) (l : Fin 64) (hi : Bool) (value : Word) {s s' : State} (h : execLineSrcWrite q l hi value s = .next s') : Moves [.regs, .shadowS, .shadowF, .ans] s s' := by
  unfold execLineSrcWrite at h
  have hK := Moves.refl [.regs, .shadowS, .shadowF, .ans] s
  all_goals injection h with h
  all_goals subst h
  iterate 60 all_goals first
    | with_reducible assumption
    | ((with_reducible apply guarded_moves (hw := ?w)); case w => rfl)
    | ((with_reducible apply lineSrcWrite_moves (hw := ?w)); case w => rfl)
    | intro _
    | dsimp only
    | split

end Sys2Proof.Laws
end

