-- ==== Sys2Proof/Laws/MovesMeasure.lean ====
section
/-! SUPPORT. What the operations of Machine/Measure.lean may change of the state, and that they keep what no operation breaks. -/

namespace Sys2Proof.Laws

open Sys2Proof Sys2Proof.Machine

theorem modMea_moves (c : Nat) (f : MeaCh → MeaCh) {M : List Part} {s0 s : State} (hw : inMask [.mea] M = true) (h0 : Moves M s0 s) : Moves M s0 (modMea c f s) := by
  refine Moves.via (N := [.mea]) ?_ hw h0
  clear hw h0
  have hK := Moves.refl [.mea] s
  unfold modMea
  iterate 60 all_goals first
    | with_reducible assumption
    | intro _
    | dsimp only
    | split
    | ((with_reducible apply Moves.update) <;> first | (with_reducible exact Or.inl rfl) | exact Or.inr (by decide) | skip)

theorem endMeasure_moves (c : Nat) {M : List Part} {s0 s : State} (hw : inMask [.regs, .mea] M = true) (h0 : Moves M s0 s) : Moves M s0 (endMeasure c s) := by
  refine Moves.via (N := [.regs, .mea]) ?_ hw h0
  clear hw h0
  have hK := Moves.refl [.regs, .mea] s
  unfold endMeasure
  iterate 60 all_goals first
    | with_reducible assumption
    | ((with_reducible apply setFld_moves (hw := ?w)); case w => rfl)
    | ((with_reducible apply modMea_moves (hw := ?w)); case w => rfl)
    | intro _
    | dsimp only
    | split

theorem takeSets_moves (c : Nat) {M : List Part} {s0 s : State} (hw : inMask [.regs, .shadowF] M = true) (h0 : Moves M s0 s) : Moves M s0 (takeSets c s) := by
  refine Moves.via (N := [.regs, .shadowF]) ?_ hw h0
  clear hw h0
  have hK := Moves.refl [.regs, .shadowF] s
  unfold takeSets
  iterate 60 all_goals first
    | with_reducible assumption
    | ((with_reducible apply applyShadows_moves (hw := ?w)); case w => rfl)
    | intro _
    | dsimp only
    | split
    | ((with_reducible apply Moves.update) <;> first | (with_reducible exact Or.inl rfl) | exact Or.inr (by decide) | skip)

theorem startMeasure_moves (c : Nat) {M : List Part} {s0 s : State} (hw : inMask [.regs, .shadowF, .mea] M = true) (h0 : Moves M s0 s) : Moves M s0 (startMeasure c s) := by
  refine Moves.via (N := [.regs, .shadowF, .mea]) ?_ hw h0
  clear hw h0
  have hK := Moves.refl [.regs, .shadowF, .mea] s
  unfold startMeasure
  iterate 60 all_goals first
    | with_reducible assumption
    | ((with_reducible apply endMeasure_moves (hw := ?w)); case w => rfl)
    | ((with_reducible apply setRegN_moves (hw := ?w)); case w => rfl)
    | ((with_reducible apply takeSets_moves (hw := ?w)); case w => rfl)
    | ((with_reducible apply modMea_moves (hw := ?w)); case w => rfl)
    | intro _
    | dsimp only
    | split

theorem askReset_moves (t c : Nat) {M : List Part} {s0 s : State} (hw : inMask [.mea] M = true) (h0 : Moves M s0 s) : Moves M s0 (askReset t c s) := by
  refine Moves.via (N := [.mea]) ?_ hw h0
  clear hw h0
  have hK := Moves.refl [.mea] s
  unfold askReset
  iterate 60 all_goals first
    | with_reducible assumption
    | ((with_reducible apply modMea_moves (hw := ?w)); case w => rfl)
    | intro _
    | dsimp only
    | split

theorem showFades_moves {M : List Part} {s0 s : State} (hw : inMask [.regs] M = true) (h0 : Moves M s0 s) : Moves M s0 (showFades s) := by
  refine Moves.via (N := [.regs]) ?_ hw h0
  clear hw h0
  have hK := Moves.refl [.regs] s
  unfold showFades
  iterate 60 all_goals first
    | with_reducible assumption
    | ((with_reducible apply setRegN_moves (hw := ?w)); case w => rfl)
    | intro _
    | dsimp only
    | split

theorem intake_moves (c v : Nat) (val : Int) (lost : Bool) {M : List Part} {s0 s : State} (hw : inMask [.regs, .mea] M = true) (h0 : Moves M s0 s) : Moves M s0 (intake c v val lost s) := by
  refine Moves.via (N := [.regs, .mea]) ?_ hw h0
  clear hw h0
  have hK := Moves.refl [.regs, .mea] s
  unfold intake
  iterate 60 all_goals first
    | with_reducible assumption
    | ((with_reducible apply modMea_moves (hw := ?w)); case w => rfl)
    | ((with_reducible apply showFades_moves (hw := ?w)); case w => rfl)
    | intro _
    | dsimp only
    | split

theorem xchSetWrite_moves (c a : Nat) (value : Word) {M : List Part} {s0 s : State} (hw : inMask [.regs, .shadowS, .shadowF, .ans] M = true) (h0 : Moves M s0 s) : Moves M s0 (xchSetWrite c a value s) := by
  refine Moves.via (N := [.regs, .shadowS, .shadowF, .ans]) ?_ hw h0
  clear hw h0
  have hK := Moves.refl [.regs, .shadowS, .shadowF, .ans] s
  unfold xchSetWrite
  iterate 60 all_goals first
    | with_reducible assumption
    | ((with_reducible apply answer_moves (hw := ?w)); case w => rfl)
    | ((with_reducible apply orReg_moves (hw := ?w)); case w => rfl)
    | ((with_reducible apply showFades_moves (hw := ?w)); case w => rfl)
    | ((with_reducible apply accept_moves (hw := ?w)); case w => rfl)
    | intro _
    | dsimp only
    | split

theorem startFade_moves (c t : Nat) {M : List Part} {s0 s : State} (hw : inMask [.mea] M = true) (h0 : Moves M s0 s) : Moves M s0 (startFade c t s) := by
  refine Moves.via (N := [.mea]) ?_ hw h0
  clear hw h0
  have hK := Moves.refl [.mea] s
  unfold startFade
  iterate 60 all_goals first
    | with_reducible assumption
    | ((with_reducible apply modMea_moves (hw := ?w)); case w => rfl)
    | intro _
    | dsimp only
    | split

theorem nextCoef_moves {M : List Part} {s0 s : State} (hw : inMask [.regs] M = true) (h0 : Moves M s0 s) : Moves M s0 (nextCoef s) := by
  refine Moves.via (N := [.regs]) ?_ hw h0
  clear hw h0
  have hK := Moves.refl [.regs] s
  unfold nextCoef
  iterate 60 all_goals first
    | with_reducible assumption
    | ((with_reducible apply setFld_moves (hw := ?w)); case w => rfl)
    | intro _
    | dsimp only
    | split

theorem coefDataWrite_moves (value : Word) {M : List Part} {s0 s : State} (hw : inMask [.regs, .ans, .mea] M = true) (h0 : Moves M s0 s) : Moves M s0 (coefDataWrite value s) := by
  refine Moves.via (N := [.regs, .ans, .mea]) ?_ hw h0
  clear hw h0
  have hK := Moves.refl [.regs, .ans, .mea] s
  unfold coefDataWrite
  iterate 60 all_goals first
    | with_reducible assumption
    | ((with_reducible apply answer_moves (hw := ?w)); case w => rfl)
    | ((with_reducible apply nextCoef_moves (hw := ?w)); case w => rfl)
    | intro _
    | dsimp only
    | split
    | ((with_reducible apply Moves.update) <;> first | (with_reducible exact Or.inl rfl) | exact Or.inr (by decide) | skip)

theorem chainWrite_moves (c : Nat) (isRho : Bool) (value : Word) {M : List Part} {s0 s : State} (hw : inMask [.regs, .shadowS, .shadowF, .ans] M = true) (h0 : Moves M s0 s) : Moves M s0 (chainWrite c isRho value s) := by
  refine Moves.via (N := [.regs, .shadowS, .shadowF, .ans]) ?_ hw h0
  clear hw h0
  have hK := Moves.refl [.regs, .shadowS, .shadowF, .ans] s
  unfold chainWrite
  iterate 60 all_goals first
    | with_reducible assumption
    | ((with_reducible apply answer_moves (hw := ?w)); case w => rfl)
    | ((with_reducible apply accept_moves (hw := ?w)); case w => rfl)
    | ((with_reducible apply setRegN_moves (hw := ?w)); case w => rfl)
    | intro _
    | dsimp only
    | split

theorem targetWrite_moves (c : Nat) (value : Word) {M : List Part} {s0 s : State} (hw : inMask [.regs, .shadowS, .shadowF, .ans] M = true) (h0 : Moves M s0 s) : Moves M s0 (targetWrite c value s) := by
  refine Moves.via (N := [.regs, .shadowS, .shadowF, .ans]) ?_ hw h0
  clear hw h0
  have hK := Moves.refl [.regs, .shadowS, .shadowF, .ans] s
  unfold targetWrite
  iterate 60 all_goals first
    | with_reducible assumption
    | ((with_reducible apply refuseIf_moves (hw := ?w)); case w => rfl)
    | ((with_reducible apply accept_moves (hw := ?w)); case w => rfl)
    | intro _
    | dsimp only
    | split

theorem loadDspChannel_moves (bs : List Byte) (count c : Nat) {M : List Part} {s0 s : State} (hw : inMask [.regs, .mea] M = true) (h0 : Moves M s0 s) : Moves M s0 (loadDspChannel bs count c s) := by
  refine Moves.via (N := [.regs, .mea]) ?_ hw h0
  clear hw h0
  have hK := Moves.refl [.regs, .mea] s
  unfold loadDspChannel
  iterate 60 all_goals first
    | with_reducible assumption
    | ((with_reducible apply modMea_moves (hw := ?w)); case w => rfl)
    | ((with_reducible apply setRegN_moves (hw := ?w)); case w => rfl)
    | intro _
    | dsimp only
    | split

theorem loadDspSets_moves (x0 : Nat) (x1 : List Byte) (x2 : List (Nat × Nat)) {M : List Part} {s0 s : State} (hw : inMask [.mea] M = true) (h0 : Moves M s0 s) : Moves M s0 (loadDspSets x0 x1 x2 s).2 := by
  refine Moves.via (N := [.mea]) ?_ hw h0
  clear hw h0
  induction x0 generalizing x1 x2 s with
  | zero =>
    have hK := Moves.refl [.mea] s
    unfold loadDspSets
    iterate 60 all_goals first
      | with_reducible assumption
      | intro _
      | dsimp only
      | split
      | ((with_reducible apply Moves.update) <;> first | exact Or.inr (by decide) | (with_reducible exact Or.inl rfl) | skip)
  | succ n ih =>
    have hK := Moves.refl [.mea] s
    unfold loadDspSets
    iterate 60 all_goals first
      | with_reducible assumption
      | with_reducible refine Moves.trans ?_ (Moves.of2 ‹loadDspSets _ _ _ _ = _› (ih ..))
      | with_reducible refine Moves.trans ?_ (ih ..)
      | intro _
      | dsimp only
      | split
      | ((with_reducible apply Moves.update) <;> first | exact Or.inr (by decide) | (with_reducible exact Or.inl rfl) | skip)
theorem loadDspSets_movesE {x0 : Nat} {x1 : List Byte} {x2 : List (Nat × Nat)} {w0} {M : List Part} {s0 s s' : State} (hE : loadDspSets x0 x1 x2 s = (w0, s')) (hw : inMask [.mea] M = true) (h0 : Moves M s0 s) : Moves M s0 s' := by
  have k := loadDspSets_moves (hw := hw) (h0 := h0) (x0 := x0) (x1 := x1) (x2 := x2)
  rw [hE] at k
  exact k

theorem applyDspMap_moves (bs : List Byte) {M : List Part} {s0 s : State} (hw : inMask [.regs, .flt, .mea] M = true) (h0 : Moves M s0 s) : Moves M s0 (applyDspMap bs s) := by
  refine Moves.via (N := [.regs, .flt, .mea]) ?_ hw h0
  clear hw h0
  have hK := Moves.refl [.regs, .flt, .mea] s
  unfold applyDspMap
  iterate 60 all_goals first
    | with_reducible assumption
    | ((with_reducible apply loadDspChannel_moves (hw := ?w)); case w => rfl)
    | ((with_reducible apply loadDspSets_movesE (hE := by assumption) (hw := ?w)); case w => rfl)
    | ((with_reducible apply loadDspSets_moves (hw := ?w)); case w => rfl)
    | ((with_reducible apply setBit_moves (hw := ?w)); case w => rfl)
    | ((with_reducible apply setRegN_moves (hw := ?w)); case w => rfl)
    | ((with_reducible apply imageNotice_moves (hw := ?w)); case w => rfl)
    | with_reducible apply Moves.foldl
    | intro _
    | dsimp only
    | split
    | ((with_reducible apply Moves.update) <;> first | (with_reducible exact Or.inl rfl) | exact Or.inr (by decide) | skip)

theorem execXchSetWrite_moves (q : Req) (c : Fin 512) (which : Fin 3) (value : Word) {s s' : State} (h : execXchSetWrite q c which value s = .next s') : Moves [.regs, .shadowS, .shadowF, .ans] s s' := by
  unfold execXchSetWrite at h
  have hK := Moves.refl [.regs, .shadowS, .shadowF, .ans] s
  all_goals injection h with h
  all_goals subst h
  iterate 60 all_goals first
    | with_reducible assumption
    | ((with_reducible apply guarded_moves (hw := ?w)); case w => rfl)
    | ((with_reducible apply xchSetWrite_moves (hw := ?w)); case w => rfl)
    | intro _
    | dsimp only
    | split

theorem execCoefDataWrite_moves (q : Req) (value : Word) {s s' : State} (h : execCoefDataWrite q value s = .next s') : Moves [.regs, .ans, .mea] s s' := by
  unfold execCoefDataWrite at h
  have hK := Moves.refl [.regs, .ans, .mea] s
  all_goals injection h with h
  all_goals subst h
  iterate 60 all_goals first
    | with_reducible assumption
    | ((with_reducible apply guarded_moves (hw := ?w)); case w => rfl)
    | ((with_reducible apply coefDataWrite_moves (hw := ?w)); case w => rfl)
    | intro _
    | dsimp only
    | split

theorem execCoefDataRead_moves (q : Req) {s s' : State} (h : execCoefDataRead q s = .next s') : Moves [.regs, .ans] s s' := by
  unfold execCoefDataRead at h
  have hK := Moves.refl [.regs, .ans] s
  all_goals injection h with h
  all_goals subst h
  iterate 60 all_goals first
    | with_reducible assumption
    | ((with_reducible apply guardedRead_moves (hw := ?w)); case w => rfl)
    | ((with_reducible apply answerData_moves (hw := ?w)); case w => rfl)
    | ((with_reducible apply nextCoef_moves (hw := ?w)); case w => rfl)
    | intro _
    | dsimp only
    | split

theorem execChainWrite_moves (q : Req) (c : Fin 512) (isRho : Bool) (value : Word) {s s' : State} (h : execChainWrite q c isRho value s = .next s') : Moves [.regs, .shadowS, .shadowF, .ans] s s' := by
  unfold execChainWrite at h
  have hK := Moves.refl [.regs, .shadowS, .shadowF, .ans] s
  all_goals injection h with h
  all_goals subst h
  iterate 60 all_goals first
    | with_reducible assumption
    | ((with_reducible apply guarded_moves (hw := ?w)); case w => rfl)
    | ((with_reducible apply chainWrite_moves (hw := ?w)); case w => rfl)
    | intro _
    | dsimp only
    | split

theorem execTargetWrite_moves (q : Req) (c : Fin 512) (value : Word) {s s' : State} (h : execTargetWrite q c value s = .next s') : Moves [.regs, .shadowS, .shadowF, .ans] s s' := by
  unfold execTargetWrite at h
  have hK := Moves.refl [.regs, .shadowS, .shadowF, .ans] s
  all_goals injection h with h
  all_goals subst h
  iterate 60 all_goals first
    | with_reducible assumption
    | ((with_reducible apply guarded_moves (hw := ?w)); case w => rfl)
    | ((with_reducible apply targetWrite_moves (hw := ?w)); case w => rfl)
    | intro _
    | dsimp only
    | split

end Sys2Proof.Laws
end

