-- ==== Sys2Proof/Laws/MovesAcq.lean ====
section
/-! SUPPORT. What the operations of Machine/Acq.lean may change of the state, and that they keep what no operation breaks. -/

namespace Sys2Proof.Laws

open Sys2Proof Sys2Proof.Machine

theorem modAcq_moves (a : Nat) (f : AcqUnit → AcqUnit) {M : List Part} {s0 s : State} (hw : inMask [.acq] M = true) (h0 : Moves M s0 s) : Moves M s0 (modAcq a f s) := by
  refine Moves.via (N := [.acq]) ?_ hw h0
  clear hw h0
  have hK := Moves.refl [.acq] s
  unfold modAcq
  iterate 60 all_goals first
    | with_reducible assumption
    | intro _
    | dsimp only
    | split
    | ((with_reducible apply Moves.update) <;> first | (with_reducible exact Or.inl rfl) | exact Or.inr (by decide) | skip)

theorem setAcqState_moves (a code : Nat) {M : List Part} {s0 s : State} (hw : inMask [.regs] M = true) (h0 : Moves M s0 s) : Moves M s0 (setAcqState a code s) := by
  refine Moves.via (N := [.regs]) ?_ hw h0
  clear hw h0
  have hK := Moves.refl [.regs] s
  unfold setAcqState
  iterate 60 all_goals first
    | with_reducible assumption
    | ((with_reducible apply setFld_moves (hw := ?w)); case w => rfl)
    | intro _
    | dsimp only
    | split

theorem settleAcq_moves (a : Nat) {M : List Part} {s0 s : State} (hw : inMask [.regs] M = true) (h0 : Moves M s0 s) : Moves M s0 (settleAcq a s) := by
  refine Moves.via (N := [.regs]) ?_ hw h0
  clear hw h0
  have hK := Moves.refl [.regs] s
  unfold settleAcq
  iterate 60 all_goals first
    | with_reducible assumption
    | ((with_reducible apply setAcqState_moves (hw := ?w)); case w => rfl)
    | intro _
    | dsimp only
    | split

theorem fixPosition_moves (a r j : Nat) {M : List Part} {s0 s : State} (hw : inMask [.regs, .acq] M = true) (h0 : Moves M s0 s) : Moves M s0 (fixPosition a r j s) := by
  refine Moves.via (N := [.regs, .acq]) ?_ hw h0
  clear hw h0
  have hK := Moves.refl [.regs, .acq] s
  unfold fixPosition
  iterate 60 all_goals first
    | with_reducible assumption
    | ((with_reducible apply setRegN_moves (hw := ?w)); case w => rfl)
    | ((with_reducible apply orReg_moves (hw := ?w)); case w => rfl)
    | ((with_reducible apply setBit_moves (hw := ?w)); case w => rfl)
    | ((with_reducible apply settleAcq_moves (hw := ?w)); case w => rfl)
    | ((with_reducible apply modAcq_moves (hw := ?w)); case w => rfl)
    | intro _
    | dsimp only
    | split

theorem countPost_moves (a r : Nat) {M : List Part} {s0 s : State} (hw : inMask [.regs, .acq] M = true) (h0 : Moves M s0 s) : Moves M s0 (countPost a r s) := by
  refine Moves.via (N := [.regs, .acq]) ?_ hw h0
  clear hw h0
  have hK := Moves.refl [.regs, .acq] s
  unfold countPost
  iterate 60 all_goals first
    | with_reducible assumption
    | ((with_reducible apply settleAcq_moves (hw := ?w)); case w => rfl)
    | ((with_reducible apply modAcq_moves (hw := ?w)); case w => rfl)
    | intro _
    | dsimp only
    | split

theorem acqRecord_moves (a r time value channel kind rflags : Nat) {M : List Part} {s0 s : State} (hw : inMask [.regs, .mem, .acq, .hbm] M = true) (h0 : Moves M s0 s) : Moves M s0 (acqRecord a r time value channel kind rflags s) := by
  refine Moves.via (N := [.regs, .mem, .acq, .hbm]) ?_ hw h0
  clear hw h0
  have hK := Moves.refl [.regs, .mem, .acq, .hbm] s
  unfold acqRecord
  iterate 60 all_goals first
    | with_reducible assumption
    | ((with_reducible apply setRegN_moves (hw := ?w)); case w => rfl)
    | ((with_reducible apply incWrap_moves (hw := ?w)); case w => rfl)
    | ((with_reducible apply orReg_moves (hw := ?w)); case w => rfl)
    | ((with_reducible apply setBytes_moves (hw := ?w)); case w => rfl)
    | ((with_reducible apply fixPosition_moves (hw := ?w)); case w => rfl)
    | ((with_reducible apply modAcq_moves (hw := ?w)); case w => rfl)
    | ((with_reducible apply countPost_moves (hw := ?w)); case w => rfl)
    | intro _
    | dsimp only
    | split

theorem emitBlock_moves (a : Nat) (b : AcqBlock) (partialB : Bool) {M : List Part} {s0 s : State} (hw : inMask [.regs, .mem, .acq, .hbm] M = true) (h0 : Moves M s0 s) : Moves M s0 (emitBlock a b partialB s) := by
  refine Moves.via (N := [.regs, .mem, .acq, .hbm]) ?_ hw h0
  clear hw h0
  have hK := Moves.refl [.regs, .mem, .acq, .hbm] s
  unfold emitBlock
  iterate 60 all_goals first
    | with_reducible assumption
    | ((with_reducible apply acqRecord_moves (hw := ?w)); case w => rfl)
    | intro _
    | dsimp only
    | split

theorem cutBlocks_moves (a : Nat) (p : AcqBlock → Bool) {M : List Part} {s0 s : State} (hw : inMask [.regs, .mem, .acq, .hbm] M = true) (h0 : Moves M s0 s) : Moves M s0 (cutBlocks a p s) := by
  refine Moves.via (N := [.regs, .mem, .acq, .hbm]) ?_ hw h0
  clear hw h0
  have hK := Moves.refl [.regs, .mem, .acq, .hbm] s
  unfold cutBlocks
  iterate 60 all_goals first
    | with_reducible assumption
    | ((with_reducible apply modAcq_moves (hw := ?w)); case w => rfl)
    | ((with_reducible apply emitBlock_moves (hw := ?w)); case w => rfl)
    | with_reducible apply Moves.foldl
    | intro _
    | dsimp only
    | split

theorem reduceOutput_moves (a r c time : Nat) (v : Int) (flags : Nat) {M : List Part} {s0 s : State} (hw : inMask [.regs, .mem, .acq, .hbm] M = true) (h0 : Moves M s0 s) : Moves M s0 (reduceOutput a r c time v flags s) := by
  refine Moves.via (N := [.regs, .mem, .acq, .hbm]) ?_ hw h0
  clear hw h0
  have hK := Moves.refl [.regs, .mem, .acq, .hbm] s
  unfold reduceOutput
  iterate 60 all_goals first
    | with_reducible assumption
    | ((with_reducible apply emitBlock_moves (hw := ?w)); case w => rfl)
    | ((with_reducible apply modAcq_moves (hw := ?w)); case w => rfl)
    | intro _
    | dsimp only
    | split

theorem detect_moves (c t : Nat) (v : Int) (a : Nat) {M : List Part} {s0 s : State} (hw : inMask [.trg, .acq] M = true) (h0 : Moves M s0 s) : Moves M s0 (detect c t v s a) := by
  refine Moves.via (N := [.trg, .acq]) ?_ hw h0
  clear hw h0
  have hK := Moves.refl [.trg, .acq] s
  unfold detect
  iterate 60 all_goals first
    | with_reducible assumption
    | ((with_reducible apply modAcq_moves (hw := ?w)); case w => rfl)
    | ((with_reducible apply assertEvent_moves (hw := ?w)); case w => rfl)
    | intro _
    | dsimp only
    | split

theorem triggerRing_moves (a : Nat) (x : Int) (r : Nat) {M : List Part} {s0 s : State} (hw : inMask [.regs, .acq] M = true) (h0 : Moves M s0 s) : Moves M s0 (triggerRing a x s r) := by
  refine Moves.via (N := [.regs, .acq]) ?_ hw h0
  clear hw h0
  have hK := Moves.refl [.regs, .acq] s
  unfold triggerRing
  iterate 60 all_goals first
    | with_reducible assumption
    | ((with_reducible apply fixPosition_moves (hw := ?w)); case w => rfl)
    | ((with_reducible apply modAcq_moves (hw := ?w)); case w => rfl)
    | intro _
    | dsimp only
    | split

theorem acqTrigger_moves (l t a : Nat) {M : List Part} {s0 s : State} (hw : inMask [.regs, .acq] M = true) (h0 : Moves M s0 s) : Moves M s0 (acqTrigger l t a s) := by
  refine Moves.via (N := [.regs, .acq]) ?_ hw h0
  clear hw h0
  have hK := Moves.refl [.regs, .acq] s
  unfold acqTrigger
  iterate 60 all_goals first
    | with_reducible assumption
    | ((with_reducible apply modAcq_moves (hw := ?w)); case w => rfl)
    | ((with_reducible apply setAcqState_moves (hw := ?w)); case w => rfl)
    | ((with_reducible apply settleAcq_moves (hw := ?w)); case w => rfl)
    | ((with_reducible apply triggerRing_moves (hw := ?w)); case w => rfl)
    | with_reducible apply Moves.foldl
    | intro _
    | dsimp only
    | split

theorem acqOutput_moves (c time : Nat) (v : Int) (flags : Nat) {M : List Part} {s0 s : State} (hw : inMask [.regs, .mem, .acq, .hbm] M = true) (h0 : Moves M s0 s) : Moves M s0 (acqOutput c time v flags s) := by
  refine Moves.via (N := [.regs, .mem, .acq, .hbm]) ?_ hw h0
  clear hw h0
  have hK := Moves.refl [.regs, .mem, .acq, .hbm] s
  unfold acqOutput
  iterate 60 all_goals first
    | with_reducible assumption
    | ((with_reducible apply cutBlocks_moves (hw := ?w)); case w => rfl)
    | ((with_reducible apply acqRecord_moves (hw := ?w)); case w => rfl)
    | ((with_reducible apply reduceOutput_moves (hw := ?w)); case w => rfl)
    | intro _
    | dsimp only
    | split

theorem measureOutput_moves (c : Nat) {M : List Part} {s0 s : State} (hw : inMask [.regs, .mem, .trg, .acq, .mea, .hbm] M = true) (h0 : Moves M s0 s) : Moves M s0 (measureOutput c s) := by
  refine Moves.via (N := [.regs, .mem, .trg, .acq, .mea, .hbm]) ?_ hw h0
  clear hw h0
  have hK := Moves.refl [.regs, .mem, .trg, .acq, .mea, .hbm] s
  unfold measureOutput
  iterate 60 all_goals first
    | with_reducible assumption
    | ((with_reducible apply modMea_moves (hw := ?w)); case w => rfl)
    | ((with_reducible apply setBit_moves (hw := ?w)); case w => rfl)
    | ((with_reducible apply orReg_moves (hw := ?w)); case w => rfl)
    | ((with_reducible apply incSat_moves (hw := ?w)); case w => rfl)
    | ((with_reducible apply showFades_moves (hw := ?w)); case w => rfl)
    | ((with_reducible apply acqOutput_moves (hw := ?w)); case w => rfl)
    | ((with_reducible apply detect_moves (hw := ?w)); case w => rfl)
    | with_reducible apply Moves.foldl
    | intro _
    | dsimp only
    | split

theorem residueError_moves (d : Nat) {M : List Part} {s0 s : State} (hw : inMask [.flt] M = true) (h0 : Moves M s0 s) : Moves M s0 (residueError d s) := by
  refine Moves.via (N := [.flt]) ?_ hw h0
  clear hw h0
  have hK := Moves.refl [.flt] s
  unfold residueError
  iterate 60 all_goals first
    | with_reducible assumption
    | intro _
    | dsimp only
    | split
    | ((with_reducible apply Moves.update) <;> first | (with_reducible exact Or.inl rfl) | exact Or.inr (by decide) | skip)

theorem writeRingHeader_moves (a r : Nat) {M : List Part} {s0 s : State} (hw : inMask [.regs, .mem, .hbm] M = true) (h0 : Moves M s0 s) : Moves M s0 (writeRingHeader a s r) := by
  refine Moves.via (N := [.regs, .mem, .hbm]) ?_ hw h0
  clear hw h0
  have hK := Moves.refl [.regs, .mem, .hbm] s
  unfold writeRingHeader
  iterate 60 all_goals first
    | with_reducible assumption
    | ((with_reducible apply setBytes_moves (hw := ?w)); case w => rfl)
    | ((with_reducible apply setRegN_moves (hw := ?w)); case w => rfl)
    | intro _
    | dsimp only
    | split

theorem startDetector_moves (groups : List Nat) (a : Nat) {M : List Part} {s0 s : State} (hw : inMask [.regs, .acq] M = true) (h0 : Moves M s0 s) : Moves M s0 (startDetector groups s a) := by
  refine Moves.via (N := [.regs, .acq]) ?_ hw h0
  clear hw h0
  have hK := Moves.refl [.regs, .acq] s
  unfold startDetector
  iterate 60 all_goals first
    | with_reducible assumption
    | ((with_reducible apply setRegN_moves (hw := ?w)); case w => rfl)
    | ((with_reducible apply modAcq_moves (hw := ?w)); case w => rfl)
    | intro _
    | dsimp only
    | split

theorem startAcq_moves (a : Nat) {M : List Part} {s0 s : State} (hw : inMask [.regs, .mem, .acq, .hbm] M = true) (h0 : Moves M s0 s) : Moves M s0 (startAcq a s) := by
  refine Moves.via (N := [.regs, .mem, .acq, .hbm]) ?_ hw h0
  clear hw h0
  have hK := Moves.refl [.regs, .mem, .acq, .hbm] s
  unfold startAcq
  iterate 60 all_goals first
    | with_reducible assumption
    | ((with_reducible apply modAcq_moves (hw := ?w)); case w => rfl)
    | ((with_reducible apply writeRingHeader_moves (hw := ?w)); case w => rfl)
    | ((with_reducible apply setRegN_moves (hw := ?w)); case w => rfl)
    | with_reducible apply Moves.foldl
    | intro _
    | dsimp only
    | split

theorem endAcq_moves (a : Nat) {M : List Part} {s0 s : State} (hw : inMask [.regs, .mem, .acq, .hbm] M = true) (h0 : Moves M s0 s) : Moves M s0 (endAcq a s) := by
  refine Moves.via (N := [.regs, .mem, .acq, .hbm]) ?_ hw h0
  clear hw h0
  have hK := Moves.refl [.regs, .mem, .acq, .hbm] s
  unfold endAcq
  iterate 60 all_goals first
    | with_reducible assumption
    | ((with_reducible apply cutBlocks_moves (hw := ?w)); case w => rfl)
    | ((with_reducible apply setAcqState_moves (hw := ?w)); case w => rfl)
    | ((with_reducible apply orReg_moves (hw := ?w)); case w => rfl)
    | ((with_reducible apply setBit_moves (hw := ?w)); case w => rfl)
    | intro _
    | dsimp only
    | split

theorem execMeasureOutput_moves (c : Fin 512) (residue : Option (Fin 9)) (copies : Copies) {s s' : State} (h : execMeasureOutput c residue copies s = .next s') : Moves [.regs, .mem, .flt, .trg, .acq, .mea, .hbm] s s' := by
  unfold execMeasureOutput at h
  have hK := Moves.refl [.regs, .mem, .flt, .trg, .acq, .mea, .hbm] s
  all_goals injection h with h
  all_goals subst h
  iterate 60 all_goals first
    | with_reducible assumption
    | ((with_reducible apply measureOutput_moves (hw := ?w)); case w => rfl)
    | ((with_reducible apply residueError_moves (hw := ?w)); case w => rfl)
    | ((with_reducible apply copiesRun_moves (hw := ?w)); case w => rfl)
    | intro _
    | dsimp only
    | split

theorem acqRdWrite_moves (a r : Nat) (value : Word) {M : List Part} {s0 s : State} (hw : inMask [.regs, .ans] M = true) (h0 : Moves M s0 s) : Moves M s0 (acqRdWrite a r value s) := by
  refine Moves.via (N := [.regs, .ans]) ?_ hw h0
  clear hw h0
  have hK := Moves.refl [.regs, .ans] s
  unfold acqRdWrite
  iterate 60 all_goals first
    | with_reducible assumption
    | ((with_reducible apply answer_moves (hw := ?w)); case w => rfl)
    | ((with_reducible apply setReg_moves (hw := ?w)); case w => rfl)
    | intro _
    | dsimp only
    | split

theorem execAcqRRdWrite_moves (q : Req) (a : Fin 32) (r : Fin 4) (value : Word) {s s' : State} (h : execAcqRRdWrite q a r value s = .next s') : Moves [.regs, .ans] s s' := by
  unfold execAcqRRdWrite at h
  have hK := Moves.refl [.regs, .ans] s
  all_goals injection h with h
  all_goals subst h
  iterate 60 all_goals first
    | with_reducible assumption
    | ((with_reducible apply guarded_moves (hw := ?w)); case w => rfl)
    | ((with_reducible apply acqRdWrite_moves (hw := ?w)); case w => rfl)
    | intro _
    | dsimp only
    | split

end Sys2Proof.Laws
end

