-- ==== Sys2Proof/Laws/MovesMem.lean ====
section
/-! SUPPORT. What the operations of Machine/Mem.lean may change of the state, and that they keep what no operation breaks. -/

namespace Sys2Proof.Laws

open Sys2Proof Sys2Proof.Machine

theorem checkCharges_moves (st n : Nat) {M : List Part} {s0 s : State} (hw : inMask [.regs, .flt] M = true) (h0 : Moves M s0 s) : Moves M s0 (checkCharges st n s) := by
  refine Moves.via (N := [.regs, .flt]) ?_ hw h0
  clear hw h0
  have hK := Moves.refl [.regs, .flt] s
  unfold checkCharges
  iterate 60 all_goals first
    | with_reducible assumption
    | ((with_reducible apply raise_moves (hw := ?w)); case w => rfl)
    | with_reducible apply Moves.foldl
    | intro _
    | dsimp only
    | split

theorem setCopies_moves (l : List (Nat × Nat)) {M : List Part} {s0 s : State} (hw : inMask [.regs, .hbm] M = true) (h0 : Moves M s0 s) : Moves M s0 (setCopies l s) := by
  refine Moves.via (N := [.regs, .hbm]) ?_ hw h0
  clear hw h0
  have hK := Moves.refl [.regs, .hbm] s
  unfold setCopies
  iterate 60 all_goals first
    | with_reducible assumption
    | ((with_reducible apply setBit_moves (hw := ?w)); case w => rfl)
    | ((with_reducible apply setFld_moves (hw := ?w)); case w => rfl)
    | intro _
    | dsimp only
    | split
    | ((with_reducible apply Moves.update) <;> first | (with_reducible exact Or.inl rfl) | exact Or.inr (by decide) | skip)

theorem stopCopy_moves (st : Nat) {M : List Part} {s0 s : State} (hw : inMask [.regs, .hbm] M = true) (h0 : Moves M s0 s) : Moves M s0 (stopCopy st s) := by
  refine Moves.via (N := [.regs, .hbm]) ?_ hw h0
  clear hw h0
  have hK := Moves.refl [.regs, .hbm] s
  unfold stopCopy
  iterate 60 all_goals first
    | with_reducible assumption
    | ((with_reducible apply setCopies_moves (hw := ?w)); case w => rfl)
    | intro _
    | dsimp only
    | split

theorem loseSets_moves (st : Nat) (ks : List Nat) {M : List Part} {s0 s : State} (hw : inMask [.regs, .hbm] M = true) (h0 : Moves M s0 s) : Moves M s0 (loseSets st ks s) := by
  refine Moves.via (N := [.regs, .hbm]) ?_ hw h0
  clear hw h0
  have hK := Moves.refl [.regs, .hbm] s
  unfold loseSets
  iterate 60 all_goals first
    | with_reducible assumption
    | ((with_reducible apply setBit_moves (hw := ?w)); case w => rfl)
    | intro _
    | dsimp only
    | split
    | ((with_reducible apply Moves.update) <;> first | (with_reducible exact Or.inl rfl) | exact Or.inr (by decide) | skip)

theorem setCapacity_moves (st : Nat) {M : List Part} {s0 s : State} (hw : inMask [.regs] M = true) (h0 : Moves M s0 s) : Moves M s0 (setCapacity st s) := by
  refine Moves.via (N := [.regs]) ?_ hw h0
  clear hw h0
  have hK := Moves.refl [.regs] s
  unfold setCapacity
  iterate 60 all_goals first
    | with_reducible assumption
    | ((with_reducible apply setBit_moves (hw := ?w)); case w => rfl)
    | ((with_reducible apply orReg_moves (hw := ?w)); case w => rfl)
    | ((with_reducible apply setRegN_moves (hw := ?w)); case w => rfl)
    | intro _
    | dsimp only
    | split

theorem startCopy_moves (st n : Nat) {M : List Part} {s0 s : State} (hw : inMask [.regs, .flt, .hbm] M = true) (h0 : Moves M s0 s) : Moves M s0 (startCopy st n s) := by
  refine Moves.via (N := [.regs, .flt, .hbm]) ?_ hw h0
  clear hw h0
  have hK := Moves.refl [.regs, .flt, .hbm] s
  unfold startCopy
  iterate 60 all_goals first
    | with_reducible assumption
    | ((with_reducible apply setFld_moves (hw := ?w)); case w => rfl)
    | ((with_reducible apply setCopies_moves (hw := ?w)); case w => rfl)
    | ((with_reducible apply useSpare_moves (hw := ?w)); case w => rfl)
    | ((with_reducible apply setBit_moves (hw := ?w)); case w => rfl)
    | intro _
    | dsimp only
    | split

theorem fencePc_moves (st n : Nat) {M : List Part} {s0 s : State} (hw : inMask [.regs, .flt, .hbm] M = true) (h0 : Moves M s0 s) : Moves M s0 (fencePc st n s) := by
  refine Moves.via (N := [.regs, .flt, .hbm]) ?_ hw h0
  clear hw h0
  have hK := Moves.refl [.regs, .flt, .hbm] s
  unfold fencePc
  iterate 60 all_goals first
    | with_reducible assumption
    | ((with_reducible apply orReg_moves (hw := ?w)); case w => rfl)
    | ((with_reducible apply setReg_moves (hw := ?w)); case w => rfl)
    | ((with_reducible apply fenceUnit_moves (hw := ?w)); case w => rfl)
    | ((with_reducible apply setCapacity_moves (hw := ?w)); case w => rfl)
    | ((with_reducible apply loseSets_moves (hw := ?w)); case w => rfl)
    | ((with_reducible apply stopCopy_moves (hw := ?w)); case w => rfl)
    | ((with_reducible apply raise_moves (hw := ?w)); case w => rfl)
    | ((with_reducible apply useSpare_moves (hw := ?w)); case w => rfl)
    | ((with_reducible apply setBit_moves (hw := ?w)); case w => rfl)
    | ((with_reducible apply startCopy_moves (hw := ?w)); case w => rfl)
    | ((with_reducible apply checkCharges_moves (hw := ?w)); case w => rfl)
    | intro _
    | dsimp only
    | split

theorem fencePhy_moves (st : Nat) {M : List Part} {s0 s : State} (hw : inMask [.regs, .flt, .hbm] M = true) (h0 : Moves M s0 s) : Moves M s0 (fencePhy st s) := by
  refine Moves.via (N := [.regs, .flt, .hbm]) ?_ hw h0
  clear hw h0
  have hK := Moves.refl [.regs, .flt, .hbm] s
  unfold fencePhy
  iterate 60 all_goals first
    | with_reducible assumption
    | ((with_reducible apply setReg_moves (hw := ?w)); case w => rfl)
    | ((with_reducible apply orReg_moves (hw := ?w)); case w => rfl)
    | ((with_reducible apply useSpare_moves (hw := ?w)); case w => rfl)
    | ((with_reducible apply setBit_moves (hw := ?w)); case w => rfl)
    | ((with_reducible apply fenceUnit_moves (hw := ?w)); case w => rfl)
    | ((with_reducible apply stopCopy_moves (hw := ?w)); case w => rfl)
    | ((with_reducible apply setCapacity_moves (hw := ?w)); case w => rfl)
    | ((with_reducible apply raise_moves (hw := ?w)); case w => rfl)
    | ((with_reducible apply loseSets_moves (hw := ?w)); case w => rfl)
    | ((with_reducible apply checkCharges_moves (hw := ?w)); case w => rfl)
    | intro _
    | dsimp only
    | split

theorem memCorrected_moves (st a : Nat) {M : List Part} {s0 s : State} (hw : inMask [.regs, .flt] M = true) (h0 : Moves M s0 s) : Moves M s0 (memCorrected st a s) := by
  refine Moves.via (N := [.regs, .flt]) ?_ hw h0
  clear hw h0
  have hK := Moves.refl [.regs, .flt] s
  unfold memCorrected
  iterate 60 all_goals first
    | with_reducible assumption
    | ((with_reducible apply raise_moves (hw := ?w)); case w => rfl)
    | ((with_reducible apply orReg_moves (hw := ?w)); case w => rfl)
    | ((with_reducible apply incSat_moves (hw := ?w)); case w => rfl)
    | intro _
    | dsimp only
    | split

theorem poisonUnit_moves (a : Nat) {M : List Part} {s0 s : State} (hw : inMask [.regs, .hbm] M = true) (h0 : Moves M s0 s) : Moves M s0 (poisonUnit a s) := by
  refine Moves.via (N := [.regs, .hbm]) ?_ hw h0
  clear hw h0
  have hK := Moves.refl [.regs, .hbm] s
  unfold poisonUnit
  iterate 60 all_goals first
    | with_reducible assumption
    | ((with_reducible apply setBit_moves (hw := ?w)); case w => rfl)
    | ((with_reducible apply orReg_moves (hw := ?w)); case w => rfl)
    | ((with_reducible apply incSat_moves (hw := ?w)); case w => rfl)
    | intro _
    | dsimp only
    | split
    | ((with_reducible apply Moves.update) <;> first | (with_reducible exact Or.inl rfl) | exact Or.inr (by decide) | skip)

theorem memUncorrectable_moves (st a : Nat) (copied : Bool) {M : List Part} {s0 s : State} (hw : inMask [.regs, .flt, .hbm] M = true) (h0 : Moves M s0 s) : Moves M s0 (memUncorrectable st a copied s) := by
  refine Moves.via (N := [.regs, .flt, .hbm]) ?_ hw h0
  clear hw h0
  have hK := Moves.refl [.regs, .flt, .hbm] s
  unfold memUncorrectable
  iterate 60 all_goals first
    | with_reducible assumption
    | ((with_reducible apply setRegN_moves (hw := ?w)); case w => rfl)
    | ((with_reducible apply raise_moves (hw := ?w)); case w => rfl)
    | ((with_reducible apply orReg_moves (hw := ?w)); case w => rfl)
    | ((with_reducible apply incSat_moves (hw := ?w)); case w => rfl)
    | ((with_reducible apply poisonUnit_moves (hw := ?w)); case w => rfl)
    | ((with_reducible apply fencePc_moves (hw := ?w)); case w => rfl)
    | intro _
    | dsimp only
    | split
    | ((with_reducible apply Moves.update) <;> first | (with_reducible exact Or.inl rfl) | exact Or.inr (by decide) | skip)

theorem readHook_moves (a n : Nat) {M : List Part} {s0 s : State} (hw : inMask [.regs, .flt, .hbm] M = true) (h0 : Moves M s0 s) : Moves M s0 (readHook a n s) := by
  refine Moves.via (N := [.regs, .flt, .hbm]) ?_ hw h0
  clear hw h0
  have hK := Moves.refl [.regs, .flt, .hbm] s
  unfold readHook
  iterate 60 all_goals first
    | with_reducible assumption
    | ((with_reducible apply memUncorrectable_moves (hw := ?w)); case w => rfl)
    | ((with_reducible apply memCorrected_moves (hw := ?w)); case w => rfl)
    | intro _
    | dsimp only
    | split
    | ((with_reducible apply Moves.update) <;> first | (with_reducible exact Or.inl rfl) | exact Or.inr (by decide) | skip)

theorem poisonRead_moves (a n : Nat) {M : List Part} {s0 s : State} (hw : inMask [.regs, .flt, .hbm] M = true) (h0 : Moves M s0 s) : Moves M s0 (poisonRead a n s) := by
  refine Moves.via (N := [.regs, .flt, .hbm]) ?_ hw h0
  clear hw h0
  have hK := Moves.refl [.regs, .flt, .hbm] s
  unfold poisonRead
  iterate 60 all_goals first
    | with_reducible assumption
    | ((with_reducible apply readHook_moves (hw := ?w)); case w => rfl)
    | ((with_reducible apply raise_moves (hw := ?w)); case w => rfl)
    | intro _
    | dsimp only
    | split

theorem evict_moves (id : Nat) {M : List Part} {s0 s : State} (hw : inMask [.lib] M = true) (h0 : Moves M s0 s) : Moves M s0 (evict id s) := by
  refine Moves.via (N := [.lib]) ?_ hw h0
  clear hw h0
  have hK := Moves.refl [.lib] s
  unfold evict
  iterate 60 all_goals first
    | with_reducible assumption
    | ((with_reducible apply modObj_moves (hw := ?w)); case w => rfl)
    | intro _
    | dsimp only
    | split
    | ((with_reducible apply Moves.update) <;> first | (with_reducible exact Or.inl rfl) | exact Or.inr (by decide) | skip)

theorem showArea_moves {M : List Part} {s0 s : State} (hw : inMask [.regs] M = true) (h0 : Moves M s0 s) : Moves M s0 (showArea s) := by
  refine Moves.via (N := [.regs]) ?_ hw h0
  clear hw h0
  have hK := Moves.refl [.regs] s
  unfold showArea
  iterate 60 all_goals first
    | with_reducible assumption
    | ((with_reducible apply setRegN_moves (hw := ?w)); case w => rfl)
    | intro _
    | dsimp only
    | split

theorem objBaseWrite_moves (hi : Bool) (value : Word) {M : List Part} {s0 s : State} (hw : inMask [.regs, .shadowS, .shadowF, .ans, .lib] M = true) (h0 : Moves M s0 s) : Moves M s0 (objBaseWrite hi value s) := by
  refine Moves.via (N := [.regs, .shadowS, .shadowF, .ans, .lib]) ?_ hw h0
  clear hw h0
  have hK := Moves.refl [.regs, .shadowS, .shadowF, .ans, .lib] s
  unfold objBaseWrite
  iterate 60 all_goals first
    | with_reducible assumption
    | ((with_reducible apply answer_moves (hw := ?w)); case w => rfl)
    | ((with_reducible apply accept_moves (hw := ?w)); case w => rfl)
    | ((with_reducible apply evict_moves (hw := ?w)); case w => rfl)
    | ((with_reducible apply showArea_moves (hw := ?w)); case w => rfl)
    | ((with_reducible apply setRegN_moves (hw := ?w)); case w => rfl)
    | with_reducible apply Moves.foldl
    | intro _
    | dsimp only
    | split

theorem execHbmCorrectedError_moves (st : Fin 2) (addr : Nat) {s s' : State} (h : execHbmCorrectedError st addr s = .next s') : Moves [.regs, .flt] s s' := by
  unfold execHbmCorrectedError at h
  have hK := Moves.refl [.regs, .flt] s
  all_goals injection h with h
  all_goals subst h
  iterate 60 all_goals first
    | with_reducible assumption
    | ((with_reducible apply memCorrected_moves (hw := ?w)); case w => rfl)
    | intro _
    | dsimp only
    | split

theorem execHbmUncorrectable_moves (st : Fin 2) (addr : Nat) (copied : Bool) {s s' : State} (h : execHbmUncorrectable st addr copied s = .next s') : Moves [.regs, .flt, .hbm] s s' := by
  unfold execHbmUncorrectable at h
  have hK := Moves.refl [.regs, .flt, .hbm] s
  all_goals injection h with h
  all_goals subst h
  iterate 60 all_goals first
    | with_reducible assumption
    | ((with_reducible apply memUncorrectable_moves (hw := ?w)); case w => rfl)
    | intro _
    | dsimp only
    | split

theorem execPcFence_moves (st : Fin 2) (n : Option (Fin 32)) {s s' : State} (h : execPcFence st n s = .next s') : Moves [.regs, .flt, .hbm] s s' := by
  unfold execPcFence at h
  have hK := Moves.refl [.regs, .flt, .hbm] s
  all_goals injection h with h
  all_goals subst h
  iterate 60 all_goals first
    | with_reducible assumption
    | ((with_reducible apply fencePc_moves (hw := ?w)); case w => rfl)
    | ((with_reducible apply fencePhy_moves (hw := ?w)); case w => rfl)
    | intro _
    | dsimp only
    | split

theorem execSpareCopyComplete_moves (unread : List Nat) {s s' : State} (h : execSpareCopyComplete unread s = .next s') : Moves [.regs, .hbm] s s' := by
  unfold execSpareCopyComplete at h
  have hK := Moves.refl [.regs, .hbm] s
  all_goals injection h with h
  all_goals subst h
  iterate 60 all_goals first
    | with_reducible assumption
    | ((with_reducible apply orReg_moves (hw := ?w)); case w => rfl)
    | ((with_reducible apply setCopies_moves (hw := ?w)); case w => rfl)
    | ((with_reducible apply poisonUnit_moves (hw := ?w)); case w => rfl)
    | with_reducible apply Moves.foldl
    | intro _
    | dsimp only
    | split

theorem execHbmTempRefresh_moves (st : Fin 2) (hot : Bool) {s s' : State} (h : execHbmTempRefresh st hot s = .next s') : Moves [.regs] s s' := by
  unfold execHbmTempRefresh at h
  have hK := Moves.refl [.regs] s
  all_goals injection h with h
  all_goals subst h
  iterate 60 all_goals first
    | with_reducible assumption
    | ((with_reducible apply setBit_moves (hw := ?w)); case w => rfl)
    | ((with_reducible apply orReg_moves (hw := ?w)); case w => rfl)
    | intro _
    | dsimp only
    | split

theorem execMemObjBaseWrite_moves (q : Req) (hi : Bool) (value : Word) {s s' : State} (h : execMemObjBaseWrite q hi value s = .next s') : Moves [.regs, .shadowS, .shadowF, .ans, .lib] s s' := by
  unfold execMemObjBaseWrite at h
  have hK := Moves.refl [.regs, .shadowS, .shadowF, .ans, .lib] s
  all_goals injection h with h
  all_goals subst h
  iterate 60 all_goals first
    | with_reducible assumption
    | ((with_reducible apply guarded_moves (hw := ?w)); case w => rfl)
    | ((with_reducible apply objBaseWrite_moves (hw := ?w)); case w => rfl)
    | intro _
    | dsimp only
    | split

theorem memInject_moves (value : Word) {M : List Part} {s0 s : State} (hw : inMask [.regs, .ans, .hbm] M = true) (h0 : Moves M s0 s) : Moves M s0 (memInject value s) := by
  refine Moves.via (N := [.regs, .ans, .hbm]) ?_ hw h0
  clear hw h0
  have hK := Moves.refl [.regs, .ans, .hbm] s
  unfold memInject
  iterate 60 all_goals first
    | with_reducible assumption
    | ((with_reducible apply answer_moves (hw := ?w)); case w => rfl)
    | ((with_reducible apply setReg_moves (hw := ?w)); case w => rfl)
    | intro _
    | dsimp only
    | split
    | ((with_reducible apply Moves.update) <;> first | (with_reducible exact Or.inl rfl) | exact Or.inr (by decide) | skip)

theorem execMemInject_moves (q : Req) (value : Word) {s s' : State} (h : execMemInject q value s = .next s') : Moves [.regs, .ans, .hbm] s s' := by
  unfold execMemInject at h
  have hK := Moves.refl [.regs, .ans, .hbm] s
  all_goals injection h with h
  all_goals subst h
  iterate 60 all_goals first
    | with_reducible assumption
    | ((with_reducible apply guarded_moves (hw := ?w)); case w => rfl)
    | ((with_reducible apply memInject_moves (hw := ?w)); case w => rfl)
    | intro _
    | dsimp only
    | split

end Sys2Proof.Laws
end

