-- ==== Sys2Proof/Laws/MovesSched.lean ====
section
/-! SUPPORT. What the operations of Machine/Sched.lean may change of the state, and that they keep what no operation breaks. -/

namespace Sys2Proof.Laws

open Sys2Proof Sys2Proof.Machine

theorem setTask_moves (i : Nat) (t : Option Task) {M : List Part} {s0 s : State} (hw : inMask [.sch] M = true) (h0 : Moves M s0 s) : Moves M s0 (setTask i t s) := by
  refine Moves.via (N := [.sch]) ?_ hw h0
  clear hw h0
  have hK := Moves.refl [.sch] s
  unfold setTask
  iterate 60 all_goals first
    | with_reducible assumption
    | intro _
    | dsimp only
    | split
    | ((with_reducible apply Moves.update) <;> first | (with_reducible exact Or.inl rfl) | exact Or.inr (by decide) | skip)

theorem modTask_moves (i : Nat) (f : Task → Task) {M : List Part} {s0 s : State} (hw : inMask [.sch] M = true) (h0 : Moves M s0 s) : Moves M s0 (modTask i f s) := by
  refine Moves.via (N := [.sch]) ?_ hw h0
  clear hw h0
  have hK := Moves.refl [.sch] s
  unfold modTask
  iterate 60 all_goals first
    | with_reducible assumption
    | ((with_reducible apply setTask_moves (hw := ?w)); case w => rfl)
    | intro _
    | dsimp only
    | split

theorem modCore_moves (k : Nat) (f : Core → Core) {M : List Part} {s0 s : State} (hw : inMask [.sch] M = true) (h0 : Moves M s0 s) : Moves M s0 (modCore k f s) := by
  refine Moves.via (N := [.sch]) ?_ hw h0
  clear hw h0
  have hK := Moves.refl [.sch] s
  unfold modCore
  iterate 60 all_goals first
    | with_reducible assumption
    | intro _
    | dsimp only
    | split
    | ((with_reducible apply Moves.update) <;> first | (with_reducible exact Or.inl rfl) | exact Or.inr (by decide) | skip)

theorem setReady_moves (l : Nat) (ts : List Nat) {M : List Part} {s0 s : State} (hw : inMask [.sch] M = true) (h0 : Moves M s0 s) : Moves M s0 (setReady l ts s) := by
  refine Moves.via (N := [.sch]) ?_ hw h0
  clear hw h0
  have hK := Moves.refl [.sch] s
  unfold setReady
  iterate 60 all_goals first
    | with_reducible assumption
    | intro _
    | dsimp only
    | split
    | ((with_reducible apply Moves.update) <;> first | (with_reducible exact Or.inl rfl) | exact Or.inr (by decide) | skip)

theorem setCoreX_moves (k r v : Nat) {M : List Part} {s0 s : State} (hw : inMask [.sch] M = true) (h0 : Moves M s0 s) : Moves M s0 (setCoreX k r v s) := by
  refine Moves.via (N := [.sch]) ?_ hw h0
  clear hw h0
  have hK := Moves.refl [.sch] s
  unfold setCoreX
  iterate 60 all_goals first
    | with_reducible assumption
    | ((with_reducible apply modCore_moves (hw := ?w)); case w => rfl)
    | intro _
    | dsimp only
    | split

theorem countRefused_moves (d : List Byte) {M : List Part} {s0 s : State} (hw : inMask [.regs] M = true) (h0 : Moves M s0 s) : Moves M s0 (countRefused d s) := by
  refine Moves.via (N := [.regs]) ?_ hw h0
  clear hw h0
  have hK := Moves.refl [.regs] s
  unfold countRefused
  iterate 60 all_goals first
    | with_reducible assumption
    | ((with_reducible apply orReg_moves (hw := ?w)); case w => rfl)
    | ((with_reducible apply incSat_moves (hw := ?w)); case w => rfl)
    | intro _
    | dsimp only
    | split

theorem acceptTask_moves (d : List Byte) (fromFlag : Bool) {M : List Part} {s0 s : State} (hw : inMask [.regs, .sch] M = true) (h0 : Moves M s0 s) : Moves M s0 (acceptTask d fromFlag s) := by
  refine Moves.via (N := [.regs, .sch]) ?_ hw h0
  clear hw h0
  have hK := Moves.refl [.regs, .sch] s
  unfold acceptTask
  iterate 60 all_goals first
    | with_reducible assumption
    | ((with_reducible apply setTask_moves (hw := ?w)); case w => rfl)
    | ((with_reducible apply setReady_moves (hw := ?w)); case w => rfl)
    | ((with_reducible apply setRegN_moves (hw := ?w)); case w => rfl)
    | ((with_reducible apply incWrap_moves (hw := ?w)); case w => rfl)
    | intro _
    | dsimp only
    | split
    | ((with_reducible apply Moves.update) <;> first | (with_reducible exact Or.inl rfl) | exact Or.inr (by decide) | skip)

theorem setFlagPending_moves (n : Nat) (b : Bool) {M : List Part} {s0 s : State} (hw : inMask [.regs] M = true) (h0 : Moves M s0 s) : Moves M s0 (setFlagPending n b s) := by
  refine Moves.via (N := [.regs]) ?_ hw h0
  clear hw h0
  have hK := Moves.refl [.regs] s
  unfold setFlagPending
  iterate 60 all_goals first
    | with_reducible assumption
    | ((with_reducible apply setBit_moves (hw := ?w)); case w => rfl)
    | intro _
    | dsimp only
    | split

theorem submitTemplate_moves (n : Nat) {M : List Part} {s0 s : State} (hw : inMask [.regs, .sch] M = true) (h0 : Moves M s0 s) : Moves M s0 (submitTemplate n s) := by
  refine Moves.via (N := [.regs, .sch]) ?_ hw h0
  clear hw h0
  have hK := Moves.refl [.regs, .sch] s
  unfold submitTemplate
  iterate 60 all_goals first
    | with_reducible assumption
    | ((with_reducible apply acceptTask_moves (hw := ?w)); case w => rfl)
    | ((with_reducible apply setFlagPending_moves (hw := ?w)); case w => rfl)
    | ((with_reducible apply countRefused_moves (hw := ?w)); case w => rfl)
    | intro _
    | dsimp only
    | split

theorem retryTemplates_moves (p : Nat → Bool) {M : List Part} {s0 s : State} (hw : inMask [.regs, .sch] M = true) (h0 : Moves M s0 s) : Moves M s0 (retryTemplates p s) := by
  refine Moves.via (N := [.regs, .sch]) ?_ hw h0
  clear hw h0
  have hK := Moves.refl [.regs, .sch] s
  unfold retryTemplates
  iterate 60 all_goals first
    | with_reducible assumption
    | ((with_reducible apply submitTemplate_moves (hw := ?w)); case w => rfl)
    | with_reducible apply Moves.foldl
    | intro _
    | dsimp only
    | split

theorem retryFor_moves (l : Nat) {M : List Part} {s0 s : State} (hw : inMask [.regs, .sch] M = true) (h0 : Moves M s0 s) : Moves M s0 (retryFor l s) := by
  refine Moves.via (N := [.regs, .sch]) ?_ hw h0
  clear hw h0
  have hK := Moves.refl [.regs, .sch] s
  unfold retryFor
  iterate 60 all_goals first
    | with_reducible assumption
    | ((with_reducible apply retryTemplates_moves (hw := ?w)); case w => rfl)
    | intro _
    | dsimp only
    | split

theorem submit_moves (d : List Byte) {M : List Part} {s0 s : State} (hw : inMask [.regs, .sch] M = true) (h0 : Moves M s0 s) : Moves M s0 (submit d s).2 := by
  refine Moves.via (N := [.regs, .sch]) ?_ hw h0
  clear hw h0
  have hK := Moves.refl [.regs, .sch] s
  unfold submit
  iterate 60 all_goals first
    | with_reducible assumption
    | ((with_reducible apply retryFor_moves (hw := ?w)); case w => rfl)
    | ((with_reducible apply acceptTask_moves (hw := ?w)); case w => rfl)
    | ((with_reducible apply countRefused_moves (hw := ?w)); case w => rfl)
    | intro _
    | dsimp only
    | split
theorem submit_movesE {d : List Byte} {w0} {M : List Part} {s0 s s' : State} (hE : submit d s = (w0, s')) (hw : inMask [.regs, .sch] M = true) (h0 : Moves M s0 s) : Moves M s0 s' := by
  have k := submit_moves (hw := hw) (h0 := h0) (d := d)
  rw [hE] at k
  exact k

theorem setFlag_moves (n value : Nat) {M : List Part} {s0 s : State} (hw : inMask [.regs, .sch] M = true) (h0 : Moves M s0 s) : Moves M s0 (setFlag n value s) := by
  refine Moves.via (N := [.regs, .sch]) ?_ hw h0
  clear hw h0
  have hK := Moves.refl [.regs, .sch] s
  unfold setFlag
  iterate 60 all_goals first
    | with_reducible assumption
    | ((with_reducible apply setRegN_moves (hw := ?w)); case w => rfl)
    | ((with_reducible apply orReg_moves (hw := ?w)); case w => rfl)
    | ((with_reducible apply incSat_moves (hw := ?w)); case w => rfl)
    | ((with_reducible apply submitTemplate_moves (hw := ?w)); case w => rfl)
    | ((with_reducible apply retryFor_moves (hw := ?w)); case w => rfl)
    | intro _
    | dsimp only
    | split

theorem writeWindow_moves (k i : Nat) (t : Task) {M : List Part} {s0 s : State} (hw : inMask [.regs, .mem, .hbm] M = true) (h0 : Moves M s0 s) : Moves M s0 (writeWindow k i t s) := by
  refine Moves.via (N := [.regs, .mem, .hbm]) ?_ hw h0
  clear hw h0
  have hK := Moves.refl [.regs, .mem, .hbm] s
  unfold writeWindow
  iterate 60 all_goals first
    | with_reducible assumption
    | ((with_reducible apply setBytes_moves (hw := ?w)); case w => rfl)
    | intro _
    | dsimp only
    | split

theorem fenceAcq_moves (k : Nat) {M : List Part} {s0 s : State} (hw : inMask [.sch] M = true) (h0 : Moves M s0 s) : Moves M s0 (fenceAcq k s) := by
  refine Moves.via (N := [.sch]) ?_ hw h0
  clear hw h0
  have hK := Moves.refl [.sch] s
  unfold fenceAcq
  iterate 60 all_goals first
    | with_reducible assumption
    | ((with_reducible apply modCore_moves (hw := ?w)); case w => rfl)
    | intro _
    | dsimp only
    | split

theorem startTask_moves (k i : Nat) {M : List Part} {s0 s : State} (hw : inMask [.regs, .mem, .hbm, .sch] M = true) (h0 : Moves M s0 s) : Moves M s0 (startTask k i s) := by
  refine Moves.via (N := [.regs, .mem, .hbm, .sch]) ?_ hw h0
  clear hw h0
  have hK := Moves.refl [.regs, .mem, .hbm, .sch] s
  unfold startTask
  iterate 60 all_goals first
    | with_reducible assumption
    | ((with_reducible apply setTask_moves (hw := ?w)); case w => rfl)
    | ((with_reducible apply modCore_moves (hw := ?w)); case w => rfl)
    | ((with_reducible apply fenceAcq_moves (hw := ?w)); case w => rfl)
    | ((with_reducible apply setCoreX_moves (hw := ?w)); case w => rfl)
    | ((with_reducible apply writeWindow_moves (hw := ?w)); case w => rfl)
    | intro _
    | dsimp only
    | split
    | ((with_reducible apply Moves.update) <;> first | (with_reducible exact Or.inl rfl) | exact Or.inr (by decide) | skip)

theorem enterSlot_moves (k i : Nat) {M : List Part} {s0 s : State} (hw : inMask [.regs, .mem, .hbm, .sch] M = true) (h0 : Moves M s0 s) : Moves M s0 (enterSlot k i s) := by
  refine Moves.via (N := [.regs, .mem, .hbm, .sch]) ?_ hw h0
  clear hw h0
  have hK := Moves.refl [.regs, .mem, .hbm, .sch] s
  unfold enterSlot
  iterate 60 all_goals first
    | with_reducible assumption
    | ((with_reducible apply setReady_moves (hw := ?w)); case w => rfl)
    | ((with_reducible apply modTask_moves (hw := ?w)); case w => rfl)
    | ((with_reducible apply startTask_moves (hw := ?w)); case w => rfl)
    | intro _
    | dsimp only
    | split

theorem takePreempt_moves (k : Nat) {M : List Part} {s0 s : State} (hw : inMask [.sch] M = true) (h0 : Moves M s0 s) : Moves M s0 (takePreempt k s) := by
  refine Moves.via (N := [.sch]) ?_ hw h0
  clear hw h0
  have hK := Moves.refl [.sch] s
  unfold takePreempt
  iterate 60 all_goals first
    | with_reducible assumption
    | ((with_reducible apply modCore_moves (hw := ?w)); case w => rfl)
    | intro _
    | dsimp only
    | split

theorem preempt_moves (k i : Nat) {M : List Part} {s0 s : State} (hw : inMask [.regs, .mem, .hbm, .sch] M = true) (h0 : Moves M s0 s) : Moves M s0 (preempt k i s) := by
  refine Moves.via (N := [.regs, .mem, .hbm, .sch]) ?_ hw h0
  clear hw h0
  have hK := Moves.refl [.regs, .mem, .hbm, .sch] s
  unfold preempt
  iterate 60 all_goals first
    | with_reducible assumption
    | ((with_reducible apply incSat_moves (hw := ?w)); case w => rfl)
    | ((with_reducible apply enterSlot_moves (hw := ?w)); case w => rfl)
    | ((with_reducible apply modCore_moves (hw := ?w)); case w => rfl)
    | ((with_reducible apply takePreempt_moves (hw := ?w)); case w => rfl)
    | intro _
    | dsimp only
    | split

theorem placement_moves {l i : Nat} {M : List Part} {s0 s t : State} (hE : placement s l i = some t) (hw : inMask [.regs, .mem, .hbm, .sch] M = true) (h0 : Moves M s0 s) : Moves M s0 t := by
  have w1 {A} (h : inMask A [.regs, .mem, .hbm, .sch] = true) : inMask A M = true := inMask_trans h hw
  unfold placement at hE
  dsimp only at hE
  split at hE
  · injection hE with hE; subst hE; exact enterSlot_moves (hw := w1 rfl) (h0 := h0) ..
  · split at hE
    · injection hE with hE; subst hE; exact preempt_moves (hw := w1 rfl) (h0 := h0) ..
    · obtain ⟨k, -, rfl⟩ := Option.map_eq_some_iff.mp hE
      exact enterSlot_moves (hw := w1 rfl) (h0 := h0) ..

theorem stealSlot_moves {M : List Part} {s0 s t : State} (hE : stealSlot s = some t) (hw : inMask [.regs, .mem, .hbm, .sch] M = true) (h0 : Moves M s0 s) : Moves M s0 t := by
  unfold stealSlot at hE
  obtain ⟨k, -, hk⟩ := List.exists_of_findSome?_eq_some hE
  split at hk
  · cases hk
  · obtain ⟨e, -, rfl⟩ := Option.map_eq_some_iff.mp hk
    exact enterSlot_moves (hw := hw) (h0 := h0) ..

theorem dispatchOnce_moves {M : List Part} {s0 s : State} (hw : inMask [.regs, .mem, .hbm, .sch] M = true) (h0 : Moves M s0 s) : Moves M s0 (dispatchOnce s) := by
  refine Moves.via (N := [.regs, .mem, .hbm, .sch]) ?_ hw h0
  clear hw h0
  have hK := Moves.refl [.regs, .mem, .hbm, .sch] s
  unfold dispatchOnce
  split
  · exact stealSlot_moves (hE := by assumption) (hw := rfl) (h0 := hK)
  · split
    · next l t h =>
      obtain ⟨e, -, h⟩ := List.exists_of_findSome?_eq_some h
      obtain ⟨x, h, hx⟩ := Option.map_eq_some_iff.mp h
      cases hx
      have k : Moves [.regs, .mem, .hbm, .sch] s t := placement_moves (hE := h) (hw := rfl) (h0 := hK)
      (with_reducible apply Moves.update) <;> first | (with_reducible exact Or.inl rfl) | exact Or.inr (by decide) | exact k
    · exact hK

theorem releaseFlow_moves (f x0 : Nat) {M : List Part} {s0 s : State} (hw : inMask [.regs, .mem, .hbm, .sch] M = true) (h0 : Moves M s0 s) : Moves M s0 (releaseFlow f x0 s) := by
  refine Moves.via (N := [.regs, .mem, .hbm, .sch]) ?_ hw h0
  clear hw h0
  induction x0 generalizing f s with
  | zero =>
    have hK := Moves.refl [.regs, .mem, .hbm, .sch] s
    unfold releaseFlow
    iterate 60 all_goals first
      | with_reducible assumption
      | ((with_reducible apply setRegN_moves (hw := ?w)); case w => rfl)
      | ((with_reducible apply orReg_moves (hw := ?w)); case w => rfl)
      | ((with_reducible apply setBytes_moves (hw := ?w)); case w => rfl)
      | ((with_reducible apply setTask_moves (hw := ?w)); case w => rfl)
      | ((with_reducible apply incWrap_moves (hw := ?w)); case w => rfl)
      | intro _
      | dsimp only
      | split
  | succ n ih =>
    have hK := Moves.refl [.regs, .mem, .hbm, .sch] s
    unfold releaseFlow
    iterate 60 all_goals first
      | with_reducible assumption
      | ((with_reducible apply setRegN_moves (hw := ?w)); case w => rfl)
      | ((with_reducible apply orReg_moves (hw := ?w)); case w => rfl)
      | ((with_reducible apply setBytes_moves (hw := ?w)); case w => rfl)
      | ((with_reducible apply setTask_moves (hw := ?w)); case w => rfl)
      | ((with_reducible apply incWrap_moves (hw := ?w)); case w => rfl)
      | with_reducible refine Moves.trans ?_ (ih ..)
      | intro _
      | dsimp only
      | split

theorem releaseAll_moves (f : Nat) {M : List Part} {s0 s : State} (hw : inMask [.regs, .mem, .hbm, .sch] M = true) (h0 : Moves M s0 s) : Moves M s0 (releaseAll f s) := by
  refine Moves.via (N := [.regs, .mem, .hbm, .sch]) ?_ hw h0
  clear hw h0
  have hK := Moves.refl [.regs, .mem, .hbm, .sch] s
  unfold releaseAll
  iterate 60 all_goals first
    | with_reducible assumption
    | ((with_reducible apply releaseFlow_moves (hw := ?w)); case w => rfl)
    | intro _
    | dsimp only
    | split

theorem flushList_moves (l : Nat) {M : List Part} {s0 s : State} (hw : inMask [.regs, .mem, .hbm, .sch] M = true) (h0 : Moves M s0 s) : Moves M s0 (flushList l s) := by
  refine Moves.via (N := [.regs, .mem, .hbm, .sch]) ?_ hw h0
  clear hw h0
  have hK := Moves.refl [.regs, .mem, .hbm, .sch] s
  unfold flushList
  iterate 60 all_goals first
    | with_reducible assumption
    | ((with_reducible apply setTask_moves (hw := ?w)); case w => rfl)
    | ((with_reducible apply setReady_moves (hw := ?w)); case w => rfl)
    | ((with_reducible apply incWrap_moves (hw := ?w)); case w => rfl)
    | ((with_reducible apply setRegN_moves (hw := ?w)); case w => rfl)
    | ((with_reducible apply releaseAll_moves (hw := ?w)); case w => rfl)
    | with_reducible apply Moves.foldl
    | intro _
    | dsimp only
    | split

theorem nextPc_moves (k : Nat) {M : List Part} {s0 s : State} (hw : inMask [.sch] M = true) (h0 : Moves M s0 s) : Moves M s0 (nextPc k s) := by
  refine Moves.via (N := [.sch]) ?_ hw h0
  clear hw h0
  have hK := Moves.refl [.sch] s
  unfold nextPc
  iterate 60 all_goals first
    | with_reducible assumption
    | ((with_reducible apply modCore_moves (hw := ?w)); case w => rfl)
    | intro _
    | dsimp only
    | split

theorem coreTrap_moves (k cause v : Nat) {M : List Part} {s0 s : State} (hw : inMask [.sch] M = true) (h0 : Moves M s0 s) : Moves M s0 (coreTrap k cause v s) := by
  refine Moves.via (N := [.sch]) ?_ hw h0
  clear hw h0
  have hK := Moves.refl [.sch] s
  unfold coreTrap
  iterate 60 all_goals first
    | with_reducible assumption
    | ((with_reducible apply modCore_moves (hw := ?w)); case w => rfl)
    | intro _
    | dsimp only
    | split

theorem illegalInstr_moves (k : Nat) {M : List Part} {s0 s : State} (hw : inMask [.freeIdx, .sch] M = true) (h0 : Moves M s0 s) : Moves M s0 (illegalInstr k s) := by
  refine Moves.via (N := [.freeIdx, .sch]) ?_ hw h0
  clear hw h0
  have hK := Moves.refl [.freeIdx, .sch] s
  unfold illegalInstr
  iterate 60 all_goals first
    | with_reducible assumption
    | ((with_reducible apply freeNat_movesE (hE := by assumption) (hw := ?w)); case w => rfl)
    | ((with_reducible apply freeNat_moves (hw := ?w)); case w => rfl)
    | ((with_reducible apply coreTrap_moves (hw := ?w)); case w => rfl)
    | intro _
    | dsimp only
    | split

theorem storeFault_moves (k a : Nat) {M : List Part} {s0 s : State} (hw : inMask [.sch] M = true) (h0 : Moves M s0 s) : Moves M s0 (storeFault k a s) := by
  refine Moves.via (N := [.sch]) ?_ hw h0
  clear hw h0
  have hK := Moves.refl [.sch] s
  unfold storeFault
  iterate 60 all_goals first
    | with_reducible assumption
    | ((with_reducible apply coreTrap_moves (hw := ?w)); case w => rfl)
    | ((with_reducible apply modCore_moves (hw := ?w)); case w => rfl)
    | intro _
    | dsimp only
    | split

theorem machineOnly_moves {M : List Part} {k : Nat} {f : State → State} {s0 s : State} (hw : inMask [.freeIdx, .sch] M = true)
    (hk : ∀ t, Moves M s0 t → Moves M s0 (f t)) (h0 : Moves M s0 s) : Moves M s0 (machineOnly k f s) := by
  unfold machineOnly
  split
  · exact h0
  · split
    · exact illegalInstr_moves (hw := hw) (h0 := h0) ..
    · exact hk _ h0

theorem fenceRel_moves (k : Nat) {M : List Part} {s0 s : State} (hw : inMask [.mem, .sch] M = true) (h0 : Moves M s0 s) : Moves M s0 (fenceRel k s) := by
  refine Moves.via (N := [.mem, .sch]) ?_ hw h0
  clear hw h0
  have hK := Moves.refl [.mem, .sch] s
  unfold fenceRel
  iterate 60 all_goals first
    | with_reducible assumption
    | ((with_reducible apply setByte_moves (hw := ?w)); case w => rfl)
    | ((with_reducible apply modCore_moves (hw := ?w)); case w => rfl)
    | with_reducible apply Moves.foldl
    | intro _
    | dsimp only
    | split

theorem tnext_moves (k r : Nat) {M : List Part} {s0 s : State} (hw : inMask [.regs, .mem, .hbm, .sch] M = true) (h0 : Moves M s0 s) : Moves M s0 (tnext k r s) := by
  refine Moves.via (N := [.regs, .mem, .hbm, .sch]) ?_ hw h0
  clear hw h0
  have hK := Moves.refl [.regs, .mem, .hbm, .sch] s
  unfold tnext
  iterate 60 all_goals first
    | with_reducible assumption
    | ((with_reducible apply modCore_moves (hw := ?w)); case w => rfl)
    | ((with_reducible apply nextPc_moves (hw := ?w)); case w => rfl)
    | ((with_reducible apply startTask_moves (hw := ?w)); case w => rfl)
    | intro _
    | dsimp only
    | split

theorem tdone_moves (k r : Nat) {M : List Part} {s0 s : State} (hw : inMask [.regs, .mem, .hbm, .sch] M = true) (h0 : Moves M s0 s) : Moves M s0 (tdone k r s) := by
  refine Moves.via (N := [.regs, .mem, .hbm, .sch]) ?_ hw h0
  clear hw h0
  have hK := Moves.refl [.regs, .mem, .hbm, .sch] s
  unfold tdone
  iterate 60 all_goals first
    | with_reducible assumption
    | ((with_reducible apply nextPc_moves (hw := ?w)); case w => rfl)
    | ((with_reducible apply setRegN_moves (hw := ?w)); case w => rfl)
    | ((with_reducible apply modCore_moves (hw := ?w)); case w => rfl)
    | ((with_reducible apply setTask_moves (hw := ?w)); case w => rfl)
    | ((with_reducible apply releaseAll_moves (hw := ?w)); case w => rfl)
    | intro _
    | dsimp only
    | split
    | ((with_reducible apply Moves.update) <;> first | (with_reducible exact Or.inl rfl) | exact Or.inr (by decide) | skip)

theorem tsubmit_moves (k r r1 : Nat) {M : List Part} {s0 s : State} (hw : inMask [.regs, .sch] M = true) (h0 : Moves M s0 s) : Moves M s0 (tsubmit k r r1 s) := by
  refine Moves.via (N := [.regs, .sch]) ?_ hw h0
  clear hw h0
  have hK := Moves.refl [.regs, .sch] s
  unfold tsubmit
  iterate 60 all_goals first
    | with_reducible assumption
    | ((with_reducible apply submit_movesE (hE := by assumption) (hw := ?w)); case w => rfl)
    | ((with_reducible apply submit_moves (hw := ?w)); case w => rfl)
    | ((with_reducible apply nextPc_moves (hw := ?w)); case w => rfl)
    | ((with_reducible apply setCoreX_moves (hw := ?w)); case w => rfl)
    | intro _
    | dsimp only
    | split

theorem tyield_moves (k : Nat) {M : List Part} {s0 s : State} (hw : inMask [.sch] M = true) (h0 : Moves M s0 s) : Moves M s0 (tyield k s) := by
  refine Moves.via (N := [.sch]) ?_ hw h0
  clear hw h0
  have hK := Moves.refl [.sch] s
  unfold tyield
  iterate 60 all_goals first
    | with_reducible assumption
    | ((with_reducible apply nextPc_moves (hw := ?w)); case w => rfl)
    | ((with_reducible apply setTask_moves (hw := ?w)); case w => rfl)
    | ((with_reducible apply setReady_moves (hw := ?w)); case w => rfl)
    | ((with_reducible apply modCore_moves (hw := ?w)); case w => rfl)
    | intro _
    | dsimp only
    | split

theorem fenceCore_moves (k : Nat) {M : List Part} {s0 s : State} (hw : inMask [.regs, .sch] M = true) (h0 : Moves M s0 s) : Moves M s0 (fenceCore k s) := by
  refine Moves.via (N := [.regs, .sch]) ?_ hw h0
  clear hw h0
  have hK := Moves.refl [.regs, .sch] s
  unfold fenceCore
  iterate 60 all_goals first
    | with_reducible assumption
    | ((with_reducible apply setReady_moves (hw := ?w)); case w => rfl)
    | ((with_reducible apply modTask_moves (hw := ?w)); case w => rfl)
    | ((with_reducible apply modCore_moves (hw := ?w)); case w => rfl)
    | ((with_reducible apply setBit_moves (hw := ?w)); case w => rfl)
    | intro _
    | dsimp only
    | split

theorem coreMismatch_moves (k : Nat) {M : List Part} {s0 s : State} (hw : inMask [.regs, .flt, .img, .sch] M = true) (h0 : Moves M s0 s) : Moves M s0 (coreMismatch k s) := by
  refine Moves.via (N := [.regs, .flt, .img, .sch]) ?_ hw h0
  clear hw h0
  have hK := Moves.refl [.regs, .flt, .img, .sch] s
  unfold coreMismatch
  iterate 60 all_goals first
    | with_reducible assumption
    | ((with_reducible apply orReg_moves (hw := ?w)); case w => rfl)
    | ((with_reducible apply fenceCore_moves (hw := ?w)); case w => rfl)
    | ((with_reducible apply raise_moves (hw := ?w)); case w => rfl)
    | ((with_reducible apply setFld_moves (hw := ?w)); case w => rfl)
    | ((with_reducible apply useSpare_moves (hw := ?w)); case w => rfl)
    | ((with_reducible apply modCore_moves (hw := ?w)); case w => rfl)
    | intro _
    | dsimp only
    | split
    | ((with_reducible apply Moves.update) <;> first | (with_reducible exact Or.inl rfl) | exact Or.inr (by decide) | skip)

theorem coreTakenOver_moves (k : Nat) {M : List Part} {s0 s : State} (hw : inMask [.regs, .sch] M = true) (h0 : Moves M s0 s) : Moves M s0 (coreTakenOver k s) := by
  refine Moves.via (N := [.regs, .sch]) ?_ hw h0
  clear hw h0
  have hK := Moves.refl [.regs, .sch] s
  unfold coreTakenOver
  iterate 60 all_goals first
    | with_reducible assumption
    | ((with_reducible apply modCore_moves (hw := ?w)); case w => rfl)
    | ((with_reducible apply orReg_moves (hw := ?w)); case w => rfl)
    | ((with_reducible apply modTask_moves (hw := ?w)); case w => rfl)
    | intro _
    | dsimp only
    | split

theorem loadList_moves (bs : List Byte) (l o sum : Nat) {M : List Part} {s0 s : State} (hw : inMask [.regs] M = true) (h0 : Moves M s0 s) : Moves M s0 (loadList bs l o sum s).2.2 := by
  refine Moves.via (N := [.regs]) ?_ hw h0
  clear hw h0
  have hK := Moves.refl [.regs] s
  unfold loadList
  iterate 60 all_goals first
    | with_reducible assumption
    | ((with_reducible apply setRegN_moves (hw := ?w)); case w => rfl)
    | intro _
    | dsimp only
    | split
theorem loadList_movesE {bs : List Byte} {l o sum : Nat} {w0 w1} {M : List Part} {s0 s s' : State} (hE : loadList bs l o sum s = (w0, w1, s')) (hw : inMask [.regs] M = true) (h0 : Moves M s0 s) : Moves M s0 s' := by
  have k := loadList_moves (hw := hw) (h0 := h0) (bs := bs) (l := l) (o := o) (sum := sum)
  rw [hE] at k
  exact k

theorem loadFlow_moves (bs : List Byte) (f o : Nat) {M : List Part} {s0 s : State} (hw : inMask [.regs, .sch] M = true) (h0 : Moves M s0 s) : Moves M s0 (loadFlow bs f o s).2 := by
  refine Moves.via (N := [.regs, .sch]) ?_ hw h0
  clear hw h0
  have hK := Moves.refl [.regs, .sch] s
  unfold loadFlow
  iterate 60 all_goals first
    | with_reducible assumption
    | ((with_reducible apply setRegN_moves (hw := ?w)); case w => rfl)
    | intro _
    | dsimp only
    | split
    | ((with_reducible apply Moves.update) <;> first | (with_reducible exact Or.inl rfl) | exact Or.inr (by decide) | skip)
theorem loadFlow_movesE {bs : List Byte} {f o : Nat} {w0} {M : List Part} {s0 s s' : State} (hE : loadFlow bs f o s = (w0, s')) (hw : inMask [.regs, .sch] M = true) (h0 : Moves M s0 s) : Moves M s0 s' := by
  have k := loadFlow_moves (hw := hw) (h0 := h0) (bs := bs) (f := f) (o := o)
  rw [hE] at k
  exact k

theorem loadLists_moves (bs : List Byte) (x0 x1 x2 : Nat) (x3 : Bool) {M : List Part} {s0 s : State} (hw : inMask [.regs] M = true) (h0 : Moves M s0 s) : Moves M s0 (loadLists bs x0 x1 x2 x3 s).2 := by
  refine Moves.via (N := [.regs]) ?_ hw h0
  clear hw h0
  induction x0 generalizing bs x1 x2 x3 s with
  | zero =>
    have hK := Moves.refl [.regs] s
    unfold loadLists
    iterate 60 all_goals first
      | with_reducible assumption
      | ((with_reducible apply loadList_movesE (hE := by assumption) (hw := ?w)); case w => rfl)
      | ((with_reducible apply loadList_moves (hw := ?w)); case w => rfl)
      | intro _
      | dsimp only
      | split
  | succ n ih =>
    have hK := Moves.refl [.regs] s
    unfold loadLists
    iterate 60 all_goals first
      | with_reducible assumption
      | ((with_reducible apply loadList_movesE (hE := by assumption) (hw := ?w)); case w => rfl)
      | ((with_reducible apply loadList_moves (hw := ?w)); case w => rfl)
      | with_reducible refine Moves.trans ?_ (Moves.of2 ‹loadLists _ _ _ _ _ _ = _› (ih ..))
      | with_reducible refine Moves.trans ?_ (ih ..)
      | intro _
      | dsimp only
      | split
theorem loadLists_movesE {bs : List Byte} {x0 x1 x2 : Nat} {x3 : Bool} {w0} {M : List Part} {s0 s s' : State} (hE : loadLists bs x0 x1 x2 x3 s = (w0, s')) (hw : inMask [.regs] M = true) (h0 : Moves M s0 s) : Moves M s0 s' := by
  have k := loadLists_moves (hw := hw) (h0 := h0) (bs := bs) (x0 := x0) (x1 := x1) (x2 := x2) (x3 := x3)
  rw [hE] at k
  exact k

theorem loadFlows_moves (bs : List Byte) (o x0 x1 : Nat) (x2 : Bool) {M : List Part} {s0 s : State} (hw : inMask [.regs, .sch] M = true) (h0 : Moves M s0 s) : Moves M s0 (loadFlows bs o x0 x1 x2 s).2 := by
  refine Moves.via (N := [.regs, .sch]) ?_ hw h0
  clear hw h0
  induction x0 generalizing bs o x1 x2 s with
  | zero =>
    have hK := Moves.refl [.regs, .sch] s
    unfold loadFlows
    iterate 60 all_goals first
      | with_reducible assumption
      | ((with_reducible apply loadFlow_movesE (hE := by assumption) (hw := ?w)); case w => rfl)
      | ((with_reducible apply loadFlow_moves (hw := ?w)); case w => rfl)
      | intro _
      | dsimp only
      | split
  | succ n ih =>
    have hK := Moves.refl [.regs, .sch] s
    unfold loadFlows
    iterate 60 all_goals first
      | with_reducible assumption
      | ((with_reducible apply loadFlow_movesE (hE := by assumption) (hw := ?w)); case w => rfl)
      | ((with_reducible apply loadFlow_moves (hw := ?w)); case w => rfl)
      | with_reducible refine Moves.trans ?_ (Moves.of2 ‹loadFlows _ _ _ _ _ _ = _› (ih ..))
      | with_reducible refine Moves.trans ?_ (ih ..)
      | intro _
      | dsimp only
      | split
theorem loadFlows_movesE {bs : List Byte} {o x0 x1 : Nat} {x2 : Bool} {w0} {M : List Part} {s0 s s' : State} (hE : loadFlows bs o x0 x1 x2 s = (w0, s')) (hw : inMask [.regs, .sch] M = true) (h0 : Moves M s0 s) : Moves M s0 s' := by
  have k := loadFlows_moves (hw := hw) (h0 := h0) (bs := bs) (o := o) (x0 := x0) (x1 := x1) (x2 := x2)
  rw [hE] at k
  exact k

theorem loadTemplates_moves (bs : List Byte) (o x0 x1 : Nat) (x2 : Bool) {M : List Part} {s0 s : State} (hw : inMask [.sch] M = true) (h0 : Moves M s0 s) : Moves M s0 (loadTemplates bs o x0 x1 x2 s).2 := by
  refine Moves.via (N := [.sch]) ?_ hw h0
  clear hw h0
  induction x0 generalizing bs o x1 x2 s with
  | zero =>
    have hK := Moves.refl [.sch] s
    unfold loadTemplates
    iterate 60 all_goals first
      | with_reducible assumption
      | intro _
      | dsimp only
      | split
      | ((with_reducible apply Moves.update) <;> first | (with_reducible exact Or.inl rfl) | exact Or.inr (by decide) | skip)
  | succ n ih =>
    have hK := Moves.refl [.sch] s
    unfold loadTemplates
    iterate 60 all_goals first
      | with_reducible assumption
      | with_reducible refine Moves.trans ?_ (Moves.of2 ‹loadTemplates _ _ _ _ _ _ = _› (ih ..))
      | with_reducible refine Moves.trans ?_ (ih ..)
      | intro _
      | dsimp only
      | split
      | ((with_reducible apply Moves.update) <;> first | (with_reducible exact Or.inl rfl) | exact Or.inr (by decide) | skip)
theorem loadTemplates_movesE {bs : List Byte} {o x0 x1 : Nat} {x2 : Bool} {w0} {M : List Part} {s0 s s' : State} (hE : loadTemplates bs o x0 x1 x2 s = (w0, s')) (hw : inMask [.sch] M = true) (h0 : Moves M s0 s) : Moves M s0 s' := by
  have k := loadTemplates_moves (hw := hw) (h0 := h0) (bs := bs) (o := o) (x0 := x0) (x1 := x1) (x2 := x2)
  rw [hE] at k
  exact k

theorem startCores_moves (entry : Nat) (code : List Byte) {M : List Part} {s0 s : State} (hw : inMask [.regs, .mem, .hbm, .sch] M = true) (h0 : Moves M s0 s) : Moves M s0 (startCores entry code s) := by
  refine Moves.via (N := [.regs, .mem, .hbm, .sch]) ?_ hw h0
  clear hw h0
  have hK := Moves.refl [.regs, .mem, .hbm, .sch] s
  unfold startCores
  iterate 60 all_goals first
    | with_reducible assumption
    | ((with_reducible apply setBytes_moves (hw := ?w)); case w => rfl)
    | ((with_reducible apply modCore_moves (hw := ?w)); case w => rfl)
    | with_reducible apply Moves.foldl
    | intro _
    | dsimp only
    | split

theorem holdCores_moves {M : List Part} {s0 s : State} (hw : inMask [.regs, .flt, .sch] M = true) (h0 : Moves M s0 s) : Moves M s0 (holdCores s) := by
  refine Moves.via (N := [.regs, .flt, .sch]) ?_ hw h0
  clear hw h0
  have hK := Moves.refl [.regs, .flt, .sch] s
  unfold holdCores
  iterate 60 all_goals first
    | with_reducible assumption
    | ((with_reducible apply modCore_moves (hw := ?w)); case w => rfl)
    | ((with_reducible apply raise_moves (hw := ?w)); case w => rfl)
    | ((with_reducible apply setBit_moves (hw := ?w)); case w => rfl)
    | with_reducible apply Moves.foldl
    | intro _
    | dsimp only
    | split

theorem applySched_moves (bs : List Byte) (readOk : Bool) {M : List Part} {s0 s : State} (hw : inMask [.regs, .mem, .flt, .hbm, .sch] M = true) (h0 : Moves M s0 s) : Moves M s0 (applySched bs readOk s) := by
  refine Moves.via (N := [.regs, .mem, .flt, .hbm, .sch]) ?_ hw h0
  clear hw h0
  have hK := Moves.refl [.regs, .mem, .flt, .hbm, .sch] s
  unfold applySched
  iterate 60 all_goals first
    | with_reducible assumption
    | ((with_reducible apply setRegN_moves (hw := ?w)); case w => rfl)
    | ((with_reducible apply loadLists_movesE (hE := by assumption) (hw := ?w)); case w => rfl)
    | ((with_reducible apply loadLists_moves (hw := ?w)); case w => rfl)
    | ((with_reducible apply loadFlows_movesE (hE := by assumption) (hw := ?w)); case w => rfl)
    | ((with_reducible apply loadFlows_moves (hw := ?w)); case w => rfl)
    | ((with_reducible apply loadTemplates_movesE (hE := by assumption) (hw := ?w)); case w => rfl)
    | ((with_reducible apply loadTemplates_moves (hw := ?w)); case w => rfl)
    | ((with_reducible apply setBit_moves (hw := ?w)); case w => rfl)
    | ((with_reducible apply imageNotice_moves (hw := ?w)); case w => rfl)
    | ((with_reducible apply startCores_moves (hw := ?w)); case w => rfl)
    | ((with_reducible apply holdCores_moves (hw := ?w)); case w => rfl)
    | with_reducible apply Moves.foldl
    | intro _
    | dsimp only
    | split
    | ((with_reducible apply Moves.update) <;> first | (with_reducible exact Or.inl rfl) | exact Or.inr (by decide) | skip)

theorem execFenceRel_moves (k : Fin 64) {s s' : State} (h : execFenceRel k s = .next s') : Moves [.mem, .sch] s s' := by
  unfold execFenceRel at h
  have hK := Moves.refl [.mem, .sch] s
  all_goals injection h with h
  all_goals subst h
  iterate 60 all_goals first
    | with_reducible assumption
    | ((with_reducible apply storeFault_moves (hw := ?w)); case w => rfl)
    | ((with_reducible apply nextPc_moves (hw := ?w)); case w => rfl)
    | ((with_reducible apply fenceRel_moves (hw := ?w)); case w => rfl)
    | intro _
    | dsimp only
    | split

theorem execFenceAcq_moves (k : Fin 64) {s s' : State} (h : execFenceAcq k s = .next s') : Moves [.sch] s s' := by
  unfold execFenceAcq at h
  have hK := Moves.refl [.sch] s
  all_goals injection h with h
  all_goals subst h
  iterate 60 all_goals first
    | with_reducible assumption
    | ((with_reducible apply nextPc_moves (hw := ?w)); case w => rfl)
    | ((with_reducible apply fenceAcq_moves (hw := ?w)); case w => rfl)
    | intro _
    | dsimp only
    | split

theorem execTnext_moves (k : Fin 64) (r : Fin 32) {s s' : State} (h : execTnext k r s = .next s') : Moves [.freeIdx, .regs, .mem, .hbm, .sch] s s' := by
  unfold execTnext at h
  have hK := Moves.refl [.freeIdx, .regs, .mem, .hbm, .sch] s
  all_goals injection h with h
  all_goals subst h
  iterate 60 all_goals first
    | with_reducible assumption
    | ((with_reducible apply machineOnly_moves (hw := ?w)); case w => rfl)
    | ((with_reducible apply tnext_moves (hw := ?w)); case w => rfl)
    | intro _
    | dsimp only
    | split

theorem execTdone_moves (k : Fin 64) (r1 : Fin 32) {s s' : State} (h : execTdone k r1 s = .next s') : Moves [.freeIdx, .regs, .mem, .hbm, .sch] s s' := by
  unfold execTdone at h
  have hK := Moves.refl [.freeIdx, .regs, .mem, .hbm, .sch] s
  all_goals injection h with h
  all_goals subst h
  iterate 60 all_goals first
    | with_reducible assumption
    | ((with_reducible apply machineOnly_moves (hw := ?w)); case w => rfl)
    | ((with_reducible apply tdone_moves (hw := ?w)); case w => rfl)
    | intro _
    | dsimp only
    | split

theorem execTsubmit_moves (k : Fin 64) (r r1 : Fin 32) {s s' : State} (h : execTsubmit k r r1 s = .next s') : Moves [.freeIdx, .regs, .sch] s s' := by
  unfold execTsubmit at h
  have hK := Moves.refl [.freeIdx, .regs, .sch] s
  all_goals injection h with h
  all_goals subst h
  iterate 60 all_goals first
    | with_reducible assumption
    | ((with_reducible apply machineOnly_moves (hw := ?w)); case w => rfl)
    | ((with_reducible apply tsubmit_moves (hw := ?w)); case w => rfl)
    | intro _
    | dsimp only
    | split

theorem execTyield_moves (k : Fin 64) {s s' : State} (h : execTyield k s = .next s') : Moves [.freeIdx, .sch] s s' := by
  unfold execTyield at h
  have hK := Moves.refl [.freeIdx, .sch] s
  all_goals injection h with h
  all_goals subst h
  iterate 60 all_goals first
    | with_reducible assumption
    | ((with_reducible apply machineOnly_moves (hw := ?w)); case w => rfl)
    | ((with_reducible apply tyield_moves (hw := ?w)); case w => rfl)
    | intro _
    | dsimp only
    | split

theorem subGo_moves {M : List Part} {s0 s : State} (hw : inMask [.regs, .ans, .sch] M = true) (h0 : Moves M s0 s) : Moves M s0 (subGo s) := by
  refine Moves.via (N := [.regs, .ans, .sch]) ?_ hw h0
  clear hw h0
  have hK := Moves.refl [.regs, .ans, .sch] s
  unfold subGo
  iterate 60 all_goals first
    | with_reducible assumption
    | ((with_reducible apply submit_movesE (hE := by assumption) (hw := ?w)); case w => rfl)
    | ((with_reducible apply submit_moves (hw := ?w)); case w => rfl)
    | ((with_reducible apply answer_moves (hw := ?w)); case w => rfl)
    | intro _
    | dsimp only
    | split

theorem execSchSubGo_moves (q : Req) {s s' : State} (h : execSchSubGo q s = .next s') : Moves [.regs, .ans, .sch] s s' := by
  unfold execSchSubGo at h
  have hK := Moves.refl [.regs, .ans, .sch] s
  all_goals injection h with h
  all_goals subst h
  iterate 60 all_goals first
    | with_reducible assumption
    | ((with_reducible apply guarded_moves (hw := ?w)); case w => rfl)
    | ((with_reducible apply subGo_moves (hw := ?w)); case w => rfl)
    | intro _
    | dsimp only
    | split

theorem execTemplateRetry_moves {s s' : State} (h : execTemplateRetry s = .next s') : Moves [.regs, .sch] s s' := by
  unfold execTemplateRetry at h
  have hK := Moves.refl [.regs, .sch] s
  all_goals injection h with h
  all_goals subst h
  iterate 60 all_goals first
    | with_reducible assumption
    | ((with_reducible apply retryTemplates_moves (hw := ?w)); case w => rfl)
    | intro _
    | dsimp only
    | split

theorem execDispatchPlacement_moves (copies : Copies) {s s' : State} (h : execDispatchPlacement copies s = .next s') : Moves [.regs, .mem, .flt, .hbm, .sch] s s' := by
  unfold execDispatchPlacement at h
  have hK := Moves.refl [.regs, .mem, .flt, .hbm, .sch] s
  all_goals injection h with h
  all_goals subst h
  iterate 60 all_goals first
    | with_reducible assumption
    | ((with_reducible apply copiesRun_moves (hw := ?w)); case w => rfl)
    | ((with_reducible apply dispatchOnce_moves (hw := ?w)); case w => rfl)
    | intro _
    | dsimp only
    | split

theorem execPreemptLate_moves (k : Fin 64) {s s' : State} (h : execPreemptLate k s = .next s') : Moves [.regs, .flt, .sch] s s' := by
  unfold execPreemptLate at h
  have hK := Moves.refl [.regs, .flt, .sch] s
  all_goals injection h with h
  all_goals subst h
  iterate 60 all_goals first
    | with_reducible assumption
    | ((with_reducible apply raise_moves (hw := ?w)); case w => rfl)
    | ((with_reducible apply orReg_moves (hw := ?w)); case w => rfl)
    | ((with_reducible apply incSat_moves (hw := ?w)); case w => rfl)
    | ((with_reducible apply modCore_moves (hw := ?w)); case w => rfl)
    | intro _
    | dsimp only
    | split

theorem execFlush_moves (q : Req) (l : Fin 64) {s s' : State} (h : execFlush q l s = .next s') : Moves [.regs, .mem, .ans, .hbm, .sch] s s' := by
  unfold execFlush at h
  have hK := Moves.refl [.regs, .mem, .ans, .hbm, .sch] s
  all_goals injection h with h
  all_goals subst h
  iterate 60 all_goals first
    | with_reducible assumption
    | ((with_reducible apply guarded_moves (hw := ?w)); case w => rfl)
    | ((with_reducible apply answer_moves (hw := ?w)); case w => rfl)
    | ((with_reducible apply flushList_moves (hw := ?w)); case w => rfl)
    | intro _
    | dsimp only
    | split

theorem flowRdWrite_moves (f : Nat) (value : Word) {M : List Part} {s0 s : State} (hw : inMask [.regs, .shadowS, .shadowF, .mem, .ans, .hbm, .sch] M = true) (h0 : Moves M s0 s) : Moves M s0 (flowRdWrite f value s) := by
  refine Moves.via (N := [.regs, .shadowS, .shadowF, .mem, .ans, .hbm, .sch]) ?_ hw h0
  clear hw h0
  have hK := Moves.refl [.regs, .shadowS, .shadowF, .mem, .ans, .hbm, .sch] s
  unfold flowRdWrite
  iterate 60 all_goals first
    | with_reducible assumption
    | ((with_reducible apply answer_moves (hw := ?w)); case w => rfl)
    | ((with_reducible apply releaseAll_moves (hw := ?w)); case w => rfl)
    | ((with_reducible apply accept_moves (hw := ?w)); case w => rfl)
    | intro _
    | dsimp only
    | split

theorem execSchFlowRdWrite_moves (q : Req) (f : Fin 1024) (value : Word) {s s' : State} (h : execSchFlowRdWrite q f value s = .next s') : Moves [.regs, .shadowS, .shadowF, .mem, .ans, .hbm, .sch] s s' := by
  unfold execSchFlowRdWrite at h
  have hK := Moves.refl [.regs, .shadowS, .shadowF, .mem, .ans, .hbm, .sch] s
  all_goals injection h with h
  all_goals subst h
  iterate 60 all_goals first
    | with_reducible assumption
    | ((with_reducible apply guarded_moves (hw := ?w)); case w => rfl)
    | ((with_reducible apply flowRdWrite_moves (hw := ?w)); case w => rfl)
    | intro _
    | dsimp only
    | split

theorem execCoreMismatch_moves (k : Fin 64) {s s' : State} (h : execCoreMismatch k s = .next s') : Moves [.regs, .flt, .img, .sch] s s' := by
  unfold execCoreMismatch at h
  have hK := Moves.refl [.regs, .flt, .img, .sch] s
  all_goals injection h with h
  all_goals subst h
  iterate 60 all_goals first
    | with_reducible assumption
    | ((with_reducible apply coreMismatch_moves (hw := ?w)); case w => rfl)
    | intro _
    | dsimp only
    | split

theorem execCoreTakeoverDone_moves (k : Fin 64) {s s' : State} (h : execCoreTakeoverDone k s = .next s') : Moves [.regs, .sch] s s' := by
  unfold execCoreTakeoverDone at h
  have hK := Moves.refl [.regs, .sch] s
  all_goals injection h with h
  all_goals subst h
  iterate 60 all_goals first
    | with_reducible assumption
    | ((with_reducible apply coreTakenOver_moves (hw := ?w)); case w => rfl)
    | intro _
    | dsimp only
    | split

end Sys2Proof.Laws
end

