-- ==== Sys2Proof/Laws/MovesDma.lean ====
section
/-! SUPPORT. What the operations of Machine/Dma.lean may change of the state, and that they keep what no operation breaks. -/

namespace Sys2Proof.Laws

open Sys2Proof Sys2Proof.Machine

theorem setDmaRun_moves (c : Nat) (r : Option DmaRun) {M : List Part} {s0 s : State} (hw : inMask [.dma] M = true) (h0 : Moves M s0 s) : Moves M s0 (setDmaRun c r s) := by
  refine Moves.via (N := [.dma]) ?_ hw h0
  clear hw h0
  have hK := Moves.refl [.dma] s
  unfold setDmaRun
  iterate 60 all_goals first
    | with_reducible assumption
    | intro _
    | dsimp only
    | split
    | ((with_reducible apply Moves.update) <;> first | (with_reducible exact Or.inl rfl) | exact Or.inr (by decide) | skip)

theorem setDmaState_moves (c st : Nat) {M : List Part} {s0 s : State} (hw : inMask [.regs] M = true) (h0 : Moves M s0 s) : Moves M s0 (setDmaState c st s) := by
  refine Moves.via (N := [.regs]) ?_ hw h0
  clear hw h0
  have hK := Moves.refl [.regs] s
  unfold setDmaState
  iterate 60 all_goals first
    | with_reducible assumption
    | ((with_reducible apply setFld_moves (hw := ?w)); case w => rfl)
    | intro _
    | dsimp only
    | split

theorem putDmaRun_moves (c : Nat) (r : DmaRun) {M : List Part} {s0 s : State} (hw : inMask [.regs, .dma] M = true) (h0 : Moves M s0 s) : Moves M s0 (putDmaRun c r s) := by
  refine Moves.via (N := [.regs, .dma]) ?_ hw h0
  clear hw h0
  have hK := Moves.refl [.regs, .dma] s
  unfold putDmaRun
  iterate 60 all_goals first
    | with_reducible assumption
    | ((with_reducible apply setFld_moves (hw := ?w)); case w => rfl)
    | ((with_reducible apply setDmaRun_moves (hw := ?w)); case w => rfl)
    | intro _
    | dsimp only
    | split

theorem showDma_moves {M : List Part} {s0 s : State} (hw : inMask [.regs] M = true) (h0 : Moves M s0 s) : Moves M s0 (showDma s) := by
  refine Moves.via (N := [.regs]) ?_ hw h0
  clear hw h0
  have hK := Moves.refl [.regs] s
  unfold showDma
  iterate 60 all_goals first
    | with_reducible assumption
    | ((with_reducible apply setBit_moves (hw := ?w)); case w => rfl)
    | intro _
    | dsimp only
    | split

theorem beginRun_moves (c : Nat) (r : DmaRun) {M : List Part} {s0 s : State} (hw : inMask [.regs, .ans, .dma] M = true) (h0 : Moves M s0 s) : Moves M s0 (beginRun c r s) := by
  refine Moves.via (N := [.regs, .ans, .dma]) ?_ hw h0
  clear hw h0
  have hK := Moves.refl [.regs, .ans, .dma] s
  unfold beginRun
  iterate 60 all_goals first
    | with_reducible assumption
    | ((with_reducible apply setFld_moves (hw := ?w)); case w => rfl)
    | ((with_reducible apply orReg_moves (hw := ?w)); case w => rfl)
    | ((with_reducible apply incWrap_moves (hw := ?w)); case w => rfl)
    | ((with_reducible apply setRegN_moves (hw := ?w)); case w => rfl)
    | ((with_reducible apply answer_moves (hw := ?w)); case w => rfl)
    | ((with_reducible apply setDmaState_moves (hw := ?w)); case w => rfl)
    | ((with_reducible apply putDmaRun_moves (hw := ?w)); case w => rfl)
    | intro _
    | dsimp only
    | split

theorem dmaStart_moves (c : Nat) {M : List Part} {s0 s : State} (hw : inMask [.regs, .ans, .dma] M = true) (h0 : Moves M s0 s) : Moves M s0 (dmaStart c s) := by
  refine Moves.via (N := [.regs, .ans, .dma]) ?_ hw h0
  clear hw h0
  have hK := Moves.refl [.regs, .ans, .dma] s
  unfold dmaStart
  iterate 60 all_goals first
    | with_reducible assumption
    | ((with_reducible apply answer_moves (hw := ?w)); case w => rfl)
    | ((with_reducible apply setRegN_moves (hw := ?w)); case w => rfl)
    | ((with_reducible apply beginRun_moves (hw := ?w)); case w => rfl)
    | intro _
    | dsimp only
    | split

theorem addRec_moves (c status addr : Nat) (final : Bool) {M : List Part} {s0 s : State} (hw : inMask [.regs, .dma] M = true) (h0 : Moves M s0 s) : Moves M s0 (addRec c status addr final s) := by
  refine Moves.via (N := [.regs, .dma]) ?_ hw h0
  clear hw h0
  have hK := Moves.refl [.regs, .dma] s
  unfold addRec
  iterate 60 all_goals first
    | with_reducible assumption
    | ((with_reducible apply setDmaRun_moves (hw := ?w)); case w => rfl)
    | ((with_reducible apply orReg_moves (hw := ?w)); case w => rfl)
    | ((with_reducible apply setDmaState_moves (hw := ?w)); case w => rfl)
    | intro _
    | dsimp only
    | split

theorem openBytes_moves (a x0 : Nat) {M : List Part} {s0 s : State} (hw : inMask [.freeIdx, .mem] M = true) (h0 : Moves M s0 s) : Moves M s0 (openBytes a x0 s) := by
  refine Moves.via (N := [.freeIdx, .mem]) ?_ hw h0
  clear hw h0
  induction x0 generalizing a s with
  | zero =>
    have hK := Moves.refl [.freeIdx, .mem] s
    unfold openBytes
    iterate 60 all_goals first
      | with_reducible assumption
      | ((with_reducible apply freeNat_movesE (hE := by assumption) (hw := ?w)); case w => rfl)
      | ((with_reducible apply freeNat_moves (hw := ?w)); case w => rfl)
      | ((with_reducible apply setByte_moves (hw := ?w)); case w => rfl)
      | intro _
      | dsimp only
      | split
  | succ n ih =>
    have hK := Moves.refl [.freeIdx, .mem] s
    unfold openBytes
    iterate 60 all_goals first
      | with_reducible assumption
      | ((with_reducible apply freeNat_movesE (hE := by assumption) (hw := ?w)); case w => rfl)
      | ((with_reducible apply freeNat_moves (hw := ?w)); case w => rfl)
      | ((with_reducible apply setByte_moves (hw := ?w)); case w => rfl)
      | with_reducible refine Moves.trans ?_ (ih ..)
      | intro _
      | dsimp only
      | split

theorem openLast_moves (m : DmaMove) {M : List Part} {s0 s : State} (hw : inMask [.freeIdx, .mem] M = true) (h0 : Moves M s0 s) : Moves M s0 (openLast m s) := by
  refine Moves.via (N := [.freeIdx, .mem]) ?_ hw h0
  clear hw h0
  have hK := Moves.refl [.freeIdx, .mem] s
  unfold openLast
  iterate 60 all_goals first
    | with_reducible assumption
    | ((with_reducible apply openBytes_moves (hw := ?w)); case w => rfl)
    | with_reducible apply Moves.foldl
    | intro _
    | dsimp only
    | split

theorem finishRun_moves (c : Nat) {M : List Part} {s0 s : State} (hw : inMask [.freeIdx, .regs, .mem, .dma] M = true) (h0 : Moves M s0 s) : Moves M s0 (finishRun c s) := by
  refine Moves.via (N := [.freeIdx, .regs, .mem, .dma]) ?_ hw h0
  clear hw h0
  have hK := Moves.refl [.freeIdx, .regs, .mem, .dma] s
  unfold finishRun
  iterate 60 all_goals first
    | with_reducible assumption
    | ((with_reducible apply addRec_moves (hw := ?w)); case w => rfl)
    | ((with_reducible apply openLast_moves (hw := ?w)); case w => rfl)
    | ((with_reducible apply setDmaRun_moves (hw := ?w)); case w => rfl)
    | ((with_reducible apply openBytes_moves (hw := ?w)); case w => rfl)
    | with_reducible apply Moves.foldl
    | intro _
    | dsimp only
    | split

theorem endRun_moves (c status addr : Nat) {M : List Part} {s0 s : State} (hw : inMask [.freeIdx, .regs, .mem, .dma] M = true) (h0 : Moves M s0 s) : Moves M s0 (endRun c status addr s) := by
  refine Moves.via (N := [.freeIdx, .regs, .mem, .dma]) ?_ hw h0
  clear hw h0
  have hK := Moves.refl [.freeIdx, .regs, .mem, .dma] s
  unfold endRun
  iterate 60 all_goals first
    | with_reducible assumption
    | ((with_reducible apply finishRun_moves (hw := ?w)); case w => rfl)
    | ((with_reducible apply setDmaRun_moves (hw := ?w)); case w => rfl)
    | intro _
    | dsimp only
    | split

theorem dmaNext_moves (c : Nat) {M : List Part} {s0 s : State} (hw : inMask [.regs, .dma] M = true) (h0 : Moves M s0 s) : Moves M s0 (dmaNext c s) := by
  refine Moves.via (N := [.regs, .dma]) ?_ hw h0
  clear hw h0
  have hK := Moves.refl [.regs, .dma] s
  unfold dmaNext
  iterate 60 all_goals first
    | with_reducible assumption
    | ((with_reducible apply setDmaState_moves (hw := ?w)); case w => rfl)
    | ((with_reducible apply putDmaRun_moves (hw := ?w)); case w => rfl)
    | intro _
    | dsimp only
    | split

theorem settleMove_moves (c : Nat) {M : List Part} {s0 s : State} (hw : inMask [.freeIdx, .regs, .mem, .dma] M = true) (h0 : Moves M s0 s) : Moves M s0 (settleMove c s) := by
  refine Moves.via (N := [.freeIdx, .regs, .mem, .dma]) ?_ hw h0
  clear hw h0
  have hK := Moves.refl [.freeIdx, .regs, .mem, .dma] s
  unfold settleMove
  iterate 60 all_goals first
    | with_reducible assumption
    | ((with_reducible apply setDmaRun_moves (hw := ?w)); case w => rfl)
    | ((with_reducible apply endRun_moves (hw := ?w)); case w => rfl)
    | ((with_reducible apply dmaNext_moves (hw := ?w)); case w => rfl)
    | ((with_reducible apply addRec_moves (hw := ?w)); case w => rfl)
    | intro _
    | dsimp only
    | split

theorem beginMove_moves (c : Nat) {M : List Part} {s0 s : State} (hw : inMask [.dma] M = true) (h0 : Moves M s0 s) : Moves M s0 (beginMove c s) := by
  refine Moves.via (N := [.dma]) ?_ hw h0
  clear hw h0
  have hK := Moves.refl [.dma] s
  unfold beginMove
  iterate 60 all_goals first
    | with_reducible assumption
    | ((with_reducible apply setDmaRun_moves (hw := ?w)); case w => rfl)
    | intro _
    | dsimp only
    | split

theorem issueBeat_moves (c : Nat) {M : List Part} {s0 s : State} (hw : inMask [.freeIdx, .regs, .mem, .flt, .hbm, .dma] M = true) (h0 : Moves M s0 s) : Moves M s0 (issueBeat c s).2 := by
  refine Moves.via (N := [.freeIdx, .regs, .mem, .flt, .hbm, .dma]) ?_ hw h0
  clear hw h0
  have hK := Moves.refl [.freeIdx, .regs, .mem, .flt, .hbm, .dma] s
  unfold issueBeat
  iterate 60 all_goals first
    | with_reducible assumption
    | ((with_reducible apply readHook_moves (hw := ?w)); case w => rfl)
    | ((with_reducible apply endRun_moves (hw := ?w)); case w => rfl)
    | ((with_reducible apply orReg_moves (hw := ?w)); case w => rfl)
    | ((with_reducible apply setBytes_moves (hw := ?w)); case w => rfl)
    | ((with_reducible apply setDmaRun_moves (hw := ?w)); case w => rfl)
    | intro _
    | dsimp only
    | split
theorem issueBeat_movesE {c : Nat} {w0} {M : List Part} {s0 s s' : State} (hE : issueBeat c s = (w0, s')) (hw : inMask [.freeIdx, .regs, .mem, .flt, .hbm, .dma] M = true) (h0 : Moves M s0 s) : Moves M s0 s' := by
  have k := issueBeat_moves (hw := hw) (h0 := h0) (c := c)
  rw [hE] at k
  exact k

theorem issueBurst_moves (c x0 : Nat) {M : List Part} {s0 s : State} (hw : inMask [.freeIdx, .regs, .mem, .flt, .hbm, .dma] M = true) (h0 : Moves M s0 s) : Moves M s0 (issueBurst c x0 s).2 := by
  refine Moves.via (N := [.freeIdx, .regs, .mem, .flt, .hbm, .dma]) ?_ hw h0
  clear hw h0
  induction x0 generalizing c s with
  | zero =>
    have hK := Moves.refl [.freeIdx, .regs, .mem, .flt, .hbm, .dma] s
    unfold issueBurst
    iterate 60 all_goals first
      | with_reducible assumption
      | ((with_reducible apply issueBeat_movesE (hE := by assumption) (hw := ?w)); case w => rfl)
      | ((with_reducible apply issueBeat_moves (hw := ?w)); case w => rfl)
      | intro _
      | dsimp only
      | split
  | succ n ih =>
    have hK := Moves.refl [.freeIdx, .regs, .mem, .flt, .hbm, .dma] s
    unfold issueBurst
    iterate 60 all_goals first
      | with_reducible assumption
      | ((with_reducible apply issueBeat_movesE (hE := by assumption) (hw := ?w)); case w => rfl)
      | ((with_reducible apply issueBeat_moves (hw := ?w)); case w => rfl)
      | with_reducible refine Moves.trans ?_ (Moves.of2 ‹issueBurst _ _ _ = _› (ih ..))
      | with_reducible refine Moves.trans ?_ (ih ..)
      | intro _
      | dsimp only
      | split
theorem issueBurst_movesE {c x0 : Nat} {w0} {M : List Part} {s0 s s' : State} (hE : issueBurst c x0 s = (w0, s')) (hw : inMask [.freeIdx, .regs, .mem, .flt, .hbm, .dma] M = true) (h0 : Moves M s0 s) : Moves M s0 s' := by
  have k := issueBurst_moves (hw := hw) (h0 := h0) (c := c) (x0 := x0)
  rw [hE] at k
  exact k

theorem burstGrant_moves (spent : List Nat) {M : List Part} {s0 s : State} (hw : inMask [.freeIdx, .regs, .mem, .flt, .hbm, .dma] M = true) (h0 : Moves M s0 s) : Moves M s0 (burstGrant spent s) := by
  refine Moves.via (N := [.freeIdx, .regs, .mem, .flt, .hbm, .dma]) ?_ hw h0
  clear hw h0
  have hK := Moves.refl [.freeIdx, .regs, .mem, .flt, .hbm, .dma] s
  unfold burstGrant
  iterate 60 all_goals first
    | with_reducible assumption
    | ((with_reducible apply issueBurst_movesE (hE := by assumption) (hw := ?w)); case w => rfl)
    | ((with_reducible apply issueBurst_moves (hw := ?w)); case w => rfl)
    | ((with_reducible apply beginMove_moves (hw := ?w)); case w => rfl)
    | intro _
    | dsimp only
    | split
    | ((with_reducible apply Moves.update) <;> first | (with_reducible exact Or.inl rfl) | exact Or.inr (by decide) | skip)

theorem writeAnswer_moves (c i : Nat) (ok : Bool) {M : List Part} {s0 s : State} (hw : inMask [.freeIdx, .regs, .mem, .dma] M = true) (h0 : Moves M s0 s) : Moves M s0 (writeAnswer c i ok s) := by
  refine Moves.via (N := [.freeIdx, .regs, .mem, .dma]) ?_ hw h0
  clear hw h0
  have hK := Moves.refl [.freeIdx, .regs, .mem, .dma] s
  unfold writeAnswer
  iterate 60 all_goals first
    | with_reducible assumption
    | ((with_reducible apply setDmaRun_moves (hw := ?w)); case w => rfl)
    | ((with_reducible apply finishRun_moves (hw := ?w)); case w => rfl)
    | ((with_reducible apply settleMove_moves (hw := ?w)); case w => rfl)
    | intro _
    | dsimp only
    | split

theorem writeRecord_moves (c : Nat) {M : List Part} {s0 s : State} (hw : inMask [.regs, .mem, .hbm, .dma] M = true) (h0 : Moves M s0 s) : Moves M s0 (writeRecord c s) := by
  refine Moves.via (N := [.regs, .mem, .hbm, .dma]) ?_ hw h0
  clear hw h0
  have hK := Moves.refl [.regs, .mem, .hbm, .dma] s
  unfold writeRecord
  iterate 60 all_goals first
    | with_reducible assumption
    | ((with_reducible apply setDmaRun_moves (hw := ?w)); case w => rfl)
    | ((with_reducible apply setBit_moves (hw := ?w)); case w => rfl)
    | ((with_reducible apply orReg_moves (hw := ?w)); case w => rfl)
    | ((with_reducible apply setDmaState_moves (hw := ?w)); case w => rfl)
    | ((with_reducible apply setBytes_moves (hw := ?w)); case w => rfl)
    | ((with_reducible apply setRegN_moves (hw := ?w)); case w => rfl)
    | ((with_reducible apply set64_moves (hw := ?w)); case w => rfl)
    | ((with_reducible apply setFld_moves (hw := ?w)); case w => rfl)
    | ((with_reducible apply incWrap_moves (hw := ?w)); case w => rfl)
    | intro _
    | dsimp only
    | split

theorem releaseHeld_moves {M : List Part} {s0 s : State} (hw : inMask [.regs, .mem, .hbm, .dma] M = true) (h0 : Moves M s0 s) : Moves M s0 (releaseHeld s) := by
  refine Moves.via (N := [.regs, .mem, .hbm, .dma]) ?_ hw h0
  clear hw h0
  have hK := Moves.refl [.regs, .mem, .hbm, .dma] s
  unfold releaseHeld
  iterate 60 all_goals first
    | with_reducible assumption
    | ((with_reducible apply writeRecord_moves (hw := ?w)); case w => rfl)
    | with_reducible apply Moves.foldl
    | intro _
    | dsimp only
    | split

theorem dmaLineAct_moves (l : Nat) {M : List Part} {s0 s : State} (hw : inMask [.regs, .dma] M = true) (h0 : Moves M s0 s) : Moves M s0 (dmaLineAct l s) := by
  refine Moves.via (N := [.regs, .dma]) ?_ hw h0
  clear hw h0
  have hK := Moves.refl [.regs, .dma] s
  unfold dmaLineAct
  iterate 60 all_goals first
    | with_reducible assumption
    | ((with_reducible apply dmaNext_moves (hw := ?w)); case w => rfl)
    | with_reducible apply Moves.foldl
    | intro _
    | dsimp only
    | split

theorem dmaSignal_moves (c : Nat) (i : List Byte) {M : List Part} {s0 s : State} (hw : inMask [.freeIdx, .regs, .mem, .net, .hbm, .sch, .dma] M = true) (h0 : Moves M s0 s) : Moves M s0 (dmaSignal c i s) := by
  refine Moves.via (N := [.freeIdx, .regs, .mem, .net, .hbm, .sch, .dma]) ?_ hw h0
  clear hw h0
  have hK := Moves.refl [.freeIdx, .regs, .mem, .net, .hbm, .sch, .dma] s
  unfold dmaSignal
  iterate 60 all_goals first
    | with_reducible assumption
    | ((with_reducible apply dmaNext_moves (hw := ?w)); case w => rfl)
    | ((with_reducible apply setFlag_moves (hw := ?w)); case w => rfl)
    | ((with_reducible apply endRun_moves (hw := ?w)); case w => rfl)
    | ((with_reducible apply orReg_moves (hw := ?w)); case w => rfl)
    | ((with_reducible apply setBytes_moves (hw := ?w)); case w => rfl)
    | ((with_reducible apply pushRec_moves (hw := ?w)); case w => rfl)
    | intro _
    | dsimp only
    | split

theorem onOpcode_moves {M : List Part} {c op : Nat} {k : List Byte → State → State} {s0 s : State} (hw : inMask [] M = true)
    (hk : ∀ i t, Moves M s0 t → Moves M s0 (k i t)) (h0 : Moves M s0 s) : Moves M s0 (onOpcode c op k s) := by
  unfold onOpcode
  split
  · split
    · exact hk _ _ h0
    · exact h0
  · exact h0

theorem engineFault_moves (c : Nat) {M : List Part} {s0 s : State} (hw : inMask [.regs, .flt, .dma] M = true) (h0 : Moves M s0 s) : Moves M s0 (engineFault c s) := by
  refine Moves.via (N := [.regs, .flt, .dma]) ?_ hw h0
  clear hw h0
  have hK := Moves.refl [.regs, .flt, .dma] s
  unfold engineFault
  iterate 60 all_goals first
    | with_reducible assumption
    | ((with_reducible apply raise_moves (hw := ?w)); case w => rfl)
    | ((with_reducible apply useSpare_moves (hw := ?w)); case w => rfl)
    | ((with_reducible apply fenceUnit_moves (hw := ?w)); case w => rfl)
    | ((with_reducible apply setFld_moves (hw := ?w)); case w => rfl)
    | ((with_reducible apply setBit_moves (hw := ?w)); case w => rfl)
    | ((with_reducible apply orReg_moves (hw := ?w)); case w => rfl)
    | ((with_reducible apply setDmaRun_moves (hw := ?w)); case w => rfl)
    | ((with_reducible apply setDmaState_moves (hw := ?w)); case w => rfl)
    | ((with_reducible apply addRec_moves (hw := ?w)); case w => rfl)
    | intro _
    | dsimp only
    | split
    | ((with_reducible apply Moves.update) <;> first | (with_reducible exact Or.inl rfl) | exact Or.inr (by decide) | skip)

theorem applyDmaFree_moves (f : Nat) {M : List Part} {s0 s : State} (hw : inMask [.regs] M = true) (h0 : Moves M s0 s) : Moves M s0 (applyDmaFree f s) := by
  refine Moves.via (N := [.regs]) ?_ hw h0
  clear hw h0
  have hK := Moves.refl [.regs] s
  unfold applyDmaFree
  iterate 60 all_goals first
    | with_reducible assumption
    | ((with_reducible apply setRegN_moves (hw := ?w)); case w => rfl)
    | ((with_reducible apply setDmaState_moves (hw := ?w)); case w => rfl)
    | ((with_reducible apply setFld_moves (hw := ?w)); case w => rfl)
    | with_reducible apply Moves.foldl
    | intro _
    | dsimp only
    | split

theorem execDmaStart_moves (q : Req) (c : Fin 32) {s s' : State} (h : execDmaStart q c s = .next s') : Moves [.regs, .ans, .dma] s s' := by
  unfold execDmaStart at h
  have hK := Moves.refl [.regs, .ans, .dma] s
  all_goals injection h with h
  all_goals subst h
  iterate 60 all_goals first
    | with_reducible assumption
    | ((with_reducible apply guarded_moves (hw := ?w)); case w => rfl)
    | ((with_reducible apply dmaStart_moves (hw := ?w)); case w => rfl)
    | intro _
    | dsimp only
    | split

theorem dmaStop_moves (c : Nat) {M : List Part} {s0 s : State} (hw : inMask [.freeIdx, .regs, .mem, .ans, .dma] M = true) (h0 : Moves M s0 s) : Moves M s0 (dmaStop c s) := by
  refine Moves.via (N := [.freeIdx, .regs, .mem, .ans, .dma]) ?_ hw h0
  clear hw h0
  have hK := Moves.refl [.freeIdx, .regs, .mem, .ans, .dma] s
  unfold dmaStop
  iterate 60 all_goals first
    | with_reducible assumption
    | ((with_reducible apply answer_moves (hw := ?w)); case w => rfl)
    | ((with_reducible apply endRun_moves (hw := ?w)); case w => rfl)
    | intro _
    | dsimp only
    | split

theorem execDmaStop_moves (q : Req) (c : Fin 32) {s s' : State} (h : execDmaStop q c s = .next s') : Moves [.freeIdx, .regs, .mem, .ans, .dma] s s' := by
  unfold execDmaStop at h
  have hK := Moves.refl [.freeIdx, .regs, .mem, .ans, .dma] s
  all_goals injection h with h
  all_goals subst h
  iterate 60 all_goals first
    | with_reducible assumption
    | ((with_reducible apply guarded_moves (hw := ?w)); case w => rfl)
    | ((with_reducible apply dmaStop_moves (hw := ?w)); case w => rfl)
    | intro _
    | dsimp only
    | split

theorem execDmaMove_moves (c : Fin 32) {s s' : State} (h : execDmaMove c s = .next s') : Moves [.dma] s s' := by
  unfold execDmaMove at h
  have hK := Moves.refl [.dma] s
  all_goals injection h with h
  all_goals subst h
  iterate 60 all_goals first
    | with_reducible assumption
    | ((with_reducible apply beginMove_moves (hw := ?w)); case w => rfl)
    | intro _
    | dsimp only
    | split

theorem execDmaLoop_moves (c : Fin 32) {s s' : State} (h : execDmaLoop c s = .next s') : Moves [.regs, .dma] s s' := by
  unfold execDmaLoop at h
  have hK := Moves.refl [.regs, .dma] s
  all_goals injection h with h
  all_goals subst h
  iterate 60 all_goals first
    | with_reducible assumption
    | ((with_reducible apply onOpcode_moves (hw := ?w)); case w => rfl)
    | ((with_reducible apply dmaNext_moves (hw := ?w)); case w => rfl)
    | ((with_reducible apply setDmaRun_moves (hw := ?w)); case w => rfl)
    | intro _
    | dsimp only
    | split

theorem execDmaWait_moves (c : Fin 32) {s s' : State} (h : execDmaWait c s = .next s') : Moves [.regs, .dma] s s' := by
  unfold execDmaWait at h
  have hK := Moves.refl [.regs, .dma] s
  all_goals injection h with h
  all_goals subst h
  iterate 60 all_goals first
    | with_reducible assumption
    | ((with_reducible apply onOpcode_moves (hw := ?w)); case w => rfl)
    | ((with_reducible apply setDmaState_moves (hw := ?w)); case w => rfl)
    | ((with_reducible apply setDmaRun_moves (hw := ?w)); case w => rfl)
    | intro _
    | dsimp only
    | split

theorem execDmaWaitPoll_moves (c : Fin 32) {s s' : State} (h : execDmaWaitPoll c s = .next s') : Moves [.freeIdx, .regs, .mem, .flt, .hbm, .dma] s s' := by
  unfold execDmaWaitPoll at h
  have hK := Moves.refl [.freeIdx, .regs, .mem, .flt, .hbm, .dma] s
  all_goals injection h with h
  all_goals subst h
  iterate 60 all_goals first
    | with_reducible assumption
    | ((with_reducible apply readHook_moves (hw := ?w)); case w => rfl)
    | ((with_reducible apply endRun_moves (hw := ?w)); case w => rfl)
    | ((with_reducible apply dmaNext_moves (hw := ?w)); case w => rfl)
    | intro _
    | dsimp only
    | split

theorem execDmaWaitTimeout_moves (c : Fin 32) {s s' : State} (h : execDmaWaitTimeout c s = .next s') : Moves [.freeIdx, .regs, .mem, .dma] s s' := by
  unfold execDmaWaitTimeout at h
  have hK := Moves.refl [.freeIdx, .regs, .mem, .dma] s
  all_goals injection h with h
  all_goals subst h
  iterate 60 all_goals first
    | with_reducible assumption
    | ((with_reducible apply endRun_moves (hw := ?w)); case w => rfl)
    | intro _
    | dsimp only
    | split

theorem execDmaSignal_moves (c : Fin 32) {s s' : State} (h : execDmaSignal c s = .next s') : Moves [.freeIdx, .regs, .mem, .net, .hbm, .sch, .dma] s s' := by
  unfold execDmaSignal at h
  have hK := Moves.refl [.freeIdx, .regs, .mem, .net, .hbm, .sch, .dma] s
  all_goals injection h with h
  all_goals subst h
  iterate 60 all_goals first
    | with_reducible assumption
    | ((with_reducible apply onOpcode_moves (hw := ?w)); case w => rfl)
    | ((with_reducible apply dmaSignal_moves (hw := ?w)); case w => rfl)
    | intro _
    | dsimp only
    | split

theorem execDmaEnd_moves (c : Fin 32) {s s' : State} (h : execDmaEnd c s = .next s') : Moves [.freeIdx, .regs, .mem, .dma] s s' := by
  unfold execDmaEnd at h
  have hK := Moves.refl [.freeIdx, .regs, .mem, .dma] s
  all_goals injection h with h
  all_goals subst h
  iterate 60 all_goals first
    | with_reducible assumption
    | ((with_reducible apply onOpcode_moves (hw := ?w)); case w => rfl)
    | ((with_reducible apply endRun_moves (hw := ?w)); case w => rfl)
    | intro _
    | dsimp only
    | split

theorem execDmaNop_moves (c : Fin 32) {s s' : State} (h : execDmaNop c s = .next s') : Moves [.regs, .dma] s s' := by
  unfold execDmaNop at h
  have hK := Moves.refl [.regs, .dma] s
  all_goals injection h with h
  all_goals subst h
  iterate 60 all_goals first
    | with_reducible assumption
    | ((with_reducible apply onOpcode_moves (hw := ?w)); case w => rfl)
    | ((with_reducible apply dmaNext_moves (hw := ?w)); case w => rfl)
    | intro _
    | dsimp only
    | split

theorem execDmaBurstGrant_moves (spent : List Nat) (copies : Copies) {s s' : State} (h : execDmaBurstGrant spent copies s = .next s') : Moves [.freeIdx, .regs, .mem, .flt, .hbm, .dma] s s' := by
  unfold execDmaBurstGrant at h
  have hK := Moves.refl [.freeIdx, .regs, .mem, .flt, .hbm, .dma] s
  all_goals injection h with h
  all_goals subst h
  iterate 60 all_goals first
    | with_reducible assumption
    | ((with_reducible apply copiesRun_moves (hw := ?w)); case w => rfl)
    | ((with_reducible apply burstGrant_moves (hw := ?w)); case w => rfl)
    | intro _
    | dsimp only
    | split

theorem execDmaWriteAnswer_moves (c : Fin 32) (beat : Nat) (ok : Bool) {s s' : State} (h : execDmaWriteAnswer c beat ok s = .next s') : Moves [.freeIdx, .regs, .mem, .dma] s s' := by
  unfold execDmaWriteAnswer at h
  have hK := Moves.refl [.freeIdx, .regs, .mem, .dma] s
  all_goals injection h with h
  all_goals subst h
  iterate 60 all_goals first
    | with_reducible assumption
    | ((with_reducible apply writeAnswer_moves (hw := ?w)); case w => rfl)
    | intro _
    | dsimp only
    | split

theorem execDmaReadError_moves (c : Fin 32) {s s' : State} (h : execDmaReadError c s = .next s') : Moves [.freeIdx, .regs, .mem, .dma] s s' := by
  unfold execDmaReadError at h
  have hK := Moves.refl [.freeIdx, .regs, .mem, .dma] s
  all_goals injection h with h
  all_goals subst h
  iterate 60 all_goals first
    | with_reducible assumption
    | ((with_reducible apply beginMove_moves (hw := ?w)); case w => rfl)
    | ((with_reducible apply endRun_moves (hw := ?w)); case w => rfl)
    | intro _
    | dsimp only
    | split

theorem execDmaCompletionRecord_moves (c : Fin 32) {s s' : State} (h : execDmaCompletionRecord c s = .next s') : Moves [.regs, .mem, .hbm, .dma] s s' := by
  unfold execDmaCompletionRecord at h
  have hK := Moves.refl [.regs, .mem, .hbm, .dma] s
  all_goals injection h with h
  all_goals subst h
  iterate 60 all_goals first
    | with_reducible assumption
    | ((with_reducible apply writeRecord_moves (hw := ?w)); case w => rfl)
    | intro _
    | dsimp only
    | split

theorem cqRdWrite_moves (value : Word) {M : List Part} {s0 s : State} (hw : inMask [.regs, .shadowS, .shadowF, .mem, .ans, .hbm, .dma] M = true) (h0 : Moves M s0 s) : Moves M s0 (cqRdWrite value s) := by
  refine Moves.via (N := [.regs, .shadowS, .shadowF, .mem, .ans, .hbm, .dma]) ?_ hw h0
  clear hw h0
  have hK := Moves.refl [.regs, .shadowS, .shadowF, .mem, .ans, .hbm, .dma] s
  unfold cqRdWrite
  iterate 60 all_goals first
    | with_reducible assumption
    | ((with_reducible apply answer_moves (hw := ?w)); case w => rfl)
    | ((with_reducible apply accept_moves (hw := ?w)); case w => rfl)
    | ((with_reducible apply releaseHeld_moves (hw := ?w)); case w => rfl)
    | ((with_reducible apply setBit_moves (hw := ?w)); case w => rfl)
    | intro _
    | dsimp only
    | split

theorem execDmaCqRdWrite_moves (q : Req) (value : Word) {s s' : State} (h : execDmaCqRdWrite q value s = .next s') : Moves [.regs, .shadowS, .shadowF, .mem, .ans, .hbm, .dma] s s' := by
  unfold execDmaCqRdWrite at h
  have hK := Moves.refl [.regs, .shadowS, .shadowF, .mem, .ans, .hbm, .dma] s
  all_goals injection h with h
  all_goals subst h
  iterate 60 all_goals first
    | with_reducible assumption
    | ((with_reducible apply guarded_moves (hw := ?w)); case w => rfl)
    | ((with_reducible apply cqRdWrite_moves (hw := ?w)); case w => rfl)
    | intro _
    | dsimp only
    | split

theorem execDmaEngineFault_moves (c : Fin 32) {s s' : State} (h : execDmaEngineFault c s = .next s') : Moves [.regs, .flt, .dma] s s' := by
  unfold execDmaEngineFault at h
  have hK := Moves.refl [.regs, .flt, .dma] s
  all_goals injection h with h
  all_goals subst h
  iterate 60 all_goals first
    | with_reducible assumption
    | ((with_reducible apply engineFault_moves (hw := ?w)); case w => rfl)
    | intro _
    | dsimp only
    | split

end Sys2Proof.Laws
end

