-- ==== Sys2Proof/Laws/MovesSource.lean ====
section
/-! SUPPORT. What the operations of Machine/Source.lean may change of the state, and that they keep what no operation breaks. -/

namespace Sys2Proof.Laws

open Sys2Proof Sys2Proof.Machine

theorem modSrc_moves (c : Nat) (f : SrcCh → SrcCh) {M : List Part} {s0 s : State} (hw : inMask [.src] M = true) (h0 : Moves M s0 s) : Moves M s0 (modSrc c f s) := by
  refine Moves.via (N := [.src]) ?_ hw h0
  clear hw h0
  have hK := Moves.refl [.src] s
  unfold modSrc
  iterate 60 all_goals first
    | with_reducible assumption
    | intro _
    | dsimp only
    | split
    | ((with_reducible apply Moves.update) <;> first | (with_reducible exact Or.inl rfl) | exact Or.inr (by decide) | skip)

theorem moveOrigin_moves (c : Nat) {M : List Part} {s0 s : State} (hw : inMask [.src] M = true) (h0 : Moves M s0 s) : Moves M s0 (moveOrigin c s) := by
  refine Moves.via (N := [.src]) ?_ hw h0
  clear hw h0
  have hK := Moves.refl [.src] s
  unfold moveOrigin
  iterate 60 all_goals first
    | with_reducible assumption
    | ((with_reducible apply modSrc_moves (hw := ?w)); case w => rfl)
    | intro _
    | dsimp only
    | split

theorem showList_moves (c code : Nat) (entry : Option Nat) {M : List Part} {s0 s : State} (hw : inMask [.regs] M = true) (h0 : Moves M s0 s) : Moves M s0 (showList c code entry s) := by
  refine Moves.via (N := [.regs]) ?_ hw h0
  clear hw h0
  have hK := Moves.refl [.regs] s
  unfold showList
  iterate 60 all_goals first
    | with_reducible assumption
    | ((with_reducible apply setFld_moves (hw := ?w)); case w => rfl)
    | intro _
    | dsimp only
    | split

theorem comeTo_moves (c i v : Nat) {M : List Part} {s0 s : State} (hw : inMask [.regs, .src] M = true) (h0 : Moves M s0 s) : Moves M s0 (comeTo c i v s) := by
  refine Moves.via (N := [.regs, .src]) ?_ hw h0
  clear hw h0
  have hK := Moves.refl [.regs, .src] s
  unfold comeTo
  iterate 60 all_goals first
    | with_reducible assumption
    | ((with_reducible apply showList_moves (hw := ?w)); case w => rfl)
    | ((with_reducible apply modSrc_moves (hw := ?w)); case w => rfl)
    | intro _
    | dsimp only
    | split

theorem entryTrigger_moves (c v : Nat) (e : PlEntry) (rep : Nat) {M : List Part} {s0 s : State} (hw : inMask [.trg] M = true) (h0 : Moves M s0 s) : Moves M s0 (entryTrigger c v e rep s) := by
  refine Moves.via (N := [.trg]) ?_ hw h0
  clear hw h0
  have hK := Moves.refl [.trg] s
  unfold entryTrigger
  iterate 60 all_goals first
    | with_reducible assumption
    | ((with_reducible apply postDirect_moves (hw := ?w)); case w => rfl)
    | intro _
    | dsimp only
    | split

theorem entryAdvance_moves (c v : Nat) (e : PlEntry) {M : List Part} {s0 s : State} (hw : inMask [.regs, .src] M = true) (h0 : Moves M s0 s) : Moves M s0 (entryAdvance c v e s) := by
  refine Moves.via (N := [.regs, .src]) ?_ hw h0
  clear hw h0
  have hK := Moves.refl [.regs, .src] s
  unfold entryAdvance
  iterate 60 all_goals first
    | with_reducible assumption
    | ((with_reducible apply modSrc_moves (hw := ?w)); case w => rfl)
    | ((with_reducible apply comeTo_moves (hw := ?w)); case w => rfl)
    | intro _
    | dsimp only
    | split

theorem sourceValue_moves (c v : Nat) {M : List Part} {s0 s : State} (hw : inMask [.regs, .trg, .src] M = true) (h0 : Moves M s0 s) : Moves M s0 (sourceValue c v s).2.2 := by
  refine Moves.via (N := [.regs, .trg, .src]) ?_ hw h0
  clear hw h0
  have hK := Moves.refl [.regs, .trg, .src] s
  unfold sourceValue
  iterate 60 all_goals first
    | with_reducible assumption
    | ((with_reducible apply modSrc_moves (hw := ?w)); case w => rfl)
    | ((with_reducible apply entryTrigger_moves (hw := ?w)); case w => rfl)
    | ((with_reducible apply entryAdvance_moves (hw := ?w)); case w => rfl)
    | intro _
    | dsimp only
    | split
theorem sourceValue_movesE {c v : Nat} {w0 w1} {M : List Part} {s0 s s' : State} (hE : sourceValue c v s = (w0, w1, s')) (hw : inMask [.regs, .trg, .src] M = true) (h0 : Moves M s0 s) : Moves M s0 s' := by
  have k := sourceValue_moves (hw := hw) (h0 := h0) (c := c) (v := v)
  rw [hE] at k
  exact k

theorem sourceVector_moves (c : Nat) (overload : Bool) {M : List Part} {s0 s : State} (hw : inMask [.freeIdx, .regs, .flt, .trg, .src] M = true) (h0 : Moves M s0 s) : Moves M s0 (sourceVector c overload s) := by
  refine Moves.via (N := [.freeIdx, .regs, .flt, .trg, .src]) ?_ hw h0
  clear hw h0
  have hK := Moves.refl [.freeIdx, .regs, .flt, .trg, .src] s
  unfold sourceVector
  iterate 60 all_goals first
    | with_reducible assumption
    | ((with_reducible apply sourceValue_movesE (hE := by assumption) (hw := ?w)); case w => rfl)
    | ((with_reducible apply sourceValue_moves (hw := ?w)); case w => rfl)
    | ((with_reducible apply moveOrigin_moves (hw := ?w)); case w => rfl)
    | ((with_reducible apply freeNat_movesE (hE := by assumption) (hw := ?w)); case w => rfl)
    | ((with_reducible apply freeNat_moves (hw := ?w)); case w => rfl)
    | ((with_reducible apply modSrc_moves (hw := ?w)); case w => rfl)
    | ((with_reducible apply orReg_moves (hw := ?w)); case w => rfl)
    | ((with_reducible apply incSat_moves (hw := ?w)); case w => rfl)
    | ((with_reducible apply setBit_moves (hw := ?w)); case w => rfl)
    | ((with_reducible apply raise_moves (hw := ?w)); case w => rfl)
    | intro _
    | dsimp only
    | split

theorem applyFreq_moves (c : Nat) {M : List Part} {s0 s : State} (hw : inMask [.src] M = true) (h0 : Moves M s0 s) : Moves M s0 (applyFreq c s) := by
  refine Moves.via (N := [.src]) ?_ hw h0
  clear hw h0
  have hK := Moves.refl [.src] s
  unfold applyFreq
  iterate 60 all_goals first
    | with_reducible assumption
    | ((with_reducible apply modSrc_moves (hw := ?w)); case w => rfl)
    | with_reducible apply Moves.foldl
    | intro _
    | dsimp only
    | split

theorem applyPhase_moves (c : Nat) {M : List Part} {s0 s : State} (hw : inMask [.src] M = true) (h0 : Moves M s0 s) : Moves M s0 (applyPhase c s) := by
  refine Moves.via (N := [.src]) ?_ hw h0
  clear hw h0
  have hK := Moves.refl [.src] s
  unfold applyPhase
  iterate 60 all_goals first
    | with_reducible assumption
    | ((with_reducible apply modSrc_moves (hw := ?w)); case w => rfl)
    | with_reducible apply Moves.foldl
    | intro _
    | dsimp only
    | split

theorem crossBoundary_moves (g : Nat) {M : List Part} {s0 s : State} (hw : inMask [.regs, .shadowF, .mea, .src] M = true) (h0 : Moves M s0 s) : Moves M s0 (crossBoundary g s) := by
  refine Moves.via (N := [.regs, .shadowF, .mea, .src]) ?_ hw h0
  clear hw h0
  have hK := Moves.refl [.regs, .shadowF, .mea, .src] s
  unfold crossBoundary
  iterate 60 all_goals first
    | with_reducible assumption
    | ((with_reducible apply applyShadows_moves (hw := ?w)); case w => rfl)
    | ((with_reducible apply startFade_moves (hw := ?w)); case w => rfl)
    | ((with_reducible apply applyFreq_moves (hw := ?w)); case w => rfl)
    | ((with_reducible apply showFades_moves (hw := ?w)); case w => rfl)
    | with_reducible apply Moves.foldl
    | intro _
    | dsimp only
    | split
    | ((with_reducible apply Moves.update) <;> first | (with_reducible exact Or.inl rfl) | exact Or.inr (by decide) | skip)

theorem passBoundary_moves (g f : Nat) {M : List Part} {s0 s : State} (hw : inMask [.regs, .shadowF, .links, .mea, .src] M = true) (h0 : Moves M s0 s) : Moves M s0 (passBoundary g f s) := by
  refine Moves.via (N := [.regs, .shadowF, .links, .mea, .src]) ?_ hw h0
  clear hw h0
  have hK := Moves.refl [.regs, .shadowF, .links, .mea, .src] s
  unfold passBoundary
  iterate 60 all_goals first
    | with_reducible assumption
    | ((with_reducible apply modLink_moves (hw := ?w)); case w => rfl)
    | ((with_reducible apply crossBoundary_moves (hw := ?w)); case w => rfl)
    | intro _
    | dsimp only
    | split

theorem reportList_moves (c : Nat) {M : List Part} {s0 s : State} (hw : inMask [.regs] M = true) (h0 : Moves M s0 s) : Moves M s0 (reportList c s) := by
  refine Moves.via (N := [.regs]) ?_ hw h0
  clear hw h0
  have hK := Moves.refl [.regs] s
  unfold reportList
  iterate 60 all_goals first
    | with_reducible assumption
    | ((with_reducible apply orReg_moves (hw := ?w)); case w => rfl)
    | ((with_reducible apply setFld_moves (hw := ?w)); case w => rfl)
    | intro _
    | dsimp only
    | split

theorem startSource_moves (c : Nat) {M : List Part} {s0 s : State} (hw : inMask [.regs, .src] M = true) (h0 : Moves M s0 s) : Moves M s0 (startSource c s) := by
  refine Moves.via (N := [.regs, .src]) ?_ hw h0
  clear hw h0
  have hK := Moves.refl [.regs, .src] s
  unfold startSource
  iterate 60 all_goals first
    | with_reducible assumption
    | ((with_reducible apply applyPhase_moves (hw := ?w)); case w => rfl)
    | ((with_reducible apply applyFreq_moves (hw := ?w)); case w => rfl)
    | ((with_reducible apply modSrc_moves (hw := ?w)); case w => rfl)
    | ((with_reducible apply setRegN_moves (hw := ?w)); case w => rfl)
    | ((with_reducible apply comeTo_moves (hw := ?w)); case w => rfl)
    | ((with_reducible apply showList_moves (hw := ?w)); case w => rfl)
    | intro _
    | dsimp only
    | split

theorem askOrigin_moves (t c : Nat) {M : List Part} {s0 s : State} (hw : inMask [.src] M = true) (h0 : Moves M s0 s) : Moves M s0 (askOrigin t c s) := by
  refine Moves.via (N := [.src]) ?_ hw h0
  clear hw h0
  have hK := Moves.refl [.src] s
  unfold askOrigin
  iterate 60 all_goals first
    | with_reducible assumption
    | ((with_reducible apply modSrc_moves (hw := ?w)); case w => rfl)
    | intro _
    | dsimp only
    | split

theorem syncSet_moves (k t : Nat) {M : List Part} {s0 s : State} (hw : inMask [.regs, .mea, .src] M = true) (h0 : Moves M s0 s) : Moves M s0 (syncSet k t s) := by
  refine Moves.via (N := [.regs, .mea, .src]) ?_ hw h0
  clear hw h0
  have hK := Moves.refl [.regs, .mea, .src] s
  unfold syncSet
  iterate 60 all_goals first
    | with_reducible assumption
    | ((with_reducible apply askReset_moves (hw := ?w)); case w => rfl)
    | ((with_reducible apply orReg_moves (hw := ?w)); case w => rfl)
    | ((with_reducible apply askOrigin_moves (hw := ?w)); case w => rfl)
    | with_reducible apply Moves.foldl
    | intro _
    | dsimp only
    | split

theorem execSourceVector_moves (c : Fin 512) (overload : Bool) (copies : Copies) {s s' : State} (h : execSourceVector c overload copies s = .next s') : Moves [.freeIdx, .regs, .shadowF, .flt, .links, .trg, .mea, .src] s s' := by
  unfold execSourceVector at h
  have hK := Moves.refl [.freeIdx, .regs, .shadowF, .flt, .links, .trg, .mea, .src] s
  dsimp only at h
  repeat' split at h
  all_goals injection h with h
  all_goals subst h
  iterate 60 all_goals first
    | with_reducible assumption
    | ((with_reducible apply passBoundary_moves (hw := ?w)); case w => rfl)
    | ((with_reducible apply copiesRun_moves (hw := ?w)); case w => rfl)
    | ((with_reducible apply sourceVector_moves (hw := ?w)); case w => rfl)
    | intro _
    | dsimp only
    | split

theorem execPlaylistWaitRelease_moves (c : Fin 512) {s s' : State} (h : execPlaylistWaitRelease c s = .next s') : Moves [.regs, .src] s s' := by
  unfold execPlaylistWaitRelease at h
  have hK := Moves.refl [.regs, .src] s
  dsimp only at h
  repeat' split at h
  all_goals injection h with h
  all_goals subst h
  iterate 60 all_goals first
    | with_reducible assumption
    | ((with_reducible apply showList_moves (hw := ?w)); case w => rfl)
    | ((with_reducible apply modSrc_moves (hw := ?w)); case w => rfl)
    | intro _
    | dsimp only
    | split

theorem freqWrite_moves (value : Word) {M : List Part} {s0 s : State} (hw : inMask [.ans, .src] M = true) (h0 : Moves M s0 s) : Moves M s0 (freqWrite value s) := by
  refine Moves.via (N := [.ans, .src]) ?_ hw h0
  clear hw h0
  have hK := Moves.refl [.ans, .src] s
  unfold freqWrite
  iterate 60 all_goals first
    | with_reducible assumption
    | ((with_reducible apply answer_moves (hw := ?w)); case w => rfl)
    | ((with_reducible apply modSrc_moves (hw := ?w)); case w => rfl)
    | intro _
    | dsimp only
    | split

theorem execNcoFreqWrite_moves (q : Req) (value : Word) {s s' : State} (h : execNcoFreqWrite q value s = .next s') : Moves [.ans, .src] s s' := by
  unfold execNcoFreqWrite at h
  have hK := Moves.refl [.ans, .src] s
  all_goals injection h with h
  all_goals subst h
  iterate 60 all_goals first
    | with_reducible assumption
    | ((with_reducible apply guarded_moves (hw := ?w)); case w => rfl)
    | ((with_reducible apply freqWrite_moves (hw := ?w)); case w => rfl)
    | intro _
    | dsimp only
    | split

end Sys2Proof.Laws
end

