-- ==== Sys2Proof/Laws/MovesLineAct.lean ====
section
/-! SUPPORT. What the operations of Machine/LineAct.lean may change of the state, and that they keep what no operation breaks. -/

namespace Sys2Proof.Laws

open Sys2Proof Sys2Proof.Machine

theorem sampleContext_moves (l e c : Nat) {M : List Part} {s0 s : State} (hw : inMask [.seq] M = true) (h0 : Moves M s0 s) : Moves M s0 (sampleContext l e s c) := by
  refine Moves.via (N := [.seq]) ?_ hw h0
  clear hw h0
  have hK := Moves.refl [.seq] s
  unfold sampleContext
  iterate 60 all_goals first
    | with_reducible assumption
    | ((with_reducible apply modCtx_moves (hw := ?w)); case w => rfl)
    | intro _
    | dsimp only
    | split

theorem sampleSource_moves (l e c : Nat) {M : List Part} {s0 s : State} (hw : inMask [.src] M = true) (h0 : Moves M s0 s) : Moves M s0 (sampleSource l e s c) := by
  refine Moves.via (N := [.src]) ?_ hw h0
  clear hw h0
  have hK := Moves.refl [.src] s
  unfold sampleSource
  iterate 60 all_goals first
    | with_reducible assumption
    | ((with_reducible apply modSrc_moves (hw := ?w)); case w => rfl)
    | intro _
    | dsimp only
    | split

theorem sampleLine_moves (l e : Nat) {M : List Part} {s0 s : State} (hw : inMask [.seq, .src] M = true) (h0 : Moves M s0 s) : Moves M s0 (sampleLine l e s) := by
  refine Moves.via (N := [.seq, .src]) ?_ hw h0
  clear hw h0
  have hK := Moves.refl [.seq, .src] s
  unfold sampleLine
  iterate 60 all_goals first
    | with_reducible assumption
    | ((with_reducible apply sampleContext_moves (hw := ?w)); case w => rfl)
    | ((with_reducible apply sampleSource_moves (hw := ?w)); case w => rfl)
    | with_reducible apply Moves.foldl
    | intro _
    | dsimp only
    | split

theorem sendQt_moves (l t k : Nat) {M : List Part} {s0 s : State} (hw : inMask [.regs, .qdr] M = true) (h0 : Moves M s0 s) : Moves M s0 (sendQt l t s k) := by
  refine Moves.via (N := [.regs, .qdr]) ?_ hw h0
  clear hw h0
  have hK := Moves.refl [.regs, .qdr] s
  unfold sendQt
  iterate 60 all_goals first
    | with_reducible assumption
    | ((with_reducible apply incWrap_moves (hw := ?w)); case w => rfl)
    | intro _
    | dsimp only
    | split
    | ((with_reducible apply Moves.update) <;> first | (with_reducible exact Or.inl rfl) | exact Or.inr (by decide) | skip)

theorem syncByLine_moves (l t : Nat) {M : List Part} {s0 s : State} (hw : inMask [.regs, .mea, .src] M = true) (h0 : Moves M s0 s) : Moves M s0 (syncByLine l t s) := by
  refine Moves.via (N := [.regs, .mea, .src]) ?_ hw h0
  clear hw h0
  have hK := Moves.refl [.regs, .mea, .src] s
  unfold syncByLine
  iterate 60 all_goals first
    | with_reducible assumption
    | ((with_reducible apply syncSet_moves (hw := ?w)); case w => rfl)
    | with_reducible apply Moves.foldl
    | intro _
    | dsimp only
    | split

theorem lineActs_moves (l t : Nat) {M : List Part} {s0 s : State} (hw : inMask [.regs, .seq, .trg, .acq, .mea, .src, .qdr, .dma] M = true) (h0 : Moves M s0 s) : Moves M s0 (lineActs l t s) := by
  refine Moves.via (N := [.regs, .seq, .trg, .acq, .mea, .src, .qdr, .dma]) ?_ hw h0
  clear hw h0
  have hK := Moves.refl [.regs, .seq, .trg, .acq, .mea, .src, .qdr, .dma] s
  unfold lineActs
  iterate 60 all_goals first
    | with_reducible assumption
    | ((with_reducible apply incWrap_moves (hw := ?w)); case w => rfl)
    | ((with_reducible apply setRegN_moves (hw := ?w)); case w => rfl)
    | ((with_reducible apply sampleLine_moves (hw := ?w)); case w => rfl)
    | ((with_reducible apply syncByLine_moves (hw := ?w)); case w => rfl)
    | ((with_reducible apply acqTrigger_moves (hw := ?w)); case w => rfl)
    | ((with_reducible apply sendQt_moves (hw := ?w)); case w => rfl)
    | ((with_reducible apply dmaLineAct_moves (hw := ?w)); case w => rfl)
    | with_reducible apply Moves.foldl
    | intro _
    | dsimp only
    | split
    | ((with_reducible apply Moves.update) <;> first | (with_reducible exact Or.inl rfl) | exact Or.inr (by decide) | skip)

theorem lineAct_moves (l t : Nat) {M : List Part} {s0 s : State} (hw : inMask [.regs, .seq, .trg, .acq, .mea, .src, .qdr, .dma] M = true) (h0 : Moves M s0 s) : Moves M s0 (lineAct l t s) := by
  refine Moves.via (N := [.regs, .seq, .trg, .acq, .mea, .src, .qdr, .dma]) ?_ hw h0
  clear hw h0
  have hK := Moves.refl [.regs, .seq, .trg, .acq, .mea, .src, .qdr, .dma] s
  unfold lineAct
  iterate 60 all_goals first
    | with_reducible assumption
    | ((with_reducible apply orReg_moves (hw := ?w)); case w => rfl)
    | ((with_reducible apply incWrap_moves (hw := ?w)); case w => rfl)
    | ((with_reducible apply lineActs_moves (hw := ?w)); case w => rfl)
    | intro _
    | dsimp only
    | split
    | ((with_reducible apply Moves.update) <;> first | (with_reducible exact Or.inl rfl) | exact Or.inr (by decide) | skip)

theorem execLineAct_moves (l : Fin 64) (t : Nat) (copies : Copies) {s s' : State} (h : execLineAct l t copies s = .next s') : Moves [.regs, .flt, .seq, .trg, .acq, .mea, .src, .qdr, .dma] s s' := by
  unfold execLineAct at h
  have hK := Moves.refl [.regs, .flt, .seq, .trg, .acq, .mea, .src, .qdr, .dma] s
  all_goals injection h with h
  all_goals subst h
  iterate 60 all_goals first
    | with_reducible assumption
    | ((with_reducible apply copiesRun_moves (hw := ?w)); case w => rfl)
    | ((with_reducible apply lineAct_moves (hw := ?w)); case w => rfl)
    | intro _
    | dsimp only
    | split

theorem execBeatEdgeLineSample_moves (l : Fin 64) {s s' : State} (h : execBeatEdgeLineSample l s = .next s') : Moves [.seq, .src] s s' := by
  unfold execBeatEdgeLineSample at h
  have hK := Moves.refl [.seq, .src] s
  all_goals injection h with h
  all_goals subst h
  iterate 60 all_goals first
    | with_reducible assumption
    | ((with_reducible apply sampleLine_moves (hw := ?w)); case w => rfl)
    | intro _
    | dsimp only
    | split

end Sys2Proof.Laws
end

