-- ==== Sys2Proof/Laws/MovesCompare.lean ====
section
/-! SUPPORT. What the operations of Machine/Compare.lean may change of the state, and that they keep what no operation breaks. -/

namespace Sys2Proof.Laws

open Sys2Proof Sys2Proof.Machine

theorem fillBucket_moves (t : Nat) {M : List Part} {s0 s : State} (hw : inMask [.cmp] M = true) (h0 : Moves M s0 s) : Moves M s0 (fillBucket t s) := by
  refine Moves.via (N := [.cmp]) ?_ hw h0
  clear hw h0
  have hK := Moves.refl [.cmp] s
  unfold fillBucket
  iterate 60 all_goals first
    | with_reducible assumption
    | intro _
    | dsimp only
    | split
    | ((with_reducible apply Moves.update) <;> first | (with_reducible exact Or.inl rfl) | exact Or.inr (by decide) | skip)

theorem showLogFull_moves {M : List Part} {s0 s : State} (hw : inMask [.regs] M = true) (h0 : Moves M s0 s) : Moves M s0 (showLogFull s) := by
  refine Moves.via (N := [.regs]) ?_ hw h0
  clear hw h0
  have hK := Moves.refl [.regs] s
  unfold showLogFull
  iterate 60 all_goals first
    | with_reducible assumption
    | ((with_reducible apply setBit_moves (hw := ?w)); case w => rfl)
    | intro _
    | dsimp only
    | split

theorem logUnit_moves (t : Nat) (u : FailUnit) {M : List Part} {s0 s : State} (hw : inMask [.regs, .mem, .flt, .cmp, .hbm] M = true) (h0 : Moves M s0 s) : Moves M s0 (logUnit t u s) := by
  refine Moves.via (N := [.regs, .mem, .flt, .cmp, .hbm]) ?_ hw h0
  clear hw h0
  have hK := Moves.refl [.regs, .mem, .flt, .cmp, .hbm] s
  unfold logUnit
  iterate 60 all_goals first
    | with_reducible assumption
    | ((with_reducible apply incWrap_moves (hw := ?w)); case w => rfl)
    | ((with_reducible apply raise_moves (hw := ?w)); case w => rfl)
    | ((with_reducible apply orReg_moves (hw := ?w)); case w => rfl)
    | ((with_reducible apply setBit_moves (hw := ?w)); case w => rfl)
    | ((with_reducible apply fillBucket_moves (hw := ?w)); case w => rfl)
    | ((with_reducible apply setBytes_moves (hw := ?w)); case w => rfl)
    | ((with_reducible apply showLogFull_moves (hw := ?w)); case w => rfl)
    | ((with_reducible apply setRegN_moves (hw := ?w)); case w => rfl)
    | intro _
    | dsimp only
    | split
    | ((with_reducible apply Moves.update) <;> first | exact Or.inr (by decide) | (with_reducible exact Or.inl rfl) | skip)

theorem firstFail_moves (n v groups : Nat) (u : FailUnit) {M : List Part} {s0 s : State} (hw : inMask [.regs] M = true) (h0 : Moves M s0 s) : Moves M s0 (firstFail n v groups u s) := by
  refine Moves.via (N := [.regs]) ?_ hw h0
  clear hw h0
  have hK := Moves.refl [.regs] s
  unfold firstFail
  iterate 60 all_goals first
    | with_reducible assumption
    | ((with_reducible apply setRegs_moves (hw := ?w)); case w => rfl)
    | intro _
    | dsimp only
    | split

theorem judgeGroup_moves (n g v : Nat) (f : SentFrame) {M : List Part} {s0 s : State} (hw : inMask [.regs, .cmp] M = true) (h0 : Moves M s0 s) : Moves M s0 (judgeGroup n g v f s).2.2 := by
  refine Moves.via (N := [.regs, .cmp]) ?_ hw h0
  clear hw h0
  have hK := Moves.refl [.regs, .cmp] s
  unfold judgeGroup
  iterate 60 all_goals first
    | with_reducible assumption
    | ((with_reducible apply orReg_moves (hw := ?w)); case w => rfl)
    | ((with_reducible apply incSat_moves (hw := ?w)); case w => rfl)
    | intro _
    | dsimp only
    | split
    | ((with_reducible apply Moves.update) <;> first | (with_reducible exact Or.inl rfl) | exact Or.inr (by decide) | skip)
theorem judgeGroup_movesE {n g v : Nat} {f : SentFrame} {w0 w1} {M : List Part} {s0 s s' : State} (hE : judgeGroup n g v f s = (w0, w1, s')) (hw : inMask [.regs, .cmp] M = true) (h0 : Moves M s0 s) : Moves M s0 s' := by
  have k := judgeGroup_moves (hw := hw) (h0 := h0) (n := n) (g := g) (v := v) (f := f)
  rw [hE] at k
  exact k

theorem judgeGroups_moves (n f v : Nat) (x0 : List Nat) {M : List Part} {s0 s : State} (hw : inMask [.regs, .cmp] M = true) (h0 : Moves M s0 s) : Moves M s0 (judgeGroups n f v x0 s).2 := by
  refine Moves.via (N := [.regs, .cmp]) ?_ hw h0
  clear hw h0
  induction x0 generalizing n f v s with
  | nil =>
    have hK := Moves.refl [.regs, .cmp] s
    unfold judgeGroups
    iterate 60 all_goals first
      | with_reducible assumption
      | ((with_reducible apply judgeGroup_movesE (hE := by assumption) (hw := ?w)); case w => rfl)
      | ((with_reducible apply judgeGroup_moves (hw := ?w)); case w => rfl)
      | intro _
      | dsimp only
      | split
  | cons x xs ih =>
    have hK := Moves.refl [.regs, .cmp] s
    unfold judgeGroups
    iterate 60 all_goals first
      | with_reducible assumption
      | ((with_reducible apply judgeGroup_movesE (hE := by assumption) (hw := ?w)); case w => rfl)
      | ((with_reducible apply judgeGroup_moves (hw := ?w)); case w => rfl)
      | with_reducible refine Moves.trans ?_ (Moves.of2 ‹judgeGroups _ _ _ _ _ = _› (ih ..))
      | with_reducible refine Moves.trans ?_ (ih ..)
      | intro _
      | dsimp only
      | split
theorem judgeGroups_movesE {n f v : Nat} {x0 : List Nat} {w0} {M : List Part} {s0 s s' : State} (hE : judgeGroups n f v x0 s = (w0, s')) (hw : inMask [.regs, .cmp] M = true) (h0 : Moves M s0 s) : Moves M s0 s' := by
  have k := judgeGroups_moves (hw := hw) (h0 := h0) (n := n) (f := f) (v := v) (x0 := x0)
  rw [hE] at k
  exact k

theorem countChannels_moves (u : FailUnit) {M : List Part} {s0 s : State} (hw : inMask [.regs] M = true) (h0 : Moves M s0 s) : Moves M s0 (countChannels u s) := by
  refine Moves.via (N := [.regs]) ?_ hw h0
  clear hw h0
  have hK := Moves.refl [.regs] s
  unfold countChannels
  iterate 60 all_goals first
    | with_reducible assumption
    | ((with_reducible apply incSat_moves (hw := ?w)); case w => rfl)
    | with_reducible apply Moves.foldl
    | intro _
    | dsimp only
    | split

theorem deliverFails_moves (c i v t : Nat) (us : List FailUnit) {M : List Part} {s0 s : State} (hw : inMask [.regs, .mem, .flt, .seq, .cmp, .hbm] M = true) (h0 : Moves M s0 s) : Moves M s0 (deliverFails c i v t us s) := by
  refine Moves.via (N := [.regs, .mem, .flt, .seq, .cmp, .hbm]) ?_ hw h0
  clear hw h0
  have hK := Moves.refl [.regs, .mem, .flt, .seq, .cmp, .hbm] s
  unfold deliverFails
  iterate 60 all_goals first
    | with_reducible assumption
    | ((with_reducible apply firstFail_moves (hw := ?w)); case w => rfl)
    | ((with_reducible apply incSat_moves (hw := ?w)); case w => rfl)
    | ((with_reducible apply setBit_moves (hw := ?w)); case w => rfl)
    | ((with_reducible apply countChannels_moves (hw := ?w)); case w => rfl)
    | ((with_reducible apply modCtx_moves (hw := ?w)); case w => rfl)
    | ((with_reducible apply logUnit_moves (hw := ?w)); case w => rfl)
    | with_reducible apply Moves.foldl
    | intro _
    | dsimp only
    | split

theorem judgeSite_moves (c f v : Nat) (gs : List Nat) (i : Nat) {M : List Part} {s0 s : State} (hw : inMask [.regs, .mem, .flt, .seq, .cmp, .hbm] M = true) (h0 : Moves M s0 s) : Moves M s0 (judgeSite c f v gs s i) := by
  refine Moves.via (N := [.regs, .mem, .flt, .seq, .cmp, .hbm]) ?_ hw h0
  clear hw h0
  have hK := Moves.refl [.regs, .mem, .flt, .seq, .cmp, .hbm] s
  unfold judgeSite
  iterate 60 all_goals first
    | with_reducible assumption
    | ((with_reducible apply judgeGroups_movesE (hE := by assumption) (hw := ?w)); case w => rfl)
    | ((with_reducible apply judgeGroups_moves (hw := ?w)); case w => rfl)
    | ((with_reducible apply deliverFails_moves (hw := ?w)); case w => rfl)
    | ((with_reducible apply incSat_moves (hw := ?w)); case w => rfl)
    | intro _
    | dsimp only
    | split

theorem judgeVector_moves (c f : Nat) (gs : List Nat) (v : Nat) {M : List Part} {s0 s : State} (hw : inMask [.regs, .mem, .flt, .seq, .cmp, .hbm] M = true) (h0 : Moves M s0 s) : Moves M s0 (judgeVector c f gs s v) := by
  refine Moves.via (N := [.regs, .mem, .flt, .seq, .cmp, .hbm]) ?_ hw h0
  clear hw h0
  have hK := Moves.refl [.regs, .mem, .flt, .seq, .cmp, .hbm] s
  unfold judgeVector
  iterate 60 all_goals first
    | with_reducible assumption
    | ((with_reducible apply judgeSite_moves (hw := ?w)); case w => rfl)
    | with_reducible apply Moves.foldl
    | intro _
    | dsimp only
    | split

theorem assertFail_moves (code f n : Nat) {M : List Part} {s0 s : State} (hw : inMask [.trg] M = true) (h0 : Moves M s0 s) : Moves M s0 (assertFail code f n s) := by
  refine Moves.via (N := [.trg]) ?_ hw h0
  clear hw h0
  have hK := Moves.refl [.trg] s
  unfold assertFail
  iterate 60 all_goals first
    | with_reducible assumption
    | ((with_reducible apply assertSrc_moves (hw := ?w)); case w => rfl)
    | intro _
    | dsimp only
    | split

theorem assertFails_moves (c f : Nat) {M : List Part} {s0 s : State} (hw : inMask [.trg] M = true) (h0 : Moves M s0 s) : Moves M s0 (assertFails c f s) := by
  refine Moves.via (N := [.trg]) ?_ hw h0
  clear hw h0
  have hK := Moves.refl [.trg] s
  unfold assertFails
  iterate 60 all_goals first
    | with_reducible assumption
    | ((with_reducible apply assertFail_moves (hw := ?w)); case w => rfl)
    | with_reducible apply Moves.foldl
    | intro _
    | dsimp only
    | split

theorem rawVector_moves (c f v : Nat) {M : List Part} {s0 s : State} (hw : inMask [.regs, .mem, .hbm] M = true) (h0 : Moves M s0 s) : Moves M s0 (rawVector c f s v) := by
  refine Moves.via (N := [.regs, .mem, .hbm]) ?_ hw h0
  clear hw h0
  have hK := Moves.refl [.regs, .mem, .hbm] s
  unfold rawVector
  iterate 60 all_goals first
    | with_reducible assumption
    | ((with_reducible apply orReg_moves (hw := ?w)); case w => rfl)
    | ((with_reducible apply incWrap_moves (hw := ?w)); case w => rfl)
    | ((with_reducible apply setBytes_moves (hw := ?w)); case w => rfl)
    | intro _
    | dsimp only
    | split

theorem rawFrame_moves (c f vecs : Nat) (valid : Bool) {M : List Part} {s0 s : State} (hw : inMask [.regs, .mem, .hbm] M = true) (h0 : Moves M s0 s) : Moves M s0 (rawFrame c f vecs valid s) := by
  refine Moves.via (N := [.regs, .mem, .hbm]) ?_ hw h0
  clear hw h0
  have hK := Moves.refl [.regs, .mem, .hbm] s
  unfold rawFrame
  iterate 60 all_goals first
    | with_reducible assumption
    | ((with_reducible apply rawVector_moves (hw := ?w)); case w => rfl)
    | ((with_reducible apply incWrap_moves (hw := ?w)); case w => rfl)
    | with_reducible apply Moves.foldl
    | intro _
    | dsimp only
    | split

theorem judgeFrame_moves (c f : Nat) {M : List Part} {s0 s : State} (hw : inMask [.regs, .mem, .flt, .seq, .cmp, .trg, .hbm] M = true) (h0 : Moves M s0 s) : Moves M s0 (judgeFrame c f s) := by
  refine Moves.via (N := [.regs, .mem, .flt, .seq, .cmp, .trg, .hbm]) ?_ hw h0
  clear hw h0
  have hK := Moves.refl [.regs, .mem, .flt, .seq, .cmp, .trg, .hbm] s
  unfold judgeFrame
  iterate 60 all_goals first
    | with_reducible assumption
    | ((with_reducible apply assertFails_moves (hw := ?w)); case w => rfl)
    | ((with_reducible apply judgeVector_moves (hw := ?w)); case w => rfl)
    | ((with_reducible apply rawFrame_moves (hw := ?w)); case w => rfl)
    | ((with_reducible apply resolveFrame_moves (hw := ?w)); case w => rfl)
    | with_reducible apply Moves.foldl
    | intro _
    | dsimp only
    | split
    | ((with_reducible apply Moves.update) <;> first | (with_reducible exact Or.inl rfl) | exact Or.inr (by decide) | skip)

theorem frameJudged_moves (c f : Nat) {M : List Part} {s0 s : State} (hw : inMask [.links] M = true) (h0 : Moves M s0 s) : Moves M s0 (frameJudged c f s) := by
  refine Moves.via (N := [.links]) ?_ hw h0
  clear hw h0
  have hK := Moves.refl [.links] s
  unfold frameJudged
  iterate 60 all_goals first
    | with_reducible assumption
    | ((with_reducible apply modLink_moves (hw := ?w)); case w => rfl)
    | with_reducible apply Moves.foldl
    | intro _
    | dsimp only
    | split

theorem judgeReady_moves (g f : Nat) {M : List Part} {s0 s : State} (hw : inMask [.regs, .mem, .flt, .seq, .links, .cmp, .trg, .hbm] M = true) (h0 : Moves M s0 s) : Moves M s0 (judgeReady g f s) := by
  refine Moves.via (N := [.regs, .mem, .flt, .seq, .links, .cmp, .trg, .hbm]) ?_ hw h0
  clear hw h0
  have hK := Moves.refl [.regs, .mem, .flt, .seq, .links, .cmp, .trg, .hbm] s
  unfold judgeReady
  iterate 60 all_goals first
    | with_reducible assumption
    | ((with_reducible apply frameJudged_moves (hw := ?w)); case w => rfl)
    | ((with_reducible apply judgeFrame_moves (hw := ?w)); case w => rfl)
    | with_reducible apply Moves.foldl
    | intro _
    | dsimp only
    | split

theorem startCompare_moves {M : List Part} {s0 s : State} (hw : inMask [.regs, .cmp] M = true) (h0 : Moves M s0 s) : Moves M s0 (startCompare s) := by
  refine Moves.via (N := [.regs, .cmp]) ?_ hw h0
  clear hw h0
  have hK := Moves.refl [.regs, .cmp] s
  unfold startCompare
  iterate 60 all_goals first
    | with_reducible assumption
    | ((with_reducible apply setBit_moves (hw := ?w)); case w => rfl)
    | intro _
    | dsimp only
    | split
    | ((with_reducible apply Moves.update) <;> first | (with_reducible exact Or.inl rfl) | exact Or.inr (by decide) | skip)

theorem clearSite_moves (n : Nat) {M : List Part} {s0 s : State} (hw : inMask [.regs] M = true) (h0 : Moves M s0 s) : Moves M s0 (clearSite n s) := by
  refine Moves.via (N := [.regs]) ?_ hw h0
  clear hw h0
  have hK := Moves.refl [.regs] s
  unfold clearSite
  iterate 60 all_goals first
    | with_reducible assumption
    | ((with_reducible apply setBit_moves (hw := ?w)); case w => rfl)
    | ((with_reducible apply setRegN_moves (hw := ?w)); case w => rfl)
    | with_reducible apply Moves.foldl
    | intro _
    | dsimp only
    | split

theorem startContextCompare_moves (c : Nat) {M : List Part} {s0 s : State} (hw : inMask [.regs, .mem, .hbm] M = true) (h0 : Moves M s0 s) : Moves M s0 (startContextCompare c s) := by
  refine Moves.via (N := [.regs, .mem, .hbm]) ?_ hw h0
  clear hw h0
  have hK := Moves.refl [.regs, .mem, .hbm] s
  unfold startContextCompare
  iterate 60 all_goals first
    | with_reducible assumption
    | ((with_reducible apply clearSite_moves (hw := ?w)); case w => rfl)
    | ((with_reducible apply setRegN_moves (hw := ?w)); case w => rfl)
    | ((with_reducible apply setBytes_moves (hw := ?w)); case w => rfl)
    | with_reducible apply Moves.foldl
    | intro _
    | dsimp only
    | split

theorem showLogRate_moves {M : List Part} {s0 s : State} (hw : inMask [.regs] M = true) (h0 : Moves M s0 s) : Moves M s0 (showLogRate s) := by
  refine Moves.via (N := [.regs]) ?_ hw h0
  clear hw h0
  have hK := Moves.refl [.regs] s
  unfold showLogRate
  iterate 60 all_goals first
    | with_reducible assumption
    | ((with_reducible apply setRegN_moves (hw := ?w)); case w => rfl)
    | intro _
    | dsimp only
    | split

theorem logRdWrite_moves (value : Word) {M : List Part} {s0 s : State} (hw : inMask [.regs, .shadowS, .shadowF, .ans] M = true) (h0 : Moves M s0 s) : Moves M s0 (logRdWrite value s) := by
  refine Moves.via (N := [.regs, .shadowS, .shadowF, .ans]) ?_ hw h0
  clear hw h0
  have hK := Moves.refl [.regs, .shadowS, .shadowF, .ans] s
  unfold logRdWrite
  iterate 60 all_goals first
    | with_reducible assumption
    | ((with_reducible apply answer_moves (hw := ?w)); case w => rfl)
    | ((with_reducible apply showLogFull_moves (hw := ?w)); case w => rfl)
    | ((with_reducible apply accept_moves (hw := ?w)); case w => rfl)
    | intro _
    | dsimp only
    | split

theorem logConfigWrite_moves (which : Fin 3) (value : Word) {M : List Part} {s0 s : State} (hw : inMask [.regs, .shadowS, .shadowF, .ans] M = true) (h0 : Moves M s0 s) : Moves M s0 (logConfigWrite which value s) := by
  refine Moves.via (N := [.regs, .shadowS, .shadowF, .ans]) ?_ hw h0
  clear hw h0
  have hK := Moves.refl [.regs, .shadowS, .shadowF, .ans] s
  unfold logConfigWrite
  iterate 60 all_goals first
    | with_reducible assumption
    | ((with_reducible apply refuseIf_moves (hw := ?w)); case w => rfl)
    | ((with_reducible apply showLogFull_moves (hw := ?w)); case w => rfl)
    | ((with_reducible apply setRegN_moves (hw := ?w)); case w => rfl)
    | ((with_reducible apply accept_moves (hw := ?w)); case w => rfl)
    | intro _
    | dsimp only
    | split

theorem failInject_moves (value : Word) {M : List Part} {s0 s : State} (hw : inMask [.ans, .cmp] M = true) (h0 : Moves M s0 s) : Moves M s0 (failInject value s) := by
  refine Moves.via (N := [.ans, .cmp]) ?_ hw h0
  clear hw h0
  have hK := Moves.refl [.ans, .cmp] s
  unfold failInject
  iterate 60 all_goals first
    | with_reducible assumption
    | ((with_reducible apply answer_moves (hw := ?w)); case w => rfl)
    | intro _
    | dsimp only
    | split
    | ((with_reducible apply Moves.update) <;> first | (with_reducible exact Or.inl rfl) | exact Or.inr (by decide) | skip)

theorem execCmpLogRdWrite_moves (q : Req) (value : Word) {s s' : State} (h : execCmpLogRdWrite q value s = .next s') : Moves [.regs, .shadowS, .shadowF, .ans] s s' := by
  unfold execCmpLogRdWrite at h
  have hK := Moves.refl [.regs, .shadowS, .shadowF, .ans] s
  all_goals injection h with h
  all_goals subst h
  iterate 60 all_goals first
    | with_reducible assumption
    | ((with_reducible apply guarded_moves (hw := ?w)); case w => rfl)
    | ((with_reducible apply logRdWrite_moves (hw := ?w)); case w => rfl)
    | intro _
    | dsimp only
    | split

theorem execCmpLogConfigWrite_moves (q : Req) (which : Fin 3) (value : Word) {s s' : State} (h : execCmpLogConfigWrite q which value s = .next s') : Moves [.regs, .shadowS, .shadowF, .ans] s s' := by
  unfold execCmpLogConfigWrite at h
  have hK := Moves.refl [.regs, .shadowS, .shadowF, .ans] s
  all_goals injection h with h
  all_goals subst h
  iterate 60 all_goals first
    | with_reducible assumption
    | ((with_reducible apply guarded_moves (hw := ?w)); case w => rfl)
    | ((with_reducible apply logConfigWrite_moves (hw := ?w)); case w => rfl)
    | intro _
    | dsimp only
    | split

theorem execFailInject_moves (q : Req) (value : Word) {s s' : State} (h : execFailInject q value s = .next s') : Moves [.ans, .cmp] s s' := by
  unfold execFailInject at h
  have hK := Moves.refl [.ans, .cmp] s
  all_goals injection h with h
  all_goals subst h
  iterate 60 all_goals first
    | with_reducible assumption
    | ((with_reducible apply guarded_moves (hw := ?w)); case w => rfl)
    | ((with_reducible apply failInject_moves (hw := ?w)); case w => rfl)
    | intro _
    | dsimp only
    | split

end Sys2Proof.Laws
end

