-- ==== Sys2Proof/Laws/MovesKct.lean ====
section
/-! SUPPORT. What the operations of Machine/Kct.lean may change of the state, and that they keep what no operation breaks. -/

namespace Sys2Proof.Laws

open Sys2Proof Sys2Proof.Machine

theorem modSess_moves (k : Nat) (f : Session → Session) {M : List Part} {s0 s : State} (hw : inMask [.net] M = true) (h0 : Moves M s0 s) : Moves M s0 (modSess k f s) := by
  refine Moves.via (N := [.net]) ?_ hw h0
  clear hw h0
  have hK := Moves.refl [.net] s
  unfold modSess
  iterate 60 all_goals first
    | with_reducible assumption
    | intro _
    | dsimp only
    | split
    | ((with_reducible apply Moves.update) <;> first | (with_reducible exact Or.inl rfl) | exact Or.inr (by decide) | skip)

theorem showSess_moves (k : Nat) {M : List Part} {s0 s : State} (hw : inMask [.regs] M = true) (h0 : Moves M s0 s) : Moves M s0 (showSess k s) := by
  refine Moves.via (N := [.regs]) ?_ hw h0
  clear hw h0
  have hK := Moves.refl [.regs] s
  unfold showSess
  iterate 60 all_goals first
    | with_reducible assumption
    | ((with_reducible apply setRegN_moves (hw := ?w)); case w => rfl)
    | intro _
    | dsimp only
    | split

theorem showOwner_moves {M : List Part} {s0 s : State} (hw : inMask [.regs] M = true) (h0 : Moves M s0 s) : Moves M s0 (showOwner s) := by
  refine Moves.via (N := [.regs]) ?_ hw h0
  clear hw h0
  have hK := Moves.refl [.regs] s
  unfold showOwner
  iterate 60 all_goals first
    | with_reducible assumption
    | ((with_reducible apply showSess_moves (hw := ?w)); case w => rfl)
    | ((with_reducible apply setBit_moves (hw := ?w)); case w => rfl)
    | ((with_reducible apply setRegN_moves (hw := ?w)); case w => rfl)
    | with_reducible apply Moves.foldl
    | intro _
    | dsimp only
    | split

theorem sendMsg_moves (k : Nat) (epoch : Word) (b : OutBody) {M : List Part} {s0 s : State} (hw : inMask [.regs, .net] M = true) (h0 : Moves M s0 s) : Moves M s0 (sendMsg k epoch b s) := by
  refine Moves.via (N := [.regs, .net]) ?_ hw h0
  clear hw h0
  have hK := Moves.refl [.regs, .net] s
  unfold sendMsg
  iterate 60 all_goals first
    | with_reducible assumption
    | ((with_reducible apply incWrap_moves (hw := ?w)); case w => rfl)
    | ((with_reducible apply modSess_moves (hw := ?w)); case w => rfl)
    | intro _
    | dsimp only
    | split

theorem sendWaiting_moves (k x0 : Nat) {M : List Part} {s0 s : State} (hw : inMask [.regs, .net] M = true) (h0 : Moves M s0 s) : Moves M s0 (sendWaiting k x0 s) := by
  refine Moves.via (N := [.regs, .net]) ?_ hw h0
  clear hw h0
  induction x0 generalizing k s with
  | zero =>
    have hK := Moves.refl [.regs, .net] s
    unfold sendWaiting
    iterate 60 all_goals first
      | with_reducible assumption
      | ((with_reducible apply incWrap_moves (hw := ?w)); case w => rfl)
      | ((with_reducible apply modSess_moves (hw := ?w)); case w => rfl)
      | intro _
      | dsimp only
      | split
  | succ n ih =>
    have hK := Moves.refl [.regs, .net] s
    unfold sendWaiting
    iterate 60 all_goals first
      | with_reducible assumption
      | ((with_reducible apply incWrap_moves (hw := ?w)); case w => rfl)
      | ((with_reducible apply modSess_moves (hw := ?w)); case w => rfl)
      | with_reducible refine Moves.trans ?_ (ih ..)
      | intro _
      | dsimp only
      | split

theorem respond_moves (k : Nat) (r : Resp) (cached : Bool) {M : List Part} {s0 s : State} (hw : inMask [.regs, .net] M = true) (h0 : Moves M s0 s) : Moves M s0 (respond k r cached s) := by
  refine Moves.via (N := [.regs, .net]) ?_ hw h0
  clear hw h0
  have hK := Moves.refl [.regs, .net] s
  unfold respond
  iterate 60 all_goals first
    | with_reducible assumption
    | ((with_reducible apply modSess_moves (hw := ?w)); case w => rfl)
    | ((with_reducible apply sendMsg_moves (hw := ?w)); case w => rfl)
    | intro _
    | dsimp only
    | split

theorem finishOpen_moves (k : OpenKind) (code : Nat) {M : List Part} {s0 s : State} (hw : inMask [.regs, .ans, .net] M = true) (h0 : Moves M s0 s) : Moves M s0 (finishOpen k code s) := by
  refine Moves.via (N := [.regs, .ans, .net]) ?_ hw h0
  clear hw h0
  have hK := Moves.refl [.regs, .ans, .net] s
  unfold finishOpen
  iterate 60 all_goals first
    | with_reducible assumption
    | ((with_reducible apply answer_moves (hw := ?w)); case w => rfl)
    | ((with_reducible apply respond_moves (hw := ?w)); case w => rfl)
    | intro _
    | dsimp only
    | split
    | ((with_reducible apply Moves.update) <;> first | (with_reducible exact Or.inl rfl) | exact Or.inr (by decide) | skip)

theorem finishAll_moves (k : OpenKind) (code x0 : Nat) {M : List Part} {s0 s : State} (hw : inMask [.regs, .ans, .net] M = true) (h0 : Moves M s0 s) : Moves M s0 (finishAll k code x0 s) := by
  refine Moves.via (N := [.regs, .ans, .net]) ?_ hw h0
  clear hw h0
  induction x0 generalizing k code s with
  | zero =>
    have hK := Moves.refl [.regs, .ans, .net] s
    unfold finishAll
    iterate 60 all_goals first
      | with_reducible assumption
      | ((with_reducible apply finishOpen_moves (hw := ?w)); case w => rfl)
      | intro _
      | dsimp only
      | split
  | succ n ih =>
    have hK := Moves.refl [.regs, .ans, .net] s
    unfold finishAll
    iterate 60 all_goals first
      | with_reducible assumption
      | ((with_reducible apply finishOpen_moves (hw := ?w)); case w => rfl)
      | with_reducible refine Moves.trans ?_ (ih ..)
      | intro _
      | dsimp only
      | split

theorem finishCommits_moves (g : Nat) {M : List Part} {s0 s : State} (hw : inMask [.regs, .ans, .net] M = true) (h0 : Moves M s0 s) : Moves M s0 (finishCommits g s) := by
  refine Moves.via (N := [.regs, .ans, .net]) ?_ hw h0
  clear hw h0
  have hK := Moves.refl [.regs, .ans, .net] s
  unfold finishCommits
  iterate 60 all_goals first
    | with_reducible assumption
    | ((with_reducible apply finishAll_moves (hw := ?w)); case w => rfl)
    | intro _
    | dsimp only
    | split

theorem pushTelemetry_moves (ws : List Word) {M : List Part} {s0 s : State} (hw : inMask [.regs, .net] M = true) (h0 : Moves M s0 s) : Moves M s0 (pushTelemetry ws s) := by
  refine Moves.via (N := [.regs, .net]) ?_ hw h0
  clear hw h0
  have hK := Moves.refl [.regs, .net] s
  unfold pushTelemetry
  iterate 60 all_goals first
    | with_reducible assumption
    | ((with_reducible apply incWrap_moves (hw := ?w)); case w => rfl)
    | intro _
    | dsimp only
    | split
    | ((with_reducible apply Moves.update) <;> first | (with_reducible exact Or.inl rfl) | exact Or.inr (by decide) | skip)

end Sys2Proof.Laws
end

