-- ==== Sys2Proof/Laws/MovesEnvelope.lean ====
section
/-! SUPPORT. What the operations of Machine/Envelope.lean may change of the state, and that they keep what no operation breaks. -/

namespace Sys2Proof.Laws

open Sys2Proof Sys2Proof.Machine

theorem reportAdmit_moves (p : Nat × Nat) (reason : Nat) {M : List Part} {s0 s : State} (hw : inMask [.regs] M = true) (h0 : Moves M s0 s) : Moves M s0 (reportAdmit p reason s) := by
  refine Moves.via (N := [.regs]) ?_ hw h0
  clear hw h0
  have hK := Moves.refl [.regs] s
  unfold reportAdmit
  iterate 60 all_goals first
    | with_reducible assumption
    | ((with_reducible apply setRegN_moves (hw := ?w)); case w => rfl)
    | ((with_reducible apply orReg_moves (hw := ?w)); case w => rfl)
    | intro _
    | dsimp only
    | split

theorem galopOverrun_moves {M : List Part} {s0 s : State} (hw : inMask [.regs, .flt, .pwr] M = true) (h0 : Moves M s0 s) : Moves M s0 (galopOverrun s) := by
  refine Moves.via (N := [.regs, .flt, .pwr]) ?_ hw h0
  clear hw h0
  have hK := Moves.refl [.regs, .flt, .pwr] s
  unfold galopOverrun
  iterate 60 all_goals first
    | with_reducible assumption
    | ((with_reducible apply raise_moves (hw := ?w)); case w => rfl)
    | ((with_reducible apply orReg_moves (hw := ?w)); case w => rfl)
    | ((with_reducible apply incSat_moves (hw := ?w)); case w => rfl)
    | intro _
    | dsimp only
    | split
    | ((with_reducible apply Moves.update) <;> first | (with_reducible exact Or.inl rfl) | exact Or.inr (by decide) | skip)

theorem hotFields_moves (tj : List Int) (out : List Nat) {M : List Part} {s0 s : State} (hw : inMask [.freeIdx] M = true) (h0 : Moves M s0 s) : Moves M s0 (hotFields tj out s).2 := by
  refine Moves.via (N := [.freeIdx]) ?_ hw h0
  clear hw h0
  have hK := Moves.refl [.freeIdx] s
  unfold hotFields
  iterate 60 all_goals first
    | with_reducible assumption
    | ((with_reducible apply freeNat_movesE (hE := by assumption) (hw := ?w)); case w => rfl)
    | ((with_reducible apply freeNat_moves (hw := ?w)); case w => rfl)
    | intro _
    | dsimp only
    | split
theorem hotFields_movesE {tj : List Int} {out : List Nat} {w0} {M : List Part} {s0 s s' : State} (hE : hotFields tj out s = (w0, s')) (hw : inMask [.freeIdx] M = true) (h0 : Moves M s0 s) : Moves M s0 s' := by
  have k := hotFields_moves (hw := hw) (h0 := h0) (tj := tj) (out := out)
  rw [hE] at k
  exact k

theorem slackFields_moves {M : List Part} {s0 s : State} (hw : inMask [.freeIdx] M = true) (h0 : Moves M s0 s) : Moves M s0 (slackFields s).2 := by
  refine Moves.via (N := [.freeIdx]) ?_ hw h0
  clear hw h0
  have hK := Moves.refl [.freeIdx] s
  unfold slackFields
  iterate 60 all_goals first
    | with_reducible assumption
    | ((with_reducible apply freeNat_movesE (hE := by assumption) (hw := ?w)); case w => rfl)
    | ((with_reducible apply freeNat_moves (hw := ?w)); case w => rfl)
    | intro _
    | dsimp only
    | split
theorem slackFields_movesE {w0} {M : List Part} {s0 s s' : State} (hE : slackFields s = (w0, s')) (hw : inMask [.freeIdx] M = true) (h0 : Moves M s0 s) : Moves M s0 s' := by
  have k := slackFields_moves (hw := hw) (h0 := h0) 
  rw [hE] at k
  exact k

theorem thermalLimits_moves (old new id : Nat) {M : List Part} {s0 s : State} (hw : inMask [.regs, .flt] M = true) (h0 : Moves M s0 s) : Moves M s0 (thermalLimits old new id s) := by
  refine Moves.via (N := [.regs, .flt]) ?_ hw h0
  clear hw h0
  have hK := Moves.refl [.regs, .flt] s
  unfold thermalLimits
  iterate 60 all_goals first
    | with_reducible assumption
    | ((with_reducible apply orReg_moves (hw := ?w)); case w => rfl)
    | ((with_reducible apply raise_moves (hw := ?w)); case w => rfl)
    | intro _
    | dsimp only
    | split

theorem telemetrySample_moves (o : SensorObs) {M : List Part} {s0 s : State} (hw : inMask [.freeIdx, .regs, .net, .flt, .tb] M = true) (h0 : Moves M s0 s) : Moves M s0 (telemetrySample o s) := by
  refine Moves.via (N := [.freeIdx, .regs, .net, .flt, .tb]) ?_ hw h0
  clear hw h0
  have hK := Moves.refl [.freeIdx, .regs, .net, .flt, .tb] s
  unfold telemetrySample
  iterate 60 all_goals first
    | with_reducible assumption
    | ((with_reducible apply raise_moves (hw := ?w)); case w => rfl)
    | ((with_reducible apply setRegN_moves (hw := ?w)); case w => rfl)
    | ((with_reducible apply setReg_moves (hw := ?w)); case w => rfl)
    | ((with_reducible apply hotFields_movesE (hE := by assumption) (hw := ?w)); case w => rfl)
    | ((with_reducible apply hotFields_moves (hw := ?w)); case w => rfl)
    | ((with_reducible apply thermalLimits_moves (hw := ?w)); case w => rfl)
    | ((with_reducible apply slackFields_movesE (hE := by assumption) (hw := ?w)); case w => rfl)
    | ((with_reducible apply slackFields_moves (hw := ?w)); case w => rfl)
    | ((with_reducible apply incWrap_moves (hw := ?w)); case w => rfl)
    | ((with_reducible apply setRegs_moves (hw := ?w)); case w => rfl)
    | ((with_reducible apply pushTelemetry_moves (hw := ?w)); case w => rfl)
    | with_reducible apply Moves.foldl
    | intro _
    | dsimp only
    | split
    | ((with_reducible apply Moves.update) <;> first | (with_reducible exact Or.inl rfl) | exact Or.inr (by decide) | skip)

theorem execTelemetrySample_moves (obs : SensorObs) {s s' : State} (h : execTelemetrySample obs s = .next s') : Moves [.freeIdx, .regs, .net, .flt, .tb] s s' := by
  unfold execTelemetrySample at h
  have hK := Moves.refl [.freeIdx, .regs, .net, .flt, .tb] s
  all_goals injection h with h
  all_goals subst h
  iterate 60 all_goals first
    | with_reducible assumption
    | ((with_reducible apply telemetrySample_moves (hw := ?w)); case w => rfl)
    | intro _
    | dsimp only
    | split

theorem execGalopOverrun_moves {s s' : State} (h : execGalopOverrun s = .next s') : Moves [.regs, .flt, .pwr] s s' := by
  unfold execGalopOverrun at h
  have hK := Moves.refl [.regs, .flt, .pwr] s
  all_goals injection h with h
  all_goals subst h
  iterate 60 all_goals first
    | with_reducible assumption
    | ((with_reducible apply galopOverrun_moves (hw := ?w)); case w => rfl)
    | intro _
    | dsimp only
    | split

end Sys2Proof.Laws
end

