-- ==== Sys2Proof/Laws/MovesPtp.lean ====
section
/-! SUPPORT. What the operations of Machine/Ptp.lean may change of the state, and that they keep what no operation breaks. -/

namespace Sys2Proof.Laws

open Sys2Proof Sys2Proof.Machine

theorem modDomain_moves (d : Nat) (f : Domain → Domain) {M : List Part} {s0 s : State} (hw : inMask [.ptp] M = true) (h0 : Moves M s0 s) : Moves M s0 (modDomain d f s) := by
  refine Moves.via (N := [.ptp]) ?_ hw h0
  clear hw h0
  have hK := Moves.refl [.ptp] s
  unfold modDomain
  iterate 60 all_goals first
    | with_reducible assumption
    | intro _
    | dsimp only
    | split
    | ((with_reducible apply Moves.update) <;> first | (with_reducible exact Or.inl rfl) | exact Or.inr (by decide) | skip)

theorem showSlew_moves {M : List Part} {s0 s : State} (hw : inMask [.freeIdx, .regs] M = true) (h0 : Moves M s0 s) : Moves M s0 (showSlew s) := by
  refine Moves.via (N := [.freeIdx, .regs]) ?_ hw h0
  clear hw h0
  have hK := Moves.refl [.freeIdx, .regs] s
  unfold showSlew
  iterate 60 all_goals first
    | with_reducible assumption
    | ((with_reducible apply setBit_moves (hw := ?w)); case w => rfl)
    | ((with_reducible apply setRegN_moves (hw := ?w)); case w => rfl)
    | ((with_reducible apply freeNat_movesE (hE := by assumption) (hw := ?w)); case w => rfl)
    | ((with_reducible apply freeNat_moves (hw := ?w)); case w => rfl)
    | intro _
    | dsimp only
    | split

theorem tickDomain_moves (d : Nat) {M : List Part} {s0 s : State} (hw : inMask [.regs, .ptp] M = true) (h0 : Moves M s0 s) : Moves M s0 (tickDomain d s) := by
  refine Moves.via (N := [.regs, .ptp]) ?_ hw h0
  clear hw h0
  have hK := Moves.refl [.regs, .ptp] s
  unfold tickDomain
  iterate 60 all_goals first
    | with_reducible assumption
    | ((with_reducible apply setBit_moves (hw := ?w)); case w => rfl)
    | ((with_reducible apply modDomain_moves (hw := ?w)); case w => rfl)
    | intro _
    | dsimp only
    | split
    | ((with_reducible apply Moves.update) <;> first | (with_reducible exact Or.inl rfl) | exact Or.inr (by decide) | skip)

theorem ptpTick_moves {M : List Part} {s0 s : State} (hw : inMask [.freeIdx, .regs, .ptp] M = true) (h0 : Moves M s0 s) : Moves M s0 (ptpTick s) := by
  refine Moves.via (N := [.freeIdx, .regs, .ptp]) ?_ hw h0
  clear hw h0
  have hK := Moves.refl [.freeIdx, .regs, .ptp] s
  unfold ptpTick
  iterate 60 all_goals first
    | with_reducible assumption
    | ((with_reducible apply tickDomain_moves (hw := ?w)); case w => rfl)
    | ((with_reducible apply showSlew_moves (hw := ?w)); case w => rfl)
    | intro _
    | dsimp only
    | split
    | ((with_reducible apply Moves.update) <;> first | (with_reducible exact Or.inl rfl) | exact Or.inr (by decide) | skip)

theorem ptpEvaluate_moves {M : List Part} {s0 s : State} (hw : inMask [.regs] M = true) (h0 : Moves M s0 s) : Moves M s0 (ptpEvaluate s) := by
  refine Moves.via (N := [.regs]) ?_ hw h0
  clear hw h0
  have hK := Moves.refl [.regs] s
  unfold ptpEvaluate
  iterate 60 all_goals first
    | with_reducible assumption
    | ((with_reducible apply setBit_moves (hw := ?w)); case w => rfl)
    | ((with_reducible apply orReg_moves (hw := ?w)); case w => rfl)
    | intro _
    | dsimp only
    | split

theorem stepRefused_moves {M : List Part} {s0 s : State} (hw : inMask [.regs, .ans, .flt] M = true) (h0 : Moves M s0 s) : Moves M s0 (stepRefused s) := by
  refine Moves.via (N := [.regs, .ans, .flt]) ?_ hw h0
  clear hw h0
  have hK := Moves.refl [.regs, .ans, .flt] s
  unfold stepRefused
  iterate 60 all_goals first
    | with_reducible assumption
    | ((with_reducible apply answer_moves (hw := ?w)); case w => rfl)
    | ((with_reducible apply raise_moves (hw := ?w)); case w => rfl)
    | ((with_reducible apply orReg_moves (hw := ?w)); case w => rfl)
    | intro _
    | dsimp only
    | split

theorem ptpStep_moves (d : Nat) {M : List Part} {s0 s : State} (hw : inMask [.regs, .ans, .flt, .ptp] M = true) (h0 : Moves M s0 s) : Moves M s0 (ptpStep d s) := by
  refine Moves.via (N := [.regs, .ans, .flt, .ptp]) ?_ hw h0
  clear hw h0
  have hK := Moves.refl [.regs, .ans, .flt, .ptp] s
  unfold ptpStep
  iterate 60 all_goals first
    | with_reducible assumption
    | ((with_reducible apply stepRefused_moves (hw := ?w)); case w => rfl)
    | ((with_reducible apply answer_moves (hw := ?w)); case w => rfl)
    | ((with_reducible apply modDomain_moves (hw := ?w)); case w => rfl)
    | intro _
    | dsimp only
    | split

theorem ptpSet_moves (d : Nat) {M : List Part} {s0 s : State} (hw : inMask [.regs, .ans, .flt, .ptp] M = true) (h0 : Moves M s0 s) : Moves M s0 (ptpSet d s) := by
  refine Moves.via (N := [.regs, .ans, .flt, .ptp]) ?_ hw h0
  clear hw h0
  have hK := Moves.refl [.regs, .ans, .flt, .ptp] s
  unfold ptpSet
  iterate 60 all_goals first
    | with_reducible assumption
    | ((with_reducible apply answer_moves (hw := ?w)); case w => rfl)
    | ((with_reducible apply stepRefused_moves (hw := ?w)); case w => rfl)
    | ((with_reducible apply modDomain_moves (hw := ?w)); case w => rfl)
    | intro _
    | dsimp only
    | split

theorem ptpInvalidate_moves (d : Nat) {M : List Part} {s0 s : State} (hw : inMask [.regs, .ans, .flt] M = true) (h0 : Moves M s0 s) : Moves M s0 (ptpInvalidate d s) := by
  refine Moves.via (N := [.regs, .ans, .flt]) ?_ hw h0
  clear hw h0
  have hK := Moves.refl [.regs, .ans, .flt] s
  unfold ptpInvalidate
  iterate 60 all_goals first
    | with_reducible assumption
    | ((with_reducible apply stepRefused_moves (hw := ?w)); case w => rfl)
    | ((with_reducible apply answer_moves (hw := ?w)); case w => rfl)
    | ((with_reducible apply setBit_moves (hw := ?w)); case w => rfl)
    | intro _
    | dsimp only
    | split

theorem incCommit_moves (d : Nat) (value : Word) {M : List Part} {s0 s : State} (hw : inMask [.regs, .shadowS, .shadowF, .ans, .ptp] M = true) (h0 : Moves M s0 s) : Moves M s0 (incCommit d value s) := by
  refine Moves.via (N := [.regs, .shadowS, .shadowF, .ans, .ptp]) ?_ hw h0
  clear hw h0
  have hK := Moves.refl [.regs, .shadowS, .shadowF, .ans, .ptp] s
  unfold incCommit
  iterate 60 all_goals first
    | with_reducible assumption
    | ((with_reducible apply answer_moves (hw := ?w)); case w => rfl)
    | ((with_reducible apply accept_moves (hw := ?w)); case w => rfl)
    | ((with_reducible apply modDomain_moves (hw := ?w)); case w => rfl)
    | intro _
    | dsimp only
    | split

theorem ptpCtrlWrite_moves (value : Word) {M : List Part} {s0 s : State} (hw : inMask [.freeIdx, .regs, .shadowS, .shadowF, .ans, .flt, .ptp] M = true) (h0 : Moves M s0 s) : Moves M s0 (ptpCtrlWrite value s) := by
  refine Moves.via (N := [.freeIdx, .regs, .shadowS, .shadowF, .ans, .flt, .ptp]) ?_ hw h0
  clear hw h0
  have hK := Moves.refl [.freeIdx, .regs, .shadowS, .shadowF, .ans, .flt, .ptp] s
  unfold ptpCtrlWrite
  iterate 60 all_goals first
    | with_reducible assumption
    | ((with_reducible apply accept_moves (hw := ?w)); case w => rfl)
    | ((with_reducible apply stepRefused_moves (hw := ?w)); case w => rfl)
    | ((with_reducible apply setFld_moves (hw := ?w)); case w => rfl)
    | ((with_reducible apply showSlew_moves (hw := ?w)); case w => rfl)
    | ((with_reducible apply orReg_moves (hw := ?w)); case w => rfl)
    | intro _
    | dsimp only
    | split
    | ((with_reducible apply Moves.update) <;> first | (with_reducible exact Or.inl rfl) | exact Or.inr (by decide) | skip)

theorem ptpSnap_moves {M : List Part} {s0 s : State} (hw : inMask [.regs, .ans, .ptp] M = true) (h0 : Moves M s0 s) : Moves M s0 (ptpSnap s) := by
  refine Moves.via (N := [.regs, .ans, .ptp]) ?_ hw h0
  clear hw h0
  have hK := Moves.refl [.regs, .ans, .ptp] s
  unfold ptpSnap
  iterate 60 all_goals first
    | with_reducible assumption
    | ((with_reducible apply setRegN_moves (hw := ?w)); case w => rfl)
    | ((with_reducible apply answer_moves (hw := ?w)); case w => rfl)
    | intro _
    | dsimp only
    | split
    | ((with_reducible apply Moves.update) <;> first | (with_reducible exact Or.inl rfl) | exact Or.inr (by decide) | skip)

theorem ptpReadTime_moves (which : Nat) {M : List Part} {s0 s : State} (hw : inMask [.regs] M = true) (h0 : Moves M s0 s) : Moves M s0 (ptpReadTime which s).2 := by
  refine Moves.via (N := [.regs]) ?_ hw h0
  clear hw h0
  have hK := Moves.refl [.regs] s
  unfold ptpReadTime
  iterate 60 all_goals first
    | with_reducible assumption
    | ((with_reducible apply setRegN_moves (hw := ?w)); case w => rfl)
    | intro _
    | dsimp only
    | split
theorem ptpReadTime_movesE {which : Nat} {w0} {M : List Part} {s0 s s' : State} (hE : ptpReadTime which s = (w0, s')) (hw : inMask [.regs] M = true) (h0 : Moves M s0 s) : Moves M s0 s' := by
  have k := ptpReadTime_moves (hw := hw) (h0 := h0) (which := which)
  rw [hE] at k
  exact k

theorem stampError_moves (ns : Nat) {M : List Part} {s0 s : State} (hw : inMask [.freeIdx] M = true) (h0 : Moves M s0 s) : Moves M s0 (stampError ns s).2 := by
  refine Moves.via (N := [.freeIdx]) ?_ hw h0
  clear hw h0
  have hK := Moves.refl [.freeIdx] s
  unfold stampError
  iterate 60 all_goals first
    | with_reducible assumption
    | ((with_reducible apply freeNat_movesE (hE := by assumption) (hw := ?w)); case w => rfl)
    | ((with_reducible apply freeNat_moves (hw := ?w)); case w => rfl)
    | intro _
    | dsimp only
    | split
theorem stampError_movesE {ns : Nat} {w0} {M : List Part} {s0 s s' : State} (hE : stampError ns s = (w0, s')) (hw : inMask [.freeIdx] M = true) (h0 : Moves M s0 s) : Moves M s0 s' := by
  have k := stampError_moves (hw := hw) (h0 := h0) (ns := ns)
  rw [hE] at k
  exact k

theorem ptpReceive_moves (p domain : Nat) (tagged : Bool) (frame : List Byte) {M : List Part} {s0 s : State} (hw : inMask [.freeIdx, .regs, .mem, .hbm] M = true) (h0 : Moves M s0 s) : Moves M s0 (ptpReceive p domain tagged frame s) := by
  refine Moves.via (N := [.freeIdx, .regs, .mem, .hbm]) ?_ hw h0
  clear hw h0
  have hK := Moves.refl [.freeIdx, .regs, .mem, .hbm] s
  unfold ptpReceive
  iterate 60 all_goals first
    | with_reducible assumption
    | ((with_reducible apply incSat_moves (hw := ?w)); case w => rfl)
    | ((with_reducible apply orReg_moves (hw := ?w)); case w => rfl)
    | ((with_reducible apply stampError_movesE (hE := by assumption) (hw := ?w)); case w => rfl)
    | ((with_reducible apply stampError_moves (hw := ?w)); case w => rfl)
    | ((with_reducible apply setRegN_moves (hw := ?w)); case w => rfl)
    | ((with_reducible apply setBytes_moves (hw := ?w)); case w => rfl)
    | intro _
    | dsimp only
    | split

theorem lqWrite_moves (p : Nat) (value : Word) {M : List Part} {s0 s : State} (hw : inMask [.regs, .shadowS, .shadowF, .ans] M = true) (h0 : Moves M s0 s) : Moves M s0 (lqWrite p value s) := by
  refine Moves.via (N := [.regs, .shadowS, .shadowF, .ans]) ?_ hw h0
  clear hw h0
  have hK := Moves.refl [.regs, .shadowS, .shadowF, .ans] s
  unfold lqWrite
  iterate 60 all_goals first
    | with_reducible assumption
    | ((with_reducible apply answer_moves (hw := ?w)); case w => rfl)
    | ((with_reducible apply accept_moves (hw := ?w)); case w => rfl)
    | intro _
    | dsimp only
    | split

theorem lqComplete_moves (p addr code : Nat) (egress : Option (Nat × Option Nat)) {M : List Part} {s0 s : State} (hw : inMask [.regs, .mem, .hbm] M = true) (h0 : Moves M s0 s) : Moves M s0 (lqComplete p addr code egress s) := by
  refine Moves.via (N := [.regs, .mem, .hbm]) ?_ hw h0
  clear hw h0
  have hK := Moves.refl [.regs, .mem, .hbm] s
  unfold lqComplete
  iterate 60 all_goals first
    | with_reducible assumption
    | ((with_reducible apply setMemN_moves (hw := ?w)); case w => rfl)
    | ((with_reducible apply setBytes_moves (hw := ?w)); case w => rfl)
    | ((with_reducible apply incWrap_moves (hw := ?w)); case w => rfl)
    | intro _
    | dsimp only
    | split

theorem launchSend_moves (p : Nat) {M : List Part} {s0 s : State} (hw : inMask [.freeIdx, .regs, .mem, .hbm] M = true) (h0 : Moves M s0 s) : Moves M s0 (launchSend p s) := by
  refine Moves.via (N := [.freeIdx, .regs, .mem, .hbm]) ?_ hw h0
  clear hw h0
  have hK := Moves.refl [.freeIdx, .regs, .mem, .hbm] s
  unfold launchSend
  iterate 60 all_goals first
    | with_reducible assumption
    | ((with_reducible apply lqComplete_moves (hw := ?w)); case w => rfl)
    | ((with_reducible apply orReg_moves (hw := ?w)); case w => rfl)
    | ((with_reducible apply incSat_moves (hw := ?w)); case w => rfl)
    | ((with_reducible apply stampError_movesE (hE := by assumption) (hw := ?w)); case w => rfl)
    | ((with_reducible apply stampError_moves (hw := ?w)); case w => rfl)
    | intro _
    | dsimp only
    | split

theorem execIncCommit_moves (q : Req) (d : Fin 2) (value : Word) {s s' : State} (h : execIncCommit q d value s = .next s') : Moves [.regs, .shadowS, .shadowF, .ans, .ptp] s s' := by
  unfold execIncCommit at h
  have hK := Moves.refl [.regs, .shadowS, .shadowF, .ans, .ptp] s
  all_goals injection h with h
  all_goals subst h
  iterate 60 all_goals first
    | with_reducible assumption
    | ((with_reducible apply guarded_moves (hw := ?w)); case w => rfl)
    | ((with_reducible apply incCommit_moves (hw := ?w)); case w => rfl)
    | intro _
    | dsimp only
    | split

theorem execPtpStep_moves (q : Req) (d : Fin 2) {s s' : State} (h : execPtpStep q d s = .next s') : Moves [.regs, .ans, .flt, .ptp] s s' := by
  unfold execPtpStep at h
  have hK := Moves.refl [.regs, .ans, .flt, .ptp] s
  all_goals injection h with h
  all_goals subst h
  iterate 60 all_goals first
    | with_reducible assumption
    | ((with_reducible apply guarded_moves (hw := ?w)); case w => rfl)
    | ((with_reducible apply ptpStep_moves (hw := ?w)); case w => rfl)
    | intro _
    | dsimp only
    | split

theorem execPtpSet_moves (q : Req) (d : Fin 2) {s s' : State} (h : execPtpSet q d s = .next s') : Moves [.regs, .ans, .flt, .ptp] s s' := by
  unfold execPtpSet at h
  have hK := Moves.refl [.regs, .ans, .flt, .ptp] s
  all_goals injection h with h
  all_goals subst h
  iterate 60 all_goals first
    | with_reducible assumption
    | ((with_reducible apply guarded_moves (hw := ?w)); case w => rfl)
    | ((with_reducible apply ptpSet_moves (hw := ?w)); case w => rfl)
    | intro _
    | dsimp only
    | split

theorem execPtpInvalidate_moves (q : Req) (d : Fin 2) {s s' : State} (h : execPtpInvalidate q d s = .next s') : Moves [.regs, .ans, .flt] s s' := by
  unfold execPtpInvalidate at h
  have hK := Moves.refl [.regs, .ans, .flt] s
  all_goals injection h with h
  all_goals subst h
  iterate 60 all_goals first
    | with_reducible assumption
    | ((with_reducible apply guarded_moves (hw := ?w)); case w => rfl)
    | ((with_reducible apply ptpInvalidate_moves (hw := ?w)); case w => rfl)
    | intro _
    | dsimp only
    | split

theorem execPtpCtrlWrite_moves (q : Req) (value : Word) {s s' : State} (h : execPtpCtrlWrite q value s = .next s') : Moves [.freeIdx, .regs, .shadowS, .shadowF, .ans, .flt, .ptp] s s' := by
  unfold execPtpCtrlWrite at h
  have hK := Moves.refl [.freeIdx, .regs, .shadowS, .shadowF, .ans, .flt, .ptp] s
  all_goals injection h with h
  all_goals subst h
  iterate 60 all_goals first
    | with_reducible assumption
    | ((with_reducible apply guarded_moves (hw := ?w)); case w => rfl)
    | ((with_reducible apply ptpCtrlWrite_moves (hw := ?w)); case w => rfl)
    | intro _
    | dsimp only
    | split

theorem execSlewEnd_moves {s s' : State} (h : execSlewEnd s = .next s') : Moves [.freeIdx, .regs, .ptp] s s' := by
  unfold execSlewEnd at h
  have hK := Moves.refl [.freeIdx, .regs, .ptp] s
  all_goals injection h with h
  all_goals subst h
  iterate 60 all_goals first
    | with_reducible assumption
    | ((with_reducible apply showSlew_moves (hw := ?w)); case w => rfl)
    | intro _
    | dsimp only
    | split
    | ((with_reducible apply Moves.update) <;> first | (with_reducible exact Or.inl rfl) | exact Or.inr (by decide) | skip)

theorem execPtpModeChange_moves {s s' : State} (h : execPtpModeChange s = .next s') : Moves [.regs] s s' := by
  unfold execPtpModeChange at h
  have hK := Moves.refl [.regs] s
  all_goals injection h with h
  all_goals subst h
  iterate 60 all_goals first
    | with_reducible assumption
    | ((with_reducible apply ptpEvaluate_moves (hw := ?w)); case w => rfl)
    | intro _
    | dsimp only
    | split

theorem execPtpRx_moves (port : Fin 2) (domain : Byte) (tagged : Bool) (frame : List Byte) {s s' : State} (h : execPtpRx port domain tagged frame s = .next s') : Moves [.freeIdx, .regs, .mem, .hbm] s s' := by
  unfold execPtpRx at h
  have hK := Moves.refl [.freeIdx, .regs, .mem, .hbm] s
  all_goals injection h with h
  all_goals subst h
  iterate 60 all_goals first
    | with_reducible assumption
    | ((with_reducible apply ptpReceive_moves (hw := ?w)); case w => rfl)
    | intro _
    | dsimp only
    | split

theorem execPtpLqWrWrite_moves (q : Req) (p : Fin 2) (value : Word) {s s' : State} (h : execPtpLqWrWrite q p value s = .next s') : Moves [.regs, .shadowS, .shadowF, .ans] s s' := by
  unfold execPtpLqWrWrite at h
  have hK := Moves.refl [.regs, .shadowS, .shadowF, .ans] s
  all_goals injection h with h
  all_goals subst h
  iterate 60 all_goals first
    | with_reducible assumption
    | ((with_reducible apply guarded_moves (hw := ?w)); case w => rfl)
    | ((with_reducible apply lqWrite_moves (hw := ?w)); case w => rfl)
    | intro _
    | dsimp only
    | split

theorem execLaunchSend_moves (p : Fin 2) {s s' : State} (h : execLaunchSend p s = .next s') : Moves [.freeIdx, .regs, .mem, .hbm] s s' := by
  unfold execLaunchSend at h
  have hK := Moves.refl [.freeIdx, .regs, .mem, .hbm] s
  all_goals injection h with h
  all_goals subst h
  iterate 60 all_goals first
    | with_reducible assumption
    | ((with_reducible apply launchSend_moves (hw := ?w)); case w => rfl)
    | intro _
    | dsimp only
    | split

theorem execPtpSnapCmd_moves (q : Req) {s s' : State} (h : execPtpSnapCmd q s = .next s') : Moves [.regs, .ans, .ptp] s s' := by
  unfold execPtpSnapCmd at h
  have hK := Moves.refl [.regs, .ans, .ptp] s
  all_goals injection h with h
  all_goals subst h
  iterate 60 all_goals first
    | with_reducible assumption
    | ((with_reducible apply guarded_moves (hw := ?w)); case w => rfl)
    | ((with_reducible apply ptpSnap_moves (hw := ?w)); case w => rfl)
    | intro _
    | dsimp only
    | split

theorem execPtpTimeRead_moves (q : Req) (which : Fin 4) {s s' : State} (h : execPtpTimeRead q which s = .next s') : Moves [.regs, .ans] s s' := by
  unfold execPtpTimeRead at h
  have hK := Moves.refl [.regs, .ans] s
  all_goals injection h with h
  all_goals subst h
  iterate 60 all_goals first
    | with_reducible assumption
    | ((with_reducible apply guardedRead_moves (hw := ?w)); case w => rfl)
    | ((with_reducible apply ptpReadTime_movesE (hE := by assumption) (hw := ?w)); case w => rfl)
    | ((with_reducible apply ptpReadTime_moves (hw := ?w)); case w => rfl)
    | ((with_reducible apply answerData_moves (hw := ?w)); case w => rfl)
    | intro _
    | dsimp only
    | split

end Sys2Proof.Laws
end

