-- ==== Sys2Proof/Laws/MovesTiming.lean ====
section
/-! SUPPORT. What the operations of Machine/Timing.lean may change of the state, and that they keep what no operation breaks. -/

namespace Sys2Proof.Laws

open Sys2Proof Sys2Proof.Machine

theorem modTst_moves (g : Nat) (f : Timing → Timing) {M : List Part} {s0 s : State} (hw : inMask [.tst] M = true) (h0 : Moves M s0 s) : Moves M s0 (modTst g f s) := by
  refine Moves.via (N := [.tst]) ?_ hw h0
  clear hw h0
  have hK := Moves.refl [.tst] s
  unfold modTst
  iterate 60 all_goals first
    | with_reducible assumption
    | intro _
    | dsimp only
    | split
    | ((with_reducible apply Moves.update) <;> first | (with_reducible exact Or.inl rfl) | exact Or.inr (by decide) | skip)

theorem mapBusy_moves (g : Nat) {M : List Part} {s0 s : State} (hw : inMask [.regs] M = true) (h0 : Moves M s0 s) : Moves M s0 (mapBusy g s) := by
  refine Moves.via (N := [.regs]) ?_ hw h0
  clear hw h0
  have hK := Moves.refl [.regs] s
  unfold mapBusy
  iterate 60 all_goals first
    | with_reducible assumption
    | ((with_reducible apply setBit_moves (hw := ?w)); case w => rfl)
    | intro _
    | dsimp only
    | split

theorem sendWords_moves (g set k : Nat) {M : List Part} {s0 s : State} (hw : inMask [.regs, .links] M = true) (h0 : Moves M s0 s) : Moves M s0 (sendWords g set k s) := by
  refine Moves.via (N := [.regs, .links]) ?_ hw h0
  clear hw h0
  have hK := Moves.refl [.regs, .links] s
  unfold sendWords
  iterate 60 all_goals first
    | with_reducible assumption
    | ((with_reducible apply mapBusy_moves (hw := ?w)); case w => rfl)
    | ((with_reducible apply modLink_moves (hw := ?w)); case w => rfl)
    | ((with_reducible apply queueMap_moves (hw := ?w)); case w => rfl)
    | with_reducible apply Moves.foldl
    | intro _
    | dsimp only
    | split

theorem showRaw_moves (g : Nat) {M : List Part} {s0 s : State} (hw : inMask [.regs] M = true) (h0 : Moves M s0 s) : Moves M s0 (showRaw g s) := by
  refine Moves.via (N := [.regs]) ?_ hw h0
  clear hw h0
  have hK := Moves.refl [.regs] s
  unfold showRaw
  iterate 60 all_goals first
    | with_reducible assumption
    | ((with_reducible apply set64_moves (hw := ?w)); case w => rfl)
    | with_reducible apply Moves.foldl
    | intro _
    | dsimp only
    | split

theorem entryInvalid_moves (g set k : Nat) (b : Nat × Nat) {M : List Part} {s0 s : State} (hw : inMask [.regs, .ans] M = true) (h0 : Moves M s0 s) : Moves M s0 (entryInvalid g set k b s) := by
  refine Moves.via (N := [.regs, .ans]) ?_ hw h0
  clear hw h0
  have hK := Moves.refl [.regs, .ans] s
  unfold entryInvalid
  iterate 60 all_goals first
    | with_reducible assumption
    | ((with_reducible apply answer_moves (hw := ?w)); case w => rfl)
    | ((with_reducible apply setRegN_moves (hw := ?w)); case w => rfl)
    | intro _
    | dsimp only
    | split

theorem commitAnswer_moves (q : Req) (g : Nat) {M : List Part} {s0 s : State} (hw : inMask [.ans, .net, .links] M = true) (h0 : Moves M s0 s) : Moves M s0 (commitAnswer q g s) := by
  refine Moves.via (N := [.ans, .net, .links]) ?_ hw h0
  clear hw h0
  have hK := Moves.refl [.ans, .net, .links] s
  unfold commitAnswer
  iterate 60 all_goals first
    | with_reducible assumption
    | ((with_reducible apply deferAnswer_moves (hw := ?w)); case w => rfl)
    | ((with_reducible apply modLink_moves (hw := ?w)); case w => rfl)
    | ((with_reducible apply answer_moves (hw := ?w)); case w => rfl)
    | intro _
    | dsimp only
    | split

theorem tstCommit_moves (q : Req) (g : Nat) {M : List Part} {s0 s : State} (hw : inMask [.regs, .ans, .net, .links, .tst] M = true) (h0 : Moves M s0 s) : Moves M s0 (tstCommit q g s) := by
  refine Moves.via (N := [.regs, .ans, .net, .links, .tst]) ?_ hw h0
  clear hw h0
  have hK := Moves.refl [.regs, .ans, .net, .links, .tst] s
  unfold tstCommit
  iterate 60 all_goals first
    | with_reducible assumption
    | ((with_reducible apply entryInvalid_moves (hw := ?w)); case w => rfl)
    | ((with_reducible apply modTst_moves (hw := ?w)); case w => rfl)
    | ((with_reducible apply commitAnswer_moves (hw := ?w)); case w => rfl)
    | ((with_reducible apply sendWords_moves (hw := ?w)); case w => rfl)
    | ((with_reducible apply showRaw_moves (hw := ?w)); case w => rfl)
    | intro _
    | dsimp only
    | split

theorem tstRead_moves (g : Nat) {M : List Part} {s0 s : State} (hw : inMask [.regs, .ans] M = true) (h0 : Moves M s0 s) : Moves M s0 (tstRead g s) := by
  refine Moves.via (N := [.regs, .ans]) ?_ hw h0
  clear hw h0
  have hK := Moves.refl [.regs, .ans] s
  unfold tstRead
  iterate 60 all_goals first
    | with_reducible assumption
    | ((with_reducible apply setReg_moves (hw := ?w)); case w => rfl)
    | ((with_reducible apply setRegN_moves (hw := ?w)); case w => rfl)
    | ((with_reducible apply answer_moves (hw := ?w)); case w => rfl)
    | with_reducible apply Moves.foldl
    | intro _
    | dsimp only
    | split

theorem writeRaw_moves (q : Req) (g : Nat) {M : List Part} {s0 s : State} (hw : inMask [.regs, .ans, .net, .links, .tst] M = true) (h0 : Moves M s0 s) : Moves M s0 (writeRaw q g s) := by
  refine Moves.via (N := [.regs, .ans, .net, .links, .tst]) ?_ hw h0
  clear hw h0
  have hK := Moves.refl [.regs, .ans, .net, .links, .tst] s
  unfold writeRaw
  iterate 60 all_goals first
    | with_reducible assumption
    | ((with_reducible apply entryInvalid_moves (hw := ?w)); case w => rfl)
    | ((with_reducible apply modTst_moves (hw := ?w)); case w => rfl)
    | ((with_reducible apply commitAnswer_moves (hw := ?w)); case w => rfl)
    | ((with_reducible apply sendWords_moves (hw := ?w)); case w => rfl)
    | ((with_reducible apply showRaw_moves (hw := ?w)); case w => rfl)
    | intro _
    | dsimp only
    | split

theorem enterSet_moves (g set : Nat) {M : List Part} {s0 s : State} (hw : inMask [.links] M = true) (h0 : Moves M s0 s) : Moves M s0 (enterSet g set s) := by
  refine Moves.via (N := [.links]) ?_ hw h0
  clear hw h0
  have hK := Moves.refl [.links] s
  unfold enterSet
  iterate 60 all_goals first
    | with_reducible assumption
    | ((with_reducible apply setInStream_moves (hw := ?w)); case w => rfl)
    | ((with_reducible apply modLink_moves (hw := ?w)); case w => rfl)
    | intro _
    | dsimp only
    | split

theorem tsetWrite_moves (g : Nat) (value : Word) {M : List Part} {s0 s : State} (hw : inMask [.shadowF, .ans, .links] M = true) (h0 : Moves M s0 s) : Moves M s0 (tsetWrite g value s) := by
  refine Moves.via (N := [.shadowF, .ans, .links]) ?_ hw h0
  clear hw h0
  have hK := Moves.refl [.shadowF, .ans, .links] s
  unfold tsetWrite
  iterate 60 all_goals first
    | with_reducible assumption
    | ((with_reducible apply shadowFset_moves (hw := ?w)); case w => rfl)
    | ((with_reducible apply answer_moves (hw := ?w)); case w => rfl)
    | ((with_reducible apply enterSet_moves (hw := ?w)); case w => rfl)
    | intro _
    | dsimp only
    | split

theorem periodWrite_moves (g : Nat) (value : Word) {M : List Part} {s0 s : State} (hw : inMask [.regs, .shadowS, .shadowF, .ans] M = true) (h0 : Moves M s0 s) : Moves M s0 (periodWrite g value s) := by
  refine Moves.via (N := [.regs, .shadowS, .shadowF, .ans]) ?_ hw h0
  clear hw h0
  have hK := Moves.refl [.regs, .shadowS, .shadowF, .ans] s
  unfold periodWrite
  iterate 60 all_goals first
    | with_reducible assumption
    | ((with_reducible apply answer_moves (hw := ?w)); case w => rfl)
    | ((with_reducible apply entryInvalid_moves (hw := ?w)); case w => rfl)
    | ((with_reducible apply accept_moves (hw := ?w)); case w => rfl)
    | intro _
    | dsimp only
    | split

theorem modeWrite_moves (g r : Nat) (value : Word) {M : List Part} {s0 s : State} (hw : inMask [.regs, .shadowS, .shadowF, .ans] M = true) (h0 : Moves M s0 s) : Moves M s0 (modeWrite g r value s) := by
  refine Moves.via (N := [.regs, .shadowS, .shadowF, .ans]) ?_ hw h0
  clear hw h0
  have hK := Moves.refl [.regs, .shadowS, .shadowF, .ans] s
  unfold modeWrite
  iterate 60 all_goals first
    | with_reducible assumption
    | ((with_reducible apply answer_moves (hw := ?w)); case w => rfl)
    | ((with_reducible apply accept_moves (hw := ?w)); case w => rfl)
    | intro _
    | dsimp only
    | split

theorem showTrim_moves (g k : Nat) {M : List Part} {s0 s : State} (hw : inMask [.regs, .links] M = true) (h0 : Moves M s0 s) : Moves M s0 (showTrim g k s) := by
  refine Moves.via (N := [.regs, .links]) ?_ hw h0
  clear hw h0
  have hK := Moves.refl [.regs, .links] s
  unfold showTrim
  iterate 60 all_goals first
    | with_reducible assumption
    | ((with_reducible apply setRegN_moves (hw := ?w)); case w => rfl)
    | ((with_reducible apply mapBusy_moves (hw := ?w)); case w => rfl)
    | ((with_reducible apply queueMap_moves (hw := ?w)); case w => rfl)
    | intro _
    | dsimp only
    | split

theorem showTrims_moves (g : Nat) {M : List Part} {s0 s : State} (hw : inMask [.regs, .links] M = true) (h0 : Moves M s0 s) : Moves M s0 (showTrims g s) := by
  refine Moves.via (N := [.regs, .links]) ?_ hw h0
  clear hw h0
  have hK := Moves.refl [.regs, .links] s
  unfold showTrims
  iterate 60 all_goals first
    | with_reducible assumption
    | ((with_reducible apply showTrim_moves (hw := ?w)); case w => rfl)
    | with_reducible apply Moves.foldl
    | intro _
    | dsimp only
    | split

theorem showCalStale_moves (g : Nat) {M : List Part} {s0 s : State} (hw : inMask [.regs] M = true) (h0 : Moves M s0 s) : Moves M s0 (showCalStale g s) := by
  refine Moves.via (N := [.regs]) ?_ hw h0
  clear hw h0
  have hK := Moves.refl [.regs] s
  unfold showCalStale
  iterate 60 all_goals first
    | with_reducible assumption
    | ((with_reducible apply setBit_moves (hw := ?w)); case w => rfl)
    | intro _
    | dsimp only
    | split

theorem loopControl_moves (g k : Nat) (on : Bool) {M : List Part} {s0 s : State} (hw : inMask [.regs, .links] M = true) (h0 : Moves M s0 s) : Moves M s0 (loopControl g k on s) := by
  refine Moves.via (N := [.regs, .links]) ?_ hw h0
  clear hw h0
  have hK := Moves.refl [.regs, .links] s
  unfold loopControl
  iterate 60 all_goals first
    | with_reducible assumption
    | ((with_reducible apply queueMaps_moves (hw := ?w)); case w => rfl)
    | intro _
    | dsimp only
    | split

theorem startCal_moves (g k : Nat) (deskew force : Bool) {M : List Part} {s0 s : State} (hw : inMask [.regs, .links, .tst] M = true) (h0 : Moves M s0 s) : Moves M s0 (startCal g k deskew force s) := by
  refine Moves.via (N := [.regs, .links, .tst]) ?_ hw h0
  clear hw h0
  have hK := Moves.refl [.regs, .links, .tst] s
  unfold startCal
  iterate 60 all_goals first
    | with_reducible assumption
    | ((with_reducible apply modTst_moves (hw := ?w)); case w => rfl)
    | ((with_reducible apply loopControl_moves (hw := ?w)); case w => rfl)
    | ((with_reducible apply modLink_moves (hw := ?w)); case w => rfl)
    | intro _
    | dsimp only
    | split

theorem stopCal_moves (g k : Nat) (deskew : Bool) {M : List Part} {s0 s : State} (hw : inMask [.regs, .links, .tst] M = true) (h0 : Moves M s0 s) : Moves M s0 (stopCal g k deskew s) := by
  refine Moves.via (N := [.regs, .links, .tst]) ?_ hw h0
  clear hw h0
  have hK := Moves.refl [.regs, .links, .tst] s
  unfold stopCal
  iterate 60 all_goals first
    | with_reducible assumption
    | ((with_reducible apply loopControl_moves (hw := ?w)); case w => rfl)
    | ((with_reducible apply modTst_moves (hw := ?w)); case w => rfl)
    | intro _
    | dsimp only
    | split

theorem calCommand_moves (g : Nat) (deskew force : Bool) {M : List Part} {s0 s : State} (hw : inMask [.regs, .ans, .links, .tst] M = true) (h0 : Moves M s0 s) : Moves M s0 (calCommand g deskew force s) := by
  refine Moves.via (N := [.regs, .ans, .links, .tst]) ?_ hw h0
  clear hw h0
  have hK := Moves.refl [.regs, .ans, .links, .tst] s
  unfold calCommand
  iterate 60 all_goals first
    | with_reducible assumption
    | ((with_reducible apply answer_moves (hw := ?w)); case w => rfl)
    | ((with_reducible apply startCal_moves (hw := ?w)); case w => rfl)
    | with_reducible apply Moves.foldl
    | intro _
    | dsimp only
    | split

theorem calLast_moves (g k kind why : Nat) {M : List Part} {s0 s : State} (hw : inMask [.regs] M = true) (h0 : Moves M s0 s) : Moves M s0 (calLast g k kind why s) := by
  refine Moves.via (N := [.regs]) ?_ hw h0
  clear hw h0
  have hK := Moves.refl [.regs] s
  unfold calLast
  iterate 60 all_goals first
    | with_reducible assumption
    | ((with_reducible apply setRegN_moves (hw := ?w)); case w => rfl)
    | intro _
    | dsimp only
    | split

theorem trimAfter_moves (g k : Nat) {M : List Part} {s0 s : State} (hw : inMask [.regs, .links] M = true) (h0 : Moves M s0 s) : Moves M s0 (trimAfter g k s) := by
  refine Moves.via (N := [.regs, .links]) ?_ hw h0
  clear hw h0
  have hK := Moves.refl [.regs, .links] s
  unfold trimAfter
  iterate 60 all_goals first
    | with_reducible assumption
    | ((with_reducible apply showTrim_moves (hw := ?w)); case w => rfl)
    | intro _
    | dsimp only
    | split

theorem calRejected_moves (g k why mask : Nat) {M : List Part} {s0 s : State} (hw : inMask [.regs, .flt, .tst] M = true) (h0 : Moves M s0 s) : Moves M s0 (calRejected g k why mask s) := by
  refine Moves.via (N := [.regs, .flt, .tst]) ?_ hw h0
  clear hw h0
  have hK := Moves.refl [.regs, .flt, .tst] s
  unfold calRejected
  iterate 60 all_goals first
    | with_reducible assumption
    | ((with_reducible apply raise_moves (hw := ?w)); case w => rfl)
    | ((with_reducible apply orReg_moves (hw := ?w)); case w => rfl)
    | ((with_reducible apply modTst_moves (hw := ?w)); case w => rfl)
    | intro _
    | dsimp only
    | split

theorem relinWords_moves (g k set : Nat) {M : List Part} {s0 s : State} (hw : inMask [.links] M = true) (h0 : Moves M s0 s) : Moves M s0 (relinWords g k s set) := by
  refine Moves.via (N := [.links]) ?_ hw h0
  clear hw h0
  have hK := Moves.refl [.links] s
  unfold relinWords
  iterate 60 all_goals first
    | with_reducible assumption
    | ((with_reducible apply modLink_moves (hw := ?w)); case w => rfl)
    | intro _
    | dsimp only
    | split

theorem linAccepted_moves (g k : Nat) (o : LinObs) {M : List Part} {s0 s : State} (hw : inMask [.regs, .links, .tst] M = true) (h0 : Moves M s0 s) : Moves M s0 (linAccepted g k o s) := by
  refine Moves.via (N := [.regs, .links, .tst]) ?_ hw h0
  clear hw h0
  have hK := Moves.refl [.regs, .links, .tst] s
  unfold linAccepted
  iterate 60 all_goals first
    | with_reducible assumption
    | ((with_reducible apply modTst_moves (hw := ?w)); case w => rfl)
    | ((with_reducible apply setRegN_moves (hw := ?w)); case w => rfl)
    | ((with_reducible apply showCalStale_moves (hw := ?w)); case w => rfl)
    | ((with_reducible apply orReg_moves (hw := ?w)); case w => rfl)
    | ((with_reducible apply trimAfter_moves (hw := ?w)); case w => rfl)
    | ((with_reducible apply relinWords_moves (hw := ?w)); case w => rfl)
    | ((with_reducible apply mapBusy_moves (hw := ?w)); case w => rfl)
    | with_reducible apply Moves.foldl
    | intro _
    | dsimp only
    | split

theorem linComplete_moves (g k : Nat) (o : LinObs) {M : List Part} {s0 s : State} (hw : inMask [.regs, .flt, .links, .tst] M = true) (h0 : Moves M s0 s) : Moves M s0 (linComplete g k o s) := by
  refine Moves.via (N := [.regs, .flt, .links, .tst]) ?_ hw h0
  clear hw h0
  have hK := Moves.refl [.regs, .flt, .links, .tst] s
  unfold linComplete
  iterate 60 all_goals first
    | with_reducible assumption
    | ((with_reducible apply calLast_moves (hw := ?w)); case w => rfl)
    | ((with_reducible apply stopCal_moves (hw := ?w)); case w => rfl)
    | ((with_reducible apply linAccepted_moves (hw := ?w)); case w => rfl)
    | ((with_reducible apply calRejected_moves (hw := ?w)); case w => rfl)
    | intro _
    | dsimp only
    | split

theorem deskewComplete_moves (g k : Nat) (o : DeskewObs) {M : List Part} {s0 s : State} (hw : inMask [.regs, .flt, .links, .tst] M = true) (h0 : Moves M s0 s) : Moves M s0 (deskewComplete g k o s) := by
  refine Moves.via (N := [.regs, .flt, .links, .tst]) ?_ hw h0
  clear hw h0
  have hK := Moves.refl [.regs, .flt, .links, .tst] s
  unfold deskewComplete
  iterate 60 all_goals first
    | with_reducible assumption
    | ((with_reducible apply calLast_moves (hw := ?w)); case w => rfl)
    | ((with_reducible apply stopCal_moves (hw := ?w)); case w => rfl)
    | ((with_reducible apply modTst_moves (hw := ?w)); case w => rfl)
    | ((with_reducible apply trimAfter_moves (hw := ?w)); case w => rfl)
    | ((with_reducible apply orReg_moves (hw := ?w)); case w => rfl)
    | ((with_reducible apply setRegN_moves (hw := ?w)); case w => rfl)
    | ((with_reducible apply calRejected_moves (hw := ?w)); case w => rfl)
    | intro _
    | dsimp only
    | split

theorem endCals_moves (g : Nat) {M : List Part} {s0 s : State} (hw : inMask [.regs, .flt, .links, .tst] M = true) (h0 : Moves M s0 s) : Moves M s0 (endCals g s) := by
  refine Moves.via (N := [.regs, .flt, .links, .tst]) ?_ hw h0
  clear hw h0
  have hK := Moves.refl [.regs, .flt, .links, .tst] s
  unfold endCals
  iterate 60 all_goals first
    | with_reducible assumption
    | ((with_reducible apply calRejected_moves (hw := ?w)); case w => rfl)
    | ((with_reducible apply calLast_moves (hw := ?w)); case w => rfl)
    | ((with_reducible apply stopCal_moves (hw := ?w)); case w => rfl)
    | with_reducible apply Moves.foldl
    | intro _
    | dsimp only
    | split

theorem calAgeExpiry_moves (g k : Nat) {M : List Part} {s0 s : State} (hw : inMask [.regs, .flt] M = true) (h0 : Moves M s0 s) : Moves M s0 (calAgeExpiry g k s) := by
  refine Moves.via (N := [.regs, .flt]) ?_ hw h0
  clear hw h0
  have hK := Moves.refl [.regs, .flt] s
  unfold calAgeExpiry
  iterate 60 all_goals first
    | with_reducible assumption
    | ((with_reducible apply showCalStale_moves (hw := ?w)); case w => rfl)
    | ((with_reducible apply setBit_moves (hw := ?w)); case w => rfl)
    | ((with_reducible apply raise_moves (hw := ?w)); case w => rfl)
    | ((with_reducible apply orReg_moves (hw := ?w)); case w => rfl)
    | intro _
    | dsimp only
    | split

theorem nextLin_moves (g : Nat) {M : List Part} {s0 s : State} (hw : inMask [.regs] M = true) (h0 : Moves M s0 s) : Moves M s0 (nextLin g s) := by
  refine Moves.via (N := [.regs]) ?_ hw h0
  clear hw h0
  have hK := Moves.refl [.regs] s
  unfold nextLin
  iterate 60 all_goals first
    | with_reducible assumption
    | ((with_reducible apply setFld_moves (hw := ?w)); case w => rfl)
    | intro _
    | dsimp only
    | split

theorem linWrite_moves (g : Nat) (value : Word) {M : List Part} {s0 s : State} (hw : inMask [.regs, .ans, .tst] M = true) (h0 : Moves M s0 s) : Moves M s0 (linWrite g value s) := by
  refine Moves.via (N := [.regs, .ans, .tst]) ?_ hw h0
  clear hw h0
  have hK := Moves.refl [.regs, .ans, .tst] s
  unfold linWrite
  iterate 60 all_goals first
    | with_reducible assumption
    | ((with_reducible apply modTst_moves (hw := ?w)); case w => rfl)
    | ((with_reducible apply answer_moves (hw := ?w)); case w => rfl)
    | ((with_reducible apply nextLin_moves (hw := ?w)); case w => rfl)
    | ((with_reducible apply setRegN_moves (hw := ?w)); case w => rfl)
    | intro _
    | dsimp only
    | split

theorem linRead_moves (g : Nat) {M : List Part} {s0 s : State} (hw : inMask [.regs, .ans] M = true) (h0 : Moves M s0 s) : Moves M s0 (linRead g s) := by
  refine Moves.via (N := [.regs, .ans]) ?_ hw h0
  clear hw h0
  have hK := Moves.refl [.regs, .ans] s
  unfold linRead
  iterate 60 all_goals first
    | with_reducible assumption
    | ((with_reducible apply answerData_moves (hw := ?w)); case w => rfl)
    | ((with_reducible apply nextLin_moves (hw := ?w)); case w => rfl)
    | intro _
    | dsimp only
    | split

theorem loadTset_moves (bs : List Byte) {M : List Part} {s0 s : State} (hw : inMask [.regs, .tst] M = true) (h0 : Moves M s0 s) : Moves M s0 (loadTset bs s) := by
  refine Moves.via (N := [.regs, .tst]) ?_ hw h0
  clear hw h0
  have hK := Moves.refl [.regs, .tst] s
  unfold loadTset
  iterate 60 all_goals first
    | with_reducible assumption
    | ((with_reducible apply modTst_moves (hw := ?w)); case w => rfl)
    | ((with_reducible apply setBit_moves (hw := ?w)); case w => rfl)
    | with_reducible apply Moves.foldl
    | intro _
    | dsimp only
    | split

theorem loadTsets_moves (x0 : Nat) (x1 : List Byte) {M : List Part} {s0 s : State} (hw : inMask [.regs, .tst] M = true) (h0 : Moves M s0 s) : Moves M s0 (loadTsets x0 x1 s) := by
  refine Moves.via (N := [.regs, .tst]) ?_ hw h0
  clear hw h0
  induction x0 generalizing x1 s with
  | zero =>
    have hK := Moves.refl [.regs, .tst] s
    unfold loadTsets
    iterate 60 all_goals first
      | with_reducible assumption
      | ((with_reducible apply loadTset_moves (hw := ?w)); case w => rfl)
      | intro _
      | dsimp only
      | split
  | succ n ih =>
    have hK := Moves.refl [.regs, .tst] s
    unfold loadTsets
    iterate 60 all_goals first
      | with_reducible assumption
      | ((with_reducible apply loadTset_moves (hw := ?w)); case w => rfl)
      | with_reducible refine Moves.trans ?_ (ih ..)
      | intro _
      | dsimp only
      | split

theorem applyTsets_moves (bs : List Byte) {M : List Part} {s0 s : State} (hw : inMask [.regs, .flt, .tst] M = true) (h0 : Moves M s0 s) : Moves M s0 (applyTsets bs s) := by
  refine Moves.via (N := [.regs, .flt, .tst]) ?_ hw h0
  clear hw h0
  have hK := Moves.refl [.regs, .flt, .tst] s
  unfold applyTsets
  iterate 60 all_goals first
    | with_reducible assumption
    | ((with_reducible apply setBit_moves (hw := ?w)); case w => rfl)
    | ((with_reducible apply modTst_moves (hw := ?w)); case w => rfl)
    | ((with_reducible apply loadTsets_moves (hw := ?w)); case w => rfl)
    | ((with_reducible apply showRaw_moves (hw := ?w)); case w => rfl)
    | ((with_reducible apply imageNotice_moves (hw := ?w)); case w => rfl)
    | with_reducible apply Moves.foldl
    | intro _
    | dsimp only
    | split

theorem execTstCommit_moves (q : Req) (g : Fin 16) {s s' : State} (h : execTstCommit q g s = .next s') : Moves [.regs, .ans, .net, .links, .tst] s s' := by
  unfold execTstCommit at h
  have hK := Moves.refl [.regs, .ans, .net, .links, .tst] s
  all_goals injection h with h
  all_goals subst h
  iterate 60 all_goals first
    | with_reducible assumption
    | ((with_reducible apply guarded_moves (hw := ?w)); case w => rfl)
    | ((with_reducible apply tstCommit_moves (hw := ?w)); case w => rfl)
    | intro _
    | dsimp only
    | split

theorem execTstRead_moves (q : Req) (g : Fin 16) {s s' : State} (h : execTstRead q g s = .next s') : Moves [.regs, .ans] s s' := by
  unfold execTstRead at h
  have hK := Moves.refl [.regs, .ans] s
  all_goals injection h with h
  all_goals subst h
  iterate 60 all_goals first
    | with_reducible assumption
    | ((with_reducible apply guarded_moves (hw := ?w)); case w => rfl)
    | ((with_reducible apply tstRead_moves (hw := ?w)); case w => rfl)
    | intro _
    | dsimp only
    | split

theorem execWriteRaw_moves (q : Req) (g : Fin 16) {s s' : State} (h : execWriteRaw q g s = .next s') : Moves [.regs, .ans, .net, .links, .tst] s s' := by
  unfold execWriteRaw at h
  have hK := Moves.refl [.regs, .ans, .net, .links, .tst] s
  all_goals injection h with h
  all_goals subst h
  iterate 60 all_goals first
    | with_reducible assumption
    | ((with_reducible apply guarded_moves (hw := ?w)); case w => rfl)
    | ((with_reducible apply writeRaw_moves (hw := ?w)); case w => rfl)
    | intro _
    | dsimp only
    | split

theorem execCalLin_moves (q : Req) (g : Fin 16) (force : Bool) {s s' : State} (h : execCalLin q g force s = .next s') : Moves [.regs, .ans, .links, .tst] s s' := by
  unfold execCalLin at h
  have hK := Moves.refl [.regs, .ans, .links, .tst] s
  all_goals injection h with h
  all_goals subst h
  iterate 60 all_goals first
    | with_reducible assumption
    | ((with_reducible apply guarded_moves (hw := ?w)); case w => rfl)
    | ((with_reducible apply calCommand_moves (hw := ?w)); case w => rfl)
    | intro _
    | dsimp only
    | split

theorem execCalDeskew_moves (q : Req) (g : Fin 16) (force : Bool) {s s' : State} (h : execCalDeskew q g force s = .next s') : Moves [.regs, .ans, .links, .tst] s s' := by
  unfold execCalDeskew at h
  have hK := Moves.refl [.regs, .ans, .links, .tst] s
  all_goals injection h with h
  all_goals subst h
  iterate 60 all_goals first
    | with_reducible assumption
    | ((with_reducible apply guarded_moves (hw := ?w)); case w => rfl)
    | ((with_reducible apply calCommand_moves (hw := ?w)); case w => rfl)
    | intro _
    | dsimp only
    | split

theorem execScheduledLinCal_moves (g : Fin 16) (k : Fin 32) {s s' : State} (h : execScheduledLinCal g k s = .next s') : Moves [.regs, .links, .tst] s s' := by
  unfold execScheduledLinCal at h
  have hK := Moves.refl [.regs, .links, .tst] s
  all_goals injection h with h
  all_goals subst h
  iterate 60 all_goals first
    | with_reducible assumption
    | ((with_reducible apply startCal_moves (hw := ?w)); case w => rfl)
    | intro _
    | dsimp only
    | split

theorem execLinCalComplete_moves (g : Fin 16) (k : Fin 32) (obs : LinObs) {s s' : State} (h : execLinCalComplete g k obs s = .next s') : Moves [.regs, .flt, .links, .tst] s s' := by
  unfold execLinCalComplete at h
  have hK := Moves.refl [.regs, .flt, .links, .tst] s
  all_goals injection h with h
  all_goals subst h
  iterate 60 all_goals first
    | with_reducible assumption
    | ((with_reducible apply linComplete_moves (hw := ?w)); case w => rfl)
    | intro _
    | dsimp only
    | split

theorem execDeskewComplete_moves (g : Fin 16) (k : Fin 32) (obs : DeskewObs) {s s' : State} (h : execDeskewComplete g k obs s = .next s') : Moves [.regs, .flt, .links, .tst] s s' := by
  unfold execDeskewComplete at h
  have hK := Moves.refl [.regs, .flt, .links, .tst] s
  all_goals injection h with h
  all_goals subst h
  iterate 60 all_goals first
    | with_reducible assumption
    | ((with_reducible apply deskewComplete_moves (hw := ?w)); case w => rfl)
    | intro _
    | dsimp only
    | split

theorem execCalAgeExpiry_moves (g : Fin 16) (k : Fin 32) {s s' : State} (h : execCalAgeExpiry g k s = .next s') : Moves [.regs, .flt] s s' := by
  unfold execCalAgeExpiry at h
  have hK := Moves.refl [.regs, .flt] s
  all_goals injection h with h
  all_goals subst h
  iterate 60 all_goals first
    | with_reducible assumption
    | ((with_reducible apply calAgeExpiry_moves (hw := ?w)); case w => rfl)
    | intro _
    | dsimp only
    | split

theorem execTsetWrite_moves (q : Req) (g : Fin 16) (value : Word) {s s' : State} (h : execTsetWrite q g value s = .next s') : Moves [.shadowF, .ans, .links] s s' := by
  unfold execTsetWrite at h
  have hK := Moves.refl [.shadowF, .ans, .links] s
  all_goals injection h with h
  all_goals subst h
  iterate 60 all_goals first
    | with_reducible assumption
    | ((with_reducible apply guarded_moves (hw := ?w)); case w => rfl)
    | ((with_reducible apply tsetWrite_moves (hw := ?w)); case w => rfl)
    | intro _
    | dsimp only
    | split

theorem execPeriodWrite_moves (q : Req) (g : Fin 16) (value : Word) {s s' : State} (h : execPeriodWrite q g value s = .next s') : Moves [.regs, .shadowS, .shadowF, .ans] s s' := by
  unfold execPeriodWrite at h
  have hK := Moves.refl [.regs, .shadowS, .shadowF, .ans] s
  all_goals injection h with h
  all_goals subst h
  iterate 60 all_goals first
    | with_reducible assumption
    | ((with_reducible apply guarded_moves (hw := ?w)); case w => rfl)
    | ((with_reducible apply periodWrite_moves (hw := ?w)); case w => rfl)
    | intro _
    | dsimp only
    | split

theorem execModeWrite_moves (q : Req) (g : Fin 16) (r : Fin 4) (value : Word) {s s' : State} (h : execModeWrite q g r value s = .next s') : Moves [.regs, .shadowS, .shadowF, .ans] s s' := by
  unfold execModeWrite at h
  have hK := Moves.refl [.regs, .shadowS, .shadowF, .ans] s
  all_goals injection h with h
  all_goals subst h
  iterate 60 all_goals first
    | with_reducible assumption
    | ((with_reducible apply guarded_moves (hw := ?w)); case w => rfl)
    | ((with_reducible apply modeWrite_moves (hw := ?w)); case w => rfl)
    | intro _
    | dsimp only
    | split

theorem execLinDataWrite_moves (q : Req) (g : Fin 16) (value : Word) {s s' : State} (h : execLinDataWrite q g value s = .next s') : Moves [.regs, .ans, .tst] s s' := by
  unfold execLinDataWrite at h
  have hK := Moves.refl [.regs, .ans, .tst] s
  all_goals injection h with h
  all_goals subst h
  iterate 60 all_goals first
    | with_reducible assumption
    | ((with_reducible apply guarded_moves (hw := ?w)); case w => rfl)
    | ((with_reducible apply linWrite_moves (hw := ?w)); case w => rfl)
    | intro _
    | dsimp only
    | split

theorem execLinDataRead_moves (q : Req) (g : Fin 16) {s s' : State} (h : execLinDataRead q g s = .next s') : Moves [.regs, .ans] s s' := by
  unfold execLinDataRead at h
  have hK := Moves.refl [.regs, .ans] s
  all_goals injection h with h
  all_goals subst h
  iterate 60 all_goals first
    | with_reducible assumption
    | ((with_reducible apply guardedRead_moves (hw := ?w)); case w => rfl)
    | ((with_reducible apply linRead_moves (hw := ?w)); case w => rfl)
    | intro _
    | dsimp only
    | split

end Sys2Proof.Laws
end

