-- ==== Sys2Proof/Laws/MovesTdc.lean ====
section
/-! SUPPORT. What the operations of Machine/Tdc.lean may change of the state, and that they keep what no operation breaks. -/

namespace Sys2Proof.Laws

open Sys2Proof Sys2Proof.Machine

theorem modTdc_moves (c : Nat) (f : TdcCh → TdcCh) {M : List Part} {s0 s : State} (hw : inMask [.tdc] M = true) (h0 : Moves M s0 s) : Moves M s0 (modTdc c f s) := by
  refine Moves.via (N := [.tdc]) ?_ hw h0
  clear hw h0
  have hK := Moves.refl [.tdc] s
  unfold modTdc
  iterate 60 all_goals first
    | with_reducible assumption
    | intro _
    | dsimp only
    | split
    | ((with_reducible apply Moves.update) <;> first | (with_reducible exact Or.inl rfl) | exact Or.inr (by decide) | skip)

theorem queueEvent_moves (c stamp code cyc : Nat) (pol uncal : Bool) {M : List Part} {s0 s : State} (hw : inMask [.regs, .mem, .tdc, .hbm] M = true) (h0 : Moves M s0 s) : Moves M s0 (queueEvent c stamp code cyc pol uncal s) := by
  refine Moves.via (N := [.regs, .mem, .tdc, .hbm]) ?_ hw h0
  clear hw h0
  have hK := Moves.refl [.regs, .mem, .tdc, .hbm] s
  unfold queueEvent
  iterate 60 all_goals first
    | with_reducible assumption
    | ((with_reducible apply incWrap_moves (hw := ?w)); case w => rfl)
    | ((with_reducible apply modTdc_moves (hw := ?w)); case w => rfl)
    | ((with_reducible apply orReg_moves (hw := ?w)); case w => rfl)
    | ((with_reducible apply incSat_moves (hw := ?w)); case w => rfl)
    | ((with_reducible apply setBytes_moves (hw := ?w)); case w => rfl)
    | ((with_reducible apply setRegN_moves (hw := ?w)); case w => rfl)
    | intro _
    | dsimp only
    | split

theorem emitStats_moves (c : Nat) (part : Bool) {M : List Part} {s0 s : State} (hw : inMask [.regs, .mem, .tdc, .hbm] M = true) (h0 : Moves M s0 s) : Moves M s0 (emitStats c part s) := by
  refine Moves.via (N := [.regs, .mem, .tdc, .hbm]) ?_ hw h0
  clear hw h0
  have hK := Moves.refl [.regs, .mem, .tdc, .hbm] s
  unfold emitStats
  iterate 60 all_goals first
    | with_reducible assumption
    | ((with_reducible apply modTdc_moves (hw := ?w)); case w => rfl)
    | ((with_reducible apply orReg_moves (hw := ?w)); case w => rfl)
    | ((with_reducible apply incWrap_moves (hw := ?w)); case w => rfl)
    | ((with_reducible apply setMemWords_moves (hw := ?w)); case w => rfl)
    | ((with_reducible apply setRegN_moves (hw := ?w)); case w => rfl)
    | ((with_reducible apply setBit_moves (hw := ?w)); case w => rfl)
    | intro _
    | dsimp only
    | split

theorem takeValue_moves (c : Nat) (v : Int) (stamp : Nat) (uncal : Bool) {M : List Part} {s0 s : State} (hw : inMask [.regs, .mem, .tdc, .hbm] M = true) (h0 : Moves M s0 s) : Moves M s0 (takeValue c v stamp uncal s) := by
  refine Moves.via (N := [.regs, .mem, .tdc, .hbm]) ?_ hw h0
  clear hw h0
  have hK := Moves.refl [.regs, .mem, .tdc, .hbm] s
  unfold takeValue
  iterate 60 all_goals first
    | with_reducible assumption
    | ((with_reducible apply modTdc_moves (hw := ?w)); case w => rfl)
    | ((with_reducible apply emitStats_moves (hw := ?w)); case w => rfl)
    | intro _
    | dsimp only
    | split

theorem funcEvent_moves (c : Nat) (e : Nat × Nat × Bool × Bool) {M : List Part} {s0 s : State} (hw : inMask [.regs, .mem, .tdc, .hbm] M = true) (h0 : Moves M s0 s) : Moves M s0 (funcEvent c e s) := by
  refine Moves.via (N := [.regs, .mem, .tdc, .hbm]) ?_ hw h0
  clear hw h0
  have hK := Moves.refl [.regs, .mem, .tdc, .hbm] s
  unfold funcEvent
  iterate 60 all_goals first
    | with_reducible assumption
    | ((with_reducible apply takeValue_moves (hw := ?w)); case w => rfl)
    | ((with_reducible apply modTdc_moves (hw := ?w)); case w => rfl)
    | intro _
    | dsimp only
    | split

theorem funcLoss_moves (c : Nat) {M : List Part} {s0 s : State} (hw : inMask [.tdc] M = true) (h0 : Moves M s0 s) : Moves M s0 (funcLoss c s) := by
  refine Moves.via (N := [.tdc]) ?_ hw h0
  clear hw h0
  have hK := Moves.refl [.tdc] s
  unfold funcLoss
  iterate 60 all_goals first
    | with_reducible assumption
    | ((with_reducible apply modTdc_moves (hw := ?w)); case w => rfl)
    | intro _
    | dsimp only
    | split

theorem funcFrame_moves (c f : Nat) {M : List Part} {s0 s : State} (hw : inMask [.regs, .mem, .tdc, .hbm] M = true) (h0 : Moves M s0 s) : Moves M s0 (funcFrame c f s) := by
  refine Moves.via (N := [.regs, .mem, .tdc, .hbm]) ?_ hw h0
  clear hw h0
  have hK := Moves.refl [.regs, .mem, .tdc, .hbm] s
  unfold funcFrame
  iterate 60 all_goals first
    | with_reducible assumption
    | ((with_reducible apply funcLoss_moves (hw := ?w)); case w => rfl)
    | ((with_reducible apply funcEvent_moves (hw := ?w)); case w => rfl)
    | ((with_reducible apply modTdc_moves (hw := ?w)); case w => rfl)
    | with_reducible apply Moves.foldl
    | intro _
    | dsimp only
    | split

theorem runFunc_moves (c : Nat) {M : List Part} {s0 s : State} (hw : inMask [.regs, .mem, .tdc, .hbm] M = true) (h0 : Moves M s0 s) : Moves M s0 (runFunc c s) := by
  refine Moves.via (N := [.regs, .mem, .tdc, .hbm]) ?_ hw h0
  clear hw h0
  have hK := Moves.refl [.regs, .mem, .tdc, .hbm] s
  unfold runFunc
  iterate 60 all_goals first
    | with_reducible assumption
    | ((with_reducible apply funcFrame_moves (hw := ?w)); case w => rfl)
    | with_reducible apply Moves.foldl
    | intro _
    | dsimp only
    | split

theorem closeStats_moves (c : Nat) {M : List Part} {s0 s : State} (hw : inMask [.regs, .mem, .tdc, .hbm] M = true) (h0 : Moves M s0 s) : Moves M s0 (closeStats c s) := by
  refine Moves.via (N := [.regs, .mem, .tdc, .hbm]) ?_ hw h0
  clear hw h0
  have hK := Moves.refl [.regs, .mem, .tdc, .hbm] s
  unfold closeStats
  iterate 60 all_goals first
    | with_reducible assumption
    | ((with_reducible apply emitStats_moves (hw := ?w)); case w => rfl)
    | intro _
    | dsimp only
    | split

theorem runFuncs_moves {M : List Part} {s0 s : State} (hw : inMask [.regs, .mem, .tdc, .hbm] M = true) (h0 : Moves M s0 s) : Moves M s0 (runFuncs s) := by
  refine Moves.via (N := [.regs, .mem, .tdc, .hbm]) ?_ hw h0
  clear hw h0
  have hK := Moves.refl [.regs, .mem, .tdc, .hbm] s
  unfold runFuncs
  iterate 60 all_goals first
    | with_reducible assumption
    | ((with_reducible apply closeStats_moves (hw := ?w)); case w => rfl)
    | ((with_reducible apply runFunc_moves (hw := ?w)); case w => rfl)
    | with_reducible apply Moves.foldl
    | intro _
    | dsimp only
    | split
    | ((with_reducible apply Moves.update) <;> first | exact Or.inr (by decide) | (with_reducible exact Or.inl rfl) | skip)

theorem badRecord_moves (c : Nat) {M : List Part} {s0 s : State} (hw : inMask [.regs, .flt, .tdc] M = true) (h0 : Moves M s0 s) : Moves M s0 (badRecord c s) := by
  refine Moves.via (N := [.regs, .flt, .tdc]) ?_ hw h0
  clear hw h0
  have hK := Moves.refl [.regs, .flt, .tdc] s
  unfold badRecord
  iterate 60 all_goals first
    | with_reducible assumption
    | ((with_reducible apply orReg_moves (hw := ?w)); case w => rfl)
    | ((with_reducible apply incSat_moves (hw := ?w)); case w => rfl)
    | ((with_reducible apply raise_moves (hw := ?w)); case w => rfl)
    | ((with_reducible apply modTdc_moves (hw := ?w)); case w => rfl)
    | intro _
    | dsimp only
    | split

theorem tdcRecord_moves (c f v0 rec : Nat) (arm : Nat → Nat) {M : List Part} {s0 s : State} (hw : inMask [.regs, .mem, .flt, .tdc, .hbm] M = true) (h0 : Moves M s0 s) : Moves M s0 (tdcRecord c f v0 rec arm s) := by
  refine Moves.via (N := [.regs, .mem, .flt, .tdc, .hbm]) ?_ hw h0
  clear hw h0
  have hK := Moves.refl [.regs, .mem, .flt, .tdc, .hbm] s
  unfold tdcRecord
  iterate 60 all_goals first
    | with_reducible assumption
    | ((with_reducible apply queueEvent_moves (hw := ?w)); case w => rfl)
    | ((with_reducible apply badRecord_moves (hw := ?w)); case w => rfl)
    | intro _
    | dsimp only
    | split
    | ((with_reducible apply Moves.update) <;> first | (with_reducible exact Or.inl rfl) | exact Or.inr (by decide) | skip)

theorem tdcFrameDone_moves (g f : Nat) (last : Bool) {M : List Part} {s0 s : State} (hw : inMask [.regs, .mem, .tdc, .hbm] M = true) (h0 : Moves M s0 s) : Moves M s0 (tdcFrameDone g f last s) := by
  refine Moves.via (N := [.regs, .mem, .tdc, .hbm]) ?_ hw h0
  clear hw h0
  have hK := Moves.refl [.regs, .mem, .tdc, .hbm] s
  unfold tdcFrameDone
  iterate 60 all_goals first
    | with_reducible assumption
    | ((with_reducible apply runFuncs_moves (hw := ?w)); case w => rfl)
    | intro _
    | dsimp only
    | split
    | ((with_reducible apply Moves.update) <;> first | (with_reducible exact Or.inl rfl) | exact Or.inr (by decide) | skip)

theorem tdcFrame_moves (g : Nat) (fr : SentFrame) (payload : List Nat) {M : List Part} {s0 s : State} (hw : inMask [.regs, .mem, .flt, .tdc, .hbm] M = true) (h0 : Moves M s0 s) : Moves M s0 (tdcFrame g fr payload s) := by
  refine Moves.via (N := [.regs, .mem, .flt, .tdc, .hbm]) ?_ hw h0
  clear hw h0
  have hK := Moves.refl [.regs, .mem, .flt, .tdc, .hbm] s
  unfold tdcFrame
  iterate 60 all_goals first
    | with_reducible assumption
    | ((with_reducible apply tdcRecord_moves (hw := ?w)); case w => rfl)
    | ((with_reducible apply tdcFrameDone_moves (hw := ?w)); case w => rfl)
    | with_reducible apply Moves.foldl
    | intro _
    | dsimp only
    | split

theorem tdcLoss_moves (g : Nat) (fr : SentFrame) {M : List Part} {s0 s : State} (hw : inMask [.regs, .mem, .tdc, .hbm] M = true) (h0 : Moves M s0 s) : Moves M s0 (tdcLoss g fr s) := by
  refine Moves.via (N := [.regs, .mem, .tdc, .hbm]) ?_ hw h0
  clear hw h0
  have hK := Moves.refl [.regs, .mem, .tdc, .hbm] s
  unfold tdcLoss
  iterate 60 all_goals first
    | with_reducible assumption
    | ((with_reducible apply orReg_moves (hw := ?w)); case w => rfl)
    | ((with_reducible apply incSat_moves (hw := ?w)); case w => rfl)
    | ((with_reducible apply modTdc_moves (hw := ?w)); case w => rfl)
    | ((with_reducible apply tdcFrameDone_moves (hw := ?w)); case w => rfl)
    | with_reducible apply Moves.foldl
    | intro _
    | dsimp only
    | split
    | ((with_reducible apply Moves.update) <;> first | (with_reducible exact Or.inl rfl) | exact Or.inr (by decide) | skip)

theorem showStale_moves {M : List Part} {s0 s : State} (hw : inMask [.regs] M = true) (h0 : Moves M s0 s) : Moves M s0 (showStale s) := by
  refine Moves.via (N := [.regs]) ?_ hw h0
  clear hw h0
  have hK := Moves.refl [.regs] s
  unfold showStale
  iterate 60 all_goals first
    | with_reducible assumption
    | ((with_reducible apply setBit_moves (hw := ?w)); case w => rfl)
    | intro _
    | dsimp only
    | split

theorem noteStale_moves (c : Nat) {M : List Part} {s0 s : State} (hw : inMask [.regs, .flt, .tdc] M = true) (h0 : Moves M s0 s) : Moves M s0 (noteStale c s) := by
  refine Moves.via (N := [.regs, .flt, .tdc]) ?_ hw h0
  clear hw h0
  have hK := Moves.refl [.regs, .flt, .tdc] s
  unfold noteStale
  iterate 60 all_goals first
    | with_reducible assumption
    | ((with_reducible apply orReg_moves (hw := ?w)); case w => rfl)
    | ((with_reducible apply raise_moves (hw := ?w)); case w => rfl)
    | ((with_reducible apply modTdc_moves (hw := ?w)); case w => rfl)
    | intro _
    | dsimp only
    | split

theorem showCal_moves (c : Nat) {M : List Part} {s0 s : State} (hw : inMask [.regs] M = true) (h0 : Moves M s0 s) : Moves M s0 (showCal c s) := by
  refine Moves.via (N := [.regs]) ?_ hw h0
  clear hw h0
  have hK := Moves.refl [.regs] s
  unfold showCal
  iterate 60 all_goals first
    | with_reducible assumption
    | ((with_reducible apply setRegN_moves (hw := ?w)); case w => rfl)
    | intro _
    | dsimp only
    | split

theorem startTime_moves (c : Nat) {M : List Part} {s0 s : State} (hw : inMask [.regs, .flt, .tdc] M = true) (h0 : Moves M s0 s) : Moves M s0 (startTime c s) := by
  refine Moves.via (N := [.regs, .flt, .tdc]) ?_ hw h0
  clear hw h0
  have hK := Moves.refl [.regs, .flt, .tdc] s
  unfold startTime
  iterate 60 all_goals first
    | with_reducible assumption
    | ((with_reducible apply modTdc_moves (hw := ?w)); case w => rfl)
    | ((with_reducible apply showCal_moves (hw := ?w)); case w => rfl)
    | ((with_reducible apply noteStale_moves (hw := ?w)); case w => rfl)
    | intro _
    | dsimp only
    | split

theorem startTdc_moves (groups : List Nat) {M : List Part} {s0 s : State} (hw : inMask [.regs, .flt, .tdc] M = true) (h0 : Moves M s0 s) : Moves M s0 (startTdc groups s) := by
  refine Moves.via (N := [.regs, .flt, .tdc]) ?_ hw h0
  clear hw h0
  have hK := Moves.refl [.regs, .flt, .tdc] s
  unfold startTdc
  iterate 60 all_goals first
    | with_reducible assumption
    | ((with_reducible apply showStale_moves (hw := ?w)); case w => rfl)
    | ((with_reducible apply startTime_moves (hw := ?w)); case w => rfl)
    | ((with_reducible apply setRegN_moves (hw := ?w)); case w => rfl)
    | with_reducible apply Moves.foldl
    | intro _
    | dsimp only
    | split
    | ((with_reducible apply Moves.update) <;> first | (with_reducible exact Or.inl rfl) | exact Or.inr (by decide) | skip)

theorem setCdRun_moves (g : Nat) (r : Option (Nat × Bool)) {M : List Part} {s0 s : State} (hw : inMask [.regs, .links, .tdc] M = true) (h0 : Moves M s0 s) : Moves M s0 (setCdRun g r s) := by
  refine Moves.via (N := [.regs, .links, .tdc]) ?_ hw h0
  clear hw h0
  have hK := Moves.refl [.regs, .links, .tdc] s
  unfold setCdRun
  iterate 60 all_goals first
    | with_reducible assumption
    | ((with_reducible apply queueMaps_moves (hw := ?w)); case w => rfl)
    | ((with_reducible apply setBit_moves (hw := ?w)); case w => rfl)
    | intro _
    | dsimp only
    | split
    | ((with_reducible apply Moves.update) <;> first | (with_reducible exact Or.inl rfl) | exact Or.inr (by decide) | skip)

theorem startCd_moves (g mask : Nat) (force : Bool) {M : List Part} {s0 s : State} (hw : inMask [.regs, .links, .tdc] M = true) (h0 : Moves M s0 s) : Moves M s0 (startCd g mask force s) := by
  refine Moves.via (N := [.regs, .links, .tdc]) ?_ hw h0
  clear hw h0
  have hK := Moves.refl [.regs, .links, .tdc] s
  unfold startCd
  iterate 60 all_goals first
    | with_reducible assumption
    | ((with_reducible apply setCdRun_moves (hw := ?w)); case w => rfl)
    | intro _
    | dsimp only
    | split

theorem calCd_moves (g : Nat) (force : Bool) {M : List Part} {s0 s : State} (hw : inMask [.regs, .ans, .links, .tdc] M = true) (h0 : Moves M s0 s) : Moves M s0 (calCd g force s) := by
  refine Moves.via (N := [.regs, .ans, .links, .tdc]) ?_ hw h0
  clear hw h0
  have hK := Moves.refl [.regs, .ans, .links, .tdc] s
  unfold calCd
  iterate 60 all_goals first
    | with_reducible assumption
    | ((with_reducible apply answer_moves (hw := ?w)); case w => rfl)
    | ((with_reducible apply startCd_moves (hw := ?w)); case w => rfl)
    | intro _
    | dsimp only
    | split

theorem stopCd_moves (g k why : Nat) {M : List Part} {s0 s : State} (hw : inMask [.regs, .links, .tdc] M = true) (h0 : Moves M s0 s) : Moves M s0 (stopCd g k why s) := by
  refine Moves.via (N := [.regs, .links, .tdc]) ?_ hw h0
  clear hw h0
  have hK := Moves.refl [.regs, .links, .tdc] s
  unfold stopCd
  iterate 60 all_goals first
    | with_reducible assumption
    | ((with_reducible apply setCdRun_moves (hw := ?w)); case w => rfl)
    | ((with_reducible apply setRegN_moves (hw := ?w)); case w => rfl)
    | intro _
    | dsimp only
    | split

theorem cdRejected_moves (c why : Nat) {M : List Part} {s0 s : State} (hw : inMask [.regs, .flt, .tdc] M = true) (h0 : Moves M s0 s) : Moves M s0 (cdRejected c why s) := by
  refine Moves.via (N := [.regs, .flt, .tdc]) ?_ hw h0
  clear hw h0
  have hK := Moves.refl [.regs, .flt, .tdc] s
  unfold cdRejected
  iterate 60 all_goals first
    | with_reducible assumption
    | ((with_reducible apply raise_moves (hw := ?w)); case w => rfl)
    | ((with_reducible apply orReg_moves (hw := ?w)); case w => rfl)
    | ((with_reducible apply modTdc_moves (hw := ?w)); case w => rfl)
    | intro _
    | dsimp only
    | split

theorem endCds_moves (g : Nat) {M : List Part} {s0 s : State} (hw : inMask [.regs, .flt, .links, .tdc] M = true) (h0 : Moves M s0 s) : Moves M s0 (endCds g s) := by
  refine Moves.via (N := [.regs, .flt, .links, .tdc]) ?_ hw h0
  clear hw h0
  have hK := Moves.refl [.regs, .flt, .links, .tdc] s
  unfold endCds
  iterate 60 all_goals first
    | with_reducible assumption
    | ((with_reducible apply cdRejected_moves (hw := ?w)); case w => rfl)
    | ((with_reducible apply stopCd_moves (hw := ?w)); case w => rfl)
    | with_reducible apply Moves.foldl
    | intro _
    | dsimp only
    | split

theorem cdComplete_moves (g k : Nat) (o : CdObs) {M : List Part} {s0 s : State} (hw : inMask [.regs, .flt, .links, .tdc] M = true) (h0 : Moves M s0 s) : Moves M s0 (cdComplete g k o s) := by
  refine Moves.via (N := [.regs, .flt, .links, .tdc]) ?_ hw h0
  clear hw h0
  have hK := Moves.refl [.regs, .flt, .links, .tdc] s
  unfold cdComplete
  iterate 60 all_goals first
    | with_reducible assumption
    | ((with_reducible apply stopCd_moves (hw := ?w)); case w => rfl)
    | ((with_reducible apply showCal_moves (hw := ?w)); case w => rfl)
    | ((with_reducible apply orReg_moves (hw := ?w)); case w => rfl)
    | ((with_reducible apply modTdc_moves (hw := ?w)); case w => rfl)
    | ((with_reducible apply cdRejected_moves (hw := ?w)); case w => rfl)
    | intro _
    | dsimp only
    | split

theorem nextBin_moves {M : List Part} {s0 s : State} (hw : inMask [.regs] M = true) (h0 : Moves M s0 s) : Moves M s0 (nextBin s) := by
  refine Moves.via (N := [.regs]) ?_ hw h0
  clear hw h0
  have hK := Moves.refl [.regs] s
  unfold nextBin
  iterate 60 all_goals first
    | with_reducible assumption
    | ((with_reducible apply setFld_moves (hw := ?w)); case w => rfl)
    | intro _
    | dsimp only
    | split

theorem binWrite_moves (value : Word) {M : List Part} {s0 s : State} (hw : inMask [.regs, .ans, .tdc] M = true) (h0 : Moves M s0 s) : Moves M s0 (binWrite value s) := by
  refine Moves.via (N := [.regs, .ans, .tdc]) ?_ hw h0
  clear hw h0
  have hK := Moves.refl [.regs, .ans, .tdc] s
  unfold binWrite
  iterate 60 all_goals first
    | with_reducible assumption
    | ((with_reducible apply answer_moves (hw := ?w)); case w => rfl)
    | ((with_reducible apply nextBin_moves (hw := ?w)); case w => rfl)
    | ((with_reducible apply showCal_moves (hw := ?w)); case w => rfl)
    | ((with_reducible apply modTdc_moves (hw := ?w)); case w => rfl)
    | intro _
    | dsimp only
    | split

theorem qRdWrite_moves (c : Nat) (value : Word) {M : List Part} {s0 s : State} (hw : inMask [.regs, .shadowS, .shadowF, .ans] M = true) (h0 : Moves M s0 s) : Moves M s0 (qRdWrite c value s) := by
  refine Moves.via (N := [.regs, .shadowS, .shadowF, .ans]) ?_ hw h0
  clear hw h0
  have hK := Moves.refl [.regs, .shadowS, .shadowF, .ans] s
  unfold qRdWrite
  iterate 60 all_goals first
    | with_reducible assumption
    | ((with_reducible apply answer_moves (hw := ?w)); case w => rfl)
    | ((with_reducible apply accept_moves (hw := ?w)); case w => rfl)
    | intro _
    | dsimp only
    | split

theorem execTdcQRdWrite_moves (q : Req) (c : Fin 512) (value : Word) {s s' : State} (h : execTdcQRdWrite q c value s = .next s') : Moves [.regs, .shadowS, .shadowF, .ans] s s' := by
  unfold execTdcQRdWrite at h
  have hK := Moves.refl [.regs, .shadowS, .shadowF, .ans] s
  all_goals injection h with h
  all_goals subst h
  iterate 60 all_goals first
    | with_reducible assumption
    | ((with_reducible apply guarded_moves (hw := ?w)); case w => rfl)
    | ((with_reducible apply qRdWrite_moves (hw := ?w)); case w => rfl)
    | intro _
    | dsimp only
    | split

theorem execCalCd_moves (q : Req) (g : Fin 16) (force : Bool) {s s' : State} (h : execCalCd q g force s = .next s') : Moves [.regs, .ans, .links, .tdc] s s' := by
  unfold execCalCd at h
  have hK := Moves.refl [.regs, .ans, .links, .tdc] s
  all_goals injection h with h
  all_goals subst h
  iterate 60 all_goals first
    | with_reducible assumption
    | ((with_reducible apply guarded_moves (hw := ?w)); case w => rfl)
    | ((with_reducible apply calCd_moves (hw := ?w)); case w => rfl)
    | intro _
    | dsimp only
    | split

theorem execScheduledCdCal_moves (g : Fin 16) (k : Fin 32) {s s' : State} (h : execScheduledCdCal g k s = .next s') : Moves [.regs, .links, .tdc] s s' := by
  unfold execScheduledCdCal at h
  have hK := Moves.refl [.regs, .links, .tdc] s
  all_goals injection h with h
  all_goals subst h
  iterate 60 all_goals first
    | with_reducible assumption
    | ((with_reducible apply startCd_moves (hw := ?w)); case w => rfl)
    | intro _
    | dsimp only
    | split

theorem execCdCalComplete_moves (g : Fin 16) (k : Fin 32) (obs : CdObs) {s s' : State} (h : execCdCalComplete g k obs s = .next s') : Moves [.regs, .flt, .links, .tdc] s s' := by
  unfold execCdCalComplete at h
  have hK := Moves.refl [.regs, .flt, .links, .tdc] s
  all_goals injection h with h
  all_goals subst h
  iterate 60 all_goals first
    | with_reducible assumption
    | ((with_reducible apply cdComplete_moves (hw := ?w)); case w => rfl)
    | intro _
    | dsimp only
    | split

theorem execBinDataWrite_moves (q : Req) (value : Word) {s s' : State} (h : execBinDataWrite q value s = .next s') : Moves [.regs, .ans, .tdc] s s' := by
  unfold execBinDataWrite at h
  have hK := Moves.refl [.regs, .ans, .tdc] s
  all_goals injection h with h
  all_goals subst h
  iterate 60 all_goals first
    | with_reducible assumption
    | ((with_reducible apply guarded_moves (hw := ?w)); case w => rfl)
    | ((with_reducible apply binWrite_moves (hw := ?w)); case w => rfl)
    | intro _
    | dsimp only
    | split

theorem execBinDataRead_moves (q : Req) {s s' : State} (h : execBinDataRead q s = .next s') : Moves [.regs, .ans] s s' := by
  unfold execBinDataRead at h
  have hK := Moves.refl [.regs, .ans] s
  all_goals injection h with h
  all_goals subst h
  iterate 60 all_goals first
    | with_reducible assumption
    | ((with_reducible apply guardedRead_moves (hw := ?w)); case w => rfl)
    | ((with_reducible apply answerData_moves (hw := ?w)); case w => rfl)
    | ((with_reducible apply nextBin_moves (hw := ?w)); case w => rfl)
    | intro _
    | dsimp only
    | split

theorem execBinTableStale_moves (c : Fin 512) {s s' : State} (h : execBinTableStale c s = .next s') : Moves [.regs, .flt, .tdc] s s' := by
  unfold execBinTableStale at h
  have hK := Moves.refl [.regs, .flt, .tdc] s
  all_goals injection h with h
  all_goals subst h
  iterate 60 all_goals first
    | with_reducible assumption
    | ((with_reducible apply showCal_moves (hw := ?w)); case w => rfl)
    | ((with_reducible apply showStale_moves (hw := ?w)); case w => rfl)
    | ((with_reducible apply noteStale_moves (hw := ?w)); case w => rfl)
    | ((with_reducible apply modTdc_moves (hw := ?w)); case w => rfl)
    | intro _
    | dsimp only
    | split

end Sys2Proof.Laws
end

