-- ==== Sys2Proof/Laws/MovesLinkIn.lean ====
section
/-! SUPPORT. What the operations of Machine/LinkIn.lean may change of the state, and that they keep what no operation breaks. -/

namespace Sys2Proof.Laws

open Sys2Proof Sys2Proof.Machine

theorem badSeq_moves (g : Nat) {M : List Part} {s0 s : State} (hw : inMask [.regs] M = true) (h0 : Moves M s0 s) : Moves M s0 (badSeq g s) := by
  refine Moves.via (N := [.regs]) ?_ hw h0
  clear hw h0
  have hK := Moves.refl [.regs] s
  unfold badSeq
  iterate 60 all_goals first
    | with_reducible assumption
    | ((with_reducible apply orReg_moves (hw := ?w)); case w => rfl)
    | ((with_reducible apply incWrap_moves (hw := ?w)); case w => rfl)
    | intro _
    | dsimp only
    | split

theorem modSent_moves (g : Nat) (p : SentFrame → Bool) (f : SentFrame → SentFrame) {M : List Part} {s0 s : State} (hw : inMask [.links] M = true) (h0 : Moves M s0 s) : Moves M s0 (modSent g p f s) := by
  refine Moves.via (N := [.links]) ?_ hw h0
  clear hw h0
  have hK := Moves.refl [.links] s
  unfold modSent
  iterate 60 all_goals first
    | with_reducible assumption
    | ((with_reducible apply modLink_moves (hw := ?w)); case w => rfl)
    | intro _
    | dsimp only
    | split

theorem frameLost_moves (g fseq reason : Nat) {M : List Part} {s0 s : State} (hw : inMask [.regs, .flt, .links] M = true) (h0 : Moves M s0 s) : Moves M s0 (frameLost g fseq reason s) := by
  refine Moves.via (N := [.regs, .flt, .links]) ?_ hw h0
  clear hw h0
  have hK := Moves.refl [.regs, .flt, .links] s
  unfold frameLost
  iterate 60 all_goals first
    | with_reducible assumption
    | ((with_reducible apply modSent_moves (hw := ?w)); case w => rfl)
    | ((with_reducible apply setRegN_moves (hw := ?w)); case w => rfl)
    | ((with_reducible apply incWrap_moves (hw := ?w)); case w => rfl)
    | ((with_reducible apply orReg_moves (hw := ?w)); case w => rfl)
    | ((with_reducible apply showLead_moves (hw := ?w)); case w => rfl)
    | ((with_reducible apply raise_moves (hw := ?w)); case w => rfl)
    | intro _
    | dsimp only
    | split

theorem leadUnderrun_moves (g fseq : Nat) {M : List Part} {s0 s : State} (hw : inMask [.regs, .flt, .links] M = true) (h0 : Moves M s0 s) : Moves M s0 (leadUnderrun g fseq s) := by
  refine Moves.via (N := [.regs, .flt, .links]) ?_ hw h0
  clear hw h0
  have hK := Moves.refl [.regs, .flt, .links] s
  unfold leadUnderrun
  iterate 60 all_goals first
    | with_reducible assumption
    | ((with_reducible apply modLink_moves (hw := ?w)); case w => rfl)
    | ((with_reducible apply raise_moves (hw := ?w)); case w => rfl)
    | ((with_reducible apply orReg_moves (hw := ?w)); case w => rfl)
    | intro _
    | dsimp only
    | split

theorem modProbe_moves (g l : Nat) (f : Probe → Probe) {M : List Part} {s0 s : State} (hw : inMask [.links] M = true) (h0 : Moves M s0 s) : Moves M s0 (modProbe g l f s) := by
  refine Moves.via (N := [.links]) ?_ hw h0
  clear hw h0
  have hK := Moves.refl [.links] s
  unfold modProbe
  iterate 60 all_goals first
    | with_reducible assumption
    | ((with_reducible apply modLink_moves (hw := ?w)); case w => rfl)
    | intro _
    | dsimp only
    | split

theorem alignAgain_moves (g : Nat) {M : List Part} {s0 s : State} (hw : inMask [.regs, .links] M = true) (h0 : Moves M s0 s) : Moves M s0 (alignAgain g s) := by
  refine Moves.via (N := [.regs, .links]) ?_ hw h0
  clear hw h0
  have hK := Moves.refl [.regs, .links] s
  unfold alignAgain
  iterate 60 all_goals first
    | with_reducible assumption
    | ((with_reducible apply setBit_moves (hw := ?w)); case w => rfl)
    | ((with_reducible apply modLink_moves (hw := ?w)); case w => rfl)
    | intro _
    | dsimp only
    | split

theorem noteArrival_moves (g l f t : Nat) {M : List Part} {s0 s : State} (hw : inMask [.links] M = true) (h0 : Moves M s0 s) : Moves M s0 (noteArrival g l f t s) := by
  refine Moves.via (N := [.links]) ?_ hw h0
  clear hw h0
  have hK := Moves.refl [.links] s
  unfold noteArrival
  iterate 60 all_goals first
    | with_reducible assumption
    | ((with_reducible apply modLink_moves (hw := ?w)); case w => rfl)
    | ((with_reducible apply modProbe_moves (hw := ?w)); case w => rfl)
    | intro _
    | dsimp only
    | split

theorem sendAdjust_moves (g : Nat) (corr : Int) {M : List Part} {s0 s : State} (hw : inMask [.regs, .links] M = true) (h0 : Moves M s0 s) : Moves M s0 (sendAdjust g corr s) := by
  refine Moves.via (N := [.regs, .links]) ?_ hw h0
  clear hw h0
  have hK := Moves.refl [.regs, .links] s
  unfold sendAdjust
  iterate 60 all_goals first
    | with_reducible assumption
    | ((with_reducible apply modLink_moves (hw := ?w)); case w => rfl)
    | ((with_reducible apply orReg_moves (hw := ?w)); case w => rfl)
    | ((with_reducible apply setRegN_moves (hw := ?w)); case w => rfl)
    | intro _
    | dsimp only
    | split

theorem restartRuns_moves (g : Nat) {M : List Part} {s0 s : State} (hw : inMask [.links] M = true) (h0 : Moves M s0 s) : Moves M s0 (restartRuns g s) := by
  refine Moves.via (N := [.links]) ?_ hw h0
  clear hw h0
  have hK := Moves.refl [.links] s
  unfold restartRuns
  iterate 60 all_goals first
    | with_reducible assumption
    | ((with_reducible apply modLink_moves (hw := ?w)); case w => rfl)
    | intro _
    | dsimp only
    | split

theorem alignProbe_moves (g l : Nat) (th : Int) (within : Bool) {M : List Part} {s0 s : State} (hw : inMask [.regs, .links] M = true) (h0 : Moves M s0 s) : Moves M s0 (alignProbe g l th within s) := by
  refine Moves.via (N := [.regs, .links]) ?_ hw h0
  clear hw h0
  have hK := Moves.refl [.regs, .links] s
  unfold alignProbe
  iterate 60 all_goals first
    | with_reducible assumption
    | ((with_reducible apply modProbe_moves (hw := ?w)); case w => rfl)
    | ((with_reducible apply modLink_moves (hw := ?w)); case w => rfl)
    | ((with_reducible apply restartRuns_moves (hw := ?w)); case w => rfl)
    | ((with_reducible apply sendAdjust_moves (hw := ?w)); case w => rfl)
    | ((with_reducible apply setBit_moves (hw := ?w)); case w => rfl)
    | intro _
    | dsimp only
    | split

theorem probeDone_moves (g l t1 t2 t3 t4 : Nat) {M : List Part} {s0 s : State} (hw : inMask [.regs, .flt, .links] M = true) (h0 : Moves M s0 s) : Moves M s0 (probeDone g l t1 t2 t3 t4 s) := by
  refine Moves.via (N := [.regs, .flt, .links]) ?_ hw h0
  clear hw h0
  have hK := Moves.refl [.regs, .flt, .links] s
  unfold probeDone
  iterate 60 all_goals first
    | with_reducible assumption
    | ((with_reducible apply setRegN_moves (hw := ?w)); case w => rfl)
    | ((with_reducible apply raise_moves (hw := ?w)); case w => rfl)
    | ((with_reducible apply sendAdjust_moves (hw := ?w)); case w => rfl)
    | ((with_reducible apply alignAgain_moves (hw := ?w)); case w => rfl)
    | ((with_reducible apply modLink_moves (hw := ?w)); case w => rfl)
    | ((with_reducible apply alignProbe_moves (hw := ?w)); case w => rfl)
    | intro _
    | dsimp only
    | split

theorem techoRx_moves (g e f : Nat) {M : List Part} {s0 s : State} (hw : inMask [.links] M = true) (h0 : Moves M s0 s) : Moves M s0 (techoRx g e f s) := by
  refine Moves.via (N := [.links]) ?_ hw h0
  clear hw h0
  have hK := Moves.refl [.links] s
  unfold techoRx
  iterate 60 all_goals first
    | with_reducible assumption
    | ((with_reducible apply modProbe_moves (hw := ?w)); case w => rfl)
    | intro _
    | dsimp only
    | split

theorem techoTx_moves (g e : Nat) {M : List Part} {s0 s : State} (hw : inMask [.regs, .flt, .links] M = true) (h0 : Moves M s0 s) : Moves M s0 (techoTx g e s) := by
  refine Moves.via (N := [.regs, .flt, .links]) ?_ hw h0
  clear hw h0
  have hK := Moves.refl [.regs, .flt, .links] s
  unfold techoTx
  iterate 60 all_goals first
    | with_reducible assumption
    | ((with_reducible apply probeDone_moves (hw := ?w)); case w => rfl)
    | ((with_reducible apply modProbe_moves (hw := ?w)); case w => rfl)
    | intro _
    | dsimp only
    | split

theorem lostEntry_moves (g e : Nat) {M : List Part} {s0 s : State} (hw : inMask [.regs, .flt, .links] M = true) (h0 : Moves M s0 s) : Moves M s0 (lostEntry g e s) := by
  refine Moves.via (N := [.regs, .flt, .links]) ?_ hw h0
  clear hw h0
  have hK := Moves.refl [.regs, .flt, .links] s
  unfold lostEntry
  iterate 60 all_goals first
    | with_reducible assumption
    | ((with_reducible apply modLink_moves (hw := ?w)); case w => rfl)
    | ((with_reducible apply orReg_moves (hw := ?w)); case w => rfl)
    | ((with_reducible apply leadUnderrun_moves (hw := ?w)); case w => rfl)
    | ((with_reducible apply frameLost_moves (hw := ?w)); case w => rfl)
    | intro _
    | dsimp only
    | split

theorem reconcile_moves (g extra : Nat) (fs : List Nat) {M : List Part} {s0 s : State} (hw : inMask [.regs, .flt, .links] M = true) (h0 : Moves M s0 s) : Moves M s0 (reconcile g extra fs s) := by
  refine Moves.via (N := [.regs, .flt, .links]) ?_ hw h0
  clear hw h0
  have hK := Moves.refl [.regs, .flt, .links] s
  unfold reconcile
  iterate 60 all_goals first
    | with_reducible assumption
    | ((with_reducible apply frameLost_moves (hw := ?w)); case w => rfl)
    | with_reducible apply Moves.foldl
    | intro _
    | dsimp only
    | split

theorem applyFrames_moves (g : Nat) (fs : List Nat) {M : List Part} {s0 s : State} (hw : inMask [.regs, .links] M = true) (h0 : Moves M s0 s) : Moves M s0 (applyFrames g fs s) := by
  refine Moves.via (N := [.regs, .links]) ?_ hw h0
  clear hw h0
  have hK := Moves.refl [.regs, .links] s
  unfold applyFrames
  iterate 60 all_goals first
    | with_reducible assumption
    | ((with_reducible apply modSent_moves (hw := ?w)); case w => rfl)
    | ((with_reducible apply setRegN_moves (hw := ?w)); case w => rfl)
    | ((with_reducible apply showLead_moves (hw := ?w)); case w => rfl)
    | ((with_reducible apply incWrap_moves (hw := ?w)); case w => rfl)
    | intro _
    | dsimp only
    | split

theorem noteLead_moves (g : Nat) {M : List Part} {s0 s : State} (hw : inMask [.regs, .flt, .links] M = true) (h0 : Moves M s0 s) : Moves M s0 (noteLead g s) := by
  refine Moves.via (N := [.regs, .flt, .links]) ?_ hw h0
  clear hw h0
  have hK := Moves.refl [.regs, .flt, .links] s
  unfold noteLead
  iterate 60 all_goals first
    | with_reducible assumption
    | ((with_reducible apply setRegN_moves (hw := ?w)); case w => rfl)
    | ((with_reducible apply leadUnderrun_moves (hw := ?w)); case w => rfl)
    | intro _
    | dsimp only
    | split

theorem consumeMap_moves (g released : Nat) {M : List Part} {s0 s : State} (hw : inMask [.regs, .ans, .net, .links] M = true) (h0 : Moves M s0 s) : Moves M s0 (consumeMap g released s) := by
  refine Moves.via (N := [.regs, .ans, .net, .links]) ?_ hw h0
  clear hw h0
  have hK := Moves.refl [.regs, .ans, .net, .links] s
  unfold consumeMap
  iterate 60 all_goals first
    | with_reducible assumption
    | ((with_reducible apply modLink_moves (hw := ?w)); case w => rfl)
    | ((with_reducible apply setBit_moves (hw := ?w)); case w => rfl)
    | ((with_reducible apply finishCommits_moves (hw := ?w)); case w => rfl)
    | intro _
    | dsimp only
    | split

theorem compStatus_moves (g st : Nat) {M : List Part} {s0 s : State} (hw : inMask [.regs, .flt] M = true) (h0 : Moves M s0 s) : Moves M s0 (compStatus g st s) := by
  refine Moves.via (N := [.regs, .flt]) ?_ hw h0
  clear hw h0
  have hK := Moves.refl [.regs, .flt] s
  unfold compStatus
  iterate 60 all_goals first
    | with_reducible assumption
    | ((with_reducible apply raise_moves (hw := ?w)); case w => rfl)
    | ((with_reducible apply setBit_moves (hw := ?w)); case w => rfl)
    | ((with_reducible apply setFld_moves (hw := ?w)); case w => rfl)
    | intro _
    | dsimp only
    | split

theorem summary_moves (g e : Nat) {M : List Part} {s0 s : State} (hw : inMask [.regs, .ans, .net, .flt, .links] M = true) (h0 : Moves M s0 s) : Moves M s0 (summary g e s) := by
  refine Moves.via (N := [.regs, .ans, .net, .flt, .links]) ?_ hw h0
  clear hw h0
  have hK := Moves.refl [.regs, .ans, .net, .flt, .links] s
  unfold summary
  iterate 60 all_goals first
    | with_reducible assumption
    | ((with_reducible apply setFld_moves (hw := ?w)); case w => rfl)
    | ((with_reducible apply compStatus_moves (hw := ?w)); case w => rfl)
    | ((with_reducible apply reconcile_moves (hw := ?w)); case w => rfl)
    | ((with_reducible apply modLink_moves (hw := ?w)); case w => rfl)
    | ((with_reducible apply consumeMap_moves (hw := ?w)); case w => rfl)
    | ((with_reducible apply noteLead_moves (hw := ?w)); case w => rfl)
    | ((with_reducible apply applyFrames_moves (hw := ?w)); case w => rfl)
    | intro _
    | dsimp only
    | split

theorem crData_moves (g e : Nat) {M : List Part} {s0 s : State} (hw : inMask [.regs, .links, .tst] M = true) (h0 : Moves M s0 s) : Moves M s0 (crData g e s) := by
  refine Moves.via (N := [.regs, .links, .tst]) ?_ hw h0
  clear hw h0
  have hK := Moves.refl [.regs, .links, .tst] s
  unfold crData
  iterate 60 all_goals first
    | with_reducible assumption
    | ((with_reducible apply modLink_moves (hw := ?w)); case w => rfl)
    | ((with_reducible apply modTst_moves (hw := ?w)); case w => rfl)
    | ((with_reducible apply showTrims_moves (hw := ?w)); case w => rfl)
    | intro _
    | dsimp only
    | split

theorem inwardEntry_moves (g f e : Nat) {M : List Part} {s0 s : State} (hw : inMask [.regs, .flt, .links, .tst] M = true) (h0 : Moves M s0 s) : Moves M s0 (inwardEntry g f s e) := by
  refine Moves.via (N := [.regs, .flt, .links, .tst]) ?_ hw h0
  clear hw h0
  have hK := Moves.refl [.regs, .flt, .links, .tst] s
  unfold inwardEntry
  iterate 60 all_goals first
    | with_reducible assumption
    | ((with_reducible apply techoRx_moves (hw := ?w)); case w => rfl)
    | ((with_reducible apply techoTx_moves (hw := ?w)); case w => rfl)
    | ((with_reducible apply crData_moves (hw := ?w)); case w => rfl)
    | ((with_reducible apply badSeq_moves (hw := ?w)); case w => rfl)
    | intro _
    | dsimp only
    | split

theorem inwardEntries_moves (g f : Nat) (es : List Nat) {M : List Part} {s0 s : State} (hw : inMask [.regs, .ans, .net, .flt, .links, .tst] M = true) (h0 : Moves M s0 s) : Moves M s0 (inwardEntries g f es s) := by
  refine Moves.via (N := [.regs, .ans, .net, .flt, .links, .tst]) ?_ hw h0
  clear hw h0
  have hK := Moves.refl [.regs, .ans, .net, .flt, .links, .tst] s
  unfold inwardEntries
  iterate 60 all_goals first
    | with_reducible assumption
    | ((with_reducible apply lostEntry_moves (hw := ?w)); case w => rfl)
    | ((with_reducible apply summary_moves (hw := ?w)); case w => rfl)
    | ((with_reducible apply inwardEntry_moves (hw := ?w)); case w => rfl)
    | with_reducible apply Moves.foldl
    | intro _
    | dsimp only
    | split

theorem intakeChannel_moves (g k : Nat) (x : SentFrame) (payload : List Nat) {M : List Part} {s0 s : State} (hw : inMask [.regs, .mea] M = true) (h0 : Moves M s0 s) : Moves M s0 (intakeChannel g k x payload s) := by
  refine Moves.via (N := [.regs, .mea]) ?_ hw h0
  clear hw h0
  have hK := Moves.refl [.regs, .mea] s
  unfold intakeChannel
  iterate 60 all_goals first
    | with_reducible assumption
    | ((with_reducible apply intake_moves (hw := ?w)); case w => rfl)
    | with_reducible apply Moves.foldl
    | intro _
    | dsimp only
    | split

theorem intakeFrame_moves (g : Nat) (x : SentFrame) (payload : List Nat) {M : List Part} {s0 s : State} (hw : inMask [.regs, .mea] M = true) (h0 : Moves M s0 s) : Moves M s0 (intakeFrame g x payload s) := by
  refine Moves.via (N := [.regs, .mea]) ?_ hw h0
  clear hw h0
  have hK := Moves.refl [.regs, .mea] s
  unfold intakeFrame
  iterate 60 all_goals first
    | with_reducible assumption
    | ((with_reducible apply intakeChannel_moves (hw := ?w)); case w => rfl)
    | with_reducible apply Moves.foldl
    | intro _
    | dsimp only
    | split

theorem resultsLost_moves (g : Nat) (x : SentFrame) {M : List Part} {s0 s : State} (hw : inMask [.regs, .mem, .flt, .seq, .links, .cmp, .trg, .mea, .tdc, .hbm] M = true) (h0 : Moves M s0 s) : Moves M s0 (resultsLost g x s) := by
  refine Moves.via (N := [.regs, .mem, .flt, .seq, .links, .cmp, .trg, .mea, .tdc, .hbm]) ?_ hw h0
  clear hw h0
  have hK := Moves.refl [.regs, .mem, .flt, .seq, .links, .cmp, .trg, .mea, .tdc, .hbm] s
  unfold resultsLost
  iterate 60 all_goals first
    | with_reducible assumption
    | ((with_reducible apply modSent_moves (hw := ?w)); case w => rfl)
    | ((with_reducible apply orReg_moves (hw := ?w)); case w => rfl)
    | ((with_reducible apply incWrap_moves (hw := ?w)); case w => rfl)
    | ((with_reducible apply raise_moves (hw := ?w)); case w => rfl)
    | ((with_reducible apply judgeReady_moves (hw := ?w)); case w => rfl)
    | ((with_reducible apply tdcLoss_moves (hw := ?w)); case w => rfl)
    | ((with_reducible apply intakeFrame_moves (hw := ?w)); case w => rfl)
    | intro _
    | dsimp only
    | split

theorem answerLost_moves (g : Nat) (x : SentFrame) {M : List Part} {s0 s : State} (hw : inMask [.regs, .mem, .flt, .seq, .links, .cmp, .trg, .mea, .tdc, .hbm] M = true) (h0 : Moves M s0 s) : Moves M s0 (answerLost g s x) := by
  refine Moves.via (N := [.regs, .mem, .flt, .seq, .links, .cmp, .trg, .mea, .tdc, .hbm]) ?_ hw h0
  clear hw h0
  have hK := Moves.refl [.regs, .mem, .flt, .seq, .links, .cmp, .trg, .mea, .tdc, .hbm] s
  unfold answerLost
  iterate 60 all_goals first
    | with_reducible assumption
    | ((with_reducible apply resultsLost_moves (hw := ?w)); case w => rfl)
    | ((with_reducible apply modSent_moves (hw := ?w)); case w => rfl)
    | intro _
    | dsimp only
    | split

theorem settleGap_moves (g : Nat) (isData : Bool) {M : List Part} {s0 s : State} (hw : inMask [.regs, .mem, .flt, .seq, .links, .cmp, .trg, .mea, .tdc, .hbm] M = true) (h0 : Moves M s0 s) : Moves M s0 (settleGap g isData s) := by
  refine Moves.via (N := [.regs, .mem, .flt, .seq, .links, .cmp, .trg, .mea, .tdc, .hbm]) ?_ hw h0
  clear hw h0
  have hK := Moves.refl [.regs, .mem, .flt, .seq, .links, .cmp, .trg, .mea, .tdc, .hbm] s
  unfold settleGap
  iterate 60 all_goals first
    | with_reducible assumption
    | ((with_reducible apply modLink_moves (hw := ?w)); case w => rfl)
    | ((with_reducible apply answerLost_moves (hw := ?w)); case w => rfl)
    | ((with_reducible apply raise_moves (hw := ?w)); case w => rfl)
    | with_reducible apply Moves.foldl
    | intro _
    | dsimp only
    | split

theorem checkEchoes_moves (g : Nat) (x : SentFrame) (es : List Nat) {M : List Part} {s0 s : State} (hw : inMask [.regs, .flt] M = true) (h0 : Moves M s0 s) : Moves M s0 (checkEchoes g x es s) := by
  refine Moves.via (N := [.regs, .flt]) ?_ hw h0
  clear hw h0
  have hK := Moves.refl [.regs, .flt] s
  unfold checkEchoes
  iterate 60 all_goals first
    | with_reducible assumption
    | ((with_reducible apply orReg_moves (hw := ?w)); case w => rfl)
    | ((with_reducible apply raise_moves (hw := ?w)); case w => rfl)
    | intro _
    | dsimp only
    | split

theorem answerFrame_moves (g : Nat) (fr : Frame) {M : List Part} {s0 s : State} (hw : inMask [.regs, .mem, .flt, .seq, .links, .cmp, .trg, .mea, .tdc, .hbm] M = true) (h0 : Moves M s0 s) : Moves M s0 (answerFrame g fr s) := by
  refine Moves.via (N := [.regs, .mem, .flt, .seq, .links, .cmp, .trg, .mea, .tdc, .hbm]) ?_ hw h0
  clear hw h0
  have hK := Moves.refl [.regs, .mem, .flt, .seq, .links, .cmp, .trg, .mea, .tdc, .hbm] s
  unfold answerFrame
  iterate 60 all_goals first
    | with_reducible assumption
    | ((with_reducible apply modSent_moves (hw := ?w)); case w => rfl)
    | ((with_reducible apply checkEchoes_moves (hw := ?w)); case w => rfl)
    | ((with_reducible apply intakeFrame_moves (hw := ?w)); case w => rfl)
    | ((with_reducible apply tdcLoss_moves (hw := ?w)); case w => rfl)
    | ((with_reducible apply tdcFrame_moves (hw := ?w)); case w => rfl)
    | ((with_reducible apply judgeReady_moves (hw := ?w)); case w => rfl)
    | intro _
    | dsimp only
    | split

theorem deliver_moves (g : Nat) (fr : Frame) {M : List Part} {s0 s : State} (hw : inMask [.regs, .mem, .ans, .net, .flt, .seq, .links, .tst, .cmp, .trg, .mea, .tdc, .hbm] M = true) (h0 : Moves M s0 s) : Moves M s0 (deliver g fr s) := by
  refine Moves.via (N := [.regs, .mem, .ans, .net, .flt, .seq, .links, .tst, .cmp, .trg, .mea, .tdc, .hbm]) ?_ hw h0
  clear hw h0
  have hK := Moves.refl [.regs, .mem, .ans, .net, .flt, .seq, .links, .tst, .cmp, .trg, .mea, .tdc, .hbm] s
  unfold deliver
  iterate 60 all_goals first
    | with_reducible assumption
    | ((with_reducible apply inwardEntries_moves (hw := ?w)); case w => rfl)
    | ((with_reducible apply settleGap_moves (hw := ?w)); case w => rfl)
    | ((with_reducible apply answerFrame_moves (hw := ?w)); case w => rfl)
    | ((with_reducible apply modLink_moves (hw := ?w)); case w => rfl)
    | intro _
    | dsimp only
    | split

theorem mergeNext_moves (g n : Nat) {M : List Part} {s0 s : State} (hw : inMask [.regs, .links] M = true) (h0 : Moves M s0 s) : Moves M s0 (mergeNext g n s) := by
  refine Moves.via (N := [.regs, .links]) ?_ hw h0
  clear hw h0
  have hK := Moves.refl [.regs, .links] s
  unfold mergeNext
  iterate 60 all_goals first
    | with_reducible assumption
    | ((with_reducible apply setRegN_moves (hw := ?w)); case w => rfl)
    | ((with_reducible apply modLink_moves (hw := ?w)); case w => rfl)
    | intro _
    | dsimp only
    | split

theorem drain_moves (g x0 : Nat) {M : List Part} {s0 s : State} (hw : inMask [.regs, .mem, .ans, .net, .flt, .seq, .links, .tst, .cmp, .trg, .mea, .tdc, .hbm] M = true) (h0 : Moves M s0 s) : Moves M s0 (drain g x0 s) := by
  refine Moves.via (N := [.regs, .mem, .ans, .net, .flt, .seq, .links, .tst, .cmp, .trg, .mea, .tdc, .hbm]) ?_ hw h0
  clear hw h0
  induction x0 generalizing g s with
  | zero =>
    have hK := Moves.refl [.regs, .mem, .ans, .net, .flt, .seq, .links, .tst, .cmp, .trg, .mea, .tdc, .hbm] s
    unfold drain
    iterate 60 all_goals first
      | with_reducible assumption
      | ((with_reducible apply modLink_moves (hw := ?w)); case w => rfl)
      | ((with_reducible apply deliver_moves (hw := ?w)); case w => rfl)
      | ((with_reducible apply mergeNext_moves (hw := ?w)); case w => rfl)
      | ((with_reducible apply orReg_moves (hw := ?w)); case w => rfl)
      | ((with_reducible apply incWrap_moves (hw := ?w)); case w => rfl)
      | intro _
      | dsimp only
      | split
  | succ n ih =>
    have hK := Moves.refl [.regs, .mem, .ans, .net, .flt, .seq, .links, .tst, .cmp, .trg, .mea, .tdc, .hbm] s
    unfold drain
    iterate 60 all_goals first
      | with_reducible assumption
      | ((with_reducible apply modLink_moves (hw := ?w)); case w => rfl)
      | ((with_reducible apply deliver_moves (hw := ?w)); case w => rfl)
      | ((with_reducible apply mergeNext_moves (hw := ?w)); case w => rfl)
      | ((with_reducible apply orReg_moves (hw := ?w)); case w => rfl)
      | ((with_reducible apply incWrap_moves (hw := ?w)); case w => rfl)
      | with_reducible refine Moves.trans ?_ (ih ..)
      | intro _
      | dsimp only
      | split

theorem mergeFrame_moves (g l : Nat) (fr : Frame) {M : List Part} {s0 s : State} (hw : inMask [.regs, .mem, .ans, .net, .flt, .seq, .links, .tst, .cmp, .trg, .mea, .tdc, .hbm] M = true) (h0 : Moves M s0 s) : Moves M s0 (mergeFrame g l fr s) := by
  refine Moves.via (N := [.regs, .mem, .ans, .net, .flt, .seq, .links, .tst, .cmp, .trg, .mea, .tdc, .hbm]) ?_ hw h0
  clear hw h0
  have hK := Moves.refl [.regs, .mem, .ans, .net, .flt, .seq, .links, .tst, .cmp, .trg, .mea, .tdc, .hbm] s
  unfold mergeFrame
  iterate 60 all_goals first
    | with_reducible assumption
    | ((with_reducible apply setBit_moves (hw := ?w)); case w => rfl)
    | ((with_reducible apply modLink_moves (hw := ?w)); case w => rfl)
    | ((with_reducible apply incWrap_moves (hw := ?w)); case w => rfl)
    | ((with_reducible apply badSeq_moves (hw := ?w)); case w => rfl)
    | ((with_reducible apply drain_moves (hw := ?w)); case w => rfl)
    | intro _
    | dsimp only
    | split

theorem leaveMerge_moves (g l : Nat) {M : List Part} {s0 s : State} (hw : inMask [.regs, .mem, .ans, .net, .flt, .seq, .links, .tst, .cmp, .trg, .mea, .tdc, .hbm] M = true) (h0 : Moves M s0 s) : Moves M s0 (leaveMerge g l s) := by
  refine Moves.via (N := [.regs, .mem, .ans, .net, .flt, .seq, .links, .tst, .cmp, .trg, .mea, .tdc, .hbm]) ?_ hw h0
  clear hw h0
  have hK := Moves.refl [.regs, .mem, .ans, .net, .flt, .seq, .links, .tst, .cmp, .trg, .mea, .tdc, .hbm] s
  unfold leaveMerge
  iterate 60 all_goals first
    | with_reducible assumption
    | ((with_reducible apply setBit_moves (hw := ?w)); case w => rfl)
    | ((with_reducible apply modLink_moves (hw := ?w)); case w => rfl)
    | ((with_reducible apply drain_moves (hw := ?w)); case w => rfl)
    | intro _
    | dsimp only
    | split

end Sys2Proof.Laws
end

