-- ==== Sys2Proof/Laws/MovesLanes.lean ====
section
/-! SUPPORT. What the operations of Machine/Lanes.lean may change of the state, and that they keep what no operation breaks. -/

namespace Sys2Proof.Laws

open Sys2Proof Sys2Proof.Machine

theorem modLane_moves (g l : Nat) (f : Lane → Lane) {M : List Part} {s0 s : State} (hw : inMask [.lanes] M = true) (h0 : Moves M s0 s) : Moves M s0 (modLane g l f s) := by
  refine Moves.via (N := [.lanes]) ?_ hw h0
  clear hw h0
  have hK := Moves.refl [.lanes] s
  unfold modLane
  iterate 60 all_goals first
    | with_reducible assumption
    | intro _
    | dsimp only
    | split
    | ((with_reducible apply Moves.update) <;> first | (with_reducible exact Or.inl rfl) | exact Or.inr (by decide) | skip)

theorem setLaneState_moves (g l code : Nat) {M : List Part} {s0 s : State} (hw : inMask [.regs] M = true) (h0 : Moves M s0 s) : Moves M s0 (setLaneState g l code s) := by
  refine Moves.via (N := [.regs]) ?_ hw h0
  clear hw h0
  have hK := Moves.refl [.regs] s
  unfold setLaneState
  iterate 60 all_goals first
    | with_reducible assumption
    | ((with_reducible apply setFld_moves (hw := ?w)); case w => rfl)
    | intro _
    | dsimp only
    | split

theorem putOut_moves (g l n v : Nat) {M : List Part} {s0 s : State} (hw : inMask [.lanes] M = true) (h0 : Moves M s0 s) : Moves M s0 (putOut g l n v s) := by
  refine Moves.via (N := [.lanes]) ?_ hw h0
  clear hw h0
  have hK := Moves.refl [.lanes] s
  unfold putOut
  iterate 60 all_goals first
    | with_reducible assumption
    | ((with_reducible apply modLane_moves (hw := ?w)); case w => rfl)
    | intro _
    | dsimp only
    | split

theorem sendTraining_moves (g l : Nat) {M : List Part} {s0 s : State} (hw : inMask [.lanes] M = true) (h0 : Moves M s0 s) : Moves M s0 (sendTraining g l s) := by
  refine Moves.via (N := [.lanes]) ?_ hw h0
  clear hw h0
  have hK := Moves.refl [.lanes] s
  unfold sendTraining
  iterate 60 all_goals first
    | with_reducible assumption
    | ((with_reducible apply putOut_moves (hw := ?w)); case w => rfl)
    | ((with_reducible apply modLane_moves (hw := ?w)); case w => rfl)
    | intro _
    | dsimp only
    | split

theorem enterDetect_moves (g l : Nat) {M : List Part} {s0 s : State} (hw : inMask [.regs, .lanes] M = true) (h0 : Moves M s0 s) : Moves M s0 (enterDetect g l s) := by
  refine Moves.via (N := [.regs, .lanes]) ?_ hw h0
  clear hw h0
  have hK := Moves.refl [.regs, .lanes] s
  unfold enterDetect
  iterate 60 all_goals first
    | with_reducible assumption
    | ((with_reducible apply setLaneState_moves (hw := ?w)); case w => rfl)
    | ((with_reducible apply setFld_moves (hw := ?w)); case w => rfl)
    | ((with_reducible apply setBit_moves (hw := ?w)); case w => rfl)
    | ((with_reducible apply setReg_moves (hw := ?w)); case w => rfl)
    | ((with_reducible apply modLane_moves (hw := ?w)); case w => rfl)
    | intro _
    | dsimp only
    | split

theorem enterTrain_moves (g l : Nat) {M : List Part} {s0 s : State} (hw : inMask [.regs, .lanes] M = true) (h0 : Moves M s0 s) : Moves M s0 (enterTrain g l s) := by
  refine Moves.via (N := [.regs, .lanes]) ?_ hw h0
  clear hw h0
  have hK := Moves.refl [.regs, .lanes] s
  unfold enterTrain
  iterate 60 all_goals first
    | with_reducible assumption
    | ((with_reducible apply setLaneState_moves (hw := ?w)); case w => rfl)
    | ((with_reducible apply setReg_moves (hw := ?w)); case w => rfl)
    | ((with_reducible apply setBit_moves (hw := ?w)); case w => rfl)
    | ((with_reducible apply modLane_moves (hw := ?w)); case w => rfl)
    | intro _
    | dsimp only
    | split

theorem startLink_moves (g : Nat) {M : List Part} {s0 s : State} (hw : inMask [.regs, .links] M = true) (h0 : Moves M s0 s) : Moves M s0 (startLink g s) := by
  refine Moves.via (N := [.regs, .links]) ?_ hw h0
  clear hw h0
  have hK := Moves.refl [.regs, .links] s
  unfold startLink
  iterate 60 all_goals first
    | with_reducible assumption
    | ((with_reducible apply setRegN_moves (hw := ?w)); case w => rfl)
    | ((with_reducible apply modLink_moves (hw := ?w)); case w => rfl)
    | intro _
    | dsimp only
    | split

theorem enterLock_moves (g l : Nat) {M : List Part} {s0 s : State} (hw : inMask [.regs, .lanes, .links] M = true) (h0 : Moves M s0 s) : Moves M s0 (enterLock g l s) := by
  refine Moves.via (N := [.regs, .lanes, .links]) ?_ hw h0
  clear hw h0
  have hK := Moves.refl [.regs, .lanes, .links] s
  unfold enterLock
  iterate 60 all_goals first
    | with_reducible assumption
    | ((with_reducible apply startLink_moves (hw := ?w)); case w => rfl)
    | ((with_reducible apply modLane_moves (hw := ?w)); case w => rfl)
    | ((with_reducible apply setLaneState_moves (hw := ?w)); case w => rfl)
    | intro _
    | dsimp only
    | split

theorem giveUp_moves (g l : Nat) {M : List Part} {s0 s : State} (hw : inMask [.regs, .flt, .lanes] M = true) (h0 : Moves M s0 s) : Moves M s0 (giveUp g l s) := by
  refine Moves.via (N := [.regs, .flt, .lanes]) ?_ hw h0
  clear hw h0
  have hK := Moves.refl [.regs, .flt, .lanes] s
  unfold giveUp
  iterate 60 all_goals first
    | with_reducible assumption
    | ((with_reducible apply raise_moves (hw := ?w)); case w => rfl)
    | ((with_reducible apply orReg_moves (hw := ?w)); case w => rfl)
    | ((with_reducible apply setBit_moves (hw := ?w)); case w => rfl)
    | ((with_reducible apply modLane_moves (hw := ?w)); case w => rfl)
    | intro _
    | dsimp only
    | split

theorem fallBack_moves (g l why : Nat) {M : List Part} {s0 s : State} (hw : inMask [.regs, .flt, .lanes] M = true) (h0 : Moves M s0 s) : Moves M s0 (fallBack g l why s) := by
  refine Moves.via (N := [.regs, .flt, .lanes]) ?_ hw h0
  clear hw h0
  have hK := Moves.refl [.regs, .flt, .lanes] s
  unfold fallBack
  iterate 60 all_goals first
    | with_reducible assumption
    | ((with_reducible apply enterDetect_moves (hw := ?w)); case w => rfl)
    | ((with_reducible apply setFld_moves (hw := ?w)); case w => rfl)
    | ((with_reducible apply modLane_moves (hw := ?w)); case w => rfl)
    | ((with_reducible apply giveUp_moves (hw := ?w)); case w => rfl)
    | intro _
    | dsimp only
    | split

theorem reportLoss_moves (g l : Nat) {M : List Part} {s0 s : State} (hw : inMask [.regs, .flt, .links] M = true) (h0 : Moves M s0 s) : Moves M s0 (reportLoss g l s) := by
  refine Moves.via (N := [.regs, .flt, .links]) ?_ hw h0
  clear hw h0
  have hK := Moves.refl [.regs, .flt, .links] s
  unfold reportLoss
  iterate 60 all_goals first
    | with_reducible assumption
    | ((with_reducible apply modLink_moves (hw := ?w)); case w => rfl)
    | ((with_reducible apply raise_moves (hw := ?w)); case w => rfl)
    | intro _
    | dsimp only
    | split

theorem lossDue_moves (g : Nat) {M : List Part} {s0 s : State} (hw : inMask [.regs, .flt, .links] M = true) (h0 : Moves M s0 s) : Moves M s0 (lossDue g s) := by
  refine Moves.via (N := [.regs, .flt, .links]) ?_ hw h0
  clear hw h0
  have hK := Moves.refl [.regs, .flt, .links] s
  unfold lossDue
  iterate 60 all_goals first
    | with_reducible assumption
    | ((with_reducible apply raise_moves (hw := ?w)); case w => rfl)
    | ((with_reducible apply modLink_moves (hw := ?w)); case w => rfl)
    | intro _
    | dsimp only
    | split

theorem groupDown_moves (g : Nat) {M : List Part} {s0 s : State} (hw : inMask [.regs, .ans, .net, .seq, .links] M = true) (h0 : Moves M s0 s) : Moves M s0 (groupDown g s) := by
  refine Moves.via (N := [.regs, .ans, .net, .seq, .links]) ?_ hw h0
  clear hw h0
  have hK := Moves.refl [.regs, .ans, .net, .seq, .links] s
  unfold groupDown
  iterate 60 all_goals first
    | with_reducible assumption
    | ((with_reducible apply orReg_moves (hw := ?w)); case w => rfl)
    | ((with_reducible apply writeOffGroup_moves (hw := ?w)); case w => rfl)
    | ((with_reducible apply modLink_moves (hw := ?w)); case w => rfl)
    | ((with_reducible apply finishCommits_moves (hw := ?w)); case w => rfl)
    | ((with_reducible apply alignAgain_moves (hw := ?w)); case w => rfl)
    | intro _
    | dsimp only
    | split
    | ((with_reducible apply Moves.update) <;> first | (with_reducible exact Or.inl rfl) | exact Or.inr (by decide) | skip)

theorem leaveActive_moves (g l why : Nat) {M : List Part} {s0 s : State} (hw : inMask [.regs, .mem, .ans, .net, .flt, .lanes, .seq, .links, .tst, .cmp, .trg, .mea, .tdc, .hbm] M = true) (h0 : Moves M s0 s) : Moves M s0 (leaveActive g l why s) := by
  refine Moves.via (N := [.regs, .mem, .ans, .net, .flt, .lanes, .seq, .links, .tst, .cmp, .trg, .mea, .tdc, .hbm]) ?_ hw h0
  clear hw h0
  have hK := Moves.refl [.regs, .mem, .ans, .net, .flt, .lanes, .seq, .links, .tst, .cmp, .trg, .mea, .tdc, .hbm] s
  unfold leaveActive
  iterate 60 all_goals first
    | with_reducible assumption
    | ((with_reducible apply orReg_moves (hw := ?w)); case w => rfl)
    | ((with_reducible apply setFld_moves (hw := ?w)); case w => rfl)
    | ((with_reducible apply enterDetect_moves (hw := ?w)); case w => rfl)
    | ((with_reducible apply groupDown_moves (hw := ?w)); case w => rfl)
    | ((with_reducible apply leaveMerge_moves (hw := ?w)); case w => rfl)
    | intro _
    | dsimp only
    | split

theorem loseLane_moves (g l why : Nat) {M : List Part} {s0 s : State} (hw : inMask [.regs, .mem, .ans, .net, .flt, .lanes, .seq, .links, .tst, .cmp, .trg, .mea, .tdc, .hbm] M = true) (h0 : Moves M s0 s) : Moves M s0 (loseLane g l why s) := by
  refine Moves.via (N := [.regs, .mem, .ans, .net, .flt, .lanes, .seq, .links, .tst, .cmp, .trg, .mea, .tdc, .hbm]) ?_ hw h0
  clear hw h0
  have hK := Moves.refl [.regs, .mem, .ans, .net, .flt, .lanes, .seq, .links, .tst, .cmp, .trg, .mea, .tdc, .hbm] s
  unfold loseLane
  iterate 60 all_goals first
    | with_reducible assumption
    | ((with_reducible apply reportLoss_moves (hw := ?w)); case w => rfl)
    | ((with_reducible apply leaveActive_moves (hw := ?w)); case w => rfl)
    | ((with_reducible apply modLane_moves (hw := ?w)); case w => rfl)
    | ((with_reducible apply giveUp_moves (hw := ?w)); case w => rfl)
    | intro _
    | dsimp only
    | split

theorem toDetect_moves (g l why : Nat) {M : List Part} {s0 s : State} (hw : inMask [.regs, .mem, .ans, .net, .flt, .lanes, .seq, .links, .tst, .cmp, .trg, .mea, .tdc, .hbm] M = true) (h0 : Moves M s0 s) : Moves M s0 (toDetect g l why s) := by
  refine Moves.via (N := [.regs, .mem, .ans, .net, .flt, .lanes, .seq, .links, .tst, .cmp, .trg, .mea, .tdc, .hbm]) ?_ hw h0
  clear hw h0
  have hK := Moves.refl [.regs, .mem, .ans, .net, .flt, .lanes, .seq, .links, .tst, .cmp, .trg, .mea, .tdc, .hbm] s
  unfold toDetect
  iterate 60 all_goals first
    | with_reducible assumption
    | ((with_reducible apply leaveActive_moves (hw := ?w)); case w => rfl)
    | ((with_reducible apply enterDetect_moves (hw := ?w)); case w => rfl)
    | ((with_reducible apply setFld_moves (hw := ?w)); case w => rfl)
    | intro _
    | dsimp only
    | split

theorem commandDetect_moves (g l why : Nat) {M : List Part} {s0 s : State} (hw : inMask [.regs, .mem, .ans, .net, .flt, .lanes, .seq, .links, .tst, .cmp, .trg, .mea, .tdc, .hbm] M = true) (h0 : Moves M s0 s) : Moves M s0 (commandDetect g l why s) := by
  refine Moves.via (N := [.regs, .mem, .ans, .net, .flt, .lanes, .seq, .links, .tst, .cmp, .trg, .mea, .tdc, .hbm]) ?_ hw h0
  clear hw h0
  have hK := Moves.refl [.regs, .mem, .ans, .net, .flt, .lanes, .seq, .links, .tst, .cmp, .trg, .mea, .tdc, .hbm] s
  unfold commandDetect
  iterate 60 all_goals first
    | with_reducible assumption
    | ((with_reducible apply setFld_moves (hw := ?w)); case w => rfl)
    | ((with_reducible apply setBit_moves (hw := ?w)); case w => rfl)
    | ((with_reducible apply toDetect_moves (hw := ?w)); case w => rfl)
    | ((with_reducible apply sendTraining_moves (hw := ?w)); case w => rfl)
    | ((with_reducible apply modLane_moves (hw := ?w)); case w => rfl)
    | intro _
    | dsimp only
    | split

theorem writeDetect_moves (g l why : Nat) {M : List Part} {s0 s : State} (hw : inMask [.regs, .mem, .ans, .net, .flt, .lanes, .seq, .links, .tst, .cmp, .trg, .mea, .tdc, .hbm] M = true) (h0 : Moves M s0 s) : Moves M s0 (writeDetect g l why s) := by
  refine Moves.via (N := [.regs, .mem, .ans, .net, .flt, .lanes, .seq, .links, .tst, .cmp, .trg, .mea, .tdc, .hbm]) ?_ hw h0
  clear hw h0
  have hK := Moves.refl [.regs, .mem, .ans, .net, .flt, .lanes, .seq, .links, .tst, .cmp, .trg, .mea, .tdc, .hbm] s
  unfold writeDetect
  iterate 60 all_goals first
    | with_reducible assumption
    | ((with_reducible apply sendTraining_moves (hw := ?w)); case w => rfl)
    | ((with_reducible apply toDetect_moves (hw := ?w)); case w => rfl)
    | intro _
    | dsimp only
    | split

theorem signalLost_moves (g l : Nat) {M : List Part} {s0 s : State} (hw : inMask [.regs, .mem, .ans, .net, .flt, .lanes, .seq, .links, .tst, .cmp, .trg, .mea, .tdc, .hbm] M = true) (h0 : Moves M s0 s) : Moves M s0 (signalLost g l s) := by
  refine Moves.via (N := [.regs, .mem, .ans, .net, .flt, .lanes, .seq, .links, .tst, .cmp, .trg, .mea, .tdc, .hbm]) ?_ hw h0
  clear hw h0
  have hK := Moves.refl [.regs, .mem, .ans, .net, .flt, .lanes, .seq, .links, .tst, .cmp, .trg, .mea, .tdc, .hbm] s
  unfold signalLost
  iterate 60 all_goals first
    | with_reducible assumption
    | ((with_reducible apply setBit_moves (hw := ?w)); case w => rfl)
    | ((with_reducible apply loseLane_moves (hw := ?w)); case w => rfl)
    | ((with_reducible apply sendTraining_moves (hw := ?w)); case w => rfl)
    | ((with_reducible apply setFld_moves (hw := ?w)); case w => rfl)
    | ((with_reducible apply enterDetect_moves (hw := ?w)); case w => rfl)
    | intro _
    | dsimp only
    | split

theorem loseAlignment_moves (g l : Nat) {M : List Part} {s0 s : State} (hw : inMask [.regs, .mem, .ans, .net, .flt, .lanes, .seq, .links, .tst, .cmp, .trg, .mea, .tdc, .hbm] M = true) (h0 : Moves M s0 s) : Moves M s0 (loseAlignment g l s) := by
  refine Moves.via (N := [.regs, .mem, .ans, .net, .flt, .lanes, .seq, .links, .tst, .cmp, .trg, .mea, .tdc, .hbm]) ?_ hw h0
  clear hw h0
  have hK := Moves.refl [.regs, .mem, .ans, .net, .flt, .lanes, .seq, .links, .tst, .cmp, .trg, .mea, .tdc, .hbm] s
  unfold loseAlignment
  iterate 60 all_goals first
    | with_reducible assumption
    | ((with_reducible apply orReg_moves (hw := ?w)); case w => rfl)
    | ((with_reducible apply setBit_moves (hw := ?w)); case w => rfl)
    | ((with_reducible apply modLane_moves (hw := ?w)); case w => rfl)
    | ((with_reducible apply loseLane_moves (hw := ?w)); case w => rfl)
    | intro _
    | dsimp only
    | split

theorem detectExit_moves (g l : Nat) (inverted : Bool) {M : List Part} {s0 s : State} (hw : inMask [.regs, .lanes] M = true) (h0 : Moves M s0 s) : Moves M s0 (detectExit g l inverted s) := by
  refine Moves.via (N := [.regs, .lanes]) ?_ hw h0
  clear hw h0
  have hK := Moves.refl [.regs, .lanes] s
  unfold detectExit
  iterate 60 all_goals first
    | with_reducible assumption
    | ((with_reducible apply setBit_moves (hw := ?w)); case w => rfl)
    | ((with_reducible apply orReg_moves (hw := ?w)); case w => rfl)
    | ((with_reducible apply sendTraining_moves (hw := ?w)); case w => rfl)
    | ((with_reducible apply enterTrain_moves (hw := ?w)); case w => rfl)
    | intro _
    | dsimp only
    | split

theorem trainProgress_moves (g l : Nat) (partner : Bool) {M : List Part} {s0 s : State} (hw : inMask [.regs, .lanes, .links] M = true) (h0 : Moves M s0 s) : Moves M s0 (trainProgress g l partner s) := by
  refine Moves.via (N := [.regs, .lanes, .links]) ?_ hw h0
  clear hw h0
  have hK := Moves.refl [.regs, .lanes, .links] s
  unfold trainProgress
  iterate 60 all_goals first
    | with_reducible assumption
    | ((with_reducible apply modLane_moves (hw := ?w)); case w => rfl)
    | ((with_reducible apply enterLock_moves (hw := ?w)); case w => rfl)
    | intro _
    | dsimp only
    | split

theorem trainingFrame_moves (g l control status steer : Nat) {M : List Part} {s0 s : State} (hw : inMask [.regs, .lanes, .links] M = true) (h0 : Moves M s0 s) : Moves M s0 (trainingFrame g l control status steer s) := by
  refine Moves.via (N := [.regs, .lanes, .links]) ?_ hw h0
  clear hw h0
  have hK := Moves.refl [.regs, .lanes, .links] s
  unfold trainingFrame
  iterate 60 all_goals first
    | with_reducible assumption
    | ((with_reducible apply setBit_moves (hw := ?w)); case w => rfl)
    | ((with_reducible apply setReg_moves (hw := ?w)); case w => rfl)
    | ((with_reducible apply setFld_moves (hw := ?w)); case w => rfl)
    | ((with_reducible apply modLane_moves (hw := ?w)); case w => rfl)
    | ((with_reducible apply trainProgress_moves (hw := ?w)); case w => rfl)
    | intro _
    | dsimp only
    | split

theorem trainingRx_moves (g l control status check steer : Nat) {M : List Part} {s0 s : State} (hw : inMask [.regs, .lanes, .links] M = true) (h0 : Moves M s0 s) : Moves M s0 (trainingRx g l control status check steer s) := by
  refine Moves.via (N := [.regs, .lanes, .links]) ?_ hw h0
  clear hw h0
  have hK := Moves.refl [.regs, .lanes, .links] s
  unfold trainingRx
  iterate 60 all_goals first
    | with_reducible assumption
    | ((with_reducible apply trainingFrame_moves (hw := ?w)); case w => rfl)
    | ((with_reducible apply sendTraining_moves (hw := ?w)); case w => rfl)
    | intro _
    | dsimp only
    | split

theorem rxReady_moves (g l errors dfeTap mainCursor : Nat) {M : List Part} {s0 s : State} (hw : inMask [.lanes] M = true) (h0 : Moves M s0 s) : Moves M s0 (rxReady g l errors dfeTap mainCursor s) := by
  refine Moves.via (N := [.lanes]) ?_ hw h0
  clear hw h0
  have hK := Moves.refl [.lanes] s
  unfold rxReady
  iterate 60 all_goals first
    | with_reducible assumption
    | ((with_reducible apply modLane_moves (hw := ?w)); case w => rfl)
    | intro _
    | dsimp only
    | split

theorem stateTimeout_moves (g l : Nat) {M : List Part} {s0 s : State} (hw : inMask [.regs, .flt, .lanes] M = true) (h0 : Moves M s0 s) : Moves M s0 (stateTimeout g l s) := by
  refine Moves.via (N := [.regs, .flt, .lanes]) ?_ hw h0
  clear hw h0
  have hK := Moves.refl [.regs, .flt, .lanes] s
  unfold stateTimeout
  iterate 60 all_goals first
    | with_reducible assumption
    | ((with_reducible apply fallBack_moves (hw := ?w)); case w => rfl)
    | intro _
    | dsimp only
    | split

theorem squelchEnd_moves (g l : Nat) {M : List Part} {s0 s : State} (hw : inMask [.lanes] M = true) (h0 : Moves M s0 s) : Moves M s0 (squelchEnd g l s) := by
  refine Moves.via (N := [.lanes]) ?_ hw h0
  clear hw h0
  have hK := Moves.refl [.lanes] s
  unfold squelchEnd
  iterate 60 all_goals first
    | with_reducible assumption
    | ((with_reducible apply sendTraining_moves (hw := ?w)); case w => rfl)
    | ((with_reducible apply modLane_moves (hw := ?w)); case w => rfl)
    | intro _
    | dsimp only
    | split

theorem takeRecord_moves (g l : Nat) (r : List Byte) {M : List Part} {s0 s : State} (hw : inMask [.lanes] M = true) (h0 : Moves M s0 s) : Moves M s0 (takeRecord g l r s) := by
  refine Moves.via (N := [.lanes]) ?_ hw h0
  clear hw h0
  have hK := Moves.refl [.lanes] s
  unfold takeRecord
  iterate 60 all_goals first
    | with_reducible assumption
    | ((with_reducible apply modLane_moves (hw := ?w)); case w => rfl)
    | intro _
    | dsimp only
    | split

theorem groupUp_moves (g : Nat) {M : List Part} {s0 s : State} (hw : inMask [.regs, .links] M = true) (h0 : Moves M s0 s) : Moves M s0 (groupUp g s) := by
  refine Moves.via (N := [.regs, .links]) ?_ hw h0
  clear hw h0
  have hK := Moves.refl [.regs, .links] s
  unfold groupUp
  iterate 60 all_goals first
    | with_reducible assumption
    | ((with_reducible apply setBit_moves (hw := ?w)); case w => rfl)
    | ((with_reducible apply modLink_moves (hw := ?w)); case w => rfl)
    | ((with_reducible apply alignAgain_moves (hw := ?w)); case w => rfl)
    | intro _
    | dsimp only
    | split

theorem enterActive_moves (g l : Nat) (r : List Byte) {M : List Part} {s0 s : State} (hw : inMask [.regs, .img, .links] M = true) (h0 : Moves M s0 s) : Moves M s0 (enterActive g l r s) := by
  refine Moves.via (N := [.regs, .img, .links]) ?_ hw h0
  clear hw h0
  have hK := Moves.refl [.regs, .img, .links] s
  unfold enterActive
  iterate 60 all_goals first
    | with_reducible assumption
    | ((with_reducible apply setRegs_moves (hw := ?w)); case w => rfl)
    | ((with_reducible apply setFld_moves (hw := ?w)); case w => rfl)
    | ((with_reducible apply setLaneState_moves (hw := ?w)); case w => rfl)
    | ((with_reducible apply orReg_moves (hw := ?w)); case w => rfl)
    | ((with_reducible apply groupUp_moves (hw := ?w)); case w => rfl)
    | intro _
    | dsimp only
    | split
    | ((with_reducible apply Moves.update) <;> first | (with_reducible exact Or.inl rfl) | exact Or.inr (by decide) | skip)

theorem exchangeAccept_moves (g l : Nat) (skew : Int) {M : List Part} {s0 s : State} (hw : inMask [.regs, .flt, .img, .lanes, .links] M = true) (h0 : Moves M s0 s) : Moves M s0 (exchangeAccept g l skew s) := by
  refine Moves.via (N := [.regs, .flt, .img, .lanes, .links]) ?_ hw h0
  clear hw h0
  have hK := Moves.refl [.regs, .flt, .img, .lanes, .links] s
  unfold exchangeAccept
  iterate 60 all_goals first
    | with_reducible assumption
    | ((with_reducible apply setRegN_moves (hw := ?w)); case w => rfl)
    | ((with_reducible apply fallBack_moves (hw := ?w)); case w => rfl)
    | ((with_reducible apply enterActive_moves (hw := ?w)); case w => rfl)
    | intro _
    | dsimp only
    | split

theorem retrain_moves (g : Nat) (a b : Bool) {M : List Part} {s0 s : State} (hw : inMask [.regs, .mem, .ans, .net, .flt, .lanes, .seq, .links, .tst, .cmp, .trg, .mea, .tdc, .hbm] M = true) (h0 : Moves M s0 s) : Moves M s0 (retrain g a b s) := by
  refine Moves.via (N := [.regs, .mem, .ans, .net, .flt, .lanes, .seq, .links, .tst, .cmp, .trg, .mea, .tdc, .hbm]) ?_ hw h0
  clear hw h0
  have hK := Moves.refl [.regs, .mem, .ans, .net, .flt, .lanes, .seq, .links, .tst, .cmp, .trg, .mea, .tdc, .hbm] s
  unfold retrain
  iterate 60 all_goals first
    | with_reducible assumption
    | ((with_reducible apply commandDetect_moves (hw := ?w)); case w => rfl)
    | intro _
    | dsimp only
    | split

theorem startScan_moves (g l : Nat) {M : List Part} {s0 s : State} (hw : inMask [.lanes] M = true) (h0 : Moves M s0 s) : Moves M s0 (startScan g l s) := by
  refine Moves.via (N := [.lanes]) ?_ hw h0
  clear hw h0
  have hK := Moves.refl [.lanes] s
  unfold startScan
  iterate 60 all_goals first
    | with_reducible assumption
    | ((with_reducible apply modLane_moves (hw := ?w)); case w => rfl)
    | intro _
    | dsimp only
    | split

theorem phyCommand_moves (g : Nat) (value : Word) {M : List Part} {s0 s : State} (hw : inMask [.regs, .mem, .ans, .net, .flt, .lanes, .seq, .links, .tst, .cmp, .trg, .mea, .tdc, .hbm] M = true) (h0 : Moves M s0 s) : Moves M s0 (phyCommand g value s) := by
  refine Moves.via (N := [.regs, .mem, .ans, .net, .flt, .lanes, .seq, .links, .tst, .cmp, .trg, .mea, .tdc, .hbm]) ?_ hw h0
  clear hw h0
  have hK := Moves.refl [.regs, .mem, .ans, .net, .flt, .lanes, .seq, .links, .tst, .cmp, .trg, .mea, .tdc, .hbm] s
  unfold phyCommand
  iterate 60 all_goals first
    | with_reducible assumption
    | ((with_reducible apply answer_moves (hw := ?w)); case w => rfl)
    | ((with_reducible apply retrain_moves (hw := ?w)); case w => rfl)
    | ((with_reducible apply startScan_moves (hw := ?w)); case w => rfl)
    | intro _
    | dsimp only
    | split

theorem xctrlWrite_moves (g l : Nat) (value : Word) {M : List Part} {s0 s : State} (hw : inMask [.regs, .shadowS, .shadowF, .mem, .ans, .net, .flt, .lanes, .seq, .links, .tst, .cmp, .trg, .mea, .tdc, .hbm] M = true) (h0 : Moves M s0 s) : Moves M s0 (xctrlWrite g l value s) := by
  refine Moves.via (N := [.regs, .shadowS, .shadowF, .mem, .ans, .net, .flt, .lanes, .seq, .links, .tst, .cmp, .trg, .mea, .tdc, .hbm]) ?_ hw h0
  clear hw h0
  have hK := Moves.refl [.regs, .shadowS, .shadowF, .mem, .ans, .net, .flt, .lanes, .seq, .links, .tst, .cmp, .trg, .mea, .tdc, .hbm] s
  unfold xctrlWrite
  iterate 60 all_goals first
    | with_reducible assumption
    | ((with_reducible apply refuseIf_moves (hw := ?w)); case w => rfl)
    | ((with_reducible apply writeDetect_moves (hw := ?w)); case w => rfl)
    | ((with_reducible apply accept_moves (hw := ?w)); case w => rfl)
    | intro _
    | dsimp only
    | split

theorem manualWrite_moves (g l : Nat) (value : Word) {M : List Part} {s0 s : State} (hw : inMask [.regs, .shadowS, .shadowF, .mem, .ans, .net, .flt, .lanes, .seq, .links, .tst, .cmp, .trg, .mea, .tdc, .hbm] M = true) (h0 : Moves M s0 s) : Moves M s0 (manualWrite g l value s) := by
  refine Moves.via (N := [.regs, .shadowS, .shadowF, .mem, .ans, .net, .flt, .lanes, .seq, .links, .tst, .cmp, .trg, .mea, .tdc, .hbm]) ?_ hw h0
  clear hw h0
  have hK := Moves.refl [.regs, .shadowS, .shadowF, .mem, .ans, .net, .flt, .lanes, .seq, .links, .tst, .cmp, .trg, .mea, .tdc, .hbm] s
  unfold manualWrite
  iterate 60 all_goals first
    | with_reducible assumption
    | ((with_reducible apply refuseIf_moves (hw := ?w)); case w => rfl)
    | ((with_reducible apply writeDetect_moves (hw := ?w)); case w => rfl)
    | ((with_reducible apply accept_moves (hw := ?w)); case w => rfl)
    | intro _
    | dsimp only
    | split

theorem bertBegin_moves (g l : Nat) {M : List Part} {s0 s : State} (hw : inMask [.freeIdx, .regs, .lanes] M = true) (h0 : Moves M s0 s) : Moves M s0 (bertBegin g l s) := by
  refine Moves.via (N := [.freeIdx, .regs, .lanes]) ?_ hw h0
  clear hw h0
  have hK := Moves.refl [.freeIdx, .regs, .lanes] s
  unfold bertBegin
  iterate 60 all_goals first
    | with_reducible assumption
    | ((with_reducible apply setRegN_moves (hw := ?w)); case w => rfl)
    | ((with_reducible apply freeNat_movesE (hE := by assumption) (hw := ?w)); case w => rfl)
    | ((with_reducible apply freeNat_moves (hw := ?w)); case w => rfl)
    | ((with_reducible apply modLane_moves (hw := ?w)); case w => rfl)
    | intro _
    | dsimp only
    | split

theorem bertWrite_moves (g : Nat) (value : Word) {M : List Part} {s0 s : State} (hw : inMask [.freeIdx, .regs, .shadowS, .shadowF, .ans, .lanes] M = true) (h0 : Moves M s0 s) : Moves M s0 (bertWrite g value s) := by
  refine Moves.via (N := [.freeIdx, .regs, .shadowS, .shadowF, .ans, .lanes]) ?_ hw h0
  clear hw h0
  have hK := Moves.refl [.freeIdx, .regs, .shadowS, .shadowF, .ans, .lanes] s
  unfold bertWrite
  iterate 60 all_goals first
    | with_reducible assumption
    | ((with_reducible apply refuseIf_moves (hw := ?w)); case w => rfl)
    | ((with_reducible apply accept_moves (hw := ?w)); case w => rfl)
    | ((with_reducible apply bertBegin_moves (hw := ?w)); case w => rfl)
    | intro _
    | dsimp only
    | split

theorem bertTake_moves (g l n x : Nat) {M : List Part} {s0 s : State} (hw : inMask [.regs, .lanes] M = true) (h0 : Moves M s0 s) : Moves M s0 (bertTake g l n x s) := by
  refine Moves.via (N := [.regs, .lanes]) ?_ hw h0
  clear hw h0
  have hK := Moves.refl [.regs, .lanes] s
  unfold bertTake
  iterate 60 all_goals first
    | with_reducible assumption
    | ((with_reducible apply incSat_moves (hw := ?w)); case w => rfl)
    | ((with_reducible apply incWrap_moves (hw := ?w)); case w => rfl)
    | ((with_reducible apply modLane_moves (hw := ?w)); case w => rfl)
    | intro _
    | dsimp only
    | split

theorem eyeReport_moves (g l dir : Nat) (e : EyeScan) {M : List Part} {s0 s : State} (hw : inMask [.regs, .net, .flt] M = true) (h0 : Moves M s0 s) : Moves M s0 (eyeReport g l dir e s) := by
  refine Moves.via (N := [.regs, .net, .flt]) ?_ hw h0
  clear hw h0
  have hK := Moves.refl [.regs, .net, .flt] s
  unfold eyeReport
  iterate 60 all_goals first
    | with_reducible assumption
    | ((with_reducible apply setRegs_moves (hw := ?w)); case w => rfl)
    | ((with_reducible apply pushTelemetry_moves (hw := ?w)); case w => rfl)
    | ((with_reducible apply raise_moves (hw := ?w)); case w => rfl)
    | ((with_reducible apply orReg_moves (hw := ?w)); case w => rfl)
    | intro _
    | dsimp only
    | split

theorem eyePointIn_moves (g l : Nat) (open_ : Bool) {M : List Part} {s0 s : State} (hw : inMask [.regs, .net, .flt, .lanes] M = true) (h0 : Moves M s0 s) : Moves M s0 (eyePointIn g l open_ s) := by
  refine Moves.via (N := [.regs, .net, .flt, .lanes]) ?_ hw h0
  clear hw h0
  have hK := Moves.refl [.regs, .net, .flt, .lanes] s
  unfold eyePointIn
  iterate 60 all_goals first
    | with_reducible assumption
    | ((with_reducible apply eyeReport_moves (hw := ?w)); case w => rfl)
    | ((with_reducible apply modLane_moves (hw := ?w)); case w => rfl)
    | intro _
    | dsimp only
    | split

theorem eyeResponse_moves (g l : Nat) (e : EyeScan) (bs : List Nat) {M : List Part} {s0 s : State} (hw : inMask [.regs, .net, .flt, .lanes] M = true) (h0 : Moves M s0 s) : Moves M s0 (eyeResponse g l e bs s) := by
  refine Moves.via (N := [.regs, .net, .flt, .lanes]) ?_ hw h0
  clear hw h0
  have hK := Moves.refl [.regs, .net, .flt, .lanes] s
  unfold eyeResponse
  iterate 60 all_goals first
    | with_reducible assumption
    | ((with_reducible apply eyeReport_moves (hw := ?w)); case w => rfl)
    | ((with_reducible apply modLane_moves (hw := ?w)); case w => rfl)
    | intro _
    | dsimp only
    | split

theorem eyeWord_moves (g l i data : Nat) {M : List Part} {s0 s : State} (hw : inMask [.regs, .net, .flt, .lanes] M = true) (h0 : Moves M s0 s) : Moves M s0 (eyeWord g l i data s) := by
  refine Moves.via (N := [.regs, .net, .flt, .lanes]) ?_ hw h0
  clear hw h0
  have hK := Moves.refl [.regs, .net, .flt, .lanes] s
  unfold eyeWord
  iterate 60 all_goals first
    | with_reducible assumption
    | ((with_reducible apply eyeResponse_moves (hw := ?w)); case w => rfl)
    | ((with_reducible apply modLane_moves (hw := ?w)); case w => rfl)
    | intro _
    | dsimp only
    | split

theorem eyeTimeout_moves (g l : Nat) {M : List Part} {s0 s : State} (hw : inMask [.lanes] M = true) (h0 : Moves M s0 s) : Moves M s0 (eyeTimeout g l s) := by
  refine Moves.via (N := [.lanes]) ?_ hw h0
  clear hw h0
  have hK := Moves.refl [.lanes] s
  unfold eyeTimeout
  iterate 60 all_goals first
    | with_reducible assumption
    | ((with_reducible apply modLane_moves (hw := ?w)); case w => rfl)
    | intro _
    | dsimp only
    | split

theorem badWord_moves (g l : Nat) {M : List Part} {s0 s : State} (hw : inMask [.regs, .mem, .ans, .net, .flt, .lanes, .seq, .links, .tst, .cmp, .trg, .mea, .tdc, .hbm] M = true) (h0 : Moves M s0 s) : Moves M s0 (badWord g l s) := by
  refine Moves.via (N := [.regs, .mem, .ans, .net, .flt, .lanes, .seq, .links, .tst, .cmp, .trg, .mea, .tdc, .hbm]) ?_ hw h0
  clear hw h0
  have hK := Moves.refl [.regs, .mem, .ans, .net, .flt, .lanes, .seq, .links, .tst, .cmp, .trg, .mea, .tdc, .hbm] s
  unfold badWord
  iterate 60 all_goals first
    | with_reducible assumption
    | ((with_reducible apply modLane_moves (hw := ?w)); case w => rfl)
    | ((with_reducible apply loseAlignment_moves (hw := ?w)); case w => rfl)
    | intro _
    | dsimp only
    | split

theorem receiveBits_moves (g l n x : Nat) {M : List Part} {s0 s : State} (hw : inMask [.lanes] M = true) (h0 : Moves M s0 s) : Moves M s0 (receiveBits g l n x s).2 := by
  refine Moves.via (N := [.lanes]) ?_ hw h0
  clear hw h0
  have hK := Moves.refl [.lanes] s
  unfold receiveBits
  iterate 60 all_goals first
    | with_reducible assumption
    | ((with_reducible apply modLane_moves (hw := ?w)); case w => rfl)
    | intro _
    | dsimp only
    | split
theorem receiveBits_movesE {g l n x : Nat} {w0} {M : List Part} {s0 s s' : State} (hE : receiveBits g l n x s = (w0, s')) (hw : inMask [.lanes] M = true) (h0 : Moves M s0 s) : Moves M s0 s' := by
  have k := receiveBits_moves (hw := hw) (h0 := h0) (g := g) (l := l) (n := n) (x := x)
  rw [hE] at k
  exact k

theorem fillerBits_moves (g l w : Nat) {M : List Part} {s0 s : State} (hw : inMask [.regs, .mem, .ans, .net, .flt, .lanes, .seq, .links, .tst, .cmp, .trg, .mea, .tdc, .hbm] M = true) (h0 : Moves M s0 s) : Moves M s0 (fillerBits g l w s) := by
  refine Moves.via (N := [.regs, .mem, .ans, .net, .flt, .lanes, .seq, .links, .tst, .cmp, .trg, .mea, .tdc, .hbm]) ?_ hw h0
  clear hw h0
  have hK := Moves.refl [.regs, .mem, .ans, .net, .flt, .lanes, .seq, .links, .tst, .cmp, .trg, .mea, .tdc, .hbm] s
  unfold fillerBits
  iterate 60 all_goals first
    | with_reducible assumption
    | ((with_reducible apply modLane_moves (hw := ?w)); case w => rfl)
    | ((with_reducible apply badWord_moves (hw := ?w)); case w => rfl)
    | ((with_reducible apply badSeq_moves (hw := ?w)); case w => rfl)
    | ((with_reducible apply eyeWord_moves (hw := ?w)); case w => rfl)
    | intro _
    | dsimp only
    | split

theorem takeFiller_moves (g l b : Nat) {M : List Part} {s0 s : State} (hw : inMask [.regs, .mem, .ans, .net, .flt, .lanes, .seq, .links, .tst, .cmp, .trg, .mea, .tdc, .hbm] M = true) (h0 : Moves M s0 s) : Moves M s0 (takeFiller g l b s) := by
  refine Moves.via (N := [.regs, .mem, .ans, .net, .flt, .lanes, .seq, .links, .tst, .cmp, .trg, .mea, .tdc, .hbm]) ?_ hw h0
  clear hw h0
  have hK := Moves.refl [.regs, .mem, .ans, .net, .flt, .lanes, .seq, .links, .tst, .cmp, .trg, .mea, .tdc, .hbm] s
  unfold takeFiller
  iterate 60 all_goals first
    | with_reducible assumption
    | ((with_reducible apply bertTake_moves (hw := ?w)); case w => rfl)
    | ((with_reducible apply fillerBits_moves (hw := ?w)); case w => rfl)
    | intro _
    | dsimp only
    | split

theorem fillerWord_moves (g l w : Nat) {M : List Part} {s0 s : State} (hw : inMask [.regs, .mem, .ans, .net, .flt, .lanes, .seq, .links, .tst, .cmp, .trg, .mea, .tdc, .hbm] M = true) (h0 : Moves M s0 s) : Moves M s0 (fillerWord g l w s) := by
  refine Moves.via (N := [.regs, .mem, .ans, .net, .flt, .lanes, .seq, .links, .tst, .cmp, .trg, .mea, .tdc, .hbm]) ?_ hw h0
  clear hw h0
  have hK := Moves.refl [.regs, .mem, .ans, .net, .flt, .lanes, .seq, .links, .tst, .cmp, .trg, .mea, .tdc, .hbm] s
  unfold fillerWord
  iterate 60 all_goals first
    | with_reducible assumption
    | ((with_reducible apply receiveBits_movesE (hE := by assumption) (hw := ?w)); case w => rfl)
    | ((with_reducible apply receiveBits_moves (hw := ?w)); case w => rfl)
    | ((with_reducible apply takeFiller_moves (hw := ?w)); case w => rfl)
    | intro _
    | dsimp only
    | split

theorem uncorrectable_moves (g l : Nat) {M : List Part} {s0 s : State} (hw : inMask [.regs, .mem, .ans, .net, .flt, .lanes, .seq, .links, .tst, .cmp, .trg, .mea, .tdc, .hbm] M = true) (h0 : Moves M s0 s) : Moves M s0 (uncorrectable g l s) := by
  refine Moves.via (N := [.regs, .mem, .ans, .net, .flt, .lanes, .seq, .links, .tst, .cmp, .trg, .mea, .tdc, .hbm]) ?_ hw h0
  clear hw h0
  have hK := Moves.refl [.regs, .mem, .ans, .net, .flt, .lanes, .seq, .links, .tst, .cmp, .trg, .mea, .tdc, .hbm] s
  unfold uncorrectable
  iterate 60 all_goals first
    | with_reducible assumption
    | ((with_reducible apply incWrap_moves (hw := ?w)); case w => rfl)
    | ((with_reducible apply modLane_moves (hw := ?w)); case w => rfl)
    | ((with_reducible apply loseAlignment_moves (hw := ?w)); case w => rfl)
    | intro _
    | dsimp only
    | split

theorem clockLost_moves (g : Nat) {M : List Part} {s0 s : State} (hw : inMask [.regs, .mem, .ans, .net, .flt, .lanes, .seq, .links, .tst, .cmp, .trg, .mea, .tdc, .hbm] M = true) (h0 : Moves M s0 s) : Moves M s0 (clockLost g s) := by
  refine Moves.via (N := [.regs, .mem, .ans, .net, .flt, .lanes, .seq, .links, .tst, .cmp, .trg, .mea, .tdc, .hbm]) ?_ hw h0
  clear hw h0
  have hK := Moves.refl [.regs, .mem, .ans, .net, .flt, .lanes, .seq, .links, .tst, .cmp, .trg, .mea, .tdc, .hbm] s
  unfold clockLost
  iterate 60 all_goals first
    | with_reducible assumption
    | ((with_reducible apply loseLane_moves (hw := ?w)); case w => rfl)
    | with_reducible apply Moves.foldl
    | intro _
    | dsimp only
    | split

theorem activeFrame_moves (g l : Nat) (fr : Frame) {M : List Part} {s0 s : State} (hw : inMask [.regs, .mem, .ans, .net, .flt, .lanes, .seq, .links, .tst, .cmp, .trg, .mea, .tdc, .hbm] M = true) (h0 : Moves M s0 s) : Moves M s0 (activeFrame g l fr s) := by
  refine Moves.via (N := [.regs, .mem, .ans, .net, .flt, .lanes, .seq, .links, .tst, .cmp, .trg, .mea, .tdc, .hbm]) ?_ hw h0
  clear hw h0
  have hK := Moves.refl [.regs, .mem, .ans, .net, .flt, .lanes, .seq, .links, .tst, .cmp, .trg, .mea, .tdc, .hbm] s
  unfold activeFrame
  iterate 60 all_goals first
    | with_reducible assumption
    | ((with_reducible apply mergeFrame_moves (hw := ?w)); case w => rfl)
    | ((with_reducible apply clockLost_moves (hw := ?w)); case w => rfl)
    | intro _
    | dsimp only
    | split

theorem goodCodeword_moves (g l corrected t4 : Nat) (fr : Frame) {M : List Part} {s0 s : State} (hw : inMask [.regs, .mem, .ans, .net, .flt, .lanes, .seq, .links, .tst, .cmp, .trg, .mea, .tdc, .hbm] M = true) (h0 : Moves M s0 s) : Moves M s0 (goodCodeword g l corrected t4 fr s) := by
  refine Moves.via (N := [.regs, .mem, .ans, .net, .flt, .lanes, .seq, .links, .tst, .cmp, .trg, .mea, .tdc, .hbm]) ?_ hw h0
  clear hw h0
  have hK := Moves.refl [.regs, .mem, .ans, .net, .flt, .lanes, .seq, .links, .tst, .cmp, .trg, .mea, .tdc, .hbm] s
  unfold goodCodeword
  iterate 60 all_goals first
    | with_reducible assumption
    | ((with_reducible apply incSat_moves (hw := ?w)); case w => rfl)
    | ((with_reducible apply setBit_moves (hw := ?w)); case w => rfl)
    | ((with_reducible apply modLane_moves (hw := ?w)); case w => rfl)
    | ((with_reducible apply badSeq_moves (hw := ?w)); case w => rfl)
    | ((with_reducible apply setLaneState_moves (hw := ?w)); case w => rfl)
    | ((with_reducible apply takeRecord_moves (hw := ?w)); case w => rfl)
    | ((with_reducible apply activeFrame_moves (hw := ?w)); case w => rfl)
    | ((with_reducible apply noteArrival_moves (hw := ?w)); case w => rfl)
    | intro _
    | dsimp only
    | split

theorem frameWord_moves (g l b t4 : Nat) {M : List Part} {s0 s : State} (hw : inMask [.regs, .mem, .ans, .net, .flt, .lanes, .seq, .links, .tst, .cmp, .trg, .mea, .tdc, .hbm] M = true) (h0 : Moves M s0 s) : Moves M s0 (frameWord g l b t4 s) := by
  refine Moves.via (N := [.regs, .mem, .ans, .net, .flt, .lanes, .seq, .links, .tst, .cmp, .trg, .mea, .tdc, .hbm]) ?_ hw h0
  clear hw h0
  have hK := Moves.refl [.regs, .mem, .ans, .net, .flt, .lanes, .seq, .links, .tst, .cmp, .trg, .mea, .tdc, .hbm] s
  unfold frameWord
  iterate 60 all_goals first
    | with_reducible assumption
    | ((with_reducible apply badWord_moves (hw := ?w)); case w => rfl)
    | ((with_reducible apply goodCodeword_moves (hw := ?w)); case w => rfl)
    | ((with_reducible apply uncorrectable_moves (hw := ?w)); case w => rfl)
    | intro _
    | dsimp only
    | split

theorem takeFrame_moves (g l b t4 : Nat) {M : List Part} {s0 s : State} (hw : inMask [.regs, .mem, .ans, .net, .flt, .lanes, .seq, .links, .tst, .cmp, .trg, .mea, .tdc, .hbm] M = true) (h0 : Moves M s0 s) : Moves M s0 (takeFrame g l b t4 s) := by
  refine Moves.via (N := [.regs, .mem, .ans, .net, .flt, .lanes, .seq, .links, .tst, .cmp, .trg, .mea, .tdc, .hbm]) ?_ hw h0
  clear hw h0
  have hK := Moves.refl [.regs, .mem, .ans, .net, .flt, .lanes, .seq, .links, .tst, .cmp, .trg, .mea, .tdc, .hbm] s
  unfold takeFrame
  iterate 60 all_goals first
    | with_reducible assumption
    | ((with_reducible apply bertTake_moves (hw := ?w)); case w => rfl)
    | ((with_reducible apply frameWord_moves (hw := ?w)); case w => rfl)
    | intro _
    | dsimp only
    | split

theorem inwardCodeword_moves (g l w t4 : Nat) {M : List Part} {s0 s : State} (hw : inMask [.regs, .mem, .ans, .net, .flt, .lanes, .seq, .links, .tst, .cmp, .trg, .mea, .tdc, .hbm] M = true) (h0 : Moves M s0 s) : Moves M s0 (inwardCodeword g l w t4 s) := by
  refine Moves.via (N := [.regs, .mem, .ans, .net, .flt, .lanes, .seq, .links, .tst, .cmp, .trg, .mea, .tdc, .hbm]) ?_ hw h0
  clear hw h0
  have hK := Moves.refl [.regs, .mem, .ans, .net, .flt, .lanes, .seq, .links, .tst, .cmp, .trg, .mea, .tdc, .hbm] s
  unfold inwardCodeword
  iterate 60 all_goals first
    | with_reducible assumption
    | ((with_reducible apply receiveBits_movesE (hE := by assumption) (hw := ?w)); case w => rfl)
    | ((with_reducible apply receiveBits_moves (hw := ?w)); case w => rfl)
    | ((with_reducible apply takeFrame_moves (hw := ?w)); case w => rfl)
    | intro _
    | dsimp only
    | split

end Sys2Proof.Laws
end

