-- ==== Sys2Proof/Laws/MovesQuadrille.lean ====
section
/-! SUPPORT. What the operations of Machine/Quadrille.lean may change of the state, and that they keep what no operation breaks. -/

namespace Sys2Proof.Laws

open Sys2Proof Sys2Proof.Machine

theorem modPeer_moves (u : Nat) (f : Peer → Peer) {M : List Part} {s0 s : State} (hw : inMask [.qdr] M = true) (h0 : Moves M s0 s) : Moves M s0 (modPeer u f s) := by
  refine Moves.via (N := [.qdr]) ?_ hw h0
  clear hw h0
  have hK := Moves.refl [.qdr] s
  unfold modPeer
  iterate 60 all_goals first
    | with_reducible assumption
    | intro _
    | dsimp only
    | split
    | ((with_reducible apply Moves.update) <;> first | (with_reducible exact Or.inl rfl) | exact Or.inr (by decide) | skip)

theorem succeed_moves (u : Nat) {M : List Part} {s0 s : State} (hw : inMask [.regs, .qdr] M = true) (h0 : Moves M s0 s) : Moves M s0 (succeed u s) := by
  refine Moves.via (N := [.regs, .qdr]) ?_ hw h0
  clear hw h0
  have hK := Moves.refl [.regs, .qdr] s
  unfold succeed
  iterate 60 all_goals first
    | with_reducible assumption
    | ((with_reducible apply setBit_moves (hw := ?w)); case w => rfl)
    | intro _
    | dsimp only
    | split
    | ((with_reducible apply Moves.update) <;> first | (with_reducible exact Or.inl rfl) | exact Or.inr (by decide) | skip)

theorem dropPeer_moves (u : Nat) {M : List Part} {s0 s : State} (hw : inMask [.regs, .trg, .qdr] M = true) (h0 : Moves M s0 s) : Moves M s0 (dropPeer u s) := by
  refine Moves.via (N := [.regs, .trg, .qdr]) ?_ hw h0
  clear hw h0
  have hK := Moves.refl [.regs, .trg, .qdr] s
  unfold dropPeer
  iterate 60 all_goals first
    | with_reducible assumption
    | ((with_reducible apply setBit_moves (hw := ?w)); case w => rfl)
    | ((with_reducible apply modPeer_moves (hw := ?w)); case w => rfl)
    | ((with_reducible apply releaseSrc_moves (hw := ?w)); case w => rfl)
    | ((with_reducible apply ptpEvaluate_moves (hw := ?w)); case w => rfl)
    | ((with_reducible apply succeed_moves (hw := ?w)); case w => rfl)
    | intro _
    | dsimp only
    | split
    | ((with_reducible apply Moves.update) <;> first | (with_reducible exact Or.inl rfl) | exact Or.inr (by decide) | skip)

theorem heartbeat_moves (u w : Nat) {M : List Part} {s0 s : State} (hw : inMask [.regs, .flt, .trg, .qdr] M = true) (h0 : Moves M s0 s) : Moves M s0 (heartbeat u w s) := by
  refine Moves.via (N := [.regs, .flt, .trg, .qdr]) ?_ hw h0
  clear hw h0
  have hK := Moves.refl [.regs, .flt, .trg, .qdr] s
  unfold heartbeat
  iterate 60 all_goals first
    | with_reducible assumption
    | ((with_reducible apply modPeer_moves (hw := ?w)); case w => rfl)
    | ((with_reducible apply dropPeer_moves (hw := ?w)); case w => rfl)
    | ((with_reducible apply orReg_moves (hw := ?w)); case w => rfl)
    | ((with_reducible apply setBit_moves (hw := ?w)); case w => rfl)
    | ((with_reducible apply raise_moves (hw := ?w)); case w => rfl)
    | ((with_reducible apply ptpEvaluate_moves (hw := ?w)); case w => rfl)
    | intro _
    | dsimp only
    | split
    | ((with_reducible apply Moves.update) <;> first | (with_reducible exact Or.inl rfl) | exact Or.inr (by decide) | skip)

theorem qdHeartbeat_moves (u : Nat) (word : Option Nat) {M : List Part} {s0 s : State} (hw : inMask [.regs, .flt, .trg, .qdr] M = true) (h0 : Moves M s0 s) : Moves M s0 (qdHeartbeat u word s) := by
  refine Moves.via (N := [.regs, .flt, .trg, .qdr]) ?_ hw h0
  clear hw h0
  have hK := Moves.refl [.regs, .flt, .trg, .qdr] s
  unfold qdHeartbeat
  iterate 60 all_goals first
    | with_reducible assumption
    | ((with_reducible apply raise_moves (hw := ?w)); case w => rfl)
    | ((with_reducible apply setBit_moves (hw := ?w)); case w => rfl)
    | ((with_reducible apply heartbeat_moves (hw := ?w)); case w => rfl)
    | ((with_reducible apply modPeer_moves (hw := ?w)); case w => rfl)
    | intro _
    | dsimp only
    | split

theorem peerAbsent_moves (u : Nat) {M : List Part} {s0 s : State} (hw : inMask [.regs, .flt, .trg, .qdr] M = true) (h0 : Moves M s0 s) : Moves M s0 (peerAbsent u s) := by
  refine Moves.via (N := [.regs, .flt, .trg, .qdr]) ?_ hw h0
  clear hw h0
  have hK := Moves.refl [.regs, .flt, .trg, .qdr] s
  unfold peerAbsent
  iterate 60 all_goals first
    | with_reducible assumption
    | ((with_reducible apply orReg_moves (hw := ?w)); case w => rfl)
    | ((with_reducible apply dropPeer_moves (hw := ?w)); case w => rfl)
    | ((with_reducible apply raise_moves (hw := ?w)); case w => rfl)
    | intro _
    | dsimp only
    | split
    | ((with_reducible apply Moves.update) <;> first | (with_reducible exact Or.inl rfl) | exact Or.inr (by decide) | skip)

theorem faultBroadcast_moves (u : Nat) (seen : Bool) {M : List Part} {s0 s : State} (hw : inMask [.regs, .trg] M = true) (h0 : Moves M s0 s) : Moves M s0 (faultBroadcast u seen s) := by
  refine Moves.via (N := [.regs, .trg]) ?_ hw h0
  clear hw h0
  have hK := Moves.refl [.regs, .trg] s
  unfold faultBroadcast
  iterate 60 all_goals first
    | with_reducible assumption
    | ((with_reducible apply assertSrc_moves (hw := ?w)); case w => rfl)
    | ((with_reducible apply setBit_moves (hw := ?w)); case w => rfl)
    | ((with_reducible apply releaseSrc_moves (hw := ?w)); case w => rfl)
    | intro _
    | dsimp only
    | split

theorem hintsRx_moves (leader tag : Nat) {M : List Part} {s0 s : State} (hw : inMask [.regs] M = true) (h0 : Moves M s0 s) : Moves M s0 (hintsRx leader tag s) := by
  refine Moves.via (N := [.regs]) ?_ hw h0
  clear hw h0
  have hK := Moves.refl [.regs] s
  unfold hintsRx
  iterate 60 all_goals first
    | with_reducible assumption
    | ((with_reducible apply setBit_moves (hw := ?w)); case w => rfl)
    | ((with_reducible apply setFld_moves (hw := ?w)); case w => rfl)
    | intro _
    | dsimp only
    | split

theorem noteFrame_moves (f : Nat) {M : List Part} {s0 s : State} (hw : inMask [.regs, .qdr] M = true) (h0 : Moves M s0 s) : Moves M s0 (noteFrame f s) := by
  refine Moves.via (N := [.regs, .qdr]) ?_ hw h0
  clear hw h0
  have hK := Moves.refl [.regs, .qdr] s
  unfold noteFrame
  iterate 60 all_goals first
    | with_reducible assumption
    | ((with_reducible apply orReg_moves (hw := ?w)); case w => rfl)
    | ((with_reducible apply setFld_moves (hw := ?w)); case w => rfl)
    | ((with_reducible apply setBit_moves (hw := ?w)); case w => rfl)
    | ((with_reducible apply setRegN_moves (hw := ?w)); case w => rfl)
    | intro _
    | dsimp only
    | split
    | ((with_reducible apply Moves.update) <;> first | (with_reducible exact Or.inl rfl) | exact Or.inr (by decide) | skip)

theorem withdraw_moves (again : Bool) {M : List Part} {s0 s : State} (hw : inMask [.regs, .qdr] M = true) (h0 : Moves M s0 s) : Moves M s0 (withdraw again s) := by
  refine Moves.via (N := [.regs, .qdr]) ?_ hw h0
  clear hw h0
  have hK := Moves.refl [.regs, .qdr] s
  unfold withdraw
  iterate 60 all_goals first
    | with_reducible assumption
    | ((with_reducible apply quadrilleListen_moves (hw := ?w)); case w => rfl)
    | intro _
    | dsimp only
    | split
    | ((with_reducible apply Moves.update) <;> first | (with_reducible exact Or.inl rfl) | exact Or.inr (by decide) | skip)

theorem becomeLeader_moves {M : List Part} {s0 s : State} (hw : inMask [.regs, .qdr] M = true) (h0 : Moves M s0 s) : Moves M s0 (becomeLeader s) := by
  refine Moves.via (N := [.regs, .qdr]) ?_ hw h0
  clear hw h0
  have hK := Moves.refl [.regs, .qdr] s
  unfold becomeLeader
  iterate 60 all_goals first
    | with_reducible assumption
    | ((with_reducible apply setFld_moves (hw := ?w)); case w => rfl)
    | ((with_reducible apply setBit_moves (hw := ?w)); case w => rfl)
    | ((with_reducible apply setBusState_moves (hw := ?w)); case w => rfl)
    | ((with_reducible apply setRegN_moves (hw := ?w)); case w => rfl)
    | ((with_reducible apply orReg_moves (hw := ?w)); case w => rfl)
    | intro _
    | dsimp only
    | split
    | ((with_reducible apply Moves.update) <;> first | (with_reducible exact Or.inl rfl) | exact Or.inr (by decide) | skip)

theorem compareCount_moves (own count : Nat) {M : List Part} {s0 s : State} (hw : inMask [.regs, .flt, .qdr] M = true) (h0 : Moves M s0 s) : Moves M s0 (compareCount own count s) := by
  refine Moves.via (N := [.regs, .flt, .qdr]) ?_ hw h0
  clear hw h0
  have hK := Moves.refl [.regs, .flt, .qdr] s
  unfold compareCount
  iterate 60 all_goals first
    | with_reducible assumption
    | ((with_reducible apply raise_moves (hw := ?w)); case w => rfl)
    | ((with_reducible apply quadrilleListen_moves (hw := ?w)); case w => rfl)
    | intro _
    | dsimp only
    | split

theorem listenFrame_moves (own f : Nat) {M : List Part} {s0 s : State} (hw : inMask [.regs, .qdr] M = true) (h0 : Moves M s0 s) : Moves M s0 (listenFrame own f s) := by
  refine Moves.via (N := [.regs, .qdr]) ?_ hw h0
  clear hw h0
  have hK := Moves.refl [.regs, .qdr] s
  unfold listenFrame
  iterate 60 all_goals first
    | with_reducible assumption
    | ((with_reducible apply noteFrame_moves (hw := ?w)); case w => rfl)
    | ((with_reducible apply setBusState_moves (hw := ?w)); case w => rfl)
    | intro _
    | dsimp only
    | split
    | ((with_reducible apply Moves.update) <;> first | (with_reducible exact Or.inl rfl) | exact Or.inr (by decide) | skip)

theorem todReceived_moves (f age : Nat) {M : List Part} {s0 s : State} (hw : inMask [.regs, .flt, .qdr] M = true) (h0 : Moves M s0 s) : Moves M s0 (todReceived f age s) := by
  refine Moves.via (N := [.regs, .flt, .qdr]) ?_ hw h0
  clear hw h0
  have hK := Moves.refl [.regs, .flt, .qdr] s
  unfold todReceived
  iterate 60 all_goals first
    | with_reducible assumption
    | ((with_reducible apply orReg_moves (hw := ?w)); case w => rfl)
    | ((with_reducible apply incSat_moves (hw := ?w)); case w => rfl)
    | ((with_reducible apply withdraw_moves (hw := ?w)); case w => rfl)
    | ((with_reducible apply becomeLeader_moves (hw := ?w)); case w => rfl)
    | ((with_reducible apply listenFrame_moves (hw := ?w)); case w => rfl)
    | ((with_reducible apply compareCount_moves (hw := ?w)); case w => rfl)
    | ((with_reducible apply noteFrame_moves (hw := ?w)); case w => rfl)
    | intro _
    | dsimp only
    | split
    | ((with_reducible apply Moves.update) <;> first | (with_reducible exact Or.inl rfl) | exact Or.inr (by decide) | skip)

theorem noteDelay_moves (e : Nat × Nat) {M : List Part} {s0 s : State} (hw : inMask [.regs, .flt, .qdr] M = true) (h0 : Moves M s0 s) : Moves M s0 (noteDelay s e) := by
  refine Moves.via (N := [.regs, .flt, .qdr]) ?_ hw h0
  clear hw h0
  have hK := Moves.refl [.regs, .flt, .qdr] s
  unfold noteDelay
  iterate 60 all_goals first
    | with_reducible assumption
    | ((with_reducible apply setFld_moves (hw := ?w)); case w => rfl)
    | ((with_reducible apply raise_moves (hw := ?w)); case w => rfl)
    | ((with_reducible apply orReg_moves (hw := ?w)); case w => rfl)
    | intro _
    | dsimp only
    | split
    | ((with_reducible apply Moves.update) <;> first | (with_reducible exact Or.inl rfl) | exact Or.inr (by decide) | skip)

theorem realignCounts_moves {M : List Part} {s0 s : State} (hw : inMask [.links] M = true) (h0 : Moves M s0 s) : Moves M s0 (realignCounts s) := by
  refine Moves.via (N := [.links]) ?_ hw h0
  clear hw h0
  have hK := Moves.refl [.links] s
  unfold realignCounts
  iterate 60 all_goals first
    | with_reducible assumption
    | ((with_reducible apply modLink_moves (hw := ?w)); case w => rfl)
    | with_reducible apply Moves.foldl
    | intro _
    | dsimp only
    | split

theorem stepCount_moves (d : Int) {M : List Part} {s0 s : State} (hw : inMask [.beat, .regs, .links] M = true) (h0 : Moves M s0 s) : Moves M s0 (stepCount d s) := by
  refine Moves.via (N := [.beat, .regs, .links]) ?_ hw h0
  clear hw h0
  have hK := Moves.refl [.beat, .regs, .links] s
  unfold stepCount
  iterate 60 all_goals first
    | with_reducible assumption
    | ((with_reducible apply setRegN_moves (hw := ?w)); case w => rfl)
    | ((with_reducible apply orReg_moves (hw := ?w)); case w => rfl)
    | ((with_reducible apply realignCounts_moves (hw := ?w)); case w => rfl)
    | intro _
    | dsimp only
    | split
    | ((with_reducible apply Moves.update) <;> first | (with_reducible exact Or.inl rfl) | exact Or.inr (by decide) | skip)

theorem listenEnd_moves (delays : List (Nat × Nat)) {M : List Part} {s0 s : State} (hw : inMask [.beat, .regs, .flt, .links, .qdr] M = true) (h0 : Moves M s0 s) : Moves M s0 (listenEnd delays s) := by
  refine Moves.via (N := [.beat, .regs, .flt, .links, .qdr]) ?_ hw h0
  clear hw h0
  have hK := Moves.refl [.beat, .regs, .flt, .links, .qdr] s
  unfold listenEnd
  iterate 60 all_goals first
    | with_reducible assumption
    | ((with_reducible apply noteDelay_moves (hw := ?w)); case w => rfl)
    | ((with_reducible apply setFld_moves (hw := ?w)); case w => rfl)
    | ((with_reducible apply setBusState_moves (hw := ?w)); case w => rfl)
    | ((with_reducible apply stepCount_moves (hw := ?w)); case w => rfl)
    | with_reducible apply Moves.foldl
    | intro _
    | dsimp only
    | split
    | ((with_reducible apply Moves.update) <;> first | (with_reducible exact Or.inl rfl) | exact Or.inr (by decide) | skip)

theorem leaderTimeout_moves {M : List Part} {s0 s : State} (hw : inMask [.regs, .qdr] M = true) (h0 : Moves M s0 s) : Moves M s0 (leaderTimeout s) := by
  refine Moves.via (N := [.regs, .qdr]) ?_ hw h0
  clear hw h0
  have hK := Moves.refl [.regs, .qdr] s
  unfold leaderTimeout
  iterate 60 all_goals first
    | with_reducible assumption
    | ((with_reducible apply setBusState_moves (hw := ?w)); case w => rfl)
    | ((with_reducible apply setBit_moves (hw := ?w)); case w => rfl)
    | intro _
    | dsimp only
    | split
    | ((with_reducible apply Moves.update) <;> first | (with_reducible exact Or.inl rfl) | exact Or.inr (by decide) | skip)

theorem claimBackoffEnd_moves {M : List Part} {s0 s : State} (hw : inMask [.regs, .qdr] M = true) (h0 : Moves M s0 s) : Moves M s0 (claimBackoffEnd s) := by
  refine Moves.via (N := [.regs, .qdr]) ?_ hw h0
  clear hw h0
  have hK := Moves.refl [.regs, .qdr] s
  unfold claimBackoffEnd
  iterate 60 all_goals first
    | with_reducible assumption
    | ((with_reducible apply setBusState_moves (hw := ?w)); case w => rfl)
    | intro _
    | dsimp only
    | split
    | ((with_reducible apply Moves.update) <;> first | (with_reducible exact Or.inl rfl) | exact Or.inr (by decide) | skip)

theorem cellMismatch_moves (q : Nat) {M : List Part} {s0 s : State} (hw : inMask [.regs, .flt, .qdr] M = true) (h0 : Moves M s0 s) : Moves M s0 (cellMismatch q s) := by
  refine Moves.via (N := [.regs, .flt, .qdr]) ?_ hw h0
  clear hw h0
  have hK := Moves.refl [.regs, .flt, .qdr] s
  unfold cellMismatch
  iterate 60 all_goals first
    | with_reducible assumption
    | ((with_reducible apply raise_moves (hw := ?w)); case w => rfl)
    | ((with_reducible apply quadrilleListen_moves (hw := ?w)); case w => rfl)
    | ((with_reducible apply orReg_moves (hw := ?w)); case w => rfl)
    | ((with_reducible apply setBit_moves (hw := ?w)); case w => rfl)
    | ((with_reducible apply markOneCopy_moves (hw := ?w)); case w => rfl)
    | ((with_reducible apply fenceUnit_moves (hw := ?w)); case w => rfl)
    | intro _
    | dsimp only
    | split

theorem departed_moves {M : List Part} {s0 s : State} (hw : inMask [.regs, .qdr] M = true) (h0 : Moves M s0 s) : Moves M s0 (departed s) := by
  refine Moves.via (N := [.regs, .qdr]) ?_ hw h0
  clear hw h0
  have hK := Moves.refl [.regs, .qdr] s
  unfold departed
  iterate 60 all_goals first
    | with_reducible assumption
    | ((with_reducible apply ptpEvaluate_moves (hw := ?w)); case w => rfl)
    | ((with_reducible apply setBusState_moves (hw := ?w)); case w => rfl)
    | ((with_reducible apply setBit_moves (hw := ?w)); case w => rfl)
    | ((with_reducible apply setRegN_moves (hw := ?w)); case w => rfl)
    | intro _
    | dsimp only
    | split
    | ((with_reducible apply Moves.update) <;> first | (with_reducible exact Or.inl rfl) | exact Or.inr (by decide) | skip)

theorem depart_moves {M : List Part} {s0 s : State} (hw : inMask [.regs, .qdr] M = true) (h0 : Moves M s0 s) : Moves M s0 (depart s) := by
  refine Moves.via (N := [.regs, .qdr]) ?_ hw h0
  clear hw h0
  have hK := Moves.refl [.regs, .qdr] s
  unfold depart
  iterate 60 all_goals first
    | with_reducible assumption
    | ((with_reducible apply departed_moves (hw := ?w)); case w => rfl)
    | intro _
    | dsimp only
    | split
    | ((with_reducible apply Moves.update) <;> first | (with_reducible exact Or.inl rfl) | exact Or.inr (by decide) | skip)

theorem frameBoundary_moves (c : Nat) {M : List Part} {s0 s : State} (hw : inMask [.regs, .qdr] M = true) (h0 : Moves M s0 s) : Moves M s0 (frameBoundary c s) := by
  refine Moves.via (N := [.regs, .qdr]) ?_ hw h0
  clear hw h0
  have hK := Moves.refl [.regs, .qdr] s
  unfold frameBoundary
  iterate 60 all_goals first
    | with_reducible assumption
    | ((with_reducible apply setRegN_moves (hw := ?w)); case w => rfl)
    | intro _
    | dsimp only
    | split
    | ((with_reducible apply Moves.update) <;> first | (with_reducible exact Or.inl rfl) | exact Or.inr (by decide) | skip)

theorem quadrilleCycle_moves {M : List Part} {s0 s : State} (hw : inMask [.regs, .qdr] M = true) (h0 : Moves M s0 s) : Moves M s0 (quadrilleCycle s) := by
  refine Moves.via (N := [.regs, .qdr]) ?_ hw h0
  clear hw h0
  have hK := Moves.refl [.regs, .qdr] s
  unfold quadrilleCycle
  extract_lets c s1 st lead s2 own turn qt flags fault beat frame s3 s4 q5 s5
  have h1 : Moves [.regs, .qdr] s s1 := by
    dsimp only [s1]
    split
    · split
      · exact becomeLeader_moves (hw := rfl) (h0 := hK)
      · exact hK
    · exact hK
  clear_value s1
  have h2 : Moves [.regs, .qdr] s s2 := by
    dsimp only [s2]
    split
    · exact frameBoundary_moves (hw := rfl) (h0 := h1) ..
    · exact h1
  clear_value s2
  have h3 : Moves [.regs, .qdr] s s3 := by
    dsimp only [s3]
    split
    · exact setFld_moves (hw := rfl) (h0 := h2) ..
    · exact h2
  clear_value s3
  have h4 : Moves [.regs, .qdr] s s4 := incWrap_moves (hw := rfl) (h0 := h3) ..
  clear_value s4
  have hu {t : State} (q : Qdr) (h : Moves [.regs, .qdr] s t) : Moves [.regs, .qdr] s { t with qdr := q } := by
    (with_reducible apply Moves.update) <;> first | (with_reducible exact Or.inl rfl) | exact Or.inr (by decide) | exact h
  have h5 : Moves [.regs, .qdr] s s5 := hu _ h4
  clear_value s5
  have hd : Moves [.regs, .qdr] s (departed s5) := departed_moves (hw := rfl) (h0 := h5)
  repeat' split
  all_goals first | exact hu _ hd | exact hu _ h5 | exact h5 | exact hu _ h1

theorem qtReceived_moves (k off cs : Nat) {M : List Part} {s0 s : State} (hw : inMask [.qdr] M = true) (h0 : Moves M s0 s) : Moves M s0 (qtReceived k off cs s) := by
  refine Moves.via (N := [.qdr]) ?_ hw h0
  clear hw h0
  have hK := Moves.refl [.qdr] s
  unfold qtReceived
  iterate 60 all_goals first
    | with_reducible assumption
    | intro _
    | dsimp only
    | split
    | ((with_reducible apply Moves.update) <;> first | (with_reducible exact Or.inl rfl) | exact Or.inr (by decide) | skip)

theorem qtActs_moves (k : Nat) {M : List Part} {s0 s : State} (hw : inMask [.trg, .qdr] M = true) (h0 : Moves M s0 s) : Moves M s0 (qtActs k s) := by
  refine Moves.via (N := [.trg, .qdr]) ?_ hw h0
  clear hw h0
  have hK := Moves.refl [.trg, .qdr] s
  unfold qtActs
  iterate 60 all_goals first
    | with_reducible assumption
    | ((with_reducible apply assertEvent_moves (hw := ?w)); case w => rfl)
    | intro _
    | dsimp only
    | split
    | ((with_reducible apply Moves.update) <;> first | (with_reducible exact Or.inl rfl) | exact Or.inr (by decide) | skip)

theorem execQtReceived_moves (k : Fin 32) (off : Fin 128) (cs : Nat) {s s' : State} (h : execQtReceived k off cs s = .next s') : Moves [.qdr] s s' := by
  unfold execQtReceived at h
  have hK := Moves.refl [.qdr] s
  all_goals injection h with h
  all_goals subst h
  iterate 60 all_goals first
    | with_reducible assumption
    | ((with_reducible apply qtReceived_moves (hw := ?w)); case w => rfl)
    | intro _
    | dsimp only
    | split

theorem execQtAct_moves (k : Fin 32) {s s' : State} (h : execQtAct k s = .next s') : Moves [.trg, .qdr] s s' := by
  unfold execQtAct at h
  have hK := Moves.refl [.trg, .qdr] s
  all_goals injection h with h
  all_goals subst h
  iterate 60 all_goals first
    | with_reducible assumption
    | ((with_reducible apply qtActs_moves (hw := ?w)); case w => rfl)
    | intro _
    | dsimp only
    | split

theorem execTodFrame_moves (frame : BitVec 128) (age : Nat) {s s' : State} (h : execTodFrame frame age s = .next s') : Moves [.regs, .flt, .qdr] s s' := by
  unfold execTodFrame at h
  have hK := Moves.refl [.regs, .flt, .qdr] s
  all_goals injection h with h
  all_goals subst h
  iterate 60 all_goals first
    | with_reducible assumption
    | ((with_reducible apply todReceived_moves (hw := ?w)); case w => rfl)
    | intro _
    | dsimp only
    | split

theorem execQdHeartbeat_moves (u : Fin 32) (word : Option (BitVec 16)) {s s' : State} (h : execQdHeartbeat u word s = .next s') : Moves [.regs, .flt, .trg, .qdr] s s' := by
  unfold execQdHeartbeat at h
  have hK := Moves.refl [.regs, .flt, .trg, .qdr] s
  all_goals injection h with h
  all_goals subst h
  iterate 60 all_goals first
    | with_reducible assumption
    | ((with_reducible apply qdHeartbeat_moves (hw := ?w)); case w => rfl)
    | intro _
    | dsimp only
    | split

theorem execPeerAbsent_moves (u : Fin 32) {s s' : State} (h : execPeerAbsent u s = .next s') : Moves [.regs, .flt, .trg, .qdr] s s' := by
  unfold execPeerAbsent at h
  have hK := Moves.refl [.regs, .flt, .trg, .qdr] s
  all_goals injection h with h
  all_goals subst h
  iterate 60 all_goals first
    | with_reducible assumption
    | ((with_reducible apply peerAbsent_moves (hw := ?w)); case w => rfl)
    | intro _
    | dsimp only
    | split

theorem execFaultBroadcastRx_moves (u : Fin 32) (seen : Bool) {s s' : State} (h : execFaultBroadcastRx u seen s = .next s') : Moves [.regs, .trg] s s' := by
  unfold execFaultBroadcastRx at h
  have hK := Moves.refl [.regs, .trg] s
  all_goals injection h with h
  all_goals subst h
  iterate 60 all_goals first
    | with_reducible assumption
    | ((with_reducible apply faultBroadcast_moves (hw := ?w)); case w => rfl)
    | intro _
    | dsimp only
    | split

theorem execHintsRx_moves (leader : Fin 32) (tag : Byte) {s s' : State} (h : execHintsRx leader tag s = .next s') : Moves [.regs] s s' := by
  unfold execHintsRx at h
  have hK := Moves.refl [.regs] s
  all_goals injection h with h
  all_goals subst h
  iterate 60 all_goals first
    | with_reducible assumption
    | ((with_reducible apply hintsRx_moves (hw := ?w)); case w => rfl)
    | intro _
    | dsimp only
    | split

theorem execListenEnd_moves (delays : List (Nat × Nat)) {s s' : State} (h : execListenEnd delays s = .next s') : Moves [.beat, .regs, .flt, .links, .qdr] s s' := by
  unfold execListenEnd at h
  have hK := Moves.refl [.beat, .regs, .flt, .links, .qdr] s
  all_goals injection h with h
  all_goals subst h
  iterate 60 all_goals first
    | with_reducible assumption
    | ((with_reducible apply listenEnd_moves (hw := ?w)); case w => rfl)
    | intro _
    | dsimp only
    | split

theorem execLeaderTimeout_moves {s s' : State} (h : execLeaderTimeout s = .next s') : Moves [.regs, .qdr] s s' := by
  unfold execLeaderTimeout at h
  have hK := Moves.refl [.regs, .qdr] s
  all_goals injection h with h
  all_goals subst h
  iterate 60 all_goals first
    | with_reducible assumption
    | ((with_reducible apply leaderTimeout_moves (hw := ?w)); case w => rfl)
    | intro _
    | dsimp only
    | split

theorem execClaimBackoffEnd_moves {s s' : State} (h : execClaimBackoffEnd s = .next s') : Moves [.regs, .qdr] s s' := by
  unfold execClaimBackoffEnd at h
  have hK := Moves.refl [.regs, .qdr] s
  all_goals injection h with h
  all_goals subst h
  iterate 60 all_goals first
    | with_reducible assumption
    | ((with_reducible apply claimBackoffEnd_moves (hw := ?w)); case w => rfl)
    | intro _
    | dsimp only
    | split

theorem execQdCellMismatch_moves (q : Fin 4) {s s' : State} (h : execQdCellMismatch q s = .next s') : Moves [.regs, .flt, .qdr] s s' := by
  unfold execQdCellMismatch at h
  have hK := Moves.refl [.regs, .flt, .qdr] s
  all_goals injection h with h
  all_goals subst h
  iterate 60 all_goals first
    | with_reducible assumption
    | ((with_reducible apply cellMismatch_moves (hw := ?w)); case w => rfl)
    | intro _
    | dsimp only
    | split

theorem execRejoin_moves (q : Req) {s s' : State} (h : execRejoin q s = .next s') : Moves [.regs, .ans, .qdr] s s' := by
  unfold execRejoin at h
  have hK := Moves.refl [.regs, .ans, .qdr] s
  all_goals injection h with h
  all_goals subst h
  iterate 60 all_goals first
    | with_reducible assumption
    | ((with_reducible apply guarded_moves (hw := ?w)); case w => rfl)
    | ((with_reducible apply answer_moves (hw := ?w)); case w => rfl)
    | ((with_reducible apply quadrilleListen_moves (hw := ?w)); case w => rfl)
    | intro _
    | dsimp only
    | split

theorem execQuadrilleCycle_moves {s s' : State} (h : execQuadrilleCycle s = .next s') : Moves [.regs, .qdr] s s' := by
  unfold execQuadrilleCycle at h
  have hK := Moves.refl [.regs, .qdr] s
  all_goals injection h with h
  all_goals subst h
  iterate 60 all_goals first
    | with_reducible assumption
    | ((with_reducible apply quadrilleCycle_moves (hw := ?w)); case w => rfl)
    | intro _
    | dsimp only
    | split

end Sys2Proof.Laws
end

