-- ==== Sys2Proof/Laws/MovesLedgers.lean ====
section
/-! SUPPORT. What the operations of Machine/Ledgers.lean may change of the state, and that they keep what no operation breaks. -/

namespace Sys2Proof.Laws

open Sys2Proof Sys2Proof.Machine

theorem freezeLedger_moves (n : Nat) (v : LedgerView) {M : List Part} {s0 s : State} (hw : inMask [.regs, .flt, .lgr] M = true) (h0 : Moves M s0 s) : Moves M s0 (freezeLedger n v s) := by
  refine Moves.via (N := [.regs, .flt, .lgr]) ?_ hw h0
  clear hw h0
  have hK := Moves.refl [.regs, .flt, .lgr] s
  unfold freezeLedger
  iterate 60 all_goals first
    | with_reducible assumption
    | ((with_reducible apply raise_moves (hw := ?w)); case w => rfl)
    | ((with_reducible apply orReg_moves (hw := ?w)); case w => rfl)
    | intro _
    | dsimp only
    | split
    | ((with_reducible apply Moves.update) <;> first | (with_reducible exact Or.inl rfl) | exact Or.inr (by decide) | skip)

theorem ledgerImbalance_moves (n left right out term : Nat) {M : List Part} {s0 s : State} (hw : inMask [.regs, .flt, .lgr] M = true) (h0 : Moves M s0 s) : Moves M s0 (ledgerImbalance n left right out term s) := by
  refine Moves.via (N := [.regs, .flt, .lgr]) ?_ hw h0
  clear hw h0
  have hK := Moves.refl [.regs, .flt, .lgr] s
  unfold ledgerImbalance
  iterate 60 all_goals first
    | with_reducible assumption
    | ((with_reducible apply freezeLedger_moves (hw := ?w)); case w => rfl)
    | intro _
    | dsimp only
    | split

theorem ledgerDeadline_moves (n : Nat) {M : List Part} {s0 s : State} (hw : inMask [.regs, .flt, .lgr] M = true) (h0 : Moves M s0 s) : Moves M s0 (ledgerDeadline n s) := by
  refine Moves.via (N := [.regs, .flt, .lgr]) ?_ hw h0
  clear hw h0
  have hK := Moves.refl [.regs, .flt, .lgr] s
  unfold ledgerDeadline
  iterate 60 all_goals first
    | with_reducible assumption
    | ((with_reducible apply freezeLedger_moves (hw := ?w)); case w => rfl)
    | intro _
    | dsimp only
    | split

theorem rebaseLedger_moves (n : Nat) {M : List Part} {s0 s : State} (hw : inMask [.regs, .lgr] M = true) (h0 : Moves M s0 s) : Moves M s0 (rebaseLedger s n) := by
  refine Moves.via (N := [.regs, .lgr]) ?_ hw h0
  clear hw h0
  have hK := Moves.refl [.regs, .lgr] s
  unfold rebaseLedger
  iterate 60 all_goals first
    | with_reducible assumption
    | ((with_reducible apply orReg_moves (hw := ?w)); case w => rfl)
    | intro _
    | dsimp only
    | split
    | ((with_reducible apply Moves.update) <;> first | (with_reducible exact Or.inl rfl) | exact Or.inr (by decide) | skip)

theorem rebaseLedgers_moves {M : List Part} {s0 s : State} (hw : inMask [.regs, .lgr] M = true) (h0 : Moves M s0 s) : Moves M s0 (rebaseLedgers s) := by
  refine Moves.via (N := [.regs, .lgr]) ?_ hw h0
  clear hw h0
  have hK := Moves.refl [.regs, .lgr] s
  unfold rebaseLedgers
  iterate 60 all_goals first
    | with_reducible assumption
    | ((with_reducible apply rebaseLedger_moves (hw := ?w)); case w => rfl)
    | with_reducible apply Moves.foldl
    | intro _
    | dsimp only
    | split

theorem ledgerRead_moves (n : Nat) {M : List Part} {s0 s : State} (hw : inMask [.regs] M = true) (h0 : Moves M s0 s) : Moves M s0 (ledgerRead n s).2 := by
  refine Moves.via (N := [.regs]) ?_ hw h0
  clear hw h0
  have hK := Moves.refl [.regs] s
  unfold ledgerRead
  iterate 60 all_goals first
    | with_reducible assumption
    | ((with_reducible apply setRegN_moves (hw := ?w)); case w => rfl)
    | intro _
    | dsimp only
    | split
theorem ledgerRead_movesE {n : Nat} {w0} {M : List Part} {s0 s s' : State} (hE : ledgerRead n s = (w0, s')) (hw : inMask [.regs] M = true) (h0 : Moves M s0 s) : Moves M s0 s' := by
  have k := ledgerRead_moves (hw := hw) (h0 := h0) (n := n)
  rw [hE] at k
  exact k

theorem execLedgerImbalance_moves (n : Fin 16) (left right out term : Word) {s s' : State} (h : execLedgerImbalance n left right out term s = .next s') : Moves [.regs, .flt, .lgr] s s' := by
  unfold execLedgerImbalance at h
  have hK := Moves.refl [.regs, .flt, .lgr] s
  all_goals injection h with h
  all_goals subst h
  iterate 60 all_goals first
    | with_reducible assumption
    | ((with_reducible apply ledgerImbalance_moves (hw := ?w)); case w => rfl)
    | intro _
    | dsimp only
    | split

theorem execLedgerDeadline_moves (n : Fin 16) {s s' : State} (h : execLedgerDeadline n s = .next s') : Moves [.regs, .flt, .lgr] s s' := by
  unfold execLedgerDeadline at h
  have hK := Moves.refl [.regs, .flt, .lgr] s
  all_goals injection h with h
  all_goals subst h
  iterate 60 all_goals first
    | with_reducible assumption
    | ((with_reducible apply ledgerDeadline_moves (hw := ?w)); case w => rfl)
    | intro _
    | dsimp only
    | split

end Sys2Proof.Laws
end

