-- ==== Sys2Proof/Laws/MovesNand.lean ====
section
/-! SUPPORT. What the operations of Machine/Nand.lean may change of the state, and that they keep what no operation breaks. -/

namespace Sys2Proof.Laws

open Sys2Proof Sys2Proof.Machine

theorem modRows_moves (f : List NandRow → List NandRow) {M : List Part} {s0 s : State} (hw : inMask [.lib] M = true) (h0 : Moves M s0 s) : Moves M s0 (modRows f s) := by
  refine Moves.via (N := [.lib]) ?_ hw h0
  clear hw h0
  have hK := Moves.refl [.lib] s
  unfold modRows
  iterate 60 all_goals first
    | with_reducible assumption
    | intro _
    | dsimp only
    | split
    | ((with_reducible apply Moves.update) <;> first | (with_reducible exact Or.inl rfl) | exact Or.inr (by decide) | skip)

theorem eraseBlock_moves (b : Nat) {M : List Part} {s0 s : State} (hw : inMask [.lib] M = true) (h0 : Moves M s0 s) : Moves M s0 (eraseBlock s b) := by
  refine Moves.via (N := [.lib]) ?_ hw h0
  clear hw h0
  have hK := Moves.refl [.lib] s
  unfold eraseBlock
  iterate 60 all_goals first
    | with_reducible assumption
    | intro _
    | dsimp only
    | split
    | ((with_reducible apply Moves.update) <;> first | (with_reducible exact Or.inl rfl) | exact Or.inr (by decide) | skip)

theorem reclaimRows_moves {M : List Part} {s0 s : State} (hw : inMask [.lib] M = true) (h0 : Moves M s0 s) : Moves M s0 (reclaimRows s) := by
  refine Moves.via (N := [.lib]) ?_ hw h0
  clear hw h0
  have hK := Moves.refl [.lib] s
  unfold reclaimRows
  iterate 60 all_goals first
    | with_reducible assumption
    | ((with_reducible apply eraseBlock_moves (hw := ?w)); case w => rfl)
    | ((with_reducible apply modRows_moves (hw := ?w)); case w => rfl)
    | with_reducible apply Moves.foldl
    | intro _
    | dsimp only
    | split

theorem dropUnits_moves (p : Nat → Nat → Bool) {M : List Part} {s0 s : State} (hw : inMask [.lib] M = true) (h0 : Moves M s0 s) : Moves M s0 (dropUnits p s) := by
  refine Moves.via (N := [.lib]) ?_ hw h0
  clear hw h0
  have hK := Moves.refl [.lib] s
  unfold dropUnits
  iterate 60 all_goals first
    | with_reducible assumption
    | ((with_reducible apply reclaimRows_moves (hw := ?w)); case w => rfl)
    | ((with_reducible apply modRows_moves (hw := ?w)); case w => rfl)
    | intro _
    | dsimp only
    | split

theorem moveBlock_moves (b n : Nat) {M : List Part} {s0 s : State} (hw : inMask [.lib] M = true) (h0 : Moves M s0 s) : Moves M s0 (moveBlock b n s) := by
  refine Moves.via (N := [.lib]) ?_ hw h0
  clear hw h0
  have hK := Moves.refl [.lib] s
  unfold moveBlock
  iterate 60 all_goals first
    | with_reducible assumption
    | ((with_reducible apply modRows_moves (hw := ?w)); case w => rfl)
    | intro _
    | dsimp only
    | split

theorem relocate_moves (b : Nat) {M : List Part} {s0 s : State} (hw : inMask [.lib] M = true) (h0 : Moves M s0 s) : Moves M s0 (relocate b s) := by
  refine Moves.via (N := [.lib]) ?_ hw h0
  clear hw h0
  have hK := Moves.refl [.lib] s
  unfold relocate
  iterate 60 all_goals first
    | with_reducible assumption
    | ((with_reducible apply eraseBlock_moves (hw := ?w)); case w => rfl)
    | ((with_reducible apply moveBlock_moves (hw := ?w)); case w => rfl)
    | intro _
    | dsimp only
    | split

theorem placeUnit_moves (obj unit_ : Nat) {M : List Part} {s0 s : State} (hw : inMask [.lib] M = true) (h0 : Moves M s0 s) : Moves M s0 (placeUnit obj unit_ s) := by
  refine Moves.via (N := [.lib]) ?_ hw h0
  clear hw h0
  have hK := Moves.refl [.lib] s
  unfold placeUnit
  iterate 60 all_goals first
    | with_reducible assumption
    | ((with_reducible apply dropUnits_moves (hw := ?w)); case w => rfl)
    | ((with_reducible apply modRows_moves (hw := ?w)); case w => rfl)
    | intro _
    | dsimp only
    | split
    | ((with_reducible apply Moves.update) <;> first | (with_reducible exact Or.inl rfl) | exact Or.inr (by decide) | skip)

theorem takeUnits_moves (a b : Nat) {M : List Part} {s0 s : State} (hw : inMask [.lib] M = true) (h0 : Moves M s0 s) : Moves M s0 (takeUnits a b s) := by
  refine Moves.via (N := [.lib]) ?_ hw h0
  clear hw h0
  have hK := Moves.refl [.lib] s
  unfold takeUnits
  iterate 60 all_goals first
    | with_reducible assumption
    | ((with_reducible apply dropUnits_moves (hw := ?w)); case w => rfl)
    | ((with_reducible apply modRows_moves (hw := ?w)); case w => rfl)
    | intro _
    | dsimp only
    | split

theorem levelWear_moves {M : List Part} {s0 s : State} (hw : inMask [.lib] M = true) (h0 : Moves M s0 s) : Moves M s0 (levelWear s) := by
  refine Moves.via (N := [.lib]) ?_ hw h0
  clear hw h0
  have hK := Moves.refl [.lib] s
  unfold levelWear
  iterate 60 all_goals first
    | with_reducible assumption
    | ((with_reducible apply relocate_moves (hw := ?w)); case w => rfl)
    | with_reducible apply Moves.foldl
    | intro _
    | dsimp only
    | split

theorem patrolNext_moves {M : List Part} {s0 s : State} (hw : inMask [.lib] M = true) (h0 : Moves M s0 s) : Moves M s0 (patrolNext s) := by
  refine Moves.via (N := [.lib]) ?_ hw h0
  clear hw h0
  have hK := Moves.refl [.lib] s
  unfold patrolNext
  iterate 60 all_goals first
    | with_reducible assumption
    | intro _
    | dsimp only
    | split
    | ((with_reducible apply Moves.update) <;> first | (with_reducible exact Or.inl rfl) | exact Or.inr (by decide) | skip)

theorem patrolRewrite_moves {M : List Part} {s0 s : State} (hw : inMask [.lib] M = true) (h0 : Moves M s0 s) : Moves M s0 (patrolRewrite s) := by
  refine Moves.via (N := [.lib]) ?_ hw h0
  clear hw h0
  have hK := Moves.refl [.lib] s
  unfold patrolRewrite
  iterate 60 all_goals first
    | with_reducible assumption
    | ((with_reducible apply relocate_moves (hw := ?w)); case w => rfl)
    | intro _
    | dsimp only
    | split
    | ((with_reducible apply Moves.update) <;> first | (with_reducible exact Or.inl rfl) | exact Or.inr (by decide) | skip)

theorem retireBlock_moves (b : Nat) {M : List Part} {s0 s : State} (hw : inMask [.lib] M = true) (h0 : Moves M s0 s) : Moves M s0 (retireBlock b s) := by
  refine Moves.via (N := [.lib]) ?_ hw h0
  clear hw h0
  have hK := Moves.refl [.lib] s
  unfold retireBlock
  iterate 60 all_goals first
    | with_reducible assumption
    | ((with_reducible apply moveBlock_moves (hw := ?w)); case w => rfl)
    | intro _
    | dsimp only
    | split
    | ((with_reducible apply Moves.update) <;> first | (with_reducible exact Or.inl rfl) | exact Or.inr (by decide) | skip)

theorem rebuildBlock_moves (b : Nat) {M : List Part} {s0 s : State} (hw : inMask [.lib] M = true) (h0 : Moves M s0 s) : Moves M s0 (rebuildBlock s b) := by
  refine Moves.via (N := [.lib]) ?_ hw h0
  clear hw h0
  have hK := Moves.refl [.lib] s
  unfold rebuildBlock
  iterate 60 all_goals first
    | with_reducible assumption
    | ((with_reducible apply moveBlock_moves (hw := ?w)); case w => rfl)
    | intro _
    | dsimp only
    | split

theorem rebuildSet_moves (k : Nat) {M : List Part} {s0 s : State} (hw : inMask [.lib] M = true) (h0 : Moves M s0 s) : Moves M s0 (rebuildSet k s) := by
  refine Moves.via (N := [.lib]) ?_ hw h0
  clear hw h0
  have hK := Moves.refl [.lib] s
  unfold rebuildSet
  iterate 60 all_goals first
    | with_reducible assumption
    | ((with_reducible apply rebuildBlock_moves (hw := ?w)); case w => rfl)
    | with_reducible apply Moves.foldl
    | intro _
    | dsimp only
    | split

end Sys2Proof.Laws
end

