-- ==== Sys2Proof/Laws/MovesLibrary.lean ====
section
/-! SUPPORT. What the operations of Machine/Library.lean may change of the state, and that they keep what no operation breaks. -/

namespace Sys2Proof.Laws

open Sys2Proof Sys2Proof.Machine

theorem showLibUse_moves {M : List Part} {s0 s : State} (hw : inMask [.regs] M = true) (h0 : Moves M s0 s) : Moves M s0 (showLibUse s) := by
  refine Moves.via (N := [.regs]) ?_ hw h0
  clear hw h0
  have hK := Moves.refl [.regs] s
  unfold showLibUse
  iterate 60 all_goals first
    | with_reducible assumption
    | ((with_reducible apply setRegN_moves (hw := ?w)); case w => rfl)
    | intro _
    | dsimp only
    | split

theorem libDone_moves (cmd code id : Nat) {M : List Part} {s0 s : State} (hw : inMask [.regs, .net] M = true) (h0 : Moves M s0 s) : Moves M s0 (libDone cmd code id s) := by
  refine Moves.via (N := [.regs, .net]) ?_ hw h0
  clear hw h0
  have hK := Moves.refl [.regs, .net] s
  unfold libDone
  iterate 60 all_goals first
    | with_reducible assumption
    | ((with_reducible apply setRegN_moves (hw := ?w)); case w => rfl)
    | ((with_reducible apply orReg_moves (hw := ?w)); case w => rfl)
    | ((with_reducible apply pushRec_moves (hw := ?w)); case w => rfl)
    | intro _
    | dsimp only
    | split

theorem libTaken_moves (cmd : Nat) {M : List Part} {s0 s : State} (hw : inMask [.regs, .ans] M = true) (h0 : Moves M s0 s) : Moves M s0 (libTaken cmd s) := by
  refine Moves.via (N := [.regs, .ans]) ?_ hw h0
  clear hw h0
  have hK := Moves.refl [.regs, .ans] s
  unfold libTaken
  iterate 60 all_goals first
    | with_reducible assumption
    | ((with_reducible apply answer_moves (hw := ?w)); case w => rfl)
    | ((with_reducible apply setRegN_moves (hw := ?w)); case w => rfl)
    | intro _
    | dsimp only
    | split

theorem libCommand_moves {M : List Part} {q : Req} {cmd : Nat} {k : State → State} {s0 s : State} (hw : inMask [.ans] M = true)
    (hk : ∀ t, Moves M s0 t → Moves M s0 (k t)) (h0 : Moves M s0 s) : Moves M s0 (libCommand q cmd k s) :=
  guarded_moves hw (fun _ h => refuseIf_moves hw hk h) h0

theorem libCreate_moves {M : List Part} {s0 s : State} (hw : inMask [.regs, .ans, .net, .lib] M = true) (h0 : Moves M s0 s) : Moves M s0 (libCreate s) := by
  refine Moves.via (N := [.regs, .ans, .net, .lib]) ?_ hw h0
  clear hw h0
  have hK := Moves.refl [.regs, .ans, .net, .lib] s
  unfold libCreate
  iterate 60 all_goals first
    | with_reducible assumption
    | ((with_reducible apply answer_moves (hw := ?w)); case w => rfl)
    | ((with_reducible apply libTaken_moves (hw := ?w)); case w => rfl)
    | ((with_reducible apply setObj_moves (hw := ?w)); case w => rfl)
    | ((with_reducible apply libDone_moves (hw := ?w)); case w => rfl)
    | ((with_reducible apply incWrap_moves (hw := ?w)); case w => rfl)
    | ((with_reducible apply showLibUse_moves (hw := ?w)); case w => rfl)
    | intro _
    | dsimp only
    | split

theorem libDelete_moves {M : List Part} {s0 s : State} (hw : inMask [.regs, .ans, .net, .lib] M = true) (h0 : Moves M s0 s) : Moves M s0 (libDelete s) := by
  refine Moves.via (N := [.regs, .ans, .net, .lib]) ?_ hw h0
  clear hw h0
  have hK := Moves.refl [.regs, .ans, .net, .lib] s
  unfold libDelete
  iterate 60 all_goals first
    | with_reducible assumption
    | ((with_reducible apply answer_moves (hw := ?w)); case w => rfl)
    | ((with_reducible apply libTaken_moves (hw := ?w)); case w => rfl)
    | ((with_reducible apply dropUnits_moves (hw := ?w)); case w => rfl)
    | ((with_reducible apply setObj_moves (hw := ?w)); case w => rfl)
    | ((with_reducible apply evict_moves (hw := ?w)); case w => rfl)
    | ((with_reducible apply libDone_moves (hw := ?w)); case w => rfl)
    | ((with_reducible apply setRegN_moves (hw := ?w)); case w => rfl)
    | ((with_reducible apply showArea_moves (hw := ?w)); case w => rfl)
    | ((with_reducible apply showLibUse_moves (hw := ?w)); case w => rfl)
    | intro _
    | dsimp only
    | split

theorem libEvict_moves {M : List Part} {s0 s : State} (hw : inMask [.regs, .ans, .net, .lib] M = true) (h0 : Moves M s0 s) : Moves M s0 (libEvict s) := by
  refine Moves.via (N := [.regs, .ans, .net, .lib]) ?_ hw h0
  clear hw h0
  have hK := Moves.refl [.regs, .ans, .net, .lib] s
  unfold libEvict
  iterate 60 all_goals first
    | with_reducible assumption
    | ((with_reducible apply answer_moves (hw := ?w)); case w => rfl)
    | ((with_reducible apply libDone_moves (hw := ?w)); case w => rfl)
    | ((with_reducible apply showArea_moves (hw := ?w)); case w => rfl)
    | ((with_reducible apply evict_moves (hw := ?w)); case w => rfl)
    | ((with_reducible apply libTaken_moves (hw := ?w)); case w => rfl)
    | intro _
    | dsimp only
    | split

theorem libInfo_moves {M : List Part} {s0 s : State} (hw : inMask [.regs, .ans, .net] M = true) (h0 : Moves M s0 s) : Moves M s0 (libInfo s) := by
  refine Moves.via (N := [.regs, .ans, .net]) ?_ hw h0
  clear hw h0
  have hK := Moves.refl [.regs, .ans, .net] s
  unfold libInfo
  iterate 60 all_goals first
    | with_reducible assumption
    | ((with_reducible apply libDone_moves (hw := ?w)); case w => rfl)
    | ((with_reducible apply setRegs_moves (hw := ?w)); case w => rfl)
    | ((with_reducible apply libTaken_moves (hw := ?w)); case w => rfl)
    | intro _
    | dsimp only
    | split

theorem fillUnits_moves (left : Nat) {M : List Part} {s0 s : State} (hw : inMask [.regs] M = true) (h0 : Moves M s0 s) : Moves M s0 (fillUnits left s) := by
  refine Moves.via (N := [.regs]) ?_ hw h0
  clear hw h0
  have hK := Moves.refl [.regs] s
  unfold fillUnits
  iterate 60 all_goals first
    | with_reducible assumption
    | ((with_reducible apply setRegN_moves (hw := ?w)); case w => rfl)
    | ((with_reducible apply incWrap_moves (hw := ?w)); case w => rfl)
    | intro _
    | dsimp only
    | split

theorem abandonUnits_moves {M : List Part} {s0 s : State} (hw : inMask [.regs] M = true) (h0 : Moves M s0 s) : Moves M s0 (abandonUnits s) := by
  refine Moves.via (N := [.regs]) ?_ hw h0
  clear hw h0
  have hK := Moves.refl [.regs] s
  unfold abandonUnits
  iterate 60 all_goals first
    | with_reducible assumption
    | ((with_reducible apply incWrap_moves (hw := ?w)); case w => rfl)
    | ((with_reducible apply setRegN_moves (hw := ?w)); case w => rfl)
    | intro _
    | dsimp only
    | split

theorem showWear_moves {M : List Part} {s0 s : State} (hw : inMask [.regs] M = true) (h0 : Moves M s0 s) : Moves M s0 (showWear s) := by
  refine Moves.via (N := [.regs]) ?_ hw h0
  clear hw h0
  have hK := Moves.refl [.regs] s
  unfold showWear
  iterate 60 all_goals first
    | with_reducible assumption
    | ((with_reducible apply setRegN_moves (hw := ?w)); case w => rfl)
    | intro _
    | dsimp only
    | split

theorem countWear_moves (n : Nat) {M : List Part} {s0 s : State} (hw : inMask [.regs, .lib] M = true) (h0 : Moves M s0 s) : Moves M s0 (countWear n s) := by
  refine Moves.via (N := [.regs, .lib]) ?_ hw h0
  clear hw h0
  have hK := Moves.refl [.regs, .lib] s
  unfold countWear
  iterate 60 all_goals first
    | with_reducible assumption
    | ((with_reducible apply showWear_moves (hw := ?w)); case w => rfl)
    | intro _
    | dsimp only
    | split
    | ((with_reducible apply Moves.update) <;> first | (with_reducible exact Or.inl rfl) | exact Or.inr (by decide) | skip)

theorem libWrite_moves {M : List Part} {s0 s : State} (hw : inMask [.regs, .ans, .lib] M = true) (h0 : Moves M s0 s) : Moves M s0 (libWrite s) := by
  refine Moves.via (N := [.regs, .ans, .lib]) ?_ hw h0
  clear hw h0
  have hK := Moves.refl [.regs, .ans, .lib] s
  unfold libWrite
  iterate 60 all_goals first
    | with_reducible assumption
    | ((with_reducible apply answer_moves (hw := ?w)); case w => rfl)
    | ((with_reducible apply setBit_moves (hw := ?w)); case w => rfl)
    | ((with_reducible apply libTaken_moves (hw := ?w)); case w => rfl)
    | ((with_reducible apply dropUnits_moves (hw := ?w)); case w => rfl)
    | ((with_reducible apply modObj_moves (hw := ?w)); case w => rfl)
    | ((with_reducible apply setObj_moves (hw := ?w)); case w => rfl)
    | ((with_reducible apply countWear_moves (hw := ?w)); case w => rfl)
    | ((with_reducible apply fillUnits_moves (hw := ?w)); case w => rfl)
    | intro _
    | dsimp only
    | split
    | ((with_reducible apply Moves.update) <;> first | (with_reducible exact Or.inl rfl) | exact Or.inr (by decide) | skip)

theorem libRead_moves {M : List Part} {s0 s : State} (hw : inMask [.regs, .ans, .lib] M = true) (h0 : Moves M s0 s) : Moves M s0 (libRead s) := by
  refine Moves.via (N := [.regs, .ans, .lib]) ?_ hw h0
  clear hw h0
  have hK := Moves.refl [.regs, .ans, .lib] s
  unfold libRead
  iterate 60 all_goals first
    | with_reducible assumption
    | ((with_reducible apply answer_moves (hw := ?w)); case w => rfl)
    | ((with_reducible apply libTaken_moves (hw := ?w)); case w => rfl)
    | ((with_reducible apply setBit_moves (hw := ?w)); case w => rfl)
    | intro _
    | dsimp only
    | split
    | ((with_reducible apply Moves.update) <;> first | (with_reducible exact Or.inl rfl) | exact Or.inr (by decide) | skip)

theorem libCancel_moves {M : List Part} {s0 s : State} (hw : inMask [.regs, .ans, .net, .lib] M = true) (h0 : Moves M s0 s) : Moves M s0 (libCancel s) := by
  refine Moves.via (N := [.regs, .ans, .net, .lib]) ?_ hw h0
  clear hw h0
  have hK := Moves.refl [.regs, .ans, .net, .lib] s
  unfold libCancel
  iterate 60 all_goals first
    | with_reducible assumption
    | ((with_reducible apply libDone_moves (hw := ?w)); case w => rfl)
    | ((with_reducible apply libTaken_moves (hw := ?w)); case w => rfl)
    | ((with_reducible apply abandonUnits_moves (hw := ?w)); case w => rfl)
    | ((with_reducible apply setBit_moves (hw := ?w)); case w => rfl)
    | intro _
    | dsimp only
    | split
    | ((with_reducible apply Moves.update) <;> first | (with_reducible exact Or.inl rfl) | exact Or.inr (by decide) | skip)

theorem sealWritten_moves (r : LibRun) {M : List Part} {s0 s : State} (hw : inMask [.lib] M = true) (h0 : Moves M s0 s) : Moves M s0 (sealWritten r s) := by
  refine Moves.via (N := [.lib]) ?_ hw h0
  clear hw h0
  have hK := Moves.refl [.lib] s
  unfold sealWritten
  iterate 60 all_goals first
    | with_reducible assumption
    | ((with_reducible apply modObj_moves (hw := ?w)); case w => rfl)
    | intro _
    | dsimp only
    | split

theorem endWrite_moves (code : Nat) {M : List Part} {s0 s : State} (hw : inMask [.regs, .lib] M = true) (h0 : Moves M s0 s) : Moves M s0 (endWrite code s) := by
  refine Moves.via (N := [.regs, .lib]) ?_ hw h0
  clear hw h0
  have hK := Moves.refl [.regs, .lib] s
  unfold endWrite
  iterate 60 all_goals first
    | with_reducible assumption
    | ((with_reducible apply abandonUnits_moves (hw := ?w)); case w => rfl)
    | intro _
    | dsimp only
    | split
    | ((with_reducible apply Moves.update) <;> first | (with_reducible exact Or.inl rfl) | exact Or.inr (by decide) | skip)

theorem writeUnitCommit_moves {M : List Part} {s0 s : State} (hw : inMask [.regs, .flt, .lib, .hbm] M = true) (h0 : Moves M s0 s) : Moves M s0 (writeUnitCommit s) := by
  refine Moves.via (N := [.regs, .flt, .lib, .hbm]) ?_ hw h0
  clear hw h0
  have hK := Moves.refl [.regs, .flt, .lib, .hbm] s
  unfold writeUnitCommit
  iterate 60 all_goals first
    | with_reducible assumption
    | ((with_reducible apply readHook_moves (hw := ?w)); case w => rfl)
    | ((with_reducible apply endWrite_moves (hw := ?w)); case w => rfl)
    | ((with_reducible apply modObj_moves (hw := ?w)); case w => rfl)
    | ((with_reducible apply placeUnit_moves (hw := ?w)); case w => rfl)
    | ((with_reducible apply incWrap_moves (hw := ?w)); case w => rfl)
    | ((with_reducible apply setRegN_moves (hw := ?w)); case w => rfl)
    | ((with_reducible apply fillUnits_moves (hw := ?w)); case w => rfl)
    | ((with_reducible apply sealWritten_moves (hw := ?w)); case w => rfl)
    | intro _
    | dsimp only
    | split
    | ((with_reducible apply Moves.update) <;> first | (with_reducible exact Or.inl rfl) | exact Or.inr (by decide) | skip)

theorem libCmdComplete_moves (c : CryptoObs) {M : List Part} {s0 s : State} (hw : inMask [.regs, .mem, .net, .lib, .hbm] M = true) (h0 : Moves M s0 s) : Moves M s0 (libCmdComplete c s) := by
  refine Moves.via (N := [.regs, .mem, .net, .lib, .hbm]) ?_ hw h0
  clear hw h0
  have hK := Moves.refl [.regs, .mem, .net, .lib, .hbm] s
  unfold libCmdComplete
  iterate 60 all_goals first
    | with_reducible assumption
    | ((with_reducible apply setBytes_moves (hw := ?w)); case w => rfl)
    | ((with_reducible apply libDone_moves (hw := ?w)); case w => rfl)
    | ((with_reducible apply setBit_moves (hw := ?w)); case w => rfl)
    | ((with_reducible apply setObj_moves (hw := ?w)); case w => rfl)
    | ((with_reducible apply takeUnits_moves (hw := ?w)); case w => rfl)
    | ((with_reducible apply dropUnits_moves (hw := ?w)); case w => rfl)
    | intro _
    | dsimp only
    | split
    | ((with_reducible apply Moves.update) <;> first | (with_reducible exact Or.inl rfl) | exact Or.inr (by decide) | skip)

theorem showQueue_moves {M : List Part} {s0 s : State} (hw : inMask [.regs] M = true) (h0 : Moves M s0 s) : Moves M s0 (showQueue s) := by
  refine Moves.via (N := [.regs]) ?_ hw h0
  clear hw h0
  have hK := Moves.refl [.regs] s
  unfold showQueue
  iterate 60 all_goals first
    | with_reducible assumption
    | ((with_reducible apply setRegN_moves (hw := ?w)); case w => rfl)
    | intro _
    | dsimp only
    | split

theorem requestStage_moves (cmd : Bool) (id : Nat) {M : List Part} {s0 s : State} (hw : inMask [.regs, .lib] M = true) (h0 : Moves M s0 s) : Moves M s0 (requestStage cmd id s) := by
  refine Moves.via (N := [.regs, .lib]) ?_ hw h0
  clear hw h0
  have hK := Moves.refl [.regs, .lib] s
  unfold requestStage
  iterate 60 all_goals first
    | with_reducible assumption
    | ((with_reducible apply showQueue_moves (hw := ?w)); case w => rfl)
    | intro _
    | dsimp only
    | split
    | ((with_reducible apply Moves.update) <;> first | (with_reducible exact Or.inl rfl) | exact Or.inr (by decide) | skip)

theorem requestStepList_moves (st : StepInfo) (c : Nat) {M : List Part} {s0 s : State} (hw : inMask [.regs, .seq, .lib] M = true) (h0 : Moves M s0 s) : Moves M s0 (requestStepList st s c) := by
  refine Moves.via (N := [.regs, .seq, .lib]) ?_ hw h0
  clear hw h0
  have hK := Moves.refl [.regs, .seq, .lib] s
  unfold requestStepList
  iterate 60 all_goals first
    | with_reducible assumption
    | ((with_reducible apply requestStage_moves (hw := ?w)); case w => rfl)
    | ((with_reducible apply modCtx_moves (hw := ?w)); case w => rfl)
    | with_reducible apply Moves.foldl
    | intro _
    | dsimp only
    | split

theorem requestStepLists_moves {M : List Part} {s0 s : State} (hw : inMask [.regs, .seq, .lib] M = true) (h0 : Moves M s0 s) : Moves M s0 (requestStepLists s) := by
  refine Moves.via (N := [.regs, .seq, .lib]) ?_ hw h0
  clear hw h0
  have hK := Moves.refl [.regs, .seq, .lib] s
  unfold requestStepLists
  iterate 60 all_goals first
    | with_reducible assumption
    | ((with_reducible apply requestStepList_moves (hw := ?w)); case w => rfl)
    | with_reducible apply Moves.foldl
    | intro _
    | dsimp only
    | split

theorem touchObj_moves (id : Nat) {M : List Part} {s0 s : State} (hw : inMask [.lib] M = true) (h0 : Moves M s0 s) : Moves M s0 (touchObj id s) := by
  refine Moves.via (N := [.lib]) ?_ hw h0
  clear hw h0
  have hK := Moves.refl [.lib] s
  unfold touchObj
  iterate 60 all_goals first
    | with_reducible assumption
    | intro _
    | dsimp only
    | split
    | ((with_reducible apply Moves.update) <;> first | (with_reducible exact Or.inl rfl) | exact Or.inr (by decide) | skip)

theorem libStage_moves {M : List Part} {s0 s : State} (hw : inMask [.regs, .ans, .net, .lib] M = true) (h0 : Moves M s0 s) : Moves M s0 (libStage s) := by
  refine Moves.via (N := [.regs, .ans, .net, .lib]) ?_ hw h0
  clear hw h0
  have hK := Moves.refl [.regs, .ans, .net, .lib] s
  unfold libStage
  iterate 60 all_goals first
    | with_reducible assumption
    | ((with_reducible apply libDone_moves (hw := ?w)); case w => rfl)
    | ((with_reducible apply touchObj_moves (hw := ?w)); case w => rfl)
    | ((with_reducible apply libTaken_moves (hw := ?w)); case w => rfl)
    | ((with_reducible apply answer_moves (hw := ?w)); case w => rfl)
    | ((with_reducible apply orReg_moves (hw := ?w)); case w => rfl)
    | ((with_reducible apply requestStage_moves (hw := ?w)); case w => rfl)
    | intro _
    | dsimp only
    | split

theorem makeRoom_moves (n : Nat) (x0 : List Nat) {M : List Part} {s0 s : State} (hw : inMask [.lib] M = true) (h0 : Moves M s0 s) : Moves M s0 (makeRoom n x0 s).2 := by
  refine Moves.via (N := [.lib]) ?_ hw h0
  clear hw h0
  induction x0 generalizing n s with
  | nil =>
    have hK := Moves.refl [.lib] s
    unfold makeRoom
    iterate 60 all_goals first
      | with_reducible assumption
      | ((with_reducible apply evict_moves (hw := ?w)); case w => rfl)
      | intro _
      | dsimp only
      | split
  | cons x xs ih =>
    have hK := Moves.refl [.lib] s
    unfold makeRoom
    iterate 60 all_goals first
      | with_reducible assumption
      | ((with_reducible apply evict_moves (hw := ?w)); case w => rfl)
      | with_reducible refine Moves.trans ?_ (Moves.of2 ‹makeRoom _ _ _ = _› (ih ..))
      | with_reducible refine Moves.trans ?_ (ih ..)
      | intro _
      | dsimp only
      | split
theorem makeRoom_movesE {n : Nat} {x0 : List Nat} {w0} {M : List Part} {s0 s s' : State} (hE : makeRoom n x0 s = (w0, s')) (hw : inMask [.lib] M = true) (h0 : Moves M s0 s) : Moves M s0 s' := by
  have k := makeRoom_moves (hw := hw) (h0 := h0) (n := n) (x0 := x0)
  rw [hE] at k
  exact k

theorem becomeResident_moves (id a : Nat) {M : List Part} {s0 s : State} (hw : inMask [.regs, .mem, .net, .seq, .lib, .hbm] M = true) (h0 : Moves M s0 s) : Moves M s0 (becomeResident id a s) := by
  refine Moves.via (N := [.regs, .mem, .net, .seq, .lib, .hbm]) ?_ hw h0
  clear hw h0
  have hK := Moves.refl [.regs, .mem, .net, .seq, .lib, .hbm] s
  unfold becomeResident
  iterate 60 all_goals first
    | with_reducible assumption
    | ((with_reducible apply setBytes_moves (hw := ?w)); case w => rfl)
    | ((with_reducible apply modObj_moves (hw := ?w)); case w => rfl)
    | ((with_reducible apply touchObj_moves (hw := ?w)); case w => rfl)
    | ((with_reducible apply requestStepLists_moves (hw := ?w)); case w => rfl)
    | ((with_reducible apply stageDoneAll_moves (hw := ?w)); case w => rfl)
    | ((with_reducible apply setBit_moves (hw := ?w)); case w => rfl)
    | ((with_reducible apply showArea_moves (hw := ?w)); case w => rfl)
    | ((with_reducible apply showQueue_moves (hw := ?w)); case w => rfl)
    | ((with_reducible apply libDone_moves (hw := ?w)); case w => rfl)
    | intro _
    | dsimp only
    | split
    | ((with_reducible apply Moves.update) <;> first | (with_reducible exact Or.inl rfl) | exact Or.inr (by decide) | skip)

theorem stagingComplete_moves {M : List Part} {s0 s : State} (hw : inMask [.regs, .mem, .net, .flt, .seq, .lib, .hbm] M = true) (h0 : Moves M s0 s) : Moves M s0 (stagingComplete s) := by
  refine Moves.via (N := [.regs, .mem, .net, .flt, .seq, .lib, .hbm]) ?_ hw h0
  clear hw h0
  have hK := Moves.refl [.regs, .mem, .net, .flt, .seq, .lib, .hbm] s
  unfold stagingComplete
  iterate 60 all_goals first
    | with_reducible assumption
    | ((with_reducible apply makeRoom_movesE (hE := by assumption) (hw := ?w)); case w => rfl)
    | ((with_reducible apply makeRoom_moves (hw := ?w)); case w => rfl)
    | ((with_reducible apply becomeResident_moves (hw := ?w)); case w => rfl)
    | ((with_reducible apply setBit_moves (hw := ?w)); case w => rfl)
    | ((with_reducible apply raise_moves (hw := ?w)); case w => rfl)
    | intro _
    | dsimp only
    | split
    | ((with_reducible apply Moves.update) <;> first | (with_reducible exact Or.inl rfl) | exact Or.inr (by decide) | skip)

theorem stageFailed_moves (id : Nat) (digest : Bool) {M : List Part} {s0 s : State} (hw : inMask [.regs, .net, .flt, .lib] M = true) (h0 : Moves M s0 s) : Moves M s0 (stageFailed id digest s) := by
  refine Moves.via (N := [.regs, .net, .flt, .lib]) ?_ hw h0
  clear hw h0
  have hK := Moves.refl [.regs, .net, .flt, .lib] s
  unfold stageFailed
  iterate 60 all_goals first
    | with_reducible assumption
    | ((with_reducible apply showQueue_moves (hw := ?w)); case w => rfl)
    | ((with_reducible apply setRegN_moves (hw := ?w)); case w => rfl)
    | ((with_reducible apply orReg_moves (hw := ?w)); case w => rfl)
    | ((with_reducible apply raise_moves (hw := ?w)); case w => rfl)
    | ((with_reducible apply libDone_moves (hw := ?w)); case w => rfl)
    | intro _
    | dsimp only
    | split
    | ((with_reducible apply Moves.update) <;> first | (with_reducible exact Or.inl rfl) | exact Or.inr (by decide) | skip)

theorem takePool_moves (n : Nat) {M : List Part} {s0 s : State} (hw : inMask [.regs, .flt] M = true) (h0 : Moves M s0 s) : Moves M s0 (takePool n s) := by
  refine Moves.via (N := [.regs, .flt]) ?_ hw h0
  clear hw h0
  have hK := Moves.refl [.regs, .flt] s
  unfold takePool
  iterate 60 all_goals first
    | with_reducible assumption
    | ((with_reducible apply setRegN_moves (hw := ?w)); case w => rfl)
    | ((with_reducible apply raise_moves (hw := ?w)); case w => rfl)
    | ((with_reducible apply setBit_moves (hw := ?w)); case w => rfl)
    | intro _
    | dsimp only
    | split

theorem retireLibrary_moves {M : List Part} {s0 s : State} (hw : inMask [.regs, .flt, .lib] M = true) (h0 : Moves M s0 s) : Moves M s0 (retireLibrary s) := by
  refine Moves.via (N := [.regs, .flt, .lib]) ?_ hw h0
  clear hw h0
  have hK := Moves.refl [.regs, .flt, .lib] s
  unfold retireLibrary
  iterate 60 all_goals first
    | with_reducible assumption
    | ((with_reducible apply orReg_moves (hw := ?w)); case w => rfl)
    | ((with_reducible apply setBit_moves (hw := ?w)); case w => rfl)
    | ((with_reducible apply raise_moves (hw := ?w)); case w => rfl)
    | ((with_reducible apply endWrite_moves (hw := ?w)); case w => rfl)
    | intro _
    | dsimp only
    | split

theorem blockRetire_moves (b : Nat) {M : List Part} {s0 s : State} (hw : inMask [.regs, .flt, .lib] M = true) (h0 : Moves M s0 s) : Moves M s0 (blockRetire b s) := by
  refine Moves.via (N := [.regs, .flt, .lib]) ?_ hw h0
  clear hw h0
  have hK := Moves.refl [.regs, .flt, .lib] s
  unfold blockRetire
  iterate 60 all_goals first
    | with_reducible assumption
    | ((with_reducible apply retireBlock_moves (hw := ?w)); case w => rfl)
    | ((with_reducible apply orReg_moves (hw := ?w)); case w => rfl)
    | ((with_reducible apply setRegN_moves (hw := ?w)); case w => rfl)
    | ((with_reducible apply raise_moves (hw := ?w)); case w => rfl)
    | ((with_reducible apply retireLibrary_moves (hw := ?w)); case w => rfl)
    | ((with_reducible apply takePool_moves (hw := ?w)); case w => rfl)
    | intro _
    | dsimp only
    | split

theorem dieFailure_moves (die set : Nat) (lost : List Nat) {M : List Part} {s0 s : State} (hw : inMask [.regs, .flt, .lib] M = true) (h0 : Moves M s0 s) : Moves M s0 (dieFailure die set lost s) := by
  refine Moves.via (N := [.regs, .flt, .lib]) ?_ hw h0
  clear hw h0
  have hK := Moves.refl [.regs, .flt, .lib] s
  unfold dieFailure
  iterate 60 all_goals first
    | with_reducible assumption
    | ((with_reducible apply orReg_moves (hw := ?w)); case w => rfl)
    | ((with_reducible apply setBit_moves (hw := ?w)); case w => rfl)
    | ((with_reducible apply incWrap_moves (hw := ?w)); case w => rfl)
    | ((with_reducible apply raise_moves (hw := ?w)); case w => rfl)
    | ((with_reducible apply modObj_moves (hw := ?w)); case w => rfl)
    | with_reducible apply Moves.foldl
    | intro _
    | dsimp only
    | split
    | ((with_reducible apply Moves.update) <;> first | (with_reducible exact Or.inl rfl) | exact Or.inr (by decide) | skip)

theorem dieRebuilt_moves (set n : Nat) {M : List Part} {s0 s : State} (hw : inMask [.regs, .flt, .lib] M = true) (h0 : Moves M s0 s) : Moves M s0 (dieRebuilt set n s) := by
  refine Moves.via (N := [.regs, .flt, .lib]) ?_ hw h0
  clear hw h0
  have hK := Moves.refl [.regs, .flt, .lib] s
  unfold dieRebuilt
  iterate 60 all_goals first
    | with_reducible assumption
    | ((with_reducible apply rebuildSet_moves (hw := ?w)); case w => rfl)
    | ((with_reducible apply setBit_moves (hw := ?w)); case w => rfl)
    | ((with_reducible apply takePool_moves (hw := ?w)); case w => rfl)
    | ((with_reducible apply retireLibrary_moves (hw := ?w)); case w => rfl)
    | intro _
    | dsimp only
    | split
    | ((with_reducible apply Moves.update) <;> first | (with_reducible exact Or.inl rfl) | exact Or.inr (by decide) | skip)

theorem takeRescue_moves {M : List Part} {s0 s : State} (hw : inMask [.regs] M = true) (h0 : Moves M s0 s) : Moves M s0 (takeRescue s) := by
  refine Moves.via (N := [.regs]) ?_ hw h0
  clear hw h0
  have hK := Moves.refl [.regs] s
  unfold takeRescue
  iterate 60 all_goals first
    | with_reducible assumption
    | ((with_reducible apply setRegN_moves (hw := ?w)); case w => rfl)
    | intro _
    | dsimp only
    | split

theorem wearHour_moves {M : List Part} {s0 s : State} (hw : inMask [.regs, .lib] M = true) (h0 : Moves M s0 s) : Moves M s0 (wearHour s) := by
  refine Moves.via (N := [.regs, .lib]) ?_ hw h0
  clear hw h0
  have hK := Moves.refl [.regs, .lib] s
  unfold wearHour
  iterate 60 all_goals first
    | with_reducible assumption
    | ((with_reducible apply setBit_moves (hw := ?w)); case w => rfl)
    | ((with_reducible apply showWear_moves (hw := ?w)); case w => rfl)
    | intro _
    | dsimp only
    | split
    | ((with_reducible apply Moves.update) <;> first | (with_reducible exact Or.inl rfl) | exact Or.inr (by decide) | skip)

theorem execLibCreate_moves (q : Req) {s s' : State} (h : execLibCreate q s = .next s') : Moves [.regs, .ans, .net, .lib] s s' := by
  unfold execLibCreate at h
  have hK := Moves.refl [.regs, .ans, .net, .lib] s
  all_goals injection h with h
  all_goals subst h
  iterate 60 all_goals first
    | with_reducible assumption
    | ((with_reducible apply libCommand_moves (hw := ?w)); case w => rfl)
    | ((with_reducible apply libCreate_moves (hw := ?w)); case w => rfl)
    | intro _
    | dsimp only
    | split

theorem execLibWrite_moves (q : Req) {s s' : State} (h : execLibWrite q s = .next s') : Moves [.regs, .ans, .lib] s s' := by
  unfold execLibWrite at h
  have hK := Moves.refl [.regs, .ans, .lib] s
  all_goals injection h with h
  all_goals subst h
  iterate 60 all_goals first
    | with_reducible assumption
    | ((with_reducible apply libCommand_moves (hw := ?w)); case w => rfl)
    | ((with_reducible apply libWrite_moves (hw := ?w)); case w => rfl)
    | intro _
    | dsimp only
    | split

theorem execLibRead_moves (q : Req) {s s' : State} (h : execLibRead q s = .next s') : Moves [.regs, .ans, .lib] s s' := by
  unfold execLibRead at h
  have hK := Moves.refl [.regs, .ans, .lib] s
  all_goals injection h with h
  all_goals subst h
  iterate 60 all_goals first
    | with_reducible assumption
    | ((with_reducible apply libCommand_moves (hw := ?w)); case w => rfl)
    | ((with_reducible apply libRead_moves (hw := ?w)); case w => rfl)
    | intro _
    | dsimp only
    | split

theorem execLibDelete_moves (q : Req) {s s' : State} (h : execLibDelete q s = .next s') : Moves [.regs, .ans, .net, .lib] s s' := by
  unfold execLibDelete at h
  have hK := Moves.refl [.regs, .ans, .net, .lib] s
  all_goals injection h with h
  all_goals subst h
  iterate 60 all_goals first
    | with_reducible assumption
    | ((with_reducible apply libCommand_moves (hw := ?w)); case w => rfl)
    | ((with_reducible apply libDelete_moves (hw := ?w)); case w => rfl)
    | intro _
    | dsimp only
    | split

theorem execLibStage_moves (q : Req) {s s' : State} (h : execLibStage q s = .next s') : Moves [.regs, .ans, .net, .lib] s s' := by
  unfold execLibStage at h
  have hK := Moves.refl [.regs, .ans, .net, .lib] s
  all_goals injection h with h
  all_goals subst h
  iterate 60 all_goals first
    | with_reducible assumption
    | ((with_reducible apply libCommand_moves (hw := ?w)); case w => rfl)
    | ((with_reducible apply libStage_moves (hw := ?w)); case w => rfl)
    | intro _
    | dsimp only
    | split

theorem execLibEvict_moves (q : Req) {s s' : State} (h : execLibEvict q s = .next s') : Moves [.regs, .ans, .net, .lib] s s' := by
  unfold execLibEvict at h
  have hK := Moves.refl [.regs, .ans, .net, .lib] s
  all_goals injection h with h
  all_goals subst h
  iterate 60 all_goals first
    | with_reducible assumption
    | ((with_reducible apply libCommand_moves (hw := ?w)); case w => rfl)
    | ((with_reducible apply libEvict_moves (hw := ?w)); case w => rfl)
    | intro _
    | dsimp only
    | split

theorem execLibInfo_moves (q : Req) {s s' : State} (h : execLibInfo q s = .next s') : Moves [.regs, .ans, .net] s s' := by
  unfold execLibInfo at h
  have hK := Moves.refl [.regs, .ans, .net] s
  all_goals injection h with h
  all_goals subst h
  iterate 60 all_goals first
    | with_reducible assumption
    | ((with_reducible apply libCommand_moves (hw := ?w)); case w => rfl)
    | ((with_reducible apply libInfo_moves (hw := ?w)); case w => rfl)
    | intro _
    | dsimp only
    | split

theorem execLibCancel_moves (q : Req) {s s' : State} (h : execLibCancel q s = .next s') : Moves [.regs, .ans, .net, .lib] s s' := by
  unfold execLibCancel at h
  have hK := Moves.refl [.regs, .ans, .net, .lib] s
  all_goals injection h with h
  all_goals subst h
  iterate 60 all_goals first
    | with_reducible assumption
    | ((with_reducible apply libCommand_moves (hw := ?w)); case w => rfl)
    | ((with_reducible apply libCancel_moves (hw := ?w)); case w => rfl)
    | intro _
    | dsimp only
    | split

theorem execWriteUnitCommit_moves {s s' : State} (h : execWriteUnitCommit s = .next s') : Moves [.regs, .flt, .lib, .hbm] s s' := by
  unfold execWriteUnitCommit at h
  have hK := Moves.refl [.regs, .flt, .lib, .hbm] s
  all_goals injection h with h
  all_goals subst h
  iterate 60 all_goals first
    | with_reducible assumption
    | ((with_reducible apply writeUnitCommit_moves (hw := ?w)); case w => rfl)
    | intro _
    | dsimp only
    | split

theorem execLibCmdComplete_moves (obs : CryptoObs) {s s' : State} (h : execLibCmdComplete obs s = .next s') : Moves [.regs, .mem, .net, .lib, .hbm] s s' := by
  unfold execLibCmdComplete at h
  have hK := Moves.refl [.regs, .mem, .net, .lib, .hbm] s
  all_goals injection h with h
  all_goals subst h
  iterate 60 all_goals first
    | with_reducible assumption
    | ((with_reducible apply libCmdComplete_moves (hw := ?w)); case w => rfl)
    | intro _
    | dsimp only
    | split

theorem execStagingComplete_moves {s s' : State} (h : execStagingComplete s = .next s') : Moves [.regs, .mem, .net, .flt, .seq, .lib, .hbm] s s' := by
  unfold execStagingComplete at h
  have hK := Moves.refl [.regs, .mem, .net, .flt, .seq, .lib, .hbm] s
  all_goals injection h with h
  all_goals subst h
  iterate 60 all_goals first
    | with_reducible assumption
    | ((with_reducible apply stagingComplete_moves (hw := ?w)); case w => rfl)
    | intro _
    | dsimp only
    | split

theorem execStageFailed_moves (id : Nat) (digest : Bool) {s s' : State} (h : execStageFailed id digest s = .next s') : Moves [.regs, .net, .flt, .lib] s s' := by
  unfold execStageFailed at h
  have hK := Moves.refl [.regs, .net, .flt, .lib] s
  all_goals injection h with h
  all_goals subst h
  iterate 60 all_goals first
    | with_reducible assumption
    | ((with_reducible apply stageFailed_moves (hw := ?w)); case w => rfl)
    | intro _
    | dsimp only
    | split

theorem execPatrolPass_moves (corrected : Nat) {s s' : State} (h : execPatrolPass corrected s = .next s') : Moves [.regs, .lib] s s' := by
  unfold execPatrolPass at h
  have hK := Moves.refl [.regs, .lib] s
  all_goals injection h with h
  all_goals subst h
  iterate 60 all_goals first
    | with_reducible assumption
    | ((with_reducible apply patrolRewrite_moves (hw := ?w)); case w => rfl)
    | ((with_reducible apply takeRescue_moves (hw := ?w)); case w => rfl)
    | ((with_reducible apply levelWear_moves (hw := ?w)); case w => rfl)
    | ((with_reducible apply patrolNext_moves (hw := ?w)); case w => rfl)
    | intro _
    | dsimp only
    | split

theorem execBlockRetire_moves (block : Nat) {s s' : State} (h : execBlockRetire block s = .next s') : Moves [.regs, .flt, .lib] s s' := by
  unfold execBlockRetire at h
  have hK := Moves.refl [.regs, .flt, .lib] s
  all_goals injection h with h
  all_goals subst h
  iterate 60 all_goals first
    | with_reducible assumption
    | ((with_reducible apply blockRetire_moves (hw := ?w)); case w => rfl)
    | intro _
    | dsimp only
    | split

theorem execDieFailure_moves (die : Fin 64) (set : Fin 4) (lost : List Nat) {s s' : State} (h : execDieFailure die set lost s = .next s') : Moves [.regs, .flt, .lib] s s' := by
  unfold execDieFailure at h
  have hK := Moves.refl [.regs, .flt, .lib] s
  all_goals injection h with h
  all_goals subst h
  iterate 60 all_goals first
    | with_reducible assumption
    | ((with_reducible apply dieFailure_moves (hw := ?w)); case w => rfl)
    | intro _
    | dsimp only
    | split

theorem execDieRebuildComplete_moves (set : Fin 4) (blocks : Nat) {s s' : State} (h : execDieRebuildComplete set blocks s = .next s') : Moves [.regs, .flt, .lib] s s' := by
  unfold execDieRebuildComplete at h
  have hK := Moves.refl [.regs, .flt, .lib] s
  all_goals injection h with h
  all_goals subst h
  iterate 60 all_goals first
    | with_reducible assumption
    | ((with_reducible apply dieRebuilt_moves (hw := ?w)); case w => rfl)
    | intro _
    | dsimp only
    | split

theorem execWearBudgetHour_moves {s s' : State} (h : execWearBudgetHour s = .next s') : Moves [.regs, .lib] s s' := by
  unfold execWearBudgetHour at h
  have hK := Moves.refl [.regs, .lib] s
  all_goals injection h with h
  all_goals subst h
  iterate 60 all_goals first
    | with_reducible assumption
    | ((with_reducible apply wearHour_moves (hw := ?w)); case w => rfl)
    | intro _
    | dsimp only
    | split

end Sys2Proof.Laws
end

