-- ==== Sys2Proof/Laws/MovesSeqInstr.lean ====
section
/-! SUPPORT. What the operations of Machine/SeqInstr.lean may change of the state, and that they keep what no operation breaks. -/

namespace Sys2Proof.Laws

open Sys2Proof Sys2Proof.Machine

theorem noteInstr_moves (c w pc : Nat) {M : List Part} {s0 s : State} (hw : inMask [.regs] M = true) (h0 : Moves M s0 s) : Moves M s0 (noteInstr c w pc s) := by
  refine Moves.via (N := [.regs]) ?_ hw h0
  clear hw h0
  have hK := Moves.refl [.regs] s
  unfold noteInstr
  iterate 60 all_goals first
    | with_reducible assumption
    | ((with_reducible apply set64_moves (hw := ?w)); case w => rfl)
    | ((with_reducible apply setRegN_moves (hw := ?w)); case w => rfl)
    | intro _
    | dsimp only
    | split

theorem seqStep_moves {M : List Part} {c op : Nat} {k : Nat → State → State} {s0 s : State} (hw : inMask [.regs, .mem, .flt, .pwr, .seq, .links, .src, .hbm] M = true)
    (hk : ∀ x t, Moves M s0 t → Moves M s0 (k x t)) (h0 : Moves M s0 s) : Moves M s0 (seqStep c op k s) := by
  have w1 {A} (h : inMask A [.regs, .mem, .flt, .pwr, .seq, .links, .src, .hbm] = true) : inMask A M = true := inMask_trans h hw
  have hp : ∀ code t, Moves M s0 t → Moves M s0 (programError c code t) := fun _ _ x => programError_moves (hw := w1 rfl) (h0 := x) ..
  have hr : ∀ a n t, Moves M s0 t → Moves M s0 (poisonRead a n t) := fun _ _ _ x => poisonRead_moves (hw := w1 rfl) (h0 := x) ..
  unfold seqStep
  dsimp only
  split
  · exact h0
  · split
    · exact hp _ _ h0
    · have hn : Moves M s0 (noteInstr c (progWord s c (ctxOf s c).pc) (ctxOf s c).pc s) := noteInstr_moves (hw := w1 rfl) (h0 := h0) ..
      repeat' split
      all_goals first | with_reducible exact hp _ _ (hr _ _ _ hn) | with_reducible exact hp _ _ hn | with_reducible exact hr _ _ _ hn | with_reducible exact hn | with_reducible exact hk _ _ (hr _ _ _ hn) | with_reducible exact hk _ _ hn

theorem seqNext_moves (c : Nat) {M : List Part} {s0 s : State} (hw : inMask [.regs, .seq] M = true) (h0 : Moves M s0 s) : Moves M s0 (seqNext c s) := by
  refine Moves.via (N := [.regs, .seq]) ?_ hw h0
  clear hw h0
  have hK := Moves.refl [.regs, .seq] s
  unfold seqNext
  iterate 60 all_goals first
    | with_reducible assumption
    | ((with_reducible apply showCtx_moves (hw := ?w)); case w => rfl)
    | ((with_reducible apply nextInstr_moves (hw := ?w)); case w => rfl)
    | intro _
    | dsimp only
    | split

theorem seqGoto_moves (c a : Nat) {M : List Part} {s0 s : State} (hw : inMask [.regs, .seq] M = true) (h0 : Moves M s0 s) : Moves M s0 (seqGoto c a s) := by
  refine Moves.via (N := [.regs, .seq]) ?_ hw h0
  clear hw h0
  have hK := Moves.refl [.regs, .seq] s
  unfold seqGoto
  iterate 60 all_goals first
    | with_reducible assumption
    | ((with_reducible apply showCtx_moves (hw := ?w)); case w => rfl)
    | ((with_reducible apply writeCheckpoint_moves (hw := ?w)); case w => rfl)
    | ((with_reducible apply modCtx_moves (hw := ?w)); case w => rfl)
    | intro _
    | dsimp only
    | split

theorem begin__moves (c : Nat) (cur : Cur) (st : CtxState) {M : List Part} {s0 s : State} (hw : inMask [.regs, .mem, .seq, .hbm] M = true) (h0 : Moves M s0 s) : Moves M s0 (begin_ c cur st s) := by
  refine Moves.via (N := [.regs, .mem, .seq, .hbm]) ?_ hw h0
  clear hw h0
  have hK := Moves.refl [.regs, .mem, .seq, .hbm] s
  unfold begin_
  iterate 60 all_goals first
    | with_reducible assumption
    | ((with_reducible apply emitAll_moves (hw := ?w)); case w => rfl)
    | ((with_reducible apply modCtx_moves (hw := ?w)); case w => rfl)
    | intro _
    | dsimp only
    | split

theorem playSeg_moves (c seg reps : Nat) (line : Option Nat) (each : Bool) {M : List Part} {s0 s : State} (hw : inMask [.regs, .mem, .flt, .pwr, .seq, .links, .lib, .src, .hbm] M = true) (h0 : Moves M s0 s) : Moves M s0 (playSeg c seg reps line each s) := by
  refine Moves.via (N := [.regs, .mem, .flt, .pwr, .seq, .links, .lib, .src, .hbm]) ?_ hw h0
  clear hw h0
  have hK := Moves.refl [.regs, .mem, .flt, .pwr, .seq, .links, .lib, .src, .hbm] s
  unfold playSeg
  iterate 60 all_goals first
    | with_reducible assumption
    | ((with_reducible apply programError_moves (hw := ?w)); case w => rfl)
    | ((with_reducible apply begin__moves (hw := ?w)); case w => rfl)
    | ((with_reducible apply touchObj_moves (hw := ?w)); case w => rfl)
    | intro _
    | dsimp only
    | split

theorem matchSeg_moves (c w : Nat) {M : List Part} {s0 s : State} (hw : inMask [.regs, .mem, .flt, .pwr, .seq, .links, .lib, .src, .hbm] M = true) (h0 : Moves M s0 s) : Moves M s0 (matchSeg c w s) := by
  refine Moves.via (N := [.regs, .mem, .flt, .pwr, .seq, .links, .lib, .src, .hbm]) ?_ hw h0
  clear hw h0
  have hK := Moves.refl [.regs, .mem, .flt, .pwr, .seq, .links, .lib, .src, .hbm] s
  unfold matchSeg
  iterate 60 all_goals first
    | with_reducible assumption
    | ((with_reducible apply programError_moves (hw := ?w)); case w => rfl)
    | ((with_reducible apply begin__moves (hw := ?w)); case w => rfl)
    | ((with_reducible apply touchObj_moves (hw := ?w)); case w => rfl)
    | intro _
    | dsimp only
    | split

theorem pushLoop_moves (c count : Nat) {M : List Part} {s0 s : State} (hw : inMask [.seq] M = true) (h0 : Moves M s0 s) : Moves M s0 (pushLoop c count s) := by
  refine Moves.via (N := [.seq]) ?_ hw h0
  clear hw h0
  have hK := Moves.refl [.seq] s
  unfold pushLoop
  iterate 60 all_goals first
    | with_reducible assumption
    | ((with_reducible apply modCtx_moves (hw := ?w)); case w => rfl)
    | intro _
    | dsimp only
    | split

theorem loopInstr_moves (c w : Nat) {M : List Part} {s0 s : State} (hw : inMask [.regs, .mem, .flt, .pwr, .seq, .links, .lib, .src, .hbm] M = true) (h0 : Moves M s0 s) : Moves M s0 (loopInstr c w s) := by
  refine Moves.via (N := [.regs, .mem, .flt, .pwr, .seq, .links, .lib, .src, .hbm]) ?_ hw h0
  clear hw h0
  have hK := Moves.refl [.regs, .mem, .flt, .pwr, .seq, .links, .lib, .src, .hbm] s
  unfold loopInstr
  iterate 60 all_goals first
    | with_reducible assumption
    | ((with_reducible apply programError_moves (hw := ?w)); case w => rfl)
    | ((with_reducible apply modCtx_moves (hw := ?w)); case w => rfl)
    | ((with_reducible apply seqNext_moves (hw := ?w)); case w => rfl)
    | ((with_reducible apply pushLoop_moves (hw := ?w)); case w => rfl)
    | ((with_reducible apply touchObj_moves (hw := ?w)); case w => rfl)
    | ((with_reducible apply requestStage_moves (hw := ?w)); case w => rfl)
    | ((with_reducible apply setFld_moves (hw := ?w)); case w => rfl)
    | ((with_reducible apply showCtx_moves (hw := ?w)); case w => rfl)
    | ((with_reducible apply writeCheckpoint_moves (hw := ?w)); case w => rfl)
    | with_reducible apply Moves.foldl
    | intro _
    | dsimp only
    | split

theorem endLoop_moves (c : Nat) {M : List Part} {s0 s : State} (hw : inMask [.regs, .mem, .flt, .pwr, .seq, .links, .src, .hbm] M = true) (h0 : Moves M s0 s) : Moves M s0 (endLoop c s) := by
  refine Moves.via (N := [.regs, .mem, .flt, .pwr, .seq, .links, .src, .hbm]) ?_ hw h0
  clear hw h0
  have hK := Moves.refl [.regs, .mem, .flt, .pwr, .seq, .links, .src, .hbm] s
  unfold endLoop
  iterate 60 all_goals first
    | with_reducible assumption
    | ((with_reducible apply programError_moves (hw := ?w)); case w => rfl)
    | ((with_reducible apply seqGoto_moves (hw := ?w)); case w => rfl)
    | ((with_reducible apply seqNext_moves (hw := ?w)); case w => rfl)
    | ((with_reducible apply modCtx_moves (hw := ?w)); case w => rfl)
    | intro _
    | dsimp only
    | split

theorem callInstr_moves (c target : Nat) {M : List Part} {s0 s : State} (hw : inMask [.regs, .mem, .flt, .pwr, .seq, .links, .src, .hbm] M = true) (h0 : Moves M s0 s) : Moves M s0 (callInstr c target s) := by
  refine Moves.via (N := [.regs, .mem, .flt, .pwr, .seq, .links, .src, .hbm]) ?_ hw h0
  clear hw h0
  have hK := Moves.refl [.regs, .mem, .flt, .pwr, .seq, .links, .src, .hbm] s
  unfold callInstr
  iterate 60 all_goals first
    | with_reducible assumption
    | ((with_reducible apply programError_moves (hw := ?w)); case w => rfl)
    | ((with_reducible apply seqGoto_moves (hw := ?w)); case w => rfl)
    | ((with_reducible apply modCtx_moves (hw := ?w)); case w => rfl)
    | intro _
    | dsimp only
    | split

theorem retInstr_moves (c : Nat) {M : List Part} {s0 s : State} (hw : inMask [.regs, .mem, .flt, .pwr, .seq, .links, .src, .hbm] M = true) (h0 : Moves M s0 s) : Moves M s0 (retInstr c s) := by
  refine Moves.via (N := [.regs, .mem, .flt, .pwr, .seq, .links, .src, .hbm]) ?_ hw h0
  clear hw h0
  have hK := Moves.refl [.regs, .mem, .flt, .pwr, .seq, .links, .src, .hbm] s
  unfold retInstr
  iterate 60 all_goals first
    | with_reducible assumption
    | ((with_reducible apply programError_moves (hw := ?w)); case w => rfl)
    | ((with_reducible apply seqGoto_moves (hw := ?w)); case w => rfl)
    | ((with_reducible apply modCtx_moves (hw := ?w)); case w => rfl)
    | intro _
    | dsimp only
    | split

theorem jumpInstr_moves (c target : Nat) {M : List Part} {s0 s : State} (hw : inMask [.regs, .mem, .flt, .pwr, .seq, .links, .src, .hbm] M = true) (h0 : Moves M s0 s) : Moves M s0 (jumpInstr c target s) := by
  refine Moves.via (N := [.regs, .mem, .flt, .pwr, .seq, .links, .src, .hbm]) ?_ hw h0
  clear hw h0
  have hK := Moves.refl [.regs, .mem, .flt, .pwr, .seq, .links, .src, .hbm] s
  unfold jumpInstr
  iterate 60 all_goals first
    | with_reducible assumption
    | ((with_reducible apply programError_moves (hw := ?w)); case w => rfl)
    | ((with_reducible apply seqGoto_moves (hw := ?w)); case w => rfl)
    | intro _
    | dsimp only
    | split

theorem jumpcInstr_moves (c w : Nat) {M : List Part} {s0 s : State} (hw : inMask [.regs, .mem, .flt, .pwr, .seq, .links, .src, .hbm] M = true) (h0 : Moves M s0 s) : Moves M s0 (jumpcInstr c w s) := by
  refine Moves.via (N := [.regs, .mem, .flt, .pwr, .seq, .links, .src, .hbm]) ?_ hw h0
  clear hw h0
  have hK := Moves.refl [.regs, .mem, .flt, .pwr, .seq, .links, .src, .hbm] s
  unfold jumpcInstr
  iterate 60 all_goals first
    | with_reducible assumption
    | ((with_reducible apply programError_moves (hw := ?w)); case w => rfl)
    | ((with_reducible apply seqNext_moves (hw := ?w)); case w => rfl)
    | ((with_reducible apply modCtx_moves (hw := ?w)); case w => rfl)
    | intro _
    | dsimp only
    | split

theorem tsetInstr_moves (c set : Nat) {M : List Part} {s0 s : State} (hw : inMask [.regs, .mem, .flt, .pwr, .seq, .links, .src, .hbm] M = true) (h0 : Moves M s0 s) : Moves M s0 (tsetInstr c set s) := by
  refine Moves.via (N := [.regs, .mem, .flt, .pwr, .seq, .links, .src, .hbm]) ?_ hw h0
  clear hw h0
  have hK := Moves.refl [.regs, .mem, .flt, .pwr, .seq, .links, .src, .hbm] s
  unfold tsetInstr
  iterate 60 all_goals first
    | with_reducible assumption
    | ((with_reducible apply programError_moves (hw := ?w)); case w => rfl)
    | ((with_reducible apply seqNext_moves (hw := ?w)); case w => rfl)
    | ((with_reducible apply setInStream_moves (hw := ?w)); case w => rfl)
    | with_reducible apply Moves.foldl
    | intro _
    | dsimp only
    | split

theorem signalInstr_moves (c w : Nat) {M : List Part} {s0 s : State} (hw : inMask [.regs, .seq] M = true) (h0 : Moves M s0 s) : Moves M s0 (signalInstr c w s) := by
  refine Moves.via (N := [.regs, .seq]) ?_ hw h0
  clear hw h0
  have hK := Moves.refl [.regs, .seq] s
  unfold signalInstr
  iterate 60 all_goals first
    | with_reducible assumption
    | ((with_reducible apply seqNext_moves (hw := ?w)); case w => rfl)
    | ((with_reducible apply modCtx_moves (hw := ?w)); case w => rfl)
    | intro _
    | dsimp only
    | split

theorem requestList_moves (c n : Nat) (ids : List Nat) {M : List Part} {s0 s : State} (hw : inMask [.regs, .mem, .seq, .lib, .hbm] M = true) (h0 : Moves M s0 s) : Moves M s0 (requestList c n ids s) := by
  refine Moves.via (N := [.regs, .mem, .seq, .lib, .hbm]) ?_ hw h0
  clear hw h0
  have hK := Moves.refl [.regs, .mem, .seq, .lib, .hbm] s
  unfold requestList
  iterate 60 all_goals first
    | with_reducible assumption
    | ((with_reducible apply requestStage_moves (hw := ?w)); case w => rfl)
    | ((with_reducible apply stageDone_moves (hw := ?w)); case w => rfl)
    | ((with_reducible apply modCtx_moves (hw := ?w)); case w => rfl)
    | with_reducible apply Moves.foldl
    | intro _
    | dsimp only
    | split

theorem stageInstr_moves (c n : Nat) {M : List Part} {s0 s : State} (hw : inMask [.regs, .mem, .flt, .pwr, .seq, .links, .lib, .src, .hbm] M = true) (h0 : Moves M s0 s) : Moves M s0 (stageInstr c n s) := by
  refine Moves.via (N := [.regs, .mem, .flt, .pwr, .seq, .links, .lib, .src, .hbm]) ?_ hw h0
  clear hw h0
  have hK := Moves.refl [.regs, .mem, .flt, .pwr, .seq, .links, .lib, .src, .hbm] s
  unfold stageInstr
  iterate 60 all_goals first
    | with_reducible assumption
    | ((with_reducible apply programError_moves (hw := ?w)); case w => rfl)
    | ((with_reducible apply seqNext_moves (hw := ?w)); case w => rfl)
    | ((with_reducible apply requestList_moves (hw := ?w)); case w => rfl)
    | intro _
    | dsimp only
    | split

theorem siteMaskInstr_moves (c w : Nat) {M : List Part} {s0 s : State} (hw : inMask [.regs, .seq] M = true) (h0 : Moves M s0 s) : Moves M s0 (siteMaskInstr c w s) := by
  refine Moves.via (N := [.regs, .seq]) ?_ hw h0
  clear hw h0
  have hK := Moves.refl [.regs, .seq] s
  unfold siteMaskInstr
  iterate 60 all_goals first
    | with_reducible assumption
    | ((with_reducible apply seqNext_moves (hw := ?w)); case w => rfl)
    | ((with_reducible apply modCtx_moves (hw := ?w)); case w => rfl)
    | intro _
    | dsimp only
    | split

theorem endPart_moves (c : Nat) (st : CtxState) {M : List Part} {s0 s : State} (hw : inMask [.regs, .seq] M = true) (h0 : Moves M s0 s) : Moves M s0 (endPart c st s) := by
  refine Moves.via (N := [.regs, .seq]) ?_ hw h0
  clear hw h0
  have hK := Moves.refl [.regs, .seq] s
  unfold endPart
  iterate 60 all_goals first
    | with_reducible assumption
    | ((with_reducible apply settleEnd_moves (hw := ?w)); case w => rfl)
    | ((with_reducible apply showCtx_moves (hw := ?w)); case w => rfl)
    | ((with_reducible apply endContext_moves (hw := ?w)); case w => rfl)
    | intro _
    | dsimp only
    | split

theorem holdInstr_moves (c n : Nat) {M : List Part} {s0 s : State} (hw : inMask [.regs, .mem, .flt, .pwr, .seq, .links, .src, .hbm] M = true) (h0 : Moves M s0 s) : Moves M s0 (holdInstr c n s) := by
  refine Moves.via (N := [.regs, .mem, .flt, .pwr, .seq, .links, .src, .hbm]) ?_ hw h0
  clear hw h0
  have hK := Moves.refl [.regs, .mem, .flt, .pwr, .seq, .links, .src, .hbm] s
  unfold holdInstr
  iterate 60 all_goals first
    | with_reducible assumption
    | ((with_reducible apply programError_moves (hw := ?w)); case w => rfl)
    | ((with_reducible apply seqLog_moves (hw := ?w)); case w => rfl)
    | ((with_reducible apply endPart_moves (hw := ?w)); case w => rfl)
    | ((with_reducible apply modCtx_moves (hw := ?w)); case w => rfl)
    | intro _
    | dsimp only
    | split

theorem haltInstr_moves (c : Nat) {M : List Part} {s0 s : State} (hw : inMask [.regs, .mem, .seq, .hbm] M = true) (h0 : Moves M s0 s) : Moves M s0 (haltInstr c s) := by
  refine Moves.via (N := [.regs, .mem, .seq, .hbm]) ?_ hw h0
  clear hw h0
  have hK := Moves.refl [.regs, .mem, .seq, .hbm] s
  unfold haltInstr
  iterate 60 all_goals first
    | with_reducible assumption
    | ((with_reducible apply endPart_moves (hw := ?w)); case w => rfl)
    | ((with_reducible apply seqLog_moves (hw := ?w)); case w => rfl)
    | intro _
    | dsimp only
    | split

theorem cutSegment_moves (c : Nat) {M : List Part} {s0 s : State} (hw : inMask [.regs, .mem, .seq, .hbm] M = true) (h0 : Moves M s0 s) : Moves M s0 (cutSegment c s) := by
  refine Moves.via (N := [.regs, .mem, .seq, .hbm]) ?_ hw h0
  clear hw h0
  have hK := Moves.refl [.regs, .mem, .seq, .hbm] s
  unfold cutSegment
  iterate 60 all_goals first
    | with_reducible assumption
    | ((with_reducible apply seqLog_moves (hw := ?w)); case w => rfl)
    | intro _
    | dsimp only
    | split

theorem jumpEffect_moves (c : Nat) {M : List Part} {s0 s : State} (hw : inMask [.regs, .mem, .seq, .hbm] M = true) (h0 : Moves M s0 s) : Moves M s0 (jumpEffect c s) := by
  refine Moves.via (N := [.regs, .mem, .seq, .hbm]) ?_ hw h0
  clear hw h0
  have hK := Moves.refl [.regs, .mem, .seq, .hbm] s
  unfold jumpEffect
  iterate 60 all_goals first
    | with_reducible assumption
    | ((with_reducible apply cutSegment_moves (hw := ?w)); case w => rfl)
    | ((with_reducible apply seqLog_moves (hw := ?w)); case w => rfl)
    | ((with_reducible apply incWrap_moves (hw := ?w)); case w => rfl)
    | ((with_reducible apply showCtx_moves (hw := ?w)); case w => rfl)
    | ((with_reducible apply writeCheckpoint_moves (hw := ?w)); case w => rfl)
    | ((with_reducible apply modCtx_moves (hw := ?w)); case w => rfl)
    | intro _
    | dsimp only
    | split

theorem leaveWith_moves (t c arg0 arg1 : Nat) {M : List Part} {s0 s : State} (hw : inMask [.regs, .mem, .seq, .hbm] M = true) (h0 : Moves M s0 s) : Moves M s0 (leaveWith t c arg0 arg1 s) := by
  refine Moves.via (N := [.regs, .mem, .seq, .hbm]) ?_ hw h0
  clear hw h0
  have hK := Moves.refl [.regs, .mem, .seq, .hbm] s
  unfold leaveWith
  iterate 60 all_goals first
    | with_reducible assumption
    | ((with_reducible apply showCtx_moves (hw := ?w)); case w => rfl)
    | ((with_reducible apply nextInstr_moves (hw := ?w)); case w => rfl)
    | ((with_reducible apply modCtx_moves (hw := ?w)); case w => rfl)
    | ((with_reducible apply seqLog_moves (hw := ?w)); case w => rfl)
    | intro _
    | dsimp only
    | split

theorem matchLeave_moves (c : Nat) {M : List Part} {s0 s : State} (hw : inMask [.regs, .mem, .seq, .hbm] M = true) (h0 : Moves M s0 s) : Moves M s0 (matchLeave c s) := by
  refine Moves.via (N := [.regs, .mem, .seq, .hbm]) ?_ hw h0
  clear hw h0
  have hK := Moves.refl [.regs, .mem, .seq, .hbm] s
  unfold matchLeave
  iterate 60 all_goals first
    | with_reducible assumption
    | ((with_reducible apply leaveWith_moves (hw := ?w)); case w => rfl)
    | ((with_reducible apply setBit_moves (hw := ?w)); case w => rfl)
    | ((with_reducible apply haltInstr_moves (hw := ?w)); case w => rfl)
    | ((with_reducible apply seqLog_moves (hw := ?w)); case w => rfl)
    | intro _
    | dsimp only
    | split

theorem waittRelease_moves (c : Nat) {M : List Part} {s0 s : State} (hw : inMask [.regs, .mem, .seq, .hbm] M = true) (h0 : Moves M s0 s) : Moves M s0 (waittRelease c s) := by
  refine Moves.via (N := [.regs, .mem, .seq, .hbm]) ?_ hw h0
  clear hw h0
  have hK := Moves.refl [.regs, .mem, .seq, .hbm] s
  unfold waittRelease
  iterate 60 all_goals first
    | with_reducible assumption
    | ((with_reducible apply showCtx_moves (hw := ?w)); case w => rfl)
    | ((with_reducible apply nextInstr_moves (hw := ?w)); case w => rfl)
    | ((with_reducible apply leaveWith_moves (hw := ?w)); case w => rfl)
    | intro _
    | dsimp only
    | split

theorem waittTimeout_moves (c : Nat) {M : List Part} {s0 s : State} (hw : inMask [.regs, .mem, .seq, .hbm] M = true) (h0 : Moves M s0 s) : Moves M s0 (waittTimeout c s) := by
  refine Moves.via (N := [.regs, .mem, .seq, .hbm]) ?_ hw h0
  clear hw h0
  have hK := Moves.refl [.regs, .mem, .seq, .hbm] s
  unfold waittTimeout
  iterate 60 all_goals first
    | with_reducible assumption
    | ((with_reducible apply setBit_moves (hw := ?w)); case w => rfl)
    | ((with_reducible apply haltInstr_moves (hw := ?w)); case w => rfl)
    | ((with_reducible apply seqLog_moves (hw := ?w)); case w => rfl)
    | ((with_reducible apply leaveWith_moves (hw := ?w)); case w => rfl)
    | intro _
    | dsimp only
    | split

theorem waittimeEnd_moves (c : Nat) {M : List Part} {s0 s : State} (hw : inMask [.regs, .seq] M = true) (h0 : Moves M s0 s) : Moves M s0 (waittimeEnd c s) := by
  refine Moves.via (N := [.regs, .seq]) ?_ hw h0
  clear hw h0
  have hK := Moves.refl [.regs, .seq] s
  unfold waittimeEnd
  iterate 60 all_goals first
    | with_reducible assumption
    | ((with_reducible apply showCtx_moves (hw := ?w)); case w => rfl)
    | ((with_reducible apply nextInstr_moves (hw := ?w)); case w => rfl)
    | intro _
    | dsimp only
    | split

theorem residencyHoldEnd_moves (c : Nat) {M : List Part} {s0 s : State} (hw : inMask [.regs, .mem, .seq, .hbm] M = true) (h0 : Moves M s0 s) : Moves M s0 (residencyHoldEnd c s) := by
  refine Moves.via (N := [.regs, .mem, .seq, .hbm]) ?_ hw h0
  clear hw h0
  have hK := Moves.refl [.regs, .mem, .seq, .hbm] s
  unfold residencyHoldEnd
  iterate 60 all_goals first
    | with_reducible assumption
    | ((with_reducible apply holdTo_moves (hw := ?w)); case w => rfl)
    | ((with_reducible apply seqNext_moves (hw := ?w)); case w => rfl)
    | ((with_reducible apply pushLoop_moves (hw := ?w)); case w => rfl)
    | ((with_reducible apply seqLog_moves (hw := ?w)); case w => rfl)
    | intro _
    | dsimp only
    | split

theorem execSeqPlay_moves (c : Fin 64) {s s' : State} (h : execSeqPlay c s = .next s') : Moves [.regs, .mem, .flt, .pwr, .seq, .links, .lib, .src, .hbm] s s' := by
  unfold execSeqPlay at h
  have hK := Moves.refl [.regs, .mem, .flt, .pwr, .seq, .links, .lib, .src, .hbm] s
  all_goals injection h with h
  all_goals subst h
  iterate 60 all_goals first
    | with_reducible assumption
    | ((with_reducible apply seqStep_moves (hw := ?w)); case w => rfl)
    | ((with_reducible apply playSeg_moves (hw := ?w)); case w => rfl)
    | intro _
    | dsimp only
    | split

theorem execSeqPlayn_moves (c : Fin 64) {s s' : State} (h : execSeqPlayn c s = .next s') : Moves [.regs, .mem, .flt, .pwr, .seq, .links, .lib, .src, .hbm] s s' := by
  unfold execSeqPlayn at h
  have hK := Moves.refl [.regs, .mem, .flt, .pwr, .seq, .links, .lib, .src, .hbm] s
  all_goals injection h with h
  all_goals subst h
  iterate 60 all_goals first
    | with_reducible assumption
    | ((with_reducible apply seqStep_moves (hw := ?w)); case w => rfl)
    | ((with_reducible apply playSeg_moves (hw := ?w)); case w => rfl)
    | intro _
    | dsimp only
    | split

theorem execSeqLoop_moves (c : Fin 64) {s s' : State} (h : execSeqLoop c s = .next s') : Moves [.regs, .mem, .flt, .pwr, .seq, .links, .lib, .src, .hbm] s s' := by
  unfold execSeqLoop at h
  have hK := Moves.refl [.regs, .mem, .flt, .pwr, .seq, .links, .lib, .src, .hbm] s
  all_goals injection h with h
  all_goals subst h
  iterate 60 all_goals first
    | with_reducible assumption
    | ((with_reducible apply seqStep_moves (hw := ?w)); case w => rfl)
    | ((with_reducible apply loopInstr_moves (hw := ?w)); case w => rfl)
    | intro _
    | dsimp only
    | split

theorem execSeqEndloop_moves (c : Fin 64) {s s' : State} (h : execSeqEndloop c s = .next s') : Moves [.regs, .mem, .flt, .pwr, .seq, .links, .src, .hbm] s s' := by
  unfold execSeqEndloop at h
  have hK := Moves.refl [.regs, .mem, .flt, .pwr, .seq, .links, .src, .hbm] s
  all_goals injection h with h
  all_goals subst h
  iterate 60 all_goals first
    | with_reducible assumption
    | ((with_reducible apply seqStep_moves (hw := ?w)); case w => rfl)
    | ((with_reducible apply endLoop_moves (hw := ?w)); case w => rfl)
    | intro _
    | dsimp only
    | split

theorem execSeqCall_moves (c : Fin 64) {s s' : State} (h : execSeqCall c s = .next s') : Moves [.regs, .mem, .flt, .pwr, .seq, .links, .src, .hbm] s s' := by
  unfold execSeqCall at h
  have hK := Moves.refl [.regs, .mem, .flt, .pwr, .seq, .links, .src, .hbm] s
  all_goals injection h with h
  all_goals subst h
  iterate 60 all_goals first
    | with_reducible assumption
    | ((with_reducible apply seqStep_moves (hw := ?w)); case w => rfl)
    | ((with_reducible apply callInstr_moves (hw := ?w)); case w => rfl)
    | intro _
    | dsimp only
    | split

theorem execSeqRet_moves (c : Fin 64) {s s' : State} (h : execSeqRet c s = .next s') : Moves [.regs, .mem, .flt, .pwr, .seq, .links, .src, .hbm] s s' := by
  unfold execSeqRet at h
  have hK := Moves.refl [.regs, .mem, .flt, .pwr, .seq, .links, .src, .hbm] s
  all_goals injection h with h
  all_goals subst h
  iterate 60 all_goals first
    | with_reducible assumption
    | ((with_reducible apply seqStep_moves (hw := ?w)); case w => rfl)
    | ((with_reducible apply retInstr_moves (hw := ?w)); case w => rfl)
    | intro _
    | dsimp only
    | split

theorem execSeqJump_moves (c : Fin 64) {s s' : State} (h : execSeqJump c s = .next s') : Moves [.regs, .mem, .flt, .pwr, .seq, .links, .src, .hbm] s s' := by
  unfold execSeqJump at h
  have hK := Moves.refl [.regs, .mem, .flt, .pwr, .seq, .links, .src, .hbm] s
  all_goals injection h with h
  all_goals subst h
  iterate 60 all_goals first
    | with_reducible assumption
    | ((with_reducible apply seqStep_moves (hw := ?w)); case w => rfl)
    | ((with_reducible apply jumpInstr_moves (hw := ?w)); case w => rfl)
    | intro _
    | dsimp only
    | split

theorem execSeqJumpc_moves (c : Fin 64) {s s' : State} (h : execSeqJumpc c s = .next s') : Moves [.regs, .mem, .flt, .pwr, .seq, .links, .src, .hbm] s s' := by
  unfold execSeqJumpc at h
  have hK := Moves.refl [.regs, .mem, .flt, .pwr, .seq, .links, .src, .hbm] s
  all_goals injection h with h
  all_goals subst h
  iterate 60 all_goals first
    | with_reducible assumption
    | ((with_reducible apply seqStep_moves (hw := ?w)); case w => rfl)
    | ((with_reducible apply jumpcInstr_moves (hw := ?w)); case w => rfl)
    | intro _
    | dsimp only
    | split

theorem execSeqMatch_moves (c : Fin 64) {s s' : State} (h : execSeqMatch c s = .next s') : Moves [.regs, .mem, .flt, .pwr, .seq, .links, .lib, .src, .hbm] s s' := by
  unfold execSeqMatch at h
  have hK := Moves.refl [.regs, .mem, .flt, .pwr, .seq, .links, .lib, .src, .hbm] s
  all_goals injection h with h
  all_goals subst h
  iterate 60 all_goals first
    | with_reducible assumption
    | ((with_reducible apply seqStep_moves (hw := ?w)); case w => rfl)
    | ((with_reducible apply matchSeg_moves (hw := ?w)); case w => rfl)
    | intro _
    | dsimp only
    | split

theorem execSeqWaitt_moves (c : Fin 64) {s s' : State} (h : execSeqWaitt c s = .next s') : Moves [.regs, .mem, .flt, .pwr, .seq, .links, .src, .hbm] s s' := by
  unfold execSeqWaitt at h
  have hK := Moves.refl [.regs, .mem, .flt, .pwr, .seq, .links, .src, .hbm] s
  all_goals injection h with h
  all_goals subst h
  iterate 60 all_goals first
    | with_reducible assumption
    | ((with_reducible apply seqStep_moves (hw := ?w)); case w => rfl)
    | ((with_reducible apply begin__moves (hw := ?w)); case w => rfl)
    | intro _
    | dsimp only
    | split

theorem execSeqWaittime_moves (c : Fin 64) {s s' : State} (h : execSeqWaittime c s = .next s') : Moves [.regs, .mem, .flt, .pwr, .seq, .links, .src, .hbm] s s' := by
  unfold execSeqWaittime at h
  have hK := Moves.refl [.regs, .mem, .flt, .pwr, .seq, .links, .src, .hbm] s
  all_goals injection h with h
  all_goals subst h
  iterate 60 all_goals first
    | with_reducible assumption
    | ((with_reducible apply seqStep_moves (hw := ?w)); case w => rfl)
    | ((with_reducible apply programError_moves (hw := ?w)); case w => rfl)
    | ((with_reducible apply begin__moves (hw := ?w)); case w => rfl)
    | intro _
    | dsimp only
    | split

theorem execSeqTset_moves (c : Fin 64) {s s' : State} (h : execSeqTset c s = .next s') : Moves [.regs, .mem, .flt, .pwr, .seq, .links, .src, .hbm] s s' := by
  unfold execSeqTset at h
  have hK := Moves.refl [.regs, .mem, .flt, .pwr, .seq, .links, .src, .hbm] s
  all_goals injection h with h
  all_goals subst h
  iterate 60 all_goals first
    | with_reducible assumption
    | ((with_reducible apply seqStep_moves (hw := ?w)); case w => rfl)
    | ((with_reducible apply tsetInstr_moves (hw := ?w)); case w => rfl)
    | intro _
    | dsimp only
    | split

theorem execSeqSignal_moves (c : Fin 64) {s s' : State} (h : execSeqSignal c s = .next s') : Moves [.regs, .mem, .flt, .pwr, .seq, .links, .src, .hbm] s s' := by
  unfold execSeqSignal at h
  have hK := Moves.refl [.regs, .mem, .flt, .pwr, .seq, .links, .src, .hbm] s
  all_goals injection h with h
  all_goals subst h
  iterate 60 all_goals first
    | with_reducible assumption
    | ((with_reducible apply seqStep_moves (hw := ?w)); case w => rfl)
    | ((with_reducible apply signalInstr_moves (hw := ?w)); case w => rfl)
    | intro _
    | dsimp only
    | split

theorem execSeqStage_moves (c : Fin 64) {s s' : State} (h : execSeqStage c s = .next s') : Moves [.regs, .mem, .flt, .pwr, .seq, .links, .lib, .src, .hbm] s s' := by
  unfold execSeqStage at h
  have hK := Moves.refl [.regs, .mem, .flt, .pwr, .seq, .links, .lib, .src, .hbm] s
  all_goals injection h with h
  all_goals subst h
  iterate 60 all_goals first
    | with_reducible assumption
    | ((with_reducible apply seqStep_moves (hw := ?w)); case w => rfl)
    | ((with_reducible apply stageInstr_moves (hw := ?w)); case w => rfl)
    | intro _
    | dsimp only
    | split

theorem execSeqSitemask_moves (c : Fin 64) {s s' : State} (h : execSeqSitemask c s = .next s') : Moves [.regs, .mem, .flt, .pwr, .seq, .links, .src, .hbm] s s' := by
  unfold execSeqSitemask at h
  have hK := Moves.refl [.regs, .mem, .flt, .pwr, .seq, .links, .src, .hbm] s
  all_goals injection h with h
  all_goals subst h
  iterate 60 all_goals first
    | with_reducible assumption
    | ((with_reducible apply seqStep_moves (hw := ?w)); case w => rfl)
    | ((with_reducible apply siteMaskInstr_moves (hw := ?w)); case w => rfl)
    | intro _
    | dsimp only
    | split

theorem execSeqHold_moves (c : Fin 64) {s s' : State} (h : execSeqHold c s = .next s') : Moves [.regs, .mem, .flt, .pwr, .seq, .links, .src, .hbm] s s' := by
  unfold execSeqHold at h
  have hK := Moves.refl [.regs, .mem, .flt, .pwr, .seq, .links, .src, .hbm] s
  all_goals injection h with h
  all_goals subst h
  iterate 60 all_goals first
    | with_reducible assumption
    | ((with_reducible apply seqStep_moves (hw := ?w)); case w => rfl)
    | ((with_reducible apply holdInstr_moves (hw := ?w)); case w => rfl)
    | intro _
    | dsimp only
    | split

theorem execSeqHalt_moves (c : Fin 64) {s s' : State} (h : execSeqHalt c s = .next s') : Moves [.regs, .mem, .flt, .pwr, .seq, .links, .src, .hbm] s s' := by
  unfold execSeqHalt at h
  have hK := Moves.refl [.regs, .mem, .flt, .pwr, .seq, .links, .src, .hbm] s
  all_goals injection h with h
  all_goals subst h
  iterate 60 all_goals first
    | with_reducible assumption
    | ((with_reducible apply seqStep_moves (hw := ?w)); case w => rfl)
    | ((with_reducible apply haltInstr_moves (hw := ?w)); case w => rfl)
    | intro _
    | dsimp only
    | split

theorem execJumpEffect_moves (c : Fin 64) {s s' : State} (h : execJumpEffect c s = .next s') : Moves [.regs, .mem, .seq, .hbm] s s' := by
  unfold execJumpEffect at h
  have hK := Moves.refl [.regs, .mem, .seq, .hbm] s
  all_goals injection h with h
  all_goals subst h
  iterate 60 all_goals first
    | with_reducible assumption
    | ((with_reducible apply jumpEffect_moves (hw := ?w)); case w => rfl)
    | intro _
    | dsimp only
    | split

theorem execMatchLeave_moves (c : Fin 64) {s s' : State} (h : execMatchLeave c s = .next s') : Moves [.regs, .mem, .seq, .hbm] s s' := by
  unfold execMatchLeave at h
  have hK := Moves.refl [.regs, .mem, .seq, .hbm] s
  all_goals injection h with h
  all_goals subst h
  iterate 60 all_goals first
    | with_reducible assumption
    | ((with_reducible apply matchLeave_moves (hw := ?w)); case w => rfl)
    | intro _
    | dsimp only
    | split

theorem execWaittRelease_moves (c : Fin 64) {s s' : State} (h : execWaittRelease c s = .next s') : Moves [.regs, .mem, .seq, .hbm] s s' := by
  unfold execWaittRelease at h
  have hK := Moves.refl [.regs, .mem, .seq, .hbm] s
  all_goals injection h with h
  all_goals subst h
  iterate 60 all_goals first
    | with_reducible assumption
    | ((with_reducible apply waittRelease_moves (hw := ?w)); case w => rfl)
    | intro _
    | dsimp only
    | split

theorem execWaittTimeout_moves (c : Fin 64) {s s' : State} (h : execWaittTimeout c s = .next s') : Moves [.regs, .mem, .seq, .hbm] s s' := by
  unfold execWaittTimeout at h
  have hK := Moves.refl [.regs, .mem, .seq, .hbm] s
  all_goals injection h with h
  all_goals subst h
  iterate 60 all_goals first
    | with_reducible assumption
    | ((with_reducible apply waittTimeout_moves (hw := ?w)); case w => rfl)
    | intro _
    | dsimp only
    | split

theorem execWaittimeEnd_moves (c : Fin 64) {s s' : State} (h : execWaittimeEnd c s = .next s') : Moves [.regs, .seq] s s' := by
  unfold execWaittimeEnd at h
  have hK := Moves.refl [.regs, .seq] s
  all_goals injection h with h
  all_goals subst h
  iterate 60 all_goals first
    | with_reducible assumption
    | ((with_reducible apply waittimeEnd_moves (hw := ?w)); case w => rfl)
    | intro _
    | dsimp only
    | split

theorem execResidencyHoldEnd_moves (c : Fin 64) {s s' : State} (h : execResidencyHoldEnd c s = .next s') : Moves [.regs, .mem, .seq, .hbm] s s' := by
  unfold execResidencyHoldEnd at h
  have hK := Moves.refl [.regs, .mem, .seq, .hbm] s
  all_goals injection h with h
  all_goals subst h
  iterate 60 all_goals first
    | with_reducible assumption
    | ((with_reducible apply residencyHoldEnd_moves (hw := ?w)); case w => rfl)
    | intro _
    | dsimp only
    | split

end Sys2Proof.Laws
end

