-- ==== Sys2Proof/Laws/MovesMicro.lean ====
section
/-! SUPPORT. What the operations of Machine/Micro.lean may change of the state, and that they keep what no operation breaks. -/

namespace Sys2Proof.Laws

open Sys2Proof Sys2Proof.Machine

theorem modMicro_moves (c : Nat) (f : Micro → Micro) {M : List Part} {s0 s : State} (hw : inMask [.seq] M = true) (h0 : Moves M s0 s) : Moves M s0 (modMicro c f s) := by
  refine Moves.via (N := [.seq]) ?_ hw h0
  clear hw h0
  have hK := Moves.refl [.seq] s
  unfold modMicro
  iterate 60 all_goals first
    | with_reducible assumption
    | intro _
    | dsimp only
    | split
    | ((with_reducible apply Moves.update) <;> first | (with_reducible exact Or.inl rfl) | exact Or.inr (by decide) | skip)

theorem orFree_moves (n : Nat) (v : Option Nat) {M : List Part} {s0 s : State} (hw : inMask [.freeIdx] M = true) (h0 : Moves M s0 s) : Moves M s0 (orFree n v s).2 := by
  refine Moves.via (N := [.freeIdx]) ?_ hw h0
  clear hw h0
  have hK := Moves.refl [.freeIdx] s
  unfold orFree
  iterate 60 all_goals first
    | with_reducible assumption
    | ((with_reducible apply freeNat_movesE (hE := by assumption) (hw := ?w)); case w => rfl)
    | ((with_reducible apply freeNat_moves (hw := ?w)); case w => rfl)
    | intro _
    | dsimp only
    | split
theorem orFree_movesE {n : Nat} {v : Option Nat} {w0} {M : List Part} {s0 s s' : State} (hE : orFree n v s = (w0, s')) (hw : inMask [.freeIdx] M = true) (h0 : Moves M s0 s) : Moves M s0 s' := by
  have k := orFree_moves (hw := hw) (h0 := h0) (n := n) (v := v)
  rw [hE] at k
  exact k

theorem aluWord_moves (c w : Nat) {M : List Part} {s0 s : State} (hw : inMask [.freeIdx, .seq] M = true) (h0 : Moves M s0 s) : Moves M s0 (aluWord c w s) := by
  refine Moves.via (N := [.freeIdx, .seq]) ?_ hw h0
  clear hw h0
  have hK := Moves.refl [.freeIdx, .seq] s
  unfold aluWord
  iterate 60 all_goals first
    | with_reducible assumption
    | ((with_reducible apply orFree_movesE (hE := by assumption) (hw := ?w)); case w => rfl)
    | ((with_reducible apply orFree_moves (hw := ?w)); case w => rfl)
    | ((with_reducible apply modMicro_moves (hw := ?w)); case w => rfl)
    | intro _
    | dsimp only
    | split

theorem writeField_moves (c n v : Nat) {M : List Part} {s0 s : State} (hw : inMask [.regs, .seq] M = true) (h0 : Moves M s0 s) : Moves M s0 (writeField c n v s) := by
  refine Moves.via (N := [.regs, .seq]) ?_ hw h0
  clear hw h0
  have hK := Moves.refl [.regs, .seq] s
  unfold writeField
  iterate 60 all_goals first
    | with_reducible assumption
    | ((with_reducible apply setRegN_moves (hw := ?w)); case w => rfl)
    | ((with_reducible apply modCtx_moves (hw := ?w)); case w => rfl)
    | intro _
    | dsimp only
    | split

theorem moveWord_moves (c w : Nat) {M : List Part} {s0 s : State} (hw : inMask [.regs, .seq] M = true) (h0 : Moves M s0 s) : Moves M s0 (moveWord c w s) := by
  refine Moves.via (N := [.regs, .seq]) ?_ hw h0
  clear hw h0
  have hK := Moves.refl [.regs, .seq] s
  unfold moveWord
  iterate 60 all_goals first
    | with_reducible assumption
    | ((with_reducible apply modMicro_moves (hw := ?w)); case w => rfl)
    | ((with_reducible apply writeField_moves (hw := ?w)); case w => rfl)
    | intro _
    | dsimp only
    | split

theorem branchWord_moves (c w : Nat) {M : List Part} {s0 s : State} (hw : inMask [.seq] M = true) (h0 : Moves M s0 s) : Moves M s0 (branchWord c w s) := by
  refine Moves.via (N := [.seq]) ?_ hw h0
  clear hw h0
  have hK := Moves.refl [.seq] s
  unfold branchWord
  iterate 60 all_goals first
    | with_reducible assumption
    | ((with_reducible apply modMicro_moves (hw := ?w)); case w => rfl)
    | intro _
    | dsimp only
    | split

theorem trapReturn_moves (c : Nat) {M : List Part} {s0 s : State} (hw : inMask [.regs, .seq] M = true) (h0 : Moves M s0 s) : Moves M s0 (trapReturn c s) := by
  refine Moves.via (N := [.regs, .seq]) ?_ hw h0
  clear hw h0
  have hK := Moves.refl [.regs, .seq] s
  unfold trapReturn
  iterate 60 all_goals first
    | with_reducible assumption
    | ((with_reducible apply setBit_moves (hw := ?w)); case w => rfl)
    | ((with_reducible apply modMicro_moves (hw := ?w)); case w => rfl)
    | with_reducible apply Moves.foldl
    | intro _
    | dsimp only
    | split

theorem emitRange_moves (c off n : Nat) {M : List Part} {s0 s : State} (hw : inMask [.regs, .seq] M = true) (h0 : Moves M s0 s) : Moves M s0 (emitRange c off n s) := by
  refine Moves.via (N := [.regs, .seq]) ?_ hw h0
  clear hw h0
  have hK := Moves.refl [.regs, .seq] s
  unfold emitRange
  iterate 60 all_goals first
    | with_reducible assumption
    | ((with_reducible apply showCtx_moves (hw := ?w)); case w => rfl)
    | ((with_reducible apply emitRun_moves (hw := ?w)); case w => rfl)
    | intro _
    | dsimp only
    | split

theorem emitHold_moves (c n : Nat) {M : List Part} {s0 s : State} (hw : inMask [.regs, .seq] M = true) (h0 : Moves M s0 s) : Moves M s0 (emitHold c n s) := by
  refine Moves.via (N := [.regs, .seq]) ?_ hw h0
  clear hw h0
  have hK := Moves.refl [.regs, .seq] s
  unfold emitHold
  iterate 60 all_goals first
    | with_reducible assumption
    | ((with_reducible apply showCtx_moves (hw := ?w)); case w => rfl)
    | ((with_reducible apply emitRun_moves (hw := ?w)); case w => rfl)
    | intro _
    | dsimp only
    | split

theorem emitCtrl_moves (c e : Nat) {M : List Part} {s0 s : State} (hw : inMask [.links] M = true) (h0 : Moves M s0 s) : Moves M s0 (emitCtrl c e s) := by
  refine Moves.via (N := [.links]) ?_ hw h0
  clear hw h0
  have hK := Moves.refl [.links] s
  unfold emitCtrl
  iterate 60 all_goals first
    | with_reducible assumption
    | ((with_reducible apply modLink_moves (hw := ?w)); case w => rfl)
    | with_reducible apply Moves.foldl
    | intro _
    | dsimp only
    | split

theorem checkList_moves (c n : Nat) {M : List Part} {s0 s : State} (hw : inMask [.regs, .mem, .flt, .pwr, .seq, .links, .src, .hbm] M = true) (h0 : Moves M s0 s) : Moves M s0 (checkList c n s) := by
  refine Moves.via (N := [.regs, .mem, .flt, .pwr, .seq, .links, .src, .hbm]) ?_ hw h0
  clear hw h0
  have hK := Moves.refl [.regs, .mem, .flt, .pwr, .seq, .links, .src, .hbm] s
  unfold checkList
  iterate 60 all_goals first
    | with_reducible assumption
    | ((with_reducible apply programError_moves (hw := ?w)); case w => rfl)
    | ((with_reducible apply modMicro_moves (hw := ?w)); case w => rfl)
    | intro _
    | dsimp only
    | split

theorem stageWord_moves (c n : Nat) {M : List Part} {s0 s : State} (hw : inMask [.regs, .mem, .flt, .pwr, .seq, .links, .lib, .src, .hbm] M = true) (h0 : Moves M s0 s) : Moves M s0 (stageWord c n s) := by
  refine Moves.via (N := [.regs, .mem, .flt, .pwr, .seq, .links, .lib, .src, .hbm]) ?_ hw h0
  clear hw h0
  have hK := Moves.refl [.regs, .mem, .flt, .pwr, .seq, .links, .lib, .src, .hbm] s
  unfold stageWord
  iterate 60 all_goals first
    | with_reducible assumption
    | ((with_reducible apply programError_moves (hw := ?w)); case w => rfl)
    | ((with_reducible apply modMicro_moves (hw := ?w)); case w => rfl)
    | ((with_reducible apply requestList_moves (hw := ?w)); case w => rfl)
    | intro _
    | dsimp only
    | split

theorem requestWord_moves (c target : Nat) {M : List Part} {s0 s : State} (hw : inMask [.regs, .mem, .seq, .hbm] M = true) (h0 : Moves M s0 s) : Moves M s0 (requestWord c target s) := by
  refine Moves.via (N := [.regs, .mem, .seq, .hbm]) ?_ hw h0
  clear hw h0
  have hK := Moves.refl [.regs, .mem, .seq, .hbm] s
  unfold requestWord
  iterate 60 all_goals first
    | with_reducible assumption
    | ((with_reducible apply makeRequest_moves (hw := ?w)); case w => rfl)
    | intro _
    | dsimp only
    | split

theorem ioWord_moves (c w : Nat) {M : List Part} {s0 s : State} (hw : inMask [.regs, .mem, .flt, .pwr, .seq, .links, .lib, .src, .hbm] M = true) (h0 : Moves M s0 s) : Moves M s0 (ioWord c w s) := by
  refine Moves.via (N := [.regs, .mem, .flt, .pwr, .seq, .links, .lib, .src, .hbm]) ?_ hw h0
  clear hw h0
  have hK := Moves.refl [.regs, .mem, .flt, .pwr, .seq, .links, .lib, .src, .hbm] s
  unfold ioWord
  iterate 60 all_goals first
    | with_reducible assumption
    | ((with_reducible apply modMicro_moves (hw := ?w)); case w => rfl)
    | ((with_reducible apply noteInstr_moves (hw := ?w)); case w => rfl)
    | ((with_reducible apply emitRange_moves (hw := ?w)); case w => rfl)
    | ((with_reducible apply emitHold_moves (hw := ?w)); case w => rfl)
    | ((with_reducible apply emitCtrl_moves (hw := ?w)); case w => rfl)
    | ((with_reducible apply modCtx_moves (hw := ?w)); case w => rfl)
    | ((with_reducible apply checkList_moves (hw := ?w)); case w => rfl)
    | ((with_reducible apply seqLog_moves (hw := ?w)); case w => rfl)
    | ((with_reducible apply requestWord_moves (hw := ?w)); case w => rfl)
    | ((with_reducible apply trapReturn_moves (hw := ?w)); case w => rfl)
    | ((with_reducible apply writeCheckpoint_moves (hw := ?w)); case w => rfl)
    | ((with_reducible apply stageWord_moves (hw := ?w)); case w => rfl)
    | intro _
    | dsimp only
    | split

theorem microword_moves (c : Nat) {M : List Part} {s0 s : State} (hw : inMask [.freeIdx, .regs, .mem, .flt, .pwr, .seq, .links, .lib, .src, .hbm] M = true) (h0 : Moves M s0 s) : Moves M s0 (microword c s) := by
  refine Moves.via (N := [.freeIdx, .regs, .mem, .flt, .pwr, .seq, .links, .lib, .src, .hbm]) ?_ hw h0
  clear hw h0
  have hK := Moves.refl [.freeIdx, .regs, .mem, .flt, .pwr, .seq, .links, .lib, .src, .hbm] s
  unfold microword
  iterate 60 all_goals first
    | with_reducible assumption
    | ((with_reducible apply programError_moves (hw := ?w)); case w => rfl)
    | ((with_reducible apply aluWord_moves (hw := ?w)); case w => rfl)
    | ((with_reducible apply moveWord_moves (hw := ?w)); case w => rfl)
    | ((with_reducible apply branchWord_moves (hw := ?w)); case w => rfl)
    | ((with_reducible apply ioWord_moves (hw := ?w)); case w => rfl)
    | ((with_reducible apply modMicro_moves (hw := ?w)); case w => rfl)
    | intro _
    | dsimp only
    | split

theorem saveMicro_moves (c k : Nat) {M : List Part} {s0 s : State} (hw : inMask [.regs] M = true) (h0 : Moves M s0 s) : Moves M s0 (saveMicro c k s) := by
  refine Moves.via (N := [.regs]) ?_ hw h0
  clear hw h0
  have hK := Moves.refl [.regs] s
  unfold saveMicro
  iterate 60 all_goals first
    | with_reducible assumption
    | ((with_reducible apply setRegs_moves (hw := ?w)); case w => rfl)
    | ((with_reducible apply setRegN_moves (hw := ?w)); case w => rfl)
    | ((with_reducible apply setBit_moves (hw := ?w)); case w => rfl)
    | ((with_reducible apply incWrap_moves (hw := ?w)); case w => rfl)
    | intro _
    | dsimp only
    | split

theorem microTrap_moves (c : Nat) {M : List Part} {s0 s : State} (hw : inMask [.regs, .seq] M = true) (h0 : Moves M s0 s) : Moves M s0 (microTrap c s) := by
  refine Moves.via (N := [.regs, .seq]) ?_ hw h0
  clear hw h0
  have hK := Moves.refl [.regs, .seq] s
  unfold microTrap
  iterate 60 all_goals first
    | with_reducible assumption
    | ((with_reducible apply modCtx_moves (hw := ?w)); case w => rfl)
    | ((with_reducible apply saveMicro_moves (hw := ?w)); case w => rfl)
    | ((with_reducible apply modMicro_moves (hw := ?w)); case w => rfl)
    | intro _
    | dsimp only
    | split

theorem dropRoutine_moves (c : Nat) {M : List Part} {s0 s : State} (hw : inMask [.regs, .seq] M = true) (h0 : Moves M s0 s) : Moves M s0 (dropRoutine c s) := by
  refine Moves.via (N := [.regs, .seq]) ?_ hw h0
  clear hw h0
  have hK := Moves.refl [.regs, .seq] s
  unfold dropRoutine
  iterate 60 all_goals first
    | with_reducible assumption
    | ((with_reducible apply modCtx_moves (hw := ?w)); case w => rfl)
    | ((with_reducible apply setBit_moves (hw := ?w)); case w => rfl)
    | ((with_reducible apply modMicro_moves (hw := ?w)); case w => rfl)
    | intro _
    | dsimp only
    | split

theorem haltContext_moves (c : Nat) {M : List Part} {s0 s : State} (hw : inMask [.regs, .seq] M = true) (h0 : Moves M s0 s) : Moves M s0 (haltContext c s) := by
  refine Moves.via (N := [.regs, .seq]) ?_ hw h0
  clear hw h0
  have hK := Moves.refl [.regs, .seq] s
  unfold haltContext
  iterate 60 all_goals first
    | with_reducible assumption
    | ((with_reducible apply modCtx_moves (hw := ?w)); case w => rfl)
    | ((with_reducible apply dropRoutine_moves (hw := ?w)); case w => rfl)
    | ((with_reducible apply saveMicro_moves (hw := ?w)); case w => rfl)
    | ((with_reducible apply modMicro_moves (hw := ?w)); case w => rfl)
    | intro _
    | dsimp only
    | split

theorem unhaltContext_moves (c : Nat) {M : List Part} {s0 s : State} (hw : inMask [.regs, .seq] M = true) (h0 : Moves M s0 s) : Moves M s0 (unhaltContext c s) := by
  refine Moves.via (N := [.regs, .seq]) ?_ hw h0
  clear hw h0
  have hK := Moves.refl [.regs, .seq] s
  unfold unhaltContext
  iterate 60 all_goals first
    | with_reducible assumption
    | ((with_reducible apply modCtx_moves (hw := ?w)); case w => rfl)
    | ((with_reducible apply trapReturn_moves (hw := ?w)); case w => rfl)
    | intro _
    | dsimp only
    | split

theorem contextFault_moves (c : Nat) (correctable : Bool) {M : List Part} {s0 s : State} (hw : inMask [.regs, .flt, .img, .seq] M = true) (h0 : Moves M s0 s) : Moves M s0 (contextFault c correctable s) := by
  refine Moves.via (N := [.regs, .flt, .img, .seq]) ?_ hw h0
  clear hw h0
  have hK := Moves.refl [.regs, .flt, .img, .seq] s
  unfold contextFault
  iterate 60 all_goals first
    | with_reducible assumption
    | ((with_reducible apply raise_moves (hw := ?w)); case w => rfl)
    | ((with_reducible apply settleEnd_moves (hw := ?w)); case w => rfl)
    | ((with_reducible apply showCtx_moves (hw := ?w)); case w => rfl)
    | ((with_reducible apply endContext_moves (hw := ?w)); case w => rfl)
    | ((with_reducible apply modCtx_moves (hw := ?w)); case w => rfl)
    | ((with_reducible apply fenceUnit_moves (hw := ?w)); case w => rfl)
    | ((with_reducible apply useSpare_moves (hw := ?w)); case w => rfl)
    | intro _
    | dsimp only
    | split
    | ((with_reducible apply Moves.update) <;> first | (with_reducible exact Or.inl rfl) | exact Or.inr (by decide) | skip)

theorem contextTakenOver_moves (c : Nat) {M : List Part} {s0 s : State} (hw : inMask [.regs, .mem, .seq, .hbm] M = true) (h0 : Moves M s0 s) : Moves M s0 (contextTakenOver c s) := by
  refine Moves.via (N := [.regs, .mem, .seq, .hbm]) ?_ hw h0
  clear hw h0
  have hK := Moves.refl [.regs, .mem, .seq, .hbm] s
  unfold contextTakenOver
  iterate 60 all_goals first
    | with_reducible assumption
    | ((with_reducible apply modCtx_moves (hw := ?w)); case w => rfl)
    | ((with_reducible apply setBit_moves (hw := ?w)); case w => rfl)
    | ((with_reducible apply modMicro_moves (hw := ?w)); case w => rfl)
    | ((with_reducible apply postTrap_moves (hw := ?w)); case w => rfl)
    | ((with_reducible apply emitAll_moves (hw := ?w)); case w => rfl)
    | intro _
    | dsimp only
    | split

theorem execMicrowordExecute_moves (c : Fin 64) (copies : Copies) {s s' : State} (h : execMicrowordExecute c copies s = .next s') : Moves [.freeIdx, .regs, .mem, .flt, .pwr, .seq, .links, .lib, .src, .hbm] s s' := by
  unfold execMicrowordExecute at h
  have hK := Moves.refl [.freeIdx, .regs, .mem, .flt, .pwr, .seq, .links, .lib, .src, .hbm] s
  all_goals injection h with h
  all_goals subst h
  iterate 60 all_goals first
    | with_reducible assumption
    | ((with_reducible apply copiesRun_moves (hw := ?w)); case w => rfl)
    | ((with_reducible apply microword_moves (hw := ?w)); case w => rfl)
    | ((with_reducible apply microTrap_moves (hw := ?w)); case w => rfl)
    | intro _
    | dsimp only
    | split

theorem execMicroTrap_moves (c : Fin 64) {s s' : State} (h : execMicroTrap c s = .next s') : Moves [.regs, .seq] s s' := by
  unfold execMicroTrap at h
  have hK := Moves.refl [.regs, .seq] s
  all_goals injection h with h
  all_goals subst h
  iterate 60 all_goals first
    | with_reducible assumption
    | ((with_reducible apply microTrap_moves (hw := ?w)); case w => rfl)
    | intro _
    | dsimp only
    | split

theorem execContextFault_moves (c : Fin 64) (correctable : Bool) {s s' : State} (h : execContextFault c correctable s = .next s') : Moves [.regs, .flt, .img, .seq] s s' := by
  unfold execContextFault at h
  have hK := Moves.refl [.regs, .flt, .img, .seq] s
  all_goals injection h with h
  all_goals subst h
  iterate 60 all_goals first
    | with_reducible assumption
    | ((with_reducible apply contextFault_moves (hw := ?w)); case w => rfl)
    | intro _
    | dsimp only
    | split

theorem execContextTakeoverDone_moves (c : Fin 64) {s s' : State} (h : execContextTakeoverDone c s = .next s') : Moves [.regs, .mem, .seq, .hbm] s s' := by
  unfold execContextTakeoverDone at h
  have hK := Moves.refl [.regs, .mem, .seq, .hbm] s
  all_goals injection h with h
  all_goals subst h
  iterate 60 all_goals first
    | with_reducible assumption
    | ((with_reducible apply contextTakenOver_moves (hw := ?w)); case w => rfl)
    | intro _
    | dsimp only
    | split

end Sys2Proof.Laws
end

