-- ==== Sys2Proof/Laws/MovesLinkOut.lean ====
section
/-! SUPPORT. What the operations of Machine/LinkOut.lean may change of the state, and that they keep what no operation breaks. -/

namespace Sys2Proof.Laws

open Sys2Proof Sys2Proof.Machine

theorem showSet_moves (g set : Nat) {M : List Part} {s0 s : State} (hw : inMask [.regs] M = true) (h0 : Moves M s0 s) : Moves M s0 (showSet g set s) := by
  refine Moves.via (N := [.regs]) ?_ hw h0
  clear hw h0
  have hK := Moves.refl [.regs] s
  unfold showSet
  iterate 60 all_goals first
    | with_reducible assumption
    | ((with_reducible apply setRegN_moves (hw := ?w)); case w => rfl)
    | ((with_reducible apply setFld_moves (hw := ?w)); case w => rfl)
    | intro _
    | dsimp only
    | split

theorem dropSetShadow_moves (g : Nat) {M : List Part} {s0 s : State} (hw : inMask [.shadowF] M = true) (h0 : Moves M s0 s) : Moves M s0 (dropSetShadow g s) := by
  refine Moves.via (N := [.shadowF]) ?_ hw h0
  clear hw h0
  have hK := Moves.refl [.shadowF] s
  unfold dropSetShadow
  iterate 60 all_goals first
    | with_reducible assumption
    | intro _
    | dsimp only
    | split
    | ((with_reducible apply Moves.update) <;> first | (with_reducible exact Or.inl rfl) | exact Or.inr (by decide) | skip)

theorem takeSetIdle_moves (g : Nat) {M : List Part} {s0 s : State} (hw : inMask [.regs, .shadowF, .links] M = true) (h0 : Moves M s0 s) : Moves M s0 (takeSetIdle g s) := by
  refine Moves.via (N := [.regs, .shadowF, .links]) ?_ hw h0
  clear hw h0
  have hK := Moves.refl [.regs, .shadowF, .links] s
  unfold takeSetIdle
  iterate 60 all_goals first
    | with_reducible assumption
    | ((with_reducible apply setRegN_moves (hw := ?w)); case w => rfl)
    | ((with_reducible apply showSet_moves (hw := ?w)); case w => rfl)
    | ((with_reducible apply modLink_moves (hw := ?w)); case w => rfl)
    | ((with_reducible apply dropSetShadow_moves (hw := ?w)); case w => rfl)
    | intro _
    | dsimp only
    | split

theorem takeSet_moves (g f : Nat) {M : List Part} {s0 s : State} (hw : inMask [.regs, .shadowF, .links] M = true) (h0 : Moves M s0 s) : Moves M s0 (takeSet g f s) := by
  refine Moves.via (N := [.regs, .shadowF, .links]) ?_ hw h0
  clear hw h0
  have hK := Moves.refl [.regs, .shadowF, .links] s
  unfold takeSet
  iterate 60 all_goals first
    | with_reducible assumption
    | ((with_reducible apply setRegN_moves (hw := ?w)); case w => rfl)
    | ((with_reducible apply modLink_moves (hw := ?w)); case w => rfl)
    | ((with_reducible apply dropSetShadow_moves (hw := ?w)); case w => rfl)
    | intro _
    | dsimp only
    | split

theorem dropLevels_moves (g v : Nat) {M : List Part} {s0 s : State} (hw : inMask [.src] M = true) (h0 : Moves M s0 s) : Moves M s0 (dropLevels g v s) := by
  refine Moves.via (N := [.src]) ?_ hw h0
  clear hw h0
  have hK := Moves.refl [.src] s
  unfold dropLevels
  iterate 60 all_goals first
    | with_reducible assumption
    | ((with_reducible apply modSrc_moves (hw := ?w)); case w => rfl)
    | with_reducible apply Moves.foldl
    | intro _
    | dsimp only
    | split

theorem fetchRuns_moves (c f : Nat) {M : List Part} {s0 s : State} (hw : inMask [.regs, .flt, .hbm] M = true) (h0 : Moves M s0 s) : Moves M s0 (fetchRuns c f s) := by
  refine Moves.via (N := [.regs, .flt, .hbm]) ?_ hw h0
  clear hw h0
  have hK := Moves.refl [.regs, .flt, .hbm] s
  unfold fetchRuns
  iterate 60 all_goals first
    | with_reducible assumption
    | ((with_reducible apply poisonRead_moves (hw := ?w)); case w => rfl)
    | with_reducible apply Moves.foldl
    | intro _
    | dsimp only
    | split

theorem fetchFrame_moves (c f : Nat) {M : List Part} {s0 s : State} (hw : inMask [.regs, .mem, .flt, .pwr, .seq, .links, .src, .hbm] M = true) (h0 : Moves M s0 s) : Moves M s0 (fetchFrame c f s) := by
  refine Moves.via (N := [.regs, .mem, .flt, .pwr, .seq, .links, .src, .hbm]) ?_ hw h0
  clear hw h0
  have hK := Moves.refl [.regs, .mem, .flt, .pwr, .seq, .links, .src, .hbm] s
  unfold fetchFrame
  iterate 60 all_goals first
    | with_reducible assumption
    | ((with_reducible apply modCtx_moves (hw := ?w)); case w => rfl)
    | ((with_reducible apply programError_moves (hw := ?w)); case w => rfl)
    | ((with_reducible apply fetchRuns_moves (hw := ?w)); case w => rfl)
    | intro _
    | dsimp only
    | split

theorem fireSignal_moves (e : Nat × StreamEvt) {M : List Part} {s0 s : State} (hw : inMask [.regs, .net, .sch] M = true) (h0 : Moves M s0 s) : Moves M s0 (fireSignal s e) := by
  refine Moves.via (N := [.regs, .net, .sch]) ?_ hw h0
  clear hw h0
  have hK := Moves.refl [.regs, .net, .sch] s
  unfold fireSignal
  iterate 60 all_goals first
    | with_reducible assumption
    | ((with_reducible apply pushRec_moves (hw := ?w)); case w => rfl)
    | ((with_reducible apply setFlag_moves (hw := ?w)); case w => rfl)
    | intro _
    | dsimp only
    | split

theorem fireSignals_moves (p : Nat → Bool) {M : List Part} {s0 s : State} (hw : inMask [.regs, .net, .seq, .sch] M = true) (h0 : Moves M s0 s) : Moves M s0 (fireSignals p s) := by
  refine Moves.via (N := [.regs, .net, .seq, .sch]) ?_ hw h0
  clear hw h0
  have hK := Moves.refl [.regs, .net, .seq, .sch] s
  unfold fireSignals
  iterate 60 all_goals first
    | with_reducible assumption
    | ((with_reducible apply fireSignal_moves (hw := ?w)); case w => rfl)
    | with_reducible apply Moves.foldl
    | intro _
    | dsimp only
    | split
    | ((with_reducible apply Moves.update) <;> first | (with_reducible exact Or.inl rfl) | exact Or.inr (by decide) | skip)

theorem signalsDue_moves {M : List Part} {s0 s : State} (hw : inMask [.regs, .net, .seq, .sch] M = true) (h0 : Moves M s0 s) : Moves M s0 (signalsDue s) := by
  refine Moves.via (N := [.regs, .net, .seq, .sch]) ?_ hw h0
  clear hw h0
  have hK := Moves.refl [.regs, .net, .seq, .sch] s
  unfold signalsDue
  iterate 60 all_goals first
    | with_reducible assumption
    | ((with_reducible apply fireSignals_moves (hw := ?w)); case w => rfl)
    | intro _
    | dsimp only
    | split

theorem actEvent_moves (c : Nat) (e : Nat × StreamEvt) {M : List Part} {s0 s : State} (hw : inMask [.regs, .seq, .trg, .mea, .src] M = true) (h0 : Moves M s0 s) : Moves M s0 (actEvent c s e) := by
  refine Moves.via (N := [.regs, .seq, .trg, .mea, .src]) ?_ hw h0
  clear hw h0
  have hK := Moves.refl [.regs, .seq, .trg, .mea, .src] s
  unfold actEvent
  iterate 60 all_goals first
    | with_reducible assumption
    | ((with_reducible apply postDirect_moves (hw := ?w)); case w => rfl)
    | ((with_reducible apply syncSet_moves (hw := ?w)); case w => rfl)
    | intro _
    | dsimp only
    | split
    | ((with_reducible apply Moves.update) <;> first | (with_reducible exact Or.inl rfl) | exact Or.inr (by decide) | skip)

theorem actEvents_moves (c f : Nat) (last : Bool) {M : List Part} {s0 s : State} (hw : inMask [.regs, .seq, .trg, .mea, .src] M = true) (h0 : Moves M s0 s) : Moves M s0 (actEvents c f last s) := by
  refine Moves.via (N := [.regs, .seq, .trg, .mea, .src]) ?_ hw h0
  clear hw h0
  have hK := Moves.refl [.regs, .seq, .trg, .mea, .src] s
  unfold actEvents
  iterate 60 all_goals first
    | with_reducible assumption
    | ((with_reducible apply modCtx_moves (hw := ?w)); case w => rfl)
    | ((with_reducible apply actEvent_moves (hw := ?w)); case w => rfl)
    | with_reducible apply Moves.foldl
    | intro _
    | dsimp only
    | split

theorem gapSent_moves (g l : Nat) {M : List Part} {s0 s : State} (hw : inMask [.lanes] M = true) (h0 : Moves M s0 s) : Moves M s0 (gapSent g l s) := by
  refine Moves.via (N := [.lanes]) ?_ hw h0
  clear hw h0
  have hK := Moves.refl [.lanes] s
  unfold gapSent
  iterate 60 all_goals first
    | with_reducible assumption
    | ((with_reducible apply modLane_moves (hw := ?w)); case w => rfl)
    | intro _
    | dsimp only
    | split

theorem sendPairs_moves (g l n b : Nat) {M : List Part} {s0 s : State} (hw : inMask [.lanes] M = true) (h0 : Moves M s0 s) : Moves M s0 (sendPairs g l n b s) := by
  refine Moves.via (N := [.lanes]) ?_ hw h0
  clear hw h0
  have hK := Moves.refl [.lanes] s
  unfold sendPairs
  iterate 60 all_goals first
    | with_reducible assumption
    | ((with_reducible apply putOut_moves (hw := ?w)); case w => rfl)
    | ((with_reducible apply modLane_moves (hw := ?w)); case w => rfl)
    | intro _
    | dsimp only
    | split

theorem corruptFrame_moves (n a : Nat) {p : Nat × State} {M : List Part} {s0 : State} (hw : inMask [.freeIdx] M = true) (h0 : Moves M s0 p.2) :
    Moves M s0 (corruptFrame n a p).2 := by
  induction n generalizing a p with
  | zero => exact h0
  | succ n ih =>
    obtain ⟨b, s⟩ := p
    unfold corruptFrame
    dsimp only
    exact ih _ (freeNat_moves 10 hw h0)
theorem corruptFrame_movesE {n a : Nat} {p : Nat × State} {w0} {M : List Part} {s0 s' : State} (hE : corruptFrame n a p = (w0, s')) (hw : inMask [.freeIdx] M = true) (h0 : Moves M s0 p.2) : Moves M s0 s' := by
  have k := corruptFrame_moves n a (p := p) hw h0
  rw [hE] at k
  exact k

theorem laneBits_moves (g l : Nat) (fr : Frame) {M : List Part} {s0 s : State} (hw : inMask [.freeIdx] M = true) (h0 : Moves M s0 s) : Moves M s0 (laneBits g l fr s).2 := by
  refine Moves.via (N := [.freeIdx]) ?_ hw h0
  clear hw h0
  have hK := Moves.refl [.freeIdx] s
  unfold laneBits
  iterate 60 all_goals first
    | with_reducible assumption
    | ((with_reducible apply freeNat_movesE (hE := by assumption) (hw := ?w)); case w => rfl)
    | ((with_reducible apply freeNat_moves (hw := ?w)); case w => rfl)
    | ((with_reducible apply corruptFrame_movesE (hE := by assumption) (hw := ?w)); case w => rfl)
    | ((with_reducible apply corruptFrame_moves (hw := ?w)); case w => rfl)
    | intro _
    | dsimp only
    | split
theorem laneBits_movesE {g l : Nat} {fr : Frame} {w0} {M : List Part} {s0 s s' : State} (hE : laneBits g l fr s = (w0, s')) (hw : inMask [.freeIdx] M = true) (h0 : Moves M s0 s) : Moves M s0 s' := by
  have k := laneBits_moves (hw := hw) (h0 := h0) (g := g) (l := l) (fr := fr)
  rw [hE] at k
  exact k

theorem sendBert_moves (g l : Nat) {M : List Part} {s0 s : State} (hw : inMask [.regs, .lanes] M = true) (h0 : Moves M s0 s) : Moves M s0 (sendBert g l s) := by
  refine Moves.via (N := [.regs, .lanes]) ?_ hw h0
  clear hw h0
  have hK := Moves.refl [.regs, .lanes] s
  unfold sendBert
  iterate 60 all_goals first
    | with_reducible assumption
    | ((with_reducible apply sendPairs_moves (hw := ?w)); case w => rfl)
    | ((with_reducible apply modLane_moves (hw := ?w)); case w => rfl)
    | ((with_reducible apply bertTake_moves (hw := ?w)); case w => rfl)
    | intro _
    | dsimp only
    | split

theorem sendFrame_moves (g l : Nat) (fr : Frame) {M : List Part} {s0 s : State} (hw : inMask [.freeIdx, .regs, .mem, .ans, .net, .flt, .lanes, .seq, .links, .tst, .cmp, .trg, .mea, .tdc, .hbm] M = true) (h0 : Moves M s0 s) : Moves M s0 (sendFrame g l fr s) := by
  refine Moves.via (N := [.freeIdx, .regs, .mem, .ans, .net, .flt, .lanes, .seq, .links, .tst, .cmp, .trg, .mea, .tdc, .hbm]) ?_ hw h0
  clear hw h0
  have hK := Moves.refl [.freeIdx, .regs, .mem, .ans, .net, .flt, .lanes, .seq, .links, .tst, .cmp, .trg, .mea, .tdc, .hbm] s
  unfold sendFrame
  iterate 60 all_goals first
    | with_reducible assumption
    | ((with_reducible apply gapSent_moves (hw := ?w)); case w => rfl)
    | ((with_reducible apply sendPairs_moves (hw := ?w)); case w => rfl)
    | ((with_reducible apply takeFiller_moves (hw := ?w)); case w => rfl)
    | ((with_reducible apply laneBits_movesE (hE := by assumption) (hw := ?w)); case w => rfl)
    | ((with_reducible apply laneBits_moves (hw := ?w)); case w => rfl)
    | ((with_reducible apply takeFrame_moves (hw := ?w)); case w => rfl)
    | with_reducible apply Moves.foldl
    | intro _
    | dsimp only
    | split

theorem sendLane_moves (g l : Nat) (fr : Frame) {M : List Part} {s0 s : State} (hw : inMask [.freeIdx, .regs, .mem, .ans, .net, .flt, .lanes, .seq, .links, .tst, .cmp, .trg, .mea, .tdc, .hbm] M = true) (h0 : Moves M s0 s) : Moves M s0 (sendLane g l fr s) := by
  refine Moves.via (N := [.freeIdx, .regs, .mem, .ans, .net, .flt, .lanes, .seq, .links, .tst, .cmp, .trg, .mea, .tdc, .hbm]) ?_ hw h0
  clear hw h0
  have hK := Moves.refl [.freeIdx, .regs, .mem, .ans, .net, .flt, .lanes, .seq, .links, .tst, .cmp, .trg, .mea, .tdc, .hbm] s
  unfold sendLane
  iterate 60 all_goals first
    | with_reducible assumption
    | ((with_reducible apply sendBert_moves (hw := ?w)); case w => rfl)
    | ((with_reducible apply sendFrame_moves (hw := ?w)); case w => rfl)
    | intro _
    | dsimp only
    | split

theorem emitFrames_moves (g : Nat) (a b : Frame) {M : List Part} {s0 s : State} (hw : inMask [.freeIdx, .regs, .mem, .ans, .net, .flt, .lanes, .seq, .links, .tst, .cmp, .trg, .mea, .tdc, .hbm] M = true) (h0 : Moves M s0 s) : Moves M s0 (emitFrames g a b s) := by
  refine Moves.via (N := [.freeIdx, .regs, .mem, .ans, .net, .flt, .lanes, .seq, .links, .tst, .cmp, .trg, .mea, .tdc, .hbm]) ?_ hw h0
  clear hw h0
  have hK := Moves.refl [.freeIdx, .regs, .mem, .ans, .net, .flt, .lanes, .seq, .links, .tst, .cmp, .trg, .mea, .tdc, .hbm] s
  unfold emitFrames
  iterate 60 all_goals first
    | with_reducible assumption
    | ((with_reducible apply sendLane_moves (hw := ?w)); case w => rfl)
    | ((with_reducible apply setRegN_moves (hw := ?w)); case w => rfl)
    | ((with_reducible apply modLink_moves (hw := ?w)); case w => rfl)
    | intro _
    | dsimp only
    | split

theorem emitFrame_moves (g : Nat) (fr : Frame) {M : List Part} {s0 s : State} (hw : inMask [.freeIdx, .regs, .mem, .ans, .net, .flt, .lanes, .seq, .links, .tst, .cmp, .trg, .mea, .tdc, .hbm] M = true) (h0 : Moves M s0 s) : Moves M s0 (emitFrame g fr s) := by
  refine Moves.via (N := [.freeIdx, .regs, .mem, .ans, .net, .flt, .lanes, .seq, .links, .tst, .cmp, .trg, .mea, .tdc, .hbm]) ?_ hw h0
  clear hw h0
  have hK := Moves.refl [.freeIdx, .regs, .mem, .ans, .net, .flt, .lanes, .seq, .links, .tst, .cmp, .trg, .mea, .tdc, .hbm] s
  unfold emitFrame
  iterate 60 all_goals first
    | with_reducible assumption
    | ((with_reducible apply emitFrames_moves (hw := ?w)); case w => rfl)
    | intro _
    | dsimp only
    | split

theorem showEnding_moves {M : List Part} {s0 s : State} (hw : inMask [.regs] M = true) (h0 : Moves M s0 s) : Moves M s0 (showEnding s) := by
  refine Moves.via (N := [.regs]) ?_ hw h0
  clear hw h0
  have hK := Moves.refl [.regs] s
  unfold showEnding
  iterate 60 all_goals first
    | with_reducible assumption
    | ((with_reducible apply setFld_moves (hw := ?w)); case w => rfl)
    | intro _
    | dsimp only
    | split

theorem countSent_moves (g fseq : Nat) {M : List Part} {s0 s : State} (hw : inMask [.regs, .links] M = true) (h0 : Moves M s0 s) : Moves M s0 (countSent g fseq s) := by
  refine Moves.via (N := [.regs, .links]) ?_ hw h0
  clear hw h0
  have hK := Moves.refl [.regs, .links] s
  unfold countSent
  iterate 60 all_goals first
    | with_reducible assumption
    | ((with_reducible apply incWrap_moves (hw := ?w)); case w => rfl)
    | ((with_reducible apply modSent_moves (hw := ?w)); case w => rfl)
    | ((with_reducible apply modLink_moves (hw := ?w)); case w => rfl)
    | ((with_reducible apply setRegN_moves (hw := ?w)); case w => rfl)
    | intro _
    | dsimp only
    | split

theorem buildData_moves (g : Nat) (st : StepInfo) {M : List Part} {s0 s : State} (hw : inMask [.freeIdx, .regs, .shadowF, .mem, .ans, .net, .flt, .lanes, .seq, .links, .tst, .cmp, .trg, .mea, .src, .tdc, .hbm] M = true) (h0 : Moves M s0 s) : Moves M s0 (buildData g st s) := by
  refine Moves.via (N := [.freeIdx, .regs, .shadowF, .mem, .ans, .net, .flt, .lanes, .seq, .links, .tst, .cmp, .trg, .mea, .src, .tdc, .hbm]) ?_ hw h0
  clear hw h0
  have hK := Moves.refl [.freeIdx, .regs, .shadowF, .mem, .ans, .net, .flt, .lanes, .seq, .links, .tst, .cmp, .trg, .mea, .src, .tdc, .hbm] s
  unfold buildData
  iterate 60 all_goals first
    | with_reducible assumption
    | ((with_reducible apply emitFrame_moves (hw := ?w)); case w => rfl)
    | ((with_reducible apply modLink_moves (hw := ?w)); case w => rfl)
    | ((with_reducible apply takeSet_moves (hw := ?w)); case w => rfl)
    | ((with_reducible apply showSet_moves (hw := ?w)); case w => rfl)
    | ((with_reducible apply dropLevels_moves (hw := ?w)); case w => rfl)
    | ((with_reducible apply countSent_moves (hw := ?w)); case w => rfl)
    | ((with_reducible apply showEnding_moves (hw := ?w)); case w => rfl)
    | ((with_reducible apply writeCheckpoint_moves (hw := ?w)); case w => rfl)
    | ((with_reducible apply actEvents_moves (hw := ?w)); case w => rfl)
    | ((with_reducible apply showLead_moves (hw := ?w)); case w => rfl)
    | with_reducible apply Moves.foldl
    | intro _
    | dsimp only
    | split

theorem sendData_moves (g : Nat) (st : StepInfo) {M : List Part} {s0 s : State} (hw : inMask [.freeIdx, .regs, .shadowF, .mem, .ans, .net, .flt, .pwr, .lanes, .seq, .links, .tst, .cmp, .trg, .mea, .src, .tdc, .hbm] M = true) (h0 : Moves M s0 s) : Moves M s0 (sendData g st s) := by
  refine Moves.via (N := [.freeIdx, .regs, .shadowF, .mem, .ans, .net, .flt, .pwr, .lanes, .seq, .links, .tst, .cmp, .trg, .mea, .src, .tdc, .hbm]) ?_ hw h0
  clear hw h0
  have hK := Moves.refl [.freeIdx, .regs, .shadowF, .mem, .ans, .net, .flt, .pwr, .lanes, .seq, .links, .tst, .cmp, .trg, .mea, .src, .tdc, .hbm] s
  unfold sendData
  iterate 60 all_goals first
    | with_reducible assumption
    | ((with_reducible apply passBoundary_moves (hw := ?w)); case w => rfl)
    | ((with_reducible apply holdFrame_moves (hw := ?w)); case w => rfl)
    | ((with_reducible apply fetchFrame_moves (hw := ?w)); case w => rfl)
    | ((with_reducible apply buildData_moves (hw := ?w)); case w => rfl)
    | with_reducible apply Moves.foldl
    | intro _
    | dsimp only
    | split

theorem addProbe_moves (g t1 l : Nat) {p : List Nat × State} {M : List Part} {s0 : State} (hw : inMask [.links] M = true) (h0 : Moves M s0 p.2) :
    Moves M s0 (addProbe g t1 l p).2 := by
  unfold addProbe
  split
  · dsimp only
    exact modLink_moves (hw := hw) (h0 := modProbe_moves (hw := hw) (h0 := h0) ..) ..
  · exact h0
theorem addProbe_movesE {g t1 l : Nat} {p : List Nat × State} {w0} {M : List Part} {s0 s' : State} (hE : addProbe g t1 l p = (w0, s')) (hw : inMask [.links] M = true) (h0 : Moves M s0 p.2) : Moves M s0 s' := by
  have k := addProbe_moves g t1 l (p := p) hw h0
  rw [hE] at k
  exact k

theorem takeMap_moves (g fseq : Nat) {p : List Nat × State} {M : List Part} {s0 : State} (hw : inMask [.links] M = true) (h0 : Moves M s0 p.2) :
    Moves M s0 (takeMap g fseq p).2 := by
  obtain ⟨es, s⟩ := p
  have k (f : Link → Link) : Moves M s0 (modLink g f s) := modLink_moves (hw := hw) (h0 := h0) ..
  unfold takeMap
  dsimp only at h0 ⊢
  iterate 10 all_goals first
    | with_reducible assumption
    | exact k _
    | dsimp only
    | split
theorem takeMap_movesE {g fseq : Nat} {p : List Nat × State} {w0} {M : List Part} {s0 s' : State} (hE : takeMap g fseq p = (w0, s')) (hw : inMask [.links] M = true) (h0 : Moves M s0 p.2) : Moves M s0 s' := by
  have k := takeMap_moves g fseq (p := p) hw h0
  rw [hE] at k
  exact k

theorem announceSet_moves (g : Nat) {M : List Part} {s0 s : State} (hw : inMask [.links] M = true) (h0 : Moves M s0 s) : Moves M s0 (announceSet g s).2 := by
  refine Moves.via (N := [.links]) ?_ hw h0
  clear hw h0
  have hK := Moves.refl [.links] s
  unfold announceSet
  iterate 60 all_goals first
    | with_reducible assumption
    | ((with_reducible apply modLink_moves (hw := ?w)); case w => rfl)
    | intro _
    | dsimp only
    | split
theorem announceSet_movesE {g : Nat} {w0} {M : List Part} {s0 s s' : State} (hE : announceSet g s = (w0, s')) (hw : inMask [.links] M = true) (h0 : Moves M s0 s) : Moves M s0 s' := by
  have k := announceSet_moves (hw := hw) (h0 := h0) (g := g)
  rw [hE] at k
  exact k

theorem takeEntries_moves (g : Nat) {p : List Nat × State} {M : List Part} {s0 : State} (hw : inMask [.links] M = true) (h0 : Moves M s0 p.2) :
    Moves M s0 (takeEntries g p).2 := by
  unfold takeEntries
  dsimp only
  split
  · exact h0
  · dsimp only
    exact modLink_moves (hw := hw) (h0 := h0) ..
theorem takeEntries_movesE {g : Nat} {p : List Nat × State} {w0} {M : List Part} {s0 s' : State} (hE : takeEntries g p = (w0, s')) (hw : inMask [.links] M = true) (h0 : Moves M s0 p.2) : Moves M s0 s' := by
  have k := takeEntries_moves g (p := p) hw h0
  rw [hE] at k
  exact k

theorem sendCap_moves (g set : Nat) {M : List Part} {s0 s : State} (hw : inMask [.freeIdx, .regs, .mem, .ans, .net, .flt, .lanes, .seq, .links, .tst, .cmp, .trg, .mea, .tdc, .hbm] M = true) (h0 : Moves M s0 s) : Moves M s0 (sendCap g set s) := by
  refine Moves.via (N := [.freeIdx, .regs, .mem, .ans, .net, .flt, .lanes, .seq, .links, .tst, .cmp, .trg, .mea, .tdc, .hbm]) ?_ hw h0
  clear hw h0
  have hK := Moves.refl [.freeIdx, .regs, .mem, .ans, .net, .flt, .lanes, .seq, .links, .tst, .cmp, .trg, .mea, .tdc, .hbm] s
  unfold sendCap
  iterate 60 all_goals first
    | with_reducible assumption
    | ((with_reducible apply emitFrames_moves (hw := ?w)); case w => rfl)
    | intro _
    | dsimp only
    | split

theorem sendIdle_moves (g t1 : Nat) {M : List Part} {s0 s : State} (hw : inMask [.freeIdx, .regs, .shadowF, .mem, .ans, .net, .flt, .lanes, .seq, .links, .tst, .cmp, .trg, .mea, .src, .tdc, .hbm] M = true) (h0 : Moves M s0 s) : Moves M s0 (sendIdle g t1 s) := by
  refine Moves.via (N := [.freeIdx, .regs, .shadowF, .mem, .ans, .net, .flt, .lanes, .seq, .links, .tst, .cmp, .trg, .mea, .src, .tdc, .hbm]) ?_ hw h0
  clear hw h0
  have hK := Moves.refl [.freeIdx, .regs, .shadowF, .mem, .ans, .net, .flt, .lanes, .seq, .links, .tst, .cmp, .trg, .mea, .src, .tdc, .hbm] s
  unfold sendIdle
  iterate 60 all_goals first
    | with_reducible assumption
    | ((with_reducible apply crossBoundary_moves (hw := ?w)); case w => rfl)
    | ((with_reducible apply takeSetIdle_moves (hw := ?w)); case w => rfl)
    | ((with_reducible apply addProbe_movesE (hE := by assumption) (hw := ?w)); case w => rfl)
    | ((with_reducible apply addProbe_moves (hw := ?w)); case w => rfl)
    | ((with_reducible apply takeMap_movesE (hE := by assumption) (hw := ?w)); case w => rfl)
    | ((with_reducible apply takeMap_moves (hw := ?w)); case w => rfl)
    | ((with_reducible apply takeEntries_movesE (hE := by assumption) (hw := ?w)); case w => rfl)
    | ((with_reducible apply takeEntries_moves (hw := ?w)); case w => rfl)
    | ((with_reducible apply announceSet_movesE (hE := by assumption) (hw := ?w)); case w => rfl)
    | ((with_reducible apply announceSet_moves (hw := ?w)); case w => rfl)
    | ((with_reducible apply sendCap_moves (hw := ?w)); case w => rfl)
    | ((with_reducible apply emitFrame_moves (hw := ?w)); case w => rfl)
    | intro _
    | dsimp only
    | split

theorem idleFrame_moves (g t1 : Nat) {M : List Part} {s0 s : State} (hw : inMask [.freeIdx, .regs, .shadowF, .mem, .ans, .net, .flt, .lanes, .seq, .links, .tst, .cmp, .trg, .mea, .src, .tdc, .hbm] M = true) (h0 : Moves M s0 s) : Moves M s0 (idleFrame g t1 s) := by
  refine Moves.via (N := [.freeIdx, .regs, .shadowF, .mem, .ans, .net, .flt, .lanes, .seq, .links, .tst, .cmp, .trg, .mea, .src, .tdc, .hbm]) ?_ hw h0
  clear hw h0
  have hK := Moves.refl [.freeIdx, .regs, .shadowF, .mem, .ans, .net, .flt, .lanes, .seq, .links, .tst, .cmp, .trg, .mea, .src, .tdc, .hbm] s
  unfold idleFrame
  iterate 60 all_goals first
    | with_reducible assumption
    | ((with_reducible apply sendIdle_moves (hw := ?w)); case w => rfl)
    | intro _
    | dsimp only
    | split

theorem frameSend_moves (g t1 : Nat) {M : List Part} {s0 s : State} (hw : inMask [.freeIdx, .regs, .shadowF, .mem, .ans, .net, .flt, .pwr, .lanes, .seq, .links, .tst, .cmp, .trg, .mea, .src, .tdc, .hbm] M = true) (h0 : Moves M s0 s) : Moves M s0 (frameSend g t1 s) := by
  refine Moves.via (N := [.freeIdx, .regs, .shadowF, .mem, .ans, .net, .flt, .pwr, .lanes, .seq, .links, .tst, .cmp, .trg, .mea, .src, .tdc, .hbm]) ?_ hw h0
  clear hw h0
  have hK := Moves.refl [.freeIdx, .regs, .shadowF, .mem, .ans, .net, .flt, .pwr, .lanes, .seq, .links, .tst, .cmp, .trg, .mea, .src, .tdc, .hbm] s
  unfold frameSend
  iterate 60 all_goals first
    | with_reducible assumption
    | ((with_reducible apply sendData_moves (hw := ?w)); case w => rfl)
    | ((with_reducible apply idleFrame_moves (hw := ?w)); case w => rfl)
    | intro _
    | dsimp only
    | split

theorem probePeriod_moves (g : Nat) {M : List Part} {s0 s : State} (hw : inMask [.links] M = true) (h0 : Moves M s0 s) : Moves M s0 (probePeriod g s) := by
  refine Moves.via (N := [.links]) ?_ hw h0
  clear hw h0
  have hK := Moves.refl [.links] s
  unfold probePeriod
  iterate 60 all_goals first
    | with_reducible assumption
    | ((with_reducible apply modLink_moves (hw := ?w)); case w => rfl)
    | intro _
    | dsimp only
    | split

theorem alignTimeout_moves (g : Nat) {M : List Part} {s0 s : State} (hw : inMask [.regs, .flt, .links] M = true) (h0 : Moves M s0 s) : Moves M s0 (alignTimeout g s) := by
  refine Moves.via (N := [.regs, .flt, .links]) ?_ hw h0
  clear hw h0
  have hK := Moves.refl [.regs, .flt, .links] s
  unfold alignTimeout
  iterate 60 all_goals first
    | with_reducible assumption
    | ((with_reducible apply alignAgain_moves (hw := ?w)); case w => rfl)
    | ((with_reducible apply raise_moves (hw := ?w)); case w => rfl)
    | intro _
    | dsimp only
    | split

theorem frameInject_moves (g : Nat) (value : Word) {M : List Part} {s0 s : State} (hw : inMask [.ans, .links] M = true) (h0 : Moves M s0 s) : Moves M s0 (frameInject g value s) := by
  refine Moves.via (N := [.ans, .links]) ?_ hw h0
  clear hw h0
  have hK := Moves.refl [.ans, .links] s
  unfold frameInject
  iterate 60 all_goals first
    | with_reducible assumption
    | ((with_reducible apply answer_moves (hw := ?w)); case w => rfl)
    | ((with_reducible apply modLink_moves (hw := ?w)); case w => rfl)
    | intro _
    | dsimp only
    | split

theorem frXctrl_moves (g : Nat) (value : Word) {M : List Part} {s0 s : State} (hw : inMask [.regs, .shadowS, .shadowF, .ans] M = true) (h0 : Moves M s0 s) : Moves M s0 (frXctrl g value s) := by
  refine Moves.via (N := [.regs, .shadowS, .shadowF, .ans]) ?_ hw h0
  clear hw h0
  have hK := Moves.refl [.regs, .shadowS, .shadowF, .ans] s
  unfold frXctrl
  iterate 60 all_goals first
    | with_reducible assumption
    | ((with_reducible apply refuseIf_moves (hw := ?w)); case w => rfl)
    | ((with_reducible apply accept_moves (hw := ?w)); case w => rfl)
    | intro _
    | dsimp only
    | split

theorem execFrameSend_moves (g : Fin 16) (t1 : Nat) {s s' : State} (h : execFrameSend g t1 s = .next s') : Moves [.freeIdx, .regs, .shadowF, .mem, .ans, .net, .flt, .pwr, .lanes, .seq, .links, .tst, .cmp, .trg, .mea, .src, .tdc, .hbm] s s' := by
  unfold execFrameSend at h
  have hK := Moves.refl [.freeIdx, .regs, .shadowF, .mem, .ans, .net, .flt, .pwr, .lanes, .seq, .links, .tst, .cmp, .trg, .mea, .src, .tdc, .hbm] s
  all_goals injection h with h
  all_goals subst h
  iterate 60 all_goals first
    | with_reducible assumption
    | ((with_reducible apply frameSend_moves (hw := ?w)); case w => rfl)
    | intro _
    | dsimp only
    | split

theorem execIdleFrameTimer_moves (g : Fin 16) (t1 : Nat) {s s' : State} (h : execIdleFrameTimer g t1 s = .next s') : Moves [.freeIdx, .regs, .shadowF, .mem, .ans, .net, .flt, .lanes, .seq, .links, .tst, .cmp, .trg, .mea, .src, .tdc, .hbm] s s' := by
  unfold execIdleFrameTimer at h
  have hK := Moves.refl [.freeIdx, .regs, .shadowF, .mem, .ans, .net, .flt, .lanes, .seq, .links, .tst, .cmp, .trg, .mea, .src, .tdc, .hbm] s
  all_goals injection h with h
  all_goals subst h
  iterate 60 all_goals first
    | with_reducible assumption
    | ((with_reducible apply idleFrame_moves (hw := ?w)); case w => rfl)
    | intro _
    | dsimp only
    | split

theorem execProbePeriod_moves (g : Fin 16) {s s' : State} (h : execProbePeriod g s = .next s') : Moves [.links] s s' := by
  unfold execProbePeriod at h
  have hK := Moves.refl [.links] s
  all_goals injection h with h
  all_goals subst h
  iterate 60 all_goals first
    | with_reducible assumption
    | ((with_reducible apply probePeriod_moves (hw := ?w)); case w => rfl)
    | intro _
    | dsimp only
    | split

theorem execCntAlignTimeout_moves (g : Fin 16) {s s' : State} (h : execCntAlignTimeout g s = .next s') : Moves [.regs, .flt, .links] s s' := by
  unfold execCntAlignTimeout at h
  have hK := Moves.refl [.regs, .flt, .links] s
  all_goals injection h with h
  all_goals subst h
  iterate 60 all_goals first
    | with_reducible assumption
    | ((with_reducible apply alignTimeout_moves (hw := ?w)); case w => rfl)
    | intro _
    | dsimp only
    | split

theorem execFrameInject_moves (q : Req) (g : Fin 16) (value : Word) {s s' : State} (h : execFrameInject q g value s = .next s') : Moves [.ans, .links] s s' := by
  unfold execFrameInject at h
  have hK := Moves.refl [.ans, .links] s
  all_goals injection h with h
  all_goals subst h
  iterate 60 all_goals first
    | with_reducible assumption
    | ((with_reducible apply guarded_moves (hw := ?w)); case w => rfl)
    | ((with_reducible apply frameInject_moves (hw := ?w)); case w => rfl)
    | intro _
    | dsimp only
    | split

theorem execFrXctrlWrite_moves (q : Req) (g : Fin 16) (value : Word) {s s' : State} (h : execFrXctrlWrite q g value s = .next s') : Moves [.regs, .shadowS, .shadowF, .ans] s s' := by
  unfold execFrXctrlWrite at h
  have hK := Moves.refl [.regs, .shadowS, .shadowF, .ans] s
  all_goals injection h with h
  all_goals subst h
  iterate 60 all_goals first
    | with_reducible assumption
    | ((with_reducible apply guarded_moves (hw := ?w)); case w => rfl)
    | ((with_reducible apply frXctrl_moves (hw := ?w)); case w => rfl)
    | intro _
    | dsimp only
    | split

end Sys2Proof.Laws
end

