-- ==== Sys2Proof/Laws/MovesSteps.lean ====
section
/-! SUPPORT. What the operations of Machine/Steps.lean may change of the state, and that they keep what no operation breaks. -/

namespace Sys2Proof.Laws

open Sys2Proof Sys2Proof.Machine

theorem reportRefusal_moves (t : State) (gs : List Nat) {M : List Part} {s0 s : State} (hw : inMask [.regs] M = true) (h0 : Moves M s0 s) :
    Moves M s0 (reportRefusal t gs s) := by
  have w1 {A} (h : inMask A [.regs] = true) : inMask A M = true := inMask_trans h hw
  have hf := Moves.foldl (f := fun s c => setFld (Reg.MEA_CH_STATE c) 2 0 0 s) (fun s c h => setFld_moves (M := M) (s0 := s0) (hw := w1 rfl) (h0 := h) ..)
    ((measureIn t gs).filter (fun c => (buildChain t c).isNone)) h0
  unfold reportRefusal
  dsimp only
  split
  · exact reportList_moves (hw := w1 rfl) (h0 := hf) ..
  · exact hf

theorem startGroup_moves (g : Nat) {M : List Part} {s0 s : State} (hw : inMask [.regs, .flt, .links, .tst, .tdc] M = true) (h0 : Moves M s0 s) : Moves M s0 (startGroup s g) := by
  refine Moves.via (N := [.regs, .flt, .links, .tst, .tdc]) ?_ hw h0
  clear hw h0
  have hK := Moves.refl [.regs, .flt, .links, .tst, .tdc] s
  unfold startGroup
  iterate 60 all_goals first
    | with_reducible assumption
    | ((with_reducible apply modLink_moves (hw := ?w)); case w => rfl)
    | ((with_reducible apply endCds_moves (hw := ?w)); case w => rfl)
    | ((with_reducible apply endCals_moves (hw := ?w)); case w => rfl)
    | ((with_reducible apply setBit_moves (hw := ?w)); case w => rfl)
    | intro _
    | dsimp only
    | split

theorem clearLeads_moves {M : List Part} {s0 s : State} (hw : inMask [.regs] M = true) (h0 : Moves M s0 s) : Moves M s0 (clearLeads s) := by
  refine Moves.via (N := [.regs]) ?_ hw h0
  clear hw h0
  have hK := Moves.refl [.regs] s
  unfold clearLeads
  iterate 60 all_goals first
    | with_reducible assumption
    | ((with_reducible apply setRegN_moves (hw := ?w)); case w => rfl)
    | with_reducible apply Moves.foldl
    | intro _
    | dsimp only
    | split

theorem startContext_moves (c : Nat) {M : List Part} {s0 s : State} (hw : inMask [.regs, .mem, .seq, .hbm] M = true) (h0 : Moves M s0 s) : Moves M s0 (startContext s c) := by
  refine Moves.via (N := [.regs, .mem, .seq, .hbm]) ?_ hw h0
  clear hw h0
  have hK := Moves.refl [.regs, .mem, .seq, .hbm] s
  unfold startContext
  iterate 60 all_goals first
    | with_reducible assumption
    | ((with_reducible apply setRegN_moves (hw := ?w)); case w => rfl)
    | ((with_reducible apply setFld_moves (hw := ?w)); case w => rfl)
    | ((with_reducible apply showCtx_moves (hw := ?w)); case w => rfl)
    | ((with_reducible apply modCtx_moves (hw := ?w)); case w => rfl)
    | ((with_reducible apply startContextCompare_moves (hw := ?w)); case w => rfl)
    | ((with_reducible apply dropRoutine_moves (hw := ?w)); case w => rfl)
    | intro _
    | dsimp only
    | split

theorem clearLineCounts_moves {M : List Part} {s0 s : State} (hw : inMask [.regs] M = true) (h0 : Moves M s0 s) : Moves M s0 (clearLineCounts s) := by
  refine Moves.via (N := [.regs]) ?_ hw h0
  clear hw h0
  have hK := Moves.refl [.regs] s
  unfold clearLineCounts
  iterate 60 all_goals first
    | with_reducible assumption
    | ((with_reducible apply setRegN_moves (hw := ?w)); case w => rfl)
    | with_reducible apply Moves.foldl
    | intro _
    | dsimp only
    | split

theorem startBlocks_moves (cs gs : List Nat) {M : List Part} {s0 s : State} (hw : inMask [.regs, .shadowF, .mem, .flt, .tb, .cmp, .lib, .acq, .mea, .src, .tdc, .hbm] M = true) (h0 : Moves M s0 s) : Moves M s0 (startBlocks cs gs s) := by
  refine Moves.via (N := [.regs, .shadowF, .mem, .flt, .tb, .cmp, .lib, .acq, .mea, .src, .tdc, .hbm]) ?_ hw h0
  clear hw h0
  have hK := Moves.refl [.regs, .shadowF, .mem, .flt, .tb, .cmp, .lib, .acq, .mea, .src, .tdc, .hbm] s
  unfold startBlocks
  iterate 60 all_goals first
    | with_reducible assumption
    | ((with_reducible apply startMeasure_moves (hw := ?w)); case w => rfl)
    | ((with_reducible apply startSource_moves (hw := ?w)); case w => rfl)
    | ((with_reducible apply startTdc_moves (hw := ?w)); case w => rfl)
    | ((with_reducible apply startAcq_moves (hw := ?w)); case w => rfl)
    | ((with_reducible apply startCompare_moves (hw := ?w)); case w => rfl)
    | ((with_reducible apply startDetector_moves (hw := ?w)); case w => rfl)
    | with_reducible apply Moves.foldl
    | intro _
    | dsimp only
    | split
    | ((with_reducible apply Moves.update) <;> first | (with_reducible exact Or.inl rfl) | exact Or.inr (by decide) | skip)

theorem logStageLate_moves (st : StepInfo) {M : List Part} {s0 s : State} (hw : inMask [.regs, .mem, .seq, .hbm] M = true) (h0 : Moves M s0 s) : Moves M s0 (logStageLate st s) := by
  refine Moves.via (N := [.regs, .mem, .seq, .hbm]) ?_ hw h0
  clear hw h0
  have hK := Moves.refl [.regs, .mem, .seq, .hbm] s
  unfold logStageLate
  iterate 60 all_goals first
    | with_reducible assumption
    | ((with_reducible apply setFld_moves (hw := ?w)); case w => rfl)
    | ((with_reducible apply seqLog_moves (hw := ?w)); case w => rfl)
    | with_reducible apply Moves.foldl
    | intro _
    | dsimp only
    | split

theorem restorePrior_moves (st : StepInfo) {M : List Part} {s0 s : State} (hw : inMask [.regs, .seq] M = true) (h0 : Moves M s0 s) : Moves M s0 (restorePrior st s) := by
  refine Moves.via (N := [.regs, .seq]) ?_ hw h0
  clear hw h0
  have hK := Moves.refl [.regs, .seq] s
  unfold restorePrior
  iterate 60 all_goals first
    | with_reducible assumption
    | ((with_reducible apply setFld_moves (hw := ?w)); case w => rfl)
    | ((with_reducible apply showCtx_moves (hw := ?w)); case w => rfl)
    | ((with_reducible apply modCtx_moves (hw := ?w)); case w => rfl)
    | with_reducible apply Moves.foldl
    | intro _
    | dsimp only
    | split

theorem abandonLate_moves (st : StepInfo) {M : List Part} {s0 s : State} (hw : inMask [.regs, .mem, .flt, .pwr, .seq, .src, .hbm] M = true) (h0 : Moves M s0 s) : Moves M s0 (abandonLate st s) := by
  refine Moves.via (N := [.regs, .mem, .flt, .pwr, .seq, .src, .hbm]) ?_ hw h0
  clear hw h0
  have hK := Moves.refl [.regs, .mem, .flt, .pwr, .seq, .src, .hbm] s
  unfold abandonLate
  iterate 60 all_goals first
    | with_reducible assumption
    | ((with_reducible apply clearStep_moves (hw := ?w)); case w => rfl)
    | ((with_reducible apply restorePrior_moves (hw := ?w)); case w => rfl)
    | ((with_reducible apply logStageLate_moves (hw := ?w)); case w => rfl)
    | ((with_reducible apply raise_moves (hw := ?w)); case w => rfl)
    | ((with_reducible apply setBit_moves (hw := ?w)); case w => rfl)
    | intro _
    | dsimp only
    | split

theorem refuseHeld_moves (st : StepInfo) {M : List Part} {s0 s : State} (hw : inMask [.regs, .mem, .ans, .pwr, .seq, .src, .hbm] M = true) (h0 : Moves M s0 s) : Moves M s0 (refuseHeld st s) := by
  refine Moves.via (N := [.regs, .mem, .ans, .pwr, .seq, .src, .hbm]) ?_ hw h0
  clear hw h0
  have hK := Moves.refl [.regs, .mem, .ans, .pwr, .seq, .src, .hbm] s
  unfold refuseHeld
  iterate 60 all_goals first
    | with_reducible assumption
    | ((with_reducible apply answer_moves (hw := ?w)); case w => rfl)
    | ((with_reducible apply clearStep_moves (hw := ?w)); case w => rfl)
    | ((with_reducible apply restorePrior_moves (hw := ?w)); case w => rfl)
    | ((with_reducible apply logStageLate_moves (hw := ?w)); case w => rfl)
    | intro _
    | dsimp only
    | split

theorem retireFrames_moves (g : Nat) {M : List Part} {s0 s : State} (hw : inMask [.links] M = true) (h0 : Moves M s0 s) : Moves M s0 (retireFrames s g) := by
  refine Moves.via (N := [.links]) ?_ hw h0
  clear hw h0
  have hK := Moves.refl [.links] s
  unfold retireFrames
  iterate 60 all_goals first
    | with_reducible assumption
    | ((with_reducible apply modLink_moves (hw := ?w)); case w => rfl)
    | intro _
    | dsimp only
    | split

theorem beginContext_moves (st : StepInfo) (c : Nat) {M : List Part} {s0 s : State} (hw : inMask [.regs, .seq] M = true) (h0 : Moves M s0 s) : Moves M s0 (beginContext st s c) := by
  refine Moves.via (N := [.regs, .seq]) ?_ hw h0
  clear hw h0
  have hK := Moves.refl [.regs, .seq] s
  unfold beginContext
  iterate 60 all_goals first
    | with_reducible assumption
    | ((with_reducible apply showCtx_moves (hw := ?w)); case w => rfl)
    | ((with_reducible apply writeCheckpoint_moves (hw := ?w)); case w => rfl)
    | ((with_reducible apply setCtx_moves (hw := ?w)); case w => rfl)
    | intro _
    | dsimp only
    | split

theorem stampHeaders_moves (gs : List Nat) (t : Nat) {M : List Part} {s0 s : State} (hw : inMask [.regs, .mem, .hbm] M = true) (h0 : Moves M s0 s) : Moves M s0 (stampHeaders gs t s) := by
  refine Moves.via (N := [.regs, .mem, .hbm]) ?_ hw h0
  clear hw h0
  have hK := Moves.refl [.regs, .mem, .hbm] s
  unfold stampHeaders
  iterate 60 all_goals first
    | with_reducible assumption
    | ((with_reducible apply setMemN_moves (hw := ?w)); case w => rfl)
    | with_reducible apply Moves.foldl
    | intro _
    | dsimp only
    | split

theorem setStepTime_moves (st : StepInfo) (t : Nat) {M : List Part} {s0 s : State} (hw : inMask [.regs, .mem, .seq, .links, .hbm] M = true) (h0 : Moves M s0 s) : Moves M s0 (setStepTime st t s) := by
  refine Moves.via (N := [.regs, .mem, .seq, .links, .hbm]) ?_ hw h0
  clear hw h0
  have hK := Moves.refl [.regs, .mem, .seq, .links, .hbm] s
  unfold setStepTime
  iterate 60 all_goals first
    | with_reducible assumption
    | ((with_reducible apply logStageLate_moves (hw := ?w)); case w => rfl)
    | ((with_reducible apply set64_moves (hw := ?w)); case w => rfl)
    | ((with_reducible apply stampHeaders_moves (hw := ?w)); case w => rfl)
    | ((with_reducible apply showTrims_moves (hw := ?w)); case w => rfl)
    | ((with_reducible apply retireFrames_moves (hw := ?w)); case w => rfl)
    | ((with_reducible apply beginContext_moves (hw := ?w)); case w => rfl)
    | ((with_reducible apply seqLog_moves (hw := ?w)); case w => rfl)
    | with_reducible apply Moves.foldl
    | intro _
    | dsimp only
    | split
    | ((with_reducible apply Moves.update) <;> first | (with_reducible exact Or.inl rfl) | exact Or.inr (by decide) | skip)

theorem listResident_moves {M : List Part} {s0 s : State} (hw : inMask [.regs, .mem, .ans, .flt, .pwr, .seq, .links, .src, .hbm] M = true) (h0 : Moves M s0 s) : Moves M s0 (listResident s) := by
  refine Moves.via (N := [.regs, .mem, .ans, .flt, .pwr, .seq, .links, .src, .hbm]) ?_ hw h0
  clear hw h0
  have hK := Moves.refl [.regs, .mem, .ans, .flt, .pwr, .seq, .links, .src, .hbm] s
  unfold listResident
  iterate 60 all_goals first
    | with_reducible assumption
    | ((with_reducible apply refuseHeld_moves (hw := ?w)); case w => rfl)
    | ((with_reducible apply programError_moves (hw := ?w)); case w => rfl)
    | ((with_reducible apply logStageLate_moves (hw := ?w)); case w => rfl)
    | ((with_reducible apply setStepTime_moves (hw := ?w)); case w => rfl)
    | ((with_reducible apply abandonLate_moves (hw := ?w)); case w => rfl)
    | intro _
    | dsimp only
    | split

theorem startAccepted_moves (at_ : Bool) (cs gs : List Nat) {M : List Part} {s0 t : State} (hw : inMask [.regs, .shadowF, .mem, .ans, .flt, .pwr, .tb, .seq, .links, .tst, .cmp, .lib, .acq, .mea, .src, .tdc, .hbm] M = true) (h0 : Moves M s0 t) : Moves M s0 (startAccepted at_ cs gs t) := by
  refine Moves.via (N := [.regs, .shadowF, .mem, .ans, .flt, .pwr, .tb, .seq, .links, .tst, .cmp, .lib, .acq, .mea, .src, .tdc, .hbm]) ?_ hw h0
  clear hw h0
  have hK := Moves.refl [.regs, .shadowF, .mem, .ans, .flt, .pwr, .tb, .seq, .links, .tst, .cmp, .lib, .acq, .mea, .src, .tdc, .hbm] t
  unfold startAccepted
  iterate 60 all_goals first
    | with_reducible assumption
    | ((with_reducible apply incWrap_moves (hw := ?w)); case w => rfl)
    | ((with_reducible apply setFld_moves (hw := ?w)); case w => rfl)
    | ((with_reducible apply setBit_moves (hw := ?w)); case w => rfl)
    | ((with_reducible apply clearLeads_moves (hw := ?w)); case w => rfl)
    | ((with_reducible apply clearLineCounts_moves (hw := ?w)); case w => rfl)
    | ((with_reducible apply setRegN_moves (hw := ?w)); case w => rfl)
    | ((with_reducible apply startBlocks_moves (hw := ?w)); case w => rfl)
    | ((with_reducible apply showFades_moves (hw := ?w)); case w => rfl)
    | ((with_reducible apply startContext_moves (hw := ?w)); case w => rfl)
    | ((with_reducible apply startGroup_moves (hw := ?w)); case w => rfl)
    | ((with_reducible apply answer_moves (hw := ?w)); case w => rfl)
    | ((with_reducible apply listResident_moves (hw := ?w)); case w => rfl)
    | ((with_reducible apply requestStepLists_moves (hw := ?w)); case w => rfl)
    | with_reducible apply Moves.foldl
    | intro _
    | dsimp only
    | split
    | ((with_reducible apply Moves.update) <;> first | (with_reducible exact Or.inl rfl) | exact Or.inr (by decide) | skip)

theorem stepStart_moves (at_ : Bool) {M : List Part} {s0 s : State} (hw : inMask [.regs, .shadowS, .shadowF, .mem, .ans, .flt, .pwr, .tb, .seq, .links, .tst, .cmp, .lib, .acq, .mea, .src, .tdc, .hbm] M = true) (h0 : Moves M s0 s) : Moves M s0 (stepStart at_ s) := by
  refine Moves.via (N := [.regs, .shadowS, .shadowF, .mem, .ans, .flt, .pwr, .tb, .seq, .links, .tst, .cmp, .lib, .acq, .mea, .src, .tdc, .hbm]) ?_ hw h0
  clear hw h0
  have hK := Moves.refl [.regs, .shadowS, .shadowF, .mem, .ans, .flt, .pwr, .tb, .seq, .links, .tst, .cmp, .lib, .acq, .mea, .src, .tdc, .hbm] s
  unfold stepStart
  iterate 60 all_goals first
    | with_reducible assumption
    | ((with_reducible apply answer_moves (hw := ?w)); case w => rfl)
    | ((with_reducible apply applyS_moves (hw := ?w)); case w => rfl)
    | ((with_reducible apply startAccepted_moves (hw := ?w)); case w => rfl)
    | ((with_reducible apply reportAdmit_moves (hw := ?w)); case w => rfl)
    | ((with_reducible apply refPolicy_moves (hw := ?w)); case w => rfl)
    | ((with_reducible apply reportRefusal_moves (hw := ?w)); case w => rfl)
    | intro _
    | dsimp only
    | split

theorem stepAtPassed_moves {M : List Part} {s0 s : State} (hw : inMask [.regs, .mem, .flt, .pwr, .seq, .src, .hbm] M = true) (h0 : Moves M s0 s) : Moves M s0 (stepAtPassed s) := by
  refine Moves.via (N := [.regs, .mem, .flt, .pwr, .seq, .src, .hbm]) ?_ hw h0
  clear hw h0
  have hK := Moves.refl [.regs, .mem, .flt, .pwr, .seq, .src, .hbm] s
  unfold stepAtPassed
  iterate 60 all_goals first
    | with_reducible assumption
    | ((with_reducible apply abandonLate_moves (hw := ?w)); case w => rfl)
    | intro _
    | dsimp only
    | split

theorem vectorZero_moves {M : List Part} {s0 s : State} (hw : inMask [.regs, .pwr, .seq, .trg, .mea] M = true) (h0 : Moves M s0 s) : Moves M s0 (vectorZero s) := by
  refine Moves.via (N := [.regs, .pwr, .seq, .trg, .mea]) ?_ hw h0
  clear hw h0
  have hK := Moves.refl [.regs, .pwr, .seq, .trg, .mea] s
  unfold vectorZero
  iterate 60 all_goals first
    | with_reducible assumption
    | ((with_reducible apply setFld_moves (hw := ?w)); case w => rfl)
    | ((with_reducible apply askReset_moves (hw := ?w)); case w => rfl)
    | ((with_reducible apply assertEvent_moves (hw := ?w)); case w => rfl)
    | with_reducible apply Moves.foldl
    | intro _
    | dsimp only
    | split
    | ((with_reducible apply Moves.update) <;> first | exact Or.inr (by decide) | (with_reducible exact Or.inl rfl) | skip)

theorem closeContext_moves (st : StepInfo) (t c : Nat) {M : List Part} {s0 s : State} (hw : inMask [.regs, .mem, .seq, .hbm] M = true) (h0 : Moves M s0 s) : Moves M s0 (closeContext st t s c) := by
  refine Moves.via (N := [.regs, .mem, .seq, .hbm]) ?_ hw h0
  clear hw h0
  have hK := Moves.refl [.regs, .mem, .seq, .hbm] s
  unfold closeContext
  iterate 60 all_goals first
    | with_reducible assumption
    | ((with_reducible apply expireJump_moves (hw := ?w)); case w => rfl)
    | ((with_reducible apply seqLog_moves (hw := ?w)); case w => rfl)
    | ((with_reducible apply modCtx_moves (hw := ?w)); case w => rfl)
    | ((with_reducible apply showCtx_moves (hw := ?w)); case w => rfl)
    | ((with_reducible apply haltContext_moves (hw := ?w)); case w => rfl)
    | ((with_reducible apply dropRoutine_moves (hw := ?w)); case w => rfl)
    | intro _
    | dsimp only
    | split

theorem closeGroup_moves (g : Nat) {M : List Part} {s0 s : State} (hw : inMask [.regs, .links] M = true) (h0 : Moves M s0 s) : Moves M s0 (closeGroup s g) := by
  refine Moves.via (N := [.regs, .links]) ?_ hw h0
  clear hw h0
  have hK := Moves.refl [.regs, .links] s
  unfold closeGroup
  iterate 60 all_goals first
    | with_reducible assumption
    | ((with_reducible apply modLink_moves (hw := ?w)); case w => rfl)
    | ((with_reducible apply showSet_moves (hw := ?w)); case w => rfl)
    | intro _
    | dsimp only
    | split

theorem stepEnd_moves {M : List Part} {s0 s : State} (hw : inMask [.regs, .mem, .net, .pwr, .seq, .links, .acq, .src, .tdc, .hbm, .sch] M = true) (h0 : Moves M s0 s) : Moves M s0 (stepEnd s) := by
  refine Moves.via (N := [.regs, .mem, .net, .pwr, .seq, .links, .acq, .src, .tdc, .hbm, .sch]) ?_ hw h0
  clear hw h0
  have hK := Moves.refl [.regs, .mem, .net, .pwr, .seq, .links, .acq, .src, .tdc, .hbm, .sch] s
  unfold stepEnd
  iterate 60 all_goals first
    | with_reducible assumption
    | ((with_reducible apply closeContext_moves (hw := ?w)); case w => rfl)
    | ((with_reducible apply closeGroup_moves (hw := ?w)); case w => rfl)
    | ((with_reducible apply endAcq_moves (hw := ?w)); case w => rfl)
    | ((with_reducible apply ptpEvaluate_moves (hw := ?w)); case w => rfl)
    | ((with_reducible apply runFuncs_moves (hw := ?w)); case w => rfl)
    | ((with_reducible apply clearStep_moves (hw := ?w)); case w => rfl)
    | ((with_reducible apply fireSignals_moves (hw := ?w)); case w => rfl)
    | with_reducible apply Moves.foldl
    | intro _
    | dsimp only
    | split

theorem execStepStart_moves (q : Req) (at_ : Bool) {s s' : State} (h : execStepStart q at_ s = .next s') : Moves [.regs, .shadowS, .shadowF, .mem, .ans, .flt, .pwr, .tb, .seq, .links, .tst, .cmp, .lib, .acq, .mea, .src, .tdc, .hbm] s s' := by
  unfold execStepStart at h
  have hK := Moves.refl [.regs, .shadowS, .shadowF, .mem, .ans, .flt, .pwr, .tb, .seq, .links, .tst, .cmp, .lib, .acq, .mea, .src, .tdc, .hbm] s
  all_goals injection h with h
  all_goals subst h
  iterate 60 all_goals first
    | with_reducible assumption
    | ((with_reducible apply guarded_moves (hw := ?w)); case w => rfl)
    | ((with_reducible apply stepStart_moves (hw := ?w)); case w => rfl)
    | intro _
    | dsimp only
    | split

theorem execStepAbort_moves (q : Req) {s s' : State} (h : execStepAbort q s = .next s') : Moves [.regs, .mem, .ans, .pwr, .seq, .links, .src, .hbm] s s' := by
  unfold execStepAbort at h
  have hK := Moves.refl [.regs, .mem, .ans, .pwr, .seq, .links, .src, .hbm] s
  all_goals injection h with h
  all_goals subst h
  iterate 60 all_goals first
    | with_reducible assumption
    | ((with_reducible apply guarded_moves (hw := ?w)); case w => rfl)
    | ((with_reducible apply answer_moves (hw := ?w)); case w => rfl)
    | ((with_reducible apply abortStep_moves (hw := ?w)); case w => rfl)
    | intro _
    | dsimp only
    | split

theorem execStepListResident_moves {s s' : State} (h : execStepListResident s = .next s') : Moves [.regs, .mem, .ans, .flt, .pwr, .seq, .links, .lib, .src, .hbm] s s' := by
  unfold execStepListResident at h
  have hK := Moves.refl [.regs, .mem, .ans, .flt, .pwr, .seq, .links, .lib, .src, .hbm] s
  all_goals injection h with h
  all_goals subst h
  iterate 60 all_goals first
    | with_reducible assumption
    | ((with_reducible apply listResident_moves (hw := ?w)); case w => rfl)
    | ((with_reducible apply requestStepLists_moves (hw := ?w)); case w => rfl)
    | intro _
    | dsimp only
    | split

theorem execStepAtPassed_moves {s s' : State} (h : execStepAtPassed s = .next s') : Moves [.regs, .mem, .flt, .pwr, .seq, .src, .hbm] s s' := by
  unfold execStepAtPassed at h
  have hK := Moves.refl [.regs, .mem, .flt, .pwr, .seq, .src, .hbm] s
  all_goals injection h with h
  all_goals subst h
  iterate 60 all_goals first
    | with_reducible assumption
    | ((with_reducible apply stepAtPassed_moves (hw := ?w)); case w => rfl)
    | intro _
    | dsimp only
    | split

theorem execStepVectorZero_moves {s s' : State} (h : execStepVectorZero s = .next s') : Moves [.regs, .pwr, .seq, .trg, .mea] s s' := by
  unfold execStepVectorZero at h
  have hK := Moves.refl [.regs, .pwr, .seq, .trg, .mea] s
  all_goals injection h with h
  all_goals subst h
  iterate 60 all_goals first
    | with_reducible assumption
    | ((with_reducible apply vectorZero_moves (hw := ?w)); case w => rfl)
    | intro _
    | dsimp only
    | split

theorem execStepEnd_moves {s s' : State} (h : execStepEnd s = .next s') : Moves [.regs, .mem, .net, .pwr, .seq, .links, .acq, .src, .tdc, .hbm, .sch] s s' := by
  unfold execStepEnd at h
  have hK := Moves.refl [.regs, .mem, .net, .pwr, .seq, .links, .acq, .src, .tdc, .hbm, .sch] s
  all_goals injection h with h
  all_goals subst h
  iterate 60 all_goals first
    | with_reducible assumption
    | ((with_reducible apply stepEnd_moves (hw := ?w)); case w => rfl)
    | intro _
    | dsimp only
    | split

end Sys2Proof.Laws
end

