-- ==== Sys2Proof/Laws/MovesFaults.lean ====
section
/-! SUPPORT. What the operations of Machine/Faults.lean may change of the state, and that they keep what no operation breaks. -/

namespace Sys2Proof.Laws

open Sys2Proof Sys2Proof.Machine

theorem takeoverTime_moves (r : FaultRec) {M : List Part} {s0 s : State} (hw : inMask [.freeIdx] M = true) (h0 : Moves M s0 s) : Moves M s0 (takeoverTime r s).2 := by
  refine Moves.via (N := [.freeIdx]) ?_ hw h0
  clear hw h0
  have hK := Moves.refl [.freeIdx] s
  unfold takeoverTime
  iterate 60 all_goals first
    | with_reducible assumption
    | ((with_reducible apply freeNat_movesE (hE := by assumption) (hw := ?w)); case w => rfl)
    | ((with_reducible apply freeNat_moves (hw := ?w)); case w => rfl)
    | intro _
    | dsimp only
    | split
theorem takeoverTime_movesE {r : FaultRec} {w0} {M : List Part} {s0 s s' : State} (hE : takeoverTime r s = (w0, s')) (hw : inMask [.freeIdx] M = true) (h0 : Moves M s0 s) : Moves M s0 s' := by
  have k := takeoverTime_moves (hw := hw) (h0 := h0) (r := r)
  rw [hE] at k
  exact k

theorem abandonLoad_moves {M : List Part} {s0 s : State} (hw : inMask [.regs, .ans, .net, .img] M = true) (h0 : Moves M s0 s) : Moves M s0 (abandonLoad s) := by
  refine Moves.via (N := [.regs, .ans, .net, .img]) ?_ hw h0
  clear hw h0
  have hK := Moves.refl [.regs, .ans, .net, .img] s
  unfold abandonLoad
  iterate 60 all_goals first
    | with_reducible assumption
    | ((with_reducible apply setRegN_moves (hw := ?w)); case w => rfl)
    | ((with_reducible apply finishOpen_moves (hw := ?w)); case w => rfl)
    | ((with_reducible apply setFld_moves (hw := ?w)); case w => rfl)
    | intro _
    | dsimp only
    | split
    | ((with_reducible apply Moves.update) <;> first | (with_reducible exact Or.inl rfl) | exact Or.inr (by decide) | skip)

theorem haltReaction_moves {M : List Part} {s0 s : State} (hw : inMask [.regs, .mem, .ans, .net, .flt, .img, .pwr, .seq, .links, .src, .hbm] M = true) (h0 : Moves M s0 s) : Moves M s0 (haltReaction s) := by
  refine Moves.via (N := [.regs, .mem, .ans, .net, .flt, .img, .pwr, .seq, .links, .src, .hbm]) ?_ hw h0
  clear hw h0
  have hK := Moves.refl [.regs, .mem, .ans, .net, .flt, .img, .pwr, .seq, .links, .src, .hbm] s
  unfold haltReaction
  iterate 60 all_goals first
    | with_reducible assumption
    | ((with_reducible apply abortStep_moves (hw := ?w)); case w => rfl)
    | ((with_reducible apply showDma_moves (hw := ?w)); case w => rfl)
    | ((with_reducible apply abandonLoad_moves (hw := ?w)); case w => rfl)
    | intro _
    | dsimp only
    | split
    | ((with_reducible apply Moves.update) <;> first | (with_reducible exact Or.inl rfl) | exact Or.inr (by decide) | skip)

theorem graveReaction_moves {M : List Part} {s0 s : State} (hw : inMask [.regs, .mem, .ans, .net, .flt, .img, .pwr, .seq, .links, .src, .hbm] M = true) (h0 : Moves M s0 s) : Moves M s0 (graveReaction s) := by
  refine Moves.via (N := [.regs, .mem, .ans, .net, .flt, .img, .pwr, .seq, .links, .src, .hbm]) ?_ hw h0
  clear hw h0
  have hK := Moves.refl [.regs, .mem, .ans, .net, .flt, .img, .pwr, .seq, .links, .src, .hbm] s
  unfold graveReaction
  iterate 60 all_goals first
    | with_reducible assumption
    | ((with_reducible apply abandonLoad_moves (hw := ?w)); case w => rfl)
    | ((with_reducible apply abortStep_moves (hw := ?w)); case w => rfl)
    | intro _
    | dsimp only
    | split
    | ((with_reducible apply Moves.update) <;> first | (with_reducible exact Or.inl rfl) | exact Or.inr (by decide) | skip)

theorem railsOff_moves {M : List Part} {s0 s : State} (hw : inMask [.regs, .mem, .ans, .net, .flt, .pwr, .lanes, .seq, .links, .tst, .cmp, .trg, .mea, .src, .tdc, .hbm] M = true) (h0 : Moves M s0 s) : Moves M s0 (railsOff s) := by
  refine Moves.via (N := [.regs, .mem, .ans, .net, .flt, .pwr, .lanes, .seq, .links, .tst, .cmp, .trg, .mea, .src, .tdc, .hbm]) ?_ hw h0
  clear hw h0
  have hK := Moves.refl [.regs, .mem, .ans, .net, .flt, .pwr, .lanes, .seq, .links, .tst, .cmp, .trg, .mea, .src, .tdc, .hbm] s
  unfold railsOff
  iterate 60 all_goals first
    | with_reducible assumption
    | ((with_reducible apply clearStep_moves (hw := ?w)); case w => rfl)
    | ((with_reducible apply modLane_moves (hw := ?w)); case w => rfl)
    | ((with_reducible apply leaveActive_moves (hw := ?w)); case w => rfl)
    | ((with_reducible apply enterDetect_moves (hw := ?w)); case w => rfl)
    | with_reducible apply Moves.foldl
    | intro _
    | dsimp only
    | split
    | ((with_reducible apply Moves.update) <;> first | (with_reducible exact Or.inl rfl) | exact Or.inr (by decide) | skip)

theorem classReaction_moves (r : FaultRec) {M : List Part} {s0 s : State} (hw : inMask [.regs, .mem, .ans, .net, .flt, .img, .pwr, .lanes, .seq, .links, .tst, .cmp, .trg, .mea, .src, .tdc, .hbm] M = true) (h0 : Moves M s0 s) : Moves M s0 (classReaction r s) := by
  refine Moves.via (N := [.regs, .mem, .ans, .net, .flt, .img, .pwr, .lanes, .seq, .links, .tst, .cmp, .trg, .mea, .src, .tdc, .hbm]) ?_ hw h0
  clear hw h0
  have hK := Moves.refl [.regs, .mem, .ans, .net, .flt, .img, .pwr, .lanes, .seq, .links, .tst, .cmp, .trg, .mea, .src, .tdc, .hbm] s
  unfold classReaction
  iterate 60 all_goals first
    | with_reducible assumption
    | ((with_reducible apply orReg_moves (hw := ?w)); case w => rfl)
    | ((with_reducible apply graveReaction_moves (hw := ?w)); case w => rfl)
    | ((with_reducible apply railsOff_moves (hw := ?w)); case w => rfl)
    | ((with_reducible apply haltReaction_moves (hw := ?w)); case w => rfl)
    | intro _
    | dsimp only
    | split

theorem checkLedger_moves (n : Nat) {M : List Part} {s0 s : State} (hw : inMask [.regs, .flt, .lgr] M = true) (h0 : Moves M s0 s) : Moves M s0 (checkLedger s n) := by
  refine Moves.via (N := [.regs, .flt, .lgr]) ?_ hw h0
  clear hw h0
  have hK := Moves.refl [.regs, .flt, .lgr] s
  unfold checkLedger
  iterate 60 all_goals first
    | with_reducible assumption
    | ((with_reducible apply freezeLedger_moves (hw := ?w)); case w => rfl)
    | intro _
    | dsimp only
    | split

theorem countRecord_moves (r : FaultRec) {M : List Part} {s0 s : State} (hw : inMask [.regs, .flt] M = true) (h0 : Moves M s0 s) : Moves M s0 (countRecord r s) := by
  refine Moves.via (N := [.regs, .flt]) ?_ hw h0
  clear hw h0
  have hK := Moves.refl [.regs, .flt] s
  unfold countRecord
  iterate 60 all_goals first
    | with_reducible assumption
    | ((with_reducible apply incSat_moves (hw := ?w)); case w => rfl)
    | intro _
    | dsimp only
    | split
    | ((with_reducible apply Moves.update) <;> first | (with_reducible exact Or.inl rfl) | exact Or.inr (by decide) | skip)

theorem deliverRecord_moves (r : FaultRec) {M : List Part} {s0 s : State} (hw : inMask [.freeIdx, .regs, .net, .flt] M = true) (h0 : Moves M s0 s) : Moves M s0 (deliverRecord r s) := by
  have w1 {A} (h : inMask A [.freeIdx, .regs, .net, .flt] = true) : inMask A M = true := inMask_trans h hw
  have hu {t : State} (c : Collector) (h : Moves M s0 t) : Moves M s0 { t with flt := c } := by
    (with_reducible apply Moves.update) <;> first | (with_reducible exact Or.inl rfl) | exact Or.inr (mem_of_inMask hw _ (by decide)) | exact h
  unfold deliverRecord
  split
  next ns t hE =>
  exact pushRec_moves (hw := w1 rfl) (h0 := hu _ (setRegs_moves (hw := w1 rfl) (h0 := takeoverTime_movesE (hE := hE) (hw := w1 rfl) (h0 := h0)) ..)) ..

theorem faultHandle_moves {M : List Part} {s0 s : State} (hw : inMask [.freeIdx, .regs, .mem, .ans, .net, .flt, .lgr, .img, .pwr, .lanes, .seq, .links, .tst, .cmp, .trg, .mea, .src, .tdc, .hbm] M = true) (h0 : Moves M s0 s) : Moves M s0 (faultHandle s) := by
  refine Moves.via (N := [.freeIdx, .regs, .mem, .ans, .net, .flt, .lgr, .img, .pwr, .lanes, .seq, .links, .tst, .cmp, .trg, .mea, .src, .tdc, .hbm]) ?_ hw h0
  clear hw h0
  have hK := Moves.refl [.freeIdx, .regs, .mem, .ans, .net, .flt, .lgr, .img, .pwr, .lanes, .seq, .links, .tst, .cmp, .trg, .mea, .src, .tdc, .hbm] s
  unfold faultHandle
  iterate 60 all_goals first
    | with_reducible assumption
    | ((with_reducible apply classReaction_moves (hw := ?w)); case w => rfl)
    | ((with_reducible apply checkLedger_moves (hw := ?w)); case w => rfl)
    | ((with_reducible apply countRecord_moves (hw := ?w)); case w => rfl)
    | ((with_reducible apply deliverRecord_moves (hw := ?w)); case w => rfl)
    | with_reducible apply Moves.foldl
    | intro _
    | dsimp only
    | split
    | ((with_reducible apply Moves.update) <;> first | (with_reducible exact Or.inl rfl) | exact Or.inr (by decide) | skip)

theorem selfCheck_moves (agree passed : Bool) {M : List Part} {s0 s : State} (hw : inMask [.regs, .flt] M = true) (h0 : Moves M s0 s) : Moves M s0 (selfCheck agree passed s) := by
  refine Moves.via (N := [.regs, .flt]) ?_ hw h0
  clear hw h0
  have hK := Moves.refl [.regs, .flt] s
  unfold selfCheck
  iterate 60 all_goals first
    | with_reducible assumption
    | ((with_reducible apply raise_moves (hw := ?w)); case w => rfl)
    | intro _
    | dsimp only
    | split

theorem showSingle_moves (uc unit : Nat) {M : List Part} {s0 s : State} (hw : inMask [.regs] M = true) (h0 : Moves M s0 s) : Moves M s0 (showSingle uc unit s) := by
  refine Moves.via (N := [.regs]) ?_ hw h0
  clear hw h0
  have hK := Moves.refl [.regs] s
  unfold showSingle
  iterate 60 all_goals first
    | with_reducible assumption
    | ((with_reducible apply setBit_moves (hw := ?w)); case w => rfl)
    | ((with_reducible apply orReg_moves (hw := ?w)); case w => rfl)
    | intro _
    | dsimp only
    | split

theorem fenceCopy_moves (uc unit copy cause : Nat) {M : List Part} {s0 s : State} (hw : inMask [.regs, .flt] M = true) (h0 : Moves M s0 s) : Moves M s0 (fenceCopy uc unit copy cause s) := by
  refine Moves.via (N := [.regs, .flt]) ?_ hw h0
  clear hw h0
  have hK := Moves.refl [.regs, .flt] s
  unfold fenceCopy
  iterate 60 all_goals first
    | with_reducible assumption
    | ((with_reducible apply raise_moves (hw := ?w)); case w => rfl)
    | ((with_reducible apply showSingle_moves (hw := ?w)); case w => rfl)
    | ((with_reducible apply markOneCopy_moves (hw := ?w)); case w => rfl)
    | ((with_reducible apply fenceUnit_moves (hw := ?w)); case w => rfl)
    | intro _
    | dsimp only
    | split

theorem fenceDatapath_moves (d cause : Nat) {M : List Part} {s0 s : State} (hw : inMask [.regs, .flt, .mea] M = true) (h0 : Moves M s0 s) : Moves M s0 (fenceDatapath d cause s) := by
  refine Moves.via (N := [.regs, .flt, .mea]) ?_ hw h0
  clear hw h0
  have hK := Moves.refl [.regs, .flt, .mea] s
  unfold fenceDatapath
  iterate 60 all_goals first
    | with_reducible assumption
    | ((with_reducible apply orReg_moves (hw := ?w)); case w => rfl)
    | ((with_reducible apply raise_moves (hw := ?w)); case w => rfl)
    | ((with_reducible apply useSpare_moves (hw := ?w)); case w => rfl)
    | ((with_reducible apply fenceUnit_moves (hw := ?w)); case w => rfl)
    | ((with_reducible apply setRegN_moves (hw := ?w)); case w => rfl)
    | intro _
    | dsimp only
    | split
    | ((with_reducible apply Moves.update) <;> first | (with_reducible exact Or.inl rfl) | exact Or.inr (by decide) | skip)

theorem fenceLane_moves (u cause : Nat) {M : List Part} {s0 s : State} (hw : inMask [.regs, .mem, .ans, .net, .flt, .lanes, .seq, .links, .tst, .cmp, .trg, .mea, .tdc, .hbm] M = true) (h0 : Moves M s0 s) : Moves M s0 (fenceLane u cause s) := by
  refine Moves.via (N := [.regs, .mem, .ans, .net, .flt, .lanes, .seq, .links, .tst, .cmp, .trg, .mea, .tdc, .hbm]) ?_ hw h0
  clear hw h0
  have hK := Moves.refl [.regs, .mem, .ans, .net, .flt, .lanes, .seq, .links, .tst, .cmp, .trg, .mea, .tdc, .hbm] s
  unfold fenceLane
  iterate 60 all_goals first
    | with_reducible assumption
    | ((with_reducible apply raise_moves (hw := ?w)); case w => rfl)
    | ((with_reducible apply fenceUnit_moves (hw := ?w)); case w => rfl)
    | ((with_reducible apply leaveActive_moves (hw := ?w)); case w => rfl)
    | ((with_reducible apply enterDetect_moves (hw := ?w)); case w => rfl)
    | ((with_reducible apply modLane_moves (hw := ?w)); case w => rfl)
    | intro _
    | dsimp only
    | split

theorem fencePort_moves (p cause : Nat) {M : List Part} {s0 s : State} (hw : inMask [.regs, .net, .flt] M = true) (h0 : Moves M s0 s) : Moves M s0 (fencePort p cause s) := by
  refine Moves.via (N := [.regs, .net, .flt]) ?_ hw h0
  clear hw h0
  have hK := Moves.refl [.regs, .net, .flt] s
  unfold fencePort
  iterate 60 all_goals first
    | with_reducible assumption
    | ((with_reducible apply raise_moves (hw := ?w)); case w => rfl)
    | ((with_reducible apply fenceUnit_moves (hw := ?w)); case w => rfl)
    | intro _
    | dsimp only
    | split
    | ((with_reducible apply Moves.update) <;> first | (with_reducible exact Or.inl rfl) | exact Or.inr (by decide) | skip)

theorem fenceAs_moves (uc unit cause : Nat) {M : List Part} {s0 s : State} (hw : inMask [.regs, .mem, .ans, .net, .flt, .img, .lanes, .seq, .links, .tst, .cmp, .trg, .mea, .tdc, .qdr, .hbm, .sch, .dma] M = true) (h0 : Moves M s0 s) : Moves M s0 (fenceAs uc unit cause s) := by
  refine Moves.via (N := [.regs, .mem, .ans, .net, .flt, .img, .lanes, .seq, .links, .tst, .cmp, .trg, .mea, .tdc, .qdr, .hbm, .sch, .dma]) ?_ hw h0
  clear hw h0
  have hK := Moves.refl [.regs, .mem, .ans, .net, .flt, .img, .lanes, .seq, .links, .tst, .cmp, .trg, .mea, .tdc, .qdr, .hbm, .sch, .dma] s
  unfold fenceAs
  iterate 60 all_goals first
    | with_reducible assumption
    | ((with_reducible apply raise_moves (hw := ?w)); case w => rfl)
    | ((with_reducible apply contextFault_moves (hw := ?w)); case w => rfl)
    | ((with_reducible apply coreMismatch_moves (hw := ?w)); case w => rfl)
    | ((with_reducible apply fenceDatapath_moves (hw := ?w)); case w => rfl)
    | ((with_reducible apply useSpare_moves (hw := ?w)); case w => rfl)
    | ((with_reducible apply fenceUnit_moves (hw := ?w)); case w => rfl)
    | ((with_reducible apply engineFault_moves (hw := ?w)); case w => rfl)
    | ((with_reducible apply fencePc_moves (hw := ?w)); case w => rfl)
    | ((with_reducible apply fencePhy_moves (hw := ?w)); case w => rfl)
    | ((with_reducible apply fenceLane_moves (hw := ?w)); case w => rfl)
    | ((with_reducible apply fencePort_moves (hw := ?w)); case w => rfl)
    | ((with_reducible apply takePool_moves (hw := ?w)); case w => rfl)
    | ((with_reducible apply orReg_moves (hw := ?w)); case w => rfl)
    | ((with_reducible apply cellMismatch_moves (hw := ?w)); case w => rfl)
    | ((with_reducible apply fenceCopy_moves (hw := ?w)); case w => rfl)
    | intro _
    | dsimp only
    | split

theorem fenceMarked_moves (uc unit cause : Nat) (f : FaultRec → FaultRec) {M : List Part} {s0 s : State} (hw : inMask [.regs, .mem, .ans, .net, .flt, .img, .lanes, .seq, .links, .tst, .cmp, .trg, .mea, .tdc, .qdr, .hbm, .sch, .dma] M = true) (h0 : Moves M s0 s) : Moves M s0 (fenceMarked uc unit cause f s) := by
  refine Moves.via (N := [.regs, .mem, .ans, .net, .flt, .img, .lanes, .seq, .links, .tst, .cmp, .trg, .mea, .tdc, .qdr, .hbm, .sch, .dma]) ?_ hw h0
  clear hw h0
  have hK := Moves.refl [.regs, .mem, .ans, .net, .flt, .img, .lanes, .seq, .links, .tst, .cmp, .trg, .mea, .tdc, .qdr, .hbm, .sch, .dma] s
  unfold fenceMarked
  iterate 60 all_goals first
    | with_reducible assumption
    | ((with_reducible apply fenceAs_moves (hw := ?w)); case w => rfl)
    | intro _
    | dsimp only
    | split
    | ((with_reducible apply Moves.update) <;> first | (with_reducible exact Or.inl rfl) | exact Or.inr (by decide) | skip)

theorem wireFault_moves (uc unit : Nat) {M : List Part} {s0 s : State} (hw : inMask [.regs, .mem, .ans, .net, .flt, .img, .lanes, .seq, .links, .tst, .cmp, .trg, .mea, .tdc, .qdr, .hbm, .sch, .dma] M = true) (h0 : Moves M s0 s) : Moves M s0 (wireFault uc unit s) := by
  refine Moves.via (N := [.regs, .mem, .ans, .net, .flt, .img, .lanes, .seq, .links, .tst, .cmp, .trg, .mea, .tdc, .qdr, .hbm, .sch, .dma]) ?_ hw h0
  clear hw h0
  have hK := Moves.refl [.regs, .mem, .ans, .net, .flt, .img, .lanes, .seq, .links, .tst, .cmp, .trg, .mea, .tdc, .qdr, .hbm, .sch, .dma] s
  unfold wireFault
  iterate 60 all_goals first
    | with_reducible assumption
    | ((with_reducible apply incSat_moves (hw := ?w)); case w => rfl)
    | ((with_reducible apply raise_moves (hw := ?w)); case w => rfl)
    | ((with_reducible apply fenceMarked_moves (hw := ?w)); case w => rfl)
    | intro _
    | dsimp only
    | split

theorem faultInject_moves (v : Word) {M : List Part} {s0 s : State} (hw : inMask [.regs, .mem, .ans, .net, .flt, .img, .lanes, .seq, .links, .tst, .cmp, .trg, .mea, .tdc, .qdr, .hbm, .sch, .dma] M = true) (h0 : Moves M s0 s) : Moves M s0 (faultInject v s) := by
  refine Moves.via (N := [.regs, .mem, .ans, .net, .flt, .img, .lanes, .seq, .links, .tst, .cmp, .trg, .mea, .tdc, .qdr, .hbm, .sch, .dma]) ?_ hw h0
  clear hw h0
  have hK := Moves.refl [.regs, .mem, .ans, .net, .flt, .img, .lanes, .seq, .links, .tst, .cmp, .trg, .mea, .tdc, .qdr, .hbm, .sch, .dma] s
  unfold faultInject
  iterate 60 all_goals first
    | with_reducible assumption
    | ((with_reducible apply refuseIf_moves (hw := ?w)); case w => rfl)
    | ((with_reducible apply answer_moves (hw := ?w)); case w => rfl)
    | ((with_reducible apply fenceMarked_moves (hw := ?w)); case w => rfl)
    | ((with_reducible apply raise_moves (hw := ?w)); case w => rfl)
    | intro _
    | dsimp only
    | split

theorem knownAnswerEnd_moves (uc unit : Nat) (failing : Option Nat) {M : List Part} {s0 s : State} (hw : inMask [.regs, .flt, .mea] M = true) (h0 : Moves M s0 s) : Moves M s0 (knownAnswerEnd uc unit failing s) := by
  refine Moves.via (N := [.regs, .flt, .mea]) ?_ hw h0
  clear hw h0
  have hK := Moves.refl [.regs, .flt, .mea] s
  unfold knownAnswerEnd
  iterate 60 all_goals first
    | with_reducible assumption
    | ((with_reducible apply raise_moves (hw := ?w)); case w => rfl)
    | ((with_reducible apply fenceDatapath_moves (hw := ?w)); case w => rfl)
    | ((with_reducible apply fenceCopy_moves (hw := ?w)); case w => rfl)
    | intro _
    | dsimp only
    | split
    | ((with_reducible apply Moves.update) <;> first | (with_reducible exact Or.inl rfl) | exact Or.inr (by decide) | skip)

theorem execFaultReport_moves (cls : Fin 5) (unitClass unit cause : Nat) (detail0 detail1 : BitVec 64) {s s' : State} (h : execFaultReport cls unitClass unit cause detail0 detail1 s = .next s') : Moves [.regs, .flt] s s' := by
  unfold execFaultReport at h
  have hK := Moves.refl [.regs, .flt] s
  all_goals injection h with h
  all_goals subst h
  iterate 60 all_goals first
    | with_reducible assumption
    | ((with_reducible apply raise_moves (hw := ?w)); case w => rfl)
    | intro _
    | dsimp only
    | split

theorem execWireFault_moves (unitClass unit : Nat) {s s' : State} (h : execWireFault unitClass unit s = .next s') : Moves [.regs, .mem, .ans, .net, .flt, .img, .lanes, .seq, .links, .tst, .cmp, .trg, .mea, .tdc, .qdr, .hbm, .sch, .dma] s s' := by
  unfold execWireFault at h
  have hK := Moves.refl [.regs, .mem, .ans, .net, .flt, .img, .lanes, .seq, .links, .tst, .cmp, .trg, .mea, .tdc, .qdr, .hbm, .sch, .dma] s
  all_goals injection h with h
  all_goals subst h
  iterate 60 all_goals first
    | with_reducible assumption
    | ((with_reducible apply wireFault_moves (hw := ?w)); case w => rfl)
    | intro _
    | dsimp only
    | split

theorem execFaultHandle_moves {s s' : State} (h : execFaultHandle s = .next s') : Moves [.freeIdx, .regs, .mem, .ans, .net, .flt, .lgr, .img, .pwr, .lanes, .seq, .links, .tst, .cmp, .trg, .mea, .src, .tdc, .hbm] s s' := by
  unfold execFaultHandle at h
  have hK := Moves.refl [.freeIdx, .regs, .mem, .ans, .net, .flt, .lgr, .img, .pwr, .lanes, .seq, .links, .tst, .cmp, .trg, .mea, .src, .tdc, .hbm] s
  all_goals injection h with h
  all_goals subst h
  iterate 60 all_goals first
    | with_reducible assumption
    | ((with_reducible apply faultHandle_moves (hw := ?w)); case w => rfl)
    | intro _
    | dsimp only
    | split

theorem execCollectorSelfCheck_moves (agree passed : Bool) {s s' : State} (h : execCollectorSelfCheck agree passed s = .next s') : Moves [.regs, .flt] s s' := by
  unfold execCollectorSelfCheck at h
  have hK := Moves.refl [.regs, .flt] s
  all_goals injection h with h
  all_goals subst h
  iterate 60 all_goals first
    | with_reducible assumption
    | ((with_reducible apply selfCheck_moves (hw := ?w)); case w => rfl)
    | intro _
    | dsimp only
    | split

theorem execFaultInject_moves (q : Req) (value : Word) {s s' : State} (h : execFaultInject q value s = .next s') : Moves [.regs, .mem, .ans, .net, .flt, .img, .lanes, .seq, .links, .tst, .cmp, .trg, .mea, .tdc, .qdr, .hbm, .sch, .dma] s s' := by
  unfold execFaultInject at h
  have hK := Moves.refl [.regs, .mem, .ans, .net, .flt, .img, .lanes, .seq, .links, .tst, .cmp, .trg, .mea, .tdc, .qdr, .hbm, .sch, .dma] s
  all_goals injection h with h
  all_goals subst h
  iterate 60 all_goals first
    | with_reducible assumption
    | ((with_reducible apply guarded_moves (hw := ?w)); case w => rfl)
    | ((with_reducible apply faultInject_moves (hw := ?w)); case w => rfl)
    | intro _
    | dsimp only
    | split

theorem execAlertClear_moves (q : Req) (value : Word) {s s' : State} (h : execAlertClear q value s = .next s') : Moves [.regs, .ans] s s' := by
  unfold execAlertClear at h
  have hK := Moves.refl [.regs, .ans] s
  all_goals injection h with h
  all_goals subst h
  iterate 60 all_goals first
    | with_reducible assumption
    | ((with_reducible apply guarded_moves (hw := ?w)); case w => rfl)
    | ((with_reducible apply answer_moves (hw := ?w)); case w => rfl)
    | ((with_reducible apply setReg_moves (hw := ?w)); case w => rfl)
    | intro _
    | dsimp only
    | split

theorem execKnownAnswerTestEnd_moves (unitClass unit : Nat) (failing : Option (Fin 2)) {s s' : State} (h : execKnownAnswerTestEnd unitClass unit failing s = .next s') : Moves [.regs, .flt, .mea] s s' := by
  unfold execKnownAnswerTestEnd at h
  have hK := Moves.refl [.regs, .flt, .mea] s
  all_goals injection h with h
  all_goals subst h
  iterate 60 all_goals first
    | with_reducible assumption
    | ((with_reducible apply knownAnswerEnd_moves (hw := ?w)); case w => rfl)
    | intro _
    | dsimp only
    | split

theorem execLedgerReadLatch_moves (q : Req) (n : Fin 16) {s s' : State} (h : execLedgerReadLatch q n s = .next s') : Moves [.regs, .ans] s s' := by
  unfold execLedgerReadLatch at h
  have hK := Moves.refl [.regs, .ans] s
  all_goals injection h with h
  all_goals subst h
  iterate 60 all_goals first
    | with_reducible assumption
    | ((with_reducible apply guardedRead_moves (hw := ?w)); case w => rfl)
    | ((with_reducible apply ledgerRead_movesE (hE := by assumption) (hw := ?w)); case w => rfl)
    | ((with_reducible apply ledgerRead_moves (hw := ?w)); case w => rfl)
    | ((with_reducible apply answerData_moves (hw := ?w)); case w => rfl)
    | intro _
    | dsimp only
    | split

end Sys2Proof.Laws
end

