-- ==== Sys2Proof/Laws/MovesImage.lean ====
section
/-! SUPPORT. What the operations of Machine/Image.lean may change of the state, and that they keep what no operation breaks. -/

namespace Sys2Proof.Laws

open Sys2Proof Sys2Proof.Machine

theorem sparesNotice_moves (slot : Nat) (x : Spares) {M : List Part} {s0 s : State} (hw : inMask [.regs, .flt] M = true) (h0 : Moves M s0 s) : Moves M s0 (sparesNotice slot x s) := by
  refine Moves.via (N := [.regs, .flt]) ?_ hw h0
  clear hw h0
  have hK := Moves.refl [.regs, .flt] s
  unfold sparesNotice
  iterate 60 all_goals first
    | with_reducible assumption
    | ((with_reducible apply raise_moves (hw := ?w)); case w => rfl)
    | intro _
    | dsimp only
    | split

theorem showSums_moves (a : Nat) (x : AdmitSums) {M : List Part} {s0 s : State} (hw : inMask [.regs] M = true) (h0 : Moves M s0 s) : Moves M s0 (showSums a x s) := by
  refine Moves.via (N := [.regs]) ?_ hw h0
  clear hw h0
  have hK := Moves.refl [.regs] s
  unfold showSums
  iterate 60 all_goals first
    | with_reducible assumption
    | ((with_reducible apply setRegs_moves (hw := ?w)); case w => rfl)
    | intro _
    | dsimp only
    | split

theorem reportCheck_moves (k : Nat) (r : CheckResult) {M : List Part} {s0 s : State} (hw : inMask [.regs] M = true) (h0 : Moves M s0 s) : Moves M s0 (reportCheck k r s) := by
  refine Moves.via (N := [.regs]) ?_ hw h0
  clear hw h0
  have hK := Moves.refl [.regs] s
  unfold reportCheck
  iterate 60 all_goals first
    | with_reducible assumption
    | ((with_reducible apply setBit_moves (hw := ?w)); case w => rfl)
    | ((with_reducible apply setFld_moves (hw := ?w)); case w => rfl)
    | ((with_reducible apply setRegN_moves (hw := ?w)); case w => rfl)
    | ((with_reducible apply showSums_moves (hw := ?w)); case w => rfl)
    | intro _
    | dsimp only
    | split

theorem tryAdmit_moves (a b : CryptoObs) (x0 : List Nat) {M : List Part} {s0 s : State} (hw : inMask [.regs] M = true) (h0 : Moves M s0 s) : Moves M s0 (tryAdmit a b x0 s).2 := by
  refine Moves.via (N := [.regs]) ?_ hw h0
  clear hw h0
  induction x0 generalizing a b s with
  | nil =>
    have hK := Moves.refl [.regs] s
    unfold tryAdmit
    iterate 60 all_goals first
      | with_reducible assumption
      | ((with_reducible apply reportCheck_moves (hw := ?w)); case w => rfl)
      | intro _
      | dsimp only
      | split
  | cons x xs ih =>
    have hK := Moves.refl [.regs] s
    unfold tryAdmit
    iterate 60 all_goals first
      | with_reducible assumption
      | ((with_reducible apply reportCheck_moves (hw := ?w)); case w => rfl)
      | with_reducible refine Moves.trans ?_ (Moves.of2 ‹tryAdmit _ _ _ _ = _› (ih ..))
      | with_reducible refine Moves.trans ?_ (ih ..)
      | intro _
      | dsimp only
      | split
theorem tryAdmit_movesE {a b : CryptoObs} {x0 : List Nat} {w0} {M : List Part} {s0 s s' : State} (hE : tryAdmit a b x0 s = (w0, s')) (hw : inMask [.regs] M = true) (h0 : Moves M s0 s) : Moves M s0 s' := by
  have k := tryAdmit_moves (hw := hw) (h0 := h0) (a := a) (b := b) (x0 := x0)
  rw [hE] at k
  exact k

theorem selectImage_moves (a b : CryptoObs) {M : List Part} {s0 s : State} (hw : inMask [.regs, .flt] M = true) (h0 : Moves M s0 s) : Moves M s0 (selectImage a b s).2 := by
  refine Moves.via (N := [.regs, .flt]) ?_ hw h0
  clear hw h0
  have hK := Moves.refl [.regs, .flt] s
  unfold selectImage
  iterate 60 all_goals first
    | with_reducible assumption
    | ((with_reducible apply reportCheck_moves (hw := ?w)); case w => rfl)
    | ((with_reducible apply imageNotice_moves (hw := ?w)); case w => rfl)
    | ((with_reducible apply tryAdmit_movesE (hE := by assumption) (hw := ?w)); case w => rfl)
    | ((with_reducible apply tryAdmit_moves (hw := ?w)); case w => rfl)
    | intro _
    | dsimp only
    | split
theorem selectImage_movesE {a b : CryptoObs} {w0} {M : List Part} {s0 s s' : State} (hE : selectImage a b s = (w0, s')) (hw : inMask [.regs, .flt] M = true) (h0 : Moves M s0 s) : Moves M s0 s' := by
  have k := selectImage_moves (hw := hw) (h0 := h0) (a := a) (b := b)
  rw [hE] at k
  exact k

theorem applyGroupRole_moves (g : Nat) {M : List Part} {s0 s : State} (hw : inMask [.regs, .links] M = true) (h0 : Moves M s0 s) : Moves M s0 (applyGroupRole s g) := by
  refine Moves.via (N := [.regs, .links]) ?_ hw h0
  clear hw h0
  have hK := Moves.refl [.regs, .links] s
  unfold applyGroupRole
  iterate 60 all_goals first
    | with_reducible assumption
    | ((with_reducible apply setRegN_moves (hw := ?w)); case w => rfl)
    | ((with_reducible apply setFld_moves (hw := ?w)); case w => rfl)
    | ((with_reducible apply modLink_moves (hw := ?w)); case w => rfl)
    | with_reducible apply Moves.foldl
    | intro _
    | dsimp only
    | split

theorem resetContext_moves (c : Nat) {M : List Part} {s0 s : State} (hw : inMask [.regs, .seq] M = true) (h0 : Moves M s0 s) : Moves M s0 (resetContext s c) := by
  refine Moves.via (N := [.regs, .seq]) ?_ hw h0
  clear hw h0
  have hK := Moves.refl [.regs, .seq] s
  unfold resetContext
  iterate 60 all_goals first
    | with_reducible assumption
    | ((with_reducible apply modCtx_moves (hw := ?w)); case w => rfl)
    | ((with_reducible apply showCtx_moves (hw := ?w)); case w => rfl)
    | ((with_reducible apply setRegN_moves (hw := ?w)); case w => rfl)
    | intro _
    | dsimp only
    | split

theorem switchLanes_moves (old : Image) (g : Nat) {M : List Part} {s0 s : State} (hw : inMask [.regs, .mem, .ans, .net, .flt, .lanes, .seq, .links, .tst, .cmp, .trg, .mea, .tdc, .hbm] M = true) (h0 : Moves M s0 s) : Moves M s0 (switchLanes old s g) := by
  refine Moves.via (N := [.regs, .mem, .ans, .net, .flt, .lanes, .seq, .links, .tst, .cmp, .trg, .mea, .tdc, .hbm]) ?_ hw h0
  clear hw h0
  have hK := Moves.refl [.regs, .mem, .ans, .net, .flt, .lanes, .seq, .links, .tst, .cmp, .trg, .mea, .tdc, .hbm] s
  unfold switchLanes
  iterate 60 all_goals first
    | with_reducible assumption
    | ((with_reducible apply commandDetect_moves (hw := ?w)); case w => rfl)
    | ((with_reducible apply setBit_moves (hw := ?w)); case w => rfl)
    | ((with_reducible apply modLink_moves (hw := ?w)); case w => rfl)
    | with_reducible apply Moves.foldl
    | intro _
    | dsimp only
    | split

theorem endLoad_moves {M : List Part} {s0 s : State} (hw : inMask [.regs, .ans, .net, .img] M = true) (h0 : Moves M s0 s) : Moves M s0 (endLoad s) := by
  refine Moves.via (N := [.regs, .ans, .net, .img]) ?_ hw h0
  clear hw h0
  have hK := Moves.refl [.regs, .ans, .net, .img] s
  unfold endLoad
  iterate 60 all_goals first
    | with_reducible assumption
    | ((with_reducible apply finishOpen_moves (hw := ?w)); case w => rfl)
    | ((with_reducible apply setFld_moves (hw := ?w)); case w => rfl)
    | intro _
    | dsimp only
    | split
    | ((with_reducible apply Moves.update) <;> first | (with_reducible exact Or.inl rfl) | exact Or.inr (by decide) | skip)

theorem checkLoadDone_moves {M : List Part} {s0 s : State} (hw : inMask [.regs, .ans, .net, .img] M = true) (h0 : Moves M s0 s) : Moves M s0 (checkLoadDone s) := by
  refine Moves.via (N := [.regs, .ans, .net, .img]) ?_ hw h0
  clear hw h0
  have hK := Moves.refl [.regs, .ans, .net, .img] s
  unfold checkLoadDone
  iterate 60 all_goals first
    | with_reducible assumption
    | ((with_reducible apply endLoad_moves (hw := ?w)); case w => rfl)
    | intro _
    | dsimp only
    | split

theorem applyImage_moves (slot : Nat) (m : Image) (x : AdmitSums) (coreRead : Bool) {M : List Part} {s0 s : State} (hw : inMask [.regs, .shadowS, .shadowF, .mem, .flt, .lgr, .img, .pwr, .sec, .seq, .links, .tst, .mea, .hbm, .sch] M = true)
    (h0 : Moves M s0 s) : Moves M s0 (applyImage slot m x coreRead s) := by
  refine Moves.via (N := [.regs, .shadowS, .shadowF, .mem, .flt, .lgr, .img, .pwr, .sec, .seq, .links, .tst, .mea, .hbm, .sch]) ?_ hw h0
  clear hw h0
  have hK := Moves.refl [.regs, .shadowS, .shadowF, .mem, .flt, .lgr, .img, .pwr, .sec, .seq, .links, .tst, .mea, .hbm, .sch] s
  have hu {t : State} (i : ImgState) (f : Collector) (p : Power) (a b : List (Nat × Word)) (y : Sec) (hs : y.state = t.sec.state) (hc : y.cmd = t.sec.cmd)
      (h : Moves [.regs, .shadowS, .shadowF, .mem, .flt, .lgr, .img, .pwr, .sec, .seq, .links, .tst, .mea, .hbm, .sch] s t) : Moves [.regs, .shadowS, .shadowF, .mem, .flt, .lgr, .img, .pwr, .sec, .seq, .links, .tst, .mea, .hbm, .sch] s { t with img := i, flt := f, sec := y, pwr := p, shadowS := a, shadowF := b } := by
    refine Moves.secSame (s := { t with img := i, flt := f, pwr := p, shadowS := a, shadowF := b }) y (by decide) hs (.inl hc) ?_
    (with_reducible apply Moves.update) <;> first | (with_reducible exact Or.inl rfl) | exact Or.inr (by decide) | exact h
  unfold applyImage
  extract_lets intact t m2 epoch q1 q2 q3 q4 s1 s2 s3 s4 s5 s6 s7 s8 s9 s10 s11 s12 s13
  have ht : Moves [.regs, .shadowS, .shadowF, .mem, .flt, .lgr, .img, .pwr, .sec, .seq, .links, .tst, .mea, .hbm, .sch] s t := by
    dsimp only [t]
    split
    · exact hK
    · exact sparesNotice_moves (hw := rfl) (h0 := hK) ..
  clear_value t
  have h1 : Moves [.regs, .shadowS, .shadowF, .mem, .flt, .lgr, .img, .pwr, .sec, .seq, .links, .tst, .mea, .hbm, .sch] s s1 := hu _ _ _ _ _ _ rfl rfl ht
  clear_value s1
  have h5 : Moves [.regs, .shadowS, .shadowF, .mem, .flt, .lgr, .img, .pwr, .sec, .seq, .links, .tst, .mea, .hbm, .sch] s s5 := setRegN_moves (hw := rfl) (h0 := showSums_moves (hw := rfl) (h0 := setRegs_moves (hw := rfl) (h0 := setRegN_moves (hw := rfl) (h0 := set64_moves (hw := rfl) (h0 := h1) ..) ..) ..) ..) ..
  clear_value s5
  have h7 : Moves [.regs, .shadowS, .shadowF, .mem, .flt, .lgr, .img, .pwr, .sec, .seq, .links, .tst, .mea, .hbm, .sch] s s7 := Moves.foldl (fun _ _ h => applyGroupRole_moves (hw := rfl) (h0 := h) ..) _ (setBit_moves (hw := rfl) (h0 := setRegN_moves (hw := rfl) (h0 := h5) ..) ..)
  clear_value s7
  have h8 : Moves [.regs, .shadowS, .shadowF, .mem, .flt, .lgr, .img, .pwr, .sec, .seq, .links, .tst, .mea, .hbm, .sch] s s8 := applyDspMap_moves (hw := rfl) (h0 := applyTsets_moves (hw := rfl) (h0 := h7) ..) ..
  clear_value s8
  have h9 : Moves [.regs, .shadowS, .shadowF, .mem, .flt, .lgr, .img, .pwr, .sec, .seq, .links, .tst, .mea, .hbm, .sch] s s9 := applySched_moves (hw := rfl) (h0 := applyRoute_moves (hw := rfl) (h0 := h8) ..) ..
  clear_value s9
  have h10 : Moves [.regs, .shadowS, .shadowF, .mem, .flt, .lgr, .img, .pwr, .sec, .seq, .links, .tst, .mea, .hbm, .sch] s s10 := showDma_moves (hw := rfl) (h0 := applyDmaFree_moves (hw := rfl) (h0 := h9) ..)
  clear_value s10
  have h11 : Moves [.regs, .shadowS, .shadowF, .mem, .flt, .lgr, .img, .pwr, .sec, .seq, .links, .tst, .mea, .hbm, .sch] s s11 := Moves.foldl (fun _ _ h => resetContext_moves (hw := rfl) (h0 := h) ..) _ (setRegN_moves (hw := rfl) (h0 := h10) ..)
  clear_value s11
  have h12 : Moves [.regs, .shadowS, .shadowF, .mem, .flt, .lgr, .img, .pwr, .sec, .seq, .links, .tst, .mea, .hbm, .sch] s s12 := Moves.foldl (fun _ _ h => setRegN_moves (hw := rfl) (h0 := h) ..) _ h11
  clear_value s12
  have h13 : Moves [.regs, .shadowS, .shadowF, .mem, .flt, .lgr, .img, .pwr, .sec, .seq, .links, .tst, .mea, .hbm, .sch] s s13 := Moves.foldl (fun _ _ h => setRegN_moves (hw := rfl) (h0 := setRegN_moves (hw := rfl) (h0 := h) ..) ..) _ h12
  clear_value s13
  exact rebaseLedgers_moves (hw := rfl) (h0 := showLogRate_moves (hw := rfl) (h0 := h13))

theorem switchTo_moves (slot : Nat) (m : Image) (x : AdmitSums) (coreRead : Bool) {M : List Part} {s0 s : State} (hw : inMask [.regs, .shadowS, .shadowF, .mem, .ans, .net, .flt, .lgr, .img, .pwr, .sec, .lanes, .seq, .links, .tst, .cmp, .trg, .mea, .tdc, .hbm, .sch] M = true) (h0 : Moves M s0 s) : Moves M s0 (switchTo slot m x coreRead s) := by
  refine Moves.via (N := [.regs, .shadowS, .shadowF, .mem, .ans, .net, .flt, .lgr, .img, .pwr, .sec, .lanes, .seq, .links, .tst, .cmp, .trg, .mea, .tdc, .hbm, .sch]) ?_ hw h0
  clear hw h0
  have hK := Moves.refl [.regs, .shadowS, .shadowF, .mem, .ans, .net, .flt, .lgr, .img, .pwr, .sec, .lanes, .seq, .links, .tst, .cmp, .trg, .mea, .tdc, .hbm, .sch] s
  unfold switchTo
  iterate 60 all_goals first
    | with_reducible assumption
    | ((with_reducible apply applyImage_moves (hw := ?w)); case w => rfl)
    | ((with_reducible apply switchLanes_moves (hw := ?w)); case w => rfl)
    | with_reducible apply Moves.foldl
    | intro _
    | dsimp only
    | split

theorem beginLoad_moves (q : Req) (auto : Bool) (slot : Nat) {M : List Part} {s0 s : State} (hw : inMask [.regs, .ans, .net, .img] M = true) (h0 : Moves M s0 s) : Moves M s0 (beginLoad q auto slot s) := by
  refine Moves.via (N := [.regs, .ans, .net, .img]) ?_ hw h0
  clear hw h0
  have hK := Moves.refl [.regs, .ans, .net, .img] s
  unfold beginLoad
  iterate 60 all_goals first
    | with_reducible assumption
    | ((with_reducible apply refuseIf_moves (hw := ?w)); case w => rfl)
    | ((with_reducible apply deferAnswer_moves (hw := ?w)); case w => rfl)
    | ((with_reducible apply setFld_moves (hw := ?w)); case w => rfl)
    | intro _
    | dsimp only
    | split
    | ((with_reducible apply Moves.update) <;> first | (with_reducible exact Or.inl rfl) | exact Or.inr (by decide) | skip)

theorem beginVerify_moves (q : Req) (slot : Nat) {M : List Part} {s0 s : State} (hw : inMask [.ans, .net, .img] M = true) (h0 : Moves M s0 s) : Moves M s0 (beginVerify q slot s) := by
  refine Moves.via (N := [.ans, .net, .img]) ?_ hw h0
  clear hw h0
  have hK := Moves.refl [.ans, .net, .img] s
  unfold beginVerify
  iterate 60 all_goals first
    | with_reducible assumption
    | ((with_reducible apply refuseIf_moves (hw := ?w)); case w => rfl)
    | ((with_reducible apply deferAnswer_moves (hw := ?w)); case w => rfl)
    | intro _
    | dsimp only
    | split
    | ((with_reducible apply Moves.update) <;> first | (with_reducible exact Or.inl rfl) | exact Or.inr (by decide) | skip)

theorem verifyEnd_moves (c : CryptoObs) {M : List Part} {s0 s : State} (hw : inMask [.regs, .ans, .net, .img] M = true) (h0 : Moves M s0 s) : Moves M s0 (verifyEnd c s) := by
  refine Moves.via (N := [.regs, .ans, .net, .img]) ?_ hw h0
  clear hw h0
  have hK := Moves.refl [.regs, .ans, .net, .img] s
  unfold verifyEnd
  iterate 60 all_goals first
    | with_reducible assumption
    | ((with_reducible apply reportCheck_moves (hw := ?w)); case w => rfl)
    | ((with_reducible apply finishOpen_moves (hw := ?w)); case w => rfl)
    | intro _
    | dsimp only
    | split
    | ((with_reducible apply Moves.update) <;> first | (with_reducible exact Or.inl rfl) | exact Or.inr (by decide) | skip)

theorem loadDrainMet_moves (a b : CryptoObs) {M : List Part} {s0 s : State} (hw : inMask [.regs, .flt, .img] M = true) (h0 : Moves M s0 s) : Moves M s0 (loadDrainMet a b s) := by
  refine Moves.via (N := [.regs, .flt, .img]) ?_ hw h0
  clear hw h0
  have hK := Moves.refl [.regs, .flt, .img] s
  unfold loadDrainMet
  iterate 60 all_goals first
    | with_reducible assumption
    | ((with_reducible apply selectImage_movesE (hE := by assumption) (hw := ?w)); case w => rfl)
    | ((with_reducible apply selectImage_moves (hw := ?w)); case w => rfl)
    | ((with_reducible apply reportCheck_moves (hw := ?w)); case w => rfl)
    | intro _
    | dsimp only
    | split
    | ((with_reducible apply Moves.update) <;> first | (with_reducible exact Or.inl rfl) | exact Or.inr (by decide) | skip)

theorem failLoad_moves (code : Nat) {M : List Part} {s0 s : State} (hw : inMask [.regs, .ans, .net, .img] M = true) (h0 : Moves M s0 s) : Moves M s0 (failLoad code s) := by
  refine Moves.via (N := [.regs, .ans, .net, .img]) ?_ hw h0
  clear hw h0
  have hK := Moves.refl [.regs, .ans, .net, .img] s
  unfold failLoad
  iterate 60 all_goals first
    | with_reducible assumption
    | ((with_reducible apply finishOpen_moves (hw := ?w)); case w => rfl)
    | ((with_reducible apply setFld_moves (hw := ?w)); case w => rfl)
    | intro _
    | dsimp only
    | split
    | ((with_reducible apply Moves.update) <;> first | (with_reducible exact Or.inl rfl) | exact Or.inr (by decide) | skip)

theorem loadDrainTimeout_moves {M : List Part} {s0 s : State} (hw : inMask [.regs, .ans, .net, .img] M = true) (h0 : Moves M s0 s) : Moves M s0 (loadDrainTimeout s) := by
  refine Moves.via (N := [.regs, .ans, .net, .img]) ?_ hw h0
  clear hw h0
  have hK := Moves.refl [.regs, .ans, .net, .img] s
  unfold loadDrainTimeout
  iterate 60 all_goals first
    | with_reducible assumption
    | ((with_reducible apply failLoad_moves (hw := ?w)); case w => rfl)
    | intro _
    | dsimp only
    | split

theorem loadCheckFailure_moves {M : List Part} {s0 s : State} (hw : inMask [.regs, .ans, .net, .img] M = true) (h0 : Moves M s0 s) : Moves M s0 (loadCheckFailure s) := by
  refine Moves.via (N := [.regs, .ans, .net, .img]) ?_ hw h0
  clear hw h0
  have hK := Moves.refl [.regs, .ans, .net, .img] s
  unfold loadCheckFailure
  iterate 60 all_goals first
    | with_reducible assumption
    | ((with_reducible apply failLoad_moves (hw := ?w)); case w => rfl)
    | intro _
    | dsimp only
    | split

theorem loadSwitch_moves (coreRead : Bool) {M : List Part} {s0 s : State} (hw : inMask [.regs, .shadowS, .shadowF, .mem, .ans, .net, .flt, .lgr, .img, .pwr, .sec, .lanes, .seq, .links, .tst, .cmp, .trg, .mea, .tdc, .hbm, .sch] M = true) (h0 : Moves M s0 s) : Moves M s0 (loadSwitch coreRead s) := by
  refine Moves.via (N := [.regs, .shadowS, .shadowF, .mem, .ans, .net, .flt, .lgr, .img, .pwr, .sec, .lanes, .seq, .links, .tst, .cmp, .trg, .mea, .tdc, .hbm, .sch]) ?_ hw h0
  clear hw h0
  have hK := Moves.refl [.regs, .shadowS, .shadowF, .mem, .ans, .net, .flt, .lgr, .img, .pwr, .sec, .lanes, .seq, .links, .tst, .cmp, .trg, .mea, .tdc, .hbm, .sch] s
  unfold loadSwitch
  iterate 60 all_goals first
    | with_reducible assumption
    | ((with_reducible apply switchTo_moves (hw := ?w)); case w => rfl)
    | ((with_reducible apply checkLoadDone_moves (hw := ?w)); case w => rfl)
    | intro _
    | dsimp only
    | split
    | ((with_reducible apply Moves.update) <;> first | exact Or.inr (by decide) | (with_reducible exact Or.inl rfl) | skip)

theorem loadRetrainTimeout_moves {M : List Part} {s0 s : State} (hw : inMask [.regs, .ans, .net, .flt, .img] M = true) (h0 : Moves M s0 s) : Moves M s0 (loadRetrainTimeout s) := by
  refine Moves.via (N := [.regs, .ans, .net, .flt, .img]) ?_ hw h0
  clear hw h0
  have hK := Moves.refl [.regs, .ans, .net, .flt, .img] s
  unfold loadRetrainTimeout
  iterate 60 all_goals first
    | with_reducible assumption
    | ((with_reducible apply raise_moves (hw := ?w)); case w => rfl)
    | ((with_reducible apply endLoad_moves (hw := ?w)); case w => rfl)
    | with_reducible apply Moves.foldl
    | intro _
    | dsimp only
    | split
    | ((with_reducible apply Moves.update) <;> first | (with_reducible exact Or.inl rfl) | exact Or.inr (by decide) | skip)

theorem execImgVerify_moves (q : Req) (slot : Fin 2) {s s' : State} (h : execImgVerify q slot s = .next s') : Moves [.ans, .net, .img] s s' := by
  unfold execImgVerify at h
  have hK := Moves.refl [.ans, .net, .img] s
  all_goals injection h with h
  all_goals subst h
  iterate 60 all_goals first
    | with_reducible assumption
    | ((with_reducible apply guarded_moves (hw := ?w)); case w => rfl)
    | ((with_reducible apply beginVerify_moves (hw := ?w)); case w => rfl)
    | intro _
    | dsimp only
    | split

theorem execImgLoad_moves (q : Req) (slot : Fin 2) {s s' : State} (h : execImgLoad q slot s = .next s') : Moves [.regs, .ans, .net, .img] s s' := by
  unfold execImgLoad at h
  have hK := Moves.refl [.regs, .ans, .net, .img] s
  all_goals injection h with h
  all_goals subst h
  iterate 60 all_goals first
    | with_reducible assumption
    | ((with_reducible apply guarded_moves (hw := ?w)); case w => rfl)
    | ((with_reducible apply beginLoad_moves (hw := ?w)); case w => rfl)
    | intro _
    | dsimp only
    | split

theorem execLoadAuto_moves (q : Req) {s s' : State} (h : execLoadAuto q s = .next s') : Moves [.regs, .ans, .net, .img] s s' := by
  unfold execLoadAuto at h
  have hK := Moves.refl [.regs, .ans, .net, .img] s
  all_goals injection h with h
  all_goals subst h
  iterate 60 all_goals first
    | with_reducible assumption
    | ((with_reducible apply guarded_moves (hw := ?w)); case w => rfl)
    | ((with_reducible apply beginLoad_moves (hw := ?w)); case w => rfl)
    | intro _
    | dsimp only
    | split

theorem execLoadDrainMet_moves (obsA obsB : CryptoObs) {s s' : State} (h : execLoadDrainMet obsA obsB s = .next s') : Moves [.regs, .flt, .img] s s' := by
  unfold execLoadDrainMet at h
  have hK := Moves.refl [.regs, .flt, .img] s
  all_goals injection h with h
  all_goals subst h
  iterate 60 all_goals first
    | with_reducible assumption
    | ((with_reducible apply loadDrainMet_moves (hw := ?w)); case w => rfl)
    | intro _
    | dsimp only
    | split

theorem execLoadDrainTimeout_moves {s s' : State} (h : execLoadDrainTimeout s = .next s') : Moves [.regs, .ans, .net, .img] s s' := by
  unfold execLoadDrainTimeout at h
  have hK := Moves.refl [.regs, .ans, .net, .img] s
  all_goals injection h with h
  all_goals subst h
  iterate 60 all_goals first
    | with_reducible assumption
    | ((with_reducible apply loadDrainTimeout_moves (hw := ?w)); case w => rfl)
    | intro _
    | dsimp only
    | split

theorem execLoadCheckFailure_moves {s s' : State} (h : execLoadCheckFailure s = .next s') : Moves [.regs, .ans, .net, .img] s s' := by
  unfold execLoadCheckFailure at h
  have hK := Moves.refl [.regs, .ans, .net, .img] s
  all_goals injection h with h
  all_goals subst h
  iterate 60 all_goals first
    | with_reducible assumption
    | ((with_reducible apply loadCheckFailure_moves (hw := ?w)); case w => rfl)
    | intro _
    | dsimp only
    | split

theorem execLoadRetrainTimeout_moves {s s' : State} (h : execLoadRetrainTimeout s = .next s') : Moves [.regs, .ans, .net, .flt, .img] s s' := by
  unfold execLoadRetrainTimeout at h
  have hK := Moves.refl [.regs, .ans, .net, .flt, .img] s
  all_goals injection h with h
  all_goals subst h
  iterate 60 all_goals first
    | with_reducible assumption
    | ((with_reducible apply loadRetrainTimeout_moves (hw := ?w)); case w => rfl)
    | intro _
    | dsimp only
    | split

theorem execVerifyEnd_moves (obs : CryptoObs) {s s' : State} (h : execVerifyEnd obs s = .next s') : Moves [.regs, .ans, .net, .img] s s' := by
  unfold execVerifyEnd at h
  have hK := Moves.refl [.regs, .ans, .net, .img] s
  all_goals injection h with h
  all_goals subst h
  iterate 60 all_goals first
    | with_reducible assumption
    | ((with_reducible apply verifyEnd_moves (hw := ?w)); case w => rfl)
    | intro _
    | dsimp only
    | split

end Sys2Proof.Laws
end

