-- ==== Sys2Proof/Laws/MovesSessions.lean ====
section
/-! SUPPORT. What the operations of Machine/Sessions.lean may change of the state, and that they keep what no operation breaks. -/

namespace Sys2Proof.Laws

open Sys2Proof Sys2Proof.Machine

theorem showCredit_moves {M : List Part} {s0 s : State} (hw : inMask [.regs] M = true) (h0 : Moves M s0 s) : Moves M s0 (showCredit s) := by
  refine Moves.via (N := [.regs]) ?_ hw h0
  clear hw h0
  have hK := Moves.refl [.regs] s
  unfold showCredit
  iterate 60 all_goals first
    | with_reducible assumption
    | ((with_reducible apply setRegN_moves (hw := ?w)); case w => rfl)
    | intro _
    | dsimp only
    | split

theorem modStream_moves (n : Nat) (f : Stream → Stream) {M : List Part} {s0 s : State} (hw : inMask [.net] M = true) (h0 : Moves M s0 s) : Moves M s0 (modStream n f s) := by
  refine Moves.via (N := [.net]) ?_ hw h0
  clear hw h0
  have hK := Moves.refl [.net] s
  unfold modStream
  iterate 60 all_goals first
    | with_reducible assumption
    | intro _
    | dsimp only
    | split
    | ((with_reducible apply Moves.update) <;> first | (with_reducible exact Or.inl rfl) | exact Or.inr (by decide) | skip)

theorem closeStreams_moves (p : Stream → Bool) {M : List Part} {s0 s : State} (hw : inMask [.regs, .net] M = true) (h0 : Moves M s0 s) : Moves M s0 (closeStreams p s) := by
  refine Moves.via (N := [.regs, .net]) ?_ hw h0
  clear hw h0
  have hK := Moves.refl [.regs, .net] s
  unfold closeStreams
  iterate 60 all_goals first
    | with_reducible assumption
    | ((with_reducible apply showCredit_moves (hw := ?w)); case w => rfl)
    | ((with_reducible apply incWrap_moves (hw := ?w)); case w => rfl)
    | intro _
    | dsimp only
    | split
    | ((with_reducible apply Moves.update) <;> first | (with_reducible exact Or.inl rfl) | exact Or.inr (by decide) | skip)

theorem openStream_moves (k : Nat) (p : StreamReq) {M : List Part} {s0 s : State} (hw : inMask [.regs, .net] M = true) (h0 : Moves M s0 s) : Moves M s0 (openStream k p s).2.2 := by
  refine Moves.via (N := [.regs, .net]) ?_ hw h0
  clear hw h0
  have hK := Moves.refl [.regs, .net] s
  unfold openStream
  iterate 60 all_goals first
    | with_reducible assumption
    | ((with_reducible apply showCredit_moves (hw := ?w)); case w => rfl)
    | ((with_reducible apply incWrap_moves (hw := ?w)); case w => rfl)
    | intro _
    | dsimp only
    | split
    | ((with_reducible apply Moves.update) <;> first | (with_reducible exact Or.inl rfl) | exact Or.inr (by decide) | skip)
theorem openStream_movesE {k : Nat} {p : StreamReq} {w0 w1} {M : List Part} {s0 s s' : State} (hE : openStream k p s = (w0, w1, s')) (hw : inMask [.regs, .net] M = true) (h0 : Moves M s0 s) : Moves M s0 s' := by
  have k := openStream_moves (hw := hw) (h0 := h0) (k := k) (p := p)
  rw [hE] at k
  exact k

theorem creditStream_moves (k n c : Nat) {M : List Part} {s0 s : State} (hw : inMask [.regs, .net] M = true) (h0 : Moves M s0 s) : Moves M s0 (creditStream k n c s).2 := by
  refine Moves.via (N := [.regs, .net]) ?_ hw h0
  clear hw h0
  have hK := Moves.refl [.regs, .net] s
  unfold creditStream
  iterate 60 all_goals first
    | with_reducible assumption
    | ((with_reducible apply showCredit_moves (hw := ?w)); case w => rfl)
    | ((with_reducible apply incWrap_moves (hw := ?w)); case w => rfl)
    | ((with_reducible apply modStream_moves (hw := ?w)); case w => rfl)
    | intro _
    | dsimp only
    | split
theorem creditStream_movesE {k n c : Nat} {w0} {M : List Part} {s0 s s' : State} (hE : creditStream k n c s = (w0, s')) (hw : inMask [.regs, .net] M = true) (h0 : Moves M s0 s) : Moves M s0 s' := by
  have k := creditStream_moves (hw := hw) (h0 := h0) (k := k) (n := n) (c := c)
  rw [hE] at k
  exact k

theorem closeStream_moves (k n : Nat) {M : List Part} {s0 s : State} (hw : inMask [.regs, .net] M = true) (h0 : Moves M s0 s) : Moves M s0 (closeStream k n s).2 := by
  refine Moves.via (N := [.regs, .net]) ?_ hw h0
  clear hw h0
  have hK := Moves.refl [.regs, .net] s
  unfold closeStream
  iterate 60 all_goals first
    | with_reducible assumption
    | ((with_reducible apply closeStreams_moves (hw := ?w)); case w => rfl)
    | intro _
    | dsimp only
    | split
theorem closeStream_movesE {k n : Nat} {w0} {M : List Part} {s0 s s' : State} (hE : closeStream k n s = (w0, s')) (hw : inMask [.regs, .net] M = true) (h0 : Moves M s0 s) : Moves M s0 s' := by
  have k := closeStream_moves (hw := hw) (h0 := h0) (k := k) (n := n)
  rw [hE] at k
  exact k

theorem streamSend_moves (n : Nat) {M : List Part} {s0 s : State} (hw : inMask [.regs, .net] M = true) (h0 : Moves M s0 s) : Moves M s0 (streamSend n s) := by
  refine Moves.via (N := [.regs, .net]) ?_ hw h0
  clear hw h0
  have hK := Moves.refl [.regs, .net] s
  unfold streamSend
  iterate 60 all_goals first
    | with_reducible assumption
    | ((with_reducible apply modStream_moves (hw := ?w)); case w => rfl)
    | ((with_reducible apply sendMsg_moves (hw := ?w)); case w => rfl)
    | ((with_reducible apply showCredit_moves (hw := ?w)); case w => rfl)
    | ((with_reducible apply incWrap_moves (hw := ?w)); case w => rfl)
    | intro _
    | dsimp only
    | split

theorem lapseOffer_moves {M : List Part} {s0 s : State} (hw : inMask [.regs, .net] M = true) (h0 : Moves M s0 s) : Moves M s0 (lapseOffer s) := by
  refine Moves.via (N := [.regs, .net]) ?_ hw h0
  clear hw h0
  have hK := Moves.refl [.regs, .net] s
  unfold lapseOffer
  iterate 60 all_goals first
    | with_reducible assumption
    | ((with_reducible apply showOwner_moves (hw := ?w)); case w => rfl)
    | ((with_reducible apply respond_moves (hw := ?w)); case w => rfl)
    | intro _
    | dsimp only
    | split
    | ((with_reducible apply Moves.update) <;> first | (with_reducible exact Or.inl rfl) | exact Or.inr (by decide) | skip)

theorem vacate_moves {M : List Part} {s0 s : State} (hw : inMask [.regs, .net] M = true) (h0 : Moves M s0 s) : Moves M s0 (vacate s) := by
  refine Moves.via (N := [.regs, .net]) ?_ hw h0
  clear hw h0
  have hK := Moves.refl [.regs, .net] s
  unfold vacate
  iterate 60 all_goals first
    | with_reducible assumption
    | ((with_reducible apply lapseOffer_moves (hw := ?w)); case w => rfl)
    | ((with_reducible apply setRegN_moves (hw := ?w)); case w => rfl)
    | ((with_reducible apply showOwner_moves (hw := ?w)); case w => rfl)
    | intro _
    | dsimp only
    | split
    | ((with_reducible apply Moves.update) <;> first | (with_reducible exact Or.inl rfl) | exact Or.inr (by decide) | skip)

theorem becomeOwner_moves (k how : Nat) {M : List Part} {s0 s : State} (hw : inMask [.regs, .net] M = true) (h0 : Moves M s0 s) : Moves M s0 (becomeOwner k how s) := by
  refine Moves.via (N := [.regs, .net]) ?_ hw h0
  clear hw h0
  have hK := Moves.refl [.regs, .net] s
  unfold becomeOwner
  iterate 60 all_goals first
    | with_reducible assumption
    | ((with_reducible apply closeStreams_moves (hw := ?w)); case w => rfl)
    | ((with_reducible apply incSat_moves (hw := ?w)); case w => rfl)
    | ((with_reducible apply modSess_moves (hw := ?w)); case w => rfl)
    | ((with_reducible apply sendMsg_moves (hw := ?w)); case w => rfl)
    | ((with_reducible apply respond_moves (hw := ?w)); case w => rfl)
    | ((with_reducible apply showOwner_moves (hw := ?w)); case w => rfl)
    | ((with_reducible apply pushEvent_moves (hw := ?w)); case w => rfl)
    | with_reducible apply Moves.foldl
    | intro _
    | dsimp only
    | split
    | ((with_reducible apply Moves.update) <;> first | (with_reducible exact Or.inl rfl) | exact Or.inr (by decide) | skip)

theorem answerClaim_moves (status : Nat) (c : Nat × Nat) {M : List Part} {s0 s : State} (hw : inMask [.regs, .net] M = true) (h0 : Moves M s0 s) : Moves M s0 (answerClaim status s c) := by
  refine Moves.via (N := [.regs, .net]) ?_ hw h0
  clear hw h0
  have hK := Moves.refl [.regs, .net] s
  unfold answerClaim
  iterate 60 all_goals first
    | with_reducible assumption
    | ((with_reducible apply respond_moves (hw := ?w)); case w => rfl)
    | intro _
    | dsimp only
    | split

theorem electionClose_moves {M : List Part} {s0 s : State} (hw : inMask [.regs, .net] M = true) (h0 : Moves M s0 s) : Moves M s0 (electionClose s) := by
  refine Moves.via (N := [.regs, .net]) ?_ hw h0
  clear hw h0
  have hK := Moves.refl [.regs, .net] s
  unfold electionClose
  iterate 60 all_goals first
    | with_reducible assumption
    | ((with_reducible apply showOwner_moves (hw := ?w)); case w => rfl)
    | ((with_reducible apply becomeOwner_moves (hw := ?w)); case w => rfl)
    | ((with_reducible apply modSess_moves (hw := ?w)); case w => rfl)
    | ((with_reducible apply answerClaim_moves (hw := ?w)); case w => rfl)
    | with_reducible apply Moves.foldl
    | intro _
    | dsimp only
    | split
    | ((with_reducible apply Moves.update) <;> first | (with_reducible exact Or.inl rfl) | exact Or.inr (by decide) | skip)

theorem closeSession_moves (k : Nat) {M : List Part} {s0 s : State} (hw : inMask [.regs, .net] M = true) (h0 : Moves M s0 s) : Moves M s0 (closeSession k s) := by
  refine Moves.via (N := [.regs, .net]) ?_ hw h0
  clear hw h0
  have hK := Moves.refl [.regs, .net] s
  unfold closeSession
  iterate 60 all_goals first
    | with_reducible assumption
    | ((with_reducible apply showSess_moves (hw := ?w)); case w => rfl)
    | ((with_reducible apply modSess_moves (hw := ?w)); case w => rfl)
    | ((with_reducible apply vacate_moves (hw := ?w)); case w => rfl)
    | ((with_reducible apply closeStreams_moves (hw := ?w)); case w => rfl)
    | ((with_reducible apply showOwner_moves (hw := ?w)); case w => rfl)
    | ((with_reducible apply pushEvent_moves (hw := ?w)); case w => rfl)
    | intro _
    | dsimp only
    | split
    | ((with_reducible apply Moves.update) <;> first | (with_reducible exact Or.inl rfl) | exact Or.inr (by decide) | skip)

theorem closeAll_moves {M : List Part} {s0 s : State} (hw : inMask [.regs, .net] M = true) (h0 : Moves M s0 s) : Moves M s0 (closeAll s) := by
  refine Moves.via (N := [.regs, .net]) ?_ hw h0
  clear hw h0
  have hK := Moves.refl [.regs, .net] s
  unfold closeAll
  iterate 60 all_goals first
    | with_reducible assumption
    | ((with_reducible apply closeSession_moves (hw := ?w)); case w => rfl)
    | with_reducible apply Moves.foldl
    | intro _
    | dsimp only
    | split

theorem modPort_moves (p : Nat) (f : Port → Port) {M : List Part} {s0 s : State} (hw : inMask [.regs, .net] M = true) (h0 : Moves M s0 s) : Moves M s0 (modPort p f s) := by
  refine Moves.via (N := [.regs, .net]) ?_ hw h0
  clear hw h0
  have hK := Moves.refl [.regs, .net] s
  unfold modPort
  iterate 60 all_goals first
    | with_reducible assumption
    | ((with_reducible apply setBit_moves (hw := ?w)); case w => rfl)
    | ((with_reducible apply setFld_moves (hw := ?w)); case w => rfl)
    | intro _
    | dsimp only
    | split
    | ((with_reducible apply Moves.update) <;> first | (with_reducible exact Or.inl rfl) | exact Or.inr (by decide) | skip)

theorem restartPort_moves (p : Nat) {M : List Part} {s0 s : State} (hw : inMask [.regs, .net] M = true) (h0 : Moves M s0 s) : Moves M s0 (restartPort p s) := by
  refine Moves.via (N := [.regs, .net]) ?_ hw h0
  clear hw h0
  have hK := Moves.refl [.regs, .net] s
  unfold restartPort
  iterate 60 all_goals first
    | with_reducible assumption
    | ((with_reducible apply modPort_moves (hw := ?w)); case w => rfl)
    | intro _
    | dsimp only
    | split

theorem portUp_moves (p : Nat) {M : List Part} {s0 s : State} (hw : inMask [.regs, .net] M = true) (h0 : Moves M s0 s) : Moves M s0 (portUp p s) := by
  refine Moves.via (N := [.regs, .net]) ?_ hw h0
  clear hw h0
  have hK := Moves.refl [.regs, .net] s
  unfold portUp
  iterate 60 all_goals first
    | with_reducible assumption
    | ((with_reducible apply modPort_moves (hw := ?w)); case w => rfl)
    | intro _
    | dsimp only
    | split

theorem portTimeout_moves (p : Nat) {M : List Part} {s0 s : State} (hw : inMask [.regs, .net] M = true) (h0 : Moves M s0 s) : Moves M s0 (portTimeout p s) := by
  refine Moves.via (N := [.regs, .net]) ?_ hw h0
  clear hw h0
  have hK := Moves.refl [.regs, .net] s
  unfold portTimeout
  iterate 60 all_goals first
    | with_reducible assumption
    | ((with_reducible apply modPort_moves (hw := ?w)); case w => rfl)
    | intro _
    | dsimp only
    | split

theorem portLoss_moves (p : Nat) {M : List Part} {s0 s : State} (hw : inMask [.regs, .net] M = true) (h0 : Moves M s0 s) : Moves M s0 (portLoss p s) := by
  refine Moves.via (N := [.regs, .net]) ?_ hw h0
  clear hw h0
  have hK := Moves.refl [.regs, .net] s
  unfold portLoss
  iterate 60 all_goals first
    | with_reducible assumption
    | ((with_reducible apply restartPort_moves (hw := ?w)); case w => rfl)
    | ((with_reducible apply setFld_moves (hw := ?w)); case w => rfl)
    | intro _
    | dsimp only
    | split

theorem ethFrame_moves (p : Nat) (f : EthFrame) {M : List Part} {s0 s : State} (hw : inMask [.regs, .net] M = true) (h0 : Moves M s0 s) : Moves M s0 (ethFrame p f s) := by
  refine Moves.via (N := [.regs, .net]) ?_ hw h0
  clear hw h0
  have hK := Moves.refl [.regs, .net] s
  unfold ethFrame
  iterate 60 all_goals first
    | with_reducible assumption
    | ((with_reducible apply modPort_moves (hw := ?w)); case w => rfl)
    | ((with_reducible apply incSat_moves (hw := ?w)); case w => rfl)
    | intro _
    | dsimp only
    | split

theorem setHostEntry_moves (n : Nat) (e : HostEntry) {M : List Part} {s0 s : State} (hw : inMask [.net] M = true) (h0 : Moves M s0 s) : Moves M s0 (setHostEntry n e s) := by
  refine Moves.via (N := [.net]) ?_ hw h0
  clear hw h0
  have hK := Moves.refl [.net] s
  unfold setHostEntry
  iterate 60 all_goals first
    | with_reducible assumption
    | intro _
    | dsimp only
    | split
    | ((with_reducible apply Moves.update) <;> first | (with_reducible exact Or.inl rfl) | exact Or.inr (by decide) | skip)

theorem hostWriteEntry_moves {M : List Part} {s0 s : State} (hw : inMask [.ans, .net] M = true) (h0 : Moves M s0 s) : Moves M s0 (hostWriteEntry s) := by
  refine Moves.via (N := [.ans, .net]) ?_ hw h0
  clear hw h0
  have hK := Moves.refl [.ans, .net] s
  unfold hostWriteEntry
  iterate 60 all_goals first
    | with_reducible assumption
    | ((with_reducible apply answer_moves (hw := ?w)); case w => rfl)
    | ((with_reducible apply setHostEntry_moves (hw := ?w)); case w => rfl)
    | intro _
    | dsimp only
    | split

theorem hostClearEntry_moves {M : List Part} {s0 s : State} (hw : inMask [.ans, .net] M = true) (h0 : Moves M s0 s) : Moves M s0 (hostClearEntry s) := by
  refine Moves.via (N := [.ans, .net]) ?_ hw h0
  clear hw h0
  have hK := Moves.refl [.ans, .net] s
  unfold hostClearEntry
  iterate 60 all_goals first
    | with_reducible assumption
    | ((with_reducible apply answer_moves (hw := ?w)); case w => rfl)
    | ((with_reducible apply setHostEntry_moves (hw := ?w)); case w => rfl)
    | intro _
    | dsimp only
    | split

theorem hostReadEntry_moves {M : List Part} {s0 s : State} (hw : inMask [.regs, .ans] M = true) (h0 : Moves M s0 s) : Moves M s0 (hostReadEntry s) := by
  refine Moves.via (N := [.regs, .ans]) ?_ hw h0
  clear hw h0
  have hK := Moves.refl [.regs, .ans] s
  unfold hostReadEntry
  iterate 60 all_goals first
    | with_reducible assumption
    | ((with_reducible apply answer_moves (hw := ?w)); case w => rfl)
    | ((with_reducible apply setRegs_moves (hw := ?w)); case w => rfl)
    | ((with_reducible apply setRegN_moves (hw := ?w)); case w => rfl)
    | intro _
    | dsimp only
    | split

theorem portCfgWrite_moves (a : Nat) (v : Word) {M : List Part} {s0 s : State} (hw : inMask [.regs, .shadowS, .shadowF, .ans, .net] M = true) (h0 : Moves M s0 s) : Moves M s0 (portCfgWrite a v s) := by
  refine Moves.via (N := [.regs, .shadowS, .shadowF, .ans, .net]) ?_ hw h0
  clear hw h0
  have hK := Moves.refl [.regs, .shadowS, .shadowF, .ans, .net] s
  unfold portCfgWrite
  iterate 60 all_goals first
    | with_reducible assumption
    | ((with_reducible apply answer_moves (hw := ?w)); case w => rfl)
    | ((with_reducible apply refuseIf_moves (hw := ?w)); case w => rfl)
    | ((with_reducible apply accept_moves (hw := ?w)); case w => rfl)
    | ((with_reducible apply restartPort_moves (hw := ?w)); case w => rfl)
    | intro _
    | dsimp only
    | split

end Sys2Proof.Laws
end

