-- ==== Sys2Proof/Laws/MovesSecurity.lean ====
section
/-! SUPPORT. What the operations of Machine/Security.lean may change of the state, and that they keep what no operation breaks. -/

namespace Sys2Proof.Laws

open Sys2Proof Sys2Proof.Machine

theorem showSec_moves {M : List Part} {s0 s : State} (hw : inMask [.regs] M = true) (h0 : Moves M s0 s) : Moves M s0 (showSec s) := by
  refine Moves.via (N := [.regs]) ?_ hw h0
  clear hw h0
  have hK := Moves.refl [.regs] s
  unfold showSec
  iterate 60 all_goals first
    | with_reducible assumption
    | ((with_reducible apply setRegN_moves (hw := ?w)); case w => rfl)
    | ((with_reducible apply setRegs_moves (hw := ?w)); case w => rfl)
    | with_reducible apply Moves.foldl
    | intro _
    | dsimp only
    | split

theorem modSec_moves (f : Sec → Sec) {M : List Part} {s0 s : State} (hw : inMask [.regs, .sec] M = true)
    (hf : Security.wf s0.sec = true → Security.wf s.sec = true → Security.wf (f s.sec) = true ∧ secRank s.sec.state ≤ secRank (f s.sec).state)
    (h0 : Moves M s0 s) : Moves M s0 (modSec f s) :=
  showSec_moves (hw := inMask_trans rfl hw) (h0 := Moves.sec _ (mem_of_inMask hw .sec (by decide)) hf h0)

theorem modSec_moves_same (f : Sec → Sec) {M : List Part} {s0 s : State} (hw : inMask [.regs, .sec] M = true) (hs : (f s.sec).state = s.sec.state)
    (hc : (f s.sec).cmd = s.sec.cmd ∨ (f s.sec).cmd = none) (h0 : Moves M s0 s) : Moves M s0 (modSec f s) :=
  showSec_moves (hw := inMask_trans rfl hw) (h0 := Moves.secSame _ (mem_of_inMask hw .sec (by decide)) hs hc h0)

theorem modSec_sec (f : Sec → Sec) (s : State) : (modSec f s).sec = f s.sec :=
  (showSec_moves (hw := rfl) (h0 := Moves.refl [.regs] { s with sec := f s.sec })).alters.same .sec (by decide)

theorem modSlot_moves (k : Nat) (f : KeySlot → KeySlot) {M : List Part} {s0 s : State} (hw : inMask [.regs, .sec] M = true) (h0 : Moves M s0 s) :
    Moves M s0 (modSlot k f s) := modSec_moves_same _ hw rfl (.inl rfl) h0

theorem showDebug_moves {M : List Part} {s0 s : State} (hw : inMask [.regs] M = true) (h0 : Moves M s0 s) : Moves M s0 (showDebug s) := by
  refine Moves.via (N := [.regs]) ?_ hw h0
  clear hw h0
  have hK := Moves.refl [.regs] s
  unfold showDebug
  iterate 60 all_goals first
    | with_reducible assumption
    | ((with_reducible apply setReg_moves (hw := ?w)); case w => rfl)
    | intro _
    | dsimp only
    | split

theorem modDebug_moves (f : Debug → Debug) {M : List Part} {s0 s : State} (hw : inMask [.regs, .dbg] M = true) (h0 : Moves M s0 s) : Moves M s0 (modDebug f s) := by
  refine Moves.via (N := [.regs, .dbg]) ?_ hw h0
  clear hw h0
  have hK := Moves.refl [.regs, .dbg] s
  unfold modDebug
  iterate 60 all_goals first
    | with_reducible assumption
    | ((with_reducible apply showDebug_moves (hw := ?w)); case w => rfl)
    | intro _
    | dsimp only
    | split
    | ((with_reducible apply Moves.update) <;> first | (with_reducible exact Or.inl rfl) | exact Or.inr (by decide) | skip)

theorem releaseHalts_moves {M : List Part} {s0 s : State} (hw : inMask [.regs, .seq, .sch] M = true) (h0 : Moves M s0 s) : Moves M s0 (releaseHalts s) := by
  refine Moves.via (N := [.regs, .seq, .sch]) ?_ hw h0
  clear hw h0
  have hK := Moves.refl [.regs, .seq, .sch] s
  unfold releaseHalts
  iterate 60 all_goals first
    | with_reducible assumption
    | ((with_reducible apply modCore_moves (hw := ?w)); case w => rfl)
    | ((with_reducible apply unhaltContext_moves (hw := ?w)); case w => rfl)
    | with_reducible apply Moves.foldl
    | intro _
    | dsimp only
    | split

theorem endDebug_moves {M : List Part} {s0 s : State} (hw : inMask [.regs, .dbg, .seq, .sch] M = true) (h0 : Moves M s0 s) : Moves M s0 (endDebug s) := by
  refine Moves.via (N := [.regs, .dbg, .seq, .sch]) ?_ hw h0
  clear hw h0
  have hK := Moves.refl [.regs, .dbg, .seq, .sch] s
  unfold endDebug
  iterate 60 all_goals first
    | with_reducible assumption
    | ((with_reducible apply releaseHalts_moves (hw := ?w)); case w => rfl)
    | ((with_reducible apply modDebug_moves (hw := ?w)); case w => rfl)
    | ((with_reducible apply orReg_moves (hw := ?w)); case w => rfl)
    | intro _
    | dsimp only
    | split

theorem secCommand_moves (cmd : Nat) {M : List Part} {s0 s : State} (hw : inMask [.regs, .ans, .sec] M = true) (h0 : Moves M s0 s) : Moves M s0 (secCommand cmd s) := by
  have w1 {A} (h : inMask A [.regs, .ans, .sec] = true) : inMask A M = true := inMask_trans h hw
  have ha (code : Nat) : Moves M s0 (answer code s) := answer_moves (hw := w1 rfl) (h0 := h0) ..
  unfold secCommand
  dsimp only [refuseIf]
  by_cases h1 : (!(powerPermits s cmd)) = true
  · rw [if_pos h1]; exact ha _
  rw [if_neg h1]
  by_cases h2 : (!(secPermitted s cmd)) = true
  · rw [if_pos h2]; exact ha _
  rw [if_neg h2]
  split
  · exact ha _
  split
  · exact ha _
  split
  · exact ha _
  refine answer_moves (hw := w1 rfl) (h0 := setRegN_moves (hw := w1 rfl) (h0 := modSec_moves _ (w1 rfl) (fun _ _ => ⟨?_, Nat.le_refl _⟩) h0) ..) ..
  simp only [Bool.not_eq_true', Bool.not_eq_false] at h2
  unfold Security.wf secReady
  unfold secPermitted at h2
  dsimp only at h2 ⊢
  split at h2 <;> simp_all

theorem secCmdWrite_moves (v : Word) {M : List Part} {s0 s : State} (hw : inMask [.regs, .ans, .sec] M = true) (h0 : Moves M s0 s) : Moves M s0 (secCmdWrite v s) := by
  refine Moves.via (N := [.regs, .ans, .sec]) ?_ hw h0
  clear hw h0
  have hK := Moves.refl [.regs, .ans, .sec] s
  unfold secCmdWrite
  iterate 60 all_goals first
    | with_reducible assumption
    | ((with_reducible apply refuseIf_moves (hw := ?w)); case w => rfl)
    | ((with_reducible apply secCommand_moves (hw := ?w)); case w => rfl)
    | intro _
    | dsimp only
    | split

theorem openNotice_moves {M : List Part} {s0 s : State} (hw : inMask [.freeIdx, .regs, .flt] M = true) (h0 : Moves M s0 s) : Moves M s0 (openNotice s) := by
  refine Moves.via (N := [.freeIdx, .regs, .flt]) ?_ hw h0
  clear hw h0
  have hK := Moves.refl [.freeIdx, .regs, .flt] s
  unfold openNotice
  iterate 60 all_goals first
    | with_reducible assumption
    | ((with_reducible apply freeNat_movesE (hE := by assumption) (hw := ?w)); case w => rfl)
    | ((with_reducible apply freeNat_moves (hw := ?w)); case w => rfl)
    | ((with_reducible apply raise_moves (hw := ?w)); case w => rfl)
    | intro _
    | dsimp only
    | split

theorem retireDevice_moves {M : List Part} {s0 s : State} (hc : s.sec.cmd = none) (hw : inMask [.regs, .net, .sec, .dbg, .seq, .lib, .sch] M = true) (h0 : Moves M s0 s) : Moves M s0 (retireDevice s) := by
  have w1 {A} (h : inMask A [.regs, .net, .sec, .dbg, .seq, .lib, .sch] = true) : inMask A M = true := inMask_trans h hw
  unfold retireDevice
  extract_lets t u
  have h1 : Moves M s0 t := by
    refine Moves.foldl (fun _ _ h => modSlot_moves (hw := w1 rfl) (h0 := h) ..) _ (modSec_moves _ (w1 rfl) (fun _ _ => ⟨?_, ?_⟩) h0)
    · simp [Security.wf, hc]
    · cases s.sec.state <;> simp [secRank]
  clear_value t
  have h2 : Moves M s0 u := by
    dsimp only [u]
    split
    · exact h1
    · exact endWrite_moves (hw := w1 rfl) (h0 := orReg_moves (hw := w1 rfl) (h0 := setBit_moves (hw := w1 rfl) (h0 := h1) ..) ..) ..
  clear_value u
  exact vacate_moves (hw := w1 rfl) (h0 := endDebug_moves (hw := w1 rfl) (h0 := h2))

theorem burn_moves (p : SecPend) (o : SecObs) {M : List Part} {s0 s : State} (hc : s.sec.cmd = none)
    (hr : Security.wf s0.sec = true → secReady s.sec.state p.cmd = true) (hw : inMask [.regs, .net, .sec, .dbg, .seq, .lib, .sch] M = true) (h0 : Moves M s0 s) : Moves M s0 (burn p o s) := by
  have w1 {A} (h : inMask A [.regs, .net, .sec, .dbg, .seq, .lib, .sch] = true) : inMask A M = true := inMask_trans h hw
  unfold burn
  extract_lets slot v
  split
  · rename_i hp
    refine modSec_moves _ (w1 rfl) (fun h _ => ⟨by simp [Security.wf, hc], ?_⟩) h0
    have := hr h
    simp [hp, secReady] at this
    simp [this, secRank]
  · rename_i hp
    have h1 : Moves M s0 (modSec (fun x => { x with state := .sealed }) s) := by
      refine modSec_moves _ (w1 rfl) (fun h _ => ⟨by simp [Security.wf, hc], ?_⟩) h0
      have := hr h
      simp [hp, secReady] at this
      simp [this, secRank]
    split
    · exact h1
    · exact endDebug_moves (hw := w1 rfl) (h0 := h1)
  · exact retireDevice_moves hc (w1 rfl) h0
  · exact modSlot_moves (hw := w1 rfl) (h0 := h0) ..
  · exact modSlot_moves (hw := w1 rfl) (h0 := h0) ..
  · split <;> exact modSec_moves_same _ (w1 rfl) rfl (.inl rfl) h0

theorem secResult_moves (o : SecObs) {M : List Part} {s0 s : State} (hw : inMask [.freeIdx, .regs, .net, .flt, .sec, .dbg, .seq, .lib, .sch] M = true) (h0 : Moves M s0 s) : Moves M s0 (secResult o s) := by
  have w1 {A} (h : inMask A [.freeIdx, .regs, .net, .flt, .sec, .dbg, .seq, .lib, .sch] = true) : inMask A M = true := inMask_trans h hw
  unfold secResult
  split
  · exact h0
  · rename_i p hp
    extract_lets t
    have hc : t.sec.cmd = none := by dsimp only [t]; rw [modSec_sec]
    have hr : Security.wf s0.sec = true → secReady t.sec.state p.cmd = true := by
      intro h
      have := (h0.keeps.sec h).1
      simp [Security.wf, hp] at this
      dsimp only [t]
      rw [modSec_sec]
      exact this
    have ht : Moves M s0 t := modSec_moves_same _ (w1 rfl) rfl (.inr rfl) h0
    clear_value t
    split
    · exact setRegN_moves (hw := w1 rfl) (h0 := setRegs_moves (hw := w1 rfl) (h0 := ht) ..) ..
    · split
      · exact setRegN_moves (hw := w1 rfl) (h0 := openNotice_moves (hw := w1 rfl) (h0 := ht)) ..
      · split
        · exact setRegN_moves (hw := w1 rfl) (h0 := burn_moves _ _ hc hr (w1 rfl) ht) ..
        · exact setRegN_moves (hw := w1 rfl) (h0 := ht) ..

theorem drawNonce_moves {M : List Part} {s0 s : State} (hw : inMask [.freeIdx, .dbg] M = true) (h0 : Moves M s0 s) : Moves M s0 (drawNonce s) := by
  refine Moves.via (N := [.freeIdx, .dbg]) ?_ hw h0
  clear hw h0
  have hK := Moves.refl [.freeIdx, .dbg] s
  unfold drawNonce
  iterate 60 all_goals first
    | with_reducible assumption
    | intro _
    | dsimp only
    | split
    | ((with_reducible apply Moves.update) <;> first | (with_reducible exact Or.inl rfl) | exact Or.inr (by decide) | skip)

theorem grantDebug_moves (level : Nat) (token : Bool) {M : List Part} {s0 s : State} (hw : inMask [.regs, .ans, .dbg, .seq, .sch] M = true) (h0 : Moves M s0 s) : Moves M s0 (grantDebug level token s) := by
  refine Moves.via (N := [.regs, .ans, .dbg, .seq, .sch]) ?_ hw h0
  clear hw h0
  have hK := Moves.refl [.regs, .ans, .dbg, .seq, .sch] s
  unfold grantDebug
  iterate 60 all_goals first
    | with_reducible assumption
    | ((with_reducible apply modDebug_moves (hw := ?w)); case w => rfl)
    | ((with_reducible apply releaseHalts_moves (hw := ?w)); case w => rfl)
    | ((with_reducible apply answer_moves (hw := ?w)); case w => rfl)
    | ((with_reducible apply orReg_moves (hw := ?w)); case w => rfl)
    | intro _
    | dsimp only
    | split

theorem sealedRequest_moves (level : Nat) (useToken : Bool) (o : TokenObs) {M : List Part} {s0 s : State} (hw : inMask [.freeIdx, .regs, .ans, .dbg, .seq, .sch] M = true) (h0 : Moves M s0 s) : Moves M s0 (sealedRequest level useToken o s) := by
  refine Moves.via (N := [.freeIdx, .regs, .ans, .dbg, .seq, .sch]) ?_ hw h0
  clear hw h0
  have hK := Moves.refl [.freeIdx, .regs, .ans, .dbg, .seq, .sch] s
  unfold sealedRequest
  iterate 60 all_goals first
    | with_reducible assumption
    | ((with_reducible apply answer_moves (hw := ?w)); case w => rfl)
    | ((with_reducible apply setFld_moves (hw := ?w)); case w => rfl)
    | ((with_reducible apply drawNonce_moves (hw := ?w)); case w => rfl)
    | ((with_reducible apply grantDebug_moves (hw := ?w)); case w => rfl)
    | intro _
    | dsimp only
    | split

theorem debugRequest_moves (level : Nat) (useToken : Bool) (o : TokenObs) {M : List Part} {s0 s : State} (hw : inMask [.freeIdx, .regs, .ans, .dbg, .seq, .sch] M = true) (h0 : Moves M s0 s) : Moves M s0 (debugRequest level useToken o s) := by
  refine Moves.via (N := [.freeIdx, .regs, .ans, .dbg, .seq, .sch]) ?_ hw h0
  clear hw h0
  have hK := Moves.refl [.freeIdx, .regs, .ans, .dbg, .seq, .sch] s
  unfold debugRequest
  iterate 60 all_goals first
    | with_reducible assumption
    | ((with_reducible apply answer_moves (hw := ?w)); case w => rfl)
    | ((with_reducible apply endDebug_moves (hw := ?w)); case w => rfl)
    | ((with_reducible apply grantDebug_moves (hw := ?w)); case w => rfl)
    | ((with_reducible apply sealedRequest_moves (hw := ?w)); case w => rfl)
    | intro _
    | dsimp only
    | split

theorem dbgCtrlWrite_moves (v : Word) {M : List Part} {s0 s : State} (hw : inMask [.regs, .ans, .dbg, .seq, .sch] M = true) (h0 : Moves M s0 s) : Moves M s0 (dbgCtrlWrite v s) := by
  refine Moves.via (N := [.regs, .ans, .dbg, .seq, .sch]) ?_ hw h0
  clear hw h0
  have hK := Moves.refl [.regs, .ans, .dbg, .seq, .sch] s
  unfold dbgCtrlWrite
  iterate 60 all_goals first
    | with_reducible assumption
    | ((with_reducible apply setRegN_moves (hw := ?w)); case w => rfl)
    | ((with_reducible apply setBit_moves (hw := ?w)); case w => rfl)
    | ((with_reducible apply answer_moves (hw := ?w)); case w => rfl)
    | ((with_reducible apply endDebug_moves (hw := ?w)); case w => rfl)
    | intro _
    | dsimp only
    | split

theorem coreHalt_moves (k : Nat) (act : HaltAct) {M : List Part} {s0 s : State} (hw : inMask [.ans, .sch] M = true) (h0 : Moves M s0 s) : Moves M s0 (coreHalt k act s) := by
  refine Moves.via (N := [.ans, .sch]) ?_ hw h0
  clear hw h0
  have hK := Moves.refl [.ans, .sch] s
  unfold coreHalt
  iterate 60 all_goals first
    | with_reducible assumption
    | ((with_reducible apply answer_moves (hw := ?w)); case w => rfl)
    | ((with_reducible apply modCore_moves (hw := ?w)); case w => rfl)
    | intro _
    | dsimp only
    | split

theorem debugHalt_moves (c : Nat) {M : List Part} {s0 s : State} (hw : inMask [.regs, .mem, .ans, .pwr, .seq, .links, .src, .hbm] M = true) (h0 : Moves M s0 s) : Moves M s0 (debugHalt c s) := by
  refine Moves.via (N := [.regs, .mem, .ans, .pwr, .seq, .links, .src, .hbm]) ?_ hw h0
  clear hw h0
  have hK := Moves.refl [.regs, .mem, .ans, .pwr, .seq, .links, .src, .hbm] s
  unfold debugHalt
  iterate 60 all_goals first
    | with_reducible assumption
    | ((with_reducible apply answer_moves (hw := ?w)); case w => rfl)
    | ((with_reducible apply abortStep_moves (hw := ?w)); case w => rfl)
    | ((with_reducible apply postTrap_moves (hw := ?w)); case w => rfl)
    | ((with_reducible apply modCtx_moves (hw := ?w)); case w => rfl)
    | ((with_reducible apply haltContext_moves (hw := ?w)); case w => rfl)
    | intro _
    | dsimp only
    | split

theorem endExtest_moves {M : List Part} {s0 s : State} (hw : inMask [.regs, .dbg, .qdr] M = true) (h0 : Moves M s0 s) : Moves M s0 (endExtest s) := by
  refine Moves.via (N := [.regs, .dbg, .qdr]) ?_ hw h0
  clear hw h0
  have hK := Moves.refl [.regs, .dbg, .qdr] s
  unfold endExtest
  iterate 60 all_goals first
    | with_reducible assumption
    | ((with_reducible apply modDebug_moves (hw := ?w)); case w => rfl)
    | ((with_reducible apply quadrilleListen_moves (hw := ?w)); case w => rfl)
    | intro _
    | dsimp only
    | split

theorem loadTap_moves (i : TapInstr) (ok : Bool) {M : List Part} {s0 s : State} (hw : inMask [.regs, .dbg, .qdr] M = true) (h0 : Moves M s0 s) : Moves M s0 (loadTap i ok s) := by
  refine Moves.via (N := [.regs, .dbg, .qdr]) ?_ hw h0
  clear hw h0
  have hK := Moves.refl [.regs, .dbg, .qdr] s
  unfold loadTap
  iterate 60 all_goals first
    | with_reducible assumption
    | ((with_reducible apply endExtest_moves (hw := ?w)); case w => rfl)
    | ((with_reducible apply modDebug_moves (hw := ?w)); case w => rfl)
    | ((with_reducible apply orReg_moves (hw := ?w)); case w => rfl)
    | intro _
    | dsimp only
    | split

theorem loadExtest_moves {M : List Part} {s0 s : State} (hw : inMask [.regs, .dbg, .qdr] M = true) (h0 : Moves M s0 s) : Moves M s0 (loadExtest s) := by
  refine Moves.via (N := [.regs, .dbg, .qdr]) ?_ hw h0
  clear hw h0
  have hK := Moves.refl [.regs, .dbg, .qdr] s
  unfold loadExtest
  iterate 60 all_goals first
    | with_reducible assumption
    | ((with_reducible apply orReg_moves (hw := ?w)); case w => rfl)
    | ((with_reducible apply modDebug_moves (hw := ?w)); case w => rfl)
    | ((with_reducible apply depart_moves (hw := ?w)); case w => rfl)
    | ((with_reducible apply loadTap_moves (hw := ?w)); case w => rfl)
    | intro _
    | dsimp only
    | split

theorem loadToken_moves (bs : List Byte) {M : List Part} {s0 s : State} (hw : inMask [.regs, .dbg, .qdr] M = true) (h0 : Moves M s0 s) : Moves M s0 (loadToken bs s) := by
  refine Moves.via (N := [.regs, .dbg, .qdr]) ?_ hw h0
  clear hw h0
  have hK := Moves.refl [.regs, .dbg, .qdr] s
  unfold loadToken
  iterate 60 all_goals first
    | with_reducible assumption
    | ((with_reducible apply loadTap_moves (hw := ?w)); case w => rfl)
    | ((with_reducible apply setRegs_moves (hw := ?w)); case w => rfl)
    | intro _
    | dsimp only
    | split

theorem tapReset_moves {M : List Part} {s0 s : State} (hw : inMask [.regs, .dbg, .qdr] M = true) (h0 : Moves M s0 s) : Moves M s0 (tapReset s) := by
  refine Moves.via (N := [.regs, .dbg, .qdr]) ?_ hw h0
  clear hw h0
  have hK := Moves.refl [.regs, .dbg, .qdr] s
  unfold tapReset
  iterate 60 all_goals first
    | with_reducible assumption
    | ((with_reducible apply modDebug_moves (hw := ?w)); case w => rfl)
    | ((with_reducible apply endExtest_moves (hw := ?w)); case w => rfl)
    | intro _
    | dsimp only
    | split

theorem execProvision_moves (q : Req) {s s' : State} (h : execProvision q s = .next s') : Moves [.regs, .ans, .sec] s s' := by
  unfold execProvision at h
  have hK := Moves.refl [.regs, .ans, .sec] s
  all_goals injection h with h
  all_goals subst h
  iterate 60 all_goals first
    | with_reducible assumption
    | ((with_reducible apply guarded_moves (hw := ?w)); case w => rfl)
    | ((with_reducible apply secCommand_moves (hw := ?w)); case w => rfl)
    | intro _
    | dsimp only
    | split

theorem execSeal_moves (q : Req) {s s' : State} (h : execSeal q s = .next s') : Moves [.regs, .ans, .sec] s s' := by
  unfold execSeal at h
  have hK := Moves.refl [.regs, .ans, .sec] s
  all_goals injection h with h
  all_goals subst h
  iterate 60 all_goals first
    | with_reducible assumption
    | ((with_reducible apply guarded_moves (hw := ?w)); case w => rfl)
    | ((with_reducible apply secCommand_moves (hw := ?w)); case w => rfl)
    | intro _
    | dsimp only
    | split

theorem execRetire_moves (q : Req) {s s' : State} (h : execRetire q s = .next s') : Moves [.regs, .ans, .sec] s s' := by
  unfold execRetire at h
  have hK := Moves.refl [.regs, .ans, .sec] s
  all_goals injection h with h
  all_goals subst h
  iterate 60 all_goals first
    | with_reducible assumption
    | ((with_reducible apply guarded_moves (hw := ?w)); case w => rfl)
    | ((with_reducible apply secCommand_moves (hw := ?w)); case w => rfl)
    | intro _
    | dsimp only
    | split

theorem execEnroll_moves (q : Req) {s s' : State} (h : execEnroll q s = .next s') : Moves [.regs, .ans, .sec] s s' := by
  unfold execEnroll at h
  have hK := Moves.refl [.regs, .ans, .sec] s
  all_goals injection h with h
  all_goals subst h
  iterate 60 all_goals first
    | with_reducible assumption
    | ((with_reducible apply guarded_moves (hw := ?w)); case w => rfl)
    | ((with_reducible apply secCommand_moves (hw := ?w)); case w => rfl)
    | intro _
    | dsimp only
    | split

theorem execRevoke_moves (q : Req) {s s' : State} (h : execRevoke q s = .next s') : Moves [.regs, .ans, .sec] s s' := by
  unfold execRevoke at h
  have hK := Moves.refl [.regs, .ans, .sec] s
  all_goals injection h with h
  all_goals subst h
  iterate 60 all_goals first
    | with_reducible assumption
    | ((with_reducible apply guarded_moves (hw := ?w)); case w => rfl)
    | ((with_reducible apply secCommand_moves (hw := ?w)); case w => rfl)
    | intro _
    | dsimp only
    | split

theorem execRaiseSvn_moves (q : Req) {s s' : State} (h : execRaiseSvn q s = .next s') : Moves [.regs, .ans, .sec] s s' := by
  unfold execRaiseSvn at h
  have hK := Moves.refl [.regs, .ans, .sec] s
  all_goals injection h with h
  all_goals subst h
  iterate 60 all_goals first
    | with_reducible assumption
    | ((with_reducible apply guarded_moves (hw := ?w)); case w => rfl)
    | ((with_reducible apply secCommand_moves (hw := ?w)); case w => rfl)
    | intro _
    | dsimp only
    | split

theorem execAttest_moves (q : Req) {s s' : State} (h : execAttest q s = .next s') : Moves [.regs, .ans, .sec] s s' := by
  unfold execAttest at h
  have hK := Moves.refl [.regs, .ans, .sec] s
  all_goals injection h with h
  all_goals subst h
  iterate 60 all_goals first
    | with_reducible assumption
    | ((with_reducible apply guarded_moves (hw := ?w)); case w => rfl)
    | ((with_reducible apply secCommand_moves (hw := ?w)); case w => rfl)
    | intro _
    | dsimp only
    | split

theorem execSecCmdResult_moves (obs : SecObs) {s s' : State} (h : execSecCmdResult obs s = .next s') : Moves [.freeIdx, .regs, .net, .flt, .sec, .dbg, .seq, .lib, .sch] s s' := by
  unfold execSecCmdResult at h
  have hK := Moves.refl [.freeIdx, .regs, .net, .flt, .sec, .dbg, .seq, .lib, .sch] s
  all_goals injection h with h
  all_goals subst h
  iterate 60 all_goals first
    | with_reducible assumption
    | ((with_reducible apply secResult_moves (hw := ?w)); case w => rfl)
    | intro _
    | dsimp only
    | split

theorem execDbgReq_moves (level : Fin 4) (useToken : Bool) (obs : TokenObs) {s s' : State} (h : execDbgReq level useToken obs s = .next s') : Moves [.freeIdx, .regs, .ans, .dbg, .seq, .sch] s s' := by
  unfold execDbgReq at h
  have hK := Moves.refl [.freeIdx, .regs, .ans, .dbg, .seq, .sch] s
  all_goals injection h with h
  all_goals subst h
  iterate 60 all_goals first
    | with_reducible assumption
    | ((with_reducible apply debugRequest_moves (hw := ?w)); case w => rfl)
    | intro _
    | dsimp only
    | split

theorem execDbgEnd_moves (q : Req) (deny : Bool) {s s' : State} (h : execDbgEnd q deny s = .next s') : Moves [.regs, .ans, .dbg, .seq, .sch] s s' := by
  unfold execDbgEnd at h
  have hK := Moves.refl [.regs, .ans, .dbg, .seq, .sch] s
  all_goals injection h with h
  all_goals subst h
  iterate 60 all_goals first
    | with_reducible assumption
    | ((with_reducible apply guarded_moves (hw := ?w)); case w => rfl)
    | ((with_reducible apply dbgCtrlWrite_moves (hw := ?w)); case w => rfl)
    | intro _
    | dsimp only
    | split

theorem execDebugLifetimeExpiry_moves {s s' : State} (h : execDebugLifetimeExpiry s = .next s') : Moves [.regs, .dbg, .seq, .sch] s s' := by
  unfold execDebugLifetimeExpiry at h
  have hK := Moves.refl [.regs, .dbg, .seq, .sch] s
  all_goals injection h with h
  all_goals subst h
  iterate 60 all_goals first
    | with_reducible assumption
    | ((with_reducible apply orReg_moves (hw := ?w)); case w => rfl)
    | ((with_reducible apply endDebug_moves (hw := ?w)); case w => rfl)
    | intro _
    | dsimp only
    | split

theorem execCoreHalt_moves (k : Fin 64) (act : HaltAct) {s s' : State} (h : execCoreHalt k act s = .next s') : Moves [.ans, .sch] s s' := by
  unfold execCoreHalt at h
  have hK := Moves.refl [.ans, .sch] s
  all_goals injection h with h
  all_goals subst h
  iterate 60 all_goals first
    | with_reducible assumption
    | ((with_reducible apply coreHalt_moves (hw := ?w)); case w => rfl)
    | intro _
    | dsimp only
    | split

theorem execContextDebugHalt_moves (c : Fin 64) {s s' : State} (h : execContextDebugHalt c s = .next s') : Moves [.regs, .mem, .ans, .pwr, .seq, .links, .src, .hbm] s s' := by
  unfold execContextDebugHalt at h
  have hK := Moves.refl [.regs, .mem, .ans, .pwr, .seq, .links, .src, .hbm] s
  all_goals injection h with h
  all_goals subst h
  iterate 60 all_goals first
    | with_reducible assumption
    | ((with_reducible apply debugHalt_moves (hw := ?w)); case w => rfl)
    | intro _
    | dsimp only
    | split

theorem execJtagBypass_moves {s s' : State} (h : execJtagBypass s = .next s') : Moves [.regs, .dbg, .qdr] s s' := by
  unfold execJtagBypass at h
  have hK := Moves.refl [.regs, .dbg, .qdr] s
  all_goals injection h with h
  all_goals subst h
  iterate 60 all_goals first
    | with_reducible assumption
    | ((with_reducible apply loadTap_moves (hw := ?w)); case w => rfl)
    | intro _
    | dsimp only
    | split

theorem execJtagIdcode_moves {s s' : State} (h : execJtagIdcode s = .next s') : Moves [.regs, .ans, .dbg, .qdr] s s' := by
  unfold execJtagIdcode at h
  have hK := Moves.refl [.regs, .ans, .dbg, .qdr] s
  all_goals injection h with h
  all_goals subst h
  iterate 60 all_goals first
    | with_reducible assumption
    | ((with_reducible apply answerData_moves (hw := ?w)); case w => rfl)
    | ((with_reducible apply loadTap_moves (hw := ?w)); case w => rfl)
    | intro _
    | dsimp only
    | split

theorem execSamplePreload_moves {s s' : State} (h : execSamplePreload s = .next s') : Moves [.regs, .dbg, .qdr] s s' := by
  unfold execSamplePreload at h
  have hK := Moves.refl [.regs, .dbg, .qdr] s
  all_goals injection h with h
  all_goals subst h
  iterate 60 all_goals first
    | with_reducible assumption
    | ((with_reducible apply loadTap_moves (hw := ?w)); case w => rfl)
    | intro _
    | dsimp only
    | split

theorem execExtest_moves {s s' : State} (h : execExtest s = .next s') : Moves [.regs, .dbg, .qdr] s s' := by
  unfold execExtest at h
  have hK := Moves.refl [.regs, .dbg, .qdr] s
  all_goals injection h with h
  all_goals subst h
  iterate 60 all_goals first
    | with_reducible assumption
    | ((with_reducible apply loadExtest_moves (hw := ?w)); case w => rfl)
    | intro _
    | dsimp only
    | split

theorem execJtagToken_moves (bytes : List Byte) {s s' : State} (h : execJtagToken bytes s = .next s') : Moves [.regs, .dbg, .qdr] s s' := by
  unfold execJtagToken at h
  have hK := Moves.refl [.regs, .dbg, .qdr] s
  all_goals injection h with h
  all_goals subst h
  iterate 60 all_goals first
    | with_reducible assumption
    | ((with_reducible apply loadToken_moves (hw := ?w)); case w => rfl)
    | intro _
    | dsimp only
    | split

theorem execTapReset_moves {s s' : State} (h : execTapReset s = .next s') : Moves [.regs, .dbg, .qdr] s s' := by
  unfold execTapReset at h
  have hK := Moves.refl [.regs, .dbg, .qdr] s
  all_goals injection h with h
  all_goals subst h
  iterate 60 all_goals first
    | with_reducible assumption
    | ((with_reducible apply tapReset_moves (hw := ?w)); case w => rfl)
    | intro _
    | dsimp only
    | split

end Sys2Proof.Laws
end

