-- ==== Sys2Proof/Laws/MovesPower.lean ====
section
/-! SUPPORT. What the operations of Machine/Power.lean may change of the state, and that they keep what no operation breaks. -/

namespace Sys2Proof.Laws

open Sys2Proof Sys2Proof.Machine

/-- A state of reset registers that carries over the queue, the clock, the answer and the fuses. -/
theorem reset_moves (s t : State) (hr : t.regs = State.reset.regs) (hm : t.mem = State.reset.mem) (hc : t.sec.cmd = none)
    (hs : t.sec.state = s.sec.state) (hp : t.pending = s.pending) (ht : t.time = s.time) (ha : t.ans = s.ans) :
    Moves [.beat, .freeIdx, .regs, .shadowS, .shadowF, .mem, .net, .flt, .lgr, .img, .pwr, .sec, .dbg, .tb, .lanes, .seq, .links, .tst, .cmp, .lib, .trg, .acq, .mea, .src, .tdc, .qdr, .hbm, .sch, .ptp, .dma] s t := by
  refine ⟨⟨fun p hp' => ?_⟩, fun _ => ?_, fun _ => ?_, fun _ => ⟨by simp [Security.wf, hc], Nat.le_of_eq (by rw [hs])⟩, hp, Nat.le_of_eq (by rw [ht])⟩
  · cases p <;> first | exact hp | exact ht | exact ha | exact absurd (by decide) hp'
  · unfold Registers.wf; rw [hr]; rfl
  · rw [hm]; rfl

theorem freshState_moves {M : List Part} {s0 s : State} (hw : inMask [.beat, .freeIdx, .regs, .shadowS, .shadowF, .mem, .net, .flt, .lgr, .img, .pwr, .sec, .dbg, .tb, .lanes, .seq, .links, .tst, .cmp, .lib, .trg, .acq, .mea, .src, .tdc, .qdr, .hbm, .sch, .ptp, .dma] M = true) (h0 : Moves M s0 s) : Moves M s0 (freshState s) := by
  refine Moves.via (N := [.beat, .freeIdx, .regs, .shadowS, .shadowF, .mem, .net, .flt, .lgr, .img, .pwr, .sec, .dbg, .tb, .lanes, .seq, .links, .tst, .cmp, .lib, .trg, .acq, .mea, .src, .tdc, .qdr, .hbm, .sch, .ptp, .dma]) ?_ hw h0
  clear hw h0
  unfold freshState
  extract_lets t0 x1 x2 x3 x4 x5 t2 t3 t4 t5 t6 t7
  have h1 : Moves [.beat, .freeIdx, .regs, .shadowS, .shadowF, .mem, .net, .flt, .lgr, .img, .pwr, .sec, .dbg, .tb, .lanes, .seq, .links, .tst, .cmp, .lib, .trg, .acq, .mea, .src, .tdc, .qdr, .hbm, .sch, .ptp, .dma] s t2 := reset_moves _ _ rfl rfl rfl rfl rfl rfl rfl
  clear_value t2 t0
  have h3 : Moves [.beat, .freeIdx, .regs, .shadowS, .shadowF, .mem, .net, .flt, .lgr, .img, .pwr, .sec, .dbg, .tb, .lanes, .seq, .links, .tst, .cmp, .lib, .trg, .acq, .mea, .src, .tdc, .qdr, .hbm, .sch, .ptp, .dma] s t3 := Moves.foldl (fun _ _ h => setReg_moves (hw := rfl) (h0 := h) ..) _ h1
  clear_value t3
  have h4 : Moves [.beat, .freeIdx, .regs, .shadowS, .shadowF, .mem, .net, .flt, .lgr, .img, .pwr, .sec, .dbg, .tb, .lanes, .seq, .links, .tst, .cmp, .lib, .trg, .acq, .mea, .src, .tdc, .qdr, .hbm, .sch, .ptp, .dma] s t4 := Moves.foldl (fun _ _ h => showTrims_moves (hw := rfl) (h0 := showCalStale_moves (hw := rfl) (h0 := modTst_moves (hw := rfl) (h0 := h) ..) ..) ..) _ h3
  clear_value t4
  have h5 : Moves [.beat, .freeIdx, .regs, .shadowS, .shadowF, .mem, .net, .flt, .lgr, .img, .pwr, .sec, .dbg, .tb, .lanes, .seq, .links, .tst, .cmp, .lib, .trg, .acq, .mea, .src, .tdc, .qdr, .hbm, .sch, .ptp, .dma] s t5 := by
    refine Moves.foldl (fun _ _ h => ?_) _ h4
    split
    · exact showCal_moves (hw := rfl) (h0 := modTdc_moves (hw := rfl) (h0 := h) ..) ..
    · exact h
  clear_value t5
  have h6 : Moves [.beat, .freeIdx, .regs, .shadowS, .shadowF, .mem, .net, .flt, .lgr, .img, .pwr, .sec, .dbg, .tb, .lanes, .seq, .links, .tst, .cmp, .lib, .trg, .acq, .mea, .src, .tdc, .qdr, .hbm, .sch, .ptp, .dma] s t6 := takePool_moves (hw := rfl) (h0 := setBit_moves (hw := rfl) (h0 := setBit_moves (hw := rfl) (h0 := h5) ..) ..) ..
  clear_value t6
  have h7 : Moves [.beat, .freeIdx, .regs, .shadowS, .shadowF, .mem, .net, .flt, .lgr, .img, .pwr, .sec, .dbg, .tb, .lanes, .seq, .links, .tst, .cmp, .lib, .trg, .acq, .mea, .src, .tdc, .qdr, .hbm, .sch, .ptp, .dma] s t7 := by
    dsimp only [t7]
    split
    · exact setRegN_moves (hw := rfl) (h0 := h6) ..
    · exact setRegs_moves (hw := rfl) (h0 := h6) ..
  clear_value t7
  exact showSec_moves (hw := rfl) (h0 := drawNonce_moves (hw := rfl) (h0 := h7))

theorem applyRole_moves {M : List Part} {s0 s : State} (hw : inMask [.regs] M = true) (h0 : Moves M s0 s) : Moves M s0 (applyRole s) := by
  refine Moves.via (N := [.regs]) ?_ hw h0
  clear hw h0
  have hK := Moves.refl [.regs] s
  unfold applyRole
  iterate 60 all_goals first
    | with_reducible assumption
    | ((with_reducible apply refPolicy_moves (hw := ?w)); case w => rfl)
    | ((with_reducible apply setRegN_moves (hw := ?w)); case w => rfl)
    | intro _
    | dsimp only
    | split

theorem latchStraps_moves (straps : Nat) (stable : Bool) {M : List Part} {s0 s : State} (hw : inMask [.regs, .flt] M = true) (h0 : Moves M s0 s) : Moves M s0 (latchStraps straps stable s) := by
  refine Moves.via (N := [.regs, .flt]) ?_ hw h0
  clear hw h0
  have hK := Moves.refl [.regs, .flt] s
  unfold latchStraps
  iterate 60 all_goals first
    | with_reducible assumption
    | ((with_reducible apply setRegN_moves (hw := ?w)); case w => rfl)
    | ((with_reducible apply raise_moves (hw := ?w)); case w => rfl)
    | intro _
    | dsimp only
    | split

theorem enterRecovery_moves {M : List Part} {s0 s : State} (hw : inMask [.regs, .pwr, .sec] M = true) (h0 : Moves M s0 s) : Moves M s0 (enterRecovery s) := by
  have w1 {A} (h : inMask A [.regs, .pwr, .sec] = true) : inMask A M = true := inMask_trans h hw
  have k : Moves M s0 { s with pwr := { s.pwr with recovery := true } } := by
    (with_reducible apply Moves.update) <;> first | (with_reducible exact Or.inl rfl) | exact Or.inr (mem_of_inMask hw _ (by decide)) | exact h0
  exact setRegN_moves (hw := w1 rfl) (h0 := Moves.secSame (s := { s with pwr := { s.pwr with recovery := true } }) _ (mem_of_inMask hw .sec (by decide)) rfl (.inl rfl) k) ..

theorem loadMicrocode_moves {c : CryptoObs} {M : List Part} {s0 s t : State} (hE : loadMicrocode c s = some t) (hw : inMask [.regs, .sec] M = true)
    (h0 : Moves M s0 s) : Moves M s0 t := by
  have w1 {A} (h : inMask A [.regs, .sec] = true) : inMask A M = true := inMask_trans h hw
  have hm := mem_of_inMask hw .sec (by decide)
  unfold loadMicrocode at hE
  dsimp only at hE
  split at hE
  · injection hE with hE; subst hE
    exact setRegN_moves (hw := w1 rfl) (h0 := Moves.secSame _ hm rfl (.inl rfl) h0) ..
  · split at hE
    · injection hE with hE; subst hE
      have k : Moves M s0 (setRegN Reg.SEQ_UCODE_VER (objN (ucodeObj s) 8 4)
          (setRegs (Reg.SEQ_UCODE_HI 0) ((bytesToWords (objBytes (ucodeObj s) 64 65536)).drop 8192)
            (setRegs (Reg.SEQ_UCODE_LO 0) ((bytesToWords (objBytes (ucodeObj s) 64 65536)).take 8192) s))) :=
        setRegN_moves (hw := w1 rfl) (h0 := setRegs_moves (hw := w1 rfl) (h0 := setRegs_moves (hw := w1 rfl) (h0 := h0) ..) ..) ..
      revert k
      generalize setRegN _ _ _ = u
      exact fun k => Moves.secSame _ hm rfl (.inl rfl) k
    · cases hE

theorem bootImage_moves (o : BootObs) {M : List Part} {s0 s : State} (hw : inMask [.regs, .shadowS, .shadowF, .mem, .ans, .net, .flt, .lgr, .img, .pwr, .sec, .lanes, .seq, .links, .tst, .cmp, .trg, .mea, .tdc, .hbm, .sch] M = true) (h0 : Moves M s0 s) : Moves M s0 (bootImage o s) := by
  refine Moves.via (N := [.regs, .shadowS, .shadowF, .mem, .ans, .net, .flt, .lgr, .img, .pwr, .sec, .lanes, .seq, .links, .tst, .cmp, .trg, .mea, .tdc, .hbm, .sch]) ?_ hw h0
  clear hw h0
  have hK := Moves.refl [.regs, .shadowS, .shadowF, .mem, .ans, .net, .flt, .lgr, .img, .pwr, .sec, .lanes, .seq, .links, .tst, .cmp, .trg, .mea, .tdc, .hbm, .sch] s
  unfold bootImage
  iterate 60 all_goals first
    | with_reducible assumption
    | ((with_reducible apply selectImage_movesE (hE := by assumption) (hw := ?w)); case w => rfl)
    | ((with_reducible apply selectImage_moves (hw := ?w)); case w => rfl)
    | ((with_reducible apply switchTo_moves (hw := ?w)); case w => rfl)
    | ((with_reducible apply checkLoadDone_moves (hw := ?w)); case w => rfl)
    | ((with_reducible apply imageNotice_moves (hw := ?w)); case w => rfl)
    | intro _
    | dsimp only
    | split
    | ((with_reducible apply Moves.update) <;> first | exact Or.inr (by decide) | (with_reducible exact Or.inl rfl) | skip)

theorem startUp_moves (o : BootObs) {M : List Part} {s0 s : State} (hw : inMask [.regs, .shadowS, .shadowF, .mem, .ans, .net, .flt, .lgr, .img, .pwr, .sec, .lanes, .seq, .links, .tst, .cmp, .trg, .mea, .tdc, .hbm, .sch] M = true) (h0 : Moves M s0 s) : Moves M s0 (startUp o s) := by
  refine Moves.via (N := [.regs, .shadowS, .shadowF, .mem, .ans, .net, .flt, .lgr, .img, .pwr, .sec, .lanes, .seq, .links, .tst, .cmp, .trg, .mea, .tdc, .hbm, .sch]) ?_ hw h0
  clear hw h0
  have hK := Moves.refl [.regs, .shadowS, .shadowF, .mem, .ans, .net, .flt, .lgr, .img, .pwr, .sec, .lanes, .seq, .links, .tst, .cmp, .trg, .mea, .tdc, .hbm, .sch] s
  have hp {t : State} (p : Power) (h : Moves [.regs, .shadowS, .shadowF, .mem, .ans, .net, .flt, .lgr, .img, .pwr, .sec, .lanes, .seq, .links, .tst, .cmp, .trg, .mea, .tdc, .hbm, .sch] s t) : Moves [.regs, .shadowS, .shadowF, .mem, .ans, .net, .flt, .lgr, .img, .pwr, .sec, .lanes, .seq, .links, .tst, .cmp, .trg, .mea, .tdc, .hbm, .sch] s { t with pwr := p } := by
    (with_reducible apply Moves.update) <;> first | (with_reducible exact Or.inl rfl) | exact Or.inr (by decide) | exact h
  unfold startUp
  extract_lets x1 t x2 u
  have h1 : Moves [.regs, .shadowS, .shadowF, .mem, .ans, .net, .flt, .lgr, .img, .pwr, .sec, .lanes, .seq, .links, .tst, .cmp, .trg, .mea, .tdc, .hbm, .sch] s t := showXo_moves (hw := rfl) (h0 := applyRole_moves (hw := rfl) (h0 := hp _ hK))
  clear_value t
  have h2 : Moves [.regs, .shadowS, .shadowF, .mem, .ans, .net, .flt, .lgr, .img, .pwr, .sec, .lanes, .seq, .links, .tst, .cmp, .trg, .mea, .tdc, .hbm, .sch] s u := by
    dsimp only [u]
    split
    · exact raise_moves (hw := rfl) (h0 := orReg_moves (hw := rfl) (h0 := hp _ h1) ..) ..
    · exact h1
  clear_value u
  split
  · exact enterRecovery_moves (hw := rfl) (h0 := h2)
  · next k _ =>
    have h3 : ∀ (p : Power) (x : Sec), x.state = u.sec.state → x.cmd = u.sec.cmd → Moves [.regs, .shadowS, .shadowF, .mem, .ans, .net, .flt, .lgr, .img, .pwr, .sec, .lanes, .seq, .links, .tst, .cmp, .trg, .mea, .tdc, .hbm, .sch] s { u with pwr := p, sec := x } :=
      fun p x hs hc => Moves.secSame (s := { u with pwr := p }) x (by decide) hs (.inl hc) (hp p h2)
    have h4 := setRegN_moves (hw := rfl) (h0 := h3 { u.pwr with fwSlot := k } { u.sec with fwSvn := fwSvnOf u k, mFw := fwDigest u k } rfl rfl) Reg.SYS_FW_VER (fwVersion u k)
    dsimp only
    split
    · exact enterRecovery_moves (hw := rfl) (h0 := h4)
    · next hE => exact bootImage_moves (hw := rfl) (h0 := loadMicrocode_moves (hE := hE) (hw := rfl) (h0 := h4)) ..

theorem commandReset_moves (o : BootObs) {M : List Part} {s0 s : State} (hw : inMask [.beat, .freeIdx, .regs, .shadowS, .shadowF, .mem, .ans, .net, .flt, .lgr, .img, .pwr, .sec, .dbg, .tb, .lanes, .seq, .links, .tst, .cmp, .lib, .trg, .acq, .mea, .src, .tdc, .qdr, .hbm, .sch, .ptp, .dma] M = true) (h0 : Moves M s0 s) : Moves M s0 (commandReset o s) := by
  refine Moves.via (N := [.beat, .freeIdx, .regs, .shadowS, .shadowF, .mem, .ans, .net, .flt, .lgr, .img, .pwr, .sec, .dbg, .tb, .lanes, .seq, .links, .tst, .cmp, .lib, .trg, .acq, .mea, .src, .tdc, .qdr, .hbm, .sch, .ptp, .dma]) ?_ hw h0
  clear hw h0
  have hK := Moves.refl [.beat, .freeIdx, .regs, .shadowS, .shadowF, .mem, .ans, .net, .flt, .lgr, .img, .pwr, .sec, .dbg, .tb, .lanes, .seq, .links, .tst, .cmp, .lib, .trg, .acq, .mea, .src, .tdc, .qdr, .hbm, .sch, .ptp, .dma] s
  unfold commandReset
  iterate 60 all_goals first
    | with_reducible assumption
    | ((with_reducible apply startUp_moves (hw := ?w)); case w => rfl)
    | ((with_reducible apply freshState_moves (hw := ?w)); case w => rfl)
    | intro _
    | dsimp only
    | split

theorem resetLow_moves {M : List Part} {s0 s : State} (hw : inMask [.beat, .freeIdx, .regs, .shadowS, .shadowF, .mem, .ans, .net, .flt, .lgr, .img, .pwr, .sec, .dbg, .tb, .lanes, .seq, .links, .tst, .cmp, .lib, .trg, .acq, .mea, .src, .tdc, .qdr, .hbm, .sch, .ptp, .dma] M = true) (h0 : Moves M s0 s) : Moves M s0 (resetLow s) := by
  refine Moves.via (N := [.beat, .freeIdx, .regs, .shadowS, .shadowF, .mem, .ans, .net, .flt, .lgr, .img, .pwr, .sec, .dbg, .tb, .lanes, .seq, .links, .tst, .cmp, .lib, .trg, .acq, .mea, .src, .tdc, .qdr, .hbm, .sch, .ptp, .dma]) ?_ hw h0
  clear hw h0
  have hK := Moves.refl [.beat, .freeIdx, .regs, .shadowS, .shadowF, .mem, .ans, .net, .flt, .lgr, .img, .pwr, .sec, .dbg, .tb, .lanes, .seq, .links, .tst, .cmp, .lib, .trg, .acq, .mea, .src, .tdc, .qdr, .hbm, .sch, .ptp, .dma] s
  unfold resetLow
  iterate 60 all_goals first
    | with_reducible assumption
    | ((with_reducible apply freshState_moves (hw := ?w)); case w => rfl)
    | intro _
    | dsimp only
    | split
    | ((with_reducible apply Moves.update) <;> first | (with_reducible exact Or.inl rfl) | exact Or.inr (by decide) | skip)

theorem resetRelease_moves (straps : Nat) (stable : Bool) (o : BootObs) {M : List Part} {s0 s : State} (hw : inMask [.regs, .shadowS, .shadowF, .mem, .ans, .net, .flt, .lgr, .img, .pwr, .sec, .lanes, .seq, .links, .tst, .cmp, .trg, .mea, .tdc, .hbm, .sch] M = true) (h0 : Moves M s0 s) : Moves M s0 (resetRelease straps stable o s) := by
  refine Moves.via (N := [.regs, .shadowS, .shadowF, .mem, .ans, .net, .flt, .lgr, .img, .pwr, .sec, .lanes, .seq, .links, .tst, .cmp, .trg, .mea, .tdc, .hbm, .sch]) ?_ hw h0
  clear hw h0
  have hK := Moves.refl [.regs, .shadowS, .shadowF, .mem, .ans, .net, .flt, .lgr, .img, .pwr, .sec, .lanes, .seq, .links, .tst, .cmp, .trg, .mea, .tdc, .hbm, .sch] s
  unfold resetRelease
  iterate 60 all_goals first
    | with_reducible assumption
    | ((with_reducible apply startUp_moves (hw := ?w)); case w => rfl)
    | ((with_reducible apply latchStraps_moves (hw := ?w)); case w => rfl)
    | intro _
    | dsimp only
    | split

theorem vinUvlo_moves {M : List Part} {s0 s : State} (hw : inMask [.beat, .freeIdx, .regs, .shadowS, .shadowF, .mem, .ans, .net, .flt, .lgr, .img, .pwr, .sec, .dbg, .tb, .lanes, .seq, .links, .tst, .cmp, .lib, .trg, .acq, .mea, .src, .tdc, .qdr, .hbm, .sch, .ptp, .dma] M = true) (h0 : Moves M s0 s) : Moves M s0 (vinUvlo s) := by
  refine Moves.via (N := [.beat, .freeIdx, .regs, .shadowS, .shadowF, .mem, .ans, .net, .flt, .lgr, .img, .pwr, .sec, .dbg, .tb, .lanes, .seq, .links, .tst, .cmp, .lib, .trg, .acq, .mea, .src, .tdc, .qdr, .hbm, .sch, .ptp, .dma]) ?_ hw h0
  clear hw h0
  have hK := Moves.refl [.beat, .freeIdx, .regs, .shadowS, .shadowF, .mem, .ans, .net, .flt, .lgr, .img, .pwr, .sec, .dbg, .tb, .lanes, .seq, .links, .tst, .cmp, .lib, .trg, .acq, .mea, .src, .tdc, .qdr, .hbm, .sch, .ptp, .dma] s
  unfold vinUvlo
  iterate 60 all_goals first
    | with_reducible assumption
    | ((with_reducible apply freshState_moves (hw := ?w)); case w => rfl)
    | intro _
    | dsimp only
    | split
    | ((with_reducible apply Moves.update) <;> first | (with_reducible exact Or.inl rfl) | exact Or.inr (by decide) | skip)

theorem vinRise_moves {M : List Part} {s0 s : State} (hw : inMask [.pwr] M = true) (h0 : Moves M s0 s) : Moves M s0 (vinRise s) := by
  refine Moves.via (N := [.pwr]) ?_ hw h0
  clear hw h0
  have hK := Moves.refl [.pwr] s
  unfold vinRise
  iterate 60 all_goals first
    | with_reducible assumption
    | intro _
    | dsimp only
    | split
    | ((with_reducible apply Moves.update) <;> first | (with_reducible exact Or.inl rfl) | exact Or.inr (by decide) | skip)

theorem stageFault_moves {M : List Part} {s0 s : State} (hw : inMask [.regs, .mem, .ans, .net, .flt, .pwr, .lanes, .seq, .links, .tst, .cmp, .trg, .mea, .src, .tdc, .hbm] M = true) (h0 : Moves M s0 s) : Moves M s0 (stageFault s) := by
  refine Moves.via (N := [.regs, .mem, .ans, .net, .flt, .pwr, .lanes, .seq, .links, .tst, .cmp, .trg, .mea, .src, .tdc, .hbm]) ?_ hw h0
  clear hw h0
  have hK := Moves.refl [.regs, .mem, .ans, .net, .flt, .pwr, .lanes, .seq, .links, .tst, .cmp, .trg, .mea, .src, .tdc, .hbm] s
  unfold stageFault
  iterate 60 all_goals first
    | with_reducible assumption
    | ((with_reducible apply raise_moves (hw := ?w)); case w => rfl)
    | ((with_reducible apply railsOff_moves (hw := ?w)); case w => rfl)
    | intro _
    | dsimp only
    | split

theorem vinOvervoltage_moves {M : List Part} {s0 s : State} (hw : inMask [.regs, .mem, .ans, .net, .flt, .pwr, .lanes, .seq, .links, .tst, .cmp, .trg, .mea, .src, .tdc, .hbm] M = true) (h0 : Moves M s0 s) : Moves M s0 (vinOvervoltage s) := by
  refine Moves.via (N := [.regs, .mem, .ans, .net, .flt, .pwr, .lanes, .seq, .links, .tst, .cmp, .trg, .mea, .src, .tdc, .hbm]) ?_ hw h0
  clear hw h0
  have hK := Moves.refl [.regs, .mem, .ans, .net, .flt, .pwr, .lanes, .seq, .links, .tst, .cmp, .trg, .mea, .src, .tdc, .hbm] s
  unfold vinOvervoltage
  iterate 60 all_goals first
    | with_reducible assumption
    | ((with_reducible apply closeAll_moves (hw := ?w)); case w => rfl)
    | ((with_reducible apply stageFault_moves (hw := ?w)); case w => rfl)
    | intro _
    | dsimp only
    | split
    | ((with_reducible apply Moves.update) <;> first | exact Or.inr (by decide) | (with_reducible exact Or.inl rfl) | skip)

theorem standbyCmd_moves {M : List Part} {s0 s : State} (hw : inMask [.ans, .pwr] M = true) (h0 : Moves M s0 s) : Moves M s0 (standbyCmd s) := by
  refine Moves.via (N := [.ans, .pwr]) ?_ hw h0
  clear hw h0
  have hK := Moves.refl [.ans, .pwr] s
  unfold standbyCmd
  iterate 60 all_goals first
    | with_reducible assumption
    | ((with_reducible apply refuseIf_moves (hw := ?w)); case w => rfl)
    | ((with_reducible apply answer_moves (hw := ?w)); case w => rfl)
    | intro _
    | dsimp only
    | split
    | ((with_reducible apply Moves.update) <;> first | (with_reducible exact Or.inl rfl) | exact Or.inr (by decide) | skip)

theorem wakeCmd_moves {M : List Part} {s0 s : State} (hw : inMask [.ans, .pwr] M = true) (h0 : Moves M s0 s) : Moves M s0 (wakeCmd s) := by
  refine Moves.via (N := [.ans, .pwr]) ?_ hw h0
  clear hw h0
  have hK := Moves.refl [.ans, .pwr] s
  unfold wakeCmd
  iterate 60 all_goals first
    | with_reducible assumption
    | ((with_reducible apply answer_moves (hw := ?w)); case w => rfl)
    | intro _
    | dsimp only
    | split
    | ((with_reducible apply Moves.update) <;> first | (with_reducible exact Or.inl rfl) | exact Or.inr (by decide) | skip)

theorem setPhase_moves (n : Nat) {M : List Part} {s0 s : State} (hw : inMask [.regs] M = true) (h0 : Moves M s0 s) : Moves M s0 (setPhase n s) := by
  refine Moves.via (N := [.regs]) ?_ hw h0
  clear hw h0
  have hK := Moves.refl [.regs] s
  unfold setPhase
  iterate 60 all_goals first
    | with_reducible assumption
    | ((with_reducible apply setFld_moves (hw := ?w)); case w => rfl)
    | intro _
    | dsimp only
    | split

theorem requestDetach_moves {M : List Part} {s0 s : State} (hw : inMask [.regs, .mem, .pwr, .seq, .links, .src, .hbm] M = true) (h0 : Moves M s0 s) : Moves M s0 (requestDetach s) := by
  refine Moves.via (N := [.regs, .mem, .pwr, .seq, .links, .src, .hbm]) ?_ hw h0
  clear hw h0
  have hK := Moves.refl [.regs, .mem, .pwr, .seq, .links, .src, .hbm] s
  unfold requestDetach
  iterate 60 all_goals first
    | with_reducible assumption
    | ((with_reducible apply setPhase_moves (hw := ?w)); case w => rfl)
    | ((with_reducible apply orReg_moves (hw := ?w)); case w => rfl)
    | ((with_reducible apply abortStep_moves (hw := ?w)); case w => rfl)
    | intro _
    | dsimp only
    | split

theorem sendStream_moves (x0 x1 : Nat) {M : List Part} {s0 s : State} (hw : inMask [.regs, .net] M = true) (h0 : Moves M s0 s) : Moves M s0 (sendStream x0 x1 s) := by
  refine Moves.via (N := [.regs, .net]) ?_ hw h0
  clear hw h0
  induction x0 generalizing x1 s with
  | zero =>
    have hK := Moves.refl [.regs, .net] s
    unfold sendStream
    iterate 60 all_goals first
      | with_reducible assumption
      | ((with_reducible apply streamSend_moves (hw := ?w)); case w => rfl)
      | intro _
      | dsimp only
      | split
  | succ n ih =>
    have hK := Moves.refl [.regs, .net] s
    unfold sendStream
    iterate 60 all_goals first
      | with_reducible assumption
      | ((with_reducible apply streamSend_moves (hw := ?w)); case w => rfl)
      | with_reducible refine Moves.trans ?_ (ih ..)
      | intro _
      | dsimp only
      | split

theorem drainStreams_moves {M : List Part} {s0 s : State} (hw : inMask [.regs, .net] M = true) (h0 : Moves M s0 s) : Moves M s0 (drainStreams s) := by
  refine Moves.via (N := [.regs, .net]) ?_ hw h0
  clear hw h0
  have hK := Moves.refl [.regs, .net] s
  unfold drainStreams
  iterate 60 all_goals first
    | with_reducible assumption
    | ((with_reducible apply sendStream_moves (hw := ?w)); case w => rfl)
    | ((with_reducible apply closeStreams_moves (hw := ?w)); case w => rfl)
    | with_reducible apply Moves.foldl
    | intro _
    | dsimp only
    | split

theorem squelchLanes_moves {M : List Part} {s0 s : State} (hw : inMask [.regs, .mem, .ans, .net, .flt, .lanes, .seq, .links, .tst, .cmp, .trg, .mea, .tdc, .hbm] M = true) (h0 : Moves M s0 s) : Moves M s0 (squelchLanes s) := by
  refine Moves.via (N := [.regs, .mem, .ans, .net, .flt, .lanes, .seq, .links, .tst, .cmp, .trg, .mea, .tdc, .hbm]) ?_ hw h0
  clear hw h0
  have hK := Moves.refl [.regs, .mem, .ans, .net, .flt, .lanes, .seq, .links, .tst, .cmp, .trg, .mea, .tdc, .hbm] s
  unfold squelchLanes
  iterate 60 all_goals first
    | with_reducible assumption
    | ((with_reducible apply leaveActive_moves (hw := ?w)); case w => rfl)
    | ((with_reducible apply enterDetect_moves (hw := ?w)); case w => rfl)
    | ((with_reducible apply modLane_moves (hw := ?w)); case w => rfl)
    | with_reducible apply Moves.foldl
    | intro _
    | dsimp only
    | split

theorem enterDetached_moves {M : List Part} {s0 s : State} (hw : inMask [.regs, .net, .pwr, .dbg, .seq, .qdr, .sch] M = true) (h0 : Moves M s0 s) : Moves M s0 (enterDetached s) := by
  refine Moves.via (N := [.regs, .net, .pwr, .dbg, .seq, .qdr, .sch]) ?_ hw h0
  clear hw h0
  have hK := Moves.refl [.regs, .net, .pwr, .dbg, .seq, .qdr, .sch] s
  unfold enterDetached
  iterate 60 all_goals first
    | with_reducible assumption
    | ((with_reducible apply endDebug_moves (hw := ?w)); case w => rfl)
    | ((with_reducible apply endExtest_moves (hw := ?w)); case w => rfl)
    | ((with_reducible apply closeAll_moves (hw := ?w)); case w => rfl)
    | ((with_reducible apply setPhase_moves (hw := ?w)); case w => rfl)
    | intro _
    | dsimp only
    | split
    | ((with_reducible apply Moves.update) <;> first | exact Or.inr (by decide) | (with_reducible exact Or.inl rfl) | skip)

theorem advanceDetach_moves {M : List Part} {s0 s : State} (hw : inMask [.regs, .mem, .ans, .net, .flt, .pwr, .dbg, .lanes, .seq, .links, .tst, .cmp, .trg, .mea, .src, .tdc, .qdr, .hbm, .sch] M = true) (h0 : Moves M s0 s) : Moves M s0 (advanceDetach s) := by
  refine Moves.via (N := [.regs, .mem, .ans, .net, .flt, .pwr, .dbg, .lanes, .seq, .links, .tst, .cmp, .trg, .mea, .src, .tdc, .qdr, .hbm, .sch]) ?_ hw h0
  clear hw h0
  have hK := Moves.refl [.regs, .mem, .ans, .net, .flt, .pwr, .dbg, .lanes, .seq, .links, .tst, .cmp, .trg, .mea, .src, .tdc, .qdr, .hbm, .sch] s
  unfold advanceDetach
  iterate 60 all_goals first
    | with_reducible assumption
    | ((with_reducible apply setPhase_moves (hw := ?w)); case w => rfl)
    | ((with_reducible apply abortStep_moves (hw := ?w)); case w => rfl)
    | ((with_reducible apply drainStreams_moves (hw := ?w)); case w => rfl)
    | ((with_reducible apply squelchLanes_moves (hw := ?w)); case w => rfl)
    | ((with_reducible apply depart_moves (hw := ?w)); case w => rfl)
    | ((with_reducible apply enterDetached_moves (hw := ?w)); case w => rfl)
    | intro _
    | dsimp only
    | split

theorem detachTimeout_moves {M : List Part} {s0 s : State} (hw : inMask [.freeIdx, .regs, .mem, .flt, .lib, .hbm, .sch, .dma] M = true) (h0 : Moves M s0 s) : Moves M s0 (detachTimeout s) := by
  refine Moves.via (N := [.freeIdx, .regs, .mem, .flt, .lib, .hbm, .sch, .dma]) ?_ hw h0
  clear hw h0
  have hK := Moves.refl [.freeIdx, .regs, .mem, .flt, .lib, .hbm, .sch, .dma] s
  unfold detachTimeout
  iterate 60 all_goals first
    | with_reducible assumption
    | ((with_reducible apply endRun_moves (hw := ?w)); case w => rfl)
    | ((with_reducible apply setBit_moves (hw := ?w)); case w => rfl)
    | ((with_reducible apply abandonUnits_moves (hw := ?w)); case w => rfl)
    | ((with_reducible apply openNotice_moves (hw := ?w)); case w => rfl)
    | ((with_reducible apply flushList_moves (hw := ?w)); case w => rfl)
    | with_reducible apply Moves.foldl
    | intro _
    | dsimp only
    | split
    | ((with_reducible apply Moves.update) <;> first | (with_reducible exact Or.inl rfl) | exact Or.inr (by decide) | skip)

theorem detachNLow_moves {M : List Part} {s0 s : State} (hw : inMask [.regs, .mem, .pwr, .seq, .links, .src, .hbm] M = true) (h0 : Moves M s0 s) : Moves M s0 (detachNLow s) := by
  refine Moves.via (N := [.regs, .mem, .pwr, .seq, .links, .src, .hbm]) ?_ hw h0
  clear hw h0
  have hK := Moves.refl [.regs, .mem, .pwr, .seq, .links, .src, .hbm] s
  unfold detachNLow
  iterate 60 all_goals first
    | with_reducible assumption
    | ((with_reducible apply requestDetach_moves (hw := ?w)); case w => rfl)
    | intro _
    | dsimp only
    | split
    | ((with_reducible apply Moves.update) <;> first | (with_reducible exact Or.inl rfl) | exact Or.inr (by decide) | skip)

theorem detachNHigh_moves (o : BootObs) {M : List Part} {s0 s : State} (hw : inMask [.beat, .freeIdx, .regs, .shadowS, .shadowF, .mem, .ans, .net, .flt, .lgr, .img, .pwr, .sec, .dbg, .tb, .lanes, .seq, .links, .tst, .cmp, .lib, .trg, .acq, .mea, .src, .tdc, .qdr, .hbm, .sch, .ptp, .dma] M = true) (h0 : Moves M s0 s) : Moves M s0 (detachNHigh o s) := by
  refine Moves.via (N := [.beat, .freeIdx, .regs, .shadowS, .shadowF, .mem, .ans, .net, .flt, .lgr, .img, .pwr, .sec, .dbg, .tb, .lanes, .seq, .links, .tst, .cmp, .lib, .trg, .acq, .mea, .src, .tdc, .qdr, .hbm, .sch, .ptp, .dma]) ?_ hw h0
  clear hw h0
  have hK := Moves.refl [.beat, .freeIdx, .regs, .shadowS, .shadowF, .mem, .ans, .net, .flt, .lgr, .img, .pwr, .sec, .dbg, .tb, .lanes, .seq, .links, .tst, .cmp, .lib, .trg, .acq, .mea, .src, .tdc, .qdr, .hbm, .sch, .ptp, .dma] s
  unfold detachNHigh
  iterate 60 all_goals first
    | with_reducible assumption
    | ((with_reducible apply commandReset_moves (hw := ?w)); case w => rfl)
    | intro _
    | dsimp only
    | split
    | ((with_reducible apply Moves.update) <;> first | (with_reducible exact Or.inl rfl) | exact Or.inr (by decide) | skip)

theorem beginInstall_moves (target : Nat) {M : List Part} {s0 s : State} (hw : inMask [.regs, .ans, .pwr] M = true) (h0 : Moves M s0 s) : Moves M s0 (beginInstall target s) := by
  refine Moves.via (N := [.regs, .ans, .pwr]) ?_ hw h0
  clear hw h0
  have hK := Moves.refl [.regs, .ans, .pwr] s
  unfold beginInstall
  iterate 60 all_goals first
    | with_reducible assumption
    | ((with_reducible apply refuseIf_moves (hw := ?w)); case w => rfl)
    | ((with_reducible apply answer_moves (hw := ?w)); case w => rfl)
    | ((with_reducible apply setRegN_moves (hw := ?w)); case w => rfl)
    | intro _
    | dsimp only
    | split
    | ((with_reducible apply Moves.update) <;> first | (with_reducible exact Or.inl rfl) | exact Or.inr (by decide) | skip)

theorem installDone_moves (c : CryptoObs) {M : List Part} {s0 s : State} (hw : inMask [.regs, .pwr, .lib] M = true) (h0 : Moves M s0 s) : Moves M s0 (installDone c s) := by
  refine Moves.via (N := [.regs, .pwr, .lib]) ?_ hw h0
  clear hw h0
  have hK := Moves.refl [.regs, .pwr, .lib] s
  unfold installDone
  iterate 60 all_goals first
    | with_reducible assumption
    | ((with_reducible apply setRegN_moves (hw := ?w)); case w => rfl)
    | ((with_reducible apply setObj_moves (hw := ?w)); case w => rfl)
    | intro _
    | dsimp only
    | split
    | ((with_reducible apply Moves.update) <;> first | (with_reducible exact Or.inl rfl) | exact Or.inr (by decide) | skip)

theorem reboot_moves (o : BootObs) {M : List Part} {s0 s : State} (hw : inMask [.beat, .freeIdx, .regs, .shadowS, .shadowF, .mem, .ans, .net, .flt, .lgr, .img, .pwr, .sec, .dbg, .tb, .lanes, .seq, .links, .tst, .cmp, .lib, .trg, .acq, .mea, .src, .tdc, .qdr, .hbm, .sch, .ptp, .dma] M = true) (h0 : Moves M s0 s) : Moves M s0 (reboot o s) := by
  refine Moves.via (N := [.beat, .freeIdx, .regs, .shadowS, .shadowF, .mem, .ans, .net, .flt, .lgr, .img, .pwr, .sec, .dbg, .tb, .lanes, .seq, .links, .tst, .cmp, .lib, .trg, .acq, .mea, .src, .tdc, .qdr, .hbm, .sch, .ptp, .dma]) ?_ hw h0
  clear hw h0
  have hK := Moves.refl [.beat, .freeIdx, .regs, .shadowS, .shadowF, .mem, .ans, .net, .flt, .lgr, .img, .pwr, .sec, .dbg, .tb, .lanes, .seq, .links, .tst, .cmp, .lib, .trg, .acq, .mea, .src, .tdc, .qdr, .hbm, .sch, .ptp, .dma] s
  unfold reboot
  iterate 60 all_goals first
    | with_reducible assumption
    | ((with_reducible apply refuseIf_moves (hw := ?w)); case w => rfl)
    | ((with_reducible apply commandReset_moves (hw := ?w)); case w => rfl)
    | ((with_reducible apply answer_moves (hw := ?w)); case w => rfl)
    | intro _
    | dsimp only
    | split

theorem execResetNLow_moves {s s' : State} (h : execResetNLow s = .next s') : Moves [.beat, .freeIdx, .regs, .shadowS, .shadowF, .mem, .ans, .net, .flt, .lgr, .img, .pwr, .sec, .dbg, .tb, .lanes, .seq, .links, .tst, .cmp, .lib, .trg, .acq, .mea, .src, .tdc, .qdr, .hbm, .sch, .ptp, .dma] s s' := by
  unfold execResetNLow at h
  have hK := Moves.refl [.beat, .freeIdx, .regs, .shadowS, .shadowF, .mem, .ans, .net, .flt, .lgr, .img, .pwr, .sec, .dbg, .tb, .lanes, .seq, .links, .tst, .cmp, .lib, .trg, .acq, .mea, .src, .tdc, .qdr, .hbm, .sch, .ptp, .dma] s
  all_goals injection h with h
  all_goals subst h
  iterate 60 all_goals first
    | with_reducible assumption
    | ((with_reducible apply resetLow_moves (hw := ?w)); case w => rfl)
    | intro _
    | dsimp only
    | split

theorem execResetRelease_moves (straps : BitVec 8) (stable : Bool) (boot : BootObs) {s s' : State} (h : execResetRelease straps stable boot s = .next s') : Moves [.regs, .shadowS, .shadowF, .mem, .ans, .net, .flt, .lgr, .img, .pwr, .sec, .lanes, .seq, .links, .tst, .cmp, .trg, .mea, .tdc, .hbm, .sch] s s' := by
  unfold execResetRelease at h
  have hK := Moves.refl [.regs, .shadowS, .shadowF, .mem, .ans, .net, .flt, .lgr, .img, .pwr, .sec, .lanes, .seq, .links, .tst, .cmp, .trg, .mea, .tdc, .hbm, .sch] s
  all_goals injection h with h
  all_goals subst h
  iterate 60 all_goals first
    | with_reducible assumption
    | ((with_reducible apply resetRelease_moves (hw := ?w)); case w => rfl)
    | intro _
    | dsimp only
    | split

theorem execVinRise_moves {s s' : State} (h : execVinRise s = .next s') : Moves [.pwr] s s' := by
  unfold execVinRise at h
  have hK := Moves.refl [.pwr] s
  all_goals injection h with h
  all_goals subst h
  iterate 60 all_goals first
    | with_reducible assumption
    | ((with_reducible apply vinRise_moves (hw := ?w)); case w => rfl)
    | intro _
    | dsimp only
    | split

theorem execVinUvlo_moves {s s' : State} (h : execVinUvlo s = .next s') : Moves [.beat, .freeIdx, .regs, .shadowS, .shadowF, .mem, .ans, .net, .flt, .lgr, .img, .pwr, .sec, .dbg, .tb, .lanes, .seq, .links, .tst, .cmp, .lib, .trg, .acq, .mea, .src, .tdc, .qdr, .hbm, .sch, .ptp, .dma] s s' := by
  unfold execVinUvlo at h
  have hK := Moves.refl [.beat, .freeIdx, .regs, .shadowS, .shadowF, .mem, .ans, .net, .flt, .lgr, .img, .pwr, .sec, .dbg, .tb, .lanes, .seq, .links, .tst, .cmp, .lib, .trg, .acq, .mea, .src, .tdc, .qdr, .hbm, .sch, .ptp, .dma] s
  all_goals injection h with h
  all_goals subst h
  iterate 60 all_goals first
    | with_reducible assumption
    | ((with_reducible apply vinUvlo_moves (hw := ?w)); case w => rfl)
    | intro _
    | dsimp only
    | split

theorem execVinOvervoltage_moves {s s' : State} (h : execVinOvervoltage s = .next s') : Moves [.regs, .mem, .ans, .net, .flt, .pwr, .lanes, .seq, .links, .tst, .cmp, .trg, .mea, .src, .tdc, .hbm] s s' := by
  unfold execVinOvervoltage at h
  have hK := Moves.refl [.regs, .mem, .ans, .net, .flt, .pwr, .lanes, .seq, .links, .tst, .cmp, .trg, .mea, .src, .tdc, .hbm] s
  all_goals injection h with h
  all_goals subst h
  iterate 60 all_goals first
    | with_reducible assumption
    | ((with_reducible apply vinOvervoltage_moves (hw := ?w)); case w => rfl)
    | intro _
    | dsimp only
    | split

theorem execCurrentLimitHeld_moves {s s' : State} (h : execCurrentLimitHeld s = .next s') : Moves [.regs, .mem, .ans, .net, .flt, .pwr, .lanes, .seq, .links, .tst, .cmp, .trg, .mea, .src, .tdc, .hbm] s s' := by
  unfold execCurrentLimitHeld at h
  have hK := Moves.refl [.regs, .mem, .ans, .net, .flt, .pwr, .lanes, .seq, .links, .tst, .cmp, .trg, .mea, .src, .tdc, .hbm] s
  all_goals injection h with h
  all_goals subst h
  iterate 60 all_goals first
    | with_reducible assumption
    | ((with_reducible apply stageFault_moves (hw := ?w)); case w => rfl)
    | ((with_reducible apply orReg_moves (hw := ?w)); case w => rfl)
    | intro _
    | dsimp only
    | split

theorem execRailOutOfRange_moves {s s' : State} (h : execRailOutOfRange s = .next s') : Moves [.regs, .mem, .ans, .net, .flt, .pwr, .lanes, .seq, .links, .tst, .cmp, .trg, .mea, .src, .tdc, .hbm] s s' := by
  unfold execRailOutOfRange at h
  have hK := Moves.refl [.regs, .mem, .ans, .net, .flt, .pwr, .lanes, .seq, .links, .tst, .cmp, .trg, .mea, .src, .tdc, .hbm] s
  all_goals injection h with h
  all_goals subst h
  iterate 60 all_goals first
    | with_reducible assumption
    | ((with_reducible apply stageFault_moves (hw := ?w)); case w => rfl)
    | intro _
    | dsimp only
    | split

theorem execSysReset_moves (q : Req) (boot : BootObs) {s s' : State} (h : execSysReset q boot s = .next s') : Moves [.beat, .freeIdx, .regs, .shadowS, .shadowF, .mem, .ans, .net, .flt, .lgr, .img, .pwr, .sec, .dbg, .tb, .lanes, .seq, .links, .tst, .cmp, .lib, .trg, .acq, .mea, .src, .tdc, .qdr, .hbm, .sch, .ptp, .dma] s s' := by
  unfold execSysReset at h
  have hK := Moves.refl [.beat, .freeIdx, .regs, .shadowS, .shadowF, .mem, .ans, .net, .flt, .lgr, .img, .pwr, .sec, .dbg, .tb, .lanes, .seq, .links, .tst, .cmp, .lib, .trg, .acq, .mea, .src, .tdc, .qdr, .hbm, .sch, .ptp, .dma] s
  all_goals injection h with h
  all_goals subst h
  iterate 60 all_goals first
    | with_reducible assumption
    | ((with_reducible apply guarded_moves (hw := ?w)); case w => rfl)
    | ((with_reducible apply commandReset_moves (hw := ?w)); case w => rfl)
    | ((with_reducible apply answer_moves (hw := ?w)); case w => rfl)
    | intro _
    | dsimp only
    | split

theorem execSysDetach_moves (q : Req) {s s' : State} (h : execSysDetach q s = .next s') : Moves [.regs, .mem, .ans, .pwr, .seq, .links, .src, .hbm] s s' := by
  unfold execSysDetach at h
  have hK := Moves.refl [.regs, .mem, .ans, .pwr, .seq, .links, .src, .hbm] s
  all_goals injection h with h
  all_goals subst h
  iterate 60 all_goals first
    | with_reducible assumption
    | ((with_reducible apply guarded_moves (hw := ?w)); case w => rfl)
    | ((with_reducible apply answer_moves (hw := ?w)); case w => rfl)
    | ((with_reducible apply requestDetach_moves (hw := ?w)); case w => rfl)
    | intro _
    | dsimp only
    | split

theorem execInstall_moves (q : Req) (target : Fin 256) {s s' : State} (h : execInstall q target s = .next s') : Moves [.regs, .ans, .pwr] s s' := by
  unfold execInstall at h
  have hK := Moves.refl [.regs, .ans, .pwr] s
  all_goals injection h with h
  all_goals subst h
  iterate 60 all_goals first
    | with_reducible assumption
    | ((with_reducible apply guarded_moves (hw := ?w)); case w => rfl)
    | ((with_reducible apply beginInstall_moves (hw := ?w)); case w => rfl)
    | intro _
    | dsimp only
    | split

theorem execInstallDone_moves (obs : CryptoObs) {s s' : State} (h : execInstallDone obs s = .next s') : Moves [.regs, .pwr, .lib] s s' := by
  unfold execInstallDone at h
  have hK := Moves.refl [.regs, .pwr, .lib] s
  all_goals injection h with h
  all_goals subst h
  iterate 60 all_goals first
    | with_reducible assumption
    | ((with_reducible apply installDone_moves (hw := ?w)); case w => rfl)
    | intro _
    | dsimp only
    | split

theorem execReboot_moves (q : Req) (boot : BootObs) {s s' : State} (h : execReboot q boot s = .next s') : Moves [.beat, .freeIdx, .regs, .shadowS, .shadowF, .mem, .ans, .net, .flt, .lgr, .img, .pwr, .sec, .dbg, .tb, .lanes, .seq, .links, .tst, .cmp, .lib, .trg, .acq, .mea, .src, .tdc, .qdr, .hbm, .sch, .ptp, .dma] s s' := by
  unfold execReboot at h
  have hK := Moves.refl [.beat, .freeIdx, .regs, .shadowS, .shadowF, .mem, .ans, .net, .flt, .lgr, .img, .pwr, .sec, .dbg, .tb, .lanes, .seq, .links, .tst, .cmp, .lib, .trg, .acq, .mea, .src, .tdc, .qdr, .hbm, .sch, .ptp, .dma] s
  all_goals injection h with h
  all_goals subst h
  iterate 60 all_goals first
    | with_reducible assumption
    | ((with_reducible apply guarded_moves (hw := ?w)); case w => rfl)
    | ((with_reducible apply reboot_moves (hw := ?w)); case w => rfl)
    | intro _
    | dsimp only
    | split

theorem execStandby_moves (q : Req) {s s' : State} (h : execStandby q s = .next s') : Moves [.ans, .pwr] s s' := by
  unfold execStandby at h
  have hK := Moves.refl [.ans, .pwr] s
  all_goals injection h with h
  all_goals subst h
  iterate 60 all_goals first
    | with_reducible assumption
    | ((with_reducible apply guarded_moves (hw := ?w)); case w => rfl)
    | ((with_reducible apply standbyCmd_moves (hw := ?w)); case w => rfl)
    | intro _
    | dsimp only
    | split

theorem execWake_moves (q : Req) {s s' : State} (h : execWake q s = .next s') : Moves [.ans, .pwr] s s' := by
  unfold execWake at h
  have hK := Moves.refl [.ans, .pwr] s
  all_goals injection h with h
  all_goals subst h
  iterate 60 all_goals first
    | with_reducible assumption
    | ((with_reducible apply guarded_moves (hw := ?w)); case w => rfl)
    | ((with_reducible apply wakeCmd_moves (hw := ?w)); case w => rfl)
    | intro _
    | dsimp only
    | split

theorem execPwrDetach_moves (q : Req) {s s' : State} (h : execPwrDetach q s = .next s') : Moves [.regs, .mem, .ans, .pwr, .seq, .links, .src, .hbm] s s' := by
  unfold execPwrDetach at h
  have hK := Moves.refl [.regs, .mem, .ans, .pwr, .seq, .links, .src, .hbm] s
  all_goals injection h with h
  all_goals subst h
  iterate 60 all_goals first
    | with_reducible assumption
    | ((with_reducible apply guarded_moves (hw := ?w)); case w => rfl)
    | ((with_reducible apply answer_moves (hw := ?w)); case w => rfl)
    | ((with_reducible apply requestDetach_moves (hw := ?w)); case w => rfl)
    | intro _
    | dsimp only
    | split

theorem execDetachNLow_moves {s s' : State} (h : execDetachNLow s = .next s') : Moves [.regs, .mem, .pwr, .seq, .links, .src, .hbm] s s' := by
  unfold execDetachNLow at h
  have hK := Moves.refl [.regs, .mem, .pwr, .seq, .links, .src, .hbm] s
  all_goals injection h with h
  all_goals subst h
  iterate 60 all_goals first
    | with_reducible assumption
    | ((with_reducible apply detachNLow_moves (hw := ?w)); case w => rfl)
    | intro _
    | dsimp only
    | split

theorem execDetachPhaseAdvance_moves {s s' : State} (h : execDetachPhaseAdvance s = .next s') : Moves [.regs, .mem, .ans, .net, .flt, .pwr, .dbg, .lanes, .seq, .links, .tst, .cmp, .trg, .mea, .src, .tdc, .qdr, .hbm, .sch] s s' := by
  unfold execDetachPhaseAdvance at h
  have hK := Moves.refl [.regs, .mem, .ans, .net, .flt, .pwr, .dbg, .lanes, .seq, .links, .tst, .cmp, .trg, .mea, .src, .tdc, .qdr, .hbm, .sch] s
  all_goals injection h with h
  all_goals subst h
  iterate 60 all_goals first
    | with_reducible assumption
    | ((with_reducible apply advanceDetach_moves (hw := ?w)); case w => rfl)
    | intro _
    | dsimp only
    | split

theorem execDetachTimeout_moves {s s' : State} (h : execDetachTimeout s = .next s') : Moves [.freeIdx, .regs, .mem, .flt, .lib, .hbm, .sch, .dma] s s' := by
  unfold execDetachTimeout at h
  have hK := Moves.refl [.freeIdx, .regs, .mem, .flt, .lib, .hbm, .sch, .dma] s
  all_goals injection h with h
  all_goals subst h
  iterate 60 all_goals first
    | with_reducible assumption
    | ((with_reducible apply detachTimeout_moves (hw := ?w)); case w => rfl)
    | intro _
    | dsimp only
    | split

theorem execDetachNHighRestart_moves (boot : BootObs) {s s' : State} (h : execDetachNHighRestart boot s = .next s') : Moves [.beat, .freeIdx, .regs, .shadowS, .shadowF, .mem, .ans, .net, .flt, .lgr, .img, .pwr, .sec, .dbg, .tb, .lanes, .seq, .links, .tst, .cmp, .lib, .trg, .acq, .mea, .src, .tdc, .qdr, .hbm, .sch, .ptp, .dma] s s' := by
  unfold execDetachNHighRestart at h
  have hK := Moves.refl [.beat, .freeIdx, .regs, .shadowS, .shadowF, .mem, .ans, .net, .flt, .lgr, .img, .pwr, .sec, .dbg, .tb, .lanes, .seq, .links, .tst, .cmp, .lib, .trg, .acq, .mea, .src, .tdc, .qdr, .hbm, .sch, .ptp, .dma] s
  all_goals injection h with h
  all_goals subst h
  iterate 60 all_goals first
    | with_reducible assumption
    | ((with_reducible apply detachNHigh_moves (hw := ?w)); case w => rfl)
    | intro _
    | dsimp only
    | split

end Sys2Proof.Laws
end

