-- ==== Sys2Proof/Laws/MovesRegRead.lean ====
section
/-! SUPPORT. What the operations of Machine/RegRead.lean may change of the state, and that they keep what no operation breaks. -/

namespace Sys2Proof.Laws

open Sys2Proof Sys2Proof.Machine

theorem readEffect_moves (a : Nat) {M : List Part} {s0 s : State} (hw : inMask [.regs, .tb] M = true) (h0 : Moves M s0 s) : Moves M s0 (readEffect a s) := by
  refine Moves.via (N := [.regs, .tb]) ?_ hw h0
  clear hw h0
  have hK := Moves.refl [.regs, .tb] s
  unfold readEffect
  iterate 60 all_goals first
    | with_reducible assumption
    | ((with_reducible apply nextCoef_moves (hw := ?w)); case w => rfl)
    | ((with_reducible apply nextBin_moves (hw := ?w)); case w => rfl)
    | ((with_reducible apply nextLin_moves (hw := ?w)); case w => rfl)
    | ((with_reducible apply ptpReadTime_movesE (hE := by assumption) (hw := ?w)); case w => rfl)
    | ((with_reducible apply ptpReadTime_moves (hw := ?w)); case w => rfl)
    | ((with_reducible apply ledgerRead_movesE (hE := by assumption) (hw := ?w)); case w => rfl)
    | ((with_reducible apply ledgerRead_moves (hw := ?w)); case w => rfl)
    | intro _
    | dsimp only
    | split
    | ((with_reducible apply Moves.update) <;> first | (with_reducible exact Or.inl rfl) | exact Or.inr (by decide) | skip)

theorem readReg_moves (a : Nat) {M : List Part} {s0 s : State} (hw : inMask [.regs, .tb] M = true) (h0 : Moves M s0 s) : Moves M s0 (readReg a s).2 := by
  refine Moves.via (N := [.regs, .tb]) ?_ hw h0
  clear hw h0
  have hK := Moves.refl [.regs, .tb] s
  unfold readReg
  iterate 60 all_goals first
    | with_reducible assumption
    | ((with_reducible apply readEffect_moves (hw := ?w)); case w => rfl)
    | intro _
    | dsimp only
    | split
theorem readReg_movesE {a : Nat} {w0} {M : List Part} {s0 s s' : State} (hE : readReg a s = (w0, s')) (hw : inMask [.regs, .tb] M = true) (h0 : Moves M s0 s) : Moves M s0 s' := by
  have k := readReg_moves (hw := hw) (h0 := h0) (a := a)
  rw [hE] at k
  exact k

theorem beatCountRead_moves {M : List Part} {s0 s : State} (hw : inMask [.regs, .ans, .tb] M = true) (h0 : Moves M s0 s) : Moves M s0 (beatCountRead s) := by
  refine Moves.via (N := [.regs, .ans, .tb]) ?_ hw h0
  clear hw h0
  have hK := Moves.refl [.regs, .ans, .tb] s
  unfold beatCountRead
  iterate 60 all_goals first
    | with_reducible assumption
    | ((with_reducible apply readReg_movesE (hE := by assumption) (hw := ?w)); case w => rfl)
    | ((with_reducible apply readReg_moves (hw := ?w)); case w => rfl)
    | ((with_reducible apply answerData_moves (hw := ?w)); case w => rfl)
    | intro _
    | dsimp only
    | split

theorem execBeatCountRead_moves (q : Req) {s s' : State} (h : execBeatCountRead q s = .next s') : Moves [.regs, .ans, .tb] s s' := by
  unfold execBeatCountRead at h
  have hK := Moves.refl [.regs, .ans, .tb] s
  all_goals injection h with h
  all_goals subst h
  iterate 60 all_goals first
    | with_reducible assumption
    | ((with_reducible apply guardedRead_moves (hw := ?w)); case w => rfl)
    | ((with_reducible apply beatCountRead_moves (hw := ?w)); case w => rfl)
    | intro _
    | dsimp only
    | split

end Sys2Proof.Laws
end

