-- ==== Sys2Proof/Laws/MovesHostWrite.lean ====
section
/-! SUPPORT. What the operations of Machine/HostWrite.lean may change of the state, and that they keep what no operation breaks. -/

namespace Sys2Proof.Laws

open Sys2Proof Sys2Proof.Machine

theorem plainWrite_moves (a : Nat) (v : Word) {M : List Part} {s0 s : State} (hw : inMask [.regs, .shadowS, .shadowF, .ans] M = true) (h0 : Moves M s0 s) : Moves M s0 (plainWrite a v s) := by
  refine Moves.via (N := [.regs, .shadowS, .shadowF, .ans]) ?_ hw h0
  clear hw h0
  have hK := Moves.refl [.regs, .shadowS, .shadowF, .ans] s
  unfold plainWrite
  iterate 60 all_goals first
    | with_reducible assumption
    | ((with_reducible apply refuseIf_moves (hw := ?w)); case w => rfl)
    | ((with_reducible apply accept_moves (hw := ?w)); case w => rfl)
    | intro _
    | dsimp only
    | split

theorem writeSys_moves (o : WriteObs) (a : Nat) (v : Word) {M : List Part} {s0 s : State} (hw : inMask [.beat, .freeIdx, .regs, .shadowS, .shadowF, .mem, .ans, .net, .flt, .lgr, .img, .pwr, .sec, .dbg, .tb, .lanes, .seq, .links, .tst, .cmp, .lib, .trg, .acq, .mea, .src, .tdc, .qdr, .hbm, .sch, .ptp, .dma] M = true) (h0 : Moves M s0 s) : Moves M s0 (writeSys o a v s) := by
  refine Moves.via (N := [.beat, .freeIdx, .regs, .shadowS, .shadowF, .mem, .ans, .net, .flt, .lgr, .img, .pwr, .sec, .dbg, .tb, .lanes, .seq, .links, .tst, .cmp, .lib, .trg, .acq, .mea, .src, .tdc, .qdr, .hbm, .sch, .ptp, .dma]) ?_ hw h0
  clear hw h0
  have hK := Moves.refl [.beat, .freeIdx, .regs, .shadowS, .shadowF, .mem, .ans, .net, .flt, .lgr, .img, .pwr, .sec, .dbg, .tb, .lanes, .seq, .links, .tst, .cmp, .lib, .trg, .acq, .mea, .src, .tdc, .qdr, .hbm, .sch, .ptp, .dma] s
  unfold writeSys
  iterate 60 all_goals first
    | with_reducible assumption
    | ((with_reducible apply commandReset_moves (hw := ?w)); case w => rfl)
    | ((with_reducible apply answer_moves (hw := ?w)); case w => rfl)
    | ((with_reducible apply requestDetach_moves (hw := ?w)); case w => rfl)
    | ((with_reducible apply beginInstall_moves (hw := ?w)); case w => rfl)
    | ((with_reducible apply reboot_moves (hw := ?w)); case w => rfl)
    | ((with_reducible apply refuseIf_moves (hw := ?w)); case w => rfl)
    | ((with_reducible apply plainWrite_moves (hw := ?w)); case w => rfl)
    | intro _
    | dsimp only
    | split

theorem writeImg_moves (q : Req) (a : Nat) (v : Word) {M : List Part} {s0 s : State} (hw : inMask [.regs, .shadowS, .shadowF, .ans, .net, .img] M = true) (h0 : Moves M s0 s) : Moves M s0 (writeImg q a v s) := by
  refine Moves.via (N := [.regs, .shadowS, .shadowF, .ans, .net, .img]) ?_ hw h0
  clear hw h0
  have hK := Moves.refl [.regs, .shadowS, .shadowF, .ans, .net, .img] s
  unfold writeImg
  iterate 60 all_goals first
    | with_reducible assumption
    | ((with_reducible apply beginVerify_moves (hw := ?w)); case w => rfl)
    | ((with_reducible apply beginLoad_moves (hw := ?w)); case w => rfl)
    | ((with_reducible apply answer_moves (hw := ?w)); case w => rfl)
    | ((with_reducible apply plainWrite_moves (hw := ?w)); case w => rfl)
    | intro _
    | dsimp only
    | split

theorem writeTbf_moves (a : Nat) (v : Word) {M : List Part} {s0 s : State} (hw : inMask [.regs, .shadowS, .shadowF, .ans, .tb] M = true) (h0 : Moves M s0 s) : Moves M s0 (writeTbf a v s) := by
  refine Moves.via (N := [.regs, .shadowS, .shadowF, .ans, .tb]) ?_ hw h0
  clear hw h0
  have hK := Moves.refl [.regs, .shadowS, .shadowF, .ans, .tb] s
  unfold writeTbf
  iterate 60 all_goals first
    | with_reducible assumption
    | ((with_reducible apply refuseIf_moves (hw := ?w)); case w => rfl)
    | ((with_reducible apply accept_moves (hw := ?w)); case w => rfl)
    | ((with_reducible apply refPolicy_moves (hw := ?w)); case w => rfl)
    | ((with_reducible apply showSlackWarn_moves (hw := ?w)); case w => rfl)
    | ((with_reducible apply plainWrite_moves (hw := ?w)); case w => rfl)
    | intro _
    | dsimp only
    | split
    | ((with_reducible apply Moves.update) <;> first | (with_reducible exact Or.inl rfl) | exact Or.inr (by decide) | skip)

theorem writeLnk_moves (g a : Nat) (v : Word) {M : List Part} {s0 s : State} (hw : inMask [.freeIdx, .regs, .shadowS, .shadowF, .mem, .ans, .net, .flt, .lanes, .seq, .links, .tst, .cmp, .trg, .mea, .tdc, .hbm] M = true) (h0 : Moves M s0 s) : Moves M s0 (writeLnk g a v s) := by
  refine Moves.via (N := [.freeIdx, .regs, .shadowS, .shadowF, .mem, .ans, .net, .flt, .lanes, .seq, .links, .tst, .cmp, .trg, .mea, .tdc, .hbm]) ?_ hw h0
  clear hw h0
  have hK := Moves.refl [.freeIdx, .regs, .shadowS, .shadowF, .mem, .ans, .net, .flt, .lanes, .seq, .links, .tst, .cmp, .trg, .mea, .tdc, .hbm] s
  unfold writeLnk
  iterate 60 all_goals first
    | with_reducible assumption
    | ((with_reducible apply phyCommand_moves (hw := ?w)); case w => rfl)
    | ((with_reducible apply xctrlWrite_moves (hw := ?w)); case w => rfl)
    | ((with_reducible apply manualWrite_moves (hw := ?w)); case w => rfl)
    | ((with_reducible apply bertWrite_moves (hw := ?w)); case w => rfl)
    | ((with_reducible apply frXctrl_moves (hw := ?w)); case w => rfl)
    | ((with_reducible apply frameInject_moves (hw := ?w)); case w => rfl)
    | ((with_reducible apply plainWrite_moves (hw := ?w)); case w => rfl)
    | intro _
    | dsimp only
    | split

theorem showSeqFull_moves {M : List Part} {s0 s : State} (hw : inMask [.regs] M = true) (h0 : Moves M s0 s) : Moves M s0 (showSeqFull s) := by
  refine Moves.via (N := [.regs]) ?_ hw h0
  clear hw h0
  have hK := Moves.refl [.regs] s
  unfold showSeqFull
  iterate 60 all_goals first
    | with_reducible assumption
    | ((with_reducible apply setBit_moves (hw := ?w)); case w => rfl)
    | intro _
    | dsimp only
    | split

theorem writeSeq_moves (a : Nat) (v : Word) {M : List Part} {s0 s : State} (hw : inMask [.regs, .shadowS, .shadowF, .mem, .ans, .flt, .pwr, .tb, .seq, .links, .tst, .cmp, .lib, .acq, .mea, .src, .tdc, .hbm] M = true) (h0 : Moves M s0 s) : Moves M s0 (writeSeq a v s) := by
  refine Moves.via (N := [.regs, .shadowS, .shadowF, .mem, .ans, .flt, .pwr, .tb, .seq, .links, .tst, .cmp, .lib, .acq, .mea, .src, .tdc, .hbm]) ?_ hw h0
  clear hw h0
  have hK := Moves.refl [.regs, .shadowS, .shadowF, .mem, .ans, .flt, .pwr, .tb, .seq, .links, .tst, .cmp, .lib, .acq, .mea, .src, .tdc, .hbm] s
  unfold writeSeq
  iterate 60 all_goals first
    | with_reducible assumption
    | ((with_reducible apply stepStart_moves (hw := ?w)); case w => rfl)
    | ((with_reducible apply answer_moves (hw := ?w)); case w => rfl)
    | ((with_reducible apply abortStep_moves (hw := ?w)); case w => rfl)
    | ((with_reducible apply showSeqFull_moves (hw := ?w)); case w => rfl)
    | ((with_reducible apply plainWrite_moves (hw := ?w)); case w => rfl)
    | intro _
    | dsimp only
    | split

theorem tstCommand_moves (q : Req) (g : Nat) (v : Word) {M : List Part} {s0 s : State} (hw : inMask [.regs, .ans, .net, .links, .tst] M = true) (h0 : Moves M s0 s) : Moves M s0 (tstCommand q g v s) := by
  refine Moves.via (N := [.regs, .ans, .net, .links, .tst]) ?_ hw h0
  clear hw h0
  unfold tstCommand
  extract_lets t kept u
  have h1 : Moves [.regs, .ans, .net, .links, .tst] s t := by
    dsimp only [t]
    split
    · exact tstCommit_moves (hw := rfl) (h0 := Moves.refl _ s) ..
    · exact answer_moves (hw := rfl) (h0 := Moves.refl _ s) ..
  split
  · have h2 : Moves [.regs, .ans, .net, .links, .tst] s u := tstRead_moves (hw := rfl) (h0 := h1) ..
    clear_value u
    (with_reducible apply Moves.update) <;> first | (with_reducible exact Or.inl rfl) | exact Or.inr (by decide) | exact h2
  · exact h1

theorem writeTst_moves (q : Req) (g a : Nat) (v : Word) {M : List Part} {s0 s : State} (hw : inMask [.regs, .shadowS, .shadowF, .ans, .net, .links, .tst] M = true) (h0 : Moves M s0 s) : Moves M s0 (writeTst q g a v s) := by
  refine Moves.via (N := [.regs, .shadowS, .shadowF, .ans, .net, .links, .tst]) ?_ hw h0
  clear hw h0
  have hK := Moves.refl [.regs, .shadowS, .shadowF, .ans, .net, .links, .tst] s
  unfold writeTst
  iterate 60 all_goals first
    | with_reducible assumption
    | ((with_reducible apply tsetWrite_moves (hw := ?w)); case w => rfl)
    | ((with_reducible apply periodWrite_moves (hw := ?w)); case w => rfl)
    | ((with_reducible apply tstCommand_moves (hw := ?w)); case w => rfl)
    | ((with_reducible apply calCommand_moves (hw := ?w)); case w => rfl)
    | ((with_reducible apply writeRaw_moves (hw := ?w)); case w => rfl)
    | ((with_reducible apply answer_moves (hw := ?w)); case w => rfl)
    | ((with_reducible apply linWrite_moves (hw := ?w)); case w => rfl)
    | ((with_reducible apply modeWrite_moves (hw := ?w)); case w => rfl)
    | ((with_reducible apply plainWrite_moves (hw := ?w)); case w => rfl)
    | intro _
    | dsimp only
    | split

theorem writeCmp_moves (a : Nat) (v : Word) {M : List Part} {s0 s : State} (hw : inMask [.regs, .shadowS, .shadowF, .ans, .cmp] M = true) (h0 : Moves M s0 s) : Moves M s0 (writeCmp a v s) := by
  refine Moves.via (N := [.regs, .shadowS, .shadowF, .ans, .cmp]) ?_ hw h0
  clear hw h0
  have hK := Moves.refl [.regs, .shadowS, .shadowF, .ans, .cmp] s
  unfold writeCmp
  iterate 60 all_goals first
    | with_reducible assumption
    | ((with_reducible apply logRdWrite_moves (hw := ?w)); case w => rfl)
    | ((with_reducible apply logConfigWrite_moves (hw := ?w)); case w => rfl)
    | ((with_reducible apply failInject_moves (hw := ?w)); case w => rfl)
    | ((with_reducible apply plainWrite_moves (hw := ?w)); case w => rfl)
    | intro _
    | dsimp only
    | split

theorem writeMea_moves (a : Nat) (v : Word) {M : List Part} {s0 s : State} (hw : inMask [.regs, .shadowS, .shadowF, .ans, .mea] M = true) (h0 : Moves M s0 s) : Moves M s0 (writeMea a v s) := by
  refine Moves.via (N := [.regs, .shadowS, .shadowF, .ans, .mea]) ?_ hw h0
  clear hw h0
  have hK := Moves.refl [.regs, .shadowS, .shadowF, .ans, .mea] s
  unfold writeMea
  iterate 60 all_goals first
    | with_reducible assumption
    | ((with_reducible apply coefDataWrite_moves (hw := ?w)); case w => rfl)
    | ((with_reducible apply targetWrite_moves (hw := ?w)); case w => rfl)
    | ((with_reducible apply chainWrite_moves (hw := ?w)); case w => rfl)
    | ((with_reducible apply xchSetWrite_moves (hw := ?w)); case w => rfl)
    | ((with_reducible apply plainWrite_moves (hw := ?w)); case w => rfl)
    | intro _
    | dsimp only
    | split

theorem writeSrc_moves (a : Nat) (v : Word) {M : List Part} {s0 s : State} (hw : inMask [.regs, .shadowS, .shadowF, .ans, .src] M = true) (h0 : Moves M s0 s) : Moves M s0 (writeSrc a v s) := by
  refine Moves.via (N := [.regs, .shadowS, .shadowF, .ans, .src]) ?_ hw h0
  clear hw h0
  have hK := Moves.refl [.regs, .shadowS, .shadowF, .ans, .src] s
  unfold writeSrc
  iterate 60 all_goals first
    | with_reducible assumption
    | ((with_reducible apply answer_moves (hw := ?w)); case w => rfl)
    | ((with_reducible apply freqWrite_moves (hw := ?w)); case w => rfl)
    | ((with_reducible apply modSrc_moves (hw := ?w)); case w => rfl)
    | ((with_reducible apply plainWrite_moves (hw := ?w)); case w => rfl)
    | intro _
    | dsimp only
    | split
    | ((with_reducible apply Moves.update) <;> first | (with_reducible exact Or.inl rfl) | exact Or.inr (by decide) | skip)

theorem writeTdc_moves (a : Nat) (v : Word) {M : List Part} {s0 s : State} (hw : inMask [.regs, .shadowS, .shadowF, .ans, .links, .tdc] M = true) (h0 : Moves M s0 s) : Moves M s0 (writeTdc a v s) := by
  refine Moves.via (N := [.regs, .shadowS, .shadowF, .ans, .links, .tdc]) ?_ hw h0
  clear hw h0
  have hK := Moves.refl [.regs, .shadowS, .shadowF, .ans, .links, .tdc] s
  unfold writeTdc
  iterate 60 all_goals first
    | with_reducible assumption
    | ((with_reducible apply qRdWrite_moves (hw := ?w)); case w => rfl)
    | ((with_reducible apply calCd_moves (hw := ?w)); case w => rfl)
    | ((with_reducible apply answer_moves (hw := ?w)); case w => rfl)
    | ((with_reducible apply binWrite_moves (hw := ?w)); case w => rfl)
    | ((with_reducible apply plainWrite_moves (hw := ?w)); case w => rfl)
    | ((with_reducible apply setBit_moves (hw := ?w)); case w => rfl)
    | intro _
    | dsimp only
    | split

theorem writeTrg_moves (a : Nat) (v : Word) {M : List Part} {s0 s : State} (hw : inMask [.regs, .shadowS, .shadowF, .ans, .trg] M = true) (h0 : Moves M s0 s) : Moves M s0 (writeTrg a v s) := by
  refine Moves.via (N := [.regs, .shadowS, .shadowF, .ans, .trg]) ?_ hw h0
  clear hw h0
  have hK := Moves.refl [.regs, .shadowS, .shadowF, .ans, .trg] s
  unfold writeTrg
  iterate 60 all_goals first
    | with_reducible assumption
    | ((with_reducible apply answer_moves (hw := ?w)); case w => rfl)
    | ((with_reducible apply postDirect_moves (hw := ?w)); case w => rfl)
    | ((with_reducible apply lineSrcWrite_moves (hw := ?w)); case w => rfl)
    | ((with_reducible apply plainWrite_moves (hw := ?w)); case w => rfl)
    | intro _
    | dsimp only
    | split

theorem writeAcq_moves (a : Nat) (v : Word) {M : List Part} {s0 s : State} (hw : inMask [.regs, .shadowS, .shadowF, .ans] M = true) (h0 : Moves M s0 s) : Moves M s0 (writeAcq a v s) := by
  refine Moves.via (N := [.regs, .shadowS, .shadowF, .ans]) ?_ hw h0
  clear hw h0
  have hK := Moves.refl [.regs, .shadowS, .shadowF, .ans] s
  unfold writeAcq
  iterate 60 all_goals first
    | with_reducible assumption
    | ((with_reducible apply acqRdWrite_moves (hw := ?w)); case w => rfl)
    | ((with_reducible apply plainWrite_moves (hw := ?w)); case w => rfl)
    | intro _
    | dsimp only
    | split

theorem writeQdr_moves (a : Nat) (v : Word) {M : List Part} {s0 s : State} (hw : inMask [.regs, .shadowS, .shadowF, .ans, .qdr] M = true) (h0 : Moves M s0 s) : Moves M s0 (writeQdr a v s) := by
  refine Moves.via (N := [.regs, .shadowS, .shadowF, .ans, .qdr]) ?_ hw h0
  clear hw h0
  have hK := Moves.refl [.regs, .shadowS, .shadowF, .ans, .qdr] s
  unfold writeQdr
  iterate 60 all_goals first
    | with_reducible assumption
    | ((with_reducible apply answer_moves (hw := ?w)); case w => rfl)
    | ((with_reducible apply quadrilleListen_moves (hw := ?w)); case w => rfl)
    | ((with_reducible apply plainWrite_moves (hw := ?w)); case w => rfl)
    | intro _
    | dsimp only
    | split

theorem writeMemBlock_moves (a : Nat) (v : Word) {M : List Part} {s0 s : State} (hw : inMask [.regs, .shadowS, .shadowF, .ans, .lib, .hbm] M = true) (h0 : Moves M s0 s) : Moves M s0 (writeMemBlock a v s) := by
  refine Moves.via (N := [.regs, .shadowS, .shadowF, .ans, .lib, .hbm]) ?_ hw h0
  clear hw h0
  have hK := Moves.refl [.regs, .shadowS, .shadowF, .ans, .lib, .hbm] s
  unfold writeMemBlock
  iterate 60 all_goals first
    | with_reducible assumption
    | ((with_reducible apply objBaseWrite_moves (hw := ?w)); case w => rfl)
    | ((with_reducible apply memInject_moves (hw := ?w)); case w => rfl)
    | ((with_reducible apply plainWrite_moves (hw := ?w)); case w => rfl)
    | intro _
    | dsimp only
    | split

theorem libWord_moves (v : Word) {M : List Part} {s0 s : State} (hw : inMask [.regs, .ans, .net, .lib] M = true) (h0 : Moves M s0 s) : Moves M s0 (libWord v s) := by
  refine Moves.via (N := [.regs, .ans, .net, .lib]) ?_ hw h0
  clear hw h0
  have hK := Moves.refl [.regs, .ans, .net, .lib] s
  unfold libWord
  iterate 60 all_goals first
    | with_reducible assumption
    | ((with_reducible apply refuseIf_moves (hw := ?w)); case w => rfl)
    | ((with_reducible apply libCreate_moves (hw := ?w)); case w => rfl)
    | ((with_reducible apply libWrite_moves (hw := ?w)); case w => rfl)
    | ((with_reducible apply libRead_moves (hw := ?w)); case w => rfl)
    | ((with_reducible apply libDelete_moves (hw := ?w)); case w => rfl)
    | ((with_reducible apply libStage_moves (hw := ?w)); case w => rfl)
    | ((with_reducible apply libEvict_moves (hw := ?w)); case w => rfl)
    | ((with_reducible apply libInfo_moves (hw := ?w)); case w => rfl)
    | ((with_reducible apply libCancel_moves (hw := ?w)); case w => rfl)
    | ((with_reducible apply answer_moves (hw := ?w)); case w => rfl)
    | intro _
    | dsimp only
    | split

theorem writeLib_moves (a : Nat) (v : Word) {M : List Part} {s0 s : State} (hw : inMask [.regs, .shadowS, .shadowF, .ans, .net, .lib] M = true) (h0 : Moves M s0 s) : Moves M s0 (writeLib a v s) := by
  refine Moves.via (N := [.regs, .shadowS, .shadowF, .ans, .net, .lib]) ?_ hw h0
  clear hw h0
  have hK := Moves.refl [.regs, .shadowS, .shadowF, .ans, .net, .lib] s
  unfold writeLib
  iterate 60 all_goals first
    | with_reducible assumption
    | ((with_reducible apply libWord_moves (hw := ?w)); case w => rfl)
    | ((with_reducible apply plainWrite_moves (hw := ?w)); case w => rfl)
    | intro _
    | dsimp only
    | split

theorem xlistCfg_moves (v : Word) {M : List Part} {s0 s : State} (hw : inMask [.regs, .ans] M = true) (h0 : Moves M s0 s) : Moves M s0 (xlistCfg v s) := by
  refine Moves.via (N := [.regs, .ans]) ?_ hw h0
  clear hw h0
  have hK := Moves.refl [.regs, .ans] s
  unfold xlistCfg
  iterate 60 all_goals first
    | with_reducible assumption
    | ((with_reducible apply refuseIf_moves (hw := ?w)); case w => rfl)
    | ((with_reducible apply answer_moves (hw := ?w)); case w => rfl)
    | ((with_reducible apply setReg_moves (hw := ?w)); case w => rfl)
    | intro _
    | dsimp only
    | split

theorem xlistCores_moves (hi : Bool) (v : Word) {M : List Part} {s0 s : State} (hw : inMask [.regs, .ans] M = true) (h0 : Moves M s0 s) : Moves M s0 (xlistCores hi v s) := by
  refine Moves.via (N := [.regs, .ans]) ?_ hw h0
  clear hw h0
  have hK := Moves.refl [.regs, .ans] s
  unfold xlistCores
  iterate 60 all_goals first
    | with_reducible assumption
    | ((with_reducible apply refuseIf_moves (hw := ?w)); case w => rfl)
    | ((with_reducible apply answer_moves (hw := ?w)); case w => rfl)
    | ((with_reducible apply setReg_moves (hw := ?w)); case w => rfl)
    | intro _
    | dsimp only
    | split

theorem writeSch_moves (a : Nat) (v : Word) {M : List Part} {s0 s : State} (hw : inMask [.regs, .shadowS, .shadowF, .mem, .ans, .hbm, .sch] M = true) (h0 : Moves M s0 s) : Moves M s0 (writeSch a v s) := by
  refine Moves.via (N := [.regs, .shadowS, .shadowF, .mem, .ans, .hbm, .sch]) ?_ hw h0
  clear hw h0
  have hK := Moves.refl [.regs, .shadowS, .shadowF, .mem, .ans, .hbm, .sch] s
  unfold writeSch
  iterate 60 all_goals first
    | with_reducible assumption
    | ((with_reducible apply subGo_moves (hw := ?w)); case w => rfl)
    | ((with_reducible apply answer_moves (hw := ?w)); case w => rfl)
    | ((with_reducible apply flushList_moves (hw := ?w)); case w => rfl)
    | ((with_reducible apply flowRdWrite_moves (hw := ?w)); case w => rfl)
    | ((with_reducible apply xlistCfg_moves (hw := ?w)); case w => rfl)
    | ((with_reducible apply xlistCores_moves (hw := ?w)); case w => rfl)
    | ((with_reducible apply plainWrite_moves (hw := ?w)); case w => rfl)
    | intro _
    | dsimp only
    | split

theorem writeDma_moves (a : Nat) (v : Word) {M : List Part} {s0 s : State} (hw : inMask [.freeIdx, .regs, .shadowS, .shadowF, .mem, .ans, .hbm, .dma] M = true) (h0 : Moves M s0 s) : Moves M s0 (writeDma a v s) := by
  refine Moves.via (N := [.freeIdx, .regs, .shadowS, .shadowF, .mem, .ans, .hbm, .dma]) ?_ hw h0
  clear hw h0
  have hK := Moves.refl [.freeIdx, .regs, .shadowS, .shadowF, .mem, .ans, .hbm, .dma] s
  unfold writeDma
  iterate 60 all_goals first
    | with_reducible assumption
    | ((with_reducible apply dmaStart_moves (hw := ?w)); case w => rfl)
    | ((with_reducible apply dmaStop_moves (hw := ?w)); case w => rfl)
    | ((with_reducible apply answer_moves (hw := ?w)); case w => rfl)
    | ((with_reducible apply cqRdWrite_moves (hw := ?w)); case w => rfl)
    | ((with_reducible apply plainWrite_moves (hw := ?w)); case w => rfl)
    | intro _
    | dsimp only
    | split

theorem writeNet_moves (a : Nat) (v : Word) {M : List Part} {s0 s : State} (hw : inMask [.regs, .shadowS, .shadowF, .ans, .net] M = true) (h0 : Moves M s0 s) : Moves M s0 (writeNet a v s) := by
  refine Moves.via (N := [.regs, .shadowS, .shadowF, .ans, .net]) ?_ hw h0
  clear hw h0
  have hK := Moves.refl [.regs, .shadowS, .shadowF, .ans, .net] s
  unfold writeNet
  iterate 60 all_goals first
    | with_reducible assumption
    | ((with_reducible apply hostWriteEntry_moves (hw := ?w)); case w => rfl)
    | ((with_reducible apply hostClearEntry_moves (hw := ?w)); case w => rfl)
    | ((with_reducible apply hostReadEntry_moves (hw := ?w)); case w => rfl)
    | ((with_reducible apply answer_moves (hw := ?w)); case w => rfl)
    | ((with_reducible apply portCfgWrite_moves (hw := ?w)); case w => rfl)
    | ((with_reducible apply plainWrite_moves (hw := ?w)); case w => rfl)
    | intro _
    | dsimp only
    | split

theorem rxRdWrite_moves (v : Word) {M : List Part} {s0 s : State} (hw : inMask [.regs, .shadowS, .shadowF, .ans] M = true) (h0 : Moves M s0 s) : Moves M s0 (rxRdWrite v s) := by
  refine Moves.via (N := [.regs, .shadowS, .shadowF, .ans]) ?_ hw h0
  clear hw h0
  have hK := Moves.refl [.regs, .shadowS, .shadowF, .ans] s
  unfold rxRdWrite
  iterate 60 all_goals first
    | with_reducible assumption
    | ((with_reducible apply refuseIf_moves (hw := ?w)); case w => rfl)
    | ((with_reducible apply accept_moves (hw := ?w)); case w => rfl)
    | intro _
    | dsimp only
    | split

theorem writePtp_moves (a : Nat) (v : Word) {M : List Part} {s0 s : State} (hw : inMask [.freeIdx, .regs, .shadowS, .shadowF, .ans, .flt, .ptp] M = true) (h0 : Moves M s0 s) : Moves M s0 (writePtp a v s) := by
  refine Moves.via (N := [.freeIdx, .regs, .shadowS, .shadowF, .ans, .flt, .ptp]) ?_ hw h0
  clear hw h0
  have hK := Moves.refl [.freeIdx, .regs, .shadowS, .shadowF, .ans, .flt, .ptp] s
  unfold writePtp
  iterate 60 all_goals first
    | with_reducible assumption
    | ((with_reducible apply ptpCtrlWrite_moves (hw := ?w)); case w => rfl)
    | ((with_reducible apply ptpSnap_moves (hw := ?w)); case w => rfl)
    | ((with_reducible apply rxRdWrite_moves (hw := ?w)); case w => rfl)
    | ((with_reducible apply incCommit_moves (hw := ?w)); case w => rfl)
    | ((with_reducible apply ptpStep_moves (hw := ?w)); case w => rfl)
    | ((with_reducible apply ptpSet_moves (hw := ?w)); case w => rfl)
    | ((with_reducible apply ptpInvalidate_moves (hw := ?w)); case w => rfl)
    | ((with_reducible apply answer_moves (hw := ?w)); case w => rfl)
    | ((with_reducible apply lqWrite_moves (hw := ?w)); case w => rfl)
    | ((with_reducible apply plainWrite_moves (hw := ?w)); case w => rfl)
    | intro _
    | dsimp only
    | split

theorem writeFlt_moves (a : Nat) (v : Word) {M : List Part} {s0 s : State} (hw : inMask [.regs, .shadowS, .shadowF, .mem, .ans, .net, .flt, .img, .lanes, .seq, .links, .tst, .cmp, .trg, .mea, .tdc, .qdr, .hbm, .sch, .dma] M = true) (h0 : Moves M s0 s) : Moves M s0 (writeFlt a v s) := by
  refine Moves.via (N := [.regs, .shadowS, .shadowF, .mem, .ans, .net, .flt, .img, .lanes, .seq, .links, .tst, .cmp, .trg, .mea, .tdc, .qdr, .hbm, .sch, .dma]) ?_ hw h0
  clear hw h0
  have hK := Moves.refl [.regs, .shadowS, .shadowF, .mem, .ans, .net, .flt, .img, .lanes, .seq, .links, .tst, .cmp, .trg, .mea, .tdc, .qdr, .hbm, .sch, .dma] s
  unfold writeFlt
  iterate 60 all_goals first
    | with_reducible assumption
    | ((with_reducible apply answer_moves (hw := ?w)); case w => rfl)
    | ((with_reducible apply setReg_moves (hw := ?w)); case w => rfl)
    | ((with_reducible apply faultInject_moves (hw := ?w)); case w => rfl)
    | ((with_reducible apply plainWrite_moves (hw := ?w)); case w => rfl)
    | intro _
    | dsimp only
    | split

theorem writePwr_moves (a : Nat) (v : Word) {M : List Part} {s0 s : State} (hw : inMask [.regs, .shadowS, .shadowF, .mem, .ans, .pwr, .seq, .links, .src, .hbm] M = true) (h0 : Moves M s0 s) : Moves M s0 (writePwr a v s) := by
  refine Moves.via (N := [.regs, .shadowS, .shadowF, .mem, .ans, .pwr, .seq, .links, .src, .hbm]) ?_ hw h0
  clear hw h0
  have hK := Moves.refl [.regs, .shadowS, .shadowF, .mem, .ans, .pwr, .seq, .links, .src, .hbm] s
  unfold writePwr
  iterate 60 all_goals first
    | with_reducible assumption
    | ((with_reducible apply standbyCmd_moves (hw := ?w)); case w => rfl)
    | ((with_reducible apply wakeCmd_moves (hw := ?w)); case w => rfl)
    | ((with_reducible apply answer_moves (hw := ?w)); case w => rfl)
    | ((with_reducible apply requestDetach_moves (hw := ?w)); case w => rfl)
    | ((with_reducible apply plainWrite_moves (hw := ?w)); case w => rfl)
    | ((with_reducible apply abortStep_moves (hw := ?w)); case w => rfl)
    | intro _
    | dsimp only
    | split

theorem writeSec_moves (a : Nat) (v : Word) {M : List Part} {s0 s : State} (hw : inMask [.regs, .shadowS, .shadowF, .ans, .sec] M = true) (h0 : Moves M s0 s) : Moves M s0 (writeSec a v s) := by
  refine Moves.via (N := [.regs, .shadowS, .shadowF, .ans, .sec]) ?_ hw h0
  clear hw h0
  have hK := Moves.refl [.regs, .shadowS, .shadowF, .ans, .sec] s
  unfold writeSec
  iterate 60 all_goals first
    | with_reducible assumption
    | ((with_reducible apply secCmdWrite_moves (hw := ?w)); case w => rfl)
    | ((with_reducible apply plainWrite_moves (hw := ?w)); case w => rfl)
    | intro _
    | dsimp only
    | split

theorem writeDbg_moves (o : WriteObs) (a : Nat) (v : Word) {M : List Part} {s0 s : State} (hw : inMask [.freeIdx, .regs, .shadowS, .shadowF, .ans, .dbg, .seq, .sch] M = true) (h0 : Moves M s0 s) : Moves M s0 (writeDbg o a v s) := by
  refine Moves.via (N := [.freeIdx, .regs, .shadowS, .shadowF, .ans, .dbg, .seq, .sch]) ?_ hw h0
  clear hw h0
  have hK := Moves.refl [.freeIdx, .regs, .shadowS, .shadowF, .ans, .dbg, .seq, .sch] s
  unfold writeDbg
  iterate 60 all_goals first
    | with_reducible assumption
    | ((with_reducible apply dbgCtrlWrite_moves (hw := ?w)); case w => rfl)
    | ((with_reducible apply debugRequest_moves (hw := ?w)); case w => rfl)
    | ((with_reducible apply plainWrite_moves (hw := ?w)); case w => rfl)
    | intro _
    | dsimp only
    | split

theorem regWrite_moves (q : Req) (o : WriteObs) (a : Nat) (v : Word) {M : List Part} {s0 s : State} (hw : inMask [.beat, .freeIdx, .regs, .shadowS, .shadowF, .mem, .ans, .net, .flt, .lgr, .img, .pwr, .sec, .dbg, .tb, .lanes, .seq, .links, .tst, .cmp, .lib, .trg, .acq, .mea, .src, .tdc, .qdr, .hbm, .sch, .ptp, .dma] M = true) (h0 : Moves M s0 s) : Moves M s0 (regWrite q o a v s) := by
  refine Moves.via (N := [.beat, .freeIdx, .regs, .shadowS, .shadowF, .mem, .ans, .net, .flt, .lgr, .img, .pwr, .sec, .dbg, .tb, .lanes, .seq, .links, .tst, .cmp, .lib, .trg, .acq, .mea, .src, .tdc, .qdr, .hbm, .sch, .ptp, .dma]) ?_ hw h0
  clear hw h0
  have hK := Moves.refl [.beat, .freeIdx, .regs, .shadowS, .shadowF, .mem, .ans, .net, .flt, .lgr, .img, .pwr, .sec, .dbg, .tb, .lanes, .seq, .links, .tst, .cmp, .lib, .trg, .acq, .mea, .src, .tdc, .qdr, .hbm, .sch, .ptp, .dma] s
  unfold regWrite
  iterate 60 all_goals first
    | with_reducible assumption
    | ((with_reducible apply writeLnk_moves (hw := ?w)); case w => rfl)
    | ((with_reducible apply writeTst_moves (hw := ?w)); case w => rfl)
    | ((with_reducible apply writeSys_moves (hw := ?w)); case w => rfl)
    | ((with_reducible apply writeImg_moves (hw := ?w)); case w => rfl)
    | ((with_reducible apply writeTbf_moves (hw := ?w)); case w => rfl)
    | ((with_reducible apply writeSeq_moves (hw := ?w)); case w => rfl)
    | ((with_reducible apply writeCmp_moves (hw := ?w)); case w => rfl)
    | ((with_reducible apply writeMea_moves (hw := ?w)); case w => rfl)
    | ((with_reducible apply writeSrc_moves (hw := ?w)); case w => rfl)
    | ((with_reducible apply writeTdc_moves (hw := ?w)); case w => rfl)
    | ((with_reducible apply writeTrg_moves (hw := ?w)); case w => rfl)
    | ((with_reducible apply writeAcq_moves (hw := ?w)); case w => rfl)
    | ((with_reducible apply writeQdr_moves (hw := ?w)); case w => rfl)
    | ((with_reducible apply writeMemBlock_moves (hw := ?w)); case w => rfl)
    | ((with_reducible apply writeLib_moves (hw := ?w)); case w => rfl)
    | ((with_reducible apply writeSch_moves (hw := ?w)); case w => rfl)
    | ((with_reducible apply writeDma_moves (hw := ?w)); case w => rfl)
    | ((with_reducible apply writeNet_moves (hw := ?w)); case w => rfl)
    | ((with_reducible apply writePtp_moves (hw := ?w)); case w => rfl)
    | ((with_reducible apply writeFlt_moves (hw := ?w)); case w => rfl)
    | ((with_reducible apply writePwr_moves (hw := ?w)); case w => rfl)
    | ((with_reducible apply writeSec_moves (hw := ?w)); case w => rfl)
    | ((with_reducible apply writeDbg_moves (hw := ?w)); case w => rfl)
    | ((with_reducible apply plainWrite_moves (hw := ?w)); case w => rfl)
    | intro _
    | dsimp only
    | split

theorem hostWrite_moves (q : Req) (o : WriteObs) (a : Nat) (v : Word) {M : List Part} {s0 s : State} (hw : inMask [.beat, .freeIdx, .regs, .shadowS, .shadowF, .mem, .ans, .net, .flt, .lgr, .img, .pwr, .sec, .dbg, .tb, .lanes, .seq, .links, .tst, .cmp, .lib, .trg, .acq, .mea, .src, .tdc, .qdr, .hbm, .sch, .ptp, .dma] M = true) (h0 : Moves M s0 s) : Moves M s0 (hostWrite q o a v s) := by
  refine Moves.via (N := [.beat, .freeIdx, .regs, .shadowS, .shadowF, .mem, .ans, .net, .flt, .lgr, .img, .pwr, .sec, .dbg, .tb, .lanes, .seq, .links, .tst, .cmp, .lib, .trg, .acq, .mea, .src, .tdc, .qdr, .hbm, .sch, .ptp, .dma]) ?_ hw h0
  clear hw h0
  have hK := Moves.refl [.beat, .freeIdx, .regs, .shadowS, .shadowF, .mem, .ans, .net, .flt, .lgr, .img, .pwr, .sec, .dbg, .tb, .lanes, .seq, .links, .tst, .cmp, .lib, .trg, .acq, .mea, .src, .tdc, .qdr, .hbm, .sch, .ptp, .dma] s
  unfold hostWrite
  iterate 60 all_goals first
    | with_reducible assumption
    | ((with_reducible apply answer_moves (hw := ?w)); case w => rfl)
    | ((with_reducible apply guarded_moves (hw := ?w)); case w => rfl)
    | ((with_reducible apply regWrite_moves (hw := ?w)); case w => rfl)
    | intro _
    | dsimp only
    | split

end Sys2Proof.Laws
end

