-- ==== Sys2Proof/Laws/MovesNet.lean ====
section
/-! SUPPORT. What the operations of Machine/Net.lean may change of the state, and that they keep what no operation breaks. -/

namespace Sys2Proof.Laws

open Sys2Proof Sys2Proof.Machine

theorem dropMsg_moves {M : List Part} {s0 s : State} (hw : inMask [.regs] M = true) (h0 : Moves M s0 s) : Moves M s0 (dropMsg s) := by
  refine Moves.via (N := [.regs]) ?_ hw h0
  clear hw h0
  have hK := Moves.refl [.regs] s
  unfold dropMsg
  iterate 60 all_goals first
    | with_reducible assumption
    | ((with_reducible apply incSat_moves (hw := ?w)); case w => rfl)
    | intro _
    | dsimp only
    | split

theorem ringRdWrite_moves (a : Nat) (v : Word) {M : List Part} {s0 s : State} (hw : inMask [.freeIdx, .regs, .shadowS, .shadowF, .mem, .ans, .flt, .pwr, .tb, .seq, .links, .tst, .cmp, .lib, .acq, .mea, .src, .tdc, .hbm, .sch, .ptp, .dma] M = true) (h0 : Moves M s0 s) : Moves M s0 (ringRdWrite a v s) := by
  refine Moves.via (N := [.freeIdx, .regs, .shadowS, .shadowF, .mem, .ans, .flt, .pwr, .tb, .seq, .links, .tst, .cmp, .lib, .acq, .mea, .src, .tdc, .hbm, .sch, .ptp, .dma]) ?_ hw h0
  clear hw h0
  have hK := Moves.refl [.freeIdx, .regs, .shadowS, .shadowF, .mem, .ans, .flt, .pwr, .tb, .seq, .links, .tst, .cmp, .lib, .acq, .mea, .src, .tdc, .hbm, .sch, .ptp, .dma] s
  unfold ringRdWrite
  iterate 60 all_goals first
    | with_reducible assumption
    | ((with_reducible apply writeSeq_moves (hw := ?w)); case w => rfl)
    | ((with_reducible apply writeCmp_moves (hw := ?w)); case w => rfl)
    | ((with_reducible apply writeTdc_moves (hw := ?w)); case w => rfl)
    | ((with_reducible apply writeAcq_moves (hw := ?w)); case w => rfl)
    | ((with_reducible apply writeSch_moves (hw := ?w)); case w => rfl)
    | ((with_reducible apply writeDma_moves (hw := ?w)); case w => rfl)
    | ((with_reducible apply writePtp_moves (hw := ?w)); case w => rfl)
    | intro _
    | dsimp only
    | split
    | ((with_reducible apply Moves.update) <;> first | (with_reducible exact Or.inl rfl) | exact Or.inr (by decide) | skip)

theorem ackedMsg_moves (k : Nat) (m : OutMsg) {M : List Part} {s0 s : State} (hw : inMask [.freeIdx, .regs, .shadowS, .shadowF, .mem, .ans, .flt, .pwr, .tb, .seq, .links, .tst, .cmp, .lib, .acq, .mea, .src, .tdc, .hbm, .sch, .ptp, .dma] M = true) (h0 : Moves M s0 s) : Moves M s0 (ackedMsg k m s) := by
  refine Moves.via (N := [.freeIdx, .regs, .shadowS, .shadowF, .mem, .ans, .flt, .pwr, .tb, .seq, .links, .tst, .cmp, .lib, .acq, .mea, .src, .tdc, .hbm, .sch, .ptp, .dma]) ?_ hw h0
  clear hw h0
  have hK := Moves.refl [.freeIdx, .regs, .shadowS, .shadowF, .mem, .ans, .flt, .pwr, .tb, .seq, .links, .tst, .cmp, .lib, .acq, .mea, .src, .tdc, .hbm, .sch, .ptp, .dma] s
  unfold ackedMsg
  iterate 60 all_goals first
    | with_reducible assumption
    | ((with_reducible apply ringRdWrite_moves (hw := ?w)); case w => rfl)
    | intro _
    | dsimp only
    | split

theorem ackedAll_moves (k : Nat) (x0 : List OutMsg) {M : List Part} {s0 s : State} (hw : inMask [.freeIdx, .regs, .shadowS, .shadowF, .mem, .ans, .flt, .pwr, .tb, .seq, .links, .tst, .cmp, .lib, .acq, .mea, .src, .tdc, .hbm, .sch, .ptp, .dma] M = true) (h0 : Moves M s0 s) : Moves M s0 (ackedAll k x0 s) := by
  refine Moves.via (N := [.freeIdx, .regs, .shadowS, .shadowF, .mem, .ans, .flt, .pwr, .tb, .seq, .links, .tst, .cmp, .lib, .acq, .mea, .src, .tdc, .hbm, .sch, .ptp, .dma]) ?_ hw h0
  clear hw h0
  induction x0 generalizing k s with
  | nil =>
    have hK := Moves.refl [.freeIdx, .regs, .shadowS, .shadowF, .mem, .ans, .flt, .pwr, .tb, .seq, .links, .tst, .cmp, .lib, .acq, .mea, .src, .tdc, .hbm, .sch, .ptp, .dma] s
    unfold ackedAll
    iterate 60 all_goals first
      | with_reducible assumption
      | ((with_reducible apply ackedMsg_moves (hw := ?w)); case w => rfl)
      | intro _
      | dsimp only
      | split
  | cons x xs ih =>
    have hK := Moves.refl [.freeIdx, .regs, .shadowS, .shadowF, .mem, .ans, .flt, .pwr, .tb, .seq, .links, .tst, .cmp, .lib, .acq, .mea, .src, .tdc, .hbm, .sch, .ptp, .dma] s
    unfold ackedAll
    iterate 60 all_goals first
      | with_reducible assumption
      | ((with_reducible apply ackedMsg_moves (hw := ?w)); case w => rfl)
      | with_reducible refine Moves.trans ?_ (ih ..)
      | intro _
      | dsimp only
      | split

theorem takeAck_moves (k ack window : Nat) {M : List Part} {s0 s : State} (hw : inMask [.freeIdx, .regs, .shadowS, .shadowF, .mem, .ans, .net, .flt, .pwr, .tb, .seq, .links, .tst, .cmp, .lib, .acq, .mea, .src, .tdc, .hbm, .sch, .ptp, .dma] M = true) (h0 : Moves M s0 s) : Moves M s0 (takeAck k ack window s) := by
  refine Moves.via (N := [.freeIdx, .regs, .shadowS, .shadowF, .mem, .ans, .net, .flt, .pwr, .tb, .seq, .links, .tst, .cmp, .lib, .acq, .mea, .src, .tdc, .hbm, .sch, .ptp, .dma]) ?_ hw h0
  clear hw h0
  have hK := Moves.refl [.freeIdx, .regs, .shadowS, .shadowF, .mem, .ans, .net, .flt, .pwr, .tb, .seq, .links, .tst, .cmp, .lib, .acq, .mea, .src, .tdc, .hbm, .sch, .ptp, .dma] s
  unfold takeAck
  iterate 60 all_goals first
    | with_reducible assumption
    | ((with_reducible apply modSess_moves (hw := ?w)); case w => rfl)
    | ((with_reducible apply ackedAll_moves (hw := ?w)); case w => rfl)
    | ((with_reducible apply sendWaiting_moves (hw := ?w)); case w => rfl)
    | intro _
    | dsimp only
    | split

theorem freeWords_moves (x0 : Nat) {M : List Part} {s0 s : State} (hw : inMask [.freeIdx] M = true) (h0 : Moves M s0 s) : Moves M s0 (freeWords x0 s).2 := by
  refine Moves.via (N := [.freeIdx]) ?_ hw h0
  clear hw h0
  induction x0 generalizing s with
  | zero =>
    have hK := Moves.refl [.freeIdx] s
    unfold freeWords
    iterate 60 all_goals first
      | with_reducible assumption
      | ((with_reducible apply freeNat_movesE (hE := by assumption) (hw := ?w)); case w => rfl)
      | ((with_reducible apply freeNat_moves (hw := ?w)); case w => rfl)
      | intro _
      | dsimp only
      | split
  | succ n ih =>
    have hK := Moves.refl [.freeIdx] s
    unfold freeWords
    iterate 60 all_goals first
      | with_reducible assumption
      | ((with_reducible apply freeNat_movesE (hE := by assumption) (hw := ?w)); case w => rfl)
      | ((with_reducible apply freeNat_moves (hw := ?w)); case w => rfl)
      | with_reducible refine Moves.trans ?_ (Moves.of2 ‹freeWords _ _ = _› (ih ..))
      | with_reducible refine Moves.trans ?_ (ih ..)
      | intro _
      | dsimp only
      | split
theorem freeWords_movesE {x0 : Nat} {w0} {M : List Part} {s0 s s' : State} (hE : freeWords x0 s = (w0, s')) (hw : inMask [.freeIdx] M = true) (h0 : Moves M s0 s) : Moves M s0 s' := by
  have k := freeWords_moves (hw := hw) (h0 := h0) (x0 := x0)
  rw [hE] at k
  exact k

theorem sessionInit_moves (hostPub : List Byte) (p : Nat) {M : List Part} {s0 s : State} (hw : inMask [.freeIdx, .regs, .ans, .net] M = true) (h0 : Moves M s0 s) : Moves M s0 (sessionInit hostPub p s) := by
  refine Moves.via (N := [.freeIdx, .regs, .ans, .net]) ?_ hw h0
  clear hw h0
  have hK := Moves.refl [.freeIdx, .regs, .ans, .net] s
  unfold sessionInit
  iterate 60 all_goals first
    | with_reducible assumption
    | ((with_reducible apply answer_moves (hw := ?w)); case w => rfl)
    | ((with_reducible apply freeNat_movesE (hE := by assumption) (hw := ?w)); case w => rfl)
    | ((with_reducible apply freeNat_moves (hw := ?w)); case w => rfl)
    | ((with_reducible apply freeWords_movesE (hE := by assumption) (hw := ?w)); case w => rfl)
    | ((with_reducible apply freeWords_moves (hw := ?w)); case w => rfl)
    | ((with_reducible apply modSess_moves (hw := ?w)); case w => rfl)
    | ((with_reducible apply showSess_moves (hw := ?w)); case w => rfl)
    | ((with_reducible apply sendMsg_moves (hw := ?w)); case w => rfl)
    | intro _
    | dsimp only
    | split

theorem sessionConfirm_moves (h : Hdr) (sigOk : Bool) {M : List Part} {s0 s : State} (hw : inMask [.freeIdx, .regs, .shadowS, .shadowF, .mem, .ans, .net, .flt, .pwr, .tb, .seq, .links, .tst, .cmp, .lib, .acq, .mea, .src, .tdc, .hbm, .sch, .ptp, .dma] M = true) (h0 : Moves M s0 s) : Moves M s0 (sessionConfirm h sigOk s) := by
  refine Moves.via (N := [.freeIdx, .regs, .shadowS, .shadowF, .mem, .ans, .net, .flt, .pwr, .tb, .seq, .links, .tst, .cmp, .lib, .acq, .mea, .src, .tdc, .hbm, .sch, .ptp, .dma]) ?_ hw h0
  clear hw h0
  have hK := Moves.refl [.freeIdx, .regs, .shadowS, .shadowF, .mem, .ans, .net, .flt, .pwr, .tb, .seq, .links, .tst, .cmp, .lib, .acq, .mea, .src, .tdc, .hbm, .sch, .ptp, .dma] s
  unfold sessionConfirm
  iterate 60 all_goals first
    | with_reducible assumption
    | ((with_reducible apply dropMsg_moves (hw := ?w)); case w => rfl)
    | ((with_reducible apply answer_moves (hw := ?w)); case w => rfl)
    | ((with_reducible apply showSess_moves (hw := ?w)); case w => rfl)
    | ((with_reducible apply modSess_moves (hw := ?w)); case w => rfl)
    | ((with_reducible apply takeAck_moves (hw := ?w)); case w => rfl)
    | ((with_reducible apply setRegN_moves (hw := ?w)); case w => rfl)
    | ((with_reducible apply sendMsg_moves (hw := ?w)); case w => rfl)
    | ((with_reducible apply pushEvent_moves (hw := ?w)); case w => rfl)
    | intro _
    | dsimp only
    | split

theorem handshakeTimeout_moves (k : Nat) {M : List Part} {s0 s : State} (hw : inMask [.regs, .net] M = true) (h0 : Moves M s0 s) : Moves M s0 (handshakeTimeout k s) := by
  refine Moves.via (N := [.regs, .net]) ?_ hw h0
  clear hw h0
  have hK := Moves.refl [.regs, .net] s
  unfold handshakeTimeout
  iterate 60 all_goals first
    | with_reducible assumption
    | ((with_reducible apply closeSession_moves (hw := ?w)); case w => rfl)
    | intro _
    | dsimp only
    | split

theorem readRun_moves (x0 x1 : Nat) {M : List Part} {s0 s : State} (hw : inMask [.regs, .tb] M = true) (h0 : Moves M s0 s) : Moves M s0 (readRun x0 x1 s).2.2 := by
  refine Moves.via (N := [.regs, .tb]) ?_ hw h0
  clear hw h0
  induction x0 generalizing x1 s with
  | zero =>
    have hK := Moves.refl [.regs, .tb] s
    unfold readRun
    iterate 60 all_goals first
      | with_reducible assumption
      | ((with_reducible apply readReg_movesE (hE := by assumption) (hw := ?w)); case w => rfl)
      | ((with_reducible apply readReg_moves (hw := ?w)); case w => rfl)
      | intro _
      | dsimp only
      | split
  | succ n ih =>
    have hK := Moves.refl [.regs, .tb] s
    unfold readRun
    iterate 60 all_goals first
      | with_reducible assumption
      | ((with_reducible apply readReg_movesE (hE := by assumption) (hw := ?w)); case w => rfl)
      | ((with_reducible apply readReg_moves (hw := ?w)); case w => rfl)
      | with_reducible refine Moves.trans ?_ (Moves.of3 ‹readRun _ _ _ = _› (ih ..))
      | with_reducible refine Moves.trans ?_ (ih ..)
      | intro _
      | dsimp only
      | split
theorem readRun_movesE {x0 x1 : Nat} {w0 w1} {M : List Part} {s0 s s' : State} (hE : readRun x0 x1 s = (w0, w1, s')) (hw : inMask [.regs, .tb] M = true) (h0 : Moves M s0 s) : Moves M s0 s' := by
  have k := readRun_moves (hw := hw) (h0 := h0) (x0 := x0) (x1 := x1)
  rw [hE] at k
  exact k

theorem readRegs_moves (a n : Nat) (e : Word) {M : List Part} {s0 s : State} (hw : inMask [.regs, .tb] M = true) (h0 : Moves M s0 s) : Moves M s0 (readRegs a n e s).2.2 := by
  refine Moves.via (N := [.regs, .tb]) ?_ hw h0
  clear hw h0
  have hK := Moves.refl [.regs, .tb] s
  unfold readRegs
  iterate 60 all_goals first
    | with_reducible assumption
    | ((with_reducible apply readRun_movesE (hE := by assumption) (hw := ?w)); case w => rfl)
    | ((with_reducible apply readRun_moves (hw := ?w)); case w => rfl)
    | intro _
    | dsimp only
    | split
theorem readRegs_movesE {a n : Nat} {e : Word} {w0 w1} {M : List Part} {s0 s s' : State} (hE : readRegs a n e s = (w0, w1, s')) (hw : inMask [.regs, .tb] M = true) (h0 : Moves M s0 s) : Moves M s0 s' := by
  have k := readRegs_moves (hw := hw) (h0 := h0) (a := a) (n := n) (e := e)
  rw [hE] at k
  exact k

theorem writeRun_moves (q : Req) (o : WriteObs) (x0 : List Word) (x1 : Nat) (x2 : WriteRun) {M : List Part} {s0 s : State} (hw : inMask [.beat, .freeIdx, .regs, .shadowS, .shadowF, .mem, .ans, .net, .flt, .lgr, .img, .pwr, .sec, .dbg, .tb, .lanes, .seq, .links, .tst, .cmp, .lib, .trg, .acq, .mea, .src, .tdc, .qdr, .hbm, .sch, .ptp, .dma] M = true) (h0 : Moves M s0 s) : Moves M s0 (writeRun q o x0 x1 x2 s).2 := by
  refine Moves.via (N := [.beat, .freeIdx, .regs, .shadowS, .shadowF, .mem, .ans, .net, .flt, .lgr, .img, .pwr, .sec, .dbg, .tb, .lanes, .seq, .links, .tst, .cmp, .lib, .trg, .acq, .mea, .src, .tdc, .qdr, .hbm, .sch, .ptp, .dma]) ?_ hw h0
  clear hw h0
  induction x0 generalizing q o x1 x2 s with
  | nil =>
    have hK := Moves.refl [.beat, .freeIdx, .regs, .shadowS, .shadowF, .mem, .ans, .net, .flt, .lgr, .img, .pwr, .sec, .dbg, .tb, .lanes, .seq, .links, .tst, .cmp, .lib, .trg, .acq, .mea, .src, .tdc, .qdr, .hbm, .sch, .ptp, .dma] s
    unfold writeRun
    iterate 60 all_goals first
      | with_reducible assumption
      | ((with_reducible apply hostWrite_moves (hw := ?w)); case w => rfl)
      | intro _
      | dsimp only
      | split
  | cons x xs ih =>
    have hK := Moves.refl [.beat, .freeIdx, .regs, .shadowS, .shadowF, .mem, .ans, .net, .flt, .lgr, .img, .pwr, .sec, .dbg, .tb, .lanes, .seq, .links, .tst, .cmp, .lib, .trg, .acq, .mea, .src, .tdc, .qdr, .hbm, .sch, .ptp, .dma] s
    unfold writeRun
    iterate 60 all_goals first
      | with_reducible assumption
      | ((with_reducible apply hostWrite_moves (hw := ?w)); case w => rfl)
      | with_reducible refine Moves.trans ?_ (Moves.of2 ‹writeRun _ _ _ _ _ _ = _› (ih ..))
      | with_reducible refine Moves.trans ?_ (ih ..)
      | intro _
      | dsimp only
      | split
theorem writeRun_movesE {q : Req} {o : WriteObs} {x0 : List Word} {x1 : Nat} {x2 : WriteRun} {w0} {M : List Part} {s0 s s' : State} (hE : writeRun q o x0 x1 x2 s = (w0, s')) (hw : inMask [.beat, .freeIdx, .regs, .shadowS, .shadowF, .mem, .ans, .net, .flt, .lgr, .img, .pwr, .sec, .dbg, .tb, .lanes, .seq, .links, .tst, .cmp, .lib, .trg, .acq, .mea, .src, .tdc, .qdr, .hbm, .sch, .ptp, .dma] M = true) (h0 : Moves M s0 s) : Moves M s0 s' := by
  have k := writeRun_moves (hw := hw) (h0 := h0) (q := q) (o := o) (x0 := x0) (x1 := x1) (x2 := x2)
  rw [hE] at k
  exact k

theorem markOpen_moves (k seq : Nat) (r : WriteRun) {M : List Part} {s0 s : State} (hw : inMask [.net] M = true) (h0 : Moves M s0 s) : Moves M s0 (markOpen k seq r s) := by
  refine Moves.via (N := [.net]) ?_ hw h0
  clear hw h0
  have hK := Moves.refl [.net] s
  unfold markOpen
  iterate 60 all_goals first
    | with_reducible assumption
    | intro _
    | dsimp only
    | split
    | ((with_reducible apply Moves.update) <;> first | (with_reducible exact Or.inl rfl) | exact Or.inr (by decide) | skip)

theorem writeRegs_moves (k seq : Nat) (e : Word) (o : WriteObs) (a : Nat) (vs : List Word) {M : List Part} {s0 s : State} (hw : inMask [.beat, .freeIdx, .regs, .shadowS, .shadowF, .mem, .ans, .net, .flt, .lgr, .img, .pwr, .sec, .dbg, .tb, .lanes, .seq, .links, .tst, .cmp, .lib, .trg, .acq, .mea, .src, .tdc, .qdr, .hbm, .sch, .ptp, .dma] M = true) (h0 : Moves M s0 s) : Moves M s0 (writeRegs k seq e o a vs s) := by
  refine Moves.via (N := [.beat, .freeIdx, .regs, .shadowS, .shadowF, .mem, .ans, .net, .flt, .lgr, .img, .pwr, .sec, .dbg, .tb, .lanes, .seq, .links, .tst, .cmp, .lib, .trg, .acq, .mea, .src, .tdc, .qdr, .hbm, .sch, .ptp, .dma]) ?_ hw h0
  clear hw h0
  have hK := Moves.refl [.beat, .freeIdx, .regs, .shadowS, .shadowF, .mem, .ans, .net, .flt, .lgr, .img, .pwr, .sec, .dbg, .tb, .lanes, .seq, .links, .tst, .cmp, .lib, .trg, .acq, .mea, .src, .tdc, .qdr, .hbm, .sch, .ptp, .dma] s
  unfold writeRegs
  iterate 60 all_goals first
    | with_reducible assumption
    | ((with_reducible apply respond_moves (hw := ?w)); case w => rfl)
    | ((with_reducible apply writeRun_movesE (hE := by assumption) (hw := ?w)); case w => rfl)
    | ((with_reducible apply writeRun_moves (hw := ?w)); case w => rfl)
    | ((with_reducible apply markOpen_moves (hw := ?w)); case w => rfl)
    | intro _
    | dsimp only
    | split

theorem memRead_moves (a n : Nat) (e : Word) {M : List Part} {s0 s : State} (hw : inMask [.regs, .flt, .hbm] M = true) (h0 : Moves M s0 s) : Moves M s0 (memRead a n e s).2.2 := by
  refine Moves.via (N := [.regs, .flt, .hbm]) ?_ hw h0
  clear hw h0
  have hK := Moves.refl [.regs, .flt, .hbm] s
  unfold memRead
  iterate 60 all_goals first
    | with_reducible assumption
    | ((with_reducible apply readHook_moves (hw := ?w)); case w => rfl)
    | intro _
    | dsimp only
    | split
theorem memRead_movesE {a n : Nat} {e : Word} {w0 w1} {M : List Part} {s0 s s' : State} (hE : memRead a n e s = (w0, w1, s')) (hw : inMask [.regs, .flt, .hbm] M = true) (h0 : Moves M s0 s) : Moves M s0 s' := by
  have k := memRead_moves (hw := hw) (h0 := h0) (a := a) (n := n) (e := e)
  rw [hE] at k
  exact k

theorem memWrite_moves (own : Bool) (a : Nat) (bs : List Byte) (e : Word) {M : List Part} {s0 s : State} (hw : inMask [.regs, .mem, .hbm] M = true) (h0 : Moves M s0 s) : Moves M s0 (memWrite own a bs e s).2 := by
  refine Moves.via (N := [.regs, .mem, .hbm]) ?_ hw h0
  clear hw h0
  have hK := Moves.refl [.regs, .mem, .hbm] s
  unfold memWrite
  iterate 60 all_goals first
    | with_reducible assumption
    | ((with_reducible apply orReg_moves (hw := ?w)); case w => rfl)
    | ((with_reducible apply setBytes_moves (hw := ?w)); case w => rfl)
    | intro _
    | dsimp only
    | split
theorem memWrite_movesE {own : Bool} {a : Nat} {bs : List Byte} {e : Word} {w0} {M : List Part} {s0 s s' : State} (hE : memWrite own a bs e s = (w0, s')) (hw : inMask [.regs, .mem, .hbm] M = true) (h0 : Moves M s0 s) : Moves M s0 s' := by
  have k := memWrite_moves (hw := hw) (h0 := h0) (own := own) (a := a) (bs := bs) (e := e)
  rw [hE] at k
  exact k

theorem claimReq_moves (k seq : Nat) (e : Word) {M : List Part} {s0 s : State} (hw : inMask [.regs, .net] M = true) (h0 : Moves M s0 s) : Moves M s0 (claimReq k seq e s) := by
  refine Moves.via (N := [.regs, .net]) ?_ hw h0
  clear hw h0
  have hK := Moves.refl [.regs, .net] s
  unfold claimReq
  iterate 60 all_goals first
    | with_reducible assumption
    | ((with_reducible apply respond_moves (hw := ?w)); case w => rfl)
    | ((with_reducible apply becomeOwner_moves (hw := ?w)); case w => rfl)
    | ((with_reducible apply showSess_moves (hw := ?w)); case w => rfl)
    | ((with_reducible apply modSess_moves (hw := ?w)); case w => rfl)
    | intro _
    | dsimp only
    | split
    | ((with_reducible apply Moves.update) <;> first | (with_reducible exact Or.inl rfl) | exact Or.inr (by decide) | skip)

theorem heartbeatReq_moves (k seq : Nat) (e : Word) {M : List Part} {s0 s : State} (hw : inMask [.regs, .net] M = true) (h0 : Moves M s0 s) : Moves M s0 (heartbeatReq k seq e s) := by
  refine Moves.via (N := [.regs, .net]) ?_ hw h0
  clear hw h0
  have hK := Moves.refl [.regs, .net] s
  unfold heartbeatReq
  iterate 60 all_goals first
    | with_reducible assumption
    | ((with_reducible apply respond_moves (hw := ?w)); case w => rfl)
    | intro _
    | dsimp only
    | split
    | ((with_reducible apply Moves.update) <;> first | (with_reducible exact Or.inl rfl) | exact Or.inr (by decide) | skip)

theorem handoverReq_moves (k seq : Nat) (e successor : Word) {M : List Part} {s0 s : State} (hw : inMask [.regs, .net] M = true) (h0 : Moves M s0 s) : Moves M s0 (handoverReq k seq e successor s) := by
  refine Moves.via (N := [.regs, .net]) ?_ hw h0
  clear hw h0
  have hK := Moves.refl [.regs, .net] s
  unfold handoverReq
  iterate 60 all_goals first
    | with_reducible assumption
    | ((with_reducible apply respond_moves (hw := ?w)); case w => rfl)
    | ((with_reducible apply showOwner_moves (hw := ?w)); case w => rfl)
    | ((with_reducible apply sendMsg_moves (hw := ?w)); case w => rfl)
    | intro _
    | dsimp only
    | split
    | ((with_reducible apply Moves.update) <;> first | (with_reducible exact Or.inl rfl) | exact Or.inr (by decide) | skip)

theorem acceptReq_moves (k seq : Nat) (e : Word) {M : List Part} {s0 s : State} (hw : inMask [.regs, .net] M = true) (h0 : Moves M s0 s) : Moves M s0 (acceptReq k seq e s) := by
  refine Moves.via (N := [.regs, .net]) ?_ hw h0
  clear hw h0
  have hK := Moves.refl [.regs, .net] s
  unfold acceptReq
  iterate 60 all_goals first
    | with_reducible assumption
    | ((with_reducible apply respond_moves (hw := ?w)); case w => rfl)
    | ((with_reducible apply becomeOwner_moves (hw := ?w)); case w => rfl)
    | intro _
    | dsimp only
    | split

theorem releaseReq_moves (k seq : Nat) (e : Word) {M : List Part} {s0 s : State} (hw : inMask [.regs, .net] M = true) (h0 : Moves M s0 s) : Moves M s0 (releaseReq k seq e s) := by
  refine Moves.via (N := [.regs, .net]) ?_ hw h0
  clear hw h0
  have hK := Moves.refl [.regs, .net] s
  unfold releaseReq
  iterate 60 all_goals first
    | with_reducible assumption
    | ((with_reducible apply respond_moves (hw := ?w)); case w => rfl)
    | ((with_reducible apply vacate_moves (hw := ?w)); case w => rfl)
    | ((with_reducible apply answerClaim_moves (hw := ?w)); case w => rfl)
    | ((with_reducible apply modSess_moves (hw := ?w)); case w => rfl)
    | ((with_reducible apply showSess_moves (hw := ?w)); case w => rfl)
    | with_reducible apply Moves.foldl
    | intro _
    | dsimp only
    | split
    | ((with_reducible apply Moves.update) <;> first | (with_reducible exact Or.inl rfl) | exact Or.inr (by decide) | skip)

theorem streamOpenReq_moves (k seq : Nat) (e : Word) (p : StreamReq) {M : List Part} {s0 s : State} (hw : inMask [.regs, .net] M = true) (h0 : Moves M s0 s) : Moves M s0 (streamOpenReq k seq e p s) := by
  refine Moves.via (N := [.regs, .net]) ?_ hw h0
  clear hw h0
  have hK := Moves.refl [.regs, .net] s
  unfold streamOpenReq
  iterate 60 all_goals first
    | with_reducible assumption
    | ((with_reducible apply respond_moves (hw := ?w)); case w => rfl)
    | ((with_reducible apply openStream_movesE (hE := by assumption) (hw := ?w)); case w => rfl)
    | ((with_reducible apply openStream_moves (hw := ?w)); case w => rfl)
    | intro _
    | dsimp only
    | split

theorem streamReq_moves {M : List Part} {k seq : Nat} {e : Word} {f : State → Nat × State} {s0 s : State} (hw : inMask [.regs, .net] M = true)
    (hk : ∀ t, Moves M s0 t → Moves M s0 (f t).2) (h0 : Moves M s0 s) : Moves M s0 (streamReq k seq e f s) := by
  unfold streamReq
  split
  · exact respond_moves (hw := hw) (h0 := h0) ..
  · exact respond_moves (hw := hw) (h0 := hk _ h0) ..

theorem closeReq_moves (k seq : Nat) (e : Word) {M : List Part} {s0 s : State} (hw : inMask [.regs, .net] M = true) (h0 : Moves M s0 s) : Moves M s0 (closeReq k seq e s) := by
  refine Moves.via (N := [.regs, .net]) ?_ hw h0
  clear hw h0
  have hK := Moves.refl [.regs, .net] s
  unfold closeReq
  iterate 60 all_goals first
    | with_reducible assumption
    | ((with_reducible apply respond_moves (hw := ?w)); case w => rfl)
    | ((with_reducible apply closeSession_moves (hw := ?w)); case w => rfl)
    | intro _
    | dsimp only
    | split
    | ((with_reducible apply Moves.update) <;> first | (with_reducible exact Or.inl rfl) | exact Or.inr (by decide) | skip)

theorem runRequest_moves (k seq : Nat) (e : Word) (m : Kct) {M : List Part} {s0 s : State} (hw : inMask [.beat, .freeIdx, .regs, .shadowS, .shadowF, .mem, .ans, .net, .flt, .lgr, .img, .pwr, .sec, .dbg, .tb, .lanes, .seq, .links, .tst, .cmp, .lib, .trg, .acq, .mea, .src, .tdc, .qdr, .hbm, .sch, .ptp, .dma] M = true) (h0 : Moves M s0 s) : Moves M s0 (runRequest k seq e m s) := by
  refine Moves.via (N := [.beat, .freeIdx, .regs, .shadowS, .shadowF, .mem, .ans, .net, .flt, .lgr, .img, .pwr, .sec, .dbg, .tb, .lanes, .seq, .links, .tst, .cmp, .lib, .trg, .acq, .mea, .src, .tdc, .qdr, .hbm, .sch, .ptp, .dma]) ?_ hw h0
  clear hw h0
  have hK := Moves.refl [.beat, .freeIdx, .regs, .shadowS, .shadowF, .mem, .ans, .net, .flt, .lgr, .img, .pwr, .sec, .dbg, .tb, .lanes, .seq, .links, .tst, .cmp, .lib, .trg, .acq, .mea, .src, .tdc, .qdr, .hbm, .sch, .ptp, .dma] s
  unfold runRequest
  iterate 60 all_goals first
    | with_reducible assumption
    | ((with_reducible apply incWrap_moves (hw := ?w)); case w => rfl)
    | ((with_reducible apply closeReq_moves (hw := ?w)); case w => rfl)
    | ((with_reducible apply readRegs_movesE (hE := by assumption) (hw := ?w)); case w => rfl)
    | ((with_reducible apply readRegs_moves (hw := ?w)); case w => rfl)
    | ((with_reducible apply respond_moves (hw := ?w)); case w => rfl)
    | ((with_reducible apply writeRegs_moves (hw := ?w)); case w => rfl)
    | ((with_reducible apply memRead_movesE (hE := by assumption) (hw := ?w)); case w => rfl)
    | ((with_reducible apply memRead_moves (hw := ?w)); case w => rfl)
    | ((with_reducible apply memWrite_movesE (hE := by assumption) (hw := ?w)); case w => rfl)
    | ((with_reducible apply memWrite_moves (hw := ?w)); case w => rfl)
    | ((with_reducible apply claimReq_moves (hw := ?w)); case w => rfl)
    | ((with_reducible apply heartbeatReq_moves (hw := ?w)); case w => rfl)
    | ((with_reducible apply handoverReq_moves (hw := ?w)); case w => rfl)
    | ((with_reducible apply acceptReq_moves (hw := ?w)); case w => rfl)
    | ((with_reducible apply releaseReq_moves (hw := ?w)); case w => rfl)
    | ((with_reducible apply streamOpenReq_moves (hw := ?w)); case w => rfl)
    | ((with_reducible apply streamReq_moves (hw := ?w)); case w => rfl)
    | ((with_reducible apply creditStream_movesE (hE := by assumption) (hw := ?w)); case w => rfl)
    | ((with_reducible apply creditStream_moves (hw := ?w)); case w => rfl)
    | ((with_reducible apply closeStream_movesE (hE := by assumption) (hw := ?w)); case w => rfl)
    | ((with_reducible apply closeStream_moves (hw := ?w)); case w => rfl)
    | intro _
    | dsimp only
    | split

theorem drainSess_moves (k x0 : Nat) {M : List Part} {s0 s : State} (hw : inMask [.beat, .freeIdx, .regs, .shadowS, .shadowF, .mem, .ans, .net, .flt, .lgr, .img, .pwr, .sec, .dbg, .tb, .lanes, .seq, .links, .tst, .cmp, .lib, .trg, .acq, .mea, .src, .tdc, .qdr, .hbm, .sch, .ptp, .dma] M = true) (h0 : Moves M s0 s) : Moves M s0 (drainSess k x0 s) := by
  refine Moves.via (N := [.beat, .freeIdx, .regs, .shadowS, .shadowF, .mem, .ans, .net, .flt, .lgr, .img, .pwr, .sec, .dbg, .tb, .lanes, .seq, .links, .tst, .cmp, .lib, .trg, .acq, .mea, .src, .tdc, .qdr, .hbm, .sch, .ptp, .dma]) ?_ hw h0
  clear hw h0
  induction x0 generalizing k s with
  | zero =>
    have hK := Moves.refl [.beat, .freeIdx, .regs, .shadowS, .shadowF, .mem, .ans, .net, .flt, .lgr, .img, .pwr, .sec, .dbg, .tb, .lanes, .seq, .links, .tst, .cmp, .lib, .trg, .acq, .mea, .src, .tdc, .qdr, .hbm, .sch, .ptp, .dma] s
    unfold drainSess
    iterate 60 all_goals first
      | with_reducible assumption
      | ((with_reducible apply modSess_moves (hw := ?w)); case w => rfl)
      | ((with_reducible apply runRequest_moves (hw := ?w)); case w => rfl)
      | intro _
      | dsimp only
      | split
  | succ n ih =>
    have hK := Moves.refl [.beat, .freeIdx, .regs, .shadowS, .shadowF, .mem, .ans, .net, .flt, .lgr, .img, .pwr, .sec, .dbg, .tb, .lanes, .seq, .links, .tst, .cmp, .lib, .trg, .acq, .mea, .src, .tdc, .qdr, .hbm, .sch, .ptp, .dma] s
    unfold drainSess
    iterate 60 all_goals first
      | with_reducible assumption
      | ((with_reducible apply modSess_moves (hw := ?w)); case w => rfl)
      | ((with_reducible apply runRequest_moves (hw := ?w)); case w => rfl)
      | with_reducible refine Moves.trans ?_ (ih ..)
      | intro _
      | dsimp only
      | split

theorem resume_moves {M : List Part} {s0 s : State} (hw : inMask [.beat, .freeIdx, .regs, .shadowS, .shadowF, .mem, .ans, .net, .flt, .lgr, .img, .pwr, .sec, .dbg, .tb, .lanes, .seq, .links, .tst, .cmp, .lib, .trg, .acq, .mea, .src, .tdc, .qdr, .hbm, .sch, .ptp, .dma] M = true) (h0 : Moves M s0 s) : Moves M s0 (resume s) := by
  refine Moves.via (N := [.beat, .freeIdx, .regs, .shadowS, .shadowF, .mem, .ans, .net, .flt, .lgr, .img, .pwr, .sec, .dbg, .tb, .lanes, .seq, .links, .tst, .cmp, .lib, .trg, .acq, .mea, .src, .tdc, .qdr, .hbm, .sch, .ptp, .dma]) ?_ hw h0
  clear hw h0
  have hK := Moves.refl [.beat, .freeIdx, .regs, .shadowS, .shadowF, .mem, .ans, .net, .flt, .lgr, .img, .pwr, .sec, .dbg, .tb, .lanes, .seq, .links, .tst, .cmp, .lib, .trg, .acq, .mea, .src, .tdc, .qdr, .hbm, .sch, .ptp, .dma] s
  unfold resume
  iterate 60 all_goals first
    | with_reducible assumption
    | ((with_reducible apply drainSess_moves (hw := ?w)); case w => rfl)
    | with_reducible apply Moves.foldl
    | intro _
    | dsimp only
    | split

theorem takeRequest_moves (k : Nat) (h : Hdr) (m : Kct) {M : List Part} {s0 s : State} (hw : inMask [.beat, .freeIdx, .regs, .shadowS, .shadowF, .mem, .ans, .net, .flt, .lgr, .img, .pwr, .sec, .dbg, .tb, .lanes, .seq, .links, .tst, .cmp, .lib, .trg, .acq, .mea, .src, .tdc, .qdr, .hbm, .sch, .ptp, .dma] M = true) (h0 : Moves M s0 s) : Moves M s0 (takeRequest k h m s) := by
  refine Moves.via (N := [.beat, .freeIdx, .regs, .shadowS, .shadowF, .mem, .ans, .net, .flt, .lgr, .img, .pwr, .sec, .dbg, .tb, .lanes, .seq, .links, .tst, .cmp, .lib, .trg, .acq, .mea, .src, .tdc, .qdr, .hbm, .sch, .ptp, .dma]) ?_ hw h0
  clear hw h0
  have hK := Moves.refl [.beat, .freeIdx, .regs, .shadowS, .shadowF, .mem, .ans, .net, .flt, .lgr, .img, .pwr, .sec, .dbg, .tb, .lanes, .seq, .links, .tst, .cmp, .lib, .trg, .acq, .mea, .src, .tdc, .qdr, .hbm, .sch, .ptp, .dma] s
  unfold takeRequest
  iterate 60 all_goals first
    | with_reducible assumption
    | ((with_reducible apply sendMsg_moves (hw := ?w)); case w => rfl)
    | ((with_reducible apply modSess_moves (hw := ?w)); case w => rfl)
    | ((with_reducible apply drainSess_moves (hw := ?w)); case w => rfl)
    | intro _
    | dsimp only
    | split

theorem onSession_moves {M : List Part} {x : Hdr} {f : Nat → State → State} {s0 s : State} (hw : inMask [.freeIdx, .regs, .shadowS, .shadowF, .mem, .ans, .net, .flt, .pwr, .tb, .seq, .links, .tst, .cmp, .lib, .acq, .mea, .src, .tdc, .hbm, .sch, .ptp, .dma] M = true)
    (hk : ∀ i t, Moves M s0 t → Moves M s0 (f i t)) (h0 : Moves M s0 s) : Moves M s0 (onSession x f s) := by
  have w1 {A} (h : inMask A [.freeIdx, .regs, .shadowS, .shadowF, .mem, .ans, .net, .flt, .pwr, .tb, .seq, .links, .tst, .cmp, .lib, .acq, .mea, .src, .tdc, .hbm, .sch, .ptp, .dma] = true) : inMask A M = true := inMask_trans h hw
  unfold onSession
  dsimp only
  split
  · exact h0
  · split
    · exact dropMsg_moves (hw := w1 rfl) (h0 := h0) ..
    · split
      · exact respond_moves (hw := w1 rfl) (h0 := incSat_moves (hw := w1 rfl) (h0 := h0) ..) ..
      · exact hk _ _ (takeAck_moves (hw := w1 rfl) (h0 := showSess_moves (hw := w1 rfl) (h0 := modSess_moves (hw := w1 rfl) (h0 := h0) ..) ..) ..)

theorem kctRequest_moves (h : Hdr) (m : Kct) {M : List Part} {s0 s : State} (hw : inMask [.beat, .freeIdx, .regs, .shadowS, .shadowF, .mem, .ans, .net, .flt, .lgr, .img, .pwr, .sec, .dbg, .tb, .lanes, .seq, .links, .tst, .cmp, .lib, .trg, .acq, .mea, .src, .tdc, .qdr, .hbm, .sch, .ptp, .dma] M = true) (h0 : Moves M s0 s) : Moves M s0 (kctRequest h m s) := by
  refine Moves.via (N := [.beat, .freeIdx, .regs, .shadowS, .shadowF, .mem, .ans, .net, .flt, .lgr, .img, .pwr, .sec, .dbg, .tb, .lanes, .seq, .links, .tst, .cmp, .lib, .trg, .acq, .mea, .src, .tdc, .qdr, .hbm, .sch, .ptp, .dma]) ?_ hw h0
  clear hw h0
  have hK := Moves.refl [.beat, .freeIdx, .regs, .shadowS, .shadowF, .mem, .ans, .net, .flt, .lgr, .img, .pwr, .sec, .dbg, .tb, .lanes, .seq, .links, .tst, .cmp, .lib, .trg, .acq, .mea, .src, .tdc, .qdr, .hbm, .sch, .ptp, .dma] s
  unfold kctRequest
  iterate 60 all_goals first
    | with_reducible assumption
    | ((with_reducible apply onSession_moves (hw := ?w)); case w => rfl)
    | ((with_reducible apply takeRequest_moves (hw := ?w)); case w => rfl)
    | intro _
    | dsimp only
    | split

theorem retransmit_moves (k seq : Nat) {M : List Part} {s0 s : State} (hw : inMask [.regs, .net] M = true) (h0 : Moves M s0 s) : Moves M s0 (retransmit k seq s) := by
  refine Moves.via (N := [.regs, .net]) ?_ hw h0
  clear hw h0
  have hK := Moves.refl [.regs, .net] s
  unfold retransmit
  iterate 60 all_goals first
    | with_reducible assumption
    | ((with_reducible apply incSat_moves (hw := ?w)); case w => rfl)
    | ((with_reducible apply modSess_moves (hw := ?w)); case w => rfl)
    | intro _
    | dsimp only
    | split

theorem execSessionInit_moves (hostPub : List Byte) (port : Fin 2) {s s' : State} (h : execSessionInit hostPub port s = .next s') : Moves [.freeIdx, .regs, .ans, .net] s s' := by
  unfold execSessionInit at h
  have hK := Moves.refl [.freeIdx, .regs, .ans, .net] s
  all_goals injection h with h
  all_goals subst h
  iterate 60 all_goals first
    | with_reducible assumption
    | ((with_reducible apply sessionInit_moves (hw := ?w)); case w => rfl)
    | intro _
    | dsimp only
    | split

theorem execSessionConfirm_moves (h : Hdr) (sigOk : Bool) {s s' : State} (h : execSessionConfirm h sigOk s = .next s') : Moves [.freeIdx, .regs, .shadowS, .shadowF, .mem, .ans, .net, .flt, .pwr, .tb, .seq, .links, .tst, .cmp, .lib, .acq, .mea, .src, .tdc, .hbm, .sch, .ptp, .dma] s s' := by
  unfold execSessionConfirm at h
  have hK := Moves.refl [.freeIdx, .regs, .shadowS, .shadowF, .mem, .ans, .net, .flt, .pwr, .tb, .seq, .links, .tst, .cmp, .lib, .acq, .mea, .src, .tdc, .hbm, .sch, .ptp, .dma] s
  all_goals injection h with h
  all_goals subst h
  iterate 60 all_goals first
    | with_reducible assumption
    | ((with_reducible apply sessionConfirm_moves (hw := ?w)); case w => rfl)
    | intro _
    | dsimp only
    | split

theorem execHandshakeTimeout_moves (slot : Fin 8) {s s' : State} (h : execHandshakeTimeout slot s = .next s') : Moves [.regs, .net] s s' := by
  unfold execHandshakeTimeout at h
  have hK := Moves.refl [.regs, .net] s
  all_goals injection h with h
  all_goals subst h
  iterate 60 all_goals first
    | with_reducible assumption
    | ((with_reducible apply handshakeTimeout_moves (hw := ?w)); case w => rfl)
    | intro _
    | dsimp only
    | split

theorem execClose_moves (h : Hdr) {s s' : State} (h : execClose h s = .next s') : Moves [.beat, .freeIdx, .regs, .shadowS, .shadowF, .mem, .ans, .net, .flt, .lgr, .img, .pwr, .sec, .dbg, .tb, .lanes, .seq, .links, .tst, .cmp, .lib, .trg, .acq, .mea, .src, .tdc, .qdr, .hbm, .sch, .ptp, .dma] s s' := by
  unfold execClose at h
  have hK := Moves.refl [.beat, .freeIdx, .regs, .shadowS, .shadowF, .mem, .ans, .net, .flt, .lgr, .img, .pwr, .sec, .dbg, .tb, .lanes, .seq, .links, .tst, .cmp, .lib, .trg, .acq, .mea, .src, .tdc, .qdr, .hbm, .sch, .ptp, .dma] s
  all_goals injection h with h
  all_goals subst h
  iterate 60 all_goals first
    | with_reducible assumption
    | ((with_reducible apply kctRequest_moves (hw := ?w)); case w => rfl)
    | intro _
    | dsimp only
    | split

theorem execAck_moves (h : Hdr) {s s' : State} (h : execAck h s = .next s') : Moves [.beat, .freeIdx, .regs, .shadowS, .shadowF, .mem, .ans, .net, .flt, .lgr, .img, .pwr, .sec, .dbg, .tb, .lanes, .seq, .links, .tst, .cmp, .lib, .trg, .acq, .mea, .src, .tdc, .qdr, .hbm, .sch, .ptp, .dma] s s' := by
  unfold execAck at h
  have hK := Moves.refl [.beat, .freeIdx, .regs, .shadowS, .shadowF, .mem, .ans, .net, .flt, .lgr, .img, .pwr, .sec, .dbg, .tb, .lanes, .seq, .links, .tst, .cmp, .lib, .trg, .acq, .mea, .src, .tdc, .qdr, .hbm, .sch, .ptp, .dma] s
  all_goals injection h with h
  all_goals subst h
  iterate 60 all_goals first
    | with_reducible assumption
    | ((with_reducible apply onSession_moves (hw := ?w)); case w => rfl)
    | ((with_reducible apply drainSess_moves (hw := ?w)); case w => rfl)
    | intro _
    | dsimp only
    | split

theorem execReadReg_moves (h : Hdr) (addr count : Nat) {s s' : State} (h : execReadReg h addr count s = .next s') : Moves [.beat, .freeIdx, .regs, .shadowS, .shadowF, .mem, .ans, .net, .flt, .lgr, .img, .pwr, .sec, .dbg, .tb, .lanes, .seq, .links, .tst, .cmp, .lib, .trg, .acq, .mea, .src, .tdc, .qdr, .hbm, .sch, .ptp, .dma] s s' := by
  unfold execReadReg at h
  have hK := Moves.refl [.beat, .freeIdx, .regs, .shadowS, .shadowF, .mem, .ans, .net, .flt, .lgr, .img, .pwr, .sec, .dbg, .tb, .lanes, .seq, .links, .tst, .cmp, .lib, .trg, .acq, .mea, .src, .tdc, .qdr, .hbm, .sch, .ptp, .dma] s
  all_goals injection h with h
  all_goals subst h
  iterate 60 all_goals first
    | with_reducible assumption
    | ((with_reducible apply kctRequest_moves (hw := ?w)); case w => rfl)
    | intro _
    | dsimp only
    | split

theorem execWriteReg_moves (h : Hdr) (addr : Nat) (values : List Word) (obs : WriteObs) {s s' : State} (h : execWriteReg h addr values obs s = .next s') : Moves [.beat, .freeIdx, .regs, .shadowS, .shadowF, .mem, .ans, .net, .flt, .lgr, .img, .pwr, .sec, .dbg, .tb, .lanes, .seq, .links, .tst, .cmp, .lib, .trg, .acq, .mea, .src, .tdc, .qdr, .hbm, .sch, .ptp, .dma] s s' := by
  unfold execWriteReg at h
  have hK := Moves.refl [.beat, .freeIdx, .regs, .shadowS, .shadowF, .mem, .ans, .net, .flt, .lgr, .img, .pwr, .sec, .dbg, .tb, .lanes, .seq, .links, .tst, .cmp, .lib, .trg, .acq, .mea, .src, .tdc, .qdr, .hbm, .sch, .ptp, .dma] s
  all_goals injection h with h
  all_goals subst h
  iterate 60 all_goals first
    | with_reducible assumption
    | ((with_reducible apply kctRequest_moves (hw := ?w)); case w => rfl)
    | intro _
    | dsimp only
    | split

theorem execReadMem_moves (h : Hdr) (addr len : Nat) {s s' : State} (h : execReadMem h addr len s = .next s') : Moves [.beat, .freeIdx, .regs, .shadowS, .shadowF, .mem, .ans, .net, .flt, .lgr, .img, .pwr, .sec, .dbg, .tb, .lanes, .seq, .links, .tst, .cmp, .lib, .trg, .acq, .mea, .src, .tdc, .qdr, .hbm, .sch, .ptp, .dma] s s' := by
  unfold execReadMem at h
  have hK := Moves.refl [.beat, .freeIdx, .regs, .shadowS, .shadowF, .mem, .ans, .net, .flt, .lgr, .img, .pwr, .sec, .dbg, .tb, .lanes, .seq, .links, .tst, .cmp, .lib, .trg, .acq, .mea, .src, .tdc, .qdr, .hbm, .sch, .ptp, .dma] s
  all_goals injection h with h
  all_goals subst h
  iterate 60 all_goals first
    | with_reducible assumption
    | ((with_reducible apply kctRequest_moves (hw := ?w)); case w => rfl)
    | intro _
    | dsimp only
    | split

theorem execWriteMem_moves (h : Hdr) (addr : Nat) (data : List Byte) {s s' : State} (h : execWriteMem h addr data s = .next s') : Moves [.beat, .freeIdx, .regs, .shadowS, .shadowF, .mem, .ans, .net, .flt, .lgr, .img, .pwr, .sec, .dbg, .tb, .lanes, .seq, .links, .tst, .cmp, .lib, .trg, .acq, .mea, .src, .tdc, .qdr, .hbm, .sch, .ptp, .dma] s s' := by
  unfold execWriteMem at h
  have hK := Moves.refl [.beat, .freeIdx, .regs, .shadowS, .shadowF, .mem, .ans, .net, .flt, .lgr, .img, .pwr, .sec, .dbg, .tb, .lanes, .seq, .links, .tst, .cmp, .lib, .trg, .acq, .mea, .src, .tdc, .qdr, .hbm, .sch, .ptp, .dma] s
  all_goals injection h with h
  all_goals subst h
  iterate 60 all_goals first
    | with_reducible assumption
    | ((with_reducible apply kctRequest_moves (hw := ?w)); case w => rfl)
    | intro _
    | dsimp only
    | split

theorem execClaim_moves (h : Hdr) {s s' : State} (h : execClaim h s = .next s') : Moves [.beat, .freeIdx, .regs, .shadowS, .shadowF, .mem, .ans, .net, .flt, .lgr, .img, .pwr, .sec, .dbg, .tb, .lanes, .seq, .links, .tst, .cmp, .lib, .trg, .acq, .mea, .src, .tdc, .qdr, .hbm, .sch, .ptp, .dma] s s' := by
  unfold execClaim at h
  have hK := Moves.refl [.beat, .freeIdx, .regs, .shadowS, .shadowF, .mem, .ans, .net, .flt, .lgr, .img, .pwr, .sec, .dbg, .tb, .lanes, .seq, .links, .tst, .cmp, .lib, .trg, .acq, .mea, .src, .tdc, .qdr, .hbm, .sch, .ptp, .dma] s
  all_goals injection h with h
  all_goals subst h
  iterate 60 all_goals first
    | with_reducible assumption
    | ((with_reducible apply kctRequest_moves (hw := ?w)); case w => rfl)
    | intro _
    | dsimp only
    | split

theorem execHeartbeat_moves (h : Hdr) {s s' : State} (h : execHeartbeat h s = .next s') : Moves [.beat, .freeIdx, .regs, .shadowS, .shadowF, .mem, .ans, .net, .flt, .lgr, .img, .pwr, .sec, .dbg, .tb, .lanes, .seq, .links, .tst, .cmp, .lib, .trg, .acq, .mea, .src, .tdc, .qdr, .hbm, .sch, .ptp, .dma] s s' := by
  unfold execHeartbeat at h
  have hK := Moves.refl [.beat, .freeIdx, .regs, .shadowS, .shadowF, .mem, .ans, .net, .flt, .lgr, .img, .pwr, .sec, .dbg, .tb, .lanes, .seq, .links, .tst, .cmp, .lib, .trg, .acq, .mea, .src, .tdc, .qdr, .hbm, .sch, .ptp, .dma] s
  all_goals injection h with h
  all_goals subst h
  iterate 60 all_goals first
    | with_reducible assumption
    | ((with_reducible apply kctRequest_moves (hw := ?w)); case w => rfl)
    | intro _
    | dsimp only
    | split

theorem execHandover_moves (h : Hdr) (successor : Word) {s s' : State} (h : execHandover h successor s = .next s') : Moves [.beat, .freeIdx, .regs, .shadowS, .shadowF, .mem, .ans, .net, .flt, .lgr, .img, .pwr, .sec, .dbg, .tb, .lanes, .seq, .links, .tst, .cmp, .lib, .trg, .acq, .mea, .src, .tdc, .qdr, .hbm, .sch, .ptp, .dma] s s' := by
  unfold execHandover at h
  have hK := Moves.refl [.beat, .freeIdx, .regs, .shadowS, .shadowF, .mem, .ans, .net, .flt, .lgr, .img, .pwr, .sec, .dbg, .tb, .lanes, .seq, .links, .tst, .cmp, .lib, .trg, .acq, .mea, .src, .tdc, .qdr, .hbm, .sch, .ptp, .dma] s
  all_goals injection h with h
  all_goals subst h
  iterate 60 all_goals first
    | with_reducible assumption
    | ((with_reducible apply kctRequest_moves (hw := ?w)); case w => rfl)
    | intro _
    | dsimp only
    | split

theorem execAccept_moves (h : Hdr) {s s' : State} (h : execAccept h s = .next s') : Moves [.beat, .freeIdx, .regs, .shadowS, .shadowF, .mem, .ans, .net, .flt, .lgr, .img, .pwr, .sec, .dbg, .tb, .lanes, .seq, .links, .tst, .cmp, .lib, .trg, .acq, .mea, .src, .tdc, .qdr, .hbm, .sch, .ptp, .dma] s s' := by
  unfold execAccept at h
  have hK := Moves.refl [.beat, .freeIdx, .regs, .shadowS, .shadowF, .mem, .ans, .net, .flt, .lgr, .img, .pwr, .sec, .dbg, .tb, .lanes, .seq, .links, .tst, .cmp, .lib, .trg, .acq, .mea, .src, .tdc, .qdr, .hbm, .sch, .ptp, .dma] s
  all_goals injection h with h
  all_goals subst h
  iterate 60 all_goals first
    | with_reducible assumption
    | ((with_reducible apply kctRequest_moves (hw := ?w)); case w => rfl)
    | intro _
    | dsimp only
    | split

theorem execRelease_moves (h : Hdr) {s s' : State} (h : execRelease h s = .next s') : Moves [.beat, .freeIdx, .regs, .shadowS, .shadowF, .mem, .ans, .net, .flt, .lgr, .img, .pwr, .sec, .dbg, .tb, .lanes, .seq, .links, .tst, .cmp, .lib, .trg, .acq, .mea, .src, .tdc, .qdr, .hbm, .sch, .ptp, .dma] s s' := by
  unfold execRelease at h
  have hK := Moves.refl [.beat, .freeIdx, .regs, .shadowS, .shadowF, .mem, .ans, .net, .flt, .lgr, .img, .pwr, .sec, .dbg, .tb, .lanes, .seq, .links, .tst, .cmp, .lib, .trg, .acq, .mea, .src, .tdc, .qdr, .hbm, .sch, .ptp, .dma] s
  all_goals injection h with h
  all_goals subst h
  iterate 60 all_goals first
    | with_reducible assumption
    | ((with_reducible apply kctRequest_moves (hw := ?w)); case w => rfl)
    | intro _
    | dsimp only
    | split

theorem execStreamOpen_moves (h : Hdr) (p : StreamReq) {s s' : State} (h : execStreamOpen h p s = .next s') : Moves [.beat, .freeIdx, .regs, .shadowS, .shadowF, .mem, .ans, .net, .flt, .lgr, .img, .pwr, .sec, .dbg, .tb, .lanes, .seq, .links, .tst, .cmp, .lib, .trg, .acq, .mea, .src, .tdc, .qdr, .hbm, .sch, .ptp, .dma] s s' := by
  unfold execStreamOpen at h
  have hK := Moves.refl [.beat, .freeIdx, .regs, .shadowS, .shadowF, .mem, .ans, .net, .flt, .lgr, .img, .pwr, .sec, .dbg, .tb, .lanes, .seq, .links, .tst, .cmp, .lib, .trg, .acq, .mea, .src, .tdc, .qdr, .hbm, .sch, .ptp, .dma] s
  all_goals injection h with h
  all_goals subst h
  iterate 60 all_goals first
    | with_reducible assumption
    | ((with_reducible apply kctRequest_moves (hw := ?w)); case w => rfl)
    | intro _
    | dsimp only
    | split

theorem execStreamCredit_moves (h : Hdr) (stream credit : Nat) {s s' : State} (h : execStreamCredit h stream credit s = .next s') : Moves [.beat, .freeIdx, .regs, .shadowS, .shadowF, .mem, .ans, .net, .flt, .lgr, .img, .pwr, .sec, .dbg, .tb, .lanes, .seq, .links, .tst, .cmp, .lib, .trg, .acq, .mea, .src, .tdc, .qdr, .hbm, .sch, .ptp, .dma] s s' := by
  unfold execStreamCredit at h
  have hK := Moves.refl [.beat, .freeIdx, .regs, .shadowS, .shadowF, .mem, .ans, .net, .flt, .lgr, .img, .pwr, .sec, .dbg, .tb, .lanes, .seq, .links, .tst, .cmp, .lib, .trg, .acq, .mea, .src, .tdc, .qdr, .hbm, .sch, .ptp, .dma] s
  all_goals injection h with h
  all_goals subst h
  iterate 60 all_goals first
    | with_reducible assumption
    | ((with_reducible apply kctRequest_moves (hw := ?w)); case w => rfl)
    | intro _
    | dsimp only
    | split

theorem execStreamClose_moves (h : Hdr) (stream : Nat) {s s' : State} (h : execStreamClose h stream s = .next s') : Moves [.beat, .freeIdx, .regs, .shadowS, .shadowF, .mem, .ans, .net, .flt, .lgr, .img, .pwr, .sec, .dbg, .tb, .lanes, .seq, .links, .tst, .cmp, .lib, .trg, .acq, .mea, .src, .tdc, .qdr, .hbm, .sch, .ptp, .dma] s s' := by
  unfold execStreamClose at h
  have hK := Moves.refl [.beat, .freeIdx, .regs, .shadowS, .shadowF, .mem, .ans, .net, .flt, .lgr, .img, .pwr, .sec, .dbg, .tb, .lanes, .seq, .links, .tst, .cmp, .lib, .trg, .acq, .mea, .src, .tdc, .qdr, .hbm, .sch, .ptp, .dma] s
  all_goals injection h with h
  all_goals subst h
  iterate 60 all_goals first
    | with_reducible assumption
    | ((with_reducible apply kctRequest_moves (hw := ?w)); case w => rfl)
    | intro _
    | dsimp only
    | split

theorem execStreamDataSend_moves (stream : Nat) {s s' : State} (h : execStreamDataSend stream s = .next s') : Moves [.regs, .net] s s' := by
  unfold execStreamDataSend at h
  have hK := Moves.refl [.regs, .net] s
  all_goals injection h with h
  all_goals subst h
  iterate 60 all_goals first
    | with_reducible assumption
    | ((with_reducible apply streamSend_moves (hw := ?w)); case w => rfl)
    | intro _
    | dsimp only
    | split

theorem execRetransmitTimer_moves (slot : Fin 8) (seq : Nat) {s s' : State} (h : execRetransmitTimer slot seq s = .next s') : Moves [.regs, .net] s s' := by
  unfold execRetransmitTimer at h
  have hK := Moves.refl [.regs, .net] s
  all_goals injection h with h
  all_goals subst h
  iterate 60 all_goals first
    | with_reducible assumption
    | ((with_reducible apply retransmit_moves (hw := ?w)); case w => rfl)
    | intro _
    | dsimp only
    | split

theorem execSessionIdleTimeout_moves (slot : Fin 8) {s s' : State} (h : execSessionIdleTimeout slot s = .next s') : Moves [.regs, .net] s s' := by
  unfold execSessionIdleTimeout at h
  have hK := Moves.refl [.regs, .net] s
  all_goals injection h with h
  all_goals subst h
  iterate 60 all_goals first
    | with_reducible assumption
    | ((with_reducible apply closeSession_moves (hw := ?w)); case w => rfl)
    | intro _
    | dsimp only
    | split

theorem execLeaseExpiry_moves {s s' : State} (h : execLeaseExpiry s = .next s') : Moves [.regs, .net] s s' := by
  unfold execLeaseExpiry at h
  have hK := Moves.refl [.regs, .net] s
  all_goals injection h with h
  all_goals subst h
  iterate 60 all_goals first
    | with_reducible assumption
    | ((with_reducible apply vacate_moves (hw := ?w)); case w => rfl)
    | intro _
    | dsimp only
    | split

theorem execElectionClose_moves {s s' : State} (h : execElectionClose s = .next s') : Moves [.regs, .net] s s' := by
  unfold execElectionClose at h
  have hK := Moves.refl [.regs, .net] s
  all_goals injection h with h
  all_goals subst h
  iterate 60 all_goals first
    | with_reducible assumption
    | ((with_reducible apply electionClose_moves (hw := ?w)); case w => rfl)
    | intro _
    | dsimp only
    | split

theorem execHandoverLapse_moves {s s' : State} (h : execHandoverLapse s = .next s') : Moves [.regs, .net] s s' := by
  unfold execHandoverLapse at h
  have hK := Moves.refl [.regs, .net] s
  all_goals injection h with h
  all_goals subst h
  iterate 60 all_goals first
    | with_reducible assumption
    | ((with_reducible apply lapseOffer_moves (hw := ?w)); case w => rfl)
    | intro _
    | dsimp only
    | split

theorem execPortRateTimeout_moves (port : Fin 2) {s s' : State} (h : execPortRateTimeout port s = .next s') : Moves [.regs, .net] s s' := by
  unfold execPortRateTimeout at h
  have hK := Moves.refl [.regs, .net] s
  all_goals injection h with h
  all_goals subst h
  iterate 60 all_goals first
    | with_reducible assumption
    | ((with_reducible apply portTimeout_moves (hw := ?w)); case w => rfl)
    | intro _
    | dsimp only
    | split

theorem execPortLinkLoss_moves (port : Fin 2) {s s' : State} (h : execPortLinkLoss port s = .next s') : Moves [.regs, .net] s s' := by
  unfold execPortLinkLoss at h
  have hK := Moves.refl [.regs, .net] s
  all_goals injection h with h
  all_goals subst h
  iterate 60 all_goals first
    | with_reducible assumption
    | ((with_reducible apply portLoss_moves (hw := ?w)); case w => rfl)
    | intro _
    | dsimp only
    | split

theorem execPortLinkUp_moves (port : Fin 2) {s s' : State} (h : execPortLinkUp port s = .next s') : Moves [.regs, .net] s s' := by
  unfold execPortLinkUp at h
  have hK := Moves.refl [.regs, .net] s
  all_goals injection h with h
  all_goals subst h
  iterate 60 all_goals first
    | with_reducible assumption
    | ((with_reducible apply portUp_moves (hw := ?w)); case w => rfl)
    | intro _
    | dsimp only
    | split

theorem execEthFrameRx_moves (port : Fin 2) (f : EthFrame) {s s' : State} (h : execEthFrameRx port f s = .next s') : Moves [.regs, .net] s s' := by
  unfold execEthFrameRx at h
  have hK := Moves.refl [.regs, .net] s
  all_goals injection h with h
  all_goals subst h
  iterate 60 all_goals first
    | with_reducible assumption
    | ((with_reducible apply ethFrame_moves (hw := ?w)); case w => rfl)
    | intro _
    | dsimp only
    | split

theorem execPortCfgWrite_moves (q : Req) (addr : Nat) (value : Word) {s s' : State} (h : execPortCfgWrite q addr value s = .next s') : Moves [.regs, .shadowS, .shadowF, .ans, .net] s s' := by
  unfold execPortCfgWrite at h
  have hK := Moves.refl [.regs, .shadowS, .shadowF, .ans, .net] s
  all_goals injection h with h
  all_goals subst h
  iterate 60 all_goals first
    | with_reducible assumption
    | ((with_reducible apply guarded_moves (hw := ?w)); case w => rfl)
    | ((with_reducible apply portCfgWrite_moves (hw := ?w)); case w => rfl)
    | intro _
    | dsimp only
    | split

theorem execHostTableWrite_moves (q : Req) {s s' : State} (h : execHostTableWrite q s = .next s') : Moves [.ans, .net] s s' := by
  unfold execHostTableWrite at h
  have hK := Moves.refl [.ans, .net] s
  all_goals injection h with h
  all_goals subst h
  iterate 60 all_goals first
    | with_reducible assumption
    | ((with_reducible apply guarded_moves (hw := ?w)); case w => rfl)
    | ((with_reducible apply hostWriteEntry_moves (hw := ?w)); case w => rfl)
    | intro _
    | dsimp only
    | split

theorem execHostTableClear_moves (q : Req) {s s' : State} (h : execHostTableClear q s = .next s') : Moves [.ans, .net] s s' := by
  unfold execHostTableClear at h
  have hK := Moves.refl [.ans, .net] s
  all_goals injection h with h
  all_goals subst h
  iterate 60 all_goals first
    | with_reducible assumption
    | ((with_reducible apply guarded_moves (hw := ?w)); case w => rfl)
    | ((with_reducible apply hostClearEntry_moves (hw := ?w)); case w => rfl)
    | intro _
    | dsimp only
    | split

theorem execHostTableRead_moves (q : Req) {s s' : State} (h : execHostTableRead q s = .next s') : Moves [.regs, .ans] s s' := by
  unfold execHostTableRead at h
  have hK := Moves.refl [.regs, .ans] s
  all_goals injection h with h
  all_goals subst h
  iterate 60 all_goals first
    | with_reducible assumption
    | ((with_reducible apply guarded_moves (hw := ?w)); case w => rfl)
    | ((with_reducible apply hostReadEntry_moves (hw := ?w)); case w => rfl)
    | intro _
    | dsimp only
    | split

end Sys2Proof.Laws
end

