-- ==== Sys2Proof/Laws/MovesEvents.lean ====
section
/-! SUPPORT. What the operations of Machine/Events.lean may change of the state, and that they keep what no operation breaks. -/

namespace Sys2Proof.Laws

open Sys2Proof Sys2Proof.Machine

theorem dapApply_moves (a : Nat) (v : Word) (o : WriteObs) {M : List Part} {s0 s : State} (hw : inMask [.beat, .freeIdx, .regs, .shadowS, .shadowF, .mem, .ans, .net, .flt, .lgr, .img, .pwr, .sec, .dbg, .tb, .lanes, .seq, .links, .tst, .cmp, .lib, .trg, .acq, .mea, .src, .tdc, .qdr, .hbm, .sch, .ptp, .dma] M = true) (h0 : Moves M s0 s) : Moves M s0 (dapApply a v o s) := by
  refine Moves.via (N := [.beat, .freeIdx, .regs, .shadowS, .shadowF, .mem, .ans, .net, .flt, .lgr, .img, .pwr, .sec, .dbg, .tb, .lanes, .seq, .links, .tst, .cmp, .lib, .trg, .acq, .mea, .src, .tdc, .qdr, .hbm, .sch, .ptp, .dma]) ?_ hw h0
  clear hw h0
  have hK := Moves.refl [.beat, .freeIdx, .regs, .shadowS, .shadowF, .mem, .ans, .net, .flt, .lgr, .img, .pwr, .sec, .dbg, .tb, .lanes, .seq, .links, .tst, .cmp, .lib, .trg, .acq, .mea, .src, .tdc, .qdr, .hbm, .sch, .ptp, .dma] s
  unfold dapApply
  iterate 60 all_goals first
    | with_reducible assumption
    | ((with_reducible apply answer_moves (hw := ?w)); case w => rfl)
    | ((with_reducible apply regWrite_moves (hw := ?w)); case w => rfl)
    | intro _
    | dsimp only
    | split

theorem dapWrite_moves (a : Nat) (v : Word) (o : WriteObs) {M : List Part} {s0 s : State} (hw : inMask [.beat, .freeIdx, .regs, .shadowS, .shadowF, .mem, .ans, .net, .flt, .lgr, .img, .pwr, .sec, .dbg, .tb, .lanes, .seq, .links, .tst, .cmp, .lib, .trg, .acq, .mea, .src, .tdc, .qdr, .hbm, .sch, .ptp, .dma] M = true) (h0 : Moves M s0 s) : Moves M s0 (dapWrite a v o s) := by
  refine Moves.via (N := [.beat, .freeIdx, .regs, .shadowS, .shadowF, .mem, .ans, .net, .flt, .lgr, .img, .pwr, .sec, .dbg, .tb, .lanes, .seq, .links, .tst, .cmp, .lib, .trg, .acq, .mea, .src, .tdc, .qdr, .hbm, .sch, .ptp, .dma]) ?_ hw h0
  clear hw h0
  have hK := Moves.refl [.beat, .freeIdx, .regs, .shadowS, .shadowF, .mem, .ans, .net, .flt, .lgr, .img, .pwr, .sec, .dbg, .tb, .lanes, .seq, .links, .tst, .cmp, .lib, .trg, .acq, .mea, .src, .tdc, .qdr, .hbm, .sch, .ptp, .dma] s
  unfold dapWrite
  iterate 60 all_goals first
    | with_reducible assumption
    | ((with_reducible apply debugRequest_moves (hw := ?w)); case w => rfl)
    | ((with_reducible apply answer_moves (hw := ?w)); case w => rfl)
    | ((with_reducible apply setReg_moves (hw := ?w)); case w => rfl)
    | ((with_reducible apply dapApply_moves (hw := ?w)); case w => rfl)
    | intro _
    | dsimp only
    | split

theorem dapRead_moves (a : Nat) {M : List Part} {s0 s : State} (hw : inMask [.regs, .ans, .tb] M = true) (h0 : Moves M s0 s) : Moves M s0 (dapRead a s) := by
  refine Moves.via (N := [.regs, .ans, .tb]) ?_ hw h0
  clear hw h0
  have hK := Moves.refl [.regs, .ans, .tb] s
  unfold dapRead
  iterate 60 all_goals first
    | with_reducible assumption
    | ((with_reducible apply answer_moves (hw := ?w)); case w => rfl)
    | ((with_reducible apply readReg_movesE (hE := by assumption) (hw := ?w)); case w => rfl)
    | ((with_reducible apply readReg_moves (hw := ?w)); case w => rfl)
    | ((with_reducible apply answerData_moves (hw := ?w)); case w => rfl)
    | intro _
    | dsimp only
    | split

theorem dapReadMem_moves (a n : Nat) {M : List Part} {s0 s : State} (hw : inMask [.regs, .ans, .flt, .hbm] M = true) (h0 : Moves M s0 s) : Moves M s0 (dapReadMem a n s) := by
  refine Moves.via (N := [.regs, .ans, .flt, .hbm]) ?_ hw h0
  clear hw h0
  have hK := Moves.refl [.regs, .ans, .flt, .hbm] s
  unfold dapReadMem
  iterate 60 all_goals first
    | with_reducible assumption
    | ((with_reducible apply answer_moves (hw := ?w)); case w => rfl)
    | ((with_reducible apply memRead_movesE (hE := by assumption) (hw := ?w)); case w => rfl)
    | ((with_reducible apply memRead_moves (hw := ?w)); case w => rfl)
    | intro _
    | dsimp only
    | split
    | ((with_reducible apply Moves.update) <;> first | (with_reducible exact Or.inl rfl) | exact Or.inr (by decide) | skip)

theorem dapWriteMem_moves (a : Nat) (bs : List Byte) {M : List Part} {s0 s : State} (hw : inMask [.regs, .mem, .ans, .hbm] M = true) (h0 : Moves M s0 s) : Moves M s0 (dapWriteMem a bs s) := by
  refine Moves.via (N := [.regs, .mem, .ans, .hbm]) ?_ hw h0
  clear hw h0
  have hK := Moves.refl [.regs, .mem, .ans, .hbm] s
  unfold dapWriteMem
  iterate 60 all_goals first
    | with_reducible assumption
    | ((with_reducible apply answer_moves (hw := ?w)); case w => rfl)
    | ((with_reducible apply memWrite_movesE (hE := by assumption) (hw := ?w)); case w => rfl)
    | ((with_reducible apply memWrite_moves (hw := ?w)); case w => rfl)
    | intro _
    | dsimp only
    | split

theorem dapReadCore_moves (k r : Nat) {M : List Part} {s0 s : State} (hw : inMask [.ans] M = true) (h0 : Moves M s0 s) : Moves M s0 (dapReadCore k r s) := by
  refine Moves.via (N := [.ans]) ?_ hw h0
  clear hw h0
  have hK := Moves.refl [.ans] s
  unfold dapReadCore
  iterate 60 all_goals first
    | with_reducible assumption
    | ((with_reducible apply answer_moves (hw := ?w)); case w => rfl)
    | intro _
    | dsimp only
    | split
    | ((with_reducible apply Moves.update) <;> first | (with_reducible exact Or.inl rfl) | exact Or.inr (by decide) | skip)

theorem dapAccess_moves (x : DapAccess) {M : List Part} {s0 s : State} (hw : inMask [.beat, .freeIdx, .regs, .shadowS, .shadowF, .mem, .ans, .net, .flt, .lgr, .img, .pwr, .sec, .dbg, .tb, .lanes, .seq, .links, .tst, .cmp, .lib, .trg, .acq, .mea, .src, .tdc, .qdr, .hbm, .sch, .ptp, .dma] M = true) (h0 : Moves M s0 s) : Moves M s0 (dapAccess x s) := by
  refine Moves.via (N := [.beat, .freeIdx, .regs, .shadowS, .shadowF, .mem, .ans, .net, .flt, .lgr, .img, .pwr, .sec, .dbg, .tb, .lanes, .seq, .links, .tst, .cmp, .lib, .trg, .acq, .mea, .src, .tdc, .qdr, .hbm, .sch, .ptp, .dma]) ?_ hw h0
  clear hw h0
  have hK := Moves.refl [.beat, .freeIdx, .regs, .shadowS, .shadowF, .mem, .ans, .net, .flt, .lgr, .img, .pwr, .sec, .dbg, .tb, .lanes, .seq, .links, .tst, .cmp, .lib, .trg, .acq, .mea, .src, .tdc, .qdr, .hbm, .sch, .ptp, .dma] s
  unfold dapAccess
  iterate 60 all_goals first
    | with_reducible assumption
    | ((with_reducible apply loadTap_moves (hw := ?w)); case w => rfl)
    | ((with_reducible apply dapRead_moves (hw := ?w)); case w => rfl)
    | ((with_reducible apply dapWrite_moves (hw := ?w)); case w => rfl)
    | ((with_reducible apply dapReadMem_moves (hw := ?w)); case w => rfl)
    | ((with_reducible apply dapWriteMem_moves (hw := ?w)); case w => rfl)
    | ((with_reducible apply dapReadCore_moves (hw := ?w)); case w => rfl)
    | intro _
    | dsimp only
    | split

theorem judgeCopies_moves (g : Nat) (cmp intake tdc : Copies) {M : List Part} {s0 s : State} (hw : inMask [.regs, .flt] M = true) (h0 : Moves M s0 s) : Moves M s0 (judgeCopies g cmp intake tdc s) := by
  refine Moves.via (N := [.regs, .flt]) ?_ hw h0
  clear hw h0
  have hK := Moves.refl [.regs, .flt] s
  unfold judgeCopies
  iterate 60 all_goals first
    | with_reducible assumption
    | ((with_reducible apply copiesRun_moves (hw := ?w)); case w => rfl)
    | intro _
    | dsimp only
    | split

theorem execRegisterWrite_moves (q : Req) (addr : Nat) (value : Word) (obs : WriteObs) {s s' : State} (h : execRegisterWrite q addr value obs s = .next s') : Moves [.beat, .freeIdx, .regs, .shadowS, .shadowF, .mem, .ans, .net, .flt, .lgr, .img, .pwr, .sec, .dbg, .tb, .lanes, .seq, .links, .tst, .cmp, .lib, .trg, .acq, .mea, .src, .tdc, .qdr, .hbm, .sch, .ptp, .dma] s s' := by
  unfold execRegisterWrite at h
  have hK := Moves.refl [.beat, .freeIdx, .regs, .shadowS, .shadowF, .mem, .ans, .net, .flt, .lgr, .img, .pwr, .sec, .dbg, .tb, .lanes, .seq, .links, .tst, .cmp, .lib, .trg, .acq, .mea, .src, .tdc, .qdr, .hbm, .sch, .ptp, .dma] s
  all_goals injection h with h
  all_goals subst h
  iterate 60 all_goals first
    | with_reducible assumption
    | ((with_reducible apply resume_moves (hw := ?w)); case w => rfl)
    | ((with_reducible apply hostWrite_moves (hw := ?w)); case w => rfl)
    | intro _
    | dsimp only
    | split

theorem execJtagDap_moves (a : DapAccess) {s s' : State} (h : execJtagDap a s = .next s') : Moves [.beat, .freeIdx, .regs, .shadowS, .shadowF, .mem, .ans, .net, .flt, .lgr, .img, .pwr, .sec, .dbg, .tb, .lanes, .seq, .links, .tst, .cmp, .lib, .trg, .acq, .mea, .src, .tdc, .qdr, .hbm, .sch, .ptp, .dma] s s' := by
  unfold execJtagDap at h
  have hK := Moves.refl [.beat, .freeIdx, .regs, .shadowS, .shadowF, .mem, .ans, .net, .flt, .lgr, .img, .pwr, .sec, .dbg, .tb, .lanes, .seq, .links, .tst, .cmp, .lib, .trg, .acq, .mea, .src, .tdc, .qdr, .hbm, .sch, .ptp, .dma] s
  all_goals injection h with h
  all_goals subst h
  iterate 60 all_goals first
    | with_reducible assumption
    | ((with_reducible apply resume_moves (hw := ?w)); case w => rfl)
    | ((with_reducible apply dapAccess_moves (hw := ?w)); case w => rfl)
    | intro _
    | dsimp only
    | split

theorem execLoadSwitchPoint_moves (coreRead coreReread : Bool) {s s' : State} (h : execLoadSwitchPoint coreRead coreReread s = .next s') : Moves [.beat, .freeIdx, .regs, .shadowS, .shadowF, .mem, .ans, .net, .flt, .lgr, .img, .pwr, .sec, .dbg, .tb, .lanes, .seq, .links, .tst, .cmp, .lib, .trg, .acq, .mea, .src, .tdc, .qdr, .hbm, .sch, .ptp, .dma] s s' := by
  unfold execLoadSwitchPoint at h
  have hK := Moves.refl [.beat, .freeIdx, .regs, .shadowS, .shadowF, .mem, .ans, .net, .flt, .lgr, .img, .pwr, .sec, .dbg, .tb, .lanes, .seq, .links, .tst, .cmp, .lib, .trg, .acq, .mea, .src, .tdc, .qdr, .hbm, .sch, .ptp, .dma] s
  all_goals injection h with h
  all_goals subst h
  iterate 60 all_goals first
    | with_reducible assumption
    | ((with_reducible apply resume_moves (hw := ?w)); case w => rfl)
    | ((with_reducible apply loadSwitch_moves (hw := ?w)); case w => rfl)
    | intro _
    | dsimp only
    | split

theorem execTrainingFrameRx_moves (g : Fin 16) (lane : LaneId) (control status : Word) (check : BitVec 16) (steer : Nat) {s s' : State} (h : execTrainingFrameRx g lane control status check steer s = .next s') : Moves [.regs, .lanes, .links] s s' := by
  unfold execTrainingFrameRx at h
  have hK := Moves.refl [.regs, .lanes, .links] s
  all_goals injection h with h
  all_goals subst h
  iterate 60 all_goals first
    | with_reducible assumption
    | ((with_reducible apply trainingRx_moves (hw := ?w)); case w => rfl)
    | intro _
    | dsimp only
    | split

theorem execRxReadySet_moves (g : Fin 16) (lane : LaneId) (errors dfeTap mainCursor : Nat) {s s' : State} (h : execRxReadySet g lane errors dfeTap mainCursor s = .next s') : Moves [.lanes] s s' := by
  unfold execRxReadySet at h
  have hK := Moves.refl [.lanes] s
  all_goals injection h with h
  all_goals subst h
  iterate 60 all_goals first
    | with_reducible assumption
    | ((with_reducible apply rxReady_moves (hw := ?w)); case w => rfl)
    | intro _
    | dsimp only
    | split

theorem execLaneDetectExit_moves (g : Fin 16) (lane : LaneId) (inverted : Bool) {s s' : State} (h : execLaneDetectExit g lane inverted s = .next s') : Moves [.regs, .lanes] s s' := by
  unfold execLaneDetectExit at h
  have hK := Moves.refl [.regs, .lanes] s
  all_goals injection h with h
  all_goals subst h
  iterate 60 all_goals first
    | with_reducible assumption
    | ((with_reducible apply detectExit_moves (hw := ?w)); case w => rfl)
    | intro _
    | dsimp only
    | split

theorem execLaneExchangeAccept_moves (g : Fin 16) (lane : LaneId) (aPs bPs : Int) {s s' : State} (h : execLaneExchangeAccept g lane aPs bPs s = .next s') : Moves [.beat, .freeIdx, .regs, .shadowS, .shadowF, .mem, .ans, .net, .flt, .lgr, .img, .pwr, .sec, .dbg, .tb, .lanes, .seq, .links, .tst, .cmp, .lib, .trg, .acq, .mea, .src, .tdc, .qdr, .hbm, .sch, .ptp, .dma] s s' := by
  unfold execLaneExchangeAccept at h
  have hK := Moves.refl [.beat, .freeIdx, .regs, .shadowS, .shadowF, .mem, .ans, .net, .flt, .lgr, .img, .pwr, .sec, .dbg, .tb, .lanes, .seq, .links, .tst, .cmp, .lib, .trg, .acq, .mea, .src, .tdc, .qdr, .hbm, .sch, .ptp, .dma] s
  all_goals injection h with h
  all_goals subst h
  iterate 60 all_goals first
    | with_reducible assumption
    | ((with_reducible apply resume_moves (hw := ?w)); case w => rfl)
    | ((with_reducible apply checkLoadDone_moves (hw := ?w)); case w => rfl)
    | ((with_reducible apply exchangeAccept_moves (hw := ?w)); case w => rfl)
    | intro _
    | dsimp only
    | split

theorem execLaneStateTimeout_moves (g : Fin 16) (lane : LaneId) {s s' : State} (h : execLaneStateTimeout g lane s = .next s') : Moves [.regs, .flt, .lanes] s s' := by
  unfold execLaneStateTimeout at h
  have hK := Moves.refl [.regs, .flt, .lanes] s
  all_goals injection h with h
  all_goals subst h
  iterate 60 all_goals first
    | with_reducible assumption
    | ((with_reducible apply stateTimeout_moves (hw := ?w)); case w => rfl)
    | intro _
    | dsimp only
    | split

theorem execSquelchEnd_moves (g : Fin 16) (lane : LaneId) {s s' : State} (h : execSquelchEnd g lane s = .next s') : Moves [.lanes] s s' := by
  unfold execSquelchEnd at h
  have hK := Moves.refl [.lanes] s
  all_goals injection h with h
  all_goals subst h
  iterate 60 all_goals first
    | with_reducible assumption
    | ((with_reducible apply squelchEnd_moves (hw := ?w)); case w => rfl)
    | intro _
    | dsimp only
    | split

theorem execLaneSignalLost_moves (g : Fin 16) (lane : LaneId) {s s' : State} (h : execLaneSignalLost g lane s = .next s') : Moves [.beat, .freeIdx, .regs, .shadowS, .shadowF, .mem, .ans, .net, .flt, .lgr, .img, .pwr, .sec, .dbg, .tb, .lanes, .seq, .links, .tst, .cmp, .lib, .trg, .acq, .mea, .src, .tdc, .qdr, .hbm, .sch, .ptp, .dma] s s' := by
  unfold execLaneSignalLost at h
  have hK := Moves.refl [.beat, .freeIdx, .regs, .shadowS, .shadowF, .mem, .ans, .net, .flt, .lgr, .img, .pwr, .sec, .dbg, .tb, .lanes, .seq, .links, .tst, .cmp, .lib, .trg, .acq, .mea, .src, .tdc, .qdr, .hbm, .sch, .ptp, .dma] s
  all_goals injection h with h
  all_goals subst h
  iterate 60 all_goals first
    | with_reducible assumption
    | ((with_reducible apply resume_moves (hw := ?w)); case w => rfl)
    | ((with_reducible apply signalLost_moves (hw := ?w)); case w => rfl)
    | intro _
    | dsimp only
    | split

theorem execRetrain_moves (q : Req) (g : Fin 16) (laneA laneB : Bool) {s s' : State} (h : execRetrain q g laneA laneB s = .next s') : Moves [.beat, .freeIdx, .regs, .shadowS, .shadowF, .mem, .ans, .net, .flt, .lgr, .img, .pwr, .sec, .dbg, .tb, .lanes, .seq, .links, .tst, .cmp, .lib, .trg, .acq, .mea, .src, .tdc, .qdr, .hbm, .sch, .ptp, .dma] s s' := by
  unfold execRetrain at h
  have hK := Moves.refl [.beat, .freeIdx, .regs, .shadowS, .shadowF, .mem, .ans, .net, .flt, .lgr, .img, .pwr, .sec, .dbg, .tb, .lanes, .seq, .links, .tst, .cmp, .lib, .trg, .acq, .mea, .src, .tdc, .qdr, .hbm, .sch, .ptp, .dma] s
  all_goals injection h with h
  all_goals subst h
  iterate 60 all_goals first
    | with_reducible assumption
    | ((with_reducible apply resume_moves (hw := ?w)); case w => rfl)
    | ((with_reducible apply guarded_moves (hw := ?w)); case w => rfl)
    | ((with_reducible apply phyCommand_moves (hw := ?w)); case w => rfl)
    | intro _
    | dsimp only
    | split

theorem execEyeScanCmd_moves (q : Req) (g : Fin 16) (laneA laneB : Bool) {s s' : State} (h : execEyeScanCmd q g laneA laneB s = .next s') : Moves [.regs, .mem, .ans, .net, .flt, .lanes, .seq, .links, .tst, .cmp, .trg, .mea, .tdc, .hbm] s s' := by
  unfold execEyeScanCmd at h
  have hK := Moves.refl [.regs, .mem, .ans, .net, .flt, .lanes, .seq, .links, .tst, .cmp, .trg, .mea, .tdc, .hbm] s
  all_goals injection h with h
  all_goals subst h
  iterate 60 all_goals first
    | with_reducible assumption
    | ((with_reducible apply guarded_moves (hw := ?w)); case w => rfl)
    | ((with_reducible apply phyCommand_moves (hw := ?w)); case w => rfl)
    | intro _
    | dsimp only
    | split

theorem execEyeScanPeriodic_moves (g : Fin 16) (lane : LaneId) {s s' : State} (h : execEyeScanPeriodic g lane s = .next s') : Moves [.lanes] s s' := by
  unfold execEyeScanPeriodic at h
  have hK := Moves.refl [.lanes] s
  all_goals injection h with h
  all_goals subst h
  iterate 60 all_goals first
    | with_reducible assumption
    | ((with_reducible apply startScan_moves (hw := ?w)); case w => rfl)
    | intro _
    | dsimp only
    | split

theorem execEyeScanPointDone_moves (g : Fin 16) (lane : LaneId) (open_ : Bool) {s s' : State} (h : execEyeScanPointDone g lane open_ s = .next s') : Moves [.regs, .net, .flt, .lanes] s s' := by
  unfold execEyeScanPointDone at h
  have hK := Moves.refl [.regs, .net, .flt, .lanes] s
  all_goals injection h with h
  all_goals subst h
  iterate 60 all_goals first
    | with_reducible assumption
    | ((with_reducible apply eyePointIn_moves (hw := ?w)); case w => rfl)
    | intro _
    | dsimp only
    | split

theorem execEyeRspTimeout_moves (g : Fin 16) (lane : LaneId) {s s' : State} (h : execEyeRspTimeout g lane s = .next s') : Moves [.lanes] s s' := by
  unfold execEyeRspTimeout at h
  have hK := Moves.refl [.lanes] s
  all_goals injection h with h
  all_goals subst h
  iterate 60 all_goals first
    | with_reducible assumption
    | ((with_reducible apply eyeTimeout_moves (hw := ?w)); case w => rfl)
    | intro _
    | dsimp only
    | split

theorem execPhyXctrlWrite_moves (q : Req) (g : Fin 16) (lane : LaneId) (value : Word) {s s' : State} (h : execPhyXctrlWrite q g lane value s = .next s') : Moves [.beat, .freeIdx, .regs, .shadowS, .shadowF, .mem, .ans, .net, .flt, .lgr, .img, .pwr, .sec, .dbg, .tb, .lanes, .seq, .links, .tst, .cmp, .lib, .trg, .acq, .mea, .src, .tdc, .qdr, .hbm, .sch, .ptp, .dma] s s' := by
  unfold execPhyXctrlWrite at h
  have hK := Moves.refl [.beat, .freeIdx, .regs, .shadowS, .shadowF, .mem, .ans, .net, .flt, .lgr, .img, .pwr, .sec, .dbg, .tb, .lanes, .seq, .links, .tst, .cmp, .lib, .trg, .acq, .mea, .src, .tdc, .qdr, .hbm, .sch, .ptp, .dma] s
  all_goals injection h with h
  all_goals subst h
  iterate 60 all_goals first
    | with_reducible assumption
    | ((with_reducible apply resume_moves (hw := ?w)); case w => rfl)
    | ((with_reducible apply guarded_moves (hw := ?w)); case w => rfl)
    | ((with_reducible apply xctrlWrite_moves (hw := ?w)); case w => rfl)
    | intro _
    | dsimp only
    | split

theorem execTxffeManWrite_moves (q : Req) (g : Fin 16) (lane : LaneId) (value : Word) {s s' : State} (h : execTxffeManWrite q g lane value s = .next s') : Moves [.beat, .freeIdx, .regs, .shadowS, .shadowF, .mem, .ans, .net, .flt, .lgr, .img, .pwr, .sec, .dbg, .tb, .lanes, .seq, .links, .tst, .cmp, .lib, .trg, .acq, .mea, .src, .tdc, .qdr, .hbm, .sch, .ptp, .dma] s s' := by
  unfold execTxffeManWrite at h
  have hK := Moves.refl [.beat, .freeIdx, .regs, .shadowS, .shadowF, .mem, .ans, .net, .flt, .lgr, .img, .pwr, .sec, .dbg, .tb, .lanes, .seq, .links, .tst, .cmp, .lib, .trg, .acq, .mea, .src, .tdc, .qdr, .hbm, .sch, .ptp, .dma] s
  all_goals injection h with h
  all_goals subst h
  iterate 60 all_goals first
    | with_reducible assumption
    | ((with_reducible apply resume_moves (hw := ?w)); case w => rfl)
    | ((with_reducible apply guarded_moves (hw := ?w)); case w => rfl)
    | ((with_reducible apply manualWrite_moves (hw := ?w)); case w => rfl)
    | intro _
    | dsimp only
    | split

theorem execBertCtrlWrite_moves (q : Req) (g : Fin 16) (value : Word) {s s' : State} (h : execBertCtrlWrite q g value s = .next s') : Moves [.freeIdx, .regs, .shadowS, .shadowF, .ans, .lanes] s s' := by
  unfold execBertCtrlWrite at h
  have hK := Moves.refl [.freeIdx, .regs, .shadowS, .shadowF, .ans, .lanes] s
  all_goals injection h with h
  all_goals subst h
  iterate 60 all_goals first
    | with_reducible assumption
    | ((with_reducible apply guarded_moves (hw := ?w)); case w => rfl)
    | ((with_reducible apply bertWrite_moves (hw := ?w)); case w => rfl)
    | intro _
    | dsimp only
    | split

theorem execInwardCodeword_moves (g : Fin 16) (lane : LaneId) (marker : Word) (codeword : BitVec 4880) (t4 : Nat) (cmp intake tdc : Copies) {s s' : State} (h : execInwardCodeword g lane marker codeword t4 cmp intake tdc s = .next s') : Moves [.beat, .freeIdx, .regs, .shadowS, .shadowF, .mem, .ans, .net, .flt, .lgr, .img, .pwr, .sec, .dbg, .tb, .lanes, .seq, .links, .tst, .cmp, .lib, .trg, .acq, .mea, .src, .tdc, .qdr, .hbm, .sch, .ptp, .dma] s s' := by
  unfold execInwardCodeword at h
  have hK := Moves.refl [.beat, .freeIdx, .regs, .shadowS, .shadowF, .mem, .ans, .net, .flt, .lgr, .img, .pwr, .sec, .dbg, .tb, .lanes, .seq, .links, .tst, .cmp, .lib, .trg, .acq, .mea, .src, .tdc, .qdr, .hbm, .sch, .ptp, .dma] s
  all_goals injection h with h
  all_goals subst h
  iterate 60 all_goals first
    | with_reducible assumption
    | ((with_reducible apply inwardCodeword_moves (hw := ?w)); case w => rfl)
    | ((with_reducible apply resume_moves (hw := ?w)); case w => rfl)
    | ((with_reducible apply checkLoadDone_moves (hw := ?w)); case w => rfl)
    | ((with_reducible apply judgeCopies_moves (hw := ?w)); case w => rfl)
    | intro _
    | dsimp only
    | split

theorem execFillerWordRx_moves (g : Fin 16) (lane : LaneId) (word : Word) {s s' : State} (h : execFillerWordRx g lane word s = .next s') : Moves [.beat, .freeIdx, .regs, .shadowS, .shadowF, .mem, .ans, .net, .flt, .lgr, .img, .pwr, .sec, .dbg, .tb, .lanes, .seq, .links, .tst, .cmp, .lib, .trg, .acq, .mea, .src, .tdc, .qdr, .hbm, .sch, .ptp, .dma] s s' := by
  unfold execFillerWordRx at h
  have hK := Moves.refl [.beat, .freeIdx, .regs, .shadowS, .shadowF, .mem, .ans, .net, .flt, .lgr, .img, .pwr, .sec, .dbg, .tb, .lanes, .seq, .links, .tst, .cmp, .lib, .trg, .acq, .mea, .src, .tdc, .qdr, .hbm, .sch, .ptp, .dma] s
  all_goals injection h with h
  all_goals subst h
  iterate 60 all_goals first
    | with_reducible assumption
    | ((with_reducible apply resume_moves (hw := ?w)); case w => rfl)
    | ((with_reducible apply fillerWord_moves (hw := ?w)); case w => rfl)
    | intro _
    | dsimp only
    | split

end Sys2Proof.Laws
end

