-- ==== Sys2Proof/Laws/MovesTick.lean ====
section
/-! SUPPORT. What the operations of Machine/Tick.lean may change of the state, and that they keep what no operation breaks. -/

namespace Sys2Proof.Laws

open Sys2Proof Sys2Proof.Machine

theorem lossesDue_moves {M : List Part} {s0 s : State} (hw : inMask [.regs, .flt, .links] M = true) (h0 : Moves M s0 s) : Moves M s0 (lossesDue s) := by
  refine Moves.via (N := [.regs, .flt, .links]) ?_ hw h0
  clear hw h0
  have hK := Moves.refl [.regs, .flt, .links] s
  unfold lossesDue
  iterate 60 all_goals first
    | with_reducible assumption
    | ((with_reducible apply lossDue_moves (hw := ?w)); case w => rfl)
    | with_reducible apply Moves.foldl
    | intro _
    | dsimp only
    | split

theorem liveTick_moves {M : List Part} {s0 s : State} (hw : inMask [.beat, .freeIdx, .regs, .shadowS, .shadowF, .mem, .ans, .net, .flt, .lgr, .img, .pwr, .sec, .dbg, .tb, .lanes, .seq, .links, .tst, .cmp, .lib, .trg, .acq, .mea, .src, .tdc, .qdr, .hbm, .sch, .ptp, .dma] M = true) (h0 : Moves M s0 s) : Moves M s0 (liveTick s) := by
  refine Moves.via (N := [.beat, .freeIdx, .regs, .shadowS, .shadowF, .mem, .ans, .net, .flt, .lgr, .img, .pwr, .sec, .dbg, .tb, .lanes, .seq, .links, .tst, .cmp, .lib, .trg, .acq, .mea, .src, .tdc, .qdr, .hbm, .sch, .ptp, .dma]) ?_ hw h0
  clear hw h0
  have hK := Moves.refl [.beat, .freeIdx, .regs, .shadowS, .shadowF, .mem, .ans, .net, .flt, .lgr, .img, .pwr, .sec, .dbg, .tb, .lanes, .seq, .links, .tst, .cmp, .lib, .trg, .acq, .mea, .src, .tdc, .qdr, .hbm, .sch, .ptp, .dma] s
  unfold liveTick
  iterate 60 all_goals first
    | with_reducible assumption
    | ((with_reducible apply showXo_moves (hw := ?w)); case w => rfl)
    | ((with_reducible apply signalsDue_moves (hw := ?w)); case w => rfl)
    | ((with_reducible apply lossesDue_moves (hw := ?w)); case w => rfl)
    | ((with_reducible apply ptpTick_moves (hw := ?w)); case w => rfl)
    | ((with_reducible apply resume_moves (hw := ?w)); case w => rfl)
    | ((with_reducible apply ptpEvaluate_moves (hw := ?w)); case w => rfl)
    | intro _
    | dsimp only
    | split
    | ((with_reducible apply Moves.update) <;> first | (with_reducible exact Or.inl rfl) | exact Or.inr (by decide) | skip)

theorem tick_moves {M : List Part} {s0 s : State} (hw : inMask [.time, .beat, .freeIdx, .regs, .shadowS, .shadowF, .mem, .ans, .net, .flt, .lgr, .img, .pwr, .sec, .dbg, .tb, .lanes, .seq, .links, .tst, .cmp, .lib, .trg, .acq, .mea, .src, .tdc, .qdr, .hbm, .sch, .ptp, .dma] M = true) (h0 : Moves M s0 s) : Moves M s0 (tick s) := by
  have w1 {A} (h : inMask A [.time, .beat, .freeIdx, .regs, .shadowS, .shadowF, .mem, .ans, .net, .flt, .lgr, .img, .pwr, .sec, .dbg, .tb, .lanes, .seq, .links, .tst, .cmp, .lib, .trg, .acq, .mea, .src, .tdc, .qdr, .hbm, .sch, .ptp, .dma] = true) : inMask A M = true := inMask_trans h hw
  have hm := mem_of_inMask hw .time (by decide)
  have h1 : Moves M s0 { s with time := s.time + 1 } := h0.trans ⟨⟨fun p hp => by cases p <;> first | rfl | exact absurd hm hp⟩,
    ⟨id, id, fun h => ⟨h, Nat.le_refl _⟩, rfl, Nat.le_succ _⟩⟩
  unfold tick
  dsimp only
  split
  · exact h1
  · exact liveTick_moves (hw := w1 rfl) (h0 := h1)

end Sys2Proof.Laws
end

