-- ==== Sys2Proof/Laws/Requests.lean ====
section
/-! SUPPORT. What the words of Safety mean for a proof: an accepted write runs its operation, a refused one is only answered, a quiet
state has nothing to resume, a fault raised is held by the collector, and the frames of registers and memory compose. -/

namespace Sys2Proof.Laws

open Sys2Proof Sys2Proof.Machine

theorem guarded_accepted {q : Req} {a : Nat} {v : Word} {s : State} (h : Accepted q a v s) (k : State → State) : guarded q a v k s = k s := by
  unfold guarded
  rw [show refusalOf q a v s = none from h]

theorem guarded_refused {q : Req} {a : Nat} {v : Word} {s : State} {code : Nat} (h : refusalOf q a v s = some code) (k : State → State) :
    guarded q a v k s = { s with ans := { status := code } } := by
  unfold guarded
  rw [h]
  rfl

theorem guardedRead_accepted {q : Req} {a : Nat} {s : State} (h : ReadAccepted q a s) (k : State → State) : guardedRead q a k s = k s := by
  obtain ⟨h1, h2, h3, h4⟩ := h
  unfold guardedRead
  rw [h1, h2, h3, if_neg (by simp), if_neg (by simp), if_neg (fun h => h4.elim h.1 h.2)]

theorem foldl_id {α : Type} (f : State → α → State) (s : State) (l : List α) (h : ∀ x ∈ l, f s x = s) : l.foldl f s = s := by
  induction l with
  | nil => rfl
  | cons x l ih => rw [List.foldl_cons, h x (by simp)]; exact ih (fun y hy => h y (by simp [hy]))

theorem resume_quiet {s : State} (h : Quiet s) : resume s = s := by
  unfold resume
  exact foldl_id _ _ _ (fun k _ => by rw [h k]; rfl)

theorem quiet_congr {s t : State} (h : Quiet s) (e : t.net.sess = s.net.sess) : Quiet t := by
  intro k
  unfold sessOf
  rw [e]
  exact h k

theorem sameRegs_refl {l : List Nat} {s : State} : SameRegs l s s := fun _ _ => rfl

theorem sameRegs_trans {l : List Nat} {s t u : State} (h : SameRegs l s t) (k : SameRegs l t u) : SameRegs l s u :=
  fun a ha => (k a ha).trans (h a ha)

theorem sameRegs_congr {l : List Nat} {s t : State} (h : t.regs = s.regs) : SameRegs l s t := fun a _ => rd_congr h a

theorem sameRegs_mono {l m : List Nat} {s t : State} (h : SameRegs l s t) (k : ∀ a ∈ l, a ∈ m) : SameRegs m s t :=
  fun a ha => h a (fun x => ha (k a x))

theorem sameRegs_setReg {l : List Nat} {s : State} {a : Nat} (w : Word) (h : a ∈ l) : SameRegs l s (setReg a w s) :=
  fun _ hb => rd_setReg_other _ _ _ _ (fun e => hb (e ▸ h))

theorem sameMem_congr {s t : State} (h : t.mem = s.mem) : SameMem s t := fun a => memByte_congr h a

/-! ### Reports -/

theorem reports_uncoverAll (f : FaultRec) (c : Collector) {r : FaultRec} (h : r ∈ Collector.reports c) :
    ∃ r' ∈ Collector.reports (uncoverAll f c), r'.cls = r.cls ∧ r'.unitClass = r.unitClass ∧ r'.unit = r.unit ∧ r'.cause = r.cause := by
  refine ⟨uncover f r, ?_, ?_⟩
  · unfold Collector.reports at h ⊢
    unfold uncoverAll
    simp only [List.mem_append, Option.mem_toList, List.mem_map, Option.map_eq_some_iff] at h ⊢
    obtain ((h | h) | h) | h := h
    · exact .inl (.inl (.inl ⟨r, h, rfl⟩))
    · exact .inl (.inl (.inr ⟨r, h, rfl⟩))
    · exact .inl (.inr ⟨r, h, rfl⟩)
    · exact .inr ⟨r, h, rfl⟩
  · unfold uncover
    split <;> exact ⟨rfl, rfl, rfl, rfl⟩

/-- A report that arrives is held, and so is every report held before. -/
theorem reports_breakGuarantee (f : FaultRec) (c : Collector) : Collector.reports (breakGuarantee f c) = Collector.reports c := by
  unfold breakGuarantee
  split
  · rfl
  · split
    · rfl
    · split <;> rfl

theorem arrive_new (f : FaultRec) (c : Collector) :
    ∃ r ∈ Collector.reports (arrive f c), r.cls = f.cls ∧ r.unitClass = f.unitClass ∧ r.unit = f.unit ∧ r.cause = f.cause := by
  unfold arrive
  generalize uncoverAll f (breakGuarantee f c) = d
  dsimp only
  split
  · exact ⟨{ f with seq := d.nextSeq }, by simp [Collector.reports], rfl, rfl, rfl, rfl⟩
  · next h _ =>
    split
    · exact ⟨{ f with seq := d.nextSeq, parent := h.seq }, by simp [Collector.reports], rfl, rfl, rfl, rfl⟩
    · split
      · exact ⟨{ f with seq := d.nextSeq, nested := true, parent := h.seq }, by simp [Collector.reports], rfl, rfl, rfl, rfl⟩
      · exact ⟨{ f with queueWait := true, nested := true, parent := h.seq }, by simp [Collector.reports], rfl, rfl, rfl, rfl⟩

theorem arrive_old (f : FaultRec) (c : Collector) {r : FaultRec} (h : r ∈ Collector.reports c) :
    ∃ r' ∈ Collector.reports (arrive f c), r'.cls = r.cls ∧ r'.unitClass = r.unitClass ∧ r'.unit = r.unit ∧ r'.cause = r.cause := by
  rw [← reports_breakGuarantee f c] at h
  obtain ⟨r', h', e⟩ := reports_uncoverAll f _ h
  refine ⟨r', ?_, e⟩
  clear e h
  unfold arrive
  revert h'
  generalize uncoverAll f (breakGuarantee f c) = d
  intro h'
  dsimp only
  unfold Collector.reports at h' ⊢
  simp only [List.mem_append, Option.mem_toList] at h'
  cases hd : d.handling with
  | none =>
    rw [hd] at h'
    obtain ((h' | h') | h') | h' := h' <;> simp_all
  | some x =>
    rw [hd] at h'
    dsimp only
    split
    · obtain ((h' | h') | h') | h' := h' <;> simp_all
    · split
      · obtain ((h' | h') | h') | h' := h' <;> simp_all
      · obtain ((h' | h') | h') | h' := h' <;> simp_all

theorem coalesce_old (f : FaultRec) : ∀ (l : List FaultRec) {r : FaultRec}, r ∈ l →
    ∃ r' ∈ coalesce f l, r'.cls = r.cls ∧ r'.unitClass = r.unitClass ∧ r'.unit = r.unit ∧ r'.cause = r.cause
  | h :: t, r, hr => by
    unfold coalesce
    split
    · rcases List.mem_cons.1 hr with rfl | hr
      · exact ⟨_, List.mem_cons_self .., rfl, rfl, rfl, rfl⟩
      · exact ⟨r, List.mem_cons_of_mem _ hr, rfl, rfl, rfl, rfl⟩
    · rcases List.mem_cons.1 hr with rfl | hr
      · exact ⟨_, List.mem_cons_self .., rfl, rfl, rfl, rfl⟩
      · obtain ⟨r', h', e⟩ := coalesce_old f t hr
        exact ⟨r', List.mem_cons_of_mem _ h', e⟩

theorem raise_flt (f : FaultRec) (s : State) : (raise f s).flt = { s.flt with held := coalesce f s.flt.held } ∧
      s.flt.held.any (fun h => sameReport h f) = true ∨
    ∃ g : FaultRec, (raise f s).flt = arrive g s.flt ∧ g.cls = f.cls ∧ g.unitClass = f.unitClass ∧ g.unit = f.unit ∧ g.cause = f.cause := by
  unfold raise
  split
  · next h => exact .inl ⟨rfl, h⟩
  · extract_lets cov f' o t
    refine .inr ⟨f', ?_, rfl, rfl, rfl, rfl⟩
    split <;> rfl

/-- A fault raised is held by the collector. -/
theorem raise_reported (f : FaultRec) (s : State) : Reported f.cls f.unitClass f.unit f.cause (raise f s) := by
  unfold Reported
  rcases raise_flt f s with ⟨h, ha⟩ | ⟨g, h, e1, e2, e3, e4⟩
  · rw [h]
    obtain ⟨r, hr, hs⟩ := List.any_eq_true.1 ha
    obtain ⟨r', h', e⟩ := coalesce_old f _ hr
    simp only [sameReport, Bool.and_eq_true, beq_iff_eq] at hs
    exact ⟨r', by simp [Collector.reports, h'], by omega, by omega, by omega, by omega⟩
  · rw [h]
    obtain ⟨r, hr, e⟩ := arrive_new g s.flt
    exact ⟨r, hr, by omega, by omega, by omega, by omega⟩

/-- A report held stays held while another is raised. -/
theorem raise_keeps_reported (f : FaultRec) {s : State} {cls uc unit cause : Nat} (h : Reported cls uc unit cause s) :
    Reported cls uc unit cause (raise f s) := by
  obtain ⟨r, hr, e⟩ := h
  unfold Reported
  rcases raise_flt f s with ⟨h, -⟩ | ⟨g, h, -⟩
  · rw [h]
    unfold Collector.reports at hr ⊢
    simp only [List.mem_append] at hr
    obtain hr | hr := hr
    · exact ⟨r, by simp only [List.mem_append]; exact .inl hr, e⟩
    · obtain ⟨r', h', e'⟩ := coalesce_old f _ hr
      exact ⟨r', by simp only [List.mem_append]; exact .inr h', by omega⟩
  · rw [h]
    obtain ⟨r', h', e'⟩ := arrive_old g _ hr
    exact ⟨r', h', by omega⟩

theorem breakGuarantee_grave (f : FaultRec) (c : Collector) : (breakGuarantee f c).grave = c.grave ∧ (breakGuarantee f c).halted = c.halted := by
  unfold breakGuarantee
  split
  · exact ⟨rfl, rfl⟩
  · split
    · exact ⟨rfl, rfl⟩
    · split <;> exact ⟨rfl, rfl⟩

theorem arrive_grave (f : FaultRec) (c : Collector) : (arrive f c).grave = c.grave ∧ (arrive f c).halted = c.halted := by
  have h : (uncoverAll f (breakGuarantee f c)).grave = c.grave ∧ (uncoverAll f (breakGuarantee f c)).halted = c.halted := breakGuarantee_grave f c
  unfold arrive
  revert h
  generalize uncoverAll f (breakGuarantee f c) = d
  intro h
  dsimp only
  split
  · exact h
  · split
    · exact h
    · split <;> exact h

/-- A report changes neither the grave condition nor the halt: their reactions come when it is handled. -/
@[simp] theorem raise_grave (f : FaultRec) (s : State) : (raise f s).flt.grave = s.flt.grave := by
  rcases raise_flt f s with ⟨h, -⟩ | ⟨g, h, -⟩ <;> rw [h]
  exact (arrive_grave g s.flt).1

@[simp] theorem raise_halted (f : FaultRec) (s : State) : (raise f s).flt.halted = s.flt.halted := by
  rcases raise_flt f s with ⟨h, -⟩ | ⟨g, h, -⟩ <;> rw [h]
  exact (arrive_grave g s.flt).2

theorem reported_congr {s t : State} (h : t.flt = s.flt) {cls uc unit cause : Nat} (k : Reported cls uc unit cause s) :
    Reported cls uc unit cause t := by
  unfold Reported
  rw [h]
  exact k

end Sys2Proof.Laws
end

