-- ==== Sys2Proof/Laws/Reset.lean ====
section
/-! SUPPORT. What a reset leaves: the parts of the state that `freshState` starts afresh, and those it keeps. -/

namespace Sys2Proof.Laws

open Sys2Proof Sys2Proof.Machine

/-- What a reset sets up before the kept registers and tables are put back. -/
def resetBase (s : State) : State :=
  { State.reset with
    pending := s.pending, time := s.time, freeIdx := s.freeIdx, ans := s.ans, lib := keptLib s.lib,
    sec := { s.sec with cmd := none, fwSvn := 0, ucodeSvn := 0, mFw := [], mUcode := [], mImage := [], mCore := [] },
    net := { State.reset.net with hosts := s.net.hosts },
    img := { State.reset.img with sysEpoch := s.img.sysEpoch },
    flt := { State.reset.flt with graveKept := s.flt.graveKept, grave := s.flt.grave },
    pwr := { State.reset.pwr with detachN := s.pwr.detachN, core := s.pwr.core, mgmt := s.pwr.mgmt, uvlo := s.pwr.uvlo, since := s.time } }

/-- The steps of a reset after the state was set up. -/
theorem freshState_moves_base (s : State) : Moves [.regs, .freeIdx, .dbg, .tst, .tdc, .flt, .links] (resetBase s) (freshState s) := by
  unfold freshState
  extract_lets t0 x1 x2 x3 x4 x5 t2 t3 t4 t5 t6 t7
  have h1 : Moves [.regs, .freeIdx, .dbg, .tst, .tdc, .flt, .links] (resetBase s) t2 := Moves.refl _ _
  clear_value t2 t0
  have h3 : Moves [.regs, .freeIdx, .dbg, .tst, .tdc, .flt, .links] (resetBase s) t3 := Moves.foldl (fun _ _ h => setReg_moves (hw := rfl) (h0 := h) ..) _ h1
  clear_value t3
  have h4 : Moves [.regs, .freeIdx, .dbg, .tst, .tdc, .flt, .links] (resetBase s) t4 :=
    Moves.foldl (fun _ _ h => showTrims_moves (hw := rfl) (h0 := showCalStale_moves (hw := rfl) (h0 := modTst_moves (hw := rfl) (h0 := h) ..) ..) ..) _ h3
  clear_value t4
  have h5 : Moves [.regs, .freeIdx, .dbg, .tst, .tdc, .flt, .links] (resetBase s) t5 := by
    refine Moves.foldl (fun _ _ h => ?_) _ h4
    split
    · exact showCal_moves (hw := rfl) (h0 := modTdc_moves (hw := rfl) (h0 := h) ..) ..
    · exact h
  clear_value t5
  have h6 : Moves [.regs, .freeIdx, .dbg, .tst, .tdc, .flt, .links] (resetBase s) t6 :=
    takePool_moves (hw := rfl) (h0 := setBit_moves (hw := rfl) (h0 := setBit_moves (hw := rfl) (h0 := h5) ..) ..) ..
  clear_value t6
  have h7 : Moves [.regs, .freeIdx, .dbg, .tst, .tdc, .flt, .links] (resetBase s) t7 := by
    dsimp only [t7]
    split
    · exact setRegN_moves (hw := rfl) (h0 := h6) ..
    · exact setRegs_moves (hw := rfl) (h0 := h6) ..
  clear_value t7
  exact showSec_moves (hw := rfl) (h0 := drawNonce_moves (hw := rfl) (h0 := h7))

/-- Beyond `resetBase`, a reset puts back registers, calibrations and the free values drawn for the nonce only. -/
theorem freshState_base (s : State) : Alters [.regs, .freeIdx, .dbg, .tst, .tdc, .flt, .links] (resetBase s) (freshState s) := (freshState_moves_base s).alters

theorem takePool_grave (n : Nat) (s : State) : (takePool n s).flt.grave = s.flt.grave := by
  unfold takePool
  extract_lets init left s1 mark
  have hm : ∀ bit pct s, (mark bit pct s).flt.grave = s.flt.grave := by
    intro bit pct s
    dsimp only [mark]
    split
    · exact raise_grave _ _
    · rfl
  show (mark 3 5 (mark 2 25 s1)).flt.grave = _
  rw [hm, hm]
  rfl

/-- A reset keeps the grave condition (R616: power off only leaves it). -/
theorem freshState_grave (s : State) : (freshState s).flt.grave = s.flt.grave := by
  unfold freshState
  extract_lets t0 x1 x2 x3 x4 x5 t2 t3 t4 t5 t6 t7
  have h2 : t2.flt.grave = s.flt.grave := rfl
  clear_value t2 t0
  have h3 : Moves [.regs, .tst, .tdc, .links] t2 t3 := Moves.foldl (fun _ _ h => setReg_moves (hw := rfl) (h0 := h) ..) _ (Moves.refl _ _)
  clear_value t3
  have h4 : Moves [.regs, .tst, .tdc, .links] t2 t4 :=
    Moves.foldl (fun _ _ h => showTrims_moves (hw := rfl) (h0 := showCalStale_moves (hw := rfl) (h0 := modTst_moves (hw := rfl) (h0 := h) ..) ..) ..) _ h3
  clear_value t4
  have h5 : Moves [.regs, .tst, .tdc, .links] t2 t5 := by
    refine Moves.foldl (fun _ _ h => ?_) _ h4
    split
    · exact showCal_moves (hw := rfl) (h0 := modTdc_moves (hw := rfl) (h0 := h) ..) ..
    · exact h
  clear_value t5
  have h6 : t6.flt.grave = s.flt.grave := by
    dsimp only [t6]
    rw [takePool_grave, ← h2]
    exact congrArg Collector.grave (h5.alters.same .flt (by decide))
  clear_value t6
  have h7 : Moves [.regs, .freeIdx, .dbg] t6 t7 := by
    dsimp only [t7]
    split
    · exact setRegN_moves (hw := rfl) (h0 := Moves.refl _ _) ..
    · exact setRegs_moves (hw := rfl) (h0 := Moves.refl _ _) ..
  clear_value t7
  have h8 : Moves [.regs, .freeIdx, .dbg] t6 (showSec (drawNonce t7)) := showSec_moves (hw := rfl) (h0 := drawNonce_moves (hw := rfl) (h0 := h7))
  rw [← h6]
  exact congrArg Collector.grave (h8.alters.same .flt (by decide))

/-- Applying an image leaves the power state in HOLD and the rest of the power fields as they are (R63). -/
theorem applyImage_pwr (slot : Nat) (m : Image) (x : AdmitSums) (coreRead : Bool) (s : State) :
    (applyImage slot m x coreRead s).pwr = { s.pwr with state := .hold } := by
  unfold applyImage
  extract_lets intact t m2 epoch q1 q2 q3 q4 s1 s2 s3 s4 s5 s6 s7 s8 s9 s10 s11 s12 s13
  have ht : t.pwr = s.pwr := by
    dsimp only [t]
    split
    · rfl
    · exact (sparesNotice_moves (hw := rfl) (h0 := Moves.refl [.regs, .flt] s) ..).alters.same .pwr (by decide)
  have h1 : s1.pwr = { s.pwr with state := .hold } := by rw [← ht]
  clear_value s1
  let L : List Part := [.regs, .mem, .flt, .lgr, .seq, .links, .tst, .mea, .hbm, .sch]
  have h6 : Moves L s1 s6 := setBit_moves (hw := rfl) (h0 := setRegN_moves (hw := rfl) (h0 := setRegN_moves (hw := rfl) (h0 :=
    showSums_moves (hw := rfl) (h0 := setRegs_moves (hw := rfl) (h0 := setRegN_moves (hw := rfl) (h0 := set64_moves (hw := rfl) (h0 := Moves.refl _ _) ..) ..) ..) ..) ..) ..) ..
  clear_value s6
  have h7 : Moves L s1 s7 := Moves.foldl (fun _ _ h => applyGroupRole_moves (hw := rfl) (h0 := h) ..) _ h6
  clear_value s7
  have h8 : Moves L s1 s8 := applyDspMap_moves (hw := rfl) (h0 := applyTsets_moves (hw := rfl) (h0 := h7) ..) ..
  clear_value s8
  have h9 : Moves L s1 s9 := applySched_moves (hw := rfl) (h0 := applyRoute_moves (hw := rfl) (h0 := h8) ..) ..
  clear_value s9
  have h10 : Moves L s1 s10 := showDma_moves (hw := rfl) (h0 := applyDmaFree_moves (hw := rfl) (h0 := h9) ..)
  clear_value s10
  have h11 : Moves L s1 s11 := Moves.foldl (fun _ _ h => resetContext_moves (hw := rfl) (h0 := h) ..) _ (setRegN_moves (hw := rfl) (h0 := h10) ..)
  clear_value s11
  have h12 : Moves L s1 s12 := Moves.foldl (fun _ _ h => setRegN_moves (hw := rfl) (h0 := h) ..) _ h11
  clear_value s12
  have h13 : Moves L s1 s13 := Moves.foldl (fun _ _ h => setRegN_moves (hw := rfl) (h0 := setRegN_moves (hw := rfl) (h0 := h) ..) ..) _ h12
  clear_value s13
  exact ((rebaseLedgers_moves (hw := rfl) (h0 := showLogRate_moves (hw := rfl) (h0 := h13))).alters.same .pwr (by decide)).trans h1

/-- Out of reset in HOLD, with DETACH_N as given. -/
def holds (n : Bool) (s : State) : Prop := s.pwr.state = .hold ∧ s.pwr.inReset = false ∧ s.pwr.detachN = n

theorem holds_of_moves {L : List Part} {n : Bool} {s t : State} (h : holds n s) (k : Moves L s t) (hp : Part.pwr ∉ L) : holds n t := by
  have e : t.pwr = s.pwr := k.alters.same .pwr hp
  unfold holds
  rw [e]
  exact h

theorem switchTo_holds (slot : Nat) (m : Image) (x : AdmitSums) (coreRead : Bool) {n : Bool} {s : State} (h : holds n s) :
    holds n (switchTo slot m x coreRead s) := by
  have h1 : holds n (applyImage slot m x coreRead s) := by
    unfold holds
    rw [applyImage_pwr]
    exact ⟨rfl, h.2⟩
  exact holds_of_moves h1 (Moves.foldl (M := [.regs, .mem, .ans, .net, .flt, .lanes, .seq, .links, .tst, .cmp, .trg, .mea, .tdc, .hbm]) (fun _ _ h => switchLanes_moves (hw := rfl) (h0 := h) ..) _ (Moves.refl _ _)) (by decide)

theorem holds_img {n : Bool} {s : State} (h : holds n s) (i : ImgState) : holds n { s with img := i } := h

/-- Selecting an image at power-on leaves HOLD (R63). -/
theorem bootImage_holds (o : BootObs) {n : Bool} {s : State} (h : holds n s) : holds n (bootImage o s) := by
  unfold bootImage
  split
  · exact h
  · dsimp only
    split
    · next hE =>
      have h1 := holds_of_moves h (selectImage_movesE (hE := hE) (hw := rfl) (h0 := Moves.refl [.regs, .flt] s)) (by decide)
      exact holds_of_moves (holds_img (switchTo_holds _ _ _ _ h1) _) (checkLoadDone_moves (hw := rfl) (h0 := Moves.refl [.regs, .ans, .net, .img] _)) (by decide)
    · next hE =>
      have h1 := holds_of_moves h (selectImage_movesE (hE := hE) (hw := rfl) (h0 := Moves.refl [.regs, .flt] s)) (by decide)
      exact holds_of_moves h1 (imageNotice_moves (hw := rfl) (h0 := imageNotice_moves (hw := rfl) (h0 := Moves.refl [.regs, .flt] _) ..) ..) (by decide)

/-- Start-up ends in HOLD, out of reset, whichever firmware and image it finds (R665). -/
theorem startUp_holds (o : BootObs) (s : State) : holds s.pwr.detachN (startUp o s) := by
  unfold startUp
  extract_lets x1 v x2 w
  have hv : holds s.pwr.detachN v :=
    holds_of_moves (L := [.regs]) (s := { s with pwr := { s.pwr with state := .hold, inReset := false } }) ⟨rfl, rfl, rfl⟩
      (showXo_moves (hw := rfl) (h0 := applyRole_moves (hw := rfl) (h0 := Moves.refl _ _))) (by decide)
  clear_value v
  have hw : holds s.pwr.detachN w := by
    dsimp only [w]
    split
    · refine holds_of_moves (L := [.regs, .flt]) (s := { v with pwr := { v.pwr with uvlo := false } }) hv
        (raise_moves (hw := rfl) (h0 := orReg_moves (hw := rfl) (h0 := Moves.refl _ _) ..) ..) (by decide)
    · exact hv
  clear_value w
  have rec_ : ∀ z : State, holds s.pwr.detachN z → holds s.pwr.detachN (enterRecovery z) := fun z h => h
  split
  · exact rec_ w hw
  · dsimp only
    split
    · exact rec_ _ hw
    · next z hz =>
      have hh : ∀ u, loadMicrocode o.ucode u = some z → holds s.pwr.detachN u → holds s.pwr.detachN z := fun u hE hu =>
        holds_of_moves hu (loadMicrocode_moves (hE := hE) (hw := rfl) (h0 := Moves.refl [.regs, .sec] u)) (by decide)
      exact bootImage_holds o (hh _ hz hw)

/-- A reset by command ends in HOLD, out of reset. -/
theorem commandReset_holds (o : BootObs) (s : State) : holds s.pwr.detachN (commandReset o s) := by
  obtain ⟨h1, h2, h3⟩ := startUp_holds o (freshState s)
  exact ⟨h1, h2, h3.trans (show (freshState s).pwr.detachN = (resetBase s).pwr.detachN from congrArg Power.detachN ((freshState_base s).same .pwr (by decide)))⟩

end Sys2Proof.Laws
end

