-- ==== Sys2Proof/Laws/SameRegs.lean ====
section
/-! SUPPORT. Register frames compose: each named operation keeps `SameRegs l` when the register it writes is in `l`. -/

namespace Sys2Proof.Laws

open Sys2Proof Sys2Proof.Machine

theorem sr_congr {l : List Nat} {s0 s t : State} (e : t.regs = s.regs) (h : SameRegs l s0 s) : SameRegs l s0 t := sameRegs_trans h (sameRegs_congr e)

theorem sr_setReg {l : List Nat} {s0 s : State} (a : Nat) (w : Word) (ha : a ∈ l) (h : SameRegs l s0 s) : SameRegs l s0 (setReg a w s) :=
  sameRegs_trans h (sameRegs_setReg w ha)

theorem sr_setRegN {l : List Nat} {s0 s : State} (a n : Nat) (ha : a ∈ l) (h : SameRegs l s0 s) : SameRegs l s0 (setRegN a n s) := sr_setReg a _ ha h
theorem sr_setFld {l : List Nat} {s0 s : State} (a hi lo x : Nat) (ha : a ∈ l) (h : SameRegs l s0 s) : SameRegs l s0 (setFld a hi lo x s) := sr_setReg a _ ha h
theorem sr_setBit {l : List Nat} {s0 s : State} (a k : Nat) (b : Bool) (ha : a ∈ l) (h : SameRegs l s0 s) : SameRegs l s0 (setBit a k b s) := sr_setReg a _ ha h
theorem sr_orReg {l : List Nat} {s0 s : State} (a mask : Nat) (ha : a ∈ l) (h : SameRegs l s0 s) : SameRegs l s0 (orReg a mask s) := sr_setReg a _ ha h
theorem sr_incWrap {l : List Nat} {s0 s : State} (a k : Nat) (ha : a ∈ l) (h : SameRegs l s0 s) : SameRegs l s0 (incWrap a k s) := sr_setReg a _ ha h
theorem sr_incSat {l : List Nat} {s0 s : State} (a k : Nat) (ha : a ∈ l) (h : SameRegs l s0 s) : SameRegs l s0 (incSat a k s) := sr_setReg a _ ha h

theorem sr_set64 {l : List Nat} {s0 s : State} (a n : Nat) (ha : a ∈ l) (hb : a + 4 ∈ l) (h : SameRegs l s0 s) : SameRegs l s0 (set64 a n s) :=
  sr_setRegN _ _ hb (sr_setRegN _ _ ha h)

theorem sr_setRegs {l : List Nat} {s0 : State} : ∀ (ws : List Word) (a : Nat) {s : State}, (∀ i, i < ws.length → a + 4 * i ∈ l) → SameRegs l s0 s →
    SameRegs l s0 (setRegs a ws s)
  | [], _, _, _, h => h
  | w :: ws, a, _, ha, h => by
    unfold setRegs
    exact sr_setRegs ws (a + 4) (fun i hi => by have := ha (i + 1) (by simp; omega); rwa [show a + 4 * (i + 1) = a + 4 + 4 * i by omega] at this)
      (sr_setReg _ _ (by have := ha 0 (by simp); simpa using this) h)

theorem sr_raise {l : List Nat} {s0 s : State} (f : FaultRec) (ha : Reg.FLT_Q_OVERFLOW ∈ l) (h : SameRegs l s0 s) : SameRegs l s0 (raise f s) :=
  sameRegs_trans h (fun a hb => rd_raise f s a (fun e => hb (e ▸ ha)))

theorem sr_raiseAll {l : List Nat} {s0 : State} (ha : Reg.FLT_Q_OVERFLOW ∈ l) : ∀ (fs : List FaultRec) {s : State}, SameRegs l s0 s → SameRegs l s0 (raiseAll fs s)
  | [], _, h => h
  | f :: fs, _, h => sr_raiseAll ha fs (sr_raise f ha h)

theorem sr_setBytes {l : List Nat} {s0 s : State} (a : Nat) (bs : List Byte) (ha : Reg.MEM_STATUS ∈ l) (h : SameRegs l s0 s) :
    SameRegs l s0 (setBytes a bs s) := sameRegs_trans h (fun b hb => rd_setBytes a bs s b (fun e => hb (e ▸ ha)))

theorem sr_foldl {l : List Nat} {s0 : State} {α : Type} {f : State → α → State} (hf : ∀ s x, SameRegs l s0 s → SameRegs l s0 (f s x)) :
    ∀ (xs : List α) {s : State}, SameRegs l s0 s → SameRegs l s0 (xs.foldl f s)
  | [], _, h => h
  | x :: xs, s, h => sr_foldl hf xs (hf s x h)

theorem rdRegs_congr {s t : State} : ∀ (n a : Nat), (∀ i, i < n → rd t (a + 4 * i) = rd s (a + 4 * i)) → rdRegs t a n = rdRegs s a n
  | 0, _, _ => rfl
  | n + 1, a, h => by
    have e0 : rd t a = rd s a := h 0 (by omega)
    have e : rdRegs t (a + 4) n = rdRegs s (a + 4) n := by
      refine rdRegs_congr n (a + 4) (fun i hi => ?_)
      rw [show a + 4 + 4 * i = a + 4 * (i + 1) by omega]
      exact h (i + 1) (by omega)
    unfold rdRegs
    rw [e0, e]

theorem sr_setByte {l : List Nat} {s0 s : State} (a : Nat) (b : Byte) (h : SameRegs l s0 s) : SameRegs l s0 (setByte a b s) := sr_congr (setByte_regs _ _ _) h
theorem sr_answer {l : List Nat} {s0 s : State} (code : Nat) (h : SameRegs l s0 s) : SameRegs l s0 (answer code s) := sr_congr (answer_regs _ _) h
theorem sr_deferAnswer {l : List Nat} {s0 s : State} (k : OpenKind) (slot : Nat) (h : SameRegs l s0 s) : SameRegs l s0 (deferAnswer k slot s) := sr_congr (deferAnswer_regs _ _ _) h
theorem sr_setObj {l : List Nat} {s0 s : State} (id : Nat) (o : Option LibObj) (h : SameRegs l s0 s) : SameRegs l s0 (setObj id o s) := sr_congr (setObj_regs _ _ _) h
theorem sr_modObj {l : List Nat} {s0 s : State} (id : Nat) (f : LibObj → LibObj) (h : SameRegs l s0 s) : SameRegs l s0 (modObj id f s) := sr_congr (modObj_regs _ _ _) h
theorem sr_pushRec {l : List Nat} {s0 s : State} (p : Stream → Bool) (r : Rec) (h : SameRegs l s0 s) : SameRegs l s0 (pushRec p r s) := sr_congr (pushRec_regs _ _ _) h
theorem sr_pushEvent {l : List Nat} {s0 s : State} (source num value : Nat) (h : SameRegs l s0 s) : SameRegs l s0 (pushEvent source num value s) := sr_congr (pushEvent_regs _ _ _ _) h
theorem sr_markOneCopy {l : List Nat} {s0 s : State} (uc unit : Nat) (h : SameRegs l s0 s) : SameRegs l s0 (markOneCopy uc unit s) := sr_congr (markOneCopy_regs _ _ _) h
theorem sr_fenceUnit {l : List Nat} {s0 s : State} (uc unit : Nat) (h : SameRegs l s0 s) : SameRegs l s0 (fenceUnit uc unit s) := sr_congr (fenceUnit_regs _ _ _) h
theorem sr_modLink {l : List Nat} {s0 s : State} (g : Nat) (f : Link → Link) (h : SameRegs l s0 s) : SameRegs l s0 (modLink g f s) := sr_congr (modLink_regs _ _ _) h
theorem sr_shadowSet {l : List Nat} {s0 s : State} (a : Nat) (v : Word) (h : SameRegs l s0 s) : SameRegs l s0 (shadowSet a v s) := sr_congr (shadowSet_regs _ _ _) h
theorem sr_shadowFset {l : List Nat} {s0 s : State} (a : Nat) (v : Word) (h : SameRegs l s0 s) : SameRegs l s0 (shadowFset a v s) := sr_congr (shadowFset_regs _ _ _) h
theorem sr_answerData {l : List Nat} {s0 s : State} (w : Word) (h : SameRegs l s0 s) : SameRegs l s0 (answerData w s) := sr_congr (answerData_regs _ _) h
theorem sr_modSess {l : List Nat} {s0 s : State} (k : Nat) (f : Session → Session) (h : SameRegs l s0 s) : SameRegs l s0 (modSess k f s) := sr_congr (modSess_regs _ _ _) h
theorem sr_setHostEntry {l : List Nat} {s0 s : State} (n : Nat) (e : HostEntry) (h : SameRegs l s0 s) : SameRegs l s0 (setHostEntry n e s) := sr_congr (setHostEntry_regs _ _ _) h
theorem sr_modLane {L : List Nat} {s0 s : State} (g l : Nat) (f : Lane → Lane) (h : SameRegs L s0 s) : SameRegs L s0 (modLane g l f s) := sr_congr (modLane_regs _ _ _ _) h
theorem sr_modMicro {l : List Nat} {s0 s : State} (c : Nat) (f : Micro → Micro) (h : SameRegs l s0 s) : SameRegs l s0 (modMicro c f s) := sr_congr (modMicro_regs _ _ _) h
theorem sr_modTst {l : List Nat} {s0 s : State} (g : Nat) (f : Timing → Timing) (h : SameRegs l s0 s) : SameRegs l s0 (modTst g f s) := sr_congr (modTst_regs _ _ _) h
theorem sr_modTdc {l : List Nat} {s0 s : State} (c : Nat) (f : TdcCh → TdcCh) (h : SameRegs l s0 s) : SameRegs l s0 (modTdc c f s) := sr_congr (modTdc_regs _ _ _) h
theorem sr_modMea {l : List Nat} {s0 s : State} (c : Nat) (f : MeaCh → MeaCh) (h : SameRegs l s0 s) : SameRegs l s0 (modMea c f s) := sr_congr (modMea_regs _ _ _) h
theorem sr_modSrc {l : List Nat} {s0 s : State} (c : Nat) (f : SrcCh → SrcCh) (h : SameRegs l s0 s) : SameRegs l s0 (modSrc c f s) := sr_congr (modSrc_regs _ _ _) h
theorem sr_modAcq {l : List Nat} {s0 s : State} (a : Nat) (f : AcqUnit → AcqUnit) (h : SameRegs l s0 s) : SameRegs l s0 (modAcq a f s) := sr_congr (modAcq_regs _ _ _) h
theorem sr_modDomain {l : List Nat} {s0 s : State} (d : Nat) (f : Domain → Domain) (h : SameRegs l s0 s) : SameRegs l s0 (modDomain d f s) := sr_congr (modDomain_regs _ _ _) h
theorem sr_modPeer {l : List Nat} {s0 s : State} (u : Nat) (f : Peer → Peer) (h : SameRegs l s0 s) : SameRegs l s0 (modPeer u f s) := sr_congr (modPeer_regs _ _ _) h
theorem sr_setTask {l : List Nat} {s0 s : State} (i : Nat) (t : Option Task) (h : SameRegs l s0 s) : SameRegs l s0 (setTask i t s) := sr_congr (setTask_regs _ _ _) h
theorem sr_modTask {l : List Nat} {s0 s : State} (i : Nat) (f : Task → Task) (h : SameRegs l s0 s) : SameRegs l s0 (modTask i f s) := sr_congr (modTask_regs _ _ _) h
theorem sr_modCore {l : List Nat} {s0 s : State} (k : Nat) (f : Core → Core) (h : SameRegs l s0 s) : SameRegs l s0 (modCore k f s) := sr_congr (modCore_regs _ _ _) h
theorem sr_setReady {L : List Nat} {s0 s : State} (l : Nat) (ts : List Nat) (h : SameRegs L s0 s) : SameRegs L s0 (setReady l ts s) := sr_congr (setReady_regs _ _ _) h
theorem sr_setDmaRun {l : List Nat} {s0 s : State} (c : Nat) (r : Option DmaRun) (h : SameRegs l s0 s) : SameRegs l s0 (setDmaRun c r s) := sr_congr (setDmaRun_regs _ _ _) h
theorem sr_useSpare {l : List Nat} {s0 s : State} (h : SameRegs l s0 s) : SameRegs l s0 (useSpare s) := sr_congr (useSpare_regs _) h

end Sys2Proof.Laws
end

