-- ==== Sys2Proof/WellFormed.lean ====
section
/-! DEFINITION. Which commands the block can be given: operands that the types of Syntax leave wider than the hardware's
fields. A command that is not well formed spells no message and no event of the hardware. -/

namespace Sys2Proof

/-- Whether a number fits in `n` bits. -/
def fits (n x : Nat) : Bool := decide (x < 2 ^ n)

/-- An ML-DSA-87 key and a signature (R646, R655). -/
def SecObs.wf (o : SecObs) : Bool := o.key.length == 648 && o.sig.length == 4627

/-- The header fields of R559. -/
def Hdr.wf (h : Hdr) : Bool := fits 64 h.seq && fits 64 h.ack && fits 16 h.window

/-- The fields of R575. -/
def StreamReq.wf (p : StreamReq) : Bool :=
  fits 8 p.kind && fits 16 p.credit && fits 32 p.rate && fits 64 p.base && fits 32 p.recSize && fits 32 p.size && fits 32 p.wrReg &&
  fits 32 p.rdReg

/-- Sixteen junction sensors and eight rails (R92, R93). -/
def SensorObs.wf (o : SensorObs) : Bool := o.tj.length == 16 && o.rails.length == 8

/-- Two paths of a channel, 1,024 vernier codes and 64 residuals each (R283). -/
def LinObs.wf (o : LinObs) : Bool :=
  o.delays.length == 2 && o.delays.all (fun d => d.length == 1024) && o.residuals.length == 2 && o.residuals.all (fun r => r.length == 64)

/-- 256 codes and 8 cycles (R405). -/
def CdObs.wf (o : CdObs) : Bool := o.codes.length == 256 && o.cycles.length == 8

/-- Addresses of a debugger (R561, R657). -/
def DapAccess.wf : DapAccess → Bool
  | .select => true
  | .readReg a => fits 32 a
  | .writeReg a _ _ => fits 32 a
  | .readMem a n => fits 48 a && fits 32 n
  | .writeMem a _ => fits 48 a
  | .readCore _ _ => true

/-- Whether a command is well formed. -/
def Instr.wf : Instr → Bool
  | .registerWrite _ addr _ _ => fits 32 addr
  | .resetRelease _ _ _ => true
  | .vinRise => true
  | .vinUvlo => true
  | .vinOvervoltage => true
  | .currentLimitHeld => true
  | .railOutOfRange => true
  | .imgVerify _ _ => true
  | .imgLoad _ _ => true
  | .loadAuto _ => true
  | .loadDrainMet _ _ => true
  | .loadDrainTimeout => true
  | .loadSwitchPoint _ _ => true
  | .loadRetrainTimeout => true
  | .beatWindowEnd _ _ => true
  | .beatLoss => true
  | .returnToBeat => true
  | .xoFailure => true
  | .slackWindowEnd obs => obs.length == 33
  | .beatCountRead _ => true
  | .pavanePeriodMiss _ => true
  | .telemetrySample obs => obs.wf
  | .trainingFrameRx _ _ _ _ _ steer => fits 6 steer
  | .rxReadySet _ _ _ _ _ => true
  | .laneDetectExit _ _ _ => true
  | .laneExchangeAccept _ _ _ _ => true
  | .laneStateTimeout _ _ => true
  | .squelchEnd _ _ => true
  | .laneSignalLost _ _ => true
  | .retrain _ _ _ _ => true
  | .eyeScanCmd _ _ _ _ => true
  | .eyeScanPeriodic _ _ => true
  | .eyeScanPointDone _ _ _ => true
  | .eyeRspTimeout _ _ => true
  | .phyXctrlWrite _ _ _ _ => true
  | .txffeManWrite _ _ _ _ => true
  | .bertCtrlWrite _ _ _ => true
  | .frameSend _ _ => true
  | .idleFrameTimer _ _ => true
  | .inwardCodeword _ _ _ _ _ _ _ _ => true
  | .fillerWordRx _ _ _ => true
  | .probePeriod _ => true
  | .cntAlignTimeout _ => true
  | .frameInject _ _ _ => true
  | .frXctrlWrite _ _ _ => true
  | .stepStart _ _ => true
  | .stepAbort _ => true
  | .stepListResident => true
  | .stepVectorZero => true
  | .stepEnd => true
  | .seqPlay _ => true
  | .seqPlayn _ => true
  | .seqLoop _ => true
  | .seqEndloop _ => true
  | .seqCall _ => true
  | .seqRet _ => true
  | .seqJump _ => true
  | .seqJumpc _ => true
  | .seqMatch _ => true
  | .seqWaitt _ => true
  | .seqWaittime _ => true
  | .seqTset _ => true
  | .seqSignal _ => true
  | .seqStage _ => true
  | .seqSitemask _ => true
  | .seqHold _ => true
  | .seqHalt _ => true
  | .jumpEffect _ => true
  | .matchLeave _ => true
  | .waittRelease _ => true
  | .waittTimeout _ => true
  | .waittimeEnd _ => true
  | .residencyHoldEnd _ => true
  | .microwordExecute _ _ => true
  | .microTrap _ => true
  | .contextFault _ _ => true
  | .contextTakeoverDone _ => true
  | .tstCommit _ _ => true
  | .tstRead _ _ => true
  | .writeRaw _ _ => true
  | .calLin _ _ _ => true
  | .calDeskew _ _ _ => true
  | .scheduledLinCal _ _ => true
  | .linCalComplete _ _ obs => obs.wf
  | .deskewComplete _ _ _ => true
  | .calAgeExpiry _ _ => true
  | .tsetWrite _ _ _ => true
  | .periodWrite _ _ _ => true
  | .modeWrite _ _ _ _ => true
  | .linDataWrite _ _ _ => true
  | .linDataRead _ _ => true
  | .cmpLogRdWrite _ _ => true
  | .cmpLogConfigWrite _ _ _ => true
  | .failInject _ _ => true
  | .measureOutput _ _ _ => true
  | .xchSetWrite _ _ _ _ => true
  | .coefDataWrite _ _ => true
  | .coefDataRead _ => true
  | .chainWrite _ _ _ _ => true
  | .targetWrite _ _ _ => true
  | .sourceVector _ _ _ => true
  | .playlistWaitRelease _ => true
  | .ncoFreqWrite _ _ => true
  | .tdcQRdWrite _ _ _ => true
  | .calCd _ _ _ => true
  | .scheduledCdCal _ _ => true
  | .cdCalComplete _ _ obs => obs.wf
  | .binDataWrite _ _ => true
  | .binDataRead _ => true
  | .binTableStale _ => true
  | .lineAct _ _ _ => true
  | .trgFire _ _ => true
  | .lineSrcWrite _ _ _ _ => true
  | .acqRRdWrite _ _ _ _ => true
  | .qtReceived _ _ _ => true
  | .qtAct _ => true
  | .todFrame _ _ => true
  | .qdHeartbeat _ _ => true
  | .peerAbsent _ => true
  | .faultBroadcastRx _ _ => true
  | .hintsRx _ _ => true
  | .listenEnd delays => delays.all (fun e => decide (e.1 < 32))
  | .leaderTimeout => true
  | .claimBackoffEnd => true
  | .qdCellMismatch _ => true
  | .rejoin _ => true
  | .hbmCorrectedError _ addr => fits 48 addr
  | .hbmUncorrectable _ addr _ => fits 48 addr
  | .pcFence _ _ => true
  | .spareCopyComplete _ => true
  | .hbmTempRefresh _ _ => true
  | .memObjBaseWrite _ _ _ => true
  | .memInject _ _ => true
  | .libCreate _ => true
  | .libWrite _ => true
  | .libRead _ => true
  | .libDelete _ => true
  | .libStage _ => true
  | .libEvict _ => true
  | .libInfo _ => true
  | .libCancel _ => true
  | .writeUnitCommit => true
  | .libCmdComplete _ => true
  | .stagingComplete => true
  | .stageFailed _ _ => true
  | .patrolPass _ => true
  | .blockRetire _ => true
  | .dieFailure _ _ _ => true
  | .fenceRel _ => true
  | .fenceAcq _ => true
  | .tnext _ _ => true
  | .tdone _ _ => true
  | .tsubmit _ _ _ => true
  | .tyield _ => true
  | .schSubGo _ => true
  | .templateRetry => true
  | .dispatchPlacement _ => true
  | .preemptLate _ => true
  | .flush _ _ => true
  | .schFlowRdWrite _ _ _ => true
  | .coreMismatch _ => true
  | .coreTakeoverDone _ => true
  | .dmaStart _ _ => true
  | .dmaStop _ _ => true
  | .dmaMove _ => true
  | .dmaLoop _ => true
  | .dmaWait _ => true
  | .dmaWaitPoll _ => true
  | .dmaWaitTimeout _ => true
  | .dmaSignal _ => true
  | .dmaEnd _ => true
  | .dmaNop _ => true
  | .dmaBurstGrant spent _ => spent.all (fun c => decide (c < 32))
  | .dmaWriteAnswer _ _ _ => true
  | .dmaReadError _ => true
  | .dmaCompletionRecord _ => true
  | .dmaCqRdWrite _ _ => true
  | .dmaEngineFault _ => true
  | .sessionInit hostPub _ => hostPub.length == 2592
  | .sessionConfirm h _ => h.wf
  | .handshakeTimeout _ => true
  | .close h => h.wf
  | .ack h => h.wf
  | .readReg h addr count => h.wf && fits 32 addr && fits 16 count
  | .writeReg h addr values _ => h.wf && fits 32 addr && decide (values.length ≤ 2226)
  | .readMem h addr len => h.wf && fits 48 addr && fits 32 len
  | .writeMem h addr data => h.wf && fits 48 addr && decide (data.length ≤ 8900)
  | .claim h => h.wf
  | .heartbeat h => h.wf
  | .handover h _ => h.wf
  | .accept h => h.wf
  | .release h => h.wf
  | .streamOpen h p => h.wf && p.wf
  | .streamCredit h stream credit => h.wf && fits 16 stream && fits 16 credit
  | .streamClose h stream => h.wf && fits 16 stream
  | .streamDataSend stream => fits 16 stream
  | .retransmitTimer _ seq => fits 64 seq
  | .sessionIdleTimeout _ => true
  | .leaseExpiry => true
  | .electionClose => true
  | .handoverLapse => true
  | .portRateTimeout _ => true
  | .portLinkLoss _ => true
  | .ethFrameRx _ _ => true
  | .portCfgWrite _ addr _ => fits 32 addr
  | .sysReset _ _ => true
  | .sysDetach _ => true
  | .install _ _ => true
  | .reboot _ _ => true
  | .hostTableWrite _ => true
  | .hostTableClear _ => true
  | .hostTableRead _ => true
  | .incCommit _ _ _ => true
  | .ptpStep _ _ => true
  | .ptpSet _ _ => true
  | .ptpInvalidate _ _ => true
  | .ptpCtrlWrite _ _ => true
  | .slewEnd => true
  | .ptpModeChange => true
  | .ptpRx _ _ _ _ => true
  | .ptpLqWrWrite _ _ _ => true
  | .launchSend _ => true
  | .ptpSnapCmd _ => true
  | .ptpTimeRead _ _ => true
  | .faultReport _ unitClass unit cause _ _ => fits 16 unitClass && fits 16 unit && fits 16 cause
  | .wireFault unitClass unit => fits 16 unitClass && fits 16 unit
  | .faultHandle => true
  | .collectorSelfCheck _ _ => true
  | .faultInject _ _ => true
  | .alertClear _ _ => true
  | .ledgerImbalance _ _ _ _ _ => true
  | .ledgerDeadline _ => true
  | .ledgerReadLatch _ _ => true
  | .standby _ => true
  | .wake _ => true
  | .pwrDetach _ => true
  | .detachNLow => true
  | .detachPhaseAdvance => true
  | .detachTimeout => true
  | .detachNHighRestart _ => true
  | .galopOverrun => true
  | .provision _ => true
  | .sealDevice _ => true
  | .retire _ => true
  | .enroll _ => true
  | .revoke _ => true
  | .raiseSvn _ => true
  | .attest _ => true
  | .secCmdResult obs => obs.wf
  | .dbgReq _ _ _ => true
  | .dbgEnd _ _ => true
  | .debugLifetimeExpiry => true
  | .coreHalt _ _ => true
  | .contextDebugHalt _ => true
  | .jtagBypass => true
  | .jtagIdcode => true
  | .samplePreload => true
  | .extest => true
  | .jtagDap a => a.wf
  | .jtagToken bytes => decide (bytes.length ≤ 7328)
  | .tapReset => true
  | .resetNLow => true
  | .portLinkUp _ => true
  | .quadrilleCycle => true
  | .beatEdgeLineSample _ => true
  | .verifyEnd _ => true
  | .loadCheckFailure => true
  | .stepAtPassed => true
  | .knownAnswerTestEnd unitClass unit _ => fits 16 unitClass && fits 16 unit
  | .dieRebuildComplete _ _ => true
  | .wearBudgetHour => true
  | .installDone _ => true

end Sys2Proof
end

