-- ==== Sys2Proof/Tests/Slice0.lean ====
section
/-! SUPPORT. Tests: the well-formedness checks refuse ill-formed terms; and for every statement with hypotheses, a witness that small
concrete states and operands meet the hypotheses of each of its clauses. -/

set_option Elab.async false

namespace Sys2Proof.Tests

open Sys2Proof Sys2Proof.Machine Sys2Proof.Laws

/-! ### Small states -/

/-- A state with the registers listed set. -/
def regs (l : List (Nat × Word)) (s : State) : State := l.foldl (fun s e => setReg e.1 e.2 s) s

/-- The device after reset with session 0 open, whose host is the owner, and port 0 linked. -/
def s0 : State :=
  { State.reset with
    net := { State.reset.net with owner := some 0, sess := [(0, { phase := .opened, id := 8, prio := 3 })], port0 := { linked := 3 } } }

/-- A request of the owner. -/
def q0 : Req := ⟨0, true, 0⟩

/-- Whether an answer is a next state that has the property. -/
def okAnd (o : Host.Outcome State Fault Refusal) (p : State → Bool) : Bool := match o with | .next t => p t | _ => false

/-- No session of `s0` holds a request back, nor of a state with its sessions. -/
theorem quiet_of_sess (s : State) (h : s.net.sess.all (fun e => e.2.held.isEmpty) = true) : Quiet s := by
  intro k
  have key : ∀ l : Tbl Session, l.all (fun e => e.2.held.isEmpty) = true → (tget (fun _ => ({} : Session)) l k).held = [] := by
    intro l
    induction l with
    | nil => intro _; rfl
    | cons e r ih =>
      intro hl
      simp only [List.all_cons, Bool.and_eq_true, List.isEmpty_iff] at hl
      by_cases hk : e.1 = k
      · simp [tget, tfind, hk, hl.1]
      · have := ih hl.2
        simpa [tget, tfind, hk] using this
  exact key _ h

/-- The state with expert mode on for every block. -/
def expert (s : State) : State := regs [(Reg.SYS_EXPERT_EN, 0xFFFFFFFF)] s

/-! ### Well-formedness: each check refuses a term that breaks it alone, and takes a term at the bound -/

/-- A report of the signature unit. -/
def cw0 : CryptoObs := ⟨true⟩

/-- A start-up report. -/
def bw0 : BootObs := ⟨cw0, cw0, cw0, cw0, cw0, true⟩

/-- Reports beside a register write. -/
def ww0 : WriteObs := ⟨bw0, ⟨true⟩⟩

/-- A header at the top of its fields. -/
def hw0 : Hdr := ⟨0, true, 2 ^ 64 - 1, 2 ^ 64 - 1, 0, 65535, 0⟩

/-- A stream request at the top of its fields. -/
def pw0 : StreamReq := ⟨255, 65535, 2 ^ 32 - 1, 2 ^ 64 - 1, 2 ^ 32 - 1, 2 ^ 32 - 1, 2 ^ 32 - 1, 2 ^ 32 - 1⟩

/-- A sensor report of the right lengths. -/
def ow0 : SensorObs := ⟨List.replicate 16 0, 0, 0, 0, 0, 0, 0, 0, 0, List.replicate 8 0⟩

theorem wf_takes_bounds :
    Instr.wf (.registerWrite q0 (2 ^ 32 - 1) 0 ww0) = true ∧ Instr.wf (.sessionInit (List.replicate 2592 0) 0) = true ∧
    Instr.wf (.streamOpen hw0 pw0) = true ∧ Instr.wf (.telemetrySample ow0) = true ∧
    Instr.wf (.slackWindowEnd (List.replicate 33 ⟨1, 0⟩)) = true ∧ Instr.wf (.trainingFrameRx 0 .a 0 0 0 63) = true ∧ Instr.wf (.readMem hw0 (2 ^ 48 - 1) (2 ^ 32 - 1)) = true := by
  decide +kernel

theorem wf_refuses_security :
    SecObs.wf ⟨true, [], List.replicate 4627 0⟩ = false ∧ SecObs.wf ⟨true, List.replicate 648 0, []⟩ = false ∧
    SecObs.wf ⟨true, List.replicate 648 0, List.replicate 4627 0⟩ = true ∧ Instr.wf (.secCmdResult ⟨true, [], []⟩) = false := by
  decide +kernel

theorem wf_refuses_headers :
    Hdr.wf { hw0 with seq := 2 ^ 64 } = false ∧ Hdr.wf { hw0 with ack := 2 ^ 64 } = false ∧ Hdr.wf { hw0 with window := 65536 } = false ∧
    StreamReq.wf { pw0 with kind := 256 } = false ∧ StreamReq.wf { pw0 with credit := 65536 } = false ∧
    StreamReq.wf { pw0 with rate := 2 ^ 32 } = false ∧ StreamReq.wf { pw0 with base := 2 ^ 64 } = false ∧
    StreamReq.wf { pw0 with recSize := 2 ^ 32 } = false ∧ StreamReq.wf { pw0 with size := 2 ^ 32 } = false ∧
    StreamReq.wf { pw0 with wrReg := 2 ^ 32 } = false ∧ StreamReq.wf { pw0 with rdReg := 2 ^ 32 } = false := by
  decide +kernel

theorem wf_refuses_measured :
    SensorObs.wf { ow0 with tj := [] } = false ∧ SensorObs.wf { ow0 with rails := List.replicate 9 0 } = false ∧
    LinObs.wf ⟨[], [], 0, 0, 0, false⟩ = false ∧ LinObs.wf ⟨[[], []], [[], []], 0, 0, 0, false⟩ = false ∧
    CdObs.wf ⟨[], List.replicate 8 0, 0, 0, 0, true, false⟩ = false ∧
    CdObs.wf ⟨List.replicate 256 0, List.replicate 7 0, 0, 0, 0, true, false⟩ = false := by
  decide +kernel

theorem wf_refuses_debug :
    DapAccess.wf (.readReg (2 ^ 32)) = false ∧ DapAccess.wf (.writeReg (2 ^ 32) 0 ww0) = false ∧
    DapAccess.wf (.readMem (2 ^ 48) 0) = false ∧
    DapAccess.wf (.readMem 0 (2 ^ 32)) = false ∧ DapAccess.wf (.writeMem (2 ^ 48) []) = false ∧
    Instr.wf (.jtagDap (.readReg (2 ^ 32))) = false ∧ Instr.wf (.jtagToken (List.replicate 7329 0)) = false := by
  decide +kernel

theorem wf_refuses_events :
    Instr.wf (.registerWrite q0 (2 ^ 32) 0 ww0) = false ∧ Instr.wf (.sessionInit [] 0) = false ∧
    Instr.wf (.slackWindowEnd (List.replicate 32 ⟨1, 0⟩)) = false ∧ Instr.wf (.trainingFrameRx 0 .a 0 0 0 64) = false ∧
    Instr.wf (.listenEnd [(32, 0)]) = false ∧ Instr.wf (.hbmCorrectedError 0 (2 ^ 48)) = false ∧
    Instr.wf (.dmaBurstGrant [32] .agree) = false ∧
    Instr.wf (.faultReport 1 65536 0 0 0 0) = false ∧ Instr.wf (.wireFault 0 65536) = false := by
  decide +kernel

theorem wf_refuses_messages :
    Instr.wf (.readReg hw0 (2 ^ 32) 1) = false ∧ Instr.wf (.readReg hw0 0 65536) = false ∧
    Instr.wf (.writeReg hw0 0 (List.replicate 2227 0) ww0) = false ∧ Instr.wf (.readMem hw0 (2 ^ 48) 0) = false ∧
    Instr.wf (.writeMem hw0 0 (List.replicate 8901 0)) = false ∧ Instr.wf (.streamCredit hw0 65536 0) = false ∧
    Instr.wf (.streamCredit hw0 0 65536) = false ∧ Instr.wf (.streamClose hw0 65536) = false ∧
    Instr.wf (.streamDataSend 65536) = false ∧ Instr.wf (.retransmitTimer 0 (2 ^ 64)) = false ∧
    Instr.wf (.portCfgWrite q0 (2 ^ 32) 0) = false ∧ Instr.wf (.close { hw0 with window := 65536 }) = false := by
  decide +kernel

/-- The table gives no row any bits: no word spells a command. -/
theorem test_no_word_spells_a_command : decodeTableWord 0 0 = none ∧ decodeTableWord 32 5 = none := by decide

/-! ### Every command -/

theorem wit_IdleStepIsOneReferencePeriod :
    s0.pending = [] ∧ s0.pwr.state ≠ .off ∧ ({ s0 with pwr := { s0.pwr with state := .off } } : State).pwr.state = .off := by decide

/-- A state in which a SIGNAL is due, and one in which the period after a lane's loss ends. -/
def sDue (k : Nat) : State := { s0 with seq := { s0.seq with due := [(1, .signal k 5 7)] } }
def sLostLane : State := modLink 15 (fun k => { k with lossNote := some (1, 1) }) s0

theorem wit_IdleStepIsOneReferencePeriod_due :
    (s0.seq.due = [] ∧ (linkOf s0 15).lossNote = none ∧ (linkOf sLostLane 15).lossNote = some (1, 1) ∧ 1 ≤ sLostLane.time + 1) ∧
    ((sDue 2).seq.due = [(1, .signal 2 5 7)] ∧ (sDue 3).seq.due = [(1, .signal 3 5 7)] ∧ 1 ≤ (sDue 2).beat + 1) ∧
    flagPending (regs [(Reg.SCH_FLAG_PEND_LO, 32)] (sDue 3)) 5 = true := by decide +kernel

theorem wit_IdleStepIsOneReferencePeriod_quiet : Quiet s0 ∧ Quiet sLostLane ∧ Quiet (sDue 2) ∧ Quiet (sDue 3) :=
  ⟨quiet_of_sess _ (by decide), quiet_of_sess _ (by decide), quiet_of_sess _ (by decide), quiet_of_sess _ (by decide)⟩

theorem wit_ResetLeavesTheTabledValues :
    (rowOf (Reg.LNK_FR_STATUS 15)).isSome = true ∧ (resetRegs.all (fun e => e.1 != Reg.LNK_FR_STATUS 15)) = true := by decide +kernel

/-- A state that is not the one after reset meets the invariant, and its step answers a next state. -/
theorem wit_EveryStepKeepsTheInvariant :
    (Registers.wf (regs [(Reg.TEL_CTRL, 5)] s0) = true ∧ Memory.wf (setMemWords 0x1000 [7] s0).mem = true ∧ Security.wf s0.sec = true) ∧
    okAnd (step { s0 with pending := [.vinRise] }) (fun t => t.pending == []) = true := by decide +kernel

theorem wit_SecurityStateNeverGoesBack :
    okAnd (step { s0 with pending := [.vinRise] }) (fun _ => true) = true ∧ Security.wf s0.sec = true := by decide +kernel

theorem wit_CommandsChangeOnlyTheirParts : okAnd (exec (.imgLoad q0 1) s0) (fun _ => true) = true := by decide +kernel

/-- A step of context 0 with expert mode off, where TDC_CH_Q_LO is locked. -/
def sStepping : State := { s0 with seq := { s0.seq with step := some { ctxs := [0], groups := [0], at_ := none, startBeat := 0 } } }

/-- The same owner's request under an epoch that has passed. -/
def qOld : Req := ⟨0, true, 7⟩

theorem wit_RegisterWritesAreRefusedInOrder :
    ¬(({ q0 with slot := 1 } : Req).authOk = true ∧ sessOpen s0 1 = true) ∧ (q0.authOk = true ∧ sessOpen s0 0 = true) ∧
    (Reg.TEL_CTRL % 4 = 0 ∧ dapOnly Reg.TEL_CTRL = false ∧ mappedWrite s0 Reg.TEL_CTRL = true ∧ mappedWrite s0 0xFFF0000 = false ∧
      dapOnly Reg.DBG_REQ = true) ∧
    (isOwner s0 0 = true ∧ isOwner { s0 with net := { s0.net with owner := none } } 0 = false) ∧
    (qOld.epoch ≠ 0 ∧ qOld.epoch ≠ epochNow s0) ∧
    (inExpertHalf (Reg.LNK_PHY_XCTRL_A 0) = true ∧ expertOn s0 (Reg.LNK_PHY_XCTRL_A 0) = false ∧ expertOn (expert s0) (Reg.LNK_PHY_XCTRL_A 0) = true ∧
      inExpertHalf Reg.TEL_CTRL = false) ∧
    ((rowOf (Reg.TDC_CH_Q_LO 0)).any (fun r => targetsLocked r 4096) = true ∧ blockRuns sStepping (Reg.TDC_CH_Q_LO 0) = true) := by
  repeat' apply And.intro
  all_goals decide +kernel

theorem wit_CommandWritesRefusedChangeNothing :
    (Instr.imgLoad qOld 1).asWrite = some (qOld, Reg.IMG_CMD, imgWord 2 1) ∧ refusalOf qOld Reg.IMG_CMD (imgWord 2 1) s0 = some 0x09 := by
  decide +kernel

theorem wit_AcceptedWritesActByChangeClass :
    (refusalOf q0 Reg.TBF_EVENTS 1 s0 = none ∧ hasOwnEffect Reg.TBF_EVENTS = false ∧ (rowOf Reg.TBF_EVENTS).any (fun r => r.maskC != 0) = true ∧
      outOfRange Reg.TBF_EVENTS 1 = false) ∧
    (refusalOf q0 (Reg.SRC_CH_AMP 3) 5 s0 = none ∧ hasOwnEffect (Reg.SRC_CH_AMP 3) = false ∧
      (rowOf (Reg.SRC_CH_AMP 3)).any (fun r => r.maskF != 0) = true) ∧
    (refusalOf q0 Reg.TBF_PAV_SCRUB_PERIOD 60 (expert s0) = none ∧ hasOwnEffect Reg.TBF_PAV_SCRUB_PERIOD = false ∧
      (rowOf Reg.TBF_PAV_SCRUB_PERIOD).any (fun r => r.maskS != 0) = true ∧ outOfRange Reg.TBF_PAV_SCRUB_PERIOD 60 = false ∧
      outOfRange Reg.TBF_PAV_SCRUB_PERIOD 59 = true ∧ atOnce (expert s0) Reg.TBF_PAV_SCRUB_PERIOD = true ∧
      atOnce (expert sStepping) Reg.TBF_PAV_SCRUB_PERIOD = false ∧ refusalOf q0 Reg.TBF_PAV_SCRUB_PERIOD 60 (expert sStepping) = none) ∧
    (refusalOf q0 (Reg.TDC_CH_Q_LO 0) 4096 s0 = none ∧ hasOwnEffect (Reg.TDC_CH_Q_LO 0) = false ∧ outOfRange (Reg.TDC_CH_Q_LO 0) 4096 = false) := by
  repeat' apply And.intro
  all_goals decide +kernel

theorem wit_RegisterReadsAnswerTheValueInEffect :
    (Instr.beatCountRead q0).asRead = some (q0, Reg.TBF_BEAT_COUNT_LO) ∧
    (q0.authOk = true ∧ sessOpen s0 0 = true ∧ mappedRead s0 Reg.TBF_BEAT_COUNT_LO = true ∧ q0.epoch = 0) ∧
    ¬(qOld.epoch = 0 ∨ qOld.epoch = epochNow s0) := by decide +kernel

/-! ### Chapter 1 -/

/-- An image whose group 0 is enabled. -/
def img1 : Image := { groups := [(0, { enabled := true, periodN := 1000 })] }

/-- A report of the cryptographic units that accepts. -/
def crypto0 : CryptoObs := ⟨true⟩

/-- The device with a load that stands open in the phase given. -/
def sLoad (p : LoadPhase) : State :=
  { s0 with
    img := { s0.img with load := p, active := img1, sysEpoch := 0xFFFFFFFF },
    net := { s0.net with openCmds := [{ kind := .load, slot := 0 }] } }

def sDrain : State := sLoad (.draining false 1)
def sAuto : State := sLoad (.draining true 0)
def sFailed : State := sLoad (.failed false 1 0x42)
def sPassed : State := sLoad (.passed false 1 img1 {})
def sRetrain : State := sLoad (.retraining false)
def sVerify : State := { s0 with img := { s0.img with verify := some 1 } }
def sRun : State := { s0 with pwr := { s0.pwr with state := .run } }
def sRetired : State := { s0 with sec := { s0.sec with state := .retired } }

/-- A halted device in RUN, whose step has ended. -/
def sHalted : State := { sRun with flt := { s0.flt with halted := true } }

/-- A load drains while a DMA channel runs. -/
def sUndrained : State := regs [(Reg.DMA_TOK_ACTIVE, 1), (Reg.DMA_TOK_ISSUED, 1)] sDrain

theorem wit_LoadsAndVerifiesRun :
    (refusalOf q0 Reg.IMG_CMD (imgWord 3 0) s0 = none ∧ refusalOf q0 Reg.IMG_CMD (imgWord 2 1) s0 = none ∧
      refusalOf q0 Reg.IMG_CMD (imgWord 1 1) s0 = none ∧ s0.img.load = .idle ∧ s0.img.verify.isSome = false ∧ s0.pwr.state = .hold ∧
      s0.sec.state ≠ .retired) ∧
    (refusalOf q0 Reg.IMG_CMD (imgWord 2 1) sRetrain = none ∧ sRetrain.img.load ≠ .idle) ∧
    (refusalOf q0 Reg.IMG_CMD (imgWord 2 1) sRun = none ∧ sRun.img.load = .idle ∧ sRun.pwr.state ≠ .hold ∧ sRun.flt.halted = false) ∧
    (refusalOf q0 Reg.IMG_CMD (imgWord 2 1) sHalted = none ∧ sHalted.img.load = .idle ∧ sHalted.flt.halted = true ∧ stepRuns sHalted = false) ∧
    (refusalOf q0 Reg.IMG_CMD (imgWord 2 1) sRetired = none ∧ sRetired.sec.state = .retired) ∧
    (sVerify.img.verify = some 1 ∧ (checkSlot sVerify 1 crypto0 true).check ≠ 0) ∧ sDrain.img.verify = none ∧
    (sDrain.img.load = .draining false 1 ∧ drainMet sDrain = true ∧ (checkSlot sDrain 1 crypto0 true).check ≠ 0 ∧
      sDrain.net.openCmds.find? (fun o => o.kind == .load) = some { kind := .load, slot := 0 }) ∧
    (sUndrained.img.load = .draining false 1 ∧ drainMet sUndrained = false) ∧
    (sAuto.img.load = .draining true 0 ∧ drainMet sAuto = true ∧ selectOrder sAuto crypto0 crypto0 = []) ∧
    sFailed.img.load = .failed false 1 0x42 ∧ sPassed.img.load = .passed false 1 img1 {} ∧
    (sRetrain.img.load = .retraining false ∧ groupEnabled sRetrain 0 = true ∧ groupActive sRetrain 0 = false) := by decide

theorem wit_LoadsAndVerifiesRun_quiet : Quiet sPassed := quiet_of_sess _ (by decide)

/-- A load is turned away in RUN (R54), and begins in HOLD. -/
theorem test_imgLoad : okAnd (exec (.imgLoad q0 1) sRun) (fun t => t.ans.status == 0x41) = true ∧
    okAnd (exec (.imgLoad q0 1) s0) (fun t => t.img.load == .draining false 1) = true := by decide

/-! ### Chapter 2 -/

def sBeat (b : Word) (x : TimeBase) : State := regs [(Reg.TBF_STATUS, b)] { s0 with tb := x }

theorem wit_BeatIsQualifiedLostAndReturns :
    (s0.pwr.detachN = true ∧ ((150000 : Int).natAbs ≤ 150000) ∧ (150000 < (-150001 : Int).natAbs)) ∧
    ((sBeat 2 {}).tb.xoFailed = false ∧ (500000 : Int).natAbs ≤ 500000 ∧ 500000 < (-500001 : Int).natAbs ∧
      rdBit (sBeat 4 {}) Reg.TBF_STATUS 1 = false ∧ rdBit (sBeat 4 {}) Reg.TBF_STATUS 2 = true) ∧
    (15 ≤ (sBeat 0 { goodWindows := 15 }).tb.goodWindows ∧ (sBeat 0 { goodWindows := 14 }).tb.goodWindows < 15) ∧
    (rdBit (sBeat 2 {}) Reg.TBF_STATUS 1 = true ∧ rdBit (sBeat 2 {}) Reg.TBF_STATUS 0 = false ∧ rdBit (sBeat 3 {}) Reg.TBF_STATUS 0 = true) ∧
    ((sBeat 3 {}).pwr.state = .hold ∧ rdFld (regs [(Reg.TBF_CTRL, 0)] (sBeat 3 {})) Reg.TBF_CTRL 1 0 = 0 ∧
      rdFld (regs [(Reg.TBF_CTRL, 1)] (sBeat 3 { returnAllowed := true })) Reg.TBF_CTRL 1 0 = 1 ∧
      (sBeat 3 { returnAllowed := true }).tb.returnAllowed = true) ∧
    (sRun.pwr.state = .run ∧ rdBit s0 Reg.TBF_STATUS 1 = false) := by
  repeat' apply And.intro
  all_goals decide +kernel

/-- Sensors of which number 15 reads far above the others, and all at `x`. -/
def hotOne : SensorObs := { ow0 with tj := List.replicate 15 800 ++ [1600] }
def allAt (x : Int) : SensorObs := { ow0 with tj := List.replicate 16 x }

theorem wit_MonitorsAndTelemetryReport :
    (([⟨10, 10⟩, ⟨10, 15⟩] : List SlackObs)[1]? = some ⟨10, 15⟩ ∧ slackOf ⟨10, 10⟩ ≤ 0 ∨ 0 < slackOf ⟨10, 15⟩) ∧
    (31 ∉ s0.tb.slackNoted ∧ (slackOf ⟨10, 10⟩ < (rdN s0 Reg.TBF_SLACK_WARN : Int))) ∧
    (q0.authOk = true ∧ sessOpen s0 0 = true ∧ mappedRead s0 Reg.TBF_BEAT_COUNT_LO = true ∧ q0.epoch = 0) ∧
    (excludedSensors hotOne.tj = [15] ∧ rdBit s0 Reg.TEL_SENSOR_EXCL 15 = false) ∧
    ((hottest (allAt 2000).tj (List.range 16)).map (·.1) = some 2000 ∧ (excludedSensors (allAt 2000).tj).isEmpty = true) ∧
    (tjMax (regs [(Reg.TEL_SNAP 7, 0)] s0) < 2000 ∧ 2160 < sext 16 (twos 16 2161)) := by
  repeat' apply And.intro
  all_goals decide +kernel

/-! ### Chapter 3 -/

/-- The device with group 0 enabled by a loaded image and its lanes A and B at the status words given. -/
def sLk (a b : Word) : State :=
  regs [(Reg.LNK_PHY_STATUS_A 0, a), (Reg.LNK_PHY_STATUS_B 0, b), (Reg.TST_PERIOD 0, 1000)]
    { s0 with img := { s0.img with active := img1, loaded := true, sysEpoch := 1 } }

/-- Lane A with what stands beside its registers. -/
def sLane (x : Lane) (a b : Word) : State := { sLk a b with lanes := [(0, x)] }

/-- A capability record of the partner of lane A of group 0. -/
def record0 : List Byte :=
  let body := leBytes 2 0x01C1 ++ leBytes 2 0 ++ leBytes 2 0x0100 ++ leBytes 2 0x7F ++ leBytes 4 256 ++ leBytes 1 34 ++ leBytes 1 4 ++
    leBytes 2 0 ++ leBytes 4 8 ++ leBytes 4 0 ++ leBytes 4 0
  body ++ leBytes 4 (crc32 body)

/-- The same of a partner whose class is 1. -/
def record1 : List Byte :=
  let body := leBytes 2 0x01C1 ++ leBytes 2 1 ++ leBytes 2 0x0100 ++ leBytes 2 0x7F ++ leBytes 4 256 ++ leBytes 1 34 ++ leBytes 1 4 ++
    leBytes 2 0 ++ leBytes 4 8 ++ leBytes 4 0 ++ leBytes 4 0
  body ++ leBytes 4 (crc32 body)

/-- Lane A of group 0 in TRAIN, in a near loopback. -/
def sNear : State := regs [(xctrlOf 0 0, 0x100)] (sLk 1 0)

/-- A step in progress on group 0. -/
def inStep0 (s : State) : State := { s with pwr := { s.pwr with state := .run }, seq := { s.seq with step := some { ctxs := [0], groups := [0], steptime := some 100, at_ := none, startBeat := 0 } } }

/-- Lane A, with a record of its partner received `n` times. -/
def sEx (r : List Byte) (n : Nat) (b : Word) : State := sLane { capRec := r, capRun := n } 3 b

def sTrainEnd : State := sLane { ready := true, partnerReady := 3, further := 15 } 1 0
def sTwice : State := sLk 0x02000001 0
def sScan : State := sLane { eyeIn := some { samples := 24 } } 4 4
def sScanOut : State := sLane { eyeOut := some { samples := 24, sent := true } } 4 4
def sScanEnd : State := sLane { eyeIn := some { samples := 24, eye := 2, height := true, down := true, off := 64, count := 1, widths := [1, 1], heights := [1, 1] } } 4 4

theorem wit_LaneTrainsOrFallsBack :
    (laneState (sLk 0 0) 0 0 = 0 ∧ laneMayTrain (sLk 0 0) 0 0 = true) ∧
    (laneState (sLk 1 0) 0 0 = 1 ∧ (laneOf (sLk 1 0) 0 0).ready = false ∧ tapsOk (tapsOf (rd (sLk 1 0) (txffeOf 0 0))) = true) ∧
    (nearLoop (sLk 1 0) 0 0 = false ∧ (BitVec.ofNat 16 (trainingCheck 0 0 + 1)).toNat ≠ trainingCheck 0 0 ∧
      (BitVec.ofNat 16 (trainingCheck 0 0)).toNat = trainingCheck 0 0 ∧ laneState sNear 0 0 = 1 ∧ nearLoop sNear 0 0 = true) ∧
    (laneState sTrainEnd 0 0 = 1 ∧ 3 ≤ (laneOf sTrainEnd 0 0).partnerReady ∧ (laneOf sTrainEnd 0 0).ready = true ∧
      15 ≤ (laneOf sTrainEnd 0 0).further) ∧
    (laneState (sLk 2 0) 0 0 = 2 ∧ loopbackOf (sLk 2 0) 0 0 = 0 ∧ rdFld (sLk 2 0) (laneStatus 0 0) 31 24 < 255) ∧
    laneState (sLk 3 0) 0 0 = 3 ∧ laneState (sLk 4 0) 0 0 = 4 ∧
    (laneState sTwice 0 0 = 1 ∧ rdFld sTwice (laneStatus 0 0) 31 24 = 2 ∧ (0 : Fin 16).val ∉ sTwice.img.lateGroups) ∧
    rdBit (sLk 0x40 0) (laneStatus 0 0) 6 = true ∧ rdBit (sLk 0 0) (laneStatus 0 0) 6 = false := by decide +kernel

theorem wit_LaneIsActiveOrLost :
    (laneState (sEx record0 4 0) 0 0 = 3 ∧ 4 ≤ (laneOf (sEx record0 4 0) 0 0).capRun ∧ (laneOf (sEx record0 4 0) 0 0).capRec = record0 ∧
      recordIntact record0 = true ∧ exchangeReason (sEx record0 4 0) 0 0 record0 0 = none) ∧
    (laneState (sEx record0 4 3) 0 0 = 3 ∧ exchangeReason (sEx record0 4 3) 0 0 record0 (20000 - 0) = none ∧ 3 ≤ laneState (sEx record0 4 3) 0 1) ∧
    (recordIntact record1 = true ∧ exchangeReason (sEx record1 4 0) 0 0 record1 0 = some 4) ∧
    exchangeReason (sEx record0 4 3) 0 0 record0 (20001 - 0) = some 7 ∧
    laneState (sLk 0 0) 0 0 = 0 ∧ laneState (sLk 1 0) 0 0 = 1 ∧
    (laneState (sLk 4 4) 0 0 = 4 ∧ laneActive (sLk 4 4) 0 1 = true) ∧
    (laneState (sLk 4 0) 0 0 = 4 ∧ laneActive (sLk 4 0) 0 1 = false ∧ (sLk 4 0).pwr.state = .hold) ∧
    (laneState (inStep0 (sLk 4 0)) 0 0 = 4 ∧ laneActive (inStep0 (sLk 4 0)) 0 1 = false ∧ (inStep0 (sLk 4 0)).pwr.state = .run ∧
      stageLate (inStep0 (sLk 4 0)) = false) ∧
    (laneState (inStep0 (sLk 4 4)) 0 0 = 4 ∧ laneActive (inStep0 (sLk 4 4)) 0 1 = true ∧ (inStep0 (sLk 4 4)).pwr.state = .run) ∧
    4 ≤ (recentDepartures (sLane { departures := [0, 0, 0] } 4 4) 0 0).length + 1 := by decide +kernel

theorem wit_LaneIsActiveOrLost_quiet : Quiet (sLk 3 0) ∧ Quiet (sLk 4 0) := ⟨quiet_of_sess _ (by decide), quiet_of_sess _ (by decide)⟩

theorem wit_LaneCommandsAct :
    (refusalOf q0 (Reg.LNK_PHY_CMD 0) (phyWord 0 true false) (inStep0 (sLk 4 0)) = none ∧
      lanesBusy (inStep0 (sLk 4 0)) 0 true false = true) ∧
    (refusalOf q0 (Reg.LNK_PHY_CMD 0) (phyWord 0 true true) (sLk 4 0) = none ∧ lanesBusy (sLk 4 0) 0 true true = false) ∧
    (refusalOf q0 (xctrlOf 0 0) 0x100 (expert (sLk 4 0)) = none ∧ xctrlOk 0x100 = true ∧
      xctrlOk 0x700 = false) ∧
    (refusalOf q0 (txffeManOf 0 0) 0x4000 (expert (sLk 4 0)) = none ∧ tapsOk (tapsOf 0x4000) = true ∧
      tapsOk (tapsOf 0) = false) ∧
    (refusalOf q0 (Reg.LNK_BERT_CTRL 0) 3 (expert (sLk 4 0)) = none ∧
      refusalOf q0 (Reg.LNK_BERT_CTRL 0) 8 (expert (sLk 4 0)) = none) := by decide +kernel

theorem wit_LaneCommandsAct_quiet : Quiet (sLk 4 0) := quiet_of_sess _ (by decide)

theorem wit_EyeScansRunAndReport :
    (refusalOf q0 (Reg.LNK_PHY_CMD 0) (phyWord 2 true true) (sLk 4 4) = none ∧ laneState (sLk 4 4) 0 0 = 4 ∧
      (laneOf (sLk 4 4) 0 0).eyeIn.isNone = true ∧ (laneOf (sLk 4 4) 0 0).eyeOut.isNone = true) ∧
    (laneActive (sLk 4 4) 0 0 = true ∧ laneActive (sLk 4 4) 0 1 = true) ∧ laneActive (sLk 4 0) 0 1 = false ∧
    (scanRuns sScan 0 0 = true ∧ (laneOf sScan 0 0).eyeIn = some { samples := 24 } ∧ (eyePoint true { samples := 24 }).2 = false) ∧
    (scanRuns sScanEnd 0 0 = true ∧ ((laneOf sScanEnd 0 0).eyeIn.map (fun e => (eyePoint false e).2)) = some true) ∧
    (laneOf (sLk 4 4) 0 0).eyeIn = none ∧
    ((laneOf sScanOut 0 0).eyeOut = some { samples := 24, sent := true } ∧ (laneOf (sLk 4 4) 0 0).eyeOut = none) := by decide +kernel

/-! ### Chapter 4 -/

/-- Group 0 with its link and with lanes A and B at the status words given. -/
def sFr (x : Link) (a b : Word) : State := { sLk a b with links := [(0, x)] }

/-- A step of one frame whose end is known. -/
def dataStep (s : State) : State :=
  { s with
    pwr := { s.pwr with state := .run }
    seq := { s.seq with step := some { ctxs := [], groups := [0], steptime := some 100, at_ := none, startBeat := 0, endTicks := some 64000 } } }

/-- An IDLE frame with nothing in its control slot, under an FSEQ. -/
def idle (n : Nat) : Frame := ⟨n, 0, 0, 0, false, false, List.replicate 64 0, [0, 0, 0, 0]⟩

/-- A frame with a given type and control slot. -/
def frameLike (n typ : Nat) (e : List Nat) : Frame := { idle n with typ := typ, entries := e }

/-- The codewords of four frames, each the data with its parity (R136): IDLE frames 5 and 4, one of type 3, and the CAP frame of `record0`. -/
def cwIdle5 : Nat := frameData (idle 5) * 2 ^ 480 + 1014208578182797395291399063887755478153214877049589220858477005761725408786667561471458205259866696542119896636934656842077592743995546756852963
def cwIdle4 : Nat := frameData (idle 4) * 2 ^ 480 + 2315254060990260735100165571120829991878579416589885780388810209585426413344708077320298269127643644500778814692410852829154080649688708724988289
def cwOther : Nat := frameData (frameLike 5 3 [0, 0, 0, 0]) * 2 ^ 480 + 203590989607529799883792447486009686964251923150736399891737580126370370529927501902230704713911383721486867884070890978620470404094860403715418
def cwCap : Nat := frameData (frameLike 5 2 (recordEntries record0)) * 2 ^ 480 + 1634959767189064653243345035428410177411711248388722650909243418959359958078907224347316706215933719966307368606883345573787905952867285814447831

/-- What stands at the pins of a lane without precoding for a marker and a codeword. -/
def atPins (w : Nat) : Nat := (transmit false false 0 2456 (frameMarker * 2 ^ 4880 + w)).1

/-- A codeword that stands at the pins of a lane is the one received. -/
def arrives (s : State) (w : Nat) : Bool :=
  (receiveBits 0 0 frameLen (((Fin.ofNat (2 ^ 32) (atPins w / 2 ^ 4880)).val) * 2 ^ 4880 + atPins w % 2 ^ 4880) s).1 == frameMarker * 2 ^ 4880 + w

/-- Group 0 aligned with a DATA frame ready, the step's first or a later one. -/
def sReady (built : Nat) : State :=
  regs [(Reg.LNK_FR_STATUS 0, 0x10)] (dataStep (sFr { started := true, built := built, announced := some 0 } 4 4))

/-- A DATA frame whose release point passed before it was built. -/
def sOverdue : State :=
  regs [(Reg.LNK_FR_STATUS 0, 0x10)] (dataStep (sFr { started := true, built := 1, announced := some 0, missed := [0] } 4 4))

/-- Lane A in EXCHANGE. -/
def sCap : State := regs [(Reg.LNK_FR_STATUS 0, 1)] (sLk 3 0)

/-- Lane A in the merge, and aligned. -/
def sMerge (n : Nat) : State := regs [(Reg.LNK_FR_STATUS 0, 5)] (sFr { started := true, next := some n } 4 0)

def sLosing : State := regs [(Reg.LNK_FR_STATUS 0, 1)] (sLane { recent := List.replicate 7 true } 4 4)

theorem wit_FramesLeaveAndAreMerged_codewords :
    (rsDecode cwIdle5 = some (frameData (idle 5), 0) ∧ frameOfData (frameData (idle 5)) = idle 5) ∧
    (rsDecode cwIdle4 = some (frameData (idle 4), 0) ∧ frameOfData (frameData (idle 4)) = idle 4) ∧
    (rsDecode cwOther = some (frameData (frameLike 5 3 [0, 0, 0, 0]), 0) ∧
      (frameOfData (frameData (frameLike 5 3 [0, 0, 0, 0]))).typ = 3) ∧
    (rsDecode cwCap = some (frameData (frameLike 5 2 (recordEntries record0)), 0) ∧
      frameOfData (frameData (frameLike 5 2 (recordEntries record0))) = frameLike 5 2 (recordEntries record0)) := by
  repeat' apply And.intro
  all_goals decide +kernel

theorem wit_FramesLeaveAndAreMerged_pins :
    (arrives (sMerge 5) cwIdle5 = true ∧ arrives (sMerge 5) cwIdle4 = true ∧ arrives (sMerge 5) cwOther = true ∧ arrives sCap cwCap = true) ∧
    (laneState sCap 0 0 = 3 ∧ recordIntact (entriesRecord (recordEntries record0)) = true ∧ recordAck record0 = true) ∧
    (nearLoop (sMerge 5) 0 0 = false ∧ bertRuns (sMerge 5) 0 0 = false ∧ nearLoop sNear 0 0 = true) ∧
    (rdBit (sLk 2 0) (Reg.LNK_FR_STATUS 0) 0 = false ∧ rdBit sLosing (Reg.LNK_FR_STATUS 0) 0 = true) := by
  repeat' apply And.intro
  all_goals decide +kernel

theorem wit_FramesLeaveAndAreMerged :
    (dataReady sOverdue 0 = true ∧ (linkOf sOverdue 0).missed = [rdN sOverdue (Reg.LNK_FR_TXSEQ 0)]) ∧
    (∀ c ∈ groupCtxs (sReady 0) [] 0, missingAt (sReady 0) (ctxOf (sReady 0) c) 0 = none) ∧
    (∀ l < 2, nearLoop (sReady 0) 0 l = false) ∧ 0 < (linkOf (sReady 1) 0).built ∧ (sReady 0).shadowF = [] ∧
    dataReady (sReady 0) 0 = true ∧ dataReady (sReady 1) 0 = true ∧ dataReady (sFr { started := true } 4 4) 0 = false ∧
    (carriesFrames (sFr { started := true } 2 0) 0 = true ∧ betweenFrames (sFr { started := true } 2 0) 0 = false) ∧
    (carriesFrames (sFr { started := true, idleEntries := [1] } 3 0) 0 = true ∧
      (linkOf (sFr { started := true, idleEntries := [1] } 3 0) 0).idleEntries ≠ []) ∧
    carriesFrames (sLk 1 1) 0 = false ∧ betweenFrames (sReady 1) 0 = true ∧
    laneState (sLk 1 0) 0 0 < 2 ∧
    (laneState sLosing 0 0 = 4 ∧ rdBit sLosing (Reg.LNK_FR_STATUS 0) 0 = true ∧
      8 ≤ (((true :: (laneOf sLosing 0 0).recent).take 64).filter id).length) ∧
    (laneState (sLk 2 0) 0 0 = 2 ∧ ¬ 8 ≤ (((true :: (laneOf (sLk 2 0) 0 0).recent).take 64).filter id).length) ∧
    (laneState (sLane { goodRun := 63 } 2 0) 0 0 = 2 ∧ loopbackOf (sLane { goodRun := 63 } 2 0) 0 0 = 0) ∧
    (laneState (sMerge 5) 0 0 = 4 ∧ inMerge (sMerge 5) 0 0 = true ∧ (linkOf (sMerge 5) 0).next = some 5 ∧
      8388608 ≤ seqDiff (idle 4).fseq 5 ∧ (linkOf (sMerge 5) 0).buf = []) ∧
    (linkOf (sMerge 0xFFFFFF) 0).next = some 0xFFFFFF := by decide +kernel

theorem wit_FramesLeaveAndAreMerged_quiet : Quiet (sMerge 5) ∧ Quiet sLosing := ⟨quiet_of_sess _ (by decide), quiet_of_sess _ (by decide)⟩

/-- A filler word, one of an unknown kind, and one whose check fails. -/
def fillerA : Word := 0x5AC3000A
def fillerB : Word := 0x5AC39003
def fillerC : Word := 0x5AC30000

theorem wit_FillersAlignmentAndFrameControls :
    (bitDiff (fld fillerA 31 16) 0x5AC3 ≤ 2 ∧ fillerCheck fillerA.toNat = true ∧ fld fillerA 15 12 < 5) ∧
    (bitDiff (fld fillerB 31 16) 0x5AC3 ≤ 2 ∧ fillerCheck fillerB.toNat = true ∧ 9 ≤ fld fillerB 15 12) ∧
    (bitDiff (fld fillerC 31 16) 0x5AC3 ≤ 2 ∧ fillerCheck fillerC.toNat = false ∧ (laneOf (sLk 4 4) 0 0).badWords < 3) ∧
    (¬bitDiff (fld 0 31 16) 0x5AC3 ≤ 2 ∧ 3 < bitDiff 0 0x3D9AE2C5) ∧ laneState (sLk 4 4) 0 0 = 4 ∧ laneState (sLk 1 4) 0 0 < 2 ∧
    (3 ≤ (laneOf (regs [(Reg.LNK_FR_STATUS 0, 1)] (sLane { badWords := 3 } 4 4)) 0 0).badWords ∧
      rdBit (regs [(Reg.LNK_FR_STATUS 0, 1)] (sLane { badWords := 3 } 4 4)) (Reg.LNK_FR_STATUS 0) 0 = true) ∧
    rdBit (sReady 0) (Reg.LNK_FR_STATUS 0) 4 = true ∧
    (rdBit (sLk 4 4) (Reg.LNK_FR_STATUS 0) 4 = false ∧ groupActive (sLk 4 4) 0 = true) ∧ groupActive (sLk 1 1) 0 = false ∧
    refusalOf q0 (Reg.LNK_FR_INJECT 0) 3 (expert (sLk 4 4)) = none ∧
    refusalOf q0 (Reg.LNK_FR_XCTRL 0) 3 (expert (sLk 4 4)) = none := by decide +kernel

theorem wit_FillersAlignmentAndFrameControls_quiet : Quiet (sLk 4 4) := quiet_of_sess _ (by decide)

/-! ### Chapters 5 and 6 -/

/-- The low and high half of a 64-bit word. -/
def halves (w : Nat) : List Word := [wd (w % 4294967296), wd (w / 4294967296)]

/-- A program of `n` instructions, the first of them `w` and the second PLAY of segment 6. List 0 names segment 6, which is resident, and
list 1 object 7, which is not. -/
def progMem (n w : Nat) (s : State) : State :=
  setMemWords 0x2000 [0x5347584B, 0x00010001, 40]
    (setMemWords 0x10A0 [6, 7] (setMemWords 0x1080 [0xA0, 1, 0xA4, 1]
      (setMemWords 0x1040 (halves w ++ halves (0x0400000000000000 + 6))
        (setMemWords 0x1000 [0x5051584B, 1, wd n, 2, 2, 0, 0x80, 0, 0x80, 0] s))))

/-- The library's objects: the program, two segments. -/
def objs0 : Tbl (Option LibObj) :=
  [(5, some { typ := 1, length := 256, state := .sealed, base := some 0x1000 }),
   (6, some { typ := 2, length := 4096, state := .sealed, base := some 0x2000 }), (7, some { typ := 2, length := 4096, state := .sealed })]

/-- A step of context 0 on group 0. -/
def step0 : StepInfo := { ctxs := [0], groups := [0], at_ := none, startBeat := 0, steptime := some 100 }

/-- Context 0 in a step, at the first of `n` instructions, which is `w`. -/
def sProg (x : Ctx) (n w : Nat) : State :=
  progMem n w (regs [(Reg.SEQ_CTX_PROG 0, 5)]
    { sLk 4 4 with
      pwr := { s0.pwr with state := .run }
      lib := { s0.lib with objs := objs0 }
      seq := { s0.seq with step := some step0, ctxs := [(0, x)] } })

def run0 : Ctx := { state := .running }

/-- Instruction words: opcode `op` with operand bits `x`. -/
def ins (op x : Nat) : Nat := op * 2 ^ 58 + x

/-- Context 0 before the instruction `op` with operand bits `x`. -/
def sIns (op x : Nat) : State := sProg run0 2 (ins op x)

def loop0 : LoopEntry := { body := 0, left := 1, endless := false }

theorem wit_LoopsCallsAndJumpsRun :
    takesInstr s0 0 = false ∧ (takesInstr (sProg run0 0 0) 0 = true ∧ progCount (sProg run0 0 0) 0 ≤ (ctxOf (sProg run0 0 0) 0).pc) ∧
    (takesInstr (sIns 0x12 0) 0 = true ∧ (ctxOf (sIns 0x12 0) 0).pc < progCount (sIns 0x12 0) 0 ∧
      wordValid (progWord (sIns 0x12 0) 0 (ctxOf (sIns 0x12 0) 0).pc) = false) ∧
    (SeqReady 0 0x03 (ins 3 5) (sIns 3 5) ∧ (ctxOf (sIns 3 5) 0).loops.length < 4 ∧ residencyList (sIns 3 5) 0x1000 0 = some [6] ∧
      [6].all (isResident (sIns 3 5)) = true) ∧
    (SeqReady 0 0x03 (ins 3 (2 ^ 32)) (sIns 3 (2 ^ 32)) ∧ residencyList (sIns 3 (2 ^ 32)) 0x1000 1 = some [7] ∧
      [7].all (isResident (sIns 3 (2 ^ 32))) = false) ∧
    (SeqReady 0 0x03 (ins 3 (2 ^ 33)) (sIns 3 (2 ^ 33)) ∧ residencyList (sIns 3 (2 ^ 33)) 0x1000 2 = none) ∧
    (SeqReady 0 0x03 (ins 3 5) (sProg { run0 with loops := [loop0, loop0, loop0, loop0] } 2 (ins 3 5))) ∧
    (SeqReady 0 0x04 (ins 4 0) (sIns 4 0) ∧ (ctxOf (sIns 4 0) 0).loops = []) ∧
    SeqReady 0 0x04 (ins 4 0) (sProg { run0 with loops := [loop0] } 2 (ins 4 0)) ∧
    SeqReady 0 0x05 (ins 5 1) (sIns 5 1) ∧ SeqReady 0 0x05 (ins 5 2) (sIns 5 2) ∧
    SeqReady 0 0x05 (ins 5 1) (sProg { run0 with calls := [0, 0, 0, 0, 0, 0, 0, 0] } 2 (ins 5 1)) ∧
    SeqReady 0 0x06 (ins 6 0) (sIns 6 0) ∧ SeqReady 0 0x06 (ins 6 0) (sProg { run0 with calls := [1] } 2 (ins 6 0)) ∧
    SeqReady 0 0x07 (ins 7 1) (sIns 7 1) ∧ SeqReady 0 0x07 (ins 7 2) (sIns 7 2) := by
  unfold SeqReady; repeat' apply And.intro
  all_goals decide +kernel

theorem wit_VectorsAreEmitted :
    (SeqReady 0 0x01 (ins 1 6) (sIns 1 6) ∧ segError (sIns 1 6) 6 = 0) ∧
    (SeqReady 0 0x01 (ins 1 7) (sIns 1 7) ∧ segError (sIns 1 7) 7 = 0x08) ∧
    (SeqReady 0 0x01 (ins 1 8) (sIns 1 8) ∧ segError (sIns 1 8) 8 = 0x0C) ∧
    (SeqReady 0 0x01 (ins 1 6) (sProg { run0 with emitted := 2550, resolved := 0 } 2 (ins 1 6)) ∧
      emitLimit (sProg { run0 with emitted := 2550, resolved := 0 } 2 (ins 1 6)) 0 - 2550 < 40) ∧
    (SeqReady 0 0x01 (ins 1 6) (sProg { run0 with held := 40 } 2 (ins 1 6)) ∧ ¬(ctxOf (sProg { run0 with held := 40 } 2 (ins 1 6)) 0).held ≤ 0) ∧
    SeqReady 0 0x02 (ins 2 (3 * 2 ^ 32 + 6)) (sIns 2 (3 * 2 ^ 32 + 6)) ∧ SeqReady 0 0x02 (ins 2 6) (sIns 2 6) ∧
    SeqReady 0 0x09 (ins 9 (3 * 2 ^ 32 + 6)) (sIns 9 (3 * 2 ^ 32 + 6)) ∧ SeqReady 0 0x09 (ins 9 6) (sIns 9 6) ∧
    SeqReady 0 0x0A (ins 10 100) (sIns 10 100) ∧ SeqReady 0 0x0A (ins 10 0) (sIns 10 0) ∧
    SeqReady 0 0x0B (ins 11 100) (sIns 11 100) ∧ SeqReady 0 0x0B (ins 11 0) (sIns 11 0) := by
  unfold SeqReady; repeat' apply And.intro
  all_goals decide +kernel

/-- Group 0 is mastered by context 0, which drives its channel 0 through site 0. -/
def img2 : Image :=
  { img1 with
    groups := [(0, { enabled := true, periodN := 1000, tmaster := 0 })], sites := [(0, { channels := 1, context := 0, enabled := true })] }

def sMaster (op x : Nat) : State := { sIns op x with img := { (sIns op x).img with active := img2 } }

theorem wit_InstructionsWithoutVectors :
    (SeqReady 0 0x08 (ins 8 1) (sIns 8 1) ∧ 1 < progCount (sIns 8 1) 0 ∧ opcOf (progWord (sIns 8 1) 0 1) = 1) ∧
    (SeqReady 0 0x08 (ins 8 2) (sIns 8 2) ∧ ¬2 < progCount (sIns 8 2) 0) ∧
    (SeqReady 0 0x08 (ins 8 (2 ^ 43 + 1)) (sIns 8 (2 ^ 43 + 1)) ∧ (ctxOf (sIns 8 (2 ^ 43 + 1)) 0).loops.length < bitsN (ins 8 (2 ^ 43 + 1)) 45 43) ∧
    (SeqReady 0 0x0C (ins 12 3) (sIns 12 3) ∧ masteredGroups (sIns 12 3) 0 = []) ∧
    (SeqReady 0 0x0C (ins 12 3) (sMaster 12 3) ∧ masteredGroups (sMaster 12 3) 0 ≠ []) ∧
    SeqReady 0 0x0D (ins 13 7) (sIns 13 7) ∧
    (SeqReady 0 0x0E (ins 14 1) (sIns 14 1) ∧ stageList (sIns 14 1) 0x1000 1 = some [7] ∧ isResident (sIns 14 1) 7 = false) ∧
    (SeqReady 0 0x0E (ins 14 2) (sIns 14 2) ∧ stageList (sIns 14 2) 0x1000 2 = none) ∧
    (SeqReady 0 0x0F (ins 15 1) (sMaster 15 1) ∧ 0 < (siteList (sMaster 15 1) 0).length) ∧
    (SeqReady 0 0x10 (ins 16 1) (sIns 16 1) ∧ residencyList (sIns 16 1) 0x1000 1 ≠ none) ∧
    (SeqReady 0 0x10 (ins 16 2) (sIns 16 2) ∧ residencyList (sIns 16 2) 0x1000 2 = none) ∧
    SeqReady 0 0x11 (ins 17 0) (sIns 17 0) := by
  unfold SeqReady; repeat' apply And.intro
  all_goals decide +kernel

/-- Context 0 in the middle of an instruction. -/
def sCur (x : Ctx) : State := sProg x 2 (ins 1 6)

def ctxJump : Ctx := { run0 with emitted := 2560, resolved := 10, loops := [loop0, loop0], calls := [1], jump := some ⟨0, 1, 1, 1⟩ }
def ctxMatched : Ctx :=
  { run0 with emitted := 2560, resolved := 10, cur := some (.matching 6 40 2 0 none false [⟨0, 39, some true⟩]) }
def ctxMissed (toHalt : Bool) : Ctx :=
  { run0 with emitted := 2624, resolved := 10, cur := some (.matching 6 40 2 0 none toHalt [⟨0, 39, some false⟩, ⟨40, 79, some false⟩]) }
def ctxWait (timeout : Nat) (toHalt : Bool) (acted : Option Nat) : Ctx :=
  { run0 with state := .waiting, emitted := 2560, resolved := 10, cur := some (.waitt 3 timeout toHalt 0 acted) }
def ctxTime (count : Nat) : Ctx := { run0 with state := .waiting, emitted := 64, cur := some (.waittime 0 count) }
def ctxHeld (id : Nat) : Ctx := { run0 with state := .resHold, emitted := 64, cur := some (.resHold 0 0 5 [id]) }

/-- A BOUNDARY jump acts on the vector at which the match loop would be left. -/
def sBoundary : State := regs [(Reg.SEQ_CTX_CFG 0, 1)] (sCur { ctxMatched with jump := some ⟨0, 1, 0, 0⟩ })

theorem wit_JumpsAndWaitsEnd :
    (boundaryDue sBoundary 0 (ctxOf sBoundary 0).emitted = true ∧ atStartPoint sBoundary 0 = true ∧ mayLeave sBoundary 0 = true ∧
      (ctxOf sBoundary 0).cur = ctxMatched.cur ∧ atEffect sBoundary 0 = true ∧ boundaryDue (sCur ctxMatched) 0 2560 = false) ∧
    ((ctxOf (sCur { ctxHeld 6 with emitted := 70 }) 0).emitted = 70 ∧
      64 * ceilDiv 70 64 ≤ emitLimit (sCur { ctxHeld 6 with emitted := 70 }) 0 ∧ (ctxHeld 6).stopAt = none ∧
      ({ ctxHeld 6 with stopAt := some 2560 } : Ctx).stopAt.isSome = true) ∧
    ((ctxOf (sCur ctxJump) 0).jump = some ⟨0, 1, 1, 1⟩ ∧ atEffect (sCur ctxJump) 0 = true) ∧ (ctxOf (sCur run0) 0).jump = none ∧
    ((ctxOf (sCur ctxMatched) 0).cur = some (.matching 6 40 2 0 none false [⟨0, 39, some true⟩]) ∧ mayLeave (sCur ctxMatched) 0 = true ∧
      64 * (39 / 64 + 40) ≤ (ctxOf (sCur ctxMatched) 0).emitted) ∧
    ((ctxOf (sCur { ctxMatched with emitted := 2559 }) 0).emitted < 64 * (39 / 64 + 40) ∧
      mayLeave (sCur { ctxMatched with emitted := 2559 }) 0 = true) ∧
    (mayLeave (sCur (ctxMissed true)) 0 = true ∧ mayLeave (sCur (ctxMissed false)) 0 = true ∧ 64 * (79 / 64 + 40) ≤ 2624) ∧
    (mayLeave (sCur (ctxWait 0 false (some 0))) 0 = true ∧ mayLeave (sCur (ctxWait 2561 false (some 0))) 0 = true ∧ 2560 = 64 * (0 + 40)) ∧
    (mayLeave (sCur (ctxWait 2560 true none)) 0 = true ∧ mayLeave (sCur (ctxWait 2560 false none)) 0 = true) ∧
    (ctxInStep (sCur (ctxTime 64)) 0 = true ∧ (ctxOf (sCur (ctxTime 64)) 0).emitted = 0 + 64 ∧
      (ctxOf (sCur (ctxTime 65)) 0).emitted ≠ 0 + 65) ∧
    (ctxInStep (sCur (ctxHeld 6)) 0 = true ∧ [6].all (isResident (sCur (ctxHeld 6))) = true ∧ (ctxOf (sCur (ctxHeld 6)) 0).emitted % 64 = 0 ∧
      [7].all (isResident (sCur (ctxHeld 7))) = false) := by
  repeat' apply And.intro
  all_goals decide +kernel

/-- The device with context 0 and its program, before a START of it. -/
def sStart : State :=
  regs [(Reg.SEQ_STEP_CTX_LO, 1), (Reg.LNK_FR_STATUS 0, 0x10), (Reg.PWR_VIN, 48000), (Reg.MEA_ENG_CAP, 1000)]
    { sProg {} 2 (ins 17 0) with
      pwr := s0.pwr
      img := { s0.img with active := img2, loaded := true }
      seq := { s0.seq with ctxs := [(0, {})] } }

/-- The step of `sStart` in a stage-late hold or begun. -/
def sStep (st : StepInfo) : State :=
  { sStart with
    pwr := { s0.pwr with state := .run }
    seq := { sStart.seq with step := some st, ctxs := [(0, { state := .starting })] }
    links := [(0, { started := true, built := if st.zeroed then 1 else 0, finished := st.zeroed })] }

def hold0 : StepInfo := { step0 with steptime := none }

theorem wit_StepsStartAndAbort :
    (refusalOf q0 Reg.SEQ_STEP_CMD (startWord false) sStart = none ∧ startBarred sStart = none ∧
      stepWellFormed (applyS (includedIn sStart [0] [0]) sStart) (stepContexts sStart) (stepGroups sStart (stepContexts sStart)) = true ∧
      blocksAdmit (applyS (includedIn sStart [0] [0]) sStart) (stepContexts sStart) (stepGroups sStart (stepContexts sStart)) = true ∧
      admitReason (applyS (includedIn sStart [0] [0]) sStart) (powerEstimate sStart [1000]) = 0) ∧
    (refusalOf q0 Reg.SEQ_STEP_CMD (startWord false) s0 = none ∧ startBarred s0 = none ∧ stepWellFormed s0 (stepContexts s0) [] = false) ∧
    (refusalOf q0 Reg.SEQ_STEP_CMD (startWord false) (sStep step0) = none ∧ startBarred (sStep step0) = some 0x47) ∧
    (refusalOf q0 Reg.SEQ_STEP_CMD 2 s0 = none ∧ s0.seq.step = none) ∧
    (refusalOf q0 Reg.SEQ_STEP_CMD 2 (sStep step0) = none ∧ (sStep step0).seq.step = some step0 ∧ framesSent (sStep step0) 0 = 0) ∧
    framesSent (sStep { step0 with zeroed := true }) 0 = 1 := by
  repeat' apply And.intro
  all_goals decide +kernel

/-- The hold while the program is not resident. -/
def sNotResident : State :=
  { sStep hold0 with lib := { s0.lib with objs := [(5, some { typ := 1, length := 256, state := .sealed })] } }

theorem wit_StepsRunAndEnd :
    listsResident sNotResident hold0 = false ∧
    ((sStep { hold0 with laneLost := true }).seq.step = some { hold0 with laneLost := true } ∧
      listsResident (sStep { hold0 with laneLost := true }) { hold0 with laneLost := true } = true) ∧ hold0.laneLost = false ∧
    ((sStep hold0).seq.step = some hold0 ∧ hold0.steptime = none ∧ hold0.at_ = none ∧ listsResident (sStep hold0) hold0 = true ∧
      hold0.groups.all (groupActive (sStep hold0)) = true ∧ stepObjects (sStep hold0) hold0 0 ≠ none) ∧
    (listsResident (sStep { hold0 with at_ := some 5000 }) { hold0 with at_ := some 5000 } = true ∧
      (sStep { hold0 with at_ := some 5000 }).beat + rdN (sStep { hold0 with at_ := some 5000 }) Reg.SEQ_STEP_DELAY ≤ 5000) ∧
    ((sStep { hold0 with at_ := some 5 }).beat + rdN (sStep { hold0 with at_ := some 5 }) Reg.SEQ_STEP_DELAY = 0 ∨
      5 < (sStep { hold0 with at_ := some 5 }).beat + rdN (sStep { hold0 with at_ := some 5 }) Reg.SEQ_STEP_DELAY) ∧
    ((sStep step0).seq.step = some step0 ∧ step0.steptime.isSome = true ∧ step0.zeroed = false ∧ step0.endTicks = none) ∧
    ((sStep { step0 with zeroed := true, endTicks := some 64000 }).seq.step = some { step0 with zeroed := true, endTicks := some 64000 } ∧
      (linkOf (sStep { step0 with zeroed := true, endTicks := some 64000 }) 0).finished = true) := by
  repeat' apply And.intro
  all_goals decide +kernel

/-- Context 0 in a step before the microword `w` at address 0. -/
def sMicro (x : Ctx) (m : Micro) (w : Word) : State :=
  let s := regs [(Reg.SEQ_UCODE_LO 0, w)] (sProg x 2 (ins 17 0))
  { s with seq := { s.seq with micro := [(0, m)] } }

theorem wit_MicrocodeTrapsAndTakeovers :
    ctxInStep s0 0 = false ∧
    (ctxInStep (sMicro run0 {} 0xF0000000) 0 = true ∧ (ctxOf (sMicro run0 {} 0xF0000000) 0).takeover = false ∧
      microReserved (ctrlWord (sMicro run0 {} 0xF0000000) 0) = true) ∧
    (bitsN (ctrlWord (sMicro run0 {} 0x00420005) 0) 31 30 = 0 ∧ bitsN (ctrlWord (sMicro run0 {} 0x00420005) 0) 29 26 < 12) ∧
    (bitsN (ctrlWord (sMicro run0 {} 0x82000007) 0) 31 30 = 2 ∧ bitsN (ctrlWord (sMicro run0 {} 0x82000007) 0) 29 26 < 8) ∧
    (trapOrder.find? (fun k => (ctxOf (sMicro { run0 with microTraps := [4, 2] } {} 0) 0).microTraps.contains k) = some 2 ∧
      (microOf (sMicro { run0 with microTraps := [4, 2] } {} 0) 0).asec = 0) ∧
    (bitsN (ctrlWord (sMicro run0 {} 0xDC000005) 0) 31 30 = 3 ∧ bitsN (ctrlWord (sMicro run0 {} 0xDC000005) 0) 29 26 = 7) ∧
    ((microOf (sMicro { run0 with microTraps := [4] } { asec := 1 } 0) 0).asec ≠ 0 ∧ (ctxOf (sMicro run0 {} 0) 0).microTraps = []) ∧
    (ctxOf (sMicro { run0 with state := .fenced } {} 0) 0).state = .fenced ∧
    ((ctxOf (sMicro run0 {} 0) 0).state ≠ .fenced ∧ (ctxOf (sMicro run0 {} 0) 0).onSpare = false ∧
      (sMicro run0 {} 0).img.active.spares.ctx = 0) ∧
    ({ s0 with img := { s0.img with active := { img2 with spares := { ctx := 4 } } } } : State).img.active.spares.ctx ≠ 0 ∧
    ((ctxOf (sMicro { run0 with takeover := true, emitted := 70 } {} 0) 0).takeover = true ∧
      ctxInStep (sMicro { run0 with takeover := true, emitted := 70 } {} 0) 0 = true ∧
      ctxEnded { run0 with takeover := true, emitted := 70 } = false) := by
  repeat' apply And.intro
  all_goals decide +kernel

/-! ### Chapter 7 -/

/-- Group 0 without a lane, and with one, its selected channel's first entry holding the events given. -/
def sEv (lanes : Word) (a b : Word) : State :=
  expert (regs [(Reg.TST_EV 0 0, a), (Reg.TST_EV 0 1, b), (Reg.TST_SEL 0, 0x302)] (sLk lanes lanes))

/-- A drive event at 1,000 ps and a compare event at 2,000 ps; one of the reserved type. -/
def evDrive : Word := 0x200003E8
def evCmp : Word := 0x800007D0
def evBad : Word := 0xE0000000

theorem wit_EntriesAreCommittedAndRead :
    (refusalOf q0 (Reg.TST_CMD 0) 2 (sEv 4 evDrive evCmp) = none ∧ firstBreak allRules 1000
      [(1, ticksOfPs 1000), (4, ticksOfPs 2000), (0, 0), (0, 0), (0, 0), (0, 0), (0, 0), (0, 0), (0, 0), (0, 0), (0, 0), (0, 0), (0, 0), (0, 0),
        (0, 0), (0, 0)] = none ∧ groupActive (sEv 4 evDrive evCmp) 0 = true ∧ groupActive (sEv 0 evDrive evCmp) 0 = false) ∧
    (refusalOf q0 (Reg.TST_CMD 0) 2 (sEv 4 evBad 0) = none ∧ entryBreak allRules 1000 [(7, 0), (0, 0), (0, 0), (0, 0)] = some (5, 0)) ∧
    refusalOf q0 (Reg.TST_CMD 0) 1 (sEv 4 evDrive evCmp) = none ∧
    (refusalOf q0 (Reg.TST_XCMD 0) 3 (sEv 4 0 0) = none ∧ (rdRegs (sEv 4 0 0) (Reg.TST_XRAW 0 0) 16).all (fun w => decide (fld w 28 12 ≤ (2 * 1000 - 1) / 256)) = true ∧
      periodOf (sEv 4 0 0) 0 = 1000) ∧
    (rdRegs (regs [(Reg.TST_XRAW 0 0, 0x20008000)] (sEv 4 0 0)) (Reg.TST_XRAW 0 0) 16).any (fun w => decide ((2 * 1000 - 1) / 256 < fld w 28 12)) =
      true := by
  repeat' apply And.intro
  all_goals decide +kernel

/-- The device with an image whose channel 0 permits the modes of the mask. -/
def sModes (permit : Nat) (img : Word) : State :=
  regs [(Reg.IMG_STATUS, img)]
    { sLk 4 4 with img := { s0.img with active := { img1 with chans := [(0, { permit := permit })] }, loaded := true } }

/-- A set whose committed entry compares at 500 ticks. -/
def sEntry : State := { sLk 4 4 with tst := [(0, { slots := [(0, 0x80000000 + 600)] })] }

theorem wit_TimingRegistersAreChecked :
    (refusalOf q0 (Reg.TST_TSET 0) 63 (sLk 4 4) = none ∧ groupInStep (sLk 4 4) 0 = false ∧ groupInStep (inStep0 (sLk 4 4)) 0 = true ∧
      refusalOf q0 (Reg.TST_TSET 0) 63 (inStep0 (sLk 4 4)) = none) ∧
    (refusalOf q0 (Reg.TST_PERIOD 0) 255 (sLk 4 4) = none ∧ minPeriod (sLk 4 4) 0 ≤ 256 ∧ groupPermits (sLk 4 4) 0 6 = false ∧
      rangeBreak (tstOf (sLk 4 4) 0) 256 = none ∧ rangeBreak (tstOf (sLk 4 4) 0) 16777215 = none) ∧
    (refusalOf q0 (Reg.TST_PERIOD 0) 300 sEntry = none ∧ rangeBreak (tstOf sEntry 0) 300 ≠ none) ∧
    groupPermits (sModes 0x41 2) 0 6 = true ∧
    (refusalOf q0 (Reg.TST_MODE 0 0) 1 (sModes 1 1) = none ∧ rdFld (sModes 1 1) Reg.IMG_STATUS 1 0 = 1) ∧
    (refusalOf q0 (Reg.TST_MODE 0 0) 7 (sModes 1 2) = none ∧ (modeCodes 0 7).any (fun e => e.2 == 7) = true) ∧
    (refusalOf q0 (Reg.TST_MODE 0 0) 1 (sModes 1 0) = none ∧ (modeCodes 0 0).all (fun e => e.2 == 0) = true) ∧
    (refusalOf q0 (Reg.TST_MODE 0 0) 1 (sModes 1 2) = none ∧ bitN (chanRole (sModes 1 2) 0).permit 1 = false ∧
      bitN (chanRole (sModes 3 2) 0).permit 1 = true) ∧
    refusalOf q0 (Reg.TST_XLIN_DATA 0) 5 (expert (sLk 4 4)) = none ∧
    (q0.authOk = true ∧ sessOpen (sLk 4 4) q0.slot.val = true ∧ mappedRead (sLk 4 4) (Reg.TST_XLIN_DATA 0) = true ∧ q0.epoch = 0) := by
  repeat' apply And.intro
  all_goals decide +kernel

/-- A run on channel 3 of group 0, a linearisation or a deskew; whether its table is in force; and rejections before. -/
def sCal (deskew : Bool) (n : Nat) (set : Bool) : State :=
  { expert (sLk 4 4) with
    tst := [(0, { calRun := [(3, deskew, false)], rejects := [(3, n)], linSet := if set then [(3, true)] else [] })] }

/-- A run that measured nothing meets no failing condition (the kernel takes too long over two lines of 1,024 delays); one that ended
early. -/
def lin0 : LinObs := ⟨[], [], 400, 0, 0, false⟩
/-- A deskew whose reflection is found at the last instant. -/
def deskew0 : DeskewObs := ⟨1000, some 5096, 3172, 2972, false⟩
def linBad : LinObs := { lin0 with aborted := true }

/-- A run on channel 3 while an image loads. -/
def sCalLoad : State := regs [(Reg.IMG_STATUS, 1)] (sCal false 0 false)

theorem wit_CalibrationsRunAndEnd :
    (mayCalibrate (expert (sLk 4 4)) 0 31 = true ∧ calSuspended (expert (sLk 4 4)) = false ∧ mayCalibrate (sLk 0 0) 0 31 = false ∧
      calSuspended sCalLoad = true ∧ mayCalibrate (inStep0 (sLk 4 4)) 0 31 = true ∧
      mayCalibrate (regs [(Reg.TST_MODE 0 3, 0x10000000)] (inStep0 (sLk 4 4))) 0 31 = false) ∧
    reflected { deskew0 with reflection := some 5097 } = false ∧
    (refusalOf q0 (Reg.TST_XCMD 0) 1 (expert (sLk 0 0)) = none ∧ calEligible (expert (sLk 0 0)) 0 = false) ∧
    (refusalOf q0 (Reg.TST_XCMD 0) 0x102 (expert (sLk 4 4)) = none ∧ calEligible (expert (sLk 4 4)) 0 = true ∧
      rdFld (expert (sLk 4 4)) Reg.IMG_STATUS 1 0 ≠ 1) ∧
    (calRunOf (sCal false 0 false) 0 3 false = some false ∧ linReason (sCal false 0 false) 0 3 false lin0 = 0) ∧
    (calRunOf (sCal false 2 false) 0 3 false = some false ∧ linReason (sCal false 2 false) 0 3 false linBad ≠ 0 ∧
      tget (fun _ => 0) (tstOf (sCal false 2 false) 0).rejects 3 = 2) ∧ calRunOf (sLk 4 4) 0 3 false = none ∧
    (calRunOf (sCal true 0 false) 0 3 true = some false ∧ deskewReason (sCal true 0 false) 0 3 false deskew0 = 0) ∧
    (calRunOf (sCal true 2 false) 0 3 true = some false ∧ deskewReason (sCal true 2 false) 0 3 false { deskew0 with reflection := none } = 6) ∧
    calRunOf (sLk 4 4) 0 3 true = none ∧
    (tget (fun _ => false) (tstOf (sCal false 0 true) 0).linSet 3 = true ∧ rdBit (sCal false 0 true) (Reg.TST_CAL_AGE 0 3) 31 = false) := by
  repeat' apply And.intro
  all_goals decide +kernel

/-! ### Chapters 8 and 9 -/

/-- The fail log with a ring of 1,024 records, 10 of them written. -/
def sLog : State := expert (regs [(Reg.CMP_LOG_SIZE, 1024), (Reg.CMP_LOG_WR, 10)] s0)

theorem wit_FailLogRegistersAct :
    (refusalOf q0 Reg.CMP_LOG_RD 10 sLog = none ∧ sub32 (rdN sLog Reg.CMP_LOG_WR) 10 ≤ rdN sLog Reg.CMP_LOG_SIZE) ∧
    rdN sLog Reg.CMP_LOG_SIZE < sub32 (rdN sLog Reg.CMP_LOG_WR) 11 ∧
    (refusalOf q0 (logConfigAddr 0) 4096 sLog = none ∧ refusalOf q0 (logConfigAddr 1) 1 sLog = none ∧
      refusalOf q0 (logConfigAddr 2) 1024 sLog = none ∧ (1024 : Nat) = 2 ^ 10) ∧
    refusalOf q0 Reg.CMP_XINJECT 0x8005 sLog = none := by
  repeat' apply And.intro
  all_goals decide +kernel

/-- A word-class chain of channel 0 with the run given, whose channel enters acquisition unit 0 with RAW on. -/
def sChain (runs : List MeaRun) (aq : Nat) : State :=
  regs [(Reg.ACQ_CTRL 0, 0x11), (Reg.ACQ_R_SIZE 0 0, 64), (Reg.MEA_CH_RATE 0, 1000)]
    { inStep0 (sLk 4 4) with
      mea := { chans := [(0, { cls := 2, runs := runs })] }
      img := { s0.img with active := { img1 with chans := [(0, { aq := aq })] }, loaded := true } }

/-- A run with 40 samples in its history. -/
def mrun : MeaRun := { first := 0, hist := List.replicate 40 { val := 5 } }

theorem wit_MeasureOutputsAreProduced :
    (dropDone (meaCh (sChain [mrun] 0) 0).runs = [mrun] ∧ outputReady 2 0 2147483648 mrun 0 = true ∧ mrun.limit = none ∧
      (chanRole (sChain [mrun] 0) 0).aq ≤ 31 ∧ redOn (sChain [mrun] 0) 0 0 = true ∧ (acqUnit (sChain [mrun] 0) 0).stopped.contains 0 = false ∧
      redOn (sChain [mrun] 0) 0 1 = false ∧ redOn (sChain [mrun] 0) 0 2 = false ∧ redOn (sChain [mrun] 0) 0 3 = false ∧
      (acqUnit (sChain [mrun] 0) 0).blocks = []) ∧
    31 < (chanRole (sChain [mrun] 0xFF) 0).aq ∧ onOneCopy 0x0A 0 (sChain [mrun] 0) = false ∧
    dropDone (meaCh s0 0).runs = [] := by
  repeat' apply And.intro
  all_goals decide +kernel

/-- A change of sets whose boundary lies at 100 ticks, taken by output 0 of a run. -/
def change0 : SetChange := ⟨100, 9, [], 64⟩
def sChange : State := let s := sChain [mrun] 0; { s with mea := { s.mea with chans := [(0, { cls := 2, runs := [mrun], changes := [change0] })] } }

theorem wit_MeasureOutputsAreProduced_change :
    changesRun 1000 mrun change0 = true ∧ outputReady 2 0 2147483648 (takeChange 1000 (meaCh sChange 0) mrun).1 0 = true ∧
    dropDone (meaCh sChange 0).runs = [mrun] := by decide +kernel

/-- A fade in progress on a channel. -/
def faded : List MeaRun := [{ mrun with fade := some ⟨0, 64, 0, []⟩ }]

/-- Channel 0 in the step with the run given, channels 1 to 32 fading where asked. -/
def sFade (runs : List MeaRun) (n : Nat) : State :=
  let s := expert (regs [(Reg.MEA_XF_ALLOW, 1000), (Reg.MEA_XCH_CHAIN 0, 0x00040103), (Reg.MEA_XCH_HB_LO 0, 0x04)] (sChain runs 0))
  { s with mea := { s.mea with chans := (0, { cls := 2, h := 1, runs := runs }) :: (List.range n).map (fun k => (k + 1, { cls := 2, runs := faded })) } }

/-- The coefficient window at set `k`, index `i`. -/
def sWin (half : Bool) (k i : Nat) : State := expert (regs [(Reg.MEA_XCOEF_ADDR, wd (8388608 * b2n half + 65536 * k + i))] (sChain [mrun] 0))

theorem wit_MeasureRegistersAreChecked :
    (refusalOf q0 (setRegAddr 0 0) 2 (sFade [mrun] 0) = none ∧ setsSelectable 0 (setRegAddr 0 0) 2 = false) ∧
    (refusalOf q0 (setRegAddr 0 0) 1 (sFade [mrun] 0) = none ∧ setsSelectable 0 (setRegAddr 0 0) 1 = true ∧ (meaCh (sFade [mrun] 0) 0).cls ≠ 0 ∧
      groupInStep (sFade [mrun] 0) 0 = true ∧ fadeRunning (sFade [mrun] 0) 0 = false) ∧
    fadeRunning (sFade faded 0) 0 = true ∧
    (setsSelectable 0 (setRegAddr 0 1) 0 = true ∧ refusalOf q0 (setRegAddr 0 1) 0 (sFade [mrun] 0) = none) ∧
    (refusalOf q0 Reg.MEA_XCOEF_DATA 5 (sWin true 4 8) = none ∧ rdBit (sWin true 4 8) Reg.MEA_XCOEF_ADDR 23 = true ∧
      rdFld (sWin true 4 8) Reg.MEA_XCOEF_ADDR 21 16 = 4 ∧ rdFld (sWin true 4 8) Reg.MEA_XCOEF_ADDR 9 0 = 8) ∧
    (rdFld (sWin true 3 0) Reg.MEA_XCOEF_ADDR 21 16 = 3 ∧ rdFld (sWin false 7 0) Reg.MEA_XCOEF_ADDR 21 16 = 7) ∧
    (refusalOf q0 Reg.MEA_XCOEF_DATA 5 (sWin false 8 1023) = none ∧ rdFld (sWin false 8 1023) Reg.MEA_XCOEF_ADDR 9 0 = 1023) ∧
    (q0.authOk = true ∧ sessOpen (sWin true 4 8) 0 = true ∧ mappedRead (sWin true 4 8) Reg.MEA_XCOEF_DATA = true ∧ q0.epoch = 0) ∧
    (refusalOf q0 (Reg.MEA_XCH_CHAIN 0) 0x00040803 (expert s0) = none ∧ refusalOf q0 (Reg.MEA_XCH_CHAIN 0) 0x00040903 (expert s0) = none) ∧
    (refusalOf q0 (Reg.MEA_XCH_RHO 0) 0x40000001 (expert s0) = none ∧ refusalOf q0 (Reg.MEA_XCH_RHO 0) 0x80000001 (expert s0) = none) ∧
    (refusalOf q0 (Reg.MEA_CH_TARGET 0) 200000000 s0 = none ∧ refusalOf q0 (Reg.MEA_CH_TARGET 0) 200000001 s0 = none) := by
  repeat' apply And.intro
  all_goals decide +kernel

/-! ### Chapters 10 and 11 -/

/-- Channel 0 of group 0 plays in the step. -/
def sSrc (x : SrcCh) : State :=
  regs [(Reg.TST_MODE 0 0, 4), (Reg.SRC_CH_AMP 0, 0x7FFF)] { inStep0 (sLk 4 4) with src := { chans := [(0, x)] } }

def srcWait : SrcCh := { next := 2560, waitFrom := some 1, acted := some 0 }

theorem wit_SourceVectorsAreFormed :
    (isSource (modeOf (sSrc {}) 0) = true ∧ groupInStep (sSrc {}) 0 = true ∧ waitEndsAt (srcCh (sSrc {}) 0) (srcCh (sSrc {}) 0).next = false) ∧
    waitEndsAt (srcCh (sSrc srcWait) 0) (srcCh (sSrc srcWait) 0).next = true ∧ onOneCopy 0x07 0 (sSrc {}) = false ∧
    isSource (modeOf s0 0) = false ∧
    (refusalOf q0 Reg.SRC_NCO_FREQ_HI 0x400 s0 = none ∧ s0.src.freqLo + 4294967296 * fld 0x400 15 0 = 2 ^ 42) ∧
    2 ^ 42 < ({ s0 with src := { freqLo := 1 } } : State).src.freqLo + 4294967296 * fld 0x400 15 0 := by
  repeat' apply And.intro
  all_goals decide +kernel

/-- Channel 0's queue with 16 records of room, 4 of them written. -/
def sQueue : State := regs [(Reg.TDC_CH_Q_HI 0, 0x04000000), (Reg.TDC_CH_Q_WR 0, 20)] s0

/-- A calibration of channels 3 and 4 of group 0, with rejections before on channel 3. -/
def sCd (n : Nat) : State :=
  { expert (sLk 4 4) with
    img := { s0.img with active := { img1 with chans := [(3, { permit := 64 })] }, loaded := true }
    tdc := { runs := [(0, some (24, false))], chans := [(3, { rejects := n })] } }

/-- The bin window at a bin of channel 3, with a table in use there. -/
def sBin (i : Nat) : State :=
  expert (regs [(Reg.TDC_XBIN_ADDR, wd (3 * 65536 + i))] { s0 with tdc := { chans := [(3, { table := { accepted := true, w := [(2, 78124)] } })] } })

theorem wit_BinTablesAreCalibrated :
    (refusalOf q0 (Reg.TDC_CH_Q_RD 0) 4 sQueue = none ∧ sub32 (rdN sQueue (Reg.TDC_CH_Q_WR 0)) 4 ≤ queueSize sQueue 0 ∧
      queueSize sQueue 0 < sub32 (rdN sQueue (Reg.TDC_CH_Q_WR 0)) 3) ∧
    (refusalOf q0 Reg.TDC_XCMD 1 (expert (sLk 0 0)) = none ∧ calEligible (expert (sLk 0 0)) 0 = false) ∧
    (refusalOf q0 Reg.TDC_XCMD 0x101 (regs [(Reg.TDC_XCH, 1)] (sCd 0)) = none ∧ calEligible (regs [(Reg.TDC_XCH, 1)] (sCd 0)) 0 = true ∧
      rdN (regs [(Reg.TDC_XCH, 1)] (sCd 0)) Reg.TDC_XCH ≠ 0 ∧ rdN (sCd 0) Reg.TDC_XCH = 0) ∧
    (calEligible (sCd 0) 0 = true ∧ bitN (chanRole (sCd 0) 3).permit 6 = true ∧ rdFld (sCd 0) Reg.IMG_STATUS 1 0 ≠ 1) ∧
    bitN (chanRole (sCd 0) 4).permit 6 = false ∧ (mayCalibrate (sCd 0) 0 3 = true ∧ calSuspended (sCd 0) = false) ∧
    (calSuspended (regs [(Reg.IMG_STATUS, 1)] (sCd 2)) = true ∧ mayCalibrate (regs [(Reg.TST_MODE 0 0, 0x1000)] (inStep0 (sCd 2))) 0 3 = false) ∧
    (cdRun (sCd 2) 0 = some (24, false) ∧ bitN 24 3 = true ∧ cdReason (sCd 2) 3 false ⟨[], [], 0, 0, 0, false, true⟩ ≠ 0 ∧
      (tdcCh (sCd 2) 3).rejects = 2) ∧
    (cdRun (sLk 4 4) 0 = none ∧ bitN 24 5 = false) ∧
    (refusalOf q0 Reg.TDC_XBIN_DATA 78126 (sBin 254) = none ∧ rdFld (sBin 254) Reg.TDC_XBIN_ADDR 7 0 = 254 ∧
      rdFld (sBin 255) Reg.TDC_XBIN_ADDR 7 0 = 255) ∧
    (q0.authOk = true ∧ sessOpen (sBin 255) 0 = true ∧ mappedRead (sBin 255) Reg.TDC_XBIN_DATA = true ∧ q0.epoch = 0) ∧
    ((tdcCh (sBin 0) 3).table.accepted = true ∧ (tdcCh (sBin 0) 3).staleNoted = false ∧ (tdcCh s0 3).table.accepted = false) := by
  repeat' apply And.intro
  all_goals decide +kernel

/-- With a table one short of the whole, the last bin takes the width that makes it whole and no other. -/
theorem wit_BinTablesAreCalibrated_whole :
    sumN ((List.range 256).map (binWidth { (tdcCh (sBin 255) 3).table with w := [(2, 78124), (255, 78126)] })) = 20000000 ∧
    sumN ((List.range 256).map (binWidth { (tdcCh (sBin 255) 3).table with w := [(2, 78124), (255, 78125)] })) ≠ 20000000 := by decide +kernel

/-! ### Chapter 12 -/

/-- Line 3 with an act scheduled directly at the instants given; it is an edge line with a holdoff of 2 BEAT periods. -/
def sLine (ns : List Nat) (last : Option Nat) : State :=
  regs [(Reg.TRG_LINE_CFG 3, 0x20002)] { s0 with trg := { direct := ns.map (fun n => (n, 3)), last := [(3, last)] } }

/-- Line 3 on at the BEAT edge, in a step of context 0. -/
def sLineOn : State :=
  { inStep0 (regs [(Reg.TRG_LINE_CFG 3, 3)] s0) with
    beat := 100
    trg := { pulses := [{ code := 3, since := 1600, upto := some 1616 }] } }

/-- A unit on the bus at address 1 as a member, with unit 0 present, which sends every trigger of the bus. -/
def sBus (st : Nat) : State :=
  regs [(Reg.QDR_STRAP, 1), (Reg.QDR_STATUS, wd st), (Reg.QDR_PRESENT, 1)]
    { s0 with
      beat := 1000
      img := { s0.img with active := { img1 with quadrille := List.replicate 0x50 0 }, loaded := true } }

/-- The same with a trigger of the bus that waits to act. -/
def sAct : State := { sBus 4 with qdr := { (sBus 4).qdr with qtAct := [(5, 512)] } }

theorem wit_LinesActAndAreSampled :
    (5, 3) ∉ (sLine [] none).trg.direct ∧ matrixRise (sLine [] none) 3 5 = false ∧
    ((5, 3) ∈ (sLine [5] none).trg.direct ∧ tget (fun _ => none) (sLine [5] (some 5)).trg.last 3 = some 5 ∧
      tget (fun _ => none) (sLine [5] none).trg.last 3 ≠ some 5) ∧
    (lineEdge (sLine [36] (some 5)) 3 = true ∧ 36 < 5 + 16 * rdFld (sLine [36] (some 5)) (Reg.TRG_LINE_CFG 3) 31 16 ∧
      (36, 3) ∈ (sLine [36] (some 5)).trg.direct) ∧
    ¬37 < 5 + 16 * rdFld (sLine [37] (some 5)) (Reg.TRG_LINE_CFG 3) 31 16 ∧
    (onBus (sBus 4) = true ∧ qtSender (sBus 4) 5 ≠ ownAddr (sBus 4) ∧ onBus (sBus 5) = true ∧
      qtSender (regs [(Reg.QDR_STRAP, 0)] (sBus 5)) 5 = ownAddr (regs [(Reg.QDR_STRAP, 0)] (sBus 5)) ∧ qtSrc (sBus 5) 5 = 0) ∧
    onOneCopy 0x09 0 s0 = false ∧ onOneCopy 0x09 0 { s0 with flt := { s0.flt with oneCopy := [(0x09, 0)] } } = true ∧
    (lineLevel sLineOn 3 (16 * sLineOn.beat) = true ∧ lineLevel s0 3 (16 * s0.beat) = false) ∧
    refusalOf q0 Reg.TRG_FIRE 3 s0 = none ∧
    (refusalOf q0 (lineSrcAddr 3 false) 0x3FF0002 s0 = none ∧ stepRuns s0 = false ∧ stepRuns sLineOn = true ∧
      refusalOf q0 (lineSrcAddr 3 true) 0x1600040 sLineOn = none ∧ ¬((3 : Nat) = 0x3FF ∨ 3 < (3 : Nat) ∨ 0x40 ≤ (3 : Nat) ∧ (3 : Nat) ≤ 0x160)) ∧
    (refusalOf q0 (Reg.ACQ_R_RD 3 1) 4 s0 = none ∧ rdN s0 (Reg.ACQ_R_WR 3 1) < 4 ∧
      4 ≤ rdN (regs [(Reg.ACQ_R_WR 3 1, 4)] s0) (Reg.ACQ_R_WR 3 1)) := by
  repeat' apply And.intro
  all_goals decide +kernel

/-- A frame of leader 0 with the count 1000, and one of this unit. -/
def tod0 : BitVec 128 := BitVec.ofNat 128 (todFrame 1000 3 0 7)
def tod1 : BitVec 128 := BitVec.ofNat 128 (todFrame 1000 3 1 7)

/-- A unit that has listened to four frames with member 0 on the bus. -/
def sJoin : State :=
  regs [(Reg.TBF_STATUS, 2)] { sBus 1 with qdr := { todRun := 4, todCount := 1000, todOwn := 999, members := 3 } }

def sBackoff : State := { sBus 1 with qdr := { backoff := true } }

theorem wit_BusTimeIsKept :
    (onBus (sBus 4) = true ∧ qtSender (sBus 4) 5 ≠ ownAddr (sBus 4) ∧ isPresent (sBus 4) (qtSender (sBus 4) 5) = true ∧
      qtSender (sBus 4) 5 ∉ (sBus 4).qdr.excluded) ∧
    onBus s0 = false ∧ (sAct.qdr.qtAct.find? (fun e => e.1 == 5) = some (5, 512) ∧ aloneRole sAct = false ∧ (∀ e ∈ sAct.qdr.qtAct, e.1 ≠ 6)) ∧
    aloneRole s0 = true ∧ (aloneRole (sBus 3) = false ∧ busState (sBus 3) = 3 ∧ todValid 0 = false ∧ todValid tod0.toNat = true) ∧
    (busState (sBus 5) = 5 ∧ busState (sBus 4) = 4 ∧ (sBus 4).beat - 0 = todCount tod0.toNat ∧ (sBus 4).beat - 1 ≠ todCount tod0.toNat) ∧
    ((inStep0 (sBus 4)).pwr.state = .run ∧ (sBus 4).pwr.state ≠ .run ∧ busState (inStep0 (sBus 4)) = 4) ∧
    (busState (sBus 1) = 1 ∧ busState (sBus 2) = 2) ∧
    (todLeader tod1.toNat = ownAddr (sBus 3) ∧ todLeader tod0.toNat ≠ ownAddr (sBus 3)) ∧
    (busState sJoin = 1 ∧ sJoin.qdr.backoff = false ∧ 4 ≤ sJoin.qdr.todRun ∧ rdBit sJoin Reg.QDR_STATUS 22 = false ∧
      rdBit sJoin Reg.TBF_STATUS 1 = true ∧ rdBit sJoin Reg.TBF_STATUS 0 = false ∧
      ((List.range 32).all (fun u => !(bitN sJoin.qdr.members u) || u == ownAddr sJoin || u == 0)) = true) ∧
    (aloneRole (sBus 2) = false ∧ busState (sBus 2) = 2 ∧ role (sBus 2) = 0) ∧
    (busState sBackoff = 1 ∧ sBackoff.qdr.backoff = true ∧ busState (sBus 4) ≠ 1) ∧
    (refusalOf q0 Reg.QDR_CMD 1 (sBus 4) = none ∧ refusalOf q0 Reg.QDR_CMD 1 s0 = none) := by
  repeat' apply And.intro
  all_goals decide +kernel

/-- A heartbeat of unit 2, departing or not. -/
def beat2 (dep : Bool) : Nat := let w := 2 * 2048 + b2n dep * 256 + 16; w + beatCheck w

/-- Unit 0 has missed three heartbeats in a row. -/
def sMissed : State := { sBus 4 with qdr := { peers := [(0, { missed := 3 })] } }

/-- The unit's own turn of the bus, and another's. -/
def sTurn (st dep : Nat) : State := { sBus st with beat := 16, qdr := { departing := dep } }

theorem wit_BusPeersComeAndGo :
    (aloneRole s0 = true ∧ aloneRole (sBus 4) = false ∧ busState (sBus 4) ≠ 0 ∧ busState (sBus 4) ≠ 6 ∧ 2 ≠ ownAddr (sBus 4) ∧
      (2 : Nat) ∉ (sBus 4).qdr.excluded) ∧
    (beatValid 2 (beat2 false) = true ∧ bitN (beat2 false) 8 = false ∧ isPresent (sBus 4) 2 = false) ∧
    (beatValid 2 (beat2 true) = true ∧ bitN (beat2 true) 8 = true ∧ isPresent (regs [(Reg.QDR_PRESENT, 5)] (sBus 4)) 2 = true) ∧
    beatValid 2 0 = false ∧ (ownAddr (sBus 1) = 1 ∧ beatValid 1 (ownBeat false (sBus 1)) = true) ∧
    (isPresent sMissed 0 = true ∧ 3 ≤ (peerOf sMissed 0).missed ∧ isPresent s0 0 = false) ∧
    (rdBit (sBus 4) Reg.QDR_PEER_FAULT 2 = false ∧ rdBit (regs [(Reg.QDR_PEER_FAULT, 4)] (sBus 4)) Reg.QDR_PEER_FAULT 2 = true ∧
      onBus (sBus 4) = true) ∧
    (busState (sBus 4) = 4 ∧ leaderNow (sBus 4) = 0 ∧ busState (sBus 1) ≠ 4) ∧
    (rdBit (sBus 4) Reg.QDR_STATUS 25 = false ∧ rdBit (sBus 0x02000004) Reg.QDR_STATUS 25 = true ∧ (sBus 0x02000004).pwr.state ≠ .run ∧
      (inStep0 (sBus 0x02000004)).pwr.state = .run ∧ aloneRole (sBus 0x02000004) = false ∧ busState s0 = 0) ∧
    ((sTurn 4 0).qdr.leadFrom = none ∧ (sTurn 4 1).beat / 16 % 32 = ownAddr (sTurn 4 1) ∧ (sTurn 4 1).qdr.departing = 1 ∧
      (sTurn 4 2).qdr.departing = 2 ∧ busState (sTurn 4 1) = 4 ∧ busState (sTurn 1 0) = 1 ∧ (sBus 4).beat / 16 % 32 ≠ ownAddr (sBus 4)) := by
  repeat' apply And.intro
  all_goals decide +kernel

/-! ### Chapter 13 -/

/-- Memory with a fence threshold of 4 and the registers given. -/
def sHbm (l : List (Nat × Word)) : State := regs ([(Reg.MEM_XFENCE_THRESH, 4)] ++ l) s0

/-- A copy to stack 1's spare runs, whose set is the one of address 64. -/
def sCopy : State := { sHbm [(Reg.MEM_STATUS, 0x200080), (Reg.MEM_SPARE_MAP, 0x8000)] with hbm := { copies := [(1, 0)] } }

/-- UNMIRRORED memory, with unit 2 poisoned. -/
def sPoison : State := { sHbm [(Reg.MEM_STATUS, 1)] with hbm := { poison := [(2, true)] } }

/-- Four uncorrectable errors of pseudo-channel 0 within the last second. -/
def sFourErrors : State := { sHbm [] with hbm := { errTimes := [(0, [0, 0, 0, 0])] } }

/-- A spare pseudo-channel reserved and not in use. -/
def sSpare : State := { s0 with img := { s0.img with active := { img1 with spares := { pc := 1 } } } }

theorem wit_MemoryErrorsAreHandled :
    inHbm s0 (2 ^ 47) = false ∧ inHbm (sHbm []) 64 = true ∧
    (stackOf sCopy 0 64 = 0 ∧ copyRuns sCopy 1 = true ∧ spareFor sCopy 1 = some (granuleSet 64) ∧ inHbm sCopy 64 = true) ∧
    (copyRuns (sHbm []) 1 = false ∧ keepsMirror (sHbm []) 64 = true) ∧
    (keepsMirror (sHbm [(Reg.MEM_STATUS, 1)]) 64 = false ∧ unitPoisoned (sHbm [(Reg.MEM_STATUS, 1)]) 64 = false ∧
      unitPoisoned sPoison 64 = true ∧ unitPoisoned sPoison 96 = false) ∧
    (rdN sFourErrors Reg.MEM_XFENCE_THRESH <
      ((tget (fun _ => []) sFourErrors.hbm.errTimes 0).filter (fun t => decide (sFourErrors.time < t + 100000000))).length + 1) := by
  repeat' apply And.intro
  all_goals decide +kernel

theorem wit_PseudoChannelsAreFenced :
    (pcFenced (sHbm [(Reg.MEM_PC_FENCED0, 8)]) 0 3 = true ∧ pcFenced s0 0 3 = false) ∧
    (copyRuns sCopy 1 = true ∧ pcFenced sCopy 1 31 = false) ∧
    (copyRuns s0 0 = false ∧ rdBit s0 Reg.MEM_STATUS 3 = false ∧ pcFenced s0 0 31 = false) ∧
    (spareReady sSpare 0 = true ∧ pcFenced sSpare 0 3 = false) ∧ spareReady s0 0 = false ∧
    (unmirrored sPoison = true ∧ stepRuns (inStep0 sPoison) = true ∧ stepRuns sPoison = false) ∧
    (rdBit sCopy Reg.MEM_STATUS 7 = true ∧ rdBit s0 Reg.MEM_STATUS 7 = false ∧ unmirrored sCopy = false) ∧
    inHbm (sHbm [(Reg.MEM_STATUS, 0x81)]) 64 = true ∧
    (refusalOf q0 Reg.MEM_OBJ_BASE_LO 0x40000000 s0 = none ∧ refusalOf q0 Reg.MEM_OBJ_BASE_HI 8 s0 = none ∧
      refusalOf q0 Reg.MEM_OBJ_BASE_LO 1 s0 = none) ∧
    refusalOf q0 Reg.MEM_XINJECT 0xC0000002 (expert sPoison) = none := by
  repeat' apply And.intro
  all_goals decide +kernel

/-- The arguments of a library command. -/
def sArg (id typ len off addr n : Nat) (s : State) : State :=
  regs [(Reg.LIB_ARG_ID, wd id), (Reg.LIB_ARG_TYPE, wd typ), (Reg.LIB_ARG_LEN_LO, wd (len % 4294967296)), (Reg.LIB_ARG_LEN_HI, wd (len / 4294967296)),
    (Reg.LIB_ARG_OFF_LO, wd off), (Reg.LIB_ARG_ADDR_LO, wd addr), (Reg.LIB_ARG_BYTES, wd n)] s

/-- Three objects: 5 resident, 8 open with 64 bytes, 9 lost. -/
def sLib (run : Option LibRun) : State :=
  { s0 with
    lib := { run := run
             objs := [(5, some { typ := 1, length := 256, written := 256, state := .sealed, base := some 0x1000 }),
               (6, some { typ := 2, length := 4096, written := 4096, state := .sealed }), (8, some { typ := 2, length := 128, written := 64 }),
               (9, some { typ := 2, length := 128, written := 128, state := .lost })] } }

/-- A WRITE of object 8, of `n` bytes at 64. -/
def wrRun (n : Nat) (e : Option Nat) : LibRun := { isRead := false, id := 8, off := 64, addr := 0x100, bytes := n, ending := e }
def rdRun (id : Nat) : LibRun := { isRead := true, id := id, off := 0, addr := 0x100, bytes := 16 }

def sWorn : State := { sArg 8 2 0 64 0x100 16 (sLib none) with lib := { (sLib none).lib with wear := [11200000000000] } }
def sLibRet : State := regs [(Reg.LIB_STATUS, 2)] (sArg 8 2 0 64 0x100 16 (sLib none))
def sPlay : State := { sArg 6 0 0 0 0 0 (sLib none) with src := { inPlay := [6, 5] } }

theorem wit_LibraryCommandsAreChecked :
    (refusalOf q0 Reg.LIB_CMD (wd 1) (sLib (some (rdRun 5))) = none ∧ (sLib (some (rdRun 5))).lib.run ≠ none) ∧
    (refusalOf q0 Reg.LIB_CMD 1 s0 = none ∧ s0.lib.run = none ∧ argId s0 = 0) ∧
    (argId (sArg 5 2 4096 0 0 0 (sLib none)) = 5 ∧ objOf (sLib none) 5 ≠ none ∧ argLen (sArg 5 2 4096 0 0 0 (sLib none)) = 4096) ∧
    (objOf (sLib none) 10 = none ∧ 2 ^ 41 < libUsed (sLib none) + argLen (sArg 10 2 (2 ^ 41 - 1) 0 0 0 (sLib none)) ∧
      libUsed (sLib none) + 4096 ≤ 2 ^ 41 ∧ libRetired (sLib none) = false ∧ libRetired sLibRet = true) ∧
    (refusalOf q0 Reg.LIB_CMD 2 (sArg 8 2 0 64 0x100 16 (sLib none)) = none ∧ inHbm s0 0x100 = true ∧ rangeMapped s0 0x100 16 = true ∧
      rangeMapped s0 (2 ^ 47) 16 = false ∧ writeRefusal (sLib none) 8 64 16 = none ∧ writeRefusal (sLib none) 10 0 16 = some 0x52) ∧
    (writeRefusal sWorn 8 64 16 = none ∧ 11200000000000 < sumN sWorn.lib.wear + 16 ∧ isSystemId 8 = false ∧ libRetired sWorn = false) ∧
    (isImageSlot 0xFFFFFF00 = true ∧ writeRefusal (sLib none) 0xFFFFFF00 0 16 = none) ∧
    (refusalOf q0 Reg.LIB_CMD 3 (sLib none) = none ∧ (objOf (sLib none) 9).map (·.state) = some .lost ∧
      (objOf (sLib none) 5).map (·.written) = some 256 ∧ inProtected (sLib none) 0x100 16 = false ∧
      inProtected (sLib none) 0x897FFFFF0 16 = true) ∧
    (refusalOf q0 Reg.LIB_CMD 4 sPlay = none ∧ isPinned sPlay 6 = true ∧ isPinned (sLib none) 6 = false) ∧
    (refusalOf q0 Reg.LIB_CMD 5 (sLib none) = none ∧ isResident (sLib none) 5 = true ∧ isResident (sLib none) 6 = false ∧
      6 ∉ (sLib none).src.inPlay ∧ 6 ∈ sPlay.src.inPlay) ∧
    (refusalOf q0 Reg.LIB_CMD 6 sPlay = none ∧ refusalOf q0 Reg.LIB_CMD 7 sPlay = none ∧ refusalOf q0 Reg.LIB_CMD 8 (sLib none) = none) := by
  repeat' apply And.intro
  all_goals decide +kernel

/-- Object 11, which has no DIGEST, waits to be staged, object 8 cannot be, and the DIGEST of object 6 does not verify. -/
def sStage : State :=
  { sLib none with
    lib := { (sLib none).lib with
      objs := (sLib none).lib.objs ++ [(11, some { typ := 10, length := 4096, written := 4096, state := .sealed })]
      queue := [{ id := 8 }, { id := 11, cmd := true }] } }
def sBadDigest : State := { sLib none with lib := { (sLib none).lib with queue := [{ id := 6 }] } }

/-- Blocks of a stripe set hold data, and the library is read-only with a block of the rescue reserve left. -/
def sPatrol (ret : Bool) : State :=
  let s := regs [(Reg.LIB_STATUS, wd (2 * b2n ret)), (Reg.LIB_RESCUE_LEFT, 3)] s0
  { s with lib := { s.lib with rows := [{ blocks := (List.range 16).map (fun k => 4 * k), filled := 1, units := [(5, 0)] }] } }

/-- An object longer than what the object area has left beside a pinned one. -/
def sNoRoom : State :=
  { s0 with
    lib := { objs := [(5, some { typ := 1, length := areaSize s0, state := .sealed, base := some (objBase s0) }),
               (11, some { typ := 10, length := 4096, state := .sealed })]
             queue := [{ id := 11 }], lru := [5] }
    src := { s0.src with inPlay := [5] } }

/-- New firmware for slot 1 is complete and waits to be checked. -/
def sFw : State :=
  { s0 with lib := { run := some { isRead := false, id := 0xFFFFFF11, off := 0, addr := 0, bytes := 64, ending := some 0 },
                     objs := [(0x1FFFFFF11, some { typ := 6, length := 64, state := .sealed })] } }

def sRebuild : State := { sLib none with lib := { (sLib none).lib with rebuilding := [1] } }

theorem wit_LibraryWorkProceeds :
    ((sLib (some (wrRun 64 none))).lib.run = some (wrRun 64 none) ∧ writePaused (sLib (some (wrRun 64 none))) = false ∧
      (sLib (some (wrRun 64 none))).hbm.inject = none ∧ rangePoisoned (sLib (some (wrRun 64 none))) 0x100 64 = false ∧
      objOf (sLib (some (wrRun 64 none))) (writeKey 8) ≠ none) ∧
    rangePoisoned { sLib (some (wrRun 64 none)) with hbm := { poison := [(8, true)] } } 0x100 64 = true ∧
    writePaused (inStep0 s0) = true ∧ s0.lib.run = none ∧
    ((sLib (some (rdRun 5))).lib.run = some (rdRun 5) ∧ (objOf (sLib (some (rdRun 5))) 5).map (·.state) = some .sealed ∧
      (objOf (sLib none) 9).map (·.state) = some .lost ∧ objOf (sLib none) 10 = none) ∧
    ((sLib (some (wrRun 64 (some 0)))).lib.run = some (wrRun 64 (some 0)) ∧ isCode 8 = false) ∧
    (isCode 0xFFFFFF11 = true ∧ (objOf sFw (writeKey 0xFFFFFF11)).map (·.state) = some .sealed ∧
      codeOk sFw 0xFFFFFF11 { typ := 6, length := 64, state := .sealed } crypto0 = false) ∧
    ((∀ r ∈ s0.lib.queue, stageReason s0 r.id ≠ 0) ∧ stageReason sStage 8 = 2 ∧ stageReason sStage 11 = 0 ∧ stageReason sStage 10 = 1) ∧
    ((serviceOrder sStage).find? (fun e => stageReason sStage e.id == 0 && verifies sStage e.id) = some { id := 11, cmd := true } ∧
      (makeRoom 4096 sStage.lib.lru sStage).1.isSome = true ∧ (makeRoom 4096 sNoRoom.lib.lru sNoRoom).1 = none ∧
      sNoRoom.lib.areaNoted = false) ∧
    (sStage.lib.queue.find? (fun e => e.id == 8) = some { id := 8 } ∧ sStage.lib.queue.find? (fun e => e.id == 11) = some { id := 11, cmd := true }) ∧
    (sBadDigest.lib.queue.find? (fun e => e.id == 6) = some { id := 6 } ∧ stageReason sBadDigest 6 = 0 ∧ hasDigest sBadDigest 6 = true ∧
      verifies sBadDigest 6 = false) ∧
    (rdN (sPatrol true) Reg.LIB_XREFRESH_THRESH < 2000 ∧ rescueLasts (sPatrol true) = true ∧ libRetired (sPatrol true) = true ∧
      rescueLasts (regs [(Reg.LIB_RESCUE_LEFT, 0)] (sPatrol true)) = false ∧ libRetired (sPatrol false) = false) ∧
    (rdN s0 Reg.LIB_POOL_LEFT ≠ 0 ∧ rdN (regs [(Reg.LIB_POOL_LEFT, 0)] s0) Reg.LIB_POOL_LEFT = 0 ∧ libRetired s0 = false ∧ libRetired sLibRet = true ∧
      100 * (1024 - 0) ≤ 25 * rdN s0 Reg.LIB_POOL_INIT ∧ 100 * 204 ≤ 5 * rdN s0 Reg.LIB_POOL_INIT) ∧
    (1 ∈ sRebuild.lib.rebuilding ∧ 1 ∉ s0.lib.rebuilding ∧ rdN sRebuild Reg.LIB_POOL_LEFT ≤ 4096) := by
  repeat' apply And.intro
  all_goals decide +kernel

/-! ### Chapter 14 -/

/-- A task descriptor of flow `f`. -/
def desc0 (f : Nat) : List Byte := leBytes 8 0 ++ leBytes 2 f ++ leBytes 2 0 ++ List.replicate 52 0

/-- A task of flow 2 on list 3. -/
def task0 (p : TaskAt) : Task := { desc := desc0 2, flow := 2, list := 3, seq := 0, epoch := 1, place := p }

def core0 : Core := { held := false, mtvec := 0x40 }

/-- Flow 2 on list 3 of priority 4, on which core 5 works, and list 1 of priority 0; the core and the tasks given. -/
def sCore (c : Core) (ts : Tbl (Option Task)) (rl : Tbl (List Nat)) : State :=
  regs [(Reg.SCH_FLOW_CFG 2, 0x04031010), (Reg.SCH_LIST_CFG 3, 0x00100104), (Reg.SCH_LIST_CORES_LO 3, 0x20), (Reg.SCH_LIST_CFG 1, 0x00100100),
    (Reg.SCH_LIST_CORES_LO 1, 0x20)]
    { s0 with sch := { tasks := ts, ready := rl, cores := [(5, c)] } }

/-- Core 5 has a task in its slot; runs one; runs none. -/
def sSlot : State := sCore core0 [(0, some (task0 (.slot 5)))] []
def sRuns : State := sCore core0 [(0, some (task0 (.running 5)))] []
def sBare (c : Core) : State := sCore c [] []

/-- A write buffer and a dirty line that name one address. -/
def sDirty : State := sBare { core0 with buffer := [(0x100, 1), (0x101, 2)], dirty := [(0x100, 3)] }

/-- A store in the write buffer names an address of the object area. -/
def sFenced : State := sBare { core0 with buffer := [(0x100, 1), (window0End - 1, 2)] }

/-- The descriptor of the host's registers names flow 2, or the core's register names one in memory. -/
def sHostSub : State := regs [(Reg.SCH_SUB 2, 2)] (sBare core0)
def sCoreSub : State :=
  setMemWords 0x1000 [0, 0, 2] (sBare { core0 with x := [(7, 0x1000)] })

theorem wit_CoresRunTheirInstructions :
    coreRuns s0 5 = false ∧ coreRuns (sBare core0) 5 = true ∧ (coreRuns sDirty 5 = true ∧ (coreOf sDirty 5).buffer ≠ [] ∧ protectedStore sDirty 5 = none) ∧
    (coreRuns sFenced 5 = true ∧ protectedStore sFenced 5 = some (window0End - 1)) ∧
    (coreRuns (sBare { core0 with user := true }) 5 = true ∧ (coreOf (sBare { core0 with user := true }) 5).user = true) ∧
    ((coreOf sSlot 5).user = false ∧ inSlot (sBare core0) 5 = none ∧ inSlot sSlot 5 = some (0, task0 (.slot 5)) ∧
      taskAt sSlot 0 = some (task0 (.slot 5))) ∧
    (coreRuns sRuns 5 = true ∧ runningOn sRuns 5 = some (0, task0 (.running 5)) ∧ runningOn (sBare core0) 5 = none) ∧
    ((List.range 64).all (fun n => !(flagPending sCoreSub n)) = true ∧ submitStatus sCoreSub (readBytes sCoreSub (coreX sCoreSub 5 7) 64) = 0 ∧
      submitStatus (sBare core0) (readBytes (sBare core0) (coreX (sBare core0) 5 7) 64) ≠ 0) ∧
    (refusalOf q0 Reg.SCH_SUB_GO 1 sHostSub = none ∧ submitStatus sHostSub (hostDescriptor sHostSub) = 0 ∧
      submitStatus (sBare core0) (hostDescriptor (sBare core0)) ≠ 0) := by
  repeat' apply And.intro
  all_goals decide +kernel

/-- Template 3 of flow 2 is flagged. -/
def sTpl (ts : Tbl (Option Task)) : State :=
  let s := regs [(Reg.SCH_FLAG_PEND_LO, 8), (Reg.SCH_DFLAG 3, 9)] (sCore core0 ts [])
  { s with sch := { s.sch with templates := [(3, desc0 2)] } }

/-- Task 0 is first of list 3. -/
def sHead (c : Core) (ts : Tbl (Option Task)) : State := sCore c ([(0, some (task0 .ready))] ++ ts) [(3, [0])]

/-- A task of list 1 runs on core 5, and one waits in its slot. -/
def low (p : TaskAt) : Task := { task0 p with list := 1 }
def sPre (c : Core) : State := sHead c [(1, some (low (.running 5)))]
def sPreSlot : State := sHead core0 [(1, some (low (.running 5))), (2, some (low (.slot 5)))]

/-- A task of the same list runs on core 5, whose slot is empty. -/
def sSame : State := sHead core0 [(1, some (task0 (.running 5)))]

/-- An idle core takes what another has in its slot. -/
def sSteal : State :=
  { sCore { core0 with waiting := some 1 } [(0, some (task0 (.slot 6))), (1, some (task0 (.running 6)))] [] with
    trg := {} }

def sCoreSpare (c : Core) : State := { sBare c with img := { s0.img with active := { img1 with spares := { core := 1 } } } }

theorem wit_DispatcherPlacesAndReleases :
    ((List.range 64).all (fun n => !(flagPending s0 n)) = true ∧ flagPending (sTpl []) 3 = true ∧
      (List.range 64).all (fun n => n == 3 || !(flagPending (sTpl []) n)) = true ∧ templateOf (sTpl []) 3 = some (desc0 2) ∧
      submitStatus (sTpl []) (templateDesc (sTpl []) 3 (desc0 2)) = 0) ∧
    submitStatus (regs [(Reg.SCH_STATUS, 2)] (sTpl [])) (templateDesc (sTpl []) 3 (desc0 2)) ≠ 0 ∧
    ((headsInOrder s0).isEmpty = true ∧ (stealSlot s0).isNone = true ∧ (headsInOrder sSteal).isEmpty = true ∧ (stealSlot sSteal).isSome = true) ∧
    (headsInOrder (sHead core0 []) = [(3, 0)] ∧ caseIdle (sHead core0 []) 3 = some 5 ∧ (coreOf (sHead core0 []) 5).waiting = none ∧
      caseIdle (sHead { core0 with waiting := some 7 } []) 3 = some 5) ∧
    (headsInOrder (sPre core0) = [(3, 0)] ∧ caseIdle (sPre core0) 3 = none ∧ casePreempt (sPre core0) 3 (listPrio (sPre core0) 3) = some 5 ∧
      casePreempt sPreSlot 3 4 = some 5 ∧ inSlot sPreSlot 5 = some (2, low (.slot 5))) ∧
    ((sPre { core0 with mie := 0x10000, statusMie := true }).sch.cores = [(5, { core0 with mie := 0x10000, statusMie := true })]) ∧
    (caseIdle sSame 3 = none ∧ casePreempt sSame 3 4 = none ∧ caseSlot sSame 3 4 = some 5) ∧
    ((coreOf (sCore { core0 with preempt := true } [(0, some (task0 (.running 5)))] []) 5).preempt = true ∧ runningOn sRuns 5 ≠ none ∧
      (coreOf sRuns 5).preempt = false) ∧
    (refusalOf q0 Reg.SCH_CMD (wd (256 * 3 + 1)) (sHead core0 []) = none ∧ tasks (sHead core0 []) = [(0, task0 .ready)] ∧
      (tasks sRuns).all (fun e => e.2.place == .running 5) = true) ∧
    (refusalOf q0 (Reg.SCH_FLOW_RD 2) 0 sRuns = none ∧ releasable sRuns 2 = [] ∧
      flowRing sRuns 2 < sub32 (rdN (regs [(Reg.SCH_FLOW_WR 2, 17)] sRuns) (Reg.SCH_FLOW_WR 2)) 0) ∧
    ((tasks (sCore core0 [(0, some (task0 .finished))] [])).filter (fun e => e.2.flow == 2) = [(0, task0 .finished)] ∧
      sub32 15 0 < flowRing sRuns 2) ∧
    ((coreOf (sBare { core0 with fenced := true }) 5).fenced = true ∧ (coreOf (sBare { core0 with onSpare := true }) 5).onSpare = true ∧
      (coreOf (sBare { core0 with takeover := true }) 5).takeover = true ∧ coreSpares (sCoreSpare core0) ≠ 0 ∧ coreSpares (sBare core0) = 0) := by
  repeat' apply And.intro
  all_goals decide +kernel

/-! ### Chapter 15 -/

/-- An instruction of a DMA program: its first bytes, then zeros. -/
def dins (l : List Byte) : List Byte := padTo 32 0 l

/-- A MOVE of 128 bytes from 0x200 to 0x400, a LOOP, a WAIT on memory and on line 5, SIGNALs and END. -/
def iMove : List Byte := dins (leBytes 4 1 ++ leBytes 4 128 ++ leBytes 8 0x200 ++ leBytes 8 0x400)
def iLoop : List Byte := dins (leBytes 2 2 ++ leBytes 2 3 ++ leBytes 4 256 ++ leBytes 4 256 ++ leBytes 2 1 ++ leBytes 8 0 ++ leBytes 2 1)
def iWait (line tmo : Nat) : List Byte := dins ([3, BitVec.ofNat 8 line, 5, 0] ++ leBytes 4 tmo ++ leBytes 8 0x200 ++ leBytes 8 0xFF)
def iSig (kind n : Nat) : List Byte := dins ([4, BitVec.ofNat 8 kind, BitVec.ofNat 8 n, 0, 0, 0, 0, 0] ++ leBytes 8 0x600 ++ leBytes 8 77)
def iSigAt (d : Nat) : List Byte := dins ([4, 1, 0, 0, 0, 0, 0, 0] ++ leBytes 8 d ++ leBytes 8 77)
def iEnd : List Byte := dins [15]
def iNop : List Byte := dins [0]

/-- Channel 3 in state `st` with the run given, its simple descriptor a move of 64 bytes; its program at 0x1000 is NOP and END. -/
def sDma (st : Word) (r : Option DmaRun) : State :=
  setBytes 0x1020 iEnd (regs [(Reg.DMA_CH_STATUS 3, st), (Reg.DMA_CH_LEN 3, 64), (Reg.DMA_CH_SRC_LO 3, 0x200), (Reg.DMA_CH_DST_LO 3, 0x400),
    (Reg.DMA_XCH_PROG_LO 3, 0x1000), (Reg.DMA_XCH_PCOUNT 3, 2), (Reg.DMA_CQ_SIZE, 4), (Reg.DMA_CQ_BASE_LO, 0x800)]
    { s0 with img := { s0.img with active := img1, loaded := true }, dma := { runs := [(3, r)] } })

/-- Channel 3 runs a program. -/
def sDmaAt (p : List (List Byte)) : State := sDma 2 (some { prog := p, pattern := noPattern })
def sWaits (line tmo : Nat) : State := sDma 3 (some { prog := [iWait line tmo], waiting := true, pattern := noPattern })

/-- A move of 128 bytes that has issued `n` of its two beats. -/
def move0 (bs : List DmaBeat) (done : Bool) : DmaMove :=
  { len := 128, src := 0x200, dst := 0x400, levels := noPattern, elem := b2n done, off := if done then 0 else 64 * bs.length, beats := bs }
def sMoving (bs : List DmaBeat) (done simple : Bool) : State :=
  sDma 2 (some { prog := [iMove, iEnd], simple := simple, pattern := noPattern, move := some (move0 bs done) })

def beatA : DmaBeat := { addr := 0x400, len := 64 }
def beatB : DmaBeat := { addr := 0x440, len := 64 }

/-- Object 5, in play, lies at 0x400. -/
def played (s : State) : State :=
  { s with lib := { s.lib with objs := [(5, some { typ := 1, length := 64, state := .sealed, base := some 0x400 })] },
           src := { s.src with inPlay := [5] } }

/-- The channel's program is wanted. -/
def want3 (s : State) : State := regs [(Reg.DMA_XCH_MODE 3, 1)] s

theorem wit_DmaProgramsRun :
    (refusalOf q0 (Reg.DMA_CH_CMD 3) 1 (sDma 6 none) = none ∧ dmaState (sDma 6 none) 3 = 6 ∧ dmaState (sDma 2 none) 3 = 2) ∧
    (dmaState (want3 (sDma 0 none)) 3 = 0 ∧ rdBit (want3 (sDma 0 none)) (Reg.DMA_XCH_MODE 3) 0 = true ∧ programReason (want3 (sDma 0 none)) 3 = 0) ∧
    (rdBit (sDma 0 none) (Reg.DMA_XCH_MODE 3) 0 = false ∧ simpleReason (sDma 0 none) 3 = 0) ∧
    (programReason (regs [(Reg.DMA_XCH_PCOUNT 3, 1)] (want3 (sDma 0 none))) 3 = 3 ∧
      simpleReason (regs [(Reg.DMA_CH_LEN 3, 62)] (sDma 0 none)) 3 = 5) ∧
    (refusalOf q0 (Reg.DMA_CH_CMD 3) 2 (sDmaAt [iNop]) = none ∧ (dmaRun (sDmaAt [iNop]) 3).isSome = true) ∧
    ((dmaRun (sDma 2 (some { simple := true, pattern := noPattern })) 3).any (fun r => r.simple && r.move.isNone) = true) ∧
    (insInForce (sDmaAt [iMove]) 3 = some iMove ∧ insOp iMove = 1 ∧ (dmaRun (sDmaAt [iMove]) 3).map (·.pc) = some 0) ∧
    (insInForce (sDmaAt [iLoop]) 3 = some iLoop ∧ insOp iLoop = 2) ∧ (insInForce (sDmaAt [iWait 1 0]) 3 = some (iWait 1 0) ∧ insOp (iWait 1 0) = 3) ∧
    (insOp (iSig 0 63) = 4 ∧ insN (iSig 0 63) 1 1 = 0 ∧ insN (iSig 0 63) 2 1 < 64 ∧ insN (iSig 1 0) 1 1 = 1 ∧ 2 ≤ insN (iSig 2 0) 1 1 ∧
      insInForce (sDmaAt [iSig 0 63]) 3 = some (iSig 0 63)) ∧
    (insInForce (sDmaAt [iSigAt 0x400]) 3 = some (iSigAt 0x400) ∧ insN (iSigAt 0x400) 1 1 = 1 ∧ insN (iSigAt 0x400) 8 8 = 0x400 ∧
      inProtected (sDmaAt [iSigAt 0x400]) 0x400 8 = false ∧ inItcm 0x400 = false ∧ inTaskWindow 0x400 = false ∧
      touchesPlay (sDmaAt [iSigAt 0x400]) 0x400 8 = false ∧ touchesPlay (played (sDmaAt [iSigAt 0x400])) 0x400 8 = true ∧
      insN (iSigAt 0x100010000000) 8 8 = 0x100010000000 ∧ inItcm 0x100010000000 = true) ∧
    (insInForce (sDmaAt [iEnd]) 3 = some iEnd ∧ insOp iEnd = 0x0F) ∧ (insInForce (sDmaAt [iNop]) 3 = some iNop ∧ insOp iNop = 0) ∧
    insInForce (sDma 0 none) 3 = none := by
  repeat' apply And.intro
  all_goals decide +kernel

/-- Channel 3 with a record to write, final or not, and the ring full or not. -/
def sRecs (final full : Bool) : State :=
  regs [(Reg.DMA_CQ_WR, if full then 4 else 3)]
    (sDma 4 (some { simple := true, recs := [{ status := 0, final := final, moved := 64, good := 64, addr := 0, pc := 0 }] }))

/-- One free engine. -/
def sFreeEngine : State :=
  let s := sDmaAt [iNop]
  { s with img := { s.img with active := { img1 with spares := { dmaFree := 1 } } } }

theorem wit_DmaRunsMoveAndEnd :
    (waitOf (sWaits 0 0) 3 = some (iWait 0 0) ∧ insN (iWait 0 0) 1 1 = 0 ∧ (sWaits 0 0).hbm.inject = none ∧
      rangePoisoned (sWaits 0 0) (insN (iWait 0 0) 8 8) 8 = false ∧ waitHolds (sWaits 0 0) (iWait 0 0) = true ∧
      waitHolds (setBytes 0x200 [1] (sWaits 0 0)) (iWait 0 0) = false ∧
      rangePoisoned { sWaits 0 0 with hbm := { poison := [(16, true)] } } (insN (iWait 0 0) 8 8) 8 = true) ∧
    (insN (iWait 1 9) 1 1 = 1 ∧ insN (iWait 1 9) 4 4 ≠ 0 ∧ insN (iWait 1 0) 4 4 = 0 ∧ waitOf (sDma 0 none) 3 = none) ∧
    (pickChannel (sDma 0 none) [] = none ∧ pickChannel (sMoving [] false true) [] = some (3, false) ∧
      preemptArb { sMoving [] false true with img := { s0.img with loaded := false } } = true ∧
      pickChannel { sMoving [] false true with img := { s0.img with loaded := false } } [] = some (3, false)) ∧
    (touchesPlay (sMoving [] false true) 0x400 64 = false ∧ inProtected (sMoving [] false true) 0x400 64 = false ∧ inItcm 0x400 = false ∧
      inTaskWindow 0x400 = false ∧ touchesPlay (played (sMoving [] false true)) 0x400 64 = true ∧
      inProtected (sMoving [] false true) (window0End - 64) 64 = true) ∧
    (dmaRun (sMoving [beatA, beatB] true true) 3 ≠ none ∧ moveIssued (move0 [beatA, beatB] true) = true ∧ moveIssued (move0 [beatA] false) = false ∧
      (goodPrefix 0 ([{ beatA with answer := some true }, beatB])).2 = [beatB] ∧
      (goodPrefix 0 ([{ beatA with answer := some true }, { beatB with answer := some true }])).2 = []) ∧
    (cqFull (sRecs true true) = true ∧ cqFull (sRecs true false) = false ∧ (dmaRun (sRecs false false) 3).map (·.recs.length) = some 1) ∧
    (refusalOf q0 Reg.DMA_CQ_RD 0 (sRecs true true) = none ∧ sub32 (rdN (sRecs true true) Reg.DMA_CQ_WR) 0 ≤ rdN (sRecs true true) Reg.DMA_CQ_SIZE ∧
      rdN (sRecs true true) Reg.DMA_CQ_SIZE < sub32 (rdN (sRecs true true) Reg.DMA_CQ_WR) 5) ∧
    (dmaState (sDma 5 none) 3 = 5 ∧ (freeEngines sFreeEngine).getLast? = some 31 ∧ (freeEngines (sDmaAt [iNop])).getLast? = none ∧
      dmaState (sDmaAt [iNop]) 3 = 2) := by
  repeat' apply And.intro
  all_goals decide +kernel

/-! ### Chapter 16 -/

/-- A message of session `id` under the number `n`; one whose TAG fails; one under an epoch that has passed. -/
def hd (id : Word) (n : Nat) : Hdr := ⟨id, true, n, 0, 0, 64, 0⟩
def hdBad : Hdr := { hd 8 1 with authOk := false }
def hdOld (id : Word) (n : Nat) : Hdr := { hd id n with epoch := 7 }

/-- Sessions 0 and 1 open, of which `own` owns; slot 3 challenged. -/
def sNet (own : Option Nat) : State :=
  { s0 with
    net := { s0.net with
             owner := own
             sess := [(0, { phase := .opened, id := 8, prio := 3, rx := 2, cache := [{ reqSeq := 2, status := 0, done := 0, data := [] }] }),
               (1, { phase := .opened, id := 9, prio := 1, hostId := 5, rx := 2 }),
               (3, { phase := .challenged, id := 11, rx := 1, unacked := [{ seq := 1, epoch := 0, body := .challenge [] }] })] } }

/-- No slot is free. -/
def sFullNet : State :=
  { s0 with net := { s0.net with sess := (List.range 8).map (fun i => (i, { phase := .opened, id := wd (8 + i), prio := 0 })) } }

def sNoPort : State := { sNet (some 0) with net := { (sNet (some 0)).net with port0 := {} } }

theorem wit_SessionsOpenAndNumber :
    (portListens sNoPort 0 = false ∧ portListens (sNet (some 0)) 0 = true) ∧
    ((List.range 8).all (fun j => (sessOf sFullNet j).phase != .free) = true ∧ portListens sFullNet 0 = true) ∧
    ((sessOf (sNet none) 2).phase = .free ∧ (List.range 2).all (fun i => (sessOf (sNet none) i).phase != .free) = true) ∧
    ((sessOf (sNet none) (slotOfId 11)).phase = .challenged ∧ (sessOf (sNet none) (slotOfId 11)).id = (hd 11 2).session ∧ (hd 11 2).seq = 2 ∧
      hostAdmitted (sNet none) 0 = true ∧ hostAdmitted { sNet none with sec := { s0.sec with state := .sealed } } 0 = false ∧
      (sessOf (sNet none) 3).waiting = []) ∧
    (sessOf (sNet none) 0).phase = .opened ∧
    ((sessOf (sNet none) (slotOfId 8)).id = (hd 8 3).session ∧ (sessOf (sNet none) 0).unacked.isEmpty = true ∧
      (sessOf (sNet none) 0).held = [] ∧ (hd 8 3).seq = (sessOf (sNet none) 0).rx + 1 ∧ commitOpen (sNet none) 0 = false) ∧
    (hdBad.authOk = false ∧ (hd 8 2).seq ≤ (sessOf (sNet none) 0).rx ∧
      (sessOf (sNet none) 0).cache.find? (fun r => r.reqSeq == (hd 8 2).seq) = some { reqSeq := 2, status := 0, done := 0, data := [] }) ∧
    ((sessOf (sNet none) 0).rx + 1 < (hd 8 66).seq ∧ (hd 8 66).seq ≤ (sessOf (sNet none) 0).rx + 64 ∧
      ¬(hd 8 67).seq ≤ (sessOf (sNet none) 0).rx + 64) ∧
    ((sessOf (sNet none) 3).unacked.any (fun m => m.seq == 1) = true ∧ (sessOf (sNet none) 3).unacked.any (fun m => m.seq == 2) = false) := by
  repeat' apply And.intro
  all_goals decide +kernel

/-- Session 0 owns, with the network's own memory protected as always; a grave condition; the recovery. -/
def sOwn : State := sNet (some 0)
def sGraveNet : State := { sOwn with flt := { s0.flt with grave := true } }
def sElect (cs : List (Nat × Nat)) : State := { sNet none with net := { (sNet none).net with electing := true, cands := cs } }
def sOffer (k : Nat) : State := { sOwn with net := { sOwn.net with offer := some { slot := k, reqSeq := 2 } } }
def sStanding : State :=
  { sOwn with net := { sOwn.net with sess := [(0, { phase := .opened, id := 8, rx := 2 }), (1, { phase := .opened, id := 9, rx := 2, standing := true })] } }

theorem wit_RegisterAndMemoryRequestsAct :
    (portListens sOwn 0 = true ∧ (sessOf sOwn (slotOfId 8)).phase = .opened ∧ (sessOf sOwn 0).id = (hd 8 3).session ∧
      (hd 8 3).seq = (sessOf sOwn 0).rx + 1 ∧ (sessOf sOwn 0).held = [] ∧ (sessOf sOwn 0).waiting = [] ∧ (sessOf sOwn 0).unacked.isEmpty = true ∧
      commitOpen sOwn 0 = false) ∧
    (mappedRead sOwn 0xFFF0000 = false ∧ mappedRead sOwn Reg.TEL_CTRL = true ∧ (hdOld 8 3).epoch ≠ epochNow sOwn) ∧
    (dapOnly Reg.DBG_REQ = true ∧ refusalOf q0 (Reg.LNK_PHY_XCTRL_A 0) 0 sOwn = some 0x03) ∧
    (refusalOf q0 Reg.TBF_EVENTS 1 sOwn = none ∧ hasOwnEffect Reg.TBF_EVENTS = false ∧ blockOf Reg.TBF_EVENTS ≠ 0x60 ∧
      refusalOf q0 Reg.TBF_SLACK_WARN 299 sOwn = none ∧ outOfRange Reg.TBF_SLACK_WARN 299 = true ∧ outOfRange Reg.TBF_SLACK_WARN 300 = false) ∧
    (memReqOk sOwn 2 8 = false ∧ memReqOk sOwn 0x100 8 = true ∧ sOwn.hbm.inject = none ∧ rangePoisoned sOwn 0x100 8 = false ∧
      rangePoisoned { sOwn with hbm := { poison := [(8, true)] } } 0x100 8 = true) ∧
    (sOwn.net.owner = some 0 ∧ (sNet none).net.owner ≠ some 0 ∧ touchesPlay sOwn 0x100 8 = false ∧ touchesPlay (played sOwn) 0x400 8 = true ∧ inProtected sOwn 0x100 8 = false ∧
      inItcm 0x100 = false ∧ inTaskWindow 0x100 = false ∧ inProtected sOwn 0x897FFFFF8 8 = true ∧ memReqOk sOwn 0x897FFFFF8 8 = true ∧
      sGraveNet.flt.grave = true ∧ sOwn.flt.grave = false) := by
  repeat' apply And.intro
  all_goals decide +kernel

theorem wit_OwnershipMoves :
    ({ sOwn with sec := { s0.sec with state := .retired } }.sec.state = .retired ∧ sOwn.sec.state ≠ .retired) ∧
    ((hdOld 8 3).epoch ≠ 0 ∧ (hdOld 8 3).epoch ≠ epochNow sOwn) ∧
    ((sElect []).net.electing = true ∧ isCand (sElect [(1, 2)]) 1 = true ∧ isCand (sElect []) 1 = false ∧ (sNet none).net.electing = false ∧
      (sNet none).net.owner = none ∧ sOwn.net.owner = some 0 ∧ (0 : Nat) ≠ slotOfId 9) ∧
    ((sessOf sOwn (slotOfId 9)).phase = .opened ∧ (sessOf sOwn (slotOfId 9)).id = 9 ∧ slotOfId 9 ≠ slotOfId 8 ∧
      (sessOf sOwn (slotOfId 10)).phase ≠ .opened) ∧
    ((sOffer 1).net.offer = some { slot := 1, reqSeq := 2 } ∧ sOwn.net.offer = none ∧ slotOfId 9 = 1 ∧ (sessOf (sOffer 1) 1).id = 9) ∧
    ((sessOf sStanding 1).standing = true ∧ (sessOf sOwn 1).standing = false ∧ isCand sOwn 1 = false) ∧
    ((candidates (sElect [])).isEmpty = true ∧ (candidates (sElect [(1, 2), (0, 2)])).isEmpty = false) := by
  repeat' apply And.intro
  all_goals decide +kernel

/-- A request for an EVENT stream and for a RING stream of acquisition unit 0's ring 0. -/
def rqEvent (c rate : Nat) : StreamReq := ⟨1, c, rate, 0, 0, 0, 0, 0⟩
def rqRing : StreamReq := ⟨3, 4, 0, 0x1000, 64, 1024, Reg.ACQ_R_WR 0 0, Reg.ACQ_R_RD 0 0⟩

/-- Session 0 owns and holds stream 0 with the credit and the records given. -/
def sStream (c : Nat) (rs : List Rec) : State :=
  { sOwn with
    img := { s0.img with active := img1, loaded := true }
    net := { sOwn.net with streams := [{ num := 0, holder := some 0, ofOwner := true, kind := 1, credit := c, rate := 0, recs := rs }] } }

def rec0 : Rec := { epoch := 0, words := [1, 2, 3, 4] }

/-- A telemetry record waits behind another record, and one was discarded before it. -/
def sMarked : State :=
  let s := sStream 1 [rec0, { epoch := 0, words := [0x54, 2, 3, 4] }]
  { s with net := { s.net with streams := s.net.streams.map (fun e => { e with telDropped := true }) } }

theorem wit_StreamsMoveCreditAndRecords :
    (portListens (sStream 1 []) 0 = true ∧ (sessOf (sStream 1 []) 0).phase = .opened ∧ (hd 8 3).seq = (sessOf (sStream 1 []) 0).rx + 1 ∧
      (sessOf (sStream 1 []) 0).held = [] ∧ (sessOf (sStream 1 []) 0).waiting = [] ∧ commitOpen (sStream 1 []) 0 = false) ∧
    (ringReadOf rqRing.wrReg = some rqRing.rdReg ∧ (rowOf rqRing.wrReg).isSome = true ∧ (rowOf rqRing.rdReg).isSome = true ∧
      ringReadOf 0 ≠ some rqRing.rdReg ∧ rqRing.recSize % 4 = 0) ∧
    (rdFld sOwn Reg.IMG_STATUS 1 0 ≠ 1 ∧ rdFld (regs [(Reg.IMG_STATUS, 1)] sOwn) Reg.IMG_STATUS 1 0 = 1 ∧ sOwn.pwr.recovery = false) ∧
    (sOwn.net.streams.isEmpty = true ∧ (rqEvent 5 0).rate + sumN (sOwn.net.streams.map (·.rate)) ≤ ethReserved sOwn ∧
      ¬(rqEvent 5 1).rate + sumN (sOwn.net.streams.map (·.rate)) ≤ ethReserved sOwn) ∧
    (((sStream 1 []).net.streams.filter (fun e => e.holder == some 0 && e.kind == 1)).length = 1) ∧
    ((streamOf (sStream 1 [rec0]) 0).any (fun e => e.holder == some 0 && decide (0 < e.credit) && (waitingRecs (sStream 1 [rec0]) e).2 == [rec0]) = true ∧
      (streamOf (sStream 1 []) 1).isNone = true ∧ (streamOf (sStream 0 [rec0]) 0).any (fun e => e.credit == 0) = true ∧
      (streamOf sMarked 0).any (fun e => e.telDropped && (e.recs.map (·.words)).any isTelRecord) = true) := by
  repeat' apply And.intro
  all_goals decide +kernel

/-- The ports are not linked, and port 1 tries the lowest rate. -/
def sDown : State := { s0 with net := { s0.net with port0 := {}, port1 := { trying := 1 } } }

/-- The crystal oscillator has failed and no reference is in use. -/
def sBareRef : State := regs [(Reg.TBF_STATUS, 1)] { sDown with tb := { s0.tb with xoFailed := true } }

theorem wit_PortsAndHostTableAct :
    (sDown.pwr.mgmt = true ∧ sDown.pwr.inReset = false ∧ (portOf sDown 0).linked = 0 ∧ (portOf s0 0).linked ≠ 0 ∧ (portOf sDown 1).trying ≤ 1 ∧
      isFenced 0x11 0 sDown = false ∧ sBareRef.tb.xoFailed = true ∧ rdBit sBareRef Reg.TBF_STATUS 0 = true ∧ sDown.tb.xoFailed = false) ∧
    (portListens s0 0 = true ∧ portListens sDown 0 = false ∧ EthFrame.pause ∉ ([.neighbourDiscovery, .arp, .echo] : List EthFrame)) ∧
    (refusalOf q0 (portCfgReg 0) 0x07000000 s0 = none ∧ portOfCfg (portCfgReg 0) = some 0 ∧ (rowOf (portCfgReg 0)).isSome = true ∧
      fld 0x07000000 25 24 ≠ 0 ∧ fld 0 25 24 = 0 ∧ portOfCfg Reg.TEL_CTRL = none ∧ refusalOf q0 Reg.TEL_CTRL 1 s0 = none) ∧
    (refusalOf q0 Reg.NET_HOST_CMD 1 s0 = none ∧ refusalOf q0 Reg.NET_HOST_CMD 2 s0 = none ∧ refusalOf q0 Reg.NET_HOST_CMD 3 s0 = none) := by
  repeat' apply And.intro
  all_goals decide +kernel

/-! ### Chapter 17 -/

/-- Network time with PTP_STATUS `st`, an offset that slews, and the arguments of a domain command. -/
def sPtp (st : Word) (soff : Int) (a0 a2 : Word) : State :=
  regs [(Reg.PTP_STATUS, st), (Reg.PTP_D_ARG0 0, a0), (Reg.PTP_D_ARG2 0, a2), (Reg.PTP_D_INC_LO 0, 0), (Reg.PTP_STEP_MAX, 1000)]
    { s0 with ptp := { soff := soff, a := { count := 12 * secUnits + 7 * 4294967296 } } }

/-- Nine units are on the bus, or one. -/
def sNine (st : Word) : State := regs [(Reg.QDR_PRESENT, 0x1FF), (Reg.QDR_STRAP, 0), (Reg.QDR_STATUS, 4)] (sPtp st 0 0 0)

theorem wit_TimeOfDayIsSetAndRead :
    (refusalOf q0 (Reg.PTP_D_INC_HI 0) 10 (sPtp 0 0 0 0) = none ∧ 999000 * 2 ^ 32 ≤ 100000 * (2 ^ 32 * fld 10 7 0) ∧
      ¬999000 * 2 ^ 32 ≤ 100000 * (2 ^ 32 * fld 9 7 0)) ∧
    (refusalOf q0 (Reg.PTP_D_CMD 0) 1 (sPtp 0x40 0 1001 0) = none ∧ ptpSingle (sPtp 0x40 0 1001 0) = true ∧
      rdN (sPtp 0x40 0 1001 0) Reg.PTP_STEP_MAX < (1001 : Int).natAbs ∧ ¬rdN (sPtp 0x40 0 1000 0) Reg.PTP_STEP_MAX < (1000 : Int).natAbs) ∧
    (refusalOf q0 (Reg.PTP_D_CMD 0) 2 (sPtp 0x50 0 12 999999999) = none ∧ domainValid (sPtp 0x50 0 12 999999999) 0 = true ∧
      domainValid (sPtp 0x40 0 12 7) 0 = false ∧ 999999999 < rdN (sPtp 0 0 0 1000000000) (Reg.PTP_D_ARG2 0)) ∧
    (refusalOf q0 (Reg.PTP_D_CMD 0) 3 (sPtp 0x30 0 0 0) = none ∧ ptpSingle (sPtp 0x30 0 0 0) = false) ∧
    (refusalOf q0 Reg.PTP_CTRL 1 (sPtp 0 5 0 0) = none ∧ fld 1 0 0 ≠ ptpSel (sPtp 0 5 0 0) ∧ fld 0 0 0 = ptpSel (sPtp 0 5 0 0)) ∧
    ((sPtp 0 0 0 0).ptp.soff = 0 ∧ (sPtp 0 5 0 0).ptp.soff ≠ 0) ∧
    (rdBit (sPtp 0x80 0 0 0) Reg.PTP_STATUS 7 = true ∧ wantSingle (sPtp 0x80 0 0 0) = ptpSingle (sPtp 0x80 0 0 0) ∧
      wantSingle (sPtp 0xC0 0 0 0) ≠ ptpSingle (sPtp 0xC0 0 0 0) ∧ modeMayChange (sPtp 0xC0 0 0 0) = true ∧
      modeMayChange (inStep0 (sPtp 0xC0 0 0 0)) = false ∧ wantSingle (sNine 0x80) = true ∧ ptpSingle (sNine 0x80) = false) ∧
    (refusalOf q0 Reg.PTP_SNAP_CMD 1 s0 = none ∧ (List.range 4).all (fun i => mappedRead s0 (ptpTimeAddr i)) = true) := by
  repeat' apply And.intro
  all_goals decide +kernel

/-- The receive ring of `n` records at 0x1000, RX_EN set. -/
def sRx (n : Word) : State := regs [(Reg.PTP_CTRL, 2), (Reg.PTP_RX_SIZE, n), (Reg.PTP_RX_BASE_LO, 0x1000)] s0

/-- Launch queue 0 at 0x2000 with a descriptor of `len` bytes at 0x100 and the flags given, at time 12 s. -/
def sLq (flags len : Nat) : State :=
  setBytes 0x2000 (leBytes 8 0x100 ++ leBytes 2 len ++ leBytes 2 flags)
    (regs [(Reg.PTP_LQ_SIZE 0, 4), (Reg.PTP_LQ_WR 0, 1), (Reg.PTP_LQ_BASE_LO 0, 0x2000)] (sPtp 0 0 0 0))

theorem wit_TimedMessagesComeAndGo :
    (portLinked sDown 0 = false ∧ portLinked (sRx 4) 0 = true) ∧ rdBit s0 Reg.PTP_CTRL 1 = false ∧
    (rdBit (sRx 4) Reg.PTP_CTRL 1 = true ∧ rdN (sRx 0) Reg.PTP_RX_SIZE ≤ sub32 (rdN (sRx 0) Reg.PTP_RX_WR) (rdN (sRx 0) Reg.PTP_RX_RD) ∧
      ¬rdN (sRx 1) Reg.PTP_RX_SIZE ≤ sub32 (rdN (sRx 1) Reg.PTP_RX_WR) (rdN (sRx 1) Reg.PTP_RX_RD)) ∧
    (refusalOf q0 (Reg.PTP_LQ_WR 0) 4 (sLq 0 60) = none ∧ ¬rdN (sLq 0 60) (Reg.PTP_LQ_SIZE 0) < sub32 4 (rdN (sLq 0 60) (Reg.PTP_LQ_RD 0)) ∧
      rdN (sLq 0 60) (Reg.PTP_LQ_SIZE 0) < sub32 5 (rdN (sLq 0 60) (Reg.PTP_LQ_RD 0))) ∧
    (rdN s0 (Reg.PTP_LQ_WR 0) = rdN s0 (Reg.PTP_LQ_RD 0) ∧ rdN (sLq 0 60) (Reg.PTP_LQ_WR 0) ≠ rdN (sLq 0 60) (Reg.PTP_LQ_RD 0)) ∧
    (lqValid (sLq 0 60) (memN (sLq 0 60) 0x200A 1) (memN (sLq 0 60) 0x2008 2) (memN (sLq 0 60) 0x2000 8 % 2 ^ 48) = true ∧
      lqValid (sLq 0 59) 0 59 0x100 = false) ∧
    (bitN (memN (sLq 1 60) 0x200A 1) 0 = true ∧
      timeOfBytes (memBytes (sLq 1 60) 0x2010 12) + rdN (sLq 1 60) Reg.PTP_LATE_NS * 2 ^ 32 < tod (sLq 1 60) ∧
      bitN (memN (sLq 1 60) 0x200A 1) 1 = false ∧ bitN (memN (sLq 3 60) 0x200A 1) 1 = true) := by
  repeat' apply And.intro
  all_goals decide +kernel

/-! ### Chapter 18 -/

def fr (cls uc : Nat) : FaultRec := { cls := cls, unitClass := uc, unit := 0, cause := 3 }

/-- The collector handles one record, with others pre-empted and queued; and what it holds of units. -/
def sFlt (h : Option FaultRec) (ps qs : List FaultRec) : State :=
  { s0 with flt := { handling := h, preempted := ps, queue := qs, nextSeq := 0xFFFFFFFF } }
def sOne (one fen tests : List (Nat × Nat)) : State := { s0 with flt := { oneCopy := one, fenced := fen, tests := tests } }

/-- A spare datapath is in reserve. -/
def sDp : State := { sOne [] [] [(0x04, 3)] with img := { s0.img with active := { img1 with spares := { dp := 1 } } } }

theorem wit_FaultsAreReportedAndHandled :
    (s0.flt.held = [] ∧ s0.flt.handling = none) ∧
    ((sFlt (some (fr 1 2)) [] []).flt.handling = some (fr 1 2) ∧ (fr 1 2).cls < (3 : Fin 5).val ∧ (1 : Fin 5).val ≤ (fr 1 2).cls ∧
      (sFlt (some (fr 1 2)) [] (List.replicate 63 (fr 0 2))).flt.queue.length < 64 ∧
      64 ≤ (sFlt (some (fr 1 2)) [] (List.replicate 64 (fr 0 2))).flt.queue.length) ∧
    (graveLine 0x19 = true ∧ graveLine 0x02 = false) ∧
    (isFenced 0x15 3 (sOne [] [(0x15, 3)] []) = true ∧ isFenced 0x15 3 s0 = false ∧ onOneCopy 0x02 3 (sOne [(0x02, 3)] [] []) = true ∧
      onOneCopy 0x02 3 s0 = false ∧ (0x02 : Nat) ∈ ([0x02, 0x05, 0x06, 0x07, 0x08, 0x09, 0x0A, 0x0C, 0x0D] : List Nat)) ∧
    (channelOn s0 31 = some 31 ∧ (channelOn (regs [(Reg.DMA_CH_STATUS 31, 0)] s0) 31).isNone = true) ∧
    ((sFlt (some (fr 4 0x18)) [] []).flt.handling = some (fr 4 0x18) ∧ (sFlt (some (fr 3 2)) [] []).flt.handling = some (fr 3 2) ∧
      (sFlt (some (fr 2 2)) [fr 1 2] []).flt.preempted = [fr 1 2] ∧ (sFlt (some (fr 2 2)) [] [fr 0 2, fr 1 2]).flt.queue ≠ [] ∧
      (fr 2 2).takeover = false ∧ (fr 2 2).latched = false) ∧
    (refusalOf q0 Reg.FLT_XINJECT 0x02150003 (expert s0) = none ∧ ¬2 < fld 0x02150003 26 24 ∧ ¬unitCount (fld 0x02150003 23 16) ≤ fld 0x02150003 15 0 ∧
      unitCount 0x15 ≤ 16 ∧ 2 < fld 0x03150003 26 24) ∧
    refusalOf q0 Reg.FLT_ALERT 3 s0 = none ∧
    ((0x02, 3) ∈ (sOne [] [] [(0x02, 3)]).flt.tests ∧ (0x02, 3) ∉ s0.flt.tests ∧ (0x04, 3) ∈ sDp.flt.tests ∧ sDp.img.active.spares.dp ≠ 0 ∧
      sDp.mea.spareUsed = false ∧ stepRuns (inStep0 s0) = true ∧ stepRuns sDp = false) := by
  repeat' apply And.intro
  all_goals decide +kernel

/-- Three outward frames of group 0 are outstanding; ledger 2 is frozen. -/
def sLgr : State :=
  { regs [(Reg.LNK_FR_OUTSTANDING 0, 3)] s0 with lgr := { frozen := [(2, some { left := 1, right := 2, out := 3 })] } }

theorem wit_LedgersFreezeAndLatch :
    ((2 : Fin 16).val < 9 ∧ frozenView s0 2 = none ∧ (1 : Word) ≠ 2 ∧ ledgerBound 2 ≠ 0 ∧ ledgerBound 2 < (33 : Word).toNat ∧
      ¬ledgerBound 2 < (32 : Word).toNat ∧ ledgerBound 1 = 0) ∧
    (frozenView sLgr 2 ≠ none ∧ (8 : Fin 16).val < 9 ∧ ¬(9 : Fin 16).val < 9) ∧
    (deadlineRuns sLgr 0 = true ∧ frozenView sLgr 0 = none ∧ (liveView sLgr 0).out ≠ 0 ∧ deadlineRuns sLgr 1 = false ∧
      deadlineRuns (inStep0 sLgr) 0 = false) ∧
    (q0.authOk = true ∧ sessOpen s0 0 = true ∧ mappedRead s0 (Reg.LGR_LEFT 8) = true ∧ q0.epoch = 0) := by
  repeat' apply And.intro
  all_goals decide +kernel

/-! ### Chapter 19 -/

def pw (f : Power → Power) (s : State) : State := { s with pwr := f s.pwr }
def sOff : State := pw (fun p => { p with state := .off }) s0
def sInReset : State := pw (fun p => { p with inReset := true }) s0
def sRecovery (i : Option (Nat × Nat)) : State := pw (fun p => { p with recovery := true, install := i }) s0
def sStandby : State := pw (fun p => { p with state := .standby }) s0

/-- Firmware slot 0 is written and is not valid. -/
def sBadFw (s : State) : State := setObj 0xFFFFFF10 (some { typ := 6, length := 64, written := 64, state := .sealed }) s

/-- A sealed unit at a debug level, its session opened by a token or not, with its permissions. -/
def sDbg (st : SecState) (lev : Nat) (tok : Bool) (perms : Nat) : State :=
  { s0 with sec := { s0.sec with state := st }, dbg := { s0.dbg with level := lev, token := tok, perms := perms, ends := if tok then some 9 else none } }

/-- A Galop step runs. -/
def sGalop : State := pw (fun p => { p with galopStep := true }) (inStep0 s0)

theorem wit_PowerStatesChange :
    (sOff.pwr.state = .off ∧ s0.pwr.state ≠ .off ∧ s0.pwr.inReset = false ∧ sInReset.pwr.inReset = true ∧ sInReset.pwr.state ≠ .off) ∧
    (popcount 8 (0xFF : BitVec 8).toNat % 2 ≠ 1 ∧ popcount 8 (1 : BitVec 8).toNat % 2 = 1) ∧
    (pickFirmware s0 bw0 = some 0 ∧ (ucodeObj s0).written = 0 ∧ pickFirmware (sBadFw s0) bw0 = none ∧ pickFirmware (sBadFw sInReset) bw0 = none) ∧
    (s0.seq.step.isNone ∧ s0.net.openCmds = []) ∧
    (refusalOf q0 Reg.SYS_CMD 1 s0 = none ∧ refusalOf q0 Reg.SYS_RCMD 2 s0 = none ∧ s0.pwr.recovery = false ∧
      (sRecovery none).pwr.recovery = true ∧ refusalOf q0 Reg.SYS_RCMD 2 (sRecovery none) = none) ∧
    (refusalOf q0 Reg.SYS_RCMD (wd (256 * (255 : Fin 256).val + 1)) (sRecovery none) = none ∧
      refusalOf q0 Reg.SYS_RCMD (wd (256 * (2 : Fin 256).val + 1)) (sRecovery none) = none ∧
      (sRecovery none).pwr.install = none ∧ (sRecovery (some (2, 64))).pwr.install ≠ none) ∧
    (s0.pwr.install = none ∧ (sRecovery (some (2, 64))).pwr.install = some (2, 64) ∧ (sRecovery (some (1, 0))).pwr.install = some (1, 0)) ∧
    (refusalOf q0 Reg.PWR_CMD 1 s0 = none ∧ s0.pwr.state = .hold ∧ detachPhase s0 = 0 ∧ refusalOf q0 Reg.PWR_CMD 1 sStandby = none ∧
      (sDbg .sealed 2 true 0).sec.state = .sealed ∧ (sDbg .sealed 2 true 0).dbg.level = 2) ∧
    (refusalOf q0 Reg.PWR_CMD 2 sStandby = none ∧ sStandby.pwr.state = .standby) ∧
    (sGalop.pwr.galopStep = true ∧ sGalop.seq.step ≠ none ∧ sGalop.pwr.overrun = false ∧ s0.pwr.galopStep = false) := by
  repeat' apply And.intro
  all_goals decide +kernel

/-- A detach in the phase given. -/
def sPhase (n : Nat) (s : State) : State := setFld Reg.PWR_STATUS 10 8 n s

/-- A step whose lateness has a stage runs. -/
def sLate (s : State) : State := { s with seq := { s.seq with step := some { ctxs := [0], groups := [0], at_ := none, startBeat := 0 } } }

/-- A stream with one record to send stands open. -/
def sStr : State := sStream 4 [rec0]

/-- DMA channel 3 runs and the library writes. -/
def sBusy : State :=
  { sDma 2 (some { prog := [iMove, iEnd], pattern := noPattern }) with
    lib := { s0.lib with run := some { isRead := false, id := 5, off := 0, addr := 0x1000, bytes := 64 } } }

/-- Phase 3 waits for the comparison ledger. -/
def sBusy3 : State := regs [(Reg.CMP_DETECTED, 1), (Reg.CMP_INFLIGHT, 1)] s0

theorem wit_DetachProceedsInPhases :
    (refusalOf q0 Reg.SYS_CMD 2 s0 = none ∧ refusalOf q0 Reg.PWR_CMD 3 s0 = none ∧ detachPhase s0 = 0 ∧ s0.pwr.state ≠ .off ∧
      s0.pwr.inReset = false ∧ stageLate s0 = false ∧ stageLate (sLate s0) = true ∧ refusalOf q0 Reg.PWR_CMD 3 (sLate s0) = none ∧
      detachPhase (sPhase 5 s0) = 5 ∧ refusalOf q0 Reg.SYS_CMD 2 (sPhase 5 s0) = none) ∧
    (6 ≤ detachPhase (sPhase 6 s0) ∧ (sPhase 6 s0).flt.grave = false) ∧
    (detachPhase (sPhase 1 sRetrain) = 1 ∧ (sPhase 1 sRetrain).img.load ≠ .idle ∧ detachPhase (sPhase 1 s0) = 1 ∧ (sPhase 1 s0).img.load = .idle ∧
      (sPhase 1 sStandby).pwr.state = .standby ∧ (sPhase 1 s0).pwr.state ≠ .standby ∧ rdBit (regs [(Reg.PWR_CTRL, 3)] s0) Reg.PWR_CTRL 2 = false ∧
      rdBit (regs [(Reg.PWR_CTRL, 4)] s0) Reg.PWR_CTRL 2 = true) ∧
    (detachPhase (sPhase 2 (inStep0 s0)) = 2 ∧ stepRuns (sPhase 2 (inStep0 s0)) = true ∧ stepRuns (sPhase 2 s0) = false) ∧
    (detachPhase (sPhase 3 s0) = 3 ∧ ledgerDrained (sPhase 3 s0) 4 = true ∧ ledgerDrained (sPhase 3 s0) 5 = true ∧
      ledgerDrained (sPhase 3 s0) 6 = true ∧ ledgerDrained (sPhase 3 sBusy3) 4 = false) ∧
    (detachPhase (sPhase 4 sStr) = 4 ∧ (sPhase 4 sStr).net.streams.map (·.holder) = [some 0] ∧ allDrained (sPhase 4 s0) = true ∧
      allDrained (sPhase 4 sLgr) = false) ∧
    (detachPhase (sPhase 5 s0) = 5 ∧ (sPhase 5 s0).qdr.departing = 0 ∧ busState (regs [(Reg.QDR_STATUS, 6)] s0) = 6 ∧
      busState (sBus 4) ≠ 6 ∧ aloneRole (sBus 4) = false) ∧
    (detachPhase (sPhase 4 sBusy) = 4 ∧ dmaState sBusy 3 ∈ [1, 2, 3] ∧ (dmaRun sBusy 3).isSome = true ∧
      sBusy.lib.run.map (·.isRead) = some false) ∧
    (s0.pwr.state ≠ .detached ∧ (pw (fun p => { p with state := .detached }) s0).pwr.state = .detached ∧ pickFirmware (sBadFw s0) bw0 = none) := by
  repeat' apply And.intro
  all_goals decide +kernel
/-! ### Chapter 19, security and debug -/

/-- A unit in a security state with the registers of SEC_CMD as given, whose confirmation matches. -/
def sSec (st : SecState) (arg : Word) : State :=
  regs [(Reg.SEC_ARG, arg), (Reg.SEC_CONFIRM, rd s0 Reg.SYS_SERIAL_LO)]
    { s0 with sec := { s0.sec with state := st, slots := [(1, { enrolled := true })] }, net := { s0.net with hosts := [(0, { valid := true })] } }
def sSecBusy (c : Nat) (arg : Word) : State :=
  let s := sSec .open_ arg
  { s with sec := { s.sec with cmd := some { cmd := c, arg := arg, hash := List.replicate 8 0 } } }
def sWrong : State := regs [(Reg.SEC_CONFIRM, rd s0 Reg.SYS_SERIAL_LO + 1)] (sSec .blank 0)
def sSecRun : State := pw (fun p => { p with state := .run }) (sSec .open_ 0)

/-- SVN 0x3F of the image, above its floor and not carried by the object in force. -/
def argSvn : Word := 0x3F000000

theorem wit_SecurityCommandsBurnAndReport :
    ([(1, SecState.blank), (2, .open_), (3, .sealed), (4, .open_), (5, .sealed), (6, .blank), (7, .retired)].all (fun e =>
      (refusalOf q0 Reg.SEC_CMD (wd e.1) (sSec e.2 0)).isNone && secPermitted (sSec e.2 0) e.1 && decide ((sSec e.2 0).pwr.state = .hold) &&
        detachPhase (sSec e.2 0) == 0 && !(svnTooHigh (sSec e.2 0)) && (sSec e.2 0).sec.cmd.isNone &&
        rd (sSec e.2 0) Reg.SEC_CONFIRM == rd (sSec e.2 0) Reg.SYS_SERIAL_LO)) = true ∧
    (refusalOf q0 Reg.SEC_CMD (wd 1) sSecRun = none ∧ sSecRun.pwr.state = .run) ∧
    (refusalOf q0 Reg.SEC_CMD (wd 4) (sSec .open_ 1) = none ∧ (keySlot (sSec .open_ 1) 1).enrolled = true) ∧
    (refusalOf q0 Reg.SEC_CMD (wd 1) sWrong = none ∧ rd sWrong Reg.SEC_CONFIRM ≠ rd sWrong Reg.SYS_SERIAL_LO) ∧
    svnTooHigh (sSec .open_ argSvn) = true ∧ refusalOf q0 Reg.SEC_CMD (wd 6) (sSec .open_ argSvn) = none ∧
    (refusalOf q0 Reg.SEC_CMD (wd 3) (sSecBusy 7 0) = none ∧ (sSecBusy 7 0).sec.cmd ≠ none) ∧
    s0.sec.cmd = none ∧
    ([(1, (0 : Word)), (2, 0), (3, 0), (4, 1), (5, 1), (6, argSvn), (6, 0), (7, 0)].all (fun e =>
      (sSecBusy e.1 e.2).sec.cmd == some { cmd := e.1, arg := e.2, hash := List.replicate 8 0 })) = true ∧
    (fld (0 : Word) 29 24 ≤ floorOf (sSecBusy 6 0) 0 ∧ ¬fld argSvn 29 24 ≤ floorOf (sSecBusy 6 argSvn) 0) := by
  repeat' apply And.intro
  all_goals decide +kernel

/-- A sealed unit with the debugger's DENY. -/
def sDeny : State := regs [(Reg.DBG_CTRL, 1)] s0
def sDetached : State := pw (fun p => { p with state := .detached }) s0

/-- An INTRUSIVE session with core 5 halted, and a step aborted in which context 0 takes part. -/
def sHaltedCore : State := { sDbg .open_ 2 false 0 with sch := { s0.sch with cores := [(5, { held := false, halted := true, pc := 0x1234 })] } }
def sAborting : State :=
  { sDbg .open_ 2 false 0 with seq := { s0.seq with step := some { ctxs := [0], groups := [0], at_ := none, startBeat := 0, aborted := true } } }

theorem wit_DebugSessionsAndTapAct :
    (sDetached.pwr.state = .detached ∧ rdBit sDeny Reg.DBG_CTRL 0 = true ∧ rdBit s0 Reg.DBG_CTRL 0 = false ∧ s0.pwr.state = .hold) ∧
    (sRetired.sec.state = .retired ∧ s0.sec.state = .blank ∧ (sDbg .sealed 0 false 0).sec.state = .sealed ∧
      (pw (fun p => { p with state := .standby }) (sDbg .sealed 0 false 0)).pwr.state = .standby ∧
      tokenReason (sDbg .sealed 0 false 0) 1 ⟨true⟩ ≠ 0) ∧
    (refusalOf q0 Reg.DBG_CTRL (wd 3) sHaltedCore = none ∧ refusalOf q0 Reg.DBG_CTRL (wd 2) s0 = none) ∧
    (s0.dbg.ends = none ∧ (sDbg .sealed 2 true 0).dbg.ends ≠ none) ∧
    (intrusive s0 1 = false ∧ intrusive sHaltedCore 1 = true ∧ intrusive (sDbg .sealed 2 true 1) 1 = false ∧ intrusive (sDbg .sealed 2 true 6) 2 = true ∧
      intrusive s0 2 = false) ∧
    (sHaltedCore.seq.step.isNone ∧ sAborting.seq.step.map (·.aborted) = some true ∧ intrusive sAborting 2 = true ∧
      sAborting.seq.step.any (fun r => r.ctxs.contains 0) = true ∧ (ctxOf sAborting 0).halted = false) ∧
    (samplePermitted s0 = false ∧ samplePermitted sHaltedCore = true ∧ extestPermitted s0 = false ∧ extestPermitted sHaltedCore = true ∧
      sHaltedCore.dbg.extest = false ∧ aloneRole s0 = true ∧ aloneRole (sBus 4) = false) ∧
    (sOff.pwr.state = .off ∧ (0 : Nat) % 4 = 0 ∧ mappedRead sHaltedCore 0 = true ∧ mappedRead sHaltedCore 2 = false ∧ retiredReadable 0x10000 = false ∧
      s0.dbg.level = 0 ∧ (coreOf sHaltedCore 5).halted = true) ∧
    (dapOnly 0 = false ∧ attestWrite 0 0 = false ∧ s0.dbg.level ≤ 1) := by
  repeat' apply And.intro
  all_goals decide +kernel

theorem wit_DebugSessionsAndTapAct_quiet : Quiet sHaltedCore ∧ Quiet sOff := ⟨quiet_of_sess _ (by decide), quiet_of_sess _ (by decide)⟩

/-- SEC_VENDOR_HASH is the hash `h`, and DBG_TOKEN holds a token of the vendor's key, all zeros, for OBSERVE, for the identity and the
nonce in force, with a lifetime of 60 s. -/
def sTokOf (h : List Word) : State :=
  let s := sDbg .sealed 0 false 0
  { s with regs := [(Reg.DBG_TOKEN 0, (0x5444584B : Word)), (Reg.DBG_TOKEN 1, 0x00010001), (Reg.DBG_TOKEN 18, 60), (Reg.DBG_TOKEN 19, 0xFF)] ++
    (List.range 8).map (fun i => (Reg.DBG_TOKEN (10 + i), nonceWord s i)) ++ (List.range 8).map (fun i => (Reg.SEC_VENDOR_HASH i, nth 0 h i)) }
theorem vendorHash_sTokOf (h : List Word) : vendorHash (sTokOf h) = (List.range 8).map (nth 0 h) := rfl

def zeroKey : List Byte := wordsToBytes (List.replicate 648 0)
def sTok : State := sTokOf (sha3_256 zeroKey)
def tok0 : TokenObs := ⟨true⟩

theorem tget_none {α : Type} (d : Nat → α) (t : Tbl α) (k : Nat) (h : ∀ e ∈ t, e.1 ≠ k) : tget d t k = d k := by
  induction t with
  | nil => rfl
  | cons e r ih =>
    have h1 := h e (List.mem_cons_self ..)
    rw [← ih (fun e he => h e (List.mem_cons_of_mem _ he)), tget, tget, tfind, if_neg h1]

theorem nth_eight (h : List Word) (hl : h.length = 8) : (List.range 8).map (nth 0 h) = h := by
  match h, hl with
  | [_, _, _, _, _, _, _, _], _ => rfl

theorem rdRegs_congr (s t : State) (h : s.regs = t.regs) (a n : Nat) : rdRegs s a n = rdRegs t a n := by
  induction n generalizing a with
  | zero => rfl
  | succ n ih => rw [rdRegs, rdRegs, ih, rd, rd, h]

/-- Registers from `a` up that a list of values does not name read as after reset. -/
theorem rdRegs_unnamed (s : State) (a n : Nat) (hn : ∀ e ∈ s.regs, e.1 < a) (hz : ∀ k < n, regReset (a + 4 * k) = 0) :
    rdRegs s a n = List.replicate n 0 := by
  induction n generalizing a with
  | zero => rfl
  | succ n ih =>
    have hr : rd s a = 0 := by
      rw [rd, tget_none _ s.regs a (fun e he => Nat.ne_of_lt (hn e he))]
      exact hz 0 (by omega)
    rw [rdRegs, hr, ih (a + 4) (fun e he => by have := hn e he; omega)
      (fun k hk => by have := hz (k + 1) (by omega); rwa [show a + 4 + 4 * k = a + 4 * (k + 1) by omega])]
    rfl

theorem wit_DebugSessionsAndTapAct_token : tokenReason sTok (1 : Fin 4).val tok0 = 0 ∧ sTok.sec.state = .sealed ∧ sTok.pwr.state = .hold ∧
    rdBit sTok Reg.DBG_CTRL 0 = false := by
  have hn : tokenWords sTok 0x28 8 = (List.range 8).map (nonceWord sTok) := by rfl
  have hl : ∀ k ∈ sTok.regs.map (·.1), k < Reg.DBG_TOKEN 24 := by decide +kernel
  have hk : tokenWords sTok 0x60 648 = List.replicate 648 0 :=
    rdRegs_unnamed _ _ _ (fun e he => hl e.1 (List.mem_map_of_mem he)) (by decide +kernel)
  have hv : sha3_256 zeroKey = vendorHash sTok := ((vendorHash_sTokOf _).trans (nth_eight _ (sha3_256_length _))).symm
  have ha : tokenKeyOk sTok (tokenN sTok 0x4C 1) (vendorHash sTok) = true := by
    rw [show tokenN sTok 0x4C 1 = 0xFF by decide +kernel, tokenKeyOk, if_pos rfl, BEq.rfl]
    decide +kernel
  refine ⟨?_, by decide +kernel, by decide +kernel, by decide +kernel⟩
  rw [tokenReason, hk, hn, show wordsToBytes (List.replicate 648 0) = zeroKey from rfl, hv, ha]
  simp only [bne_self_eq_false]
  decide +kernel

/-- Firmware without code whose check passes, in the recovery buffer; its signer's key is all zeros. -/
def zeroBytes : List Byte := List.replicate 2592 0
def sRescueOf (h : List Word) : State :=
  let s := setBytes 64 [0x87, 0, 0xFF] (setBytes 0 [0x4B, 0x58, 0x46, 0x57, 1] (sRecovery (some (0, 7296))))
  { s with regs := (List.range 8).map (fun i => (Reg.SEC_VENDOR_HASH i, nth 0 h i)) }
def sRescue : State := sRescueOf (sha3_256 zeroBytes)

theorem vendorHash_sRescueOf (h : List Word) : vendorHash (sRescueOf h) = (List.range 8).map (nth 0 h) := rfl

def oFw : LibObj :=
  { typ := 6, length := 7296, written := 7296, state := .sealed, data := tsetList memDefault [] 0 (memBytes sRescue 0 7296) }

/-- A run of a table that is set into another table reads there as in the first. -/
theorem tget_copied (m t : Tbl Byte) (n k j : Nat) :
    tget memDefault (tsetList memDefault t k (tgetList memDefault m k n)) j =
      if k ≤ j ∧ j < k + n then tget memDefault m j else tget memDefault t j := by
  induction n generalizing t k with
  | zero => rw [if_neg (by omega)]; rfl
  | succ n ih =>
    rw [tgetList, tsetList, ih, tget_tset]
    by_cases h : j = k
    · subst h; rw [if_neg (by omega), if_pos (by omega), if_pos (by omega)]
    · by_cases h1 : k + 1 ≤ j ∧ j < k + 1 + n
      · rw [if_pos h1, if_pos (by omega)]
      · rw [if_neg h1, if_neg (by omega), if_neg (by omega)]

theorem oFw_bytes (n a : Nat) (h : a + n ≤ 7296) : objBytes oFw a n = memBytes sRescue a n := by
  induction n generalizing a with
  | zero => simp only [objBytes, memBytes, tgetList]
  | succ n ih =>
    have h2 := ih (a + 1) (by omega)
    simp only [objBytes, memBytes] at h2 ⊢
    rw [tgetList, tgetList, h2, oFw, memBytes, tget_copied, if_pos (by omega)]

theorem wit_PowerStatesChange_install : sRescue.pwr.install = some (0, 7296) ∧ codeOk sRescue 0xFFFFFF10 oFw ⟨true⟩ = true ∧
    codeOk sRescue 0xFFFFFF10 oFw ⟨false⟩ = false := by
  have hk : memBytes sRescue 68 2592 = zeroBytes := by decide +kernel
  have hv : sha3_256 zeroBytes = vendorHash sRescue :=
    ((vendorHash_sRescueOf _).trans (nth_eight _ (sha3_256_length _))).symm
  have h : ∀ b, codeOk sRescue 0xFFFFFF10 oFw ⟨b⟩ = b := by
    intro b
    have h0 : objN oFw 0x10 4 = 0 := by rw [objN, oFw_bytes _ _ (by omega)]; decide +kernel
    rw [codeOk, if_neg (by decide), firmwareOk, h0, vendorSigned, signerHash, oFw_bytes _ _ (show 64 + 0 + 4 + 2592 ≤ 7296 by omega), hk, hv,
      BEq.rfl]
    simp only [objN, objZero, oFw_bytes _ _ (show 0 + 4 ≤ 7296 by omega), oFw_bytes _ _ (show 4 + 2 ≤ 7296 by omega),
      oFw_bytes _ _ (show 0x0C + 4 ≤ 7296 by omega), oFw_bytes _ _ (show 64 + 0 + 2 ≤ 7296 by omega),
      oFw_bytes _ _ (show 64 + 0 + 2 + 1 ≤ 7296 by omega), oFw_bytes _ _ (show 64 + 0 + 3 + 1 ≤ 7296 by omega),
      oFw_bytes _ _ (show 64 + 0 + 0x1C37 + 9 ≤ 7296 by omega)]
    cases b <;> decide +kernel
  exact ⟨by decide +kernel, h true, h false⟩

/-- A halted core's pc reads in two words (R662). -/
theorem test_dapReadCore : okAnd (exec (.jtagDap (.readCore 5 32)) sHaltedCore) (fun t => t.ans == { status := 0, done := 2, data := [0x1234, 0] }) = true := by
  decide +kernel
end Sys2Proof.Tests
end

section
/-! PROOFS. The commands as functions of the state: every command answers a next state, runs within the parts that `Instr.mayAlter`
lists, and a command that is a register write runs behind the refusals of R19; and the state that a reset leaves. -/

namespace Sys2Proof.Proofs

open Sys2Proof Sys2Proof.Machine Sys2Proof.Laws

/-! ### One step -/

/-- Settles O1: it is how a step takes a command. -/
theorem stepRunsTheFrontCommand : Obligations.StepRunsTheFrontCommand := fun _ _ _ => rfl

/-! ### Every command answers a next state -/

theorem execSourceVector_answers (c : Fin 512) (overload : Bool) (copies : Copies) (s : State) :
    ∃ t, execSourceVector c overload copies s = .next t := by
  unfold execSourceVector
  dsimp only
  split <;> exact ⟨_, rfl⟩

theorem execPlaylistWaitRelease_answers (c : Fin 512) (s : State) : ∃ t, execPlaylistWaitRelease c s = .next t := by
  unfold execPlaylistWaitRelease
  dsimp only
  split <;> exact ⟨_, rfl⟩

/-- Only the two commands of a source channel look at the state before they answer. -/
theorem exec_answers (i : Instr) (s : State) : ∃ t, exec i s = .next t := by
  cases i
  case sourceVector c overload copies => exact execSourceVector_answers c overload copies s
  case playlistWaitRelease c => exact execPlaylistWaitRelease_answers c s
  all_goals exact ⟨_, rfl⟩

theorem step_answers (s : State) : Answers s := by
  unfold Answers step
  split
  · exact ⟨_, rfl⟩
  · exact exec_answers _ _

/-- Settles O6: no command stops the device, and neither does an idle step. -/
theorem everyStepAnswersANextState : Obligations.EveryStepAnswersANextState := ⟨exec_answers, step_answers⟩

/-! ### What a command may change -/

/-- Dispatch: each command moves what its own meaning moves, and that is what `Instr.mayAlter` lists for it. -/
theorem exec_moves {i : Instr} {s t : State} (h : exec i s = .next t) : Moves i.mayAlter s t := by
  cases i with
  | registerWrite _ _ _ _ => exact execRegisterWrite_moves _ _ _ _ h
  | resetRelease _ _ _ => exact execResetRelease_moves _ _ _ h
  | vinRise => exact execVinRise_moves h
  | vinUvlo => exact execVinUvlo_moves h
  | vinOvervoltage => exact execVinOvervoltage_moves h
  | currentLimitHeld => exact execCurrentLimitHeld_moves h
  | railOutOfRange => exact execRailOutOfRange_moves h
  | imgVerify _ _ => exact execImgVerify_moves _ _ h
  | imgLoad _ _ => exact execImgLoad_moves _ _ h
  | loadAuto _ => exact execLoadAuto_moves _ h
  | loadDrainMet _ _ => exact execLoadDrainMet_moves _ _ h
  | loadDrainTimeout => exact execLoadDrainTimeout_moves h
  | loadSwitchPoint _ _ => exact execLoadSwitchPoint_moves _ _ h
  | loadRetrainTimeout => exact execLoadRetrainTimeout_moves h
  | beatWindowEnd _ _ => exact execBeatWindowEnd_moves _ _ h
  | beatLoss => exact execBeatLoss_moves h
  | returnToBeat => exact execReturnToBeat_moves h
  | xoFailure => exact execXoFailure_moves h
  | slackWindowEnd _ => exact execSlackWindowEnd_moves _ h
  | beatCountRead _ => exact execBeatCountRead_moves _ h
  | pavanePeriodMiss _ => exact execPavanePeriodMiss_moves _ h
  | telemetrySample _ => exact execTelemetrySample_moves _ h
  | trainingFrameRx _ _ _ _ _ _ => exact execTrainingFrameRx_moves _ _ _ _ _ _ h
  | rxReadySet _ _ _ _ _ => exact execRxReadySet_moves _ _ _ _ _ h
  | laneDetectExit _ _ _ => exact execLaneDetectExit_moves _ _ _ h
  | laneExchangeAccept _ _ _ _ => exact execLaneExchangeAccept_moves _ _ _ _ h
  | laneStateTimeout _ _ => exact execLaneStateTimeout_moves _ _ h
  | squelchEnd _ _ => exact execSquelchEnd_moves _ _ h
  | laneSignalLost _ _ => exact execLaneSignalLost_moves _ _ h
  | retrain _ _ _ _ => exact execRetrain_moves _ _ _ _ h
  | eyeScanCmd _ _ _ _ => exact execEyeScanCmd_moves _ _ _ _ h
  | eyeScanPeriodic _ _ => exact execEyeScanPeriodic_moves _ _ h
  | eyeScanPointDone _ _ _ => exact execEyeScanPointDone_moves _ _ _ h
  | eyeRspTimeout _ _ => exact execEyeRspTimeout_moves _ _ h
  | phyXctrlWrite _ _ _ _ => exact execPhyXctrlWrite_moves _ _ _ _ h
  | txffeManWrite _ _ _ _ => exact execTxffeManWrite_moves _ _ _ _ h
  | bertCtrlWrite _ _ _ => exact execBertCtrlWrite_moves _ _ _ h
  | frameSend _ _ => exact execFrameSend_moves _ _ h
  | idleFrameTimer _ _ => exact execIdleFrameTimer_moves _ _ h
  | inwardCodeword _ _ _ _ _ _ _ _ => exact execInwardCodeword_moves _ _ _ _ _ _ _ _ h
  | fillerWordRx _ _ _ => exact execFillerWordRx_moves _ _ _ h
  | probePeriod _ => exact execProbePeriod_moves _ h
  | cntAlignTimeout _ => exact execCntAlignTimeout_moves _ h
  | frameInject _ _ _ => exact execFrameInject_moves _ _ _ h
  | frXctrlWrite _ _ _ => exact execFrXctrlWrite_moves _ _ _ h
  | stepStart _ _ => exact execStepStart_moves _ _ h
  | stepAbort _ => exact execStepAbort_moves _ h
  | stepListResident => exact execStepListResident_moves h
  | stepVectorZero => exact execStepVectorZero_moves h
  | stepEnd => exact execStepEnd_moves h
  | seqPlay _ => exact execSeqPlay_moves _ h
  | seqPlayn _ => exact execSeqPlayn_moves _ h
  | seqLoop _ => exact execSeqLoop_moves _ h
  | seqEndloop _ => exact execSeqEndloop_moves _ h
  | seqCall _ => exact execSeqCall_moves _ h
  | seqRet _ => exact execSeqRet_moves _ h
  | seqJump _ => exact execSeqJump_moves _ h
  | seqJumpc _ => exact execSeqJumpc_moves _ h
  | seqMatch _ => exact execSeqMatch_moves _ h
  | seqWaitt _ => exact execSeqWaitt_moves _ h
  | seqWaittime _ => exact execSeqWaittime_moves _ h
  | seqTset _ => exact execSeqTset_moves _ h
  | seqSignal _ => exact execSeqSignal_moves _ h
  | seqStage _ => exact execSeqStage_moves _ h
  | seqSitemask _ => exact execSeqSitemask_moves _ h
  | seqHold _ => exact execSeqHold_moves _ h
  | seqHalt _ => exact execSeqHalt_moves _ h
  | jumpEffect _ => exact execJumpEffect_moves _ h
  | matchLeave _ => exact execMatchLeave_moves _ h
  | waittRelease _ => exact execWaittRelease_moves _ h
  | waittTimeout _ => exact execWaittTimeout_moves _ h
  | waittimeEnd _ => exact execWaittimeEnd_moves _ h
  | residencyHoldEnd _ => exact execResidencyHoldEnd_moves _ h
  | microwordExecute _ _ => exact execMicrowordExecute_moves _ _ h
  | microTrap _ => exact execMicroTrap_moves _ h
  | contextFault _ _ => exact execContextFault_moves _ _ h
  | contextTakeoverDone _ => exact execContextTakeoverDone_moves _ h
  | tstCommit _ _ => exact execTstCommit_moves _ _ h
  | tstRead _ _ => exact execTstRead_moves _ _ h
  | writeRaw _ _ => exact execWriteRaw_moves _ _ h
  | calLin _ _ _ => exact execCalLin_moves _ _ _ h
  | calDeskew _ _ _ => exact execCalDeskew_moves _ _ _ h
  | scheduledLinCal _ _ => exact execScheduledLinCal_moves _ _ h
  | linCalComplete _ _ _ => exact execLinCalComplete_moves _ _ _ h
  | deskewComplete _ _ _ => exact execDeskewComplete_moves _ _ _ h
  | calAgeExpiry _ _ => exact execCalAgeExpiry_moves _ _ h
  | tsetWrite _ _ _ => exact execTsetWrite_moves _ _ _ h
  | periodWrite _ _ _ => exact execPeriodWrite_moves _ _ _ h
  | modeWrite _ _ _ _ => exact execModeWrite_moves _ _ _ _ h
  | linDataWrite _ _ _ => exact execLinDataWrite_moves _ _ _ h
  | linDataRead _ _ => exact execLinDataRead_moves _ _ h
  | cmpLogRdWrite _ _ => exact execCmpLogRdWrite_moves _ _ h
  | cmpLogConfigWrite _ _ _ => exact execCmpLogConfigWrite_moves _ _ _ h
  | failInject _ _ => exact execFailInject_moves _ _ h
  | measureOutput _ _ _ => exact execMeasureOutput_moves _ _ _ h
  | xchSetWrite _ _ _ _ => exact execXchSetWrite_moves _ _ _ _ h
  | coefDataWrite _ _ => exact execCoefDataWrite_moves _ _ h
  | coefDataRead _ => exact execCoefDataRead_moves _ h
  | chainWrite _ _ _ _ => exact execChainWrite_moves _ _ _ _ h
  | targetWrite _ _ _ => exact execTargetWrite_moves _ _ _ h
  | sourceVector _ _ _ => exact execSourceVector_moves _ _ _ h
  | playlistWaitRelease _ => exact execPlaylistWaitRelease_moves _ h
  | ncoFreqWrite _ _ => exact execNcoFreqWrite_moves _ _ h
  | tdcQRdWrite _ _ _ => exact execTdcQRdWrite_moves _ _ _ h
  | calCd _ _ _ => exact execCalCd_moves _ _ _ h
  | scheduledCdCal _ _ => exact execScheduledCdCal_moves _ _ h
  | cdCalComplete _ _ _ => exact execCdCalComplete_moves _ _ _ h
  | binDataWrite _ _ => exact execBinDataWrite_moves _ _ h
  | binDataRead _ => exact execBinDataRead_moves _ h
  | binTableStale _ => exact execBinTableStale_moves _ h
  | lineAct _ _ _ => exact execLineAct_moves _ _ _ h
  | trgFire _ _ => exact execTrgFire_moves _ _ h
  | lineSrcWrite _ _ _ _ => exact execLineSrcWrite_moves _ _ _ _ h
  | acqRRdWrite _ _ _ _ => exact execAcqRRdWrite_moves _ _ _ _ h
  | qtReceived _ _ _ => exact execQtReceived_moves _ _ _ h
  | qtAct _ => exact execQtAct_moves _ h
  | todFrame _ _ => exact execTodFrame_moves _ _ h
  | qdHeartbeat _ _ => exact execQdHeartbeat_moves _ _ h
  | peerAbsent _ => exact execPeerAbsent_moves _ h
  | faultBroadcastRx _ _ => exact execFaultBroadcastRx_moves _ _ h
  | hintsRx _ _ => exact execHintsRx_moves _ _ h
  | listenEnd _ => exact execListenEnd_moves _ h
  | leaderTimeout => exact execLeaderTimeout_moves h
  | claimBackoffEnd => exact execClaimBackoffEnd_moves h
  | qdCellMismatch _ => exact execQdCellMismatch_moves _ h
  | rejoin _ => exact execRejoin_moves _ h
  | hbmCorrectedError _ _ => exact execHbmCorrectedError_moves _ _ h
  | hbmUncorrectable _ _ _ => exact execHbmUncorrectable_moves _ _ _ h
  | pcFence _ _ => exact execPcFence_moves _ _ h
  | spareCopyComplete _ => exact execSpareCopyComplete_moves _ h
  | hbmTempRefresh _ _ => exact execHbmTempRefresh_moves _ _ h
  | memObjBaseWrite _ _ _ => exact execMemObjBaseWrite_moves _ _ _ h
  | memInject _ _ => exact execMemInject_moves _ _ h
  | libCreate _ => exact execLibCreate_moves _ h
  | libWrite _ => exact execLibWrite_moves _ h
  | libRead _ => exact execLibRead_moves _ h
  | libDelete _ => exact execLibDelete_moves _ h
  | libStage _ => exact execLibStage_moves _ h
  | libEvict _ => exact execLibEvict_moves _ h
  | libInfo _ => exact execLibInfo_moves _ h
  | libCancel _ => exact execLibCancel_moves _ h
  | writeUnitCommit => exact execWriteUnitCommit_moves h
  | libCmdComplete _ => exact execLibCmdComplete_moves _ h
  | stagingComplete => exact execStagingComplete_moves h
  | stageFailed _ _ => exact execStageFailed_moves _ _ h
  | patrolPass _ => exact execPatrolPass_moves _ h
  | blockRetire _ => exact execBlockRetire_moves _ h
  | dieFailure _ _ _ => exact execDieFailure_moves _ _ _ h
  | fenceRel _ => exact execFenceRel_moves _ h
  | fenceAcq _ => exact execFenceAcq_moves _ h
  | tnext _ _ => exact execTnext_moves _ _ h
  | tdone _ _ => exact execTdone_moves _ _ h
  | tsubmit _ _ _ => exact execTsubmit_moves _ _ _ h
  | tyield _ => exact execTyield_moves _ h
  | schSubGo _ => exact execSchSubGo_moves _ h
  | templateRetry => exact execTemplateRetry_moves h
  | dispatchPlacement _ => exact execDispatchPlacement_moves _ h
  | preemptLate _ => exact execPreemptLate_moves _ h
  | flush _ _ => exact execFlush_moves _ _ h
  | schFlowRdWrite _ _ _ => exact execSchFlowRdWrite_moves _ _ _ h
  | coreMismatch _ => exact execCoreMismatch_moves _ h
  | coreTakeoverDone _ => exact execCoreTakeoverDone_moves _ h
  | dmaStart _ _ => exact execDmaStart_moves _ _ h
  | dmaStop _ _ => exact execDmaStop_moves _ _ h
  | dmaMove _ => exact execDmaMove_moves _ h
  | dmaLoop _ => exact execDmaLoop_moves _ h
  | dmaWait _ => exact execDmaWait_moves _ h
  | dmaWaitPoll _ => exact execDmaWaitPoll_moves _ h
  | dmaWaitTimeout _ => exact execDmaWaitTimeout_moves _ h
  | dmaSignal _ => exact execDmaSignal_moves _ h
  | dmaEnd _ => exact execDmaEnd_moves _ h
  | dmaNop _ => exact execDmaNop_moves _ h
  | dmaBurstGrant _ _ => exact execDmaBurstGrant_moves _ _ h
  | dmaWriteAnswer _ _ _ => exact execDmaWriteAnswer_moves _ _ _ h
  | dmaReadError _ => exact execDmaReadError_moves _ h
  | dmaCompletionRecord _ => exact execDmaCompletionRecord_moves _ h
  | dmaCqRdWrite _ _ => exact execDmaCqRdWrite_moves _ _ h
  | dmaEngineFault _ => exact execDmaEngineFault_moves _ h
  | sessionInit _ _ => exact execSessionInit_moves _ _ h
  | sessionConfirm _ _ => exact execSessionConfirm_moves _ _ h
  | handshakeTimeout _ => exact execHandshakeTimeout_moves _ h
  | close _ => exact execClose_moves _ h
  | ack _ => exact execAck_moves _ h
  | readReg _ _ _ => exact execReadReg_moves _ _ _ h
  | writeReg _ _ _ _ => exact execWriteReg_moves _ _ _ _ h
  | readMem _ _ _ => exact execReadMem_moves _ _ _ h
  | writeMem _ _ _ => exact execWriteMem_moves _ _ _ h
  | claim _ => exact execClaim_moves _ h
  | heartbeat _ => exact execHeartbeat_moves _ h
  | handover _ _ => exact execHandover_moves _ _ h
  | accept _ => exact execAccept_moves _ h
  | release _ => exact execRelease_moves _ h
  | streamOpen _ _ => exact execStreamOpen_moves _ _ h
  | streamCredit _ _ _ => exact execStreamCredit_moves _ _ _ h
  | streamClose _ _ => exact execStreamClose_moves _ _ h
  | streamDataSend _ => exact execStreamDataSend_moves _ h
  | retransmitTimer _ _ => exact execRetransmitTimer_moves _ _ h
  | sessionIdleTimeout _ => exact execSessionIdleTimeout_moves _ h
  | leaseExpiry => exact execLeaseExpiry_moves h
  | electionClose => exact execElectionClose_moves h
  | handoverLapse => exact execHandoverLapse_moves h
  | portRateTimeout _ => exact execPortRateTimeout_moves _ h
  | portLinkLoss _ => exact execPortLinkLoss_moves _ h
  | ethFrameRx _ _ => exact execEthFrameRx_moves _ _ h
  | portCfgWrite _ _ _ => exact execPortCfgWrite_moves _ _ _ h
  | sysReset _ _ => exact execSysReset_moves _ _ h
  | sysDetach _ => exact execSysDetach_moves _ h
  | install _ _ => exact execInstall_moves _ _ h
  | reboot _ _ => exact execReboot_moves _ _ h
  | hostTableWrite _ => exact execHostTableWrite_moves _ h
  | hostTableClear _ => exact execHostTableClear_moves _ h
  | hostTableRead _ => exact execHostTableRead_moves _ h
  | incCommit _ _ _ => exact execIncCommit_moves _ _ _ h
  | ptpStep _ _ => exact execPtpStep_moves _ _ h
  | ptpSet _ _ => exact execPtpSet_moves _ _ h
  | ptpInvalidate _ _ => exact execPtpInvalidate_moves _ _ h
  | ptpCtrlWrite _ _ => exact execPtpCtrlWrite_moves _ _ h
  | slewEnd => exact execSlewEnd_moves h
  | ptpModeChange => exact execPtpModeChange_moves h
  | ptpRx _ _ _ _ => exact execPtpRx_moves _ _ _ _ h
  | ptpLqWrWrite _ _ _ => exact execPtpLqWrWrite_moves _ _ _ h
  | launchSend _ => exact execLaunchSend_moves _ h
  | ptpSnapCmd _ => exact execPtpSnapCmd_moves _ h
  | ptpTimeRead _ _ => exact execPtpTimeRead_moves _ _ h
  | faultReport _ _ _ _ _ _ => exact execFaultReport_moves _ _ _ _ _ _ h
  | wireFault _ _ => exact execWireFault_moves _ _ h
  | faultHandle => exact execFaultHandle_moves h
  | collectorSelfCheck _ _ => exact execCollectorSelfCheck_moves _ _ h
  | faultInject _ _ => exact execFaultInject_moves _ _ h
  | alertClear _ _ => exact execAlertClear_moves _ _ h
  | ledgerImbalance _ _ _ _ _ => exact execLedgerImbalance_moves _ _ _ _ _ h
  | ledgerDeadline _ => exact execLedgerDeadline_moves _ h
  | ledgerReadLatch _ _ => exact execLedgerReadLatch_moves _ _ h
  | standby _ => exact execStandby_moves _ h
  | wake _ => exact execWake_moves _ h
  | pwrDetach _ => exact execPwrDetach_moves _ h
  | detachNLow => exact execDetachNLow_moves h
  | detachPhaseAdvance => exact execDetachPhaseAdvance_moves h
  | detachTimeout => exact execDetachTimeout_moves h
  | detachNHighRestart _ => exact execDetachNHighRestart_moves _ h
  | galopOverrun => exact execGalopOverrun_moves h
  | provision _ => exact execProvision_moves _ h
  | sealDevice _ => exact execSeal_moves _ h
  | retire _ => exact execRetire_moves _ h
  | enroll _ => exact execEnroll_moves _ h
  | revoke _ => exact execRevoke_moves _ h
  | raiseSvn _ => exact execRaiseSvn_moves _ h
  | attest _ => exact execAttest_moves _ h
  | secCmdResult _ => exact execSecCmdResult_moves _ h
  | dbgReq _ _ _ => exact execDbgReq_moves _ _ _ h
  | dbgEnd _ _ => exact execDbgEnd_moves _ _ h
  | debugLifetimeExpiry => exact execDebugLifetimeExpiry_moves h
  | coreHalt _ _ => exact execCoreHalt_moves _ _ h
  | contextDebugHalt _ => exact execContextDebugHalt_moves _ h
  | jtagBypass => exact execJtagBypass_moves h
  | jtagIdcode => exact execJtagIdcode_moves h
  | samplePreload => exact execSamplePreload_moves h
  | extest => exact execExtest_moves h
  | jtagDap _ => exact execJtagDap_moves _ h
  | jtagToken _ => exact execJtagToken_moves _ h
  | tapReset => exact execTapReset_moves h
  | resetNLow => exact execResetNLow_moves h
  | portLinkUp _ => exact execPortLinkUp_moves _ h
  | quadrilleCycle => exact execQuadrilleCycle_moves h
  | beatEdgeLineSample _ => exact execBeatEdgeLineSample_moves _ h
  | verifyEnd _ => exact execVerifyEnd_moves _ h
  | loadCheckFailure => exact execLoadCheckFailure_moves h
  | stepAtPassed => exact execStepAtPassed_moves h
  | knownAnswerTestEnd _ _ _ => exact execKnownAnswerTestEnd_moves _ _ _ h
  | dieRebuildComplete _ _ => exact execDieRebuildComplete_moves _ _ h
  | wearBudgetHour => exact execWearBudgetHour_moves h
  | installDone _ => exact execInstallDone_moves _ h

/-- Settles O8: the parts that a command moves are all that it alters. -/
theorem commandsChangeOnlyTheirParts : Obligations.CommandsChangeOnlyTheirParts := fun _ _ _ h => (exec_moves h).alters

/-! ### Reset -/

theorem tget_unlisted {α : Type} (d : Nat → α) (t : Tbl α) (k : Nat) (h : ∀ e ∈ t, e.1 ≠ k) : tget d t k = d k := by
  unfold tget
  induction t with
  | nil => rfl
  | cons e t ih =>
    rw [tfind, if_neg (h e (by simp))]
    exact ih (fun x hx => h x (by simp [hx]))

/-- A register that reset does not set reads the reset value of its row. -/
theorem rd_reset_of_row {a : Nat} {r : RegRow} (h : rowOf a = some r) (hn : ∀ e ∈ resetRegs, e.1 ≠ a) : rd State.reset a = wd r.reset := by
  rw [rd, State.reset, tget_unlisted _ _ _ hn, regReset, h]
  rfl

/-- Settles O3: the registers in general, then the values that the statement names. -/
theorem resetLeavesTheTabledValues : Obligations.ResetLeavesTheTabledValues :=
  ⟨fun _ _ => rd_reset_of_row, by decide +kernel⟩

/-! ### Refusals of register writes, in the order of R19 -/

section
variable {q : Req} {a : Nat} {v : Word} {s : State}

theorem refusalOf_badAuth (hs : ¬(q.authOk = true ∧ sessOpen s q.slot.val = true)) : refusalOf q a v s = some 0x06 := by
  rw [refusalOf, if_pos (by simpa [Decidable.imp_iff_not_or] using hs)]
  rfl

variable (hs : q.authOk = true ∧ sessOpen s q.slot.val = true)
include hs

theorem refusalOf_badAddr (hm : ¬mappedWrite s a = true) : refusalOf q a v s = some 0x05 := by
  rw [refusalOf, if_neg (by simp [hs]), if_pos (by simpa using hm)]
  rfl

variable (hm : mappedWrite s a = true)
include hm

theorem refusalOf_notOwner (ho : ¬isOwner s q.slot.val = true) : refusalOf q a v s = some 0x02 := by
  rw [refusalOf, if_neg (by simp [hs]), if_neg (by simp [hm]), if_pos (by simpa using ho)]
  rfl

variable (ho : isOwner s q.slot.val = true)
include ho

theorem refusalOf_staleEpoch (he : ¬(q.epoch = 0 ∨ q.epoch = epochNow s)) : refusalOf q a v s = some 0x09 := by
  rw [refusalOf, if_neg (by simp [hs]), if_neg (by simp [hm]), if_neg (by simp [ho]), if_pos (not_or.mp he)]
  rfl

variable (he : q.epoch = 0 ∨ q.epoch = epochNow s)
include he

theorem refusalOf_expertOff (hx : ¬(inExpertHalf a = true → expertOn s a = true)) : refusalOf q a v s = some 0x03 := by
  rw [refusalOf, if_neg (by simp [hs]), if_neg (by simp [hm]), if_neg (by simp [ho]), if_neg (fun h => he.elim h.1 h.2),
    if_pos (by simpa using hx)]
  rfl

theorem refusalOf_locked (hx : inExpertHalf a = true → expertOn s a = true) {r : RegRow} (hr : rowOf a = some r)
    (ht : targetsLocked r v = true) (hb : blockRuns s a = true) : refusalOf q a v s = some 0x01 := by
  rw [refusalOf, if_neg (by simp [hs]), if_neg (by simp [hm]), if_neg (by simp [ho]), if_neg (fun h => he.elim h.1 h.2),
    if_neg (by simpa using hx), if_pos (by rw [hr, hb]; simpa using ht)]
  rfl

end

/-! ### A register write of a request -/

/-- A write meets the refusals of `refusalOf`, unless it comes in an open session and names no register that a session writes. -/
theorem hostWrite_guarded {q : Req} {a : Nat} {s : State} (h : q.authOk = true ∧ sessOpen s q.slot.val = true → a % 4 = 0 ∧ dapOnly a = false)
    (o : WriteObs) (v : Word) : hostWrite q o a v s = guarded q a v (regWrite q o a v) s := by
  unfold hostWrite
  rw [if_neg]
  intro hc
  simp only [Bool.and_eq_true, Bool.or_eq_true] at hc
  obtain ⟨⟨hc, h1⟩, h2⟩ := hc
  simp [h ⟨h1, h2⟩] at hc

/-- In an open session an address that no session can write is refused, whether or not it is mapped. -/
theorem hostWrite_badAddr {q : Req} {a : Nat} {s : State} (hs : q.authOk = true ∧ sessOpen s q.slot.val = true)
    (ha : ¬(a % 4 = 0 ∧ dapOnly a = false ∧ mappedWrite s a = true)) (o : WriteObs) (v : Word) : hostWrite q o a v s = answer 0x05 s := by
  by_cases h : a % 4 = 0 ∧ dapOnly a = false
  · rw [hostWrite_guarded (fun _ => h)]
    exact guarded_refused (refusalOf_badAddr hs (fun hm => ha ⟨h.1, h.2, hm⟩)) _
  · rw [hostWrite, if_pos (by simpa [hs, Decidable.imp_iff_not_or] using h)]
    rfl

/-- After an answer alone nothing that waits goes on. -/
theorem resume_answer {s : State} (hq : Quiet s) (code : Nat) : resume (answer code s) = answer code s := resume_quiet (quiet_congr hq rfl)

theorem exec_registerWrite_answered {q : Req} {a : Nat} {v : Word} {obs : WriteObs} {s : State} {code : Nat} (hq : Quiet s)
    (h : hostWrite q obs a v s = answer code s) : exec (.registerWrite q a v obs) s = .next { s with ans := { status := code } } :=
  congrArg Host.Outcome.next ((congrArg resume h).trans (resume_answer hq code))

/-- Settles O9: each refusal of R19 in turn, once those before it do not apply. -/
theorem registerWritesAreRefusedInOrder : Obligations.RegisterWritesAreRefusedInOrder := by
  intro q a v obs s hq refused auth addr owner fresh expert unlocked
  have refuse {code : Nat} (h : auth → a % 4 = 0 ∧ dapOnly a = false) (hr : refusalOf q a v s = some code) : refused code :=
    exec_registerWrite_answered hq ((hostWrite_guarded h obs v).trans (guarded_refused hr _))
  refine ⟨fun hs => refuse (fun h => absurd h hs) (refusalOf_badAuth hs), fun hs ha => exec_registerWrite_answered hq (hostWrite_badAddr hs ha obs v),
    ?_, ?_, ?_, ?_⟩
  all_goals rintro hs ⟨h4, hd, hm⟩ ho
  · exact refuse (fun _ => ⟨h4, hd⟩) (refusalOf_notOwner hs hm ho)
  · exact fun he => refuse (fun _ => ⟨h4, hd⟩) (refusalOf_staleEpoch hs hm ho he)
  · exact fun he hx => refuse (fun _ => ⟨h4, hd⟩) (refusalOf_expertOff hs hm ho he hx)
  · intro he hx hl
    obtain ⟨r, hr, ht, hb⟩ : ∃ r, rowOf a = some r ∧ targetsLocked r v = true ∧ blockRuns s a = true := by simpa [unlocked] using hl
    exact refuse (fun _ => ⟨h4, hd⟩) (refusalOf_locked hs hm ho he hx hr ht hb)

/-! ### Commands that are register writes -/

/-- A command that is a register write runs behind the refusals of its register; some let requests that wait go on after it. -/
theorem exec_of_asWrite {i : Instr} {q : Req} {a : Nat} {v : Word} (h : i.asWrite = some (q, a, v)) (s : State) :
    ∃ k, exec i s = .next (guarded q a v k s) ∨ exec i s = .next (resume (guarded q a v k s)) := by
  cases i
  case retrain | phyXctrlWrite | txffeManWrite => cases h; exact ⟨_, .inr rfl⟩
  all_goals cases h
  all_goals exact ⟨_, .inl rfl⟩

/-- Settles O10: with no request held back, nothing goes on after the refusal. -/
theorem commandWritesRefusedChangeNothing : Obligations.CommandWritesRefusedChangeNothing := by
  intro i q a v s code hw hq hr
  obtain ⟨k, h | h⟩ := exec_of_asWrite hw s
  · rw [h, guarded_refused hr]
  · rw [h, guarded_refused hr]
    exact congrArg Host.Outcome.next (resume_answer hq code)

end Sys2Proof.Proofs
end

section
/-! PROOFS. Register reads: each command that is a register read answers the value in effect and has the effect of that read. -/

namespace Sys2Proof.Proofs

open Sys2Proof Sys2Proof.Machine Sys2Proof.Laws

/-! ### The value that a read returns -/

/-- Whether a mapped register has no write-only field. -/
def readable (a : Nat) : Bool := (rowOf a).any (fun r => r.maskWO == 0)

/-- A register without write-only fields reads as its view, and without a view as what is stored. -/
theorem readView_of_readable {a : Nat} (h : readable a = true) (s : State) : readView s a = ((viewOf s a).map wd).getD (rd s a) := by
  obtain ⟨r, hr, hw⟩ := (Option.any_eq_true _ _).mp h
  have e (w : Word) : w &&& ~~~wd 0 = w := BitVec.and_allOnes
  simp only [readView, hr, eq_of_beq hw, e]
  cases viewOf s a <;> rfl

theorem readView_coefData (s : State) : readView s Reg.MEA_XCOEF_DATA = coefDataValue s :=
  (readView_of_readable (by decide +kernel) s).trans (wd_toNat _)

theorem readView_binData (s : State) : readView s Reg.TDC_XBIN_DATA = binData s :=
  (readView_of_readable (by decide +kernel) s).trans (wd_toNat _)

theorem readView_linData (g : Fin 16) (s : State) :
    readView s (Reg.TST_XLIN_DATA g.val) = wd (tget (fun _ => 0) (tstOf s g.val).lin (linSel s g.val)) := by
  have hr : readable (Reg.TST_XLIN_DATA g.val) = true := by revert g; decide +kernel
  have hb : blockOf (Reg.TST_XLIN_DATA g.val) = 0x30 + g.val := by revert g; decide +kernel
  have hi : arrayIdx (Reg.TST_XLIN_DATA g.val) (Reg.TST_CAL_AGE g.val 0) 4 32 = none := by revert g; decide +kernel
  have hv : viewOf s (Reg.TST_XLIN_DATA g.val) = some (tget (fun _ => 0) (tstOf s g.val).lin (linSel s g.val)) := by
    simp only [viewOf, hb]
    rw [if_pos (by omega), Nat.add_sub_cancel_left, viewTst, hi]
    exact if_pos rfl
  rw [readView_of_readable hr, hv]
  rfl

theorem readView_ledgerLeft (n : Fin 16) (s : State) : readView s (Reg.LGR_LEFT n.val) = wd (ledgerView s n.val).left := by
  have hr : readable (Reg.LGR_LEFT n.val) = true := by revert n; decide +kernel
  have hb : blockOf (Reg.LGR_LEFT n.val) = 0x63 := by revert n; decide +kernel
  have hi : arrayIdx (Reg.LGR_LEFT n.val) (Reg.LGR_LEFT 0) 16 16 = some n.val := by revert n; decide +kernel
  have hn : Reg.LGR_LEFT n.val ∉ [Reg.LGR_SUMMARY, Reg.LGR_DRAINED, Reg.LGR_LINK_BAL, Reg.LGR_PEER_JOINED, Reg.LGR_PEER_DEPARTED,
      Reg.LGR_PEER_WRITTEN_OFF, Reg.LGR_PEER_PRESENT] := by revert n; decide +kernel
  have hv : viewOf s (Reg.LGR_LEFT n.val) = some (ledgerView s n.val).left := by
    simp only [List.mem_cons, List.not_mem_nil, not_or, not_false_eq_true, and_true] at hn
    simp [viewOf, hb, viewLgr, hn, hi]
  rw [readView_of_readable hr, hv]
  rfl

theorem viewOf_ptpTime (s : State) : ∀ which : Fin 4,
    ((viewOf s (ptpTimeAddr which.val)).map wd).getD (rd s (ptpTimeAddr which.val)) = (ptpReadTime which.val s).1
  | 0 => rfl
  | 1 => rfl
  | 2 => rfl
  | 3 => rfl

theorem readView_ptpTime (which : Fin 4) (s : State) : readView s (ptpTimeAddr which.val) = (ptpReadTime which.val s).1 :=
  (readView_of_readable (by revert which; decide +kernel) s).trans (viewOf_ptpTime s which)

/-! ### What a read does -/

theorem readEffect_linData (g : Fin 16) (s : State) : readEffect (Reg.TST_XLIN_DATA g.val) s = nextLin g.val s := by
  have hb : blockOf (Reg.TST_XLIN_DATA g.val) = 0x30 + g.val := by revert g; decide +kernel
  have hn : Reg.TST_XLIN_DATA g.val ∉ [Reg.TBF_BEAT_COUNT_LO, Reg.MEA_XCOEF_DATA, Reg.TDC_XBIN_DATA] := by revert g; decide +kernel
  simp only [List.mem_cons, List.not_mem_nil, not_or, not_false_eq_true, and_true] at hn
  obtain ⟨h1, h2, h3⟩ := hn
  simp only [readEffect, hb]
  rw [if_neg h1, if_neg h2, if_neg h3, Nat.add_sub_cancel_left, if_pos (by omega)]

theorem readEffect_ptpTime (s : State) : ∀ which : Fin 4, readEffect (ptpTimeAddr which.val) s = (ptpReadTime which.val s).2
  | 0 => rfl
  | 1 => rfl
  | 2 => rfl
  | 3 => rfl

theorem readEffect_ledgerLeft (n : Fin 16) (s : State) : readEffect (Reg.LGR_LEFT n.val) s = (ledgerRead n.val s).2 := by
  have hb : blockOf (Reg.LGR_LEFT n.val) = 0x63 := by revert n; decide +kernel
  have hi : arrayIdx (Reg.LGR_LEFT n.val) (Reg.LGR_LEFT 0) 16 16 = some n.val := by revert n; decide +kernel
  have hn : Reg.LGR_LEFT n.val ∉ [Reg.TBF_BEAT_COUNT_LO, Reg.MEA_XCOEF_DATA, Reg.TDC_XBIN_DATA] := by revert n; decide +kernel
  simp only [List.mem_cons, List.not_mem_nil, not_or, not_false_eq_true, and_true] at hn
  simp [readEffect, hb, hn, hi]

/-! ### The commands -/

/-- A read that meets a refusal is answered with one of its codes. -/
theorem guardedRead_refused {q : Req} {a : Nat} {s : State} (h : ¬ReadAccepted q a s) (k : State → State) :
    ∃ code ∈ [0x06, 0x05, 0x09], guardedRead q a k s = answer code s := by
  unfold guardedRead
  split
  · exact ⟨0x06, by simp, rfl⟩
  · split
    · exact ⟨0x05, by simp, rfl⟩
    · split
      · exact ⟨0x09, by simp, rfl⟩
      · next hs hm he =>
        refine absurd ?_ h
        simp only [Bool.not_eq_true', Bool.not_eq_false, Bool.and_eq_true] at hs hm
        exact ⟨hs.1, hs.2, hm, Decidable.or_iff_not_imp_left.mpr (fun h0 => Decidable.byContradiction (fun h1 => he ⟨h0, h1⟩))⟩

/-- A command that is a register read answers its view and leaves its effect, behind the refusals of a read. -/
theorem exec_of_asRead {i : Instr} {q : Req} {a : Nat} (h : i.asRead = some (q, a)) (s : State) :
    exec i s = .next (guardedRead q a (fun s => answerData (readView s a) (readEffect a s)) s) := by
  cases i
  case beatCountRead => cases h; rfl
  case linDataRead q g => cases h; simp only [readView_linData, readEffect_linData]; rfl
  case coefDataRead =>
    cases h
    simp only [readView_coefData]
    rfl
  case binDataRead =>
    cases h
    simp only [readView_binData]
    rfl
  case ptpTimeRead q which => cases h; simp only [readView_ptpTime, readEffect_ptpTime]; rfl
  case ledgerReadLatch q n => cases h; simp only [readView_ledgerLeft, readEffect_ledgerLeft]; rfl
  all_goals cases h

/-- Settles O12: an accepted read runs, any other is refused. -/
theorem registerReadsAnswerTheValueInEffect : Obligations.RegisterReadsAnswerTheValueInEffect := by
  intro i q a s hr
  rw [exec_of_asRead hr]
  refine ⟨fun h => by rw [guardedRead_accepted h]; rfl, fun h => ?_⟩
  obtain ⟨code, hc, e⟩ := guardedRead_refused h (fun s => answerData (readView s a) (readEffect a s))
  exact ⟨code, hc, congrArg Host.Outcome.next e⟩

end Sys2Proof.Proofs
end

section
/-! PROOFS. Accepted writes of registers that only hold fields: what each field reads afterwards, by its access type and change class. -/

namespace Sys2Proof.Proofs

open Sys2Proof Sys2Proof.Machine Sys2Proof.Laws

/-! ### Words bit by bit -/

theorem bit_eq_getLsbD (w : Word) (k : Nat) : bit w k = w.getLsbD k := bitN_eq_testBit _ _

theorem word_ext {w v : Word} (h : ∀ k < 32, bit w k = bit v k) : w = v :=
  BitVec.eq_of_getLsbD_eq (fun k hk => by simpa only [bit_eq_getLsbD] using h k hk)

theorem bit_and (w m : Word) (k : Nat) : bit (w &&& m) k = (bit w k && bit m k) := by
  simp only [bit_eq_getLsbD, BitVec.getLsbD_and]

theorem bit_not (w : Word) (k : Nat) (h : k < 32) : bit (~~~w) k = !bit w k := by
  simp [bit_eq_getLsbD, h]

/-- The bits of the mask are those of the new value, every other bit is the old one. -/
theorem bit_mergeMask (w v m : Word) (k : Nat) (h : k < 32) : bit (mergeMask w v m) k = if bit m k then bit v k else bit w k := by
  rw [mergeMask, bit_or, bit_and, bit_and, bit_not _ _ h]
  cases bit m k <;> simp

theorem mergeMask_zero (w v : Word) : mergeMask w v 0 = w := by
  have h1 : w &&& ~~~(0 : Word) = w := BitVec.and_allOnes
  have h2 : v &&& (0 : Word) = 0 := BitVec.and_zero
  rw [mergeMask, h1, h2]
  exact BitVec.or_zero

/-! ### The rows of the register tables -/

/-- No bit that a write clears is one that a write sets. -/
def classesApart (r : RegRow) : Bool := (r.maskI ||| r.maskL) &&& r.maskC == 0

theorem blockRows_classesApart (b : Nat) : (blockRows b).all classesApart = true := by
  unfold blockRows
  split
  · decide +kernel
  · split
    · decide +kernel
    · split <;> decide +kernel

theorem maskC_of_maskI_or_maskL {a : Nat} {r : RegRow} (h : rowOf a = some r) {k : Nat} (hk : (r.maskI.testBit k || r.maskL.testBit k) = true) :
    r.maskC.testBit k = false := by
  have h0 := congrArg (fun n => n.testBit k) (eq_of_beq (List.all_eq_true.mp (blockRows_classesApart _) r (List.mem_of_find?_eq_some h)))
  simpa [hk] using h0

/-! ### A write by class, in two stages -/

/-- What the I, L and W1C fields of a register that held `w` hold after a write. -/
def directValue (r : RegRow) (a : Nat) (w v : Word) : Word := mergeMask w v (maskOfI a ||| maskOfL a) &&& ~~~(v &&& wd r.maskC)

/-- The I, L and W1C fields act and the F fields are held. -/
def writeDirect (r : RegRow) (a : Nat) (v : Word) (s : State) : State :=
  if r.maskF = 0 then setReg a (directValue r a (rd s a) v) s else shadowFset a v (setReg a (directValue r a (rd s a) v) s)

/-- The S fields act at once or are held. -/
def writeStart (r : RegRow) (a : Nat) (v : Word) (s : State) : State :=
  if r.maskS = 0 then s
  else if atOnce s a then setReg a (mergeMask (rd s a) v (wd r.maskS)) { s with shadowS := s.shadowS.filter (fun e => e.1 != a) }
  else shadowSet a v s

theorem writeByClass_of_row {a : Nat} {r : RegRow} (h : rowOf a = some r) (v : Word) (s : State) :
    writeByClass a v s = writeStart r a v (writeDirect r a v s) := by
  simp only [writeByClass, h]
  rfl

section
variable (r : RegRow) (a : Nat) (v : Word) (s : State)

@[simp] theorem writeDirect_shadowF : (writeDirect r a v s).shadowF = if r.maskF = 0 then s.shadowF else putShadow a v s.shadowF := by
  unfold writeDirect
  split <;> rfl

@[simp] theorem writeDirect_shadowS : (writeDirect r a v s).shadowS = s.shadowS := by
  unfold writeDirect
  split <;> rfl

@[simp] theorem writeDirect_atOnce : atOnce (writeDirect r a v s) a = atOnce s a := by
  unfold writeDirect
  split <;> rfl

theorem rd_writeDirect (b : Nat) : rd (writeDirect r a v s) b = if b = a then directValue r a (rd s a) v else rd s b := by
  unfold writeDirect
  split
  · exact rd_setReg ..
  · rw [rd_shadowFset, rd_setReg]

@[simp] theorem writeStart_shadowF : (writeStart r a v s).shadowF = s.shadowF := by
  unfold writeStart
  split
  · rfl
  · split <;> rfl

@[simp] theorem writeStart_shadowS : (writeStart r a v s).shadowS =
    if r.maskS = 0 then s.shadowS else s.shadowS.filter (fun e => e.1 != a) ++ if atOnce s a then [] else [(a, v)] := by
  unfold writeStart
  split
  · rfl
  · split
    · simp
    · rfl

theorem rd_writeStart (b : Nat) : rd (writeStart r a v s) b = if b = a ∧ atOnce s a = true then mergeMask (rd s a) v (wd r.maskS) else rd s b := by
  unfold writeStart
  split
  · next h0 =>
    rw [h0, show wd 0 = 0 from rfl, mergeMask_zero]
    split
    · next hb => rw [hb.1]
    · rfl
  · split
    · next ha =>
      simp only [ha, and_true]
      exact rd_setReg ..
    · next ha =>
      rw [if_neg (fun h => ha h.2)]
      exact rd_shadowSet ..

end

section
variable {a : Nat} {r : RegRow} (h : rowOf a = some r) (v : Word) (s : State)
include h

theorem rd_writeByClass_self : rd (writeByClass a v s) a =
    if atOnce s a then mergeMask (directValue r a (rd s a) v) v (wd r.maskS) else directValue r a (rd s a) v := by
  rw [writeByClass_of_row h, rd_writeStart, rd_writeDirect, writeDirect_atOnce]
  simp

theorem rd_writeByClass_other {b : Nat} (hb : b ≠ a) : rd (writeByClass a v s) b = rd s b := by
  rw [writeByClass_of_row h, rd_writeStart, if_neg (fun e => hb e.1), rd_writeDirect, if_neg hb]

theorem writeByClass_shadowF : (writeByClass a v s).shadowF = if r.maskF = 0 then s.shadowF else putShadow a v s.shadowF := by
  rw [writeByClass_of_row h, writeStart_shadowF, writeDirect_shadowF]

theorem writeByClass_shadowS : (writeByClass a v s).shadowS =
    if r.maskS = 0 then s.shadowS else s.shadowS.filter (fun e => e.1 != a) ++ if atOnce s a then [] else [(a, v)] := by
  rw [writeByClass_of_row h, writeStart_shadowS, writeDirect_shadowS, writeDirect_atOnce]

theorem bit_maskOfI_or_maskOfL {k : Nat} (hk : k < 32) :
    bit (maskOfI a ||| maskOfL a) k = ((r.maskI.testBit k || r.maskL.testBit k) && !r.maskWO.testBit k) := by
  simp only [maskOfI, maskOfL, h, bit_or, bit_and, bit_not _ _ hk, bit_wd _ _ hk]
  exact (Bool.and_or_distrib_right ..).symm

theorem bit_directValue (w : Word) {k : Nat} (hk : k < 32) : bit (directValue r a w v) k =
    if (r.maskI.testBit k || r.maskL.testBit k) && !r.maskWO.testBit k then bit v k
    else if r.maskC.testBit k then bit w k && !bit v k else bit w k := by
  have hc := maskC_of_maskI_or_maskL h (k := k)
  rw [directValue, bit_and, bit_mergeMask _ _ _ _ hk, bit_maskOfI_or_maskOfL h hk, bit_not _ _ hk, bit_and, bit_wd _ _ hk]
  split
  · next hs => simp [hc (Bool.and_eq_true_iff.mp hs).1]
  · split <;> simp [*]

/-- R14, R15 and R16, bit by bit. -/
theorem bit_writeByClass {k : Nat} (hk : k < 32) : bit (rd (writeByClass a v s) a) k =
    if (r.maskI.testBit k || r.maskL.testBit k) && !r.maskWO.testBit k then bit v k
    else if r.maskS.testBit k && atOnce s a then bit v k
    else if r.maskC.testBit k then bit (rd s a) k && !bit v k else bit (rd s a) k := by
  rw [rd_writeByClass_self h]
  split
  · next ha =>
    rw [bit_mergeMask _ _ _ _ hk, bit_wd _ _ hk, bit_directValue h v _ hk, ha]
    cases r.maskS.testBit k <;> simp
  · next ha => rw [bit_directValue h v _ hk]; simp [ha]

end

/-! ### Registers that only hold fields -/

theorem writeLnk_plain {a : Nat} (hb : 0x10 ≤ blockOf a ∧ blockOf a < 0x20) (h : hasOwnEffect a = false) (v : Word) (s : State) :
    writeLnk (blockOf a - 0x10) a v s = plainWrite a v s := by
  have hg : blockOf a % 16 = blockOf a - 0x10 := by omega
  simp only [hasOwnEffect, if_pos hb, hg] at h
  simp_all [writeLnk]

theorem writeTst_plain {a : Nat} (hb : 0x30 ≤ blockOf a ∧ blockOf a < 0x40) (h : hasOwnEffect a = false) (q : Req) (v : Word) (s : State) :
    writeTst q (blockOf a - 0x30) a v s = plainWrite a v s := by
  have hg : blockOf a % 16 = blockOf a - 0x30 := by omega
  simp only [hasOwnEffect, if_pos hb, if_neg (show ¬(0x10 ≤ blockOf a ∧ blockOf a < 0x20) by omega), hg] at h
  simp_all [writeTst]

/-- Every block writes a register without an effect of its own by the classes of its fields. -/
theorem regWrite_plain {a : Nat} (h : hasOwnEffect a = false) (q : Req) (o : WriteObs) (v : Word) (s : State) :
    regWrite q o a v s = plainWrite a v s := by
  unfold regWrite
  dsimp only
  split
  · next hb => exact writeLnk_plain hb h v s
  · next h1 =>
    split
    · next hb => exact writeTst_plain hb h q v s
    · next h3 =>
      simp only [hasOwnEffect, if_neg h1, if_neg h3] at h
      split
      all_goals
        rename_i hb
        simp_all [writeSys, writeImg, writeTbf, writeSeq, writeCmp, writeMea, writeSrc, writeTdc, writeTrg, writeAcq, writeQdr, writeMemBlock,
          writeLib, writeSch, writeDma, writeNet, writePtp, writeFlt, writePwr, writeSec, writeDbg]

theorem plainWrite_outOfRange {a : Nat} {v : Word} (h : outOfRange a v = true) (s : State) : plainWrite a v s = answer 0x45 s := by
  rw [plainWrite, refuseIf, if_pos h]
  rfl

theorem plainWrite_inRange {a : Nat} {v : Word} (h : outOfRange a v = false) (s : State) : plainWrite a v s = accept a v s := by
  rw [plainWrite, refuseIf, if_neg (by simp [h])]

/-- An accepted write of a register that only holds fields, where no request waits, is that write alone. -/
theorem exec_registerWrite_plain {q : Req} {a : Nat} {v : Word} {s : State} (hq : Quiet s) (h4 : a % 4 = 0) (hd : dapOnly a = false)
    (hA : Accepted q a v s) (he : hasOwnEffect a = false) (obs : WriteObs) :
    exec (.registerWrite q a v obs) s = .next (plainWrite a v s) := by
  have hp : hostWrite q obs a v s = plainWrite a v s := by
    rw [hostWrite_guarded (fun _ => ⟨h4, hd⟩), guarded_accepted hA, regWrite_plain he]
  have hm : Moves [.regs, .shadowS, .shadowF, .ans] s (plainWrite a v s) := plainWrite_moves (hw := rfl) (h0 := Moves.refl _ s) ..
  have hn : (plainWrite a v s).net = s.net := hm.alters.same .net (by decide)
  show Host.Outcome.next (resume (hostWrite q obs a v s)) = _
  rw [hp, resume_quiet (quiet_congr hq (congrArg Net.sess hn))]

/-- Settles O11: the write is `accept` within its range, whose registers and shadows are those of `writeByClass`. -/
theorem acceptedWritesActByChangeClass : Obligations.AcceptedWritesActByChangeClass := by
  intro q a v obs s r hq h4 hd hA he hr
  rw [exec_registerWrite_plain hq h4 hd hA he]
  refine ⟨fun ho => by rw [plainWrite_outOfRange ho]; rfl, fun ho => ⟨accept a v s, by rw [plainWrite_inRange ho], rfl, ?_, ?_, ?_, ?_, ?_⟩⟩
  · intro k hk
    rw [accept, rd_answer, bit_writeByClass hr v s hk]
  · intro b hb
    rw [accept, rd_answer, rd_writeByClass_other hr v s (by simpa using hb)]
  · exact writeByClass_shadowF hr v s
  · exact writeByClass_shadowS hr v s
  · exact (accept_moves (hw := rfl) (h0 := Moves.refl _ s) a v).alters

end Sys2Proof.Proofs
end

section
/-! PROOFS. The writes of a group's timing registers: set, period, modes and the table window (R276 to R281, R288). -/

namespace Sys2Proof.Proofs

open Sys2Proof Sys2Proof.Machine Sys2Proof.Laws

@[simp] theorem linkOf_modLink_self (g : Nat) (f : Link → Link) (s : State) : linkOf (modLink g f s) g = f (linkOf s g) := tget_tset_self ..

/-! ### Fields that wait for a START -/

/-- Whether a register only holds S fields and belongs to a unit, so that every write of it waits for a START. -/
def startOnly (a : Nat) : Bool :=
  fieldUnit a != .other && (rowOf a).any (fun r => r.maskI == 0 && r.maskL == 0 && r.maskC == 0 && r.maskS != 0)

/-- The write is answered OK and waits in its shadow, and no register changes. -/
structure HeldForStart (a : Nat) (v : Word) (s t : State) : Prop where
  ans : t.ans = { status := 0 }
  shadowS : t.shadowS = s.shadowS.filter (fun e => e.1 != a) ++ [(a, v)]
  regs : SameRegs [] s t

theorem accept_startOnly {a : Nat} (h : startOnly a = true) (v : Word) (s : State) : HeldForStart a v s (accept a v s) := by
  obtain ⟨hu, h⟩ := Bool.and_eq_true_iff.mp h
  obtain ⟨r, hr, hm⟩ := (Option.any_eq_true _ _).mp h
  simp only [Bool.and_eq_true, beq_iff_eq, bne_iff_ne, ne_eq] at hm
  obtain ⟨⟨⟨hI, hL⟩, hC⟩, hS⟩ := hm
  have ha : atOnce s a = false := by simp_all [atOnce]
  refine ⟨rfl, ?_, fun b _ => ?_⟩
  · rw [accept, answer_shadowS, writeByClass_shadowS hr, if_neg hS, ha]
    rfl
  · rw [accept, rd_answer]
    by_cases hb : b = a
    · subst hb
      refine word_ext (fun k hk => ?_)
      rw [bit_writeByClass hr v s hk]
      simp [hI, hL, hC, ha]
    · exact rd_writeByClass_other hr v s hb

theorem startOnly_period (g : Fin 16) : startOnly (Reg.TST_PERIOD g.val) = true := by revert g; decide +kernel

theorem startOnly_mode (g : Fin 16) (r : Fin 4) : startOnly (Reg.TST_MODE g.val r.val) = true := by revert g r; decide +kernel

/-! ### TST_TSET -/

theorem begun_le_nextBoundary (l : Link) : l.begun ≤ nextBoundary l := by
  unfold nextBoundary
  split
  · exact Nat.le_refl _
  · exact Nat.le_max_left ..

theorem built_lt_nextBoundary {l : Link} (h : l.built ≠ 0) : l.built < nextBoundary l := by
  rw [nextBoundary, if_neg h]
  exact Nat.le_max_right ..

theorem linkOf_enterSet_tsetAt (g set : Nat) (s : State) : (linkOf (enterSet g set s) g).tsetAt = some (nextBoundary (linkOf s g)) := by
  simp [enterSet, setInStream]

theorem mem_tsets_enterSet (g set : Nat) (s : State) : (128 * nextBoundary (linkOf s g), set) ∈ (linkOf (enterSet g set s) g).tsets := by
  simp [enterSet, setInStream]

theorem enterSet_moves_links (g set : Nat) (s : State) : Moves [.links] s (enterSet g set s) := enterSet_moves (hw := rfl) (h0 := Moves.refl _ s) ..

/-- Within a step whose LAST frame is not yet sent, a set enters its group's stream; otherwise it only waits (R278). -/
theorem tsetWrite_eq (g : Nat) (v : Word) (s : State) : tsetWrite g v s = answer stOk
    (if groupInStep s g && !(linkOf s g).finished then enterSet g (fld v 5 0) (shadowFset (Reg.TST_TSET g) v s)
      else shadowFset (Reg.TST_TSET g) v s) := rfl

theorem tsetWrite_links_waits {g : Nat} {s : State} (h : groupInStep s g = false ∨ (linkOf s g).finished = true) (v : Word) :
    (tsetWrite g v s).links = s.links := by
  rw [tsetWrite_eq, if_neg (by rcases h with h | h <;> simp [h])]
  rfl

theorem linkOf_tsetWrite_entered {g : Nat} {s : State} (hg : groupInStep s g = true) (hf : (linkOf s g).finished = false) (v : Word) :
    linkOf (tsetWrite g v s) g = linkOf (enterSet g (fld v 5 0) (shadowFset (Reg.TST_TSET g) v s)) g := by
  rw [tsetWrite_eq, if_pos (by simp [hg, hf])]
  rfl

theorem tsetWrite_regs (g : Nat) (v : Word) (s : State) : (tsetWrite g v s).regs = s.regs := by
  have hm : Moves [.shadowF, .links, .ans] s (tsetWrite g v s) := tsetWrite_moves (hw := rfl) (h0 := Moves.refl _ s) ..
  exact hm.alters.same .regs (by decide)

theorem tsetWrite_shadowF (g : Nat) (v : Word) (s : State) : (tsetWrite g v s).shadowF = putShadow (Reg.TST_TSET g) v s.shadowF := by
  rw [tsetWrite_eq, answer_shadowF]
  split
  · exact (enterSet_moves_links ..).alters.same .shadowF (by decide)
  · rfl

/-! ### TST_PERIOD -/

/-- Outside the range of R280: of the register, of the companion, or of the high-speed mode. -/
def badPeriod (s : State) (g n : Nat) : Prop := n < 256 ∨ 16777215 < n ∨ n < minPeriod s g ∨ 2048 < n ∧ groupPermits s g 6 = true

theorem periodWrite_badPeriod {s : State} {g : Nat} {v : Word} (h : badPeriod s g v.toNat) : periodWrite g v s = answer 0x45 s := by
  unfold periodWrite
  dsimp only
  rw [if_pos (by simpa [badPeriod, or_assoc] using h)]
  rfl

theorem periodWrite_inRange {s : State} {g : Nat} {v : Word} (h : ¬badPeriod s g v.toNat) : periodWrite g v s =
    ((rangeBreak (tstOf s g) v.toNat).map (fun key => entryInvalid g (key / 512) (key / 16 % 32) (2, key % 16) s)).getD
      (accept (Reg.TST_PERIOD g) v s) := by
  unfold periodWrite
  dsimp only
  rw [if_neg (by simpa [badPeriod, or_assoc] using h)]
  cases rangeBreak (tstOf s g) v.toNat <;> rfl

/-- A refusal with ENTRY_INVALID names its cause in TST_REASON and leaves the rest. -/
theorem entryInvalid_refuses (g set k : Nat) (b : Nat × Nat) (s : State) : (entryInvalid g set k b s).ans = { status := 0x48 } ∧
    SameRegs [Reg.TST_REASON g] s (entryInvalid g set k b s) ∧ (entryInvalid g set k b s).shadowS = s.shadowS := by
  unfold entryInvalid
  exact ⟨rfl, sr_answer _ (sr_setRegN _ _ (by simp) sameRegs_refl), by rw [answer_shadowS, setRegN_shadowS]⟩

theorem periodWrite_breaks {s : State} {g : Nat} {v : Word} (h : ¬badPeriod s g v.toNat) (hb : rangeBreak (tstOf s g) v.toNat ≠ none) :
    (periodWrite g v s).ans = { status := 0x48 } ∧ SameRegs [Reg.TST_REASON g] s (periodWrite g v s) ∧ (periodWrite g v s).shadowS = s.shadowS := by
  obtain ⟨key, hk⟩ := Option.ne_none_iff_exists'.mp hb
  rw [periodWrite_inRange h, hk, Option.map_some, Option.getD_some]
  exact entryInvalid_refuses ..

/-! ### TST_MODE -/

theorem not_reserved {l : List (Nat × Nat)} (h : ∀ e ∈ l, e.2 ≠ 7) : ¬l.any (fun e => e.2 == 7) = true := by
  simp only [List.any_eq_true, beq_iff_eq, not_exists, not_and]
  exact h

section
variable {s : State} {g r : Nat} {v : Word}

theorem modeWrite_loading (h : rdFld s Reg.IMG_STATUS 1 0 = 1) : modeWrite g r v s = answer 0x43 s := by
  unfold modeWrite
  dsimp only
  rw [if_pos h]
  rfl

variable (h1 : rdFld s Reg.IMG_STATUS 1 0 ≠ 1)
include h1

theorem modeWrite_reserved (h : ∃ e ∈ modeCodes r v, e.2 = 7) : modeWrite g r v s = answer 0x45 s := by
  unfold modeWrite
  dsimp only
  rw [if_neg h1, if_pos (by simpa using h)]
  rfl

variable (h7 : ∀ e ∈ modeCodes r v, e.2 ≠ 7)
include h7

theorem modeWrite_noImage (h0 : rdFld s Reg.IMG_STATUS 1 0 = 0) :
    modeWrite g r v s = if (modeCodes r v).any (fun e => e.2 != 0) then answer 0x08 s else answer 0 s := by
  unfold modeWrite
  dsimp only
  rw [if_neg h1, if_neg (not_reserved h7), if_pos h0]
  rfl

theorem modeWrite_image (h0 : rdFld s Reg.IMG_STATUS 1 0 ≠ 0) : modeWrite g r v s =
    if (modeCodes r v).any (fun e => !(bitN (chanRole s (32 * g + e.1)).permit e.2)) then answer 0x08 s else accept (Reg.TST_MODE g r) v s := by
  unfold modeWrite
  dsimp only
  rw [if_neg h1, if_neg (not_reserved h7), if_neg h0]
  rfl

end

/-! ### The table window -/

theorem nextLin_sameRegs (g : Nat) (s : State) : SameRegs [Reg.TST_XLIN_ADDR g] s (nextLin g s) := sr_setFld _ _ _ _ (by simp) sameRegs_refl

theorem rdFld_nextLin (g : Nat) (s : State) :
    rdFld (nextLin g s) (Reg.TST_XLIN_ADDR g) 7 0 = (rdFld s (Reg.TST_XLIN_ADDR g) 7 0 + 1) % 256 := rdFld_setFld_self _ _ _ _ _ (by decide)

/-- The residual of the channel that the window selects is not the window's own register. -/
theorem resid_ne_linAddr (g : Nat) (s : State) : Reg.TST_RESID g (rdFld s (Reg.TST_XLIN_ADDR g) 12 8) ≠ Reg.TST_XLIN_ADDR g := by
  have hk : rdFld s (Reg.TST_XLIN_ADDR g) 12 8 < 32 := Nat.mod_lt _ (by decide)
  unfold Reg.TST_RESID Reg.TST_XLIN_ADDR at *
  omega

theorem linRead_sameRegs (g : Nat) (s : State) : SameRegs [Reg.TST_XLIN_ADDR g] s (linRead g s) := sr_answerData _ (nextLin_sameRegs g s)

theorem rdFld_linRead (g : Nat) (s : State) :
    rdFld (linRead g s) (Reg.TST_XLIN_ADDR g) 7 0 = (rdFld s (Reg.TST_XLIN_ADDR g) 7 0 + 1) % 256 := by
  rw [linRead, rdFld_congr (rd_answerData ..), rdFld_nextLin]

theorem linRead_tst (g : Nat) (s : State) : (linRead g s).tst = s.tst := by
  rw [linRead, answerData_tst, nextLin, setFld_tst]

/-- What the write of the window sets: the entry, the residual of its channel, and then the index. -/
theorem linWrite_eq (g : Nat) (v : Word) (s : State) : linWrite g v s = answer 0 (nextLin g (setRegN (Reg.TST_RESID g (rdFld s (Reg.TST_XLIN_ADDR g) 12 8))
    0xFFFFFFFF (modTst g (fun t => { t with lin := tset (fun _ => 0) t.lin (linSel s g) (fld v 9 0) }) s))) := rfl

theorem tstOf_linWrite (g : Nat) (v : Word) (s : State) : tstOf (linWrite g v s) g =
    { tstOf s g with lin := tset (fun _ => 0) (tstOf s g).lin (linSel s g) (fld v 9 0) } := tget_tset_self ..

theorem linWrite_sameRegs (g : Nat) (v : Word) (s : State) :
    SameRegs [Reg.TST_XLIN_ADDR g, Reg.TST_RESID g (rdFld s (Reg.TST_XLIN_ADDR g) 12 8)] s (linWrite g v s) := by
  rw [linWrite_eq]
  exact sr_answer _ (sr_setFld _ _ _ _ (by simp) (sr_setRegN _ _ (by simp) (sr_modTst _ _ sameRegs_refl)))

/-- The write marks the residual of its channel as not measured and counts the index on; the two lie in different registers. -/
theorem rd_linWrite_resid (g : Nat) (v : Word) (s : State) :
    rd (linWrite g v s) (Reg.TST_RESID g (rdFld s (Reg.TST_XLIN_ADDR g) 12 8)) = 0xFFFFFFFF := by
  rw [linWrite_eq, rd_answer, nextLin, rd_setFld_other _ _ _ _ _ _ (resid_ne_linAddr g s), rd_setRegN_self]
  rfl

theorem rdFld_linWrite (g : Nat) (v : Word) (s : State) :
    rdFld (linWrite g v s) (Reg.TST_XLIN_ADDR g) 7 0 = (rdFld s (Reg.TST_XLIN_ADDR g) 7 0 + 1) % 256 := by
  rw [linWrite_eq, rdFld_congr (rd_answer ..), rdFld_nextLin, rdFld_congr (rd_setRegN_other _ _ _ _ (resid_ne_linAddr g s).symm),
    rdFld_congr (rd_modTst ..)]

/-! ### The commands -/

/-- Settles O30, one part for each register. -/
theorem timingRegistersAreChecked : Obligations.TimingRegistersAreChecked := by
  intro q g r v s held bad img codes x
  have hold {a : Nat} (h : startOnly a = true) : held a (accept a v s) :=
    ⟨(accept_startOnly h v s).ans, (accept_startOnly h v s).shadowS, (accept_startOnly h v s).regs⟩
  refine ⟨fun hA => ?_, fun hA => ?_, fun hA => ?_, fun hA => ?_, fun hA => ?_⟩
  · refine ⟨tsetWrite g.val v s, congrArg Host.Outcome.next (guarded_accepted hA _), rfl, tsetWrite_regs .., tsetWrite_shadowF ..,
      fun h => tsetWrite_links_waits h v, fun hg hf => ⟨nextBoundary (linkOf s g.val), ?_⟩⟩
    rw [linkOf_tsetWrite_entered hg hf]
    exact ⟨linkOf_enterSet_tsetAt .., mem_tsets_enterSet .., begun_le_nextBoundary _, built_lt_nextBoundary⟩
  · have hx : exec (.periodWrite q g v) s = .next (periodWrite g.val v s) := congrArg Host.Outcome.next (guarded_accepted hA _)
    rw [hx]
    refine ⟨fun h => by rw [periodWrite_badPeriod h]; rfl, fun h hb => ⟨_, rfl, periodWrite_breaks h hb⟩, fun h hb => ⟨_, rfl, ?_⟩⟩
    rw [periodWrite_inRange h, hb]
    exact hold (startOnly_period g)
  · have hx : exec (.modeWrite q g r v) s = .next (modeWrite g.val r.val v s) := congrArg Host.Outcome.next (guarded_accepted hA _)
    rw [hx]
    refine ⟨fun h => by rw [modeWrite_loading h]; rfl, fun h h7 => by rw [modeWrite_reserved h h7]; rfl, fun h0 h7 hn => ?_, fun h0 hn => ?_,
      fun h2 h7 hp => ?_, fun h2 h7 hp => ⟨_, rfl, ?_⟩⟩
    · rw [modeWrite_noImage (by omega) h7 h0, if_pos (by simpa using hn)]
      rfl
    · rw [modeWrite_noImage (by omega) (fun e he => by simp [hn e he]) h0, if_neg (by simpa using hn)]
      rfl
    · rw [modeWrite_image (by omega) h7 (by omega), if_pos (by simpa using hp)]
      rfl
    · rw [modeWrite_image (by omega) h7 (by omega), if_neg (by simpa using hp)]
      exact hold (startOnly_mode g r)
  · refine ⟨linWrite g.val v s, congrArg Host.Outcome.next (guarded_accepted hA _), rfl, ?_, rd_linWrite_resid .., rdFld_linWrite .., linWrite_sameRegs _ _ _⟩
    rw [tstOf_linWrite]
    exact tget_tset_self ..
  · exact ⟨linRead g.val s, congrArg Host.Outcome.next (guardedRead_accepted hA _), rfl, rdFld_linRead .., linRead_sameRegs _ _, linRead_tst ..⟩

end Sys2Proof.Proofs
end

section
/-! PROOFS. What a reset of a DETACHED unit (R672) does with the grave record that the library keeps (R615): it is put back word by word from
FLT_GRAVE0 up. The device's record has 16 words, and no run of the model keeps a longer one; but a statement about every state meets records of any
length, and one of more than 49,216 words reaches SEC_VENDOR_HASH. Firmware that the boot ROM refuses before the reset (R653) can then pass after it,
and the unit does not enter RECOVERY. The last clause of the statement on detach fails there. -/

namespace Sys2Proof.Proofs

open Sys2Proof Sys2Proof.Machine Sys2Proof.Laws

/-! ### The vendor's key hash across a reset -/

/-- The number of registers from FLT_GRAVE0 to SEC_VENDOR_HASH0. -/
def graveToVendor : Nat := 49216

theorem vendorHash_reg (i : Nat) : Reg.SEC_VENDOR_HASH i = Reg.FLT_GRAVE 0 + 4 * (graveToVendor + i) := by
  unfold Reg.SEC_VENDOR_HASH Reg.FLT_GRAVE graveToVendor
  omega

/-- The hash is the eight words that its registers read. -/
theorem vendorHash_eq_of_rd {s : State} {key : List Word} (hl : key.length = 8)
    (hr : ∀ i < 8, rd s (Reg.SEC_VENDOR_HASH i) = nth 0 key i) : vendorHash s = key := by
  have hv : vendorHash s = (List.range 8).map (fun i => rd s (Reg.SEC_VENDOR_HASH i)) := rfl
  rw [hv]
  refine List.ext_getElem (by simp [hl]) (fun i hi hk => ?_)
  have h8 : i < 8 := by simpa using hi
  simp [hr i h8, nth, hk]

theorem rd_showSec_vendorHash (s : State) {i : Nat} (hi : i < 8) : rd (showSec s) (Reg.SEC_VENDOR_HASH i) = rd s (Reg.SEC_VENDOR_HASH i) := by
  have slot (k : Nat) (hk : k < 4) (t : State) :
      rd (setRegs (Reg.SEC_SLOT_HASH (8 * k)) (padTo 8 0 (keySlot t k).hash) t) (Reg.SEC_VENDOR_HASH i) = rd t (Reg.SEC_VENDOR_HASH i) := by
    refine rd_setRegs_other _ _ _ _ (fun j hj => ?_)
    have h8 : j < 8 := Nat.lt_of_lt_of_le hj (by simp [padTo])
    unfold Reg.SEC_VENDOR_HASH Reg.SEC_SLOT_HASH
    omega
  unfold showSec
  extract_lets x busy s1 s2 s3
  rw [rd_setRegs_other _ _ _ _ (fun j _ => by unfold Reg.SEC_VENDOR_HASH Reg.SEC_IDKEY; omega)]
  have h3 : rd s3 (Reg.SEC_VENDOR_HASH i) = rd s2 (Reg.SEC_VENDOR_HASH i) := by
    show rd ((List.range 4).foldl _ s2) _ = _
    rw [show List.range 4 = [0, 1, 2, 3] from rfl]
    simp only [List.foldl_cons, List.foldl_nil]
    rw [slot 3 (by decide), slot 2 (by decide), slot 1 (by decide), slot 0 (by decide)]
  rw [h3, rd_setRegN_other _ _ _ _ (by unfold Reg.SEC_VENDOR_HASH Reg.SEC_SVN; omega),
    rd_setRegN_other _ _ _ _ (by unfold Reg.SEC_VENDOR_HASH Reg.SEC_STATUS; omega)]

/-- After a reset the registers of the hash hold the words that a kept record has at their places. -/
theorem rd_freshState_vendorHash {s : State} (hg : s.flt.grave = false) {i : Nat} (hi : i < 8) (hl : graveToVendor + i < s.flt.graveKept.length) :
    rd (freshState s) (Reg.SEC_VENDOR_HASH i) = nth 0 s.flt.graveKept (graveToVendor + i) := by
  unfold freshState
  extract_lets t0 x1 x2 x3 x4 x5 t2 t3 t4 t5 t6 t7
  have h7 : t7 = setRegs (Reg.FLT_GRAVE 0) s.flt.graveKept t6 := if_neg (by simp [hg])
  rw [rd_showSec_vendorHash _ hi, rd_congr (show (drawNonce t7).regs = t7.regs from rfl), h7, vendorHash_reg, rd_setRegs_self _ _ _ _ hl]

/-! ### Start-up from the state that the straps' role leaves -/

/-- The state in which the boot ROM looks for firmware (R653, R665), where no UVLO is to be reported. -/
def romState (s : State) : State := showXo (applyRole { s with pwr := { s.pwr with state := .hold, inReset := false } })

theorem romState_alters (s : State) : Alters [.regs] { s with pwr := { s.pwr with state := .hold, inReset := false } } (romState s) :=
  (showXo_moves (hw := rfl) (h0 := applyRole_moves (hw := rfl) (h0 := Moves.refl [.regs] _))).alters

theorem romState_pwr (s : State) : (romState s).pwr = { s.pwr with state := .hold, inReset := false } := (romState_alters s).same .pwr (by decide)

/-- The registers in which the role is set and the reference chosen (R70, R75, R679). -/
def roleRegs : List Nat := [Reg.TBF_CTRL, Reg.TBF_STATUS, Reg.TBF_EVENTS, Reg.TBF_SWITCH_COUNT, Reg.PWR_CTRL]

theorem refPolicy_sameRegs {s0 s : State} (h : SameRegs roleRegs s0 s) : SameRegs roleRegs s0 (refPolicy s) := by
  unfold refPolicy refToXo
  refine sr_setBit _ _ _ (by decide) ?_
  split
  · split
    · exact h
    · exact sr_incWrap _ _ (by decide) (sr_orReg _ _ (by decide) (sr_setBit _ _ _ (by decide) (sr_setBit _ _ _ (by decide) h)))
  · exact h

theorem romState_sameRegs (s : State) : SameRegs roleRegs s (romState s) :=
  sr_setBit _ _ _ (by decide) (sr_setRegN _ _ (by decide) (refPolicy_sameRegs (sr_setRegN _ _ (by decide) (sr_congr rfl sameRegs_refl))))

theorem rd_romState_vendorHash (s : State) (i : Nat) : rd (romState s) (Reg.SEC_VENDOR_HASH i) = rd s (Reg.SEC_VENDOR_HASH i) := by
  refine romState_sameRegs s _ ?_
  simp only [roleRegs, List.mem_cons, List.not_mem_nil, or_false, not_or]
  unfold Reg.SEC_VENDOR_HASH Reg.TBF_CTRL Reg.TBF_STATUS Reg.TBF_EVENTS Reg.TBF_SWITCH_COUNT Reg.PWR_CTRL
  omega

/-- The microcode the module ships with passes, and loading it leaves the power state and the security state (R214, R229). -/
theorem loadMicrocode_shipped {c : CryptoObs} {s : State} (hc : (ucodeObj s).written = 0) :
    ∃ t, loadMicrocode c s = some t ∧ t.pwr = s.pwr ∧ t.sec.state = s.sec.state := by
  unfold loadMicrocode
  rw [if_pos hc]
  exact ⟨_, rfl, rfl, rfl⟩

theorem bootImage_retired {o : BootObs} {s : State} (hr : s.sec.state = .retired) : bootImage o s = s := if_pos hr

/-- A retired unit (R645) that finds firmware, and the microcode it ships with, starts without RECOVERY. -/
theorem startUp_recovery {o : BootObs} {s : State} {k : Nat} (hu : s.pwr.uvlo = false) (hp : pickFirmware (romState s) o = some k)
    (hc : (ucodeObj s).written = 0) (hr : s.sec.state = .retired) : (startUp o s).pwr.recovery = s.pwr.recovery := by
  have ha := romState_alters s
  have huvlo : (romState s).pwr.uvlo = s.pwr.uvlo := by rw [romState_pwr]
  have hrec : (romState s).pwr.recovery = s.pwr.recovery := by rw [romState_pwr]
  have hlib : (romState s).lib = s.lib := ha.same .lib (by decide)
  have hsec : (romState s).sec = s.sec := ha.same .sec (by decide)
  unfold startUp
  extract_lets x v y w
  have hw : w = romState s := if_neg (by rw [show v.pwr.uvlo = s.pwr.uvlo from huvlo, hu]; simp)
  clear_value w
  subst hw
  rw [hp]
  dsimp -zeta only
  extract_lets u
  obtain ⟨t, ht, htp, hts⟩ := loadMicrocode_shipped (c := o.ucode) (s := u) (by rwa [ucodeObj, objOf, show u.lib = s.lib from hlib])
  rw [ht]
  dsimp only
  rw [bootImage_retired (hts.trans ((congrArg Sec.state hsec).trans hr)), htp]
  exact hrec

/-! ### Firmware signed by a key -/

/-- Firmware without code (R653): its header, and a signature block whose key is all zeros. -/
def signedFw : LibObj :=
  { typ := 6, length := 7296, written := 7296, state := .sealed,
    data := [(0, 0x4B), (1, 0x58), (2, 0x46), (3, 0x57), (4, 1), (64, 0x87), (66, 0xFF)] }

/-- It passes exactly where its signer's hash is the vendor's and the signature verifies. -/
theorem firmwareOk_signedFw (s : State) (c : CryptoObs) :
    firmwareOk s signedFw c = (decide (s.sec.fwFloor ≤ 0) && (signerHash signedFw 64 == vendorHash s && c.sigOk)) := by
  have hcode : objN signedFw 0x10 4 = 0 := by decide
  have hver : objN signedFw 0x0C 4 = 0 := by decide
  have hhead : (objN signedFw 0 4 == 0x5746584B && objN signedFw 4 2 == 1) = true := by decide
  have hsig : (objN signedFw 64 2 == 0x0087 && objN signedFw (64 + 2) 1 == 0xFF && objZero signedFw (64 + 3) 1 &&
    objZero signedFw (64 + 0x1C37) 9 && decide (64 + 7232 ≤ signedFw.written)) = true := by decide
  rw [firmwareOk, vendorSigned, hcode, hver, hhead, hsig]
  simp

/-- Slot 0 holds that firmware, and nothing else was written to the library. -/
def OnlySignedFw (s : State) : Prop := s.lib.objs = [(0xFFFFFF10, some signedFw)]

theorem pickFirmware_onlySignedFw {s : State} (h : OnlySignedFw s) (o : BootObs) :
    pickFirmware s o = if firmwareOk s signedFw o.fw0 = true then some 0 else none := by
  have h0 : fwObj s 0 = signedFw := by rw [fwObj, objOf, show s.lib.objs = _ from h]; rfl
  have h1 : fwObj s 1 = { typ := 6, length := 0, state := .sealed } := by rw [fwObj, objOf, show s.lib.objs = _ from h]; rfl
  have hw : signedFw.written ≠ 0 := by decide
  have hs : (signedFw.state == .sealed) = true := rfl
  have v0 : fwValid s 0 o.fw0 = firmwareOk s signedFw o.fw0 := by simp only [fwValid, h0, if_neg hw, hs, Bool.true_and]
  have v1 : fwValid s 1 o.fw1 = false := by rw [fwValid, h1]; rfl
  unfold pickFirmware
  rw [v0, v1]
  cases firmwareOk s signedFw o.fw0 <;> rfl

/-- The boot ROM refuses it under another vendor's hash. -/
theorem pickFirmware_otherVendor {s : State} (h : OnlySignedFw s) (hv : vendorHash s ≠ signerHash signedFw 64) (o : BootObs) :
    pickFirmware s o = none := by
  rw [pickFirmware_onlySignedFw h, firmwareOk_signedFw, beq_eq_false_iff_ne.mpr (Ne.symm hv)]
  simp

/-! ### A reset that replaces the hash -/

/-- DETACH_N high resets a DETACHED unit (R672). -/
theorem exec_detachNHighRestart_detached {s : State} (h : s.pwr.state = .detached) (o : BootObs) :
    exec (.detachNHighRestart o) s = .next (commandReset o { s with pwr := { s.pwr with detachN := true } }) := by
  have hx : exec (.detachNHighRestart o) s = .next (detachNHigh o s) := rfl
  rw [hx, detachNHigh, if_pos h]

/-- A retired unit with that firmware, whose kept grave record reaches beyond its own registers, to those of SEC_VENDOR_HASH, and has the hash of the
firmware's signer there. -/
structure LongGrave (s : State) : Prop where
  fw : OnlySignedFw s
  kept : s.flt.graveKept = List.replicate graveToVendor 0 ++ signerHash signedFw 64
  grave : s.flt.grave = false
  uvlo : s.pwr.uvlo = false
  retired : s.sec.state = .retired
  fwFloor : s.sec.fwFloor = 0

section
variable {s : State} (h : LongGrave s)
include h

/-- The level of DETACH_N has no part in it. -/
theorem LongGrave.high : LongGrave { s with pwr := { s.pwr with detachN := true } } :=
  ⟨h.fw, h.kept, h.grave, h.uvlo, h.retired, h.fwFloor⟩

theorem rd_freshState_longGrave {i : Nat} (hi : i < 8) :
    rd (freshState s) (Reg.SEC_VENDOR_HASH i) = nth 0 (signerHash signedFw 64) i := by
  have hl : (signerHash signedFw 64).length = 8 := sha3_256_length _
  rw [rd_freshState_vendorHash h.grave hi (by rw [h.kept]; simp [hl, hi]), h.kept]
  unfold nth
  rw [List.getElem?_append_right (by simp)]
  simp

/-- After the reset the boot ROM finds the firmware valid. -/
theorem pickFirmware_reset_longGrave {o : BootObs} (ho : o.fw0.sigOk = true) : pickFirmware (romState (freshState s)) o = some 0 := by
  have ha := romState_alters (freshState s)
  have hb := freshState_base s
  have hlib : (romState (freshState s)).lib = keptLib s.lib := (ha.same .lib (by decide)).trans (hb.same .lib (by decide))
  have hsec : (romState (freshState s)).sec = (resetBase s).sec := (ha.same .sec (by decide)).trans (hb.same .sec (by decide))
  have hfw : OnlySignedFw (romState (freshState s)) := by
    rw [OnlySignedFw, hlib, keptLib, show s.lib.objs = _ from h.fw]
    rfl
  have hf : (romState (freshState s)).sec.fwFloor = 0 := (congrArg Sec.fwFloor hsec).trans h.fwFloor
  have hv : vendorHash (romState (freshState s)) = signerHash signedFw 64 :=
    vendorHash_eq_of_rd (sha3_256_length _) (fun i hi => (rd_romState_vendorHash _ i).trans (rd_freshState_longGrave h hi))
  rw [pickFirmware_onlySignedFw hfw, firmwareOk_signedFw, hv, hf, ho]
  simp

/-- So a reset starts it without RECOVERY. -/
theorem commandReset_longGrave_recovery {o : BootObs} (ho : o.fw0.sigOk = true) : (commandReset o s).pwr.recovery = false := by
  have hb := freshState_base s
  have hpwr : (freshState s).pwr = (resetBase s).pwr := hb.same .pwr (by decide)
  have hsec : (freshState s).sec = (resetBase s).sec := hb.same .sec (by decide)
  have hlib : (freshState s).lib = keptLib s.lib := hb.same .lib (by decide)
  have hu : (ucodeObj (freshState s)).written = 0 := by
    rw [ucodeObj, objOf, hlib, keptLib, show s.lib.objs = _ from h.fw]
    rfl
  rw [commandReset, startUp_recovery ((congrArg Power.uvlo hpwr).trans h.uvlo) (pickFirmware_reset_longGrave h ho) hu
    ((congrArg Sec.state hsec).trans h.retired), hpwr]
  rfl

/-- And so does DETACH_N high where it is DETACHED. -/
theorem detachNHighRestart_longGrave_recovery {o : BootObs} {t : State} (ho : o.fw0.sigOk = true) (hd : s.pwr.state = .detached)
    (ht : exec (.detachNHighRestart o) s = .next t) : t.pwr.recovery = false := by
  rw [exec_detachNHighRestart_detached hd] at ht
  obtain rfl := Host.Outcome.next.inj ht
  exact commandReset_longGrave_recovery h.high ho

end

/-! ### The counterexample -/

/-- A retired unit in DETACHED with that firmware, the grave record `kept`, and the first word of SEC_VENDOR_HASH given. -/
def detachedWith (kept : List Word) (first : Word) : State :=
  setReg (Reg.SEC_VENDOR_HASH 0) first { State.reset with
    lib := { State.reset.lib with objs := [(0xFFFFFF10, some signedFw)] },
    flt := { State.reset.flt with graveKept := kept },
    pwr := { State.reset.pwr with state := .detached }, sec := { State.reset.sec with state := .retired } }

section
variable {kept : List Word} {first : Word}

theorem detachedWith_state : (detachedWith kept first).pwr.state = .detached := rfl

theorem detachedWith_longGrave (h : kept = List.replicate graveToVendor 0 ++ signerHash signedFw 64) : LongGrave (detachedWith kept first) :=
  ⟨rfl, h, rfl, rfl, rfl, rfl⟩

theorem vendorHash_detachedWith {key : List Word} (h : first ≠ nth 0 key 0) : vendorHash (detachedWith kept first) ≠ key := by
  rintro rfl
  exact h (rd_setReg_self _ _ _).symm

end

/-- Its kept record has the hash of the firmware's signer 49,216 words on, and the vendor's hash differs from that in the first word. -/
def longGrave : State :=
  detachedWith (List.replicate graveToVendor 0 ++ signerHash signedFw 64) (nth 0 (signerHash signedFw 64) 0 + 1)

/-- Every signature verifies. -/
def allSigned : BootObs := ⟨⟨true⟩, ⟨true⟩, ⟨true⟩, ⟨true⟩, ⟨true⟩, true⟩

/-- Refutes O58: without a bound on the kept grave record, a DETACHED unit for which the boot ROM finds no valid firmware need not start in
RECOVERY when DETACH_N goes high. -/
theorem not_detachProceedsInPhases : ¬ Obligations.DetachProceedsInPhases := by
  intro h
  obtain ⟨-, -, -, -, -, -, -, -, -, -, -, -, -, -, hdetached⟩ := h ⟨0, true, 0⟩ allSigned longGrave
  obtain ⟨t, ht, -, -, -, -, -, hrecovery⟩ := hdetached detachedWith_state
  have hl : LongGrave longGrave := detachedWith_longGrave rfl
  have hv : vendorHash longGrave ≠ signerHash signedFw 64 := vendorHash_detachedWith (by simp)
  obtain ⟨hr, -⟩ := hrecovery (pickFirmware_otherVendor hl.fw hv _)
  have hn : t.pwr.recovery = false := detachNHighRestart_longGrave_recovery hl rfl detachedWith_state ht
  rw [hn] at hr
  exact Bool.false_ne_true hr

end Sys2Proof.Proofs
end

section
/-! PROOFS. The entries of a timing set: what COMMIT and WRITE_RAW store and send or refuse, and what READ shows (R258, R262, R272 to R275). -/

namespace Sys2Proof.Proofs

open Sys2Proof Sys2Proof.Machine Sys2Proof.Laws

/-! ### Lists, and runs of keys and of registers -/

theorem nth_map {α β : Type} (d : α) (x : β) (f : α → β) {l : List α} {j : Nat} (h : j < l.length) : nth x (l.map f) j = f (nth d l j) := by
  simp [nth, h]

/-- A run of writes reads, key by key, the values written. -/
theorem tget_tsetList_run {α : Type} [DecidableEq α] (d : Nat → α) (x : α) {vs : List α} :
    ∀ (t : Tbl α) (k : Nat) {j : Nat}, j < vs.length → tget d (tsetList d t k vs) (k + j) = nth x vs j := by
  induction vs with
  | nil => exact fun _ _ _ h => absurd h (Nat.not_lt_zero _)
  | cons v vs ih =>
    intro t k j h
    cases j with
    | zero =>
      rw [tsetList, tget_tsetList_other _ _ _ _ _ (by omega), Nat.add_zero, tget_tset_self]
      rfl
    | succ j =>
      rw [tsetList, show k + (j + 1) = k + 1 + j by omega, ih _ _ (Nat.lt_of_succ_lt_succ h)]
      rfl

theorem length_rdRegs (s : State) : ∀ n a : Nat, (rdRegs s a n).length = n
  | 0, _ => rfl
  | n + 1, a => congrArg Nat.succ (length_rdRegs s n (a + 4))

/-- When each turn of a fold sets its own register and no other turn's, every one of these registers reads what its turn set. -/
theorem rd_foldl_range {f : State → Nat → State} {A : Nat → Nat} {w : Nat → Word} {N : Nat}
    (hf : ∀ s, ∀ i < N, ∀ j < N, rd (f s j) (A i) = if i = j then w j else rd s (A i)) (s : State) :
    ∀ n ≤ N, ∀ i < n, rd ((List.range n).foldl f s) (A i) = w i := by
  intro n
  induction n with
  | zero => exact fun _ i h => absurd h (Nat.not_lt_zero i)
  | succ n ih =>
    intro hn i hi
    rw [List.range_succ, List.foldl_append, List.foldl_cons, List.foldl_nil, hf _ i (by omega) n hn]
    split
    · next h => rw [h]
    · exact ih (by omega) i (by omega)

/-! ### READ -/

/-- A committed slot of the selected channel and set. -/
def committedSlot (g : Nat) (s : State) (j : Nat) : Word := slotOfTst (tstOf s g) (slotKey (selSet s g) (selCh s g) j)

/-- The time in ps that READ shows for a slot: the mark of a raw one, or its ticks converted (R274). -/
def shownPs (g : Nat) (s : State) (j : Nat) : Nat :=
  if isRaw (tstOf s g) (selSet s g) (selCh s g) then 0x07FFFFFF else psOfTicks (fld (committedSlot g s j) 24 0)

/-- A slot as TST_EV shows it: type and time. -/
def shownEv (g : Nat) (s : State) (j : Nat) : Word := wd (fld (committedSlot g s j) 31 29 * 2 ^ 29 + shownPs g s j)

/-- One slot of `s0` shown in TST_EV and TST_RB. -/
def showSlot (g : Nat) (s0 s : State) (j : Nat) : State :=
  setReg (Reg.TST_RB g j) (committedSlot g s0 j) (setReg (Reg.TST_EV g j) (shownEv g s0 j) s)

theorem tstRead_eq (g : Nat) (s : State) : tstRead g s = answer stOk ((List.range 16).foldl (showSlot g s) s) := rfl

theorem tstRead_tst (g : Nat) (s : State) : (tstRead g s).tst = s.tst := by
  have hm : Moves [.regs, .ans] s (tstRead g s) := tstRead_moves (hw := rfl) (h0 := Moves.refl _ s) ..
  exact hm.alters.same .tst (by decide)

theorem rd_showSlot_rb (g : Nat) (s0 s : State) : ∀ i < 16, ∀ j < 16,
    rd (showSlot g s0 s j) (Reg.TST_RB g i) = if i = j then committedSlot g s0 j else rd s (Reg.TST_RB g i) := by
  intro i _ j _
  have he : Reg.TST_RB g i ≠ Reg.TST_EV g j := by unfold Reg.TST_RB Reg.TST_EV; omega
  have hi : Reg.TST_RB g i = Reg.TST_RB g j ↔ i = j := by unfold Reg.TST_RB; omega
  simp only [showSlot, rd_setReg, he, hi, if_false]

theorem rd_showSlot_ev (g : Nat) (s0 s : State) : ∀ i < 16, ∀ j < 16,
    rd (showSlot g s0 s j) (Reg.TST_EV g i) = if i = j then shownEv g s0 j else rd s (Reg.TST_EV g i) := by
  intro i _ j _
  have he : Reg.TST_EV g i ≠ Reg.TST_RB g j := by unfold Reg.TST_RB Reg.TST_EV; omega
  have hi : Reg.TST_EV g i = Reg.TST_EV g j ↔ i = j := by unfold Reg.TST_EV; omega
  simp only [showSlot, rd_setReg, he, hi, if_false]

theorem rd_tstRead_rb (g : Nat) (s : State) {j : Nat} (hj : j < 16) : rd (tstRead g s) (Reg.TST_RB g j) = committedSlot g s j := by
  rw [tstRead_eq, rd_answer, rd_foldl_range (rd_showSlot_rb g s) s 16 (Nat.le_refl _) j hj]

theorem rd_tstRead_ev (g : Nat) (s : State) {j : Nat} (hj : j < 16) : rd (tstRead g s) (Reg.TST_EV g j) = shownEv g s j := by
  rw [tstRead_eq, rd_answer, rd_foldl_range (rd_showSlot_ev g s) s 16 (Nat.le_refl _) j hj]

/-- The quotient rounded is the one below or the next. -/
theorem divNearestEven_le (a : Int) (b : Nat) : divNearestEven a b ≤ a / (b : Int) + 1 := by
  unfold divNearestEven
  dsimp only
  repeat' split
  all_goals omega

/-- Every time shown fits the 27 bits of its field in TST_EV. -/
theorem shownPs_lt (g : Nat) (s : State) (j : Nat) : shownPs g s j < 2 ^ 27 := by
  unfold shownPs
  split
  · decide
  · have hw : fld (committedSlot g s j) 24 0 < 2 ^ 25 := Nat.mod_lt _ (by decide)
    have hd := divNearestEven_le ((fld (committedSlot g s j) 24 0 * 625 : Nat) : Int) 256
    unfold psOfTicks
    omega

/-- A type and a time put together in TST_EV read back apart. -/
theorem fld_type_time {ty ps : Nat} (ht : ty < 8) (hp : ps < 2 ^ 27) :
    fld (wd (ty * 2 ^ 29 + ps)) 31 29 = ty ∧ fld (wd (ty * 2 ^ 29 + ps)) 26 0 = ps := by
  rw [fld_wd _ _ _ (by decide), fld_wd _ _ _ (by decide)]
  unfold bitsN
  omega

theorem rdFld_tstRead_ev (g : Nat) (s : State) {j : Nat} (hj : j < 16) :
    rdFld (tstRead g s) (Reg.TST_EV g j) 31 29 = fld (committedSlot g s j) 31 29 ∧ rdFld (tstRead g s) (Reg.TST_EV g j) 26 0 = shownPs g s j := by
  unfold rdFld
  rw [rd_tstRead_ev g s hj]
  exact fld_type_time (Nat.mod_lt _ (by decide)) (shownPs_lt g s j)

/-! ### Sending the words of a channel -/

/-- The registers that storing and sending the words of a channel change. -/
def sendRegs (g : Nat) : List Nat := [Reg.TST_STATUS g, Reg.TST_XRAW_SETS_LO g, Reg.TST_XRAW_SETS_LO g + 4]

/-- Whether a group has an ACTIVE lane is shown in registers of another block. -/
theorem groupActive_sameRegs {g : Nat} {s t : State} (h : SameRegs (sendRegs g) s t) : groupActive t g = groupActive s g := by
  have hl (l : Nat) : laneStatus g l ∉ sendRegs g := by
    simp only [sendRegs, List.mem_cons, List.not_mem_nil, or_false, laneStatus]
    unfold Reg.LNK_PHY_STATUS_A Reg.LNK_PHY_STATUS_B Reg.TST_STATUS Reg.TST_XRAW_SETS_LO
    split <;> omega
  unfold groupActive laneActive
  rw [rdFld_congr (h _ (hl 0)), rdFld_congr (h _ (hl 1))]

theorem showRaw_sameRegs (g : Nat) (s : State) : SameRegs (sendRegs g) s (showRaw g s) :=
  sr_set64 _ _ (by simp [sendRegs]) (by simp [sendRegs]) sameRegs_refl

theorem linkOf_congr {s t : State} (h : t.links = s.links) (g : Nat) : linkOf t g = linkOf s g := by unfold linkOf; rw [h]

theorem showRaw_links (g : Nat) (s : State) : (showRaw g s).links = s.links := set64_links ..

/-- The map of a group is busy, and older words of a channel of a set no longer wait. -/
def mapTaken (g set k : Nat) (s : State) : State :=
  mapBusy g (modLink g (fun l => { l with relin := l.relin.filter (fun e => e.1 / 16 != set * 32 + k) }) s)

theorem mapTaken_sameRegs (g set k : Nat) (s : State) : SameRegs (sendRegs g) s (mapTaken g set k s) :=
  sr_setBit _ _ _ (by simp [sendRegs]) (sr_modLink _ _ sameRegs_refl)

/-- The words of a channel enter the queue of map writes. -/
def queueChannel (g set k : Nat) (s : State) : State :=
  (List.range 16).foldl (fun s j => queueMap g (slotKey set k j) (mapWord s g (slotKey set k j)) s) s

theorem queueChannel_sameRegs (g set k : Nat) (s : State) : SameRegs [] s (queueChannel g set k s) :=
  sr_foldl (fun _ _ h => sr_modLink _ _ h) _ sameRegs_refl

theorem length_mapQ_queueChannel (g set k : Nat) (s : State) :
    (linkOf (queueChannel g set k s) g).mapQ.length = (linkOf s g).mapQ.length + 16 := by
  have hq (s : State) (a v : Nat) : (linkOf (queueMap g a v s) g).mapQ.length = (linkOf s g).mapQ.length + 1 := by
    rw [queueMap, linkOf_modLink_self, List.length_append]
    rfl
  have hf (js : List Nat) : ∀ s : State,
      (linkOf (js.foldl (fun s j => queueMap g (slotKey set k j) (mapWord s g (slotKey set k j)) s) s) g).mapQ.length =
        (linkOf s g).mapQ.length + js.length := by
    induction js with
    | nil => exact fun _ => rfl
    | cons j js ih =>
      intro s
      rw [List.foldl_cons, ih, hq, List.length_cons]
      omega
  rw [queueChannel, hf, List.length_range]

theorem sendWords_eq (g set k : Nat) (s : State) : sendWords g set k s =
    if groupActive (mapTaken g set k s) g then queueChannel g set k (mapTaken g set k s) else mapTaken g set k s := rfl

theorem sendWords_sameRegs_taken (g set k : Nat) (s : State) : SameRegs [] (mapTaken g set k s) (sendWords g set k s) := by
  rw [sendWords_eq]
  split
  · exact queueChannel_sameRegs g set k _
  · exact sameRegs_refl

theorem sendWords_sameRegs (g set k : Nat) (s : State) : SameRegs (sendRegs g) s (sendWords g set k s) :=
  sameRegs_trans (mapTaken_sameRegs g set k s) (sameRegs_mono (sendWords_sameRegs_taken g set k s) (by simp))

theorem rdBit_sendWords_mapBusy (g set k : Nat) (s : State) : rdBit (sendWords g set k s) (Reg.TST_STATUS g) 15 = true := by
  rw [rdBit_congr (sendWords_sameRegs_taken g set k s _ (by simp))]
  exact rdBit_setBit_self _ _ _ _ (by decide)

theorem length_mapQ_sendWords {g : Nat} (set k : Nat) {s : State} (h : groupActive s g = true) :
    (linkOf (sendWords g set k s) g).mapQ.length = (linkOf s g).mapQ.length + 16 := by
  have ht : (linkOf (mapTaken g set k s) g).mapQ = (linkOf s g).mapQ := by
    rw [mapTaken, mapBusy, linkOf_congr (setBit_links ..), linkOf_modLink_self]
  rw [sendWords_eq, groupActive_sameRegs (mapTaken_sameRegs g set k s), if_pos h, length_mapQ_queueChannel, ht]

/-! ### The answer -/

/-- While the group has a lane the answer waits as an open command; otherwise it is OK at once (R273). -/
def CommitAnswered (g : Nat) (s t : State) : Prop :=
  if groupActive s g then t.ans = { deferred := true } ∧ isOpen (.commit g) t = true else t.ans = { status := 0 }

theorem commitAnswer_answered (q : Req) (g : Nat) (s : State) : CommitAnswered g s (commitAnswer q g s) := by
  unfold CommitAnswered commitAnswer
  split
  · exact ⟨rfl, by simp [isOpen, deferAnswer]⟩
  · rfl

theorem commitAnswer_regs (q : Req) (g : Nat) (s : State) : (commitAnswer q g s).regs = s.regs := by
  unfold commitAnswer
  split <;> rfl

theorem commitAnswer_tst (q : Req) (g : Nat) (s : State) : (commitAnswer q g s).tst = s.tst := by
  unfold commitAnswer
  split <;> rfl

theorem mapQ_commitAnswer (q : Req) (g : Nat) (s : State) : (linkOf (commitAnswer q g s) g).mapQ = (linkOf s g).mapQ := by
  unfold commitAnswer
  split
  · rw [linkOf_congr (deferAnswer_links ..), linkOf_modLink_self]
  · rw [linkOf_congr (answer_links ..)]

/-! ### Storing a channel of a set -/

/-- The sixteen slots of a channel of a set as TST_RB shows them, its raw words and its raw mark. -/
def storeChannel (set k : Nat) (shown raw : List Word) (mark : Bool) (t : Timing) : Timing :=
  { t with
    slots := tsetList (fun _ => 0) t.slots (slotKey set k 0) shown,
    raw := tsetList (fun _ => 0) t.raw (slotKey set k 0) raw,
    rawMark := tset (fun _ => false) t.rawMark (set * 32 + k) mark }

theorem slotKey_eq (set k j : Nat) : slotKey set k j = slotKey set k 0 + j := by unfold slotKey; omega

theorem slotOfTst_storeChannel {set k : Nat} {shown raw : List Word} {mark : Bool} (t : Timing) {j : Nat} (h : j < shown.length) :
    slotOfTst (storeChannel set k shown raw mark t) (slotKey set k j) = nth 0 shown j := by
  rw [slotKey_eq]
  exact tget_tsetList_run _ 0 _ _ h

theorem raw_storeChannel {set k : Nat} {shown raw : List Word} {mark : Bool} (t : Timing) {j : Nat} (h : j < raw.length) :
    tget (fun _ => 0) (storeChannel set k shown raw mark t).raw (slotKey set k j) = nth 0 raw j := by
  rw [slotKey_eq]
  exact tget_tsetList_run _ 0 _ _ h

theorem isRaw_storeChannel (set k : Nat) (shown raw : List Word) (mark : Bool) (t : Timing) :
    isRaw (storeChannel set k shown raw mark t) set k = mark := tget_tset_self ..

/-- A channel stored, its words sent, and the command answered (R272, R273, R275). -/
def storeAndSend (q : Req) (g : Nat) (shown raw : List Word) (mark : Bool) (s : State) : State :=
  commitAnswer q g (sendWords g (selSet s g) (selCh s g) (showRaw g (modTst g (storeChannel (selSet s g) (selCh s g) shown raw mark) s)))

section
variable (q : Req) (g : Nat) (shown raw : List Word) (mark : Bool) (s : State)

theorem tstOf_storeAndSend : tstOf (storeAndSend q g shown raw mark s) g = storeChannel (selSet s g) (selCh s g) shown raw mark (tstOf s g) := by
  have hm : Moves [.regs, .links] (modTst g (storeChannel (selSet s g) (selCh s g) shown raw mark) s)
      (sendWords g (selSet s g) (selCh s g) (showRaw g (modTst g (storeChannel (selSet s g) (selCh s g) shown raw mark) s))) :=
    sendWords_moves (hw := rfl) (h0 := showRaw_moves (hw := rfl) (h0 := Moves.refl _ _) ..) ..
  unfold tstOf storeAndSend
  rw [commitAnswer_tst, hm.alters.same .tst (by decide)]
  exact tget_tset_self ..

theorem rdBit_storeAndSend_mapBusy : rdBit (storeAndSend q g shown raw mark s) (Reg.TST_STATUS g) 15 = true := by
  rw [storeAndSend, rdBit_congr (rd_congr (commitAnswer_regs ..) _), rdBit_sendWords_mapBusy]

theorem showRaw_modTst_sameRegs (f : Timing → Timing) : SameRegs (sendRegs g) s (showRaw g (modTst g f s)) :=
  sameRegs_trans (sr_modTst g f sameRegs_refl) (showRaw_sameRegs g _)

theorem storeAndSend_answered : CommitAnswered g s (storeAndSend q g shown raw mark s) := by
  have h := commitAnswer_answered q g
    (sendWords g (selSet s g) (selCh s g) (showRaw g (modTst g (storeChannel (selSet s g) (selCh s g) shown raw mark) s)))
  unfold CommitAnswered at h
  rwa [groupActive_sameRegs (sameRegs_trans (showRaw_modTst_sameRegs g s _) (sendWords_sameRegs g _ _ _))] at h

theorem length_mapQ_storeAndSend (h : groupActive s g = true) :
    (linkOf (storeAndSend q g shown raw mark s) g).mapQ.length = (linkOf s g).mapQ.length + 16 := by
  have ha := groupActive_sameRegs (showRaw_modTst_sameRegs g s (storeChannel (selSet s g) (selCh s g) shown raw mark))
  rw [storeAndSend, mapQ_commitAnswer, length_mapQ_sendWords _ _ (ha.trans h), linkOf_congr (showRaw_links ..), linkOf_congr (modTst_links ..)]

end

/-! ### Refusals -/

theorem entryInvalid_tst (g set k : Nat) (b : Nat × Nat) (s : State) : (entryInvalid g set k b s).tst = s.tst := by
  rw [entryInvalid, answer_tst, setRegN_tst]

theorem rd_entryInvalid_reason (g set k : Nat) (b : Nat × Nat) (s : State) :
    rd (entryInvalid g set k b s) (Reg.TST_REASON g) = wd (set * 16777216 + k * 65536 + b.2 * 256 + b.1) := by
  rw [entryInvalid, rd_answer, rd_setRegN_self]

/-! ### COMMIT -/

/-- The sixteen entries of TST_EV, their times converted to ticks (R262). -/
def evSlots (g : Nat) (s : State) : List Slot :=
  (List.range 16).map (fun j => (rdFld s (Reg.TST_EV g j) 31 29, ticksOfPs (rdFld s (Reg.TST_EV g j) 26 0)))

theorem length_evSlots (g : Nat) (s : State) : (evSlots g s).length = 16 := by rw [evSlots, List.length_map, List.length_range]

/-- A slot as it is stored: type and ticks, all 0 when unused. -/
def slotWord (e : Slot) : Word := wd (e.1 * 2 ^ 29 + if e.1 = 0 then 0 else e.2)

theorem nth_map_slotWord {slots : List Slot} {j : Nat} (h : j < slots.length) : nth 0 (slots.map slotWord) j =
    wd ((nth (0, 0) slots j).1 * 2 ^ 29 + if (nth (0, 0) slots j).1 = 0 then 0 else (nth (0, 0) slots j).2) := by
  rw [nth_map (0, 0) 0 slotWord h, slotWord]

/-- COMMIT refuses the first break of R258 (R272). -/
theorem tstCommit_refused (q : Req) {g : Nat} {s : State} {b : Nat × Nat} (hb : firstBreak allRules (periodOf s g) (evSlots g s) = some b) :
    tstCommit q g s = entryInvalid g (selSet s g) (selCh s g) b s := by
  unfold tstCommit
  dsimp only
  rw [← evSlots, hb]

/-- Entries without a break are stored in place of any raw words. -/
theorem tstCommit_stored (q : Req) {g : Nat} {s : State} (hb : firstBreak allRules (periodOf s g) (evSlots g s) = none) :
    tstCommit q g s = storeAndSend q g ((evSlots g s).map slotWord) (List.replicate 16 0) false s := by
  unfold tstCommit
  dsimp only
  rw [← evSlots, hb]
  unfold storeAndSend storeChannel slotWord
  rfl

/-! ### WRITE_RAW -/

/-- The sixteen words of TST_XRAW as types with COARSE in place of the time (R275). -/
def rawSlotsOf (ws : List Word) : List Slot := ws.map (fun w => (fld w 31 29, fld w 28 12))

/-- The first slot of entry `e` whose COARSE lies past the period. -/
def coarseBreak (n : Nat) (slots : List Slot) (e : Nat) : Option Nat :=
  (List.range 4).find? (fun j => decide ((2 * n - 1) / 256 < (nth (0, 0) slots (4 * e + j)).2))

/-- The first break of raw words: by entries, COARSE before the rules on types. -/
def rawBreak (n : Nat) (slots : List Slot) : Option (Nat × Nat) :=
  (List.range 4).findSome? (fun e =>
    match coarseBreak n slots e with
    | some j => some (2, 4 * e + j)
    | none => (entryBreak [3, 5, 6] n ((slots.drop (4 * e)).take 4)).map (fun p => (p.1, 4 * e + p.2)))

/-- The sixteen words of TST_XRAW. -/
def rawWords (g : Nat) (s : State) : List Word := rdRegs s (Reg.TST_XRAW g 0) 16

/-- A raw word as TST_RB shows it: its type and the mark of a raw slot. -/
def rawShown (w : Word) : Word := wd (fld w 31 29 * 2 ^ 29 + 0x01FFFFFF)

/-- WRITE_RAW refuses the first break. -/
theorem writeRaw_refused (q : Req) {g : Nat} {s : State} {b : Nat × Nat} (hb : rawBreak (periodOf s g) (rawSlotsOf (rawWords g s)) = some b) :
    writeRaw q g s = entryInvalid g (selSet s g) (selCh s g) b s := by
  unfold writeRaw
  dsimp only
  split
  · next b' hb' => rw [Option.some.inj (hb.symm.trans hb')]
  · next hn => exact absurd (hb.symm.trans hn) (Option.some_ne_none _)

/-- Words without a break are stored as they are, and the channel is marked raw. -/
theorem writeRaw_stored (q : Req) {g : Nat} {s : State} (hb : rawBreak (periodOf s g) (rawSlotsOf (rawWords g s)) = none) :
    writeRaw q g s = storeAndSend q g ((rawWords g s).map rawShown) (rawWords g s) true s := by
  unfold writeRaw
  dsimp only
  split
  · next b' hb' => exact absurd (hb'.symm.trans hb) (Option.some_ne_none _)
  · unfold storeAndSend storeChannel rawShown rawWords
    rfl

/-- A COARSE past the period breaks, in the entry of its slot at the latest. -/
theorem rawBreak_ne_none {n : Nat} {slots : List Slot} (hl : slots.length = 16) (h : ∃ x ∈ slots, (2 * n - 1) / 256 < x.2) :
    rawBreak n slots ≠ none := by
  obtain ⟨x, hx, hc⟩ := h
  obtain ⟨i, hi, rfl⟩ := List.mem_iff_getElem.mp hx
  intro hn
  have he := List.findSome?_eq_none_iff.mp hn (i / 4) (List.mem_range.mpr (by omega))
  have hb : coarseBreak n slots (i / 4) ≠ none := by
    intro hb
    have hj := List.find?_eq_none.mp hb (i % 4) (List.mem_range.mpr (by omega))
    rw [Nat.div_add_mod] at hj
    simp [nth, hi, hc] at hj
  obtain ⟨j, hj⟩ := Option.ne_none_iff_exists'.mp hb
  rw [hj] at he
  exact absurd he (Option.some_ne_none _)

/-- Words that keep COARSE in the period and the rules on types have no break. -/
theorem rawBreak_eq_none {n : Nat} {slots : List Slot} (hc : ∀ x ∈ slots, x.2 ≤ (2 * n - 1) / 256)
    (hr : ∀ e < 4, entryBreak [3, 5, 6] n ((slots.drop (4 * e)).take 4) = none) : rawBreak n slots = none := by
  have hcoarse (e : Nat) : coarseBreak n slots e = none := by
    refine List.find?_eq_none.mpr (fun j _ => ?_)
    rw [decide_eq_true_eq, Nat.not_lt, nth]
    cases hs : slots[4 * e + j]? with
    | none => exact Nat.zero_le _
    | some x => exact hc x (List.mem_of_getElem? hs)
  refine List.findSome?_eq_none_iff.mpr (fun e he => ?_)
  rw [hr e (List.mem_range.mp he), hcoarse e]
  rfl

/-! ### The commands -/

/-- Settles O29: the refusal and the storing of COMMIT, READ, and the refusal and the storing of WRITE_RAW. -/
theorem entriesAreCommittedAndRead : Obligations.EntriesAreCommittedAndRead := by
  intro q g s set k n slots ws rawSlots answered
  have hws : ws.length = 16 := length_rdRegs ..
  refine ⟨fun hA => ?_, fun hA => ?_, fun hA => ?_⟩
  · have hx : exec (.tstCommit q g) s = .next (tstCommit q g.val s) := congrArg Host.Outcome.next (guarded_accepted hA _)
    rw [hx]
    refine ⟨fun r j hb => ?_, fun hb => ?_⟩
    · rw [tstCommit_refused q hb]
      obtain ⟨hans, hregs, -⟩ := entryInvalid_refuses g.val set k (r, j) s
      exact ⟨_, rfl, hans, entryInvalid_tst .., rd_entryInvalid_reason .., hregs⟩
    · rw [tstCommit_stored q hb]
      refine ⟨_, rfl, storeAndSend_answered .., ?_, rdBit_storeAndSend_mapBusy .., fun j hj => ?_, length_mapQ_storeAndSend _ _ _ _ _ _⟩
      · rw [tstOf_storeAndSend]
        exact isRaw_storeChannel ..
      · rw [tstOf_storeAndSend, slotOfTst_storeChannel _ (by rwa [List.length_map, length_evSlots])]
        exact nth_map_slotWord (by rwa [length_evSlots])
  · exact ⟨tstRead g.val s, congrArg Host.Outcome.next (guarded_accepted hA _), rfl, tstRead_tst .., fun j hj =>
      ⟨rd_tstRead_rb _ _ hj, rdFld_tstRead_ev _ _ hj⟩⟩
  · have hx : exec (.writeRaw q g) s = .next (writeRaw q g.val s) := congrArg Host.Outcome.next (guarded_accepted hA _)
    rw [hx]
    refine ⟨fun ⟨w, hw, hc⟩ => ?_, fun hc hr => ?_⟩
    · obtain ⟨b, hb⟩ := Option.ne_none_iff_exists'.mp
        (rawBreak_ne_none (n := n) (slots := rawSlots) (by rw [List.length_map, hws]) ⟨_, List.mem_map_of_mem hw, hc⟩)
      rw [writeRaw_refused q hb]
      obtain ⟨hans, -⟩ := entryInvalid_refuses g.val set k b s
      exact ⟨_, rfl, hans, entryInvalid_tst ..⟩
    · have hb : rawBreak n rawSlots = none := rawBreak_eq_none (by simpa [rawSlots] using hc) hr
      rw [writeRaw_stored q hb]
      refine ⟨_, rfl, storeAndSend_answered .., ?_, fun j hj => ?_⟩
      · rw [tstOf_storeAndSend]
        exact isRaw_storeChannel ..
      · rw [tstOf_storeAndSend]
        exact raw_storeChannel _ (lt_of_lt_of_eq hj hws.symm)

end Sys2Proof.Proofs
end
